-- ==== Sys2Proof/Word.lean ====
section
/-!
DEFINITION. Word.lean: the QC512's native word (R7): 64 bits, bit 0 the least significant bit.
-/
namespace Sys2Proof

/-- The native 64-bit word of host memory, DRAM and packet payloads (R7). -/
abbrev Word := BitVec 64

/-- One byte of a word or a packet. -/
abbrev Byte := BitVec 8

/-- A set of words of fixed count, lowest index first (R8). -/
abbrev Words := List Word

end Sys2Proof
end

