-- ==== Sys2Proof/Syntax.lean ====
section
/-!
DEFINITION. Syntax.lean: the commands of the QC512: one constructor of `Instr` for every row of the opcode table,
with the operands that the row's sender or event supplies. A command packet carries the header fields of Table 12.3
and its payload words; an event row carries the element it happens to and what the spec leaves to the outside of the
device (a level of a pin, a measured value, a reading of a sensor).
-/
namespace Sys2Proof

/-- Where a packet comes from: the submission ring of a queue pair, the debug port's queue pair, or the device itself
(R301: the Curator replaying a profile or a journal, and the Keeper). -/
inductive Source where
  | queue (q : Fin 32768)
  | debugPort
  | internal
deriving DecidableEq, Repr

/-- A command packet without its OPCODE (Table 12.3), which the constructor of `Instr` names. SLOTS and LASTW follow
from the length of the payload (R293). `rsv` holds the two reserved fields W0 [47:46] and W0 [35:32]. -/
structure Packet where
  source : Source
  check : Bool := false
  barrier : Bool := false
  fence : Bool := false
  partition : BitVec 4 := 0
  rsv : BitVec 6 := 0
  tag : BitVec 16 := 0
  handle : BitVec 32 := 0
  crc : BitVec 32 := 0
  payload : Words := []
deriving DecidableEq, Repr

/-- The two control units. -/
inductive UnitId where
  | cua
  | cub
deriving DecidableEq, Repr

/-- The sync inputs (R36). -/
inductive SyncIn where
  | chassis
  | syncin
deriving DecidableEq, Repr

/-- Causes of a machine check (R325). -/
inductive MachineCause where
  | microwordParity
  | patchMapParity
  | stagingParity
  | scratchParity
  | malformedField
  | commitRule
deriving DecidableEq, Repr

/-- The register or the region that a BAR0 write reaches (R429, R430): the words D0 to D2 of a queue descriptor, a
read-only region, or an unmapped offset. -/
inductive Bar0Target where
  | descriptor (q : Fin 32768) (w : Fin 4)
  | readOnly
  | msixMask (vector : Fin 2048) (masked : Bool)
  | unmapped
deriving DecidableEq, Repr

/-- Errors that an estimator's memories and datapath report (R189, R190): an uncorrectable word of program memory, a corrected
bit in either memory, a parity or residue mismatch or an uncorrectable word of data memory. -/
inductive EstError where
  | program (addr : Fin 16384)
  | corrected
  | datapath
deriving DecidableEq, Repr

/-- Why an UP lane is declared failed (R212): loss of signal for 20 ns, block errors in 16 of 64 blocks (given: the last 58 payload
bits before them, and the blocks as received), four check blocks failed or missing in a row, two launch stamps in a row that differ. -/
inductive LaneCause where
  | signal
  | blocks (before : BitVec 58) (run : List (BitVec 66))
  | checks
  | stamps
deriving DecidableEq, Repr

/-- The lane of a real-time bridge that a parity error meets (R17): the cue lane of a sequencer, the state lane of a line, or
one of a line's value lanes. -/
inductive BridgeLane where
  | cue (q : Fin 256)
  | state (l : Fin 32)
  | value (l : Fin 32)
deriving DecidableEq, Repr

/-- Where a MARK pulse ends (Table 3.6): a pin (0–7 TIO0–TIO7, 8–15 chassis trigger lines 0–7), or the marker bit of a
sequencer. -/
inductive MarkTarget where
  | pin (n : Fin 16)
  | marker (q : Fin 256)
deriving DecidableEq, Repr

/-- What start-up may find (R94, R128, R368, R380, R391, R414, R443): a self-test that fails, a checkpoint that fails verification, and
what ends start-up in phase 15. -/
inductive StartFault where
  | sequencer (q : Fin 256)
  | dacCore (o : Fin 96)
  | dacSpare (k : Fin 8)
  | adcCore (l : Fin 32)
  | adcSpare (k : Fin 8)
  | sensor (i : Fin 72)
  | voter (v : Fin 3)
  | bridgeLane (die : Fin 4) (toHub : Bool)
  | checkpoint
  | dramTraining
  | dramDensity
  | diePower
  | identity
deriving DecidableEq, Repr

/-- What a start-up phase finds: whether the chassis reference is present (R33), and the faults. -/
structure StartReport where
  chassisRef : Bool := true
  faults : List StartFault := []
deriving DecidableEq, Repr
/-- The commands of the QC512, one constructor for every row of the opcode table, in its order. -/
inductive Instr where
  /-- Opens a session on the queue's function or the debug port and returns a new handle. (R302) -/
  | sessionOpen (p : Packet)
  /-- Closes one session; later packets under its handle are refused. (R303) -/
  | sessionClose (p : Packet)
  /-- Returns product, tier, lifecycle, power state, units, release, serial and Collection identity. (R31) -/
  | identify (p : Packet)
  /-- Returns its payload unchanged in a reply, writing no Ledger record. (R297) -/
  | echo (p : Packet)
  /-- Feeds an offset to the Almanac servo, configures it, or sets the Almanac, slewing or stepping it. (R51) -/
  | timeServoFeed (p : Packet)
  /-- Selects reference and sync source and arms, replaces or cancels the epoch capture. (R36) -/
  | syncArm (p : Packet)
  /-- Measures sync-edge phase, runs a fabric round trip with a peer, or applies phase correction and epoch delay. (R43) -/
  | skewCal (p : Packet)
  /-- Returns Almanac, tick counter, last mark, slew fraction and timebase flags sampled in one tick. (R60) -/
  | almanacRead (p : Packet)
  /-- Writes instruction words into a sequencer's program memory, refusing words of an active or sealed live range. (R98) -/
  | seqLoad (p : Packet)
  /-- Writes the shadow bindings of a sequencer's binding indices. (R65) -/
  | seqBind (p : Packet)
  /-- Checks and seals the shadow sets of the named sequencers for application at their next qualifying shot boundary. (R26) -/
  | seqArm (p : Packet)
  /-- Halts the named sequencers at their next shot boundary or aborts their shots. (R88) -/
  | seqHalt (p : Packet)
  /-- Returns a sequencer's state, counters, fault record and optionally its registers, optionally clearing counts. (R61) -/
  | seqStatus (p : Packet)
  /-- Writes shadow slot and output settings of drive and probe outputs. (R129) -/
  | toneConfig (p : Packet)
  /-- Writes coefficients of a cluster's shadow crosstalk matrix. (R115) -/
  | xtalkMatrix (p : Packet)
  /-- Mutes, enables, powers off or configures outputs, all records applied in one tick. (R120) -/
  | outputEnable (p : Packet)
  /-- Creates, writes data into or deletes a folio in the Stacks, checking its CRC when complete. (R135) -/
  | folioWrite (p : Packet)
  /-- Pins, unpins or queries folios in a converter die's Shelf. (R138) -/
  | shelfPin (p : Packet)
  /-- The last copy of a pin or stream head is in place and the pinning or planning command completes. (R138) -/
  | shelfCopyEnd (bad : Option (BitVec 16))
  /-- Admits and writes a sequencer's shadow stream plan, allocating windows and copying heads. (R144) -/
  | streamPlan (p : Packet)
  /-- Writes demodulation-slot settings and line zone and power, or reports their status. (R150) -/
  | readoutConfig (p : Packet)
  /-- Analogue settling after a ZONE or POWER change ends and the completion is posted. (R150) -/
  | lineSettleEnd (l : Fin 32)
  /-- Writes a slot's shadow kernel, explicit or boxcar, allocating Shelf granules. (R157) -/
  | kernelLoad (p : Packet)
  /-- Writes the shadow fast-discriminator parameters of demodulation slots. (R159) -/
  | discrimConfig (p : Packet)
  /-- Writes or reads an estimator's program memory, working memory or shadow parameter page. (R194) -/
  | estLoad (p : Packet)
  /-- Starts, stops, commits the parameter page of, or queries an estimator. (R187) -/
  | estStart (p : Packet)
  /-- Writes shadow send and delivery entries of the route table. (R222) -/
  | routeTable (p : Packet)
  /-- Trains, takes down, idles, wakes, configures or queries a Selkadex lane. (R215) -/
  | laneTrain (p : Packet)
  /-- Sets Collection ID, member number, member mask and lane map, optionally training the lanes. (R218) -/
  | collectionJoin (p : Packet)
  /-- Starts, reads or stops a PRBS31 test on a lane. (R220) -/
  | laneTest (p : Packet)
  /-- Defines or deletes a Concordance view, writes member records, or queries a view. (R224) -/
  | concMap (p : Packet)
  /-- Writes or fills entries of a view's shadow region and staging image. (R234) -/
  | concWrite (p : Packet)
  /-- A fill-mode CONC_WRITE finishes writing its entries and completes. (R309) -/
  | concFillEnd
  /-- Starts digest verification of a view's shadow region, or cancels a verification. (R235) -/
  | concCommit (p : Packet)
  /-- Admits and sets, removes or queries a demodulation slot's capture plan. (R254) -/
  | captureConfig (p : Packet)
  /-- Configures trigger inputs, select entries and pattern units in one apply tick. (R252) -/
  | patternConfig (p : Packet)
  /-- Reads, peeks or discards a slot's capture ring. (R263) -/
  | captureRead (p : Packet)
  /-- Configures, enables, turns off or queries bias channels. (R269) -/
  | biasConfig (p : Packet)
  /-- Sets a level, loads or stops a code queue, or measures a bias channel. (R274) -/
  | biasSet (p : Packet)
  /-- Configures, queries or reads back the threshold DAC of window monitors. (R283) -/
  | monitorConfig (p : Packet)
  /-- The housekeeping ADC finishes one readback or measure request and serves the next. (R285) -/
  | housekeepingRequestEnd (die : Fin 4) (value : Word)
  /-- Runs, queries, cancels, accepts or discards a calibration of named elements. (R349) -/
  | calRun (p : Packet)
  /-- Writes trim words of a temperature point or restores factory words. (R358) -/
  | trimLoad (p : Packet)
  /-- Returns trim words of a point, the in-force values, targets or candidate. (R358) -/
  | trimRead (p : Packet)
  /-- Stores working copies into a store-image copy, stages or clears profile fragments, or queries. (R385) -/
  | archiveStore (p : Packet)
  /-- Returns Ledger records from the ring, a checkpoint or the newest anchor. (R391) -/
  | ledgerRead (p : Packet)
  /-- Returns trouble words visible to the origin, sampled in one tick. (R393) -/
  | troubleRead (p : Packet)
  /-- Clears the masked bits of one trouble word, writing a record per cleared bit. (R393) -/
  | troubleClear (p : Packet)
  /-- Returns a signed attestation report or the identity public key. (R403) -/
  | attest (p : Packet)
  /-- Requests a challenge, grants, responds to, lowers or queries a debug-port session level. (R405) -/
  | debugUnlock (p : Packet)
  /-- Stages, commits, clears, queries a patch or signed image, or raises the release floor. (R402) -/
  | patchLoad (p : Packet)
  /-- Advances the lifecycle state, replaces the owner key, or queries. (R396) -/
  | lifecycleAdvance (p : Packet)
  /-- Moves the device through the power-state chain toward a target, or queries. (R409) -/
  | powerState (p : Packet)
  /-- Sets thermal thresholds, queries supervision, reads a thermal record or clears the skip count. (R425) -/
  | thermalConfig (p : Packet)
  /-- Assigns elements and queues to a partition, queries it, or returns queues to the physical function. (R371) -/
  | partitionDefine (p : Packet)
  /-- Holds, releases or queries partitions. (R373) -/
  | partitionHold (p : Packet)
  /-- Sets or queries a partition's shares or the device split. (R376) -/
  | admitShares (p : Packet)
  /-- Requests a planned switch-over, restarts the non-active unit, or queries the control units. (R337) -/
  | unitSwitchover (p : Packet)
  /-- A doorbell write with SQV makes submission slots up to SQ_TAIL available. (R291) -/
  | doorbellSqTail (q : Fin 32768) (sqTail : BitVec 12) (narrow : Bool)
  /-- A doorbell write with CQV frees completion slots before CQ_HEAD. (R291) -/
  | doorbellCqHead (q : Fin 32768) (cqHead : BitVec 12) (narrow : Bool)
  /-- Writing ENABLE = 1 to a DISABLED or BROKEN queue resets its positions and enables it. (R290) -/
  | queueEnable (q : Fin 32768)
  /-- Writing ENABLE = 0 to an ENABLED queue makes it DRAINING. (R290) -/
  | queueDisable (q : Fin 32768)
  /-- A DRAINING queue has posted its last completion and becomes DISABLED. (R290) -/
  | queueDrainEnd (q : Fin 32768)
  /-- A write to a BAR0 register with no behaviour of its own is stored or ignored. (R430) -/
  | bar0RegisterWrite (r : Bar0Target) (v : Word)
  /-- The queue engine fetches a whole packet when slots and completion room allow. (R295) -/
  | packetFetch (src : Source) (ring : Words) (pcieError : Bool)
  /-- On release of an item, the Desk executes its hold list, re-checking each held command. (R307) -/
  | heldCommandExecute
  /-- A routine's COMMIT microword runs journaling, staged writes, Ledger, posting and vectors to the end. (R320) -/
  | commitSequence (pcieError : Bool)
  /-- No journal acknowledgment within 1 µs marks the standby not synchronized. (R320) -/
  | standbyAckTimeout
  /-- A parity, malformed-field or commit-rule error abandons or ends the routine and retries it once. (R325) -/
  | machineCheck (cause : MachineCause) (addr : BitVec 14) (tail : Bool)
  /-- A Curator repair request abandons the current routine and the repair routine runs. (R322) -/
  | repairRequest
  /-- The Curator runs one step of a long command as an internal routine with its own commit. (R324) -/
  | longCommandStep (accept : BitVec 32)
  /-- A long command ends, writing its Ledger record and raising its vectors. (R309) -/
  | longCommandEnd (accept : BitVec 32)
  /-- 10 µs after the first unsignaled completion, the queue's vector is raised. (R312) -/
  | interruptCoalesceTimeout (q : Fin 32768)
  /-- A healthy unit toggles its heartbeat every 2 µs. (R332) -/
  | heartbeatToggle (u : UnitId) (watchdog : Bool) (stall : BitVec 16)
  /-- The Keeper declares a unit's heartbeat missing after 6 µs without a toggle. (R332) -/
  | heartbeatMissing (u : UnitId)
  /-- A unit claims the Keeper's token. (R333) -/
  | tokenClaim (u : UnitId)
  /-- In each KEEP cycle the Keeper decides the token, fencing units as needed. (R333) -/
  | keeperDecision
  /-- The new active unit completes the journal, reposts, takes over queues and resumes fetch. (R336) -/
  | switchover
  /-- A journal word parity error sends the standby unit to RESYNC. (R331) -/
  | journalParityError
  /-- Every 60 s the standby unit runs its self-tests, replay check, parity sweep and Keeper path test. (R338) -/
  | standbyProof (passed : Bool)
  /-- A fenced unit restarts 1 ms after fencing and runs self-test, resync and its first proof. (R340) -/
  | unitRestart (u : UnitId)
  /-- A unit's self-test ends, passing or failing. (R341) -/
  | unitSelftestEnd (u : UnitId) (passed : Bool)
  /-- A resynchronizing unit has its state image and journal and becomes STANDBY. (R340) -/
  | resyncEnd (u : UnitId)
  /-- A Keeper voter disagrees with the majority and is taken out of service. (R368) -/
  | keeperVoterFault (v : Fin 3)
  /-- A service lane group to a converter die fails, causing switch-over or held commands. (R19) -/
  | serviceLaneFailure (u : UnitId) (die : Fin 4)
  /-- Every 1 ms the active unit retrains its failed service lane group. (R19) -/
  | serviceLaneRetrain (die : Fin 4) (up : Bool)
  /-- A service lane group to the die returns and held commands execute. (R19) -/
  | serviceLaneUp (u : UnitId) (die : Fin 4)
  /-- After 100 ms without a group, held commands are refused with 0x0603. (R19) -/
  | serviceLaneHoldTimeout (die : Fin 4)
  /-- No reference edge for 50 ns puts the sample PLL in holdover and reports it. (R58) -/
  | referenceLoss
  /-- Reference edges return and the stability wait begins. (R59) -/
  | referenceReturn
  /-- After 1 ms of stable reference, steered relock begins. (R59) -/
  | referenceStable
  /-- Steered relock completes and epoch-valid is cleared. (R59) -/
  | relockComplete
  /-- The sample PLL declares lock and the unlock mute clears. (R34) -/
  | pllLock
  /-- No valid signal within 10 ms of a source change sets free run and REF_LOSS. (R35) -/
  | referenceTimeout
  /-- The lock detector sees phase error above 50 ps and unlock-mutes every RF output. (R369) -/
  | pllFault
  /-- A rising sync edge reaches the TDC while an epoch capture is armed. (R36) -/
  | syncEdge (src : SyncIn) (ps : Fin 1000)
  /-- At the epoch tick the tick counter is cleared, epoch-valid set and the epoch recorded. (R41) -/
  | epochSet
  /-- The second phase wraps, latching the mark record, raising the mark vector and driving mark outputs. (R50) -/
  | almanacMark
  /-- The servo's phase term ends after tc and the slew fraction is recomputed. (R51) -/
  | servoPhaseTermEnd
  /-- An Almanac-scheduled event's distance reaches zero and it fires. (R55) -/
  | almanacEventFire
  /-- A TDC or fabric SKEW_CAL measurement finishes and completes with its reply. (R309) -/
  | skewCalComplete
  /-- No edge or peer answer in time completes SKEW_CAL with 0x0603. (R309) -/
  | skewCalTimeout
  /-- An armed sequencer registers its start event and begins a shot in tick 0. (R85) -/
  | shotStart (q : Fin 256)
  /-- At a sequencer's shot boundary sealed sets apply and it re-arms or becomes IDLE. (R86) -/
  | shotBoundary (q : Fin 256)
  /-- A shot reaching SST + MAXLEN is aborted with code 6. (R87) -/
  | shotLengthLimit (q : Fin 256)
  /-- Sequencer instruction with no action. (R71) -/
  | nop (q : Fin 256)
  /-- Issues a cue starting a folio on a bound drive or probe slot. (R80) -/
  | play (q : Fin 256)
  /-- Issues a cue setting a bound slot's frequency word. (R101) -/
  | setf (q : Fin 256)
  /-- Issues a cue setting a bound slot's frame offset. (R110) -/
  | setp (q : Fin 256)
  /-- Issues a cue adding to a bound slot's frame offset. (R110) -/
  | frame (q : Fin 256)
  /-- Issues a cue opening an integration window on a bound demodulation slot. (R155) -/
  | measure (q : Fin 256)
  /-- Issues a cue pulsing a trigger output or the sequencer's marker bit. (R124) -/
  | mark (q : Fin 256)
  /-- Stalls until an enabled source has an event or the timeout elapses. (R73) -/
  | wait (q : Fin 256)
  /-- An enabled source's event resolves a pending WAIT. (R73) -/
  | waitResolve (q : Fin 256)
  /-- A WAIT's timeout elapses without an event. (R73) -/
  | waitTimeout (q : Fin 256)
  /-- Branches on a verdict in a port with a deadline, or on TN. (R75) -/
  | brv (q : Fin 256)
  /-- A latched verdict resolves a stalled BRV before its deadline. (R75) -/
  | brvResolve (q : Fin 256)
  /-- A BRV reaches its deadline and takes its default path with VL or VA. (R75) -/
  | brvDeadline (q : Fin 256)
  /-- Starts a Concordance lookup gathering verdicts under the view's gather map. (R78) -/
  | lookup (q : Fin 256)
  /-- The gather completes or its deadline passes and the index is formed and read. (R227) -/
  | lookupResolve (q : Fin 256)
  /-- 24 ticks after resolution the entry is written to G[GD] and a frame cue may issue. (R229) -/
  | lookupResult (q : Fin 256) (err : Fin 3)
  /-- Sequencer branch on a comparison of G registers or a flag. (R64) -/
  | br (q : Fin 256)
  /-- Opens a zero-overhead counted loop. (R82) -/
  | loop (q : Fin 256)
  /-- Pushes the return address and jumps to the target. (R83) -/
  | call (q : Fin 256)
  /-- Pops the call stack and jumps. (R83) -/
  | ret (q : Fin 256)
  /-- Ends the shot's instruction flow and stops repeating folios. (R81) -/
  | seqEnd (q : Fin 256)
  /-- Computes GD from GA and GB. (R71) -/
  | alu (q : Fin 256)
  /-- Computes GD from GA and a sign-extended immediate. (R71) -/
  | alui (q : Fin 256)
  /-- Loads an immediate into a G register. (R71) -/
  | li (q : Fin 256)
  /-- Copies a special register into a G register. (R71) -/
  | movs (q : Fin 256)
  /-- A held cue reaches its stamp and its action is launched into the slot datapath or hub. (R100) -/
  | cueExecute (q : Fin 256)
  /-- A MARK or mark-output pulse ends after its width. (R432) -/
  | markPulseEnd (m : MarkTarget)
  /-- Five ticks after an abort, pending cues are discarded, folios cut, slots hold-muted and windows closed. (R84) -/
  | seqAbortCut (q : Fin 256)
  /-- A lockstep miscompare aborts the shot and retires the pair, or fails the sequencer. (R91) -/
  | lockstepMiscompare (q : Fin 256)
  /-- The spare pair's registers are restored and the sequencer is armed again if due. (R91) -/
  | sparePairRestoreEnd (q : Fin 256)
  /-- An uncorrectable program-memory word aborts the shot with code 2. (R93) -/
  | programMemoryError (q : Fin 256) (addr : Fin 4096) (corrected : Bool)
  /-- A real-time bridge lane parity error mutes, taints or makes verdicts Absent. (R17) -/
  | bridgeParityError (lane : BridgeLane)
  /-- A lane with repeated parity errors is retired and its traffic moved to a spare lane. (R367) -/
  | bridgeLaneRetire (die : Fin 4) (toHub : Bool)
  /-- The debug port halts a sequencer at its next shot boundary. (R89) -/
  | debugSequencerHalt (q : Fin 256)
  /-- The debug port steps a halted sequencer one instruction, tainting the shot. (R89) -/
  | debugSequencerStep (q : Fin 256)
  /-- The player passes a midpoint or enters a half and a stream-window half is requested. (R143) -/
  | refillRequest (q : Fin 256) (b : Fin 8)
  /-- Granules of a requested half land and become valid. (R143) -/
  | refillLand (q : Fin 256) (b : Fin 8) (n : Fin 8192) (err : Option (Fin 8))
  /-- An uncorrectable Shelf word plays as zero, taints the shot and requests a repair. (R141) -/
  | shelfEccError (q : Fin 256) (granule : Fin 57344) (word : Fin 32) (corrected : Bool)
  /-- A mute or power-down ramp ends and a held enable executes. (R121) -/
  | outputRampEnd (o : Fin 96)
  /-- A powered-up DAC core settles and its command mute clears with a ramp. (R120) -/
  | dacCoreSettled (o : Fin 96)
  /-- A DAC core monitor declares a fault, fault-muting the output and starting the spare. (R126) -/
  | dacCoreFault (o : Fin 96)
  /-- The spare core is connected, the failed core released and the fault mute released. (R126) -/
  | dacFaultSwapEnd (o : Fin 96)
  /-- The spare has been powered for 100 µs with its trims loaded, ready for a planned swap. (R125) -/
  | sparePrepared (k : Fin 8)
  /-- A quiet interval is confirmed and the switch matrix makes and breaks the DAC swap. (R125) -/
  | dacPlannedSwap (o : Fin 96)
  /-- The incoming DAC core serves the output and the outgoing core is released. (R125) -/
  | dacPlannedSwapEnd (o : Fin 96)
  /-- No quiet interval or swap opportunity within 100 ms abandons the attempt. (R125) -/
  | plannedSwapAbandon (k : Fin 8)
  /-- An ADC core fault is declared, the line's data replaced by zero and the spare started. (R166) -/
  | adcCoreFault (l : Fin 32)
  /-- The spare ADC core serves the failed line. (R166) -/
  | adcFaultSwapEnd (l : Fin 32)
  /-- A planned ADC swap starts in a tick with no raw capture of the line. (R165) -/
  | adcPlannedSwap (l : Fin 32)
  /-- The outgoing ADC core is released after the planned swap. (R165) -/
  | adcPlannedSwapEnd (l : Fin 32)
  /-- An integration window completes and its integrated value is formed and queued. (R156) -/
  | windowClose (k : Fin 512) (codes : List (BitVec 12)) (samples : BitVec 32)
  /-- A window is closed without a result by abort, core fault or overtaken swap. (R163) -/
  | windowClosedNoResult (k : Fin 512) (codes : List (BitVec 12)) (samples : BitVec 32)
  /-- A discriminator word reaches the hub and fast verdicts are formed. (R160) -/
  | discriminatorWordArrival (l : Fin 32)
  /-- The hub forms an ABSENT packet for a window closed without a result. (R198) -/
  | absentVerdictFormation (k : Fin 512) (d : Fin 5)
  /-- An integrated value reaches the hub, entering capture and the estimator queue. (R161) -/
  | valueArrival (l : Fin 32)
  /-- A verdict reaches a consumer's latch tick and enters a port, gather input, select or capture. (R199) -/
  | verdictLatch
  /-- A request enters an estimator's queue or is dropped. (R181) -/
  | estimatorRequest (e : Fin 32)
  /-- At an estimator boundary a request is taken and its handler started after the transfer gap. (R183) -/
  | estimatorDispatch (e : Fin 32)
  /-- Estimator instruction with no action. (R175) -/
  | estNop (e : Fin 32)
  /-- Lane-wise fused multiply-add. (R174) -/
  | vfma (e : Fin 32)
  /-- Lane-wise fused multiply-subtract. (R174) -/
  | vfms (e : Fin 32)
  /-- Lane-wise multiply. (R174) -/
  | vmul (e : Fin 32)
  /-- Lane-wise add. (R174) -/
  | vadd (e : Fin 32)
  /-- Lane-wise subtract. (R174) -/
  | vsub (e : Fin 32)
  /-- Lane-wise minimum. (R174) -/
  | vmin (e : Fin 32)
  /-- Lane-wise maximum. (R174) -/
  | vmax (e : Fin 32)
  /-- Minimum of enabled lanes with its index into a reduction word. (R176) -/
  | vminx (e : Fin 32)
  /-- Maximum of enabled lanes with its index into a reduction word. (R176) -/
  | vmaxx (e : Fin 32)
  /-- Sums enabled lanes in a fixed tree. (R177) -/
  | vsum (e : Fin 32)
  /-- Broadcasts half of a scalar register to every lane. (R175) -/
  | vbc (e : Fin 32)
  /-- Copies one vector lane into a scalar register. (R175) -/
  | movx (e : Fin 32)
  /-- Copies a vector register. (R175) -/
  | vmov (e : Fin 32)
  /-- Scalar register operation. (R175) -/
  | xop (e : Fin 32)
  /-- Scalar operation with an immediate. (R175) -/
  | xopi (e : Fin 32)
  /-- Loads a 16-bit quarter of a scalar register. (R175) -/
  | liq (e : Fin 32)
  /-- Adds a scaled immediate to an address register. (R175) -/
  | aadd (e : Fin 32)
  /-- Loads an address register from a scalar register. (R175) -/
  | amov (e : Fin 32)
  /-- Loads 64 bytes into a vector register. (R178) -/
  | vld (e : Fin 32)
  /-- Stores 64 bytes from a vector register. (R178) -/
  | vst (e : Fin 32)
  /-- Loads 8 bytes into a scalar register. (R178) -/
  | xld (e : Fin 32)
  /-- Stores 8 bytes from a scalar register. (R178) -/
  | xst (e : Fin 32)
  /-- Loads 4 bytes broadcast to every lane. (R178) -/
  | vldb (e : Fin 32)
  /-- Estimator branch on a scalar register with two delay slots. (R179) -/
  | estBr (e : Fin 32)
  /-- Estimator branch to a register-held target. (R179) -/
  | brx (e : Fin 32)
  /-- Repeats the next LEN instructions COUNT times. (R180) -/
  | repeatN (e : Fin 32)
  /-- Repeats the next LEN instructions a register-held count. (R180) -/
  | repeatx (e : Fin 32)
  /-- Posts the verdict of the current request. (R184) -/
  | post (e : Fin 32)
  /-- Ends the handler after its delay slots and transfer gap. (R185) -/
  | estDone (e : Fin 32)
  /-- Issues nothing until a request is dispatched. (R182) -/
  | idle (e : Fin 32)
  /-- Stops the estimator core and drops its queued requests. (R191) -/
  | halt (e : Fin 32)
  /-- A commanded stop takes effect at the next boundary outside a handler. (R191) -/
  | estimatorStop (e : Fin 32)
  /-- An uncorrectable estimator program word makes the core FAULTED with code 2. (R190) -/
  | estimatorProgramMemoryError (e : Fin 32) (err : EstError)
  /-- The control unit rewrites the word and restarts the core at ENTRY. (R190) -/
  | estimatorAutorestart (e : Fin 32)
  /-- A sealed parameter page swaps with the active page at a boundary outside a handler. (R193) -/
  | pageSwap (e : Fin 32)
  /-- The copy of the new active page into the shadow page ends and held loads execute. (R193) -/
  | pageCopyEnd (e : Fin 32)
  /-- The debug port halts an estimator at a boundary. (R192) -/
  | debugEstimatorHalt (e : Fin 32)
  /-- The debug port steps a halted estimator one instruction. (R192) -/
  | debugEstimatorStep (e : Fin 32)
  /-- A lane sends the oldest queued verdict, a service word, idle or check block in a block slot. (R206) -/
  | laneVerdictLaunch (n : Fin 16)
  /-- A verdict block becomes readable at the receiver. (R210) -/
  | laneVerdictReceive (n : Fin 16) (packet : Word) (launch : BitVec 64)
  /-- A frame's check block arrives or is missing and is verified. (R210) -/
  | checkBlockReceive (n : Fin 16) (payloads : Words) (content : Option (BitVec 56))
  /-- An IDENTITY service word is received in IDENTIFY. (R215) -/
  | serviceIdentity (n : Fin 16) (cid : BitVec 32) (member : Fin 16) (peerLane : Fin 16)
  /-- A MARKER service word is received and echoed. (R216) -/
  | serviceMarker (n : Fin 16) (stamp : BitVec 36) (number : BitVec 16)
  /-- An ECHO service word is received for latency lock. (R216) -/
  | serviceEcho (n : Fin 16) (stamp : BitVec 36) (turnaround : BitVec 16)
  /-- A SKEW time-stamp word is received in a fabric SKEW_CAL. (R45) -/
  | serviceSkew (n : Fin 16) (stamp : BitVec 42) (peerPhase : Fin 1000) (t2 : BitVec 63) (phase : Fin 1000)
  /-- A TESTREQ word asks the peer to enter TEST. (R220) -/
  | testreq (n : Fin 16) (ms : BitVec 20)
  /-- A TESTACK word confirms the peer entered TEST. (R220) -/
  | testack (n : Fin 16)
  /-- A TESTREFUSE word refuses the test and the command completes with 0x04xx. (R220) -/
  | testrefuse (n : Fin 16)
  /-- An UP lane is declared failed and goes DOWN, with routes moving to a standby lane. (R212) -/
  | laneFailure (n : Fin 16) (cause : LaneCause)
  /-- The CDR locks and the lane moves to EQUALIZE. (R215) -/
  | laneDetectDone (n : Fin 16)
  /-- The margin reaches 15 mV and the lane moves to BLOCK. (R215) -/
  | laneEqualizeDone (n : Fin 16) (peaking : Fin 16) (margin : BitVec 16)
  /-- Block lock is found and the lane moves to IDENTIFY. (R215) -/
  | laneBlockLock (n : Fin 16)
  /-- Both ends match identities and the lane moves to LOCK. (R215) -/
  | laneIdentifyDone (n : Fin 16)
  /-- Natural latency is measured, the hold set and the lane becomes UP. (R216) -/
  | laneLockDone (n : Fin 16)
  /-- A training state exceeds its limit and the attempt fails. (R215) -/
  | laneAttemptTimeout (n : Fin 16)
  /-- A failed lane with AUTORETRAIN retrains every 1 s. (R212) -/
  | laneAutoRetrain (n : Fin 16)
  /-- The receiver measures its eye margin every 1 ms, engaging the DFE or setting lane-margin trouble. (R213) -/
  | laneMarginMeasure (n : Fin 16) (margin : BitVec 16)
  /-- After a new epoch or phase change each UP lane runs LOCK again. (R216) -/
  | laneRelock (n : Fin 16)
  /-- A woken lane rechecks its latency and returns to UP or trains. (R217) -/
  | laneWakeEnd (n : Fin 16)
  /-- A lane test reaches its duration and the lane retrains or returns DOWN. (R220) -/
  | laneTestEnd (n : Fin 16) (bits : Word) (errors : BitVec 32)
  /-- Digest verification of a view ends in a match or mismatch. (R235) -/
  | verificationEnd (v : Fin 16)
  /-- A member's bank selector switches to the new bank at a boundary or swap-wait. (R236) -/
  | memberLanding (q : Fin 256)
  /-- Copy-back of the new active region ends and the view becomes STEADY. (R237) -/
  | copyingEnd (v : Fin 16)
  /-- The maintenance port scrubs entries, correcting or rewriting uncorrectable ones. (R239) -/
  | concordanceScrub (bank1 : Bool) (at_ : Fin 2097152) (err : Fin 3)
  /-- A level change at a trigger input ball reaches the synchronizer and filter. (R244) -/
  | triggerInputEdge (input : Fin 19) (level : Bool) (delay : Fin 5)
  /-- An input's filtered level changes after FILTER ticks and an event is made. (R245) -/
  | triggerEvent (input : Fin 19)
  /-- A filtered level active for STUCK ticks is declared stuck. (R246) -/
  | inputStuck (input : Fin 19)
  /-- A pattern unit starts matching the source vector and its event is registered. (R250) -/
  | patternUnitFire (u : Fin 32)
  /-- A plan's re-arm holdoff ends. (R256) -/
  | captureHoldoffEnd (k : Fin 512)
  /-- A raw record's last tick passes and the pre-trigger history restarts. (R257) -/
  | rawRecordEnd (k : Fin 512) (data : Words)
  /-- A completed record drains from the capture buffer into the plan's ring. (R262) -/
  | recordDrain (k : Fin 512) (bad : Option (BitVec 16))
  /-- At the end of an SPER interval the code moves toward the target by at most STEP. (R272) -/
  | biasSlewStep (b : Fin 256)
  /-- A 250 ns deglitcher hold ends and the output steps to the target. (R273) -/
  | deglitchHoldEnd (b : Fin 256)
  /-- A waiting code queue reaches its start tick. (R275) -/
  | biasQueueStart (b : Fin 256)
  /-- The next queue entry becomes the target after UPER ticks. (R274) -/
  | biasQueueUpdate (b : Fin 256)
  /-- A SHUTTING channel's output reaches zero. (R270) -/
  | biasReachZero (b : Fin 256)
  /-- The output switch opens and the channel becomes OFF. (R270) -/
  | biasSwitchOpen (b : Fin 256)
  /-- A compliance, open-load or overcurrent condition persists 2 µs and acts under SUPV. (R277) -/
  | supervisionEvent (b : Fin 256) (current : BitVec 32)
  /-- A monitor input reaches its threshold, muting the trip map and possibly freezing the channel. (R279) -/
  | monitorTrip (m : Fin 288) (x : BitVec 32)
  /-- A tripped monitor stays below release for a blanking interval and releases. (R281) -/
  | monitorRelease (m : Fin 288) (above : BitVec 32)
  /-- Every 1 ms trim targets are recomputed from die temperature. (R345) -/
  | trimTargetUpdate
  /-- An RF trim element takes a step toward its target at an eligible tick. (R347) -/
  | trimStep (die : Fin 4) (cls : Fin 4) (index : Fin 24)
  /-- An ON or SHUTTING bias channel takes one trim step every 1 ms. (R348) -/
  | biasTrimStep (b : Fin 256)
  /-- An element's measurement ends and its result passes or is rejected. (R353) -/
  | calElementEnd (die : Fin 4) (result : Word)
  /-- A calibration run ends with its last swap back, or early. (R356) -/
  | calRunEnd (die : Fin 4)
  /-- A temperature sensor is read and cross-checked against its neighbors. (R415) -/
  | sensorPoll (sensor : Fin 72) (reading : Int)
  /-- The hottest reading stays above a level's threshold for the entry dwell and the level is entered. (R417) -/
  | thermalLevelEntry
  /-- The hottest reading stays below release for the release dwell and the level is left. (R417) -/
  | thermalLevelRelease
  /-- Every 100 ms at THROTTLE the step advances or retreats. (R419) -/
  | throttleStep
  /-- Shutdown aborts shots, mutes outputs, turns bias off and powers down converters. (R423) -/
  | thermalShutdown
  /-- A die whose bias channels reached OFF enters the STANDBY condition. (R423) -/
  | shutdownDieStandby (die : Fin 4)
  /-- Every 1 ms each LPDDR4X device's temperature status sets the refresh rate. (R422) -/
  | dramTemperatureRead (status : Vector (BitVec 8) 8)
  /-- Every 50 ms the controller updates ZQ and DQS timing. (R445) -/
  | dramZqUpdate
  /-- The patrol scrubber reads codewords, correcting or poisoning them. (R447) -/
  | dramPatrolScrub (channel : Fin 8) (codeword : BitVec 26) (uncorrectable : Bool)
  /-- Background initialization of main memory ends and MEMINIT is set. (R446) -/
  | meminitComplete
  /-- A boundary hold's TIMEOUT expires and still-running sequencers are aborted. (R373) -/
  | holdTimeout (part : Fin 8)
  /-- A pending die patch applies once every owning partition is HELD. (R374) -/
  | diePatchApply (die : Fin 4)
  /-- The die patch apply completes and held converter writes execute. (R374) -/
  | diePatchEnd (die : Fin 4)
  /-- A power-state step completes and the next step or held request runs. (R409) -/
  | powerStepEnd
  /-- A debug challenge expires 60 s after issue. (R405) -/
  | debugChallengeExpiry
  /-- The 60 s lockout after three unlock failures ends. (R405) -/
  | debugLockoutEnd
  /-- A DAP operation writes a word of the debug queue area. (R407) -/
  | dapQueueWrite (addr : BitVec 48) (data : Word)
  /-- A DAP operation reads a word of the debug queue area or identity block. (R407) -/
  | dapQueueRead (addr : BitVec 48)
  /-- A DAP operation rings the debug queue's doorbell. (R407) -/
  | dapDoorbell (data : Word)
  /-- A DAP raw read of one word of the raw map at the required level. (R407) -/
  | dapRawRead (addr : BitVec 48)
  /-- A DAP raw write of one word at D3, recorded in the Ledger. (R407) -/
  | dapRawWrite (addr : BitVec 48) (data : Word)
  /-- An unknown DAP operation code ends with STATUS 3. (R407) -/
  | dapBadOperation
  /-- A busy DAP operation ends and its status becomes capturable. (R407) -/
  | dapOperationEnd
  /-- Capture-DR loads the last operation's status, address and data. (R407) -/
  | dapCaptureDr
  /-- Selects the IDCODE register. (R435) -/
  | jtagIdcode
  /-- Samples or preloads the boundary-scan register. (R435) -/
  | jtagSamplePreload (v : Word)
  /-- Drives pins from boundary scan when outputs are safe, else acts as BYPASS. (R436) -/
  | jtagExtest
  /-- Clamps pins from boundary scan when outputs are safe, else acts as BYPASS. (R436) -/
  | jtagClamp
  /-- Floats pins when outputs are safe, else acts as BYPASS. (R436) -/
  | jtagHighz
  /-- Selects the authenticated debug access port. (R435) -/
  | jtagDap
  /-- Selects the bypass register. (R435) -/
  | jtagBypass
  /-- Test-logic reset returns pins to their function and releases held commands. (R436) -/
  | jtagTestLogicReset
  /-- SMBus block read of mailbox words K2 and K3. (R433) -/
  | smbusIdentity
  /-- SMBus block read of mailbox words K0 to K3. (R433) -/
  | smbusMailbox
  /-- SMBus block read of the hottest and per-die readings. (R433) -/
  | smbusTemps
  /-- SMBus block read of trouble words 0 and 1. (R433) -/
  | smbusTrouble
  /-- SMBus write of 0x57 wakes the device from DORMANT. (R411) -/
  | smbusWake (data : BitVec 8)
  /-- Any other SMBus command code is NACKed. (R433) -/
  | smbusUnknownCommand (code : BitVec 8)
  /-- The device answers the Alert Response Address with its own address. (R434) -/
  | smbusAlertResponse
  /-- A rail below its threshold enters power-on reset, opening bias switches and zeroing DACs. (R453) -/
  | railUndervoltage (vio : Bool)
  /-- Supplies good for 2 ms releases power-on reset and start-up begins at phase 0. (R437) -/
  | powerOnReset
  /-- HRST_N stops fetch, aborts sequencers, mutes outputs and ramps bias channels off. (R438) -/
  | hardReset
  /-- The last bias channel reaches OFF and the reset proper starts. (R438) -/
  | hardResetRampEnd
  /-- PERST# resets the PCIe endpoint, sessions and queues, or wakes from DORMANT. (R437) -/
  | perst
  /-- A physical-function level reset closes sessions and queues of every function. (R437) -/
  | pfFlr
  /-- A virtual-function level reset closes that function's sessions and queues. (R437) -/
  | vfFlr (f : Fin 8)
  /-- A function enters D3hot and completes no BAR0 access. (R427) -/
  | pcieD3hotEntry (f : Fin 9)
  /-- The PCIe link trains and configuration requests complete. (R440) -/
  | pcieLinkUp
  /-- A start-up phase completes and the next begins, up to READY. (R440) -/
  | startupPhaseEnd (r : StartReport)
  /-- Every 60 s the Curator recomputes measurement M3 over the active unit's configuration copy and records its tick. (R403) -/
  | configurationMeasurement
  /-- A ramp-up of an output's effective gain, after an enable or a release from a trip, fault or thermal mute, ends and the output becomes LIVE. (R119) -/
  | outputRampUpEnd (o : Fin 96)
  /-- A bias output stage reaches or leaves its compliance or current limit, starting the 2 µs timing or ending the supervision episode. (R277) -/
  | stageLimitChange (b : Fin 256) (limited : Bool)
  /-- The PRBS31 checker of a lane in TEST loses or regains pattern lock, counting a sync loss and resynchronizing within 31 bits. (R220) -/
  | patternLockLoss (n : Fin 16) (lost : Bool)
  /-- The full internal calibration of a core after READY ends, behind its spare, and the converter specifications hold from the last one. (R357) -/
  | internalCalibrationEnd
  /-- A die, interposer or package fault is detected by parity or loss of lock, every output of the die is fault-muted and DIE_FAILED is set. (R361) -/
  | uncoveredDieFault (die : Fin 4)
  /-- Host software clears the mask bit of an MSI-X vector whose pending bit is set, and the pending message is sent. (R311) -/
  | msixVectorUnmask (v : Fin 2048)
  /-- A configuration write sets VF Enable in the SR-IOV capability, bringing the virtual functions and their BAR0s into existence. (R428) -/
  | vfEnable
deriving DecidableEq, Repr

end Sys2Proof
end

