-- ==== Sys2Proof/Decode.lean ====
section
/-!
DEFINITION. Decode.lean: the QC512 decodes no word of the kind the opcode table could number: no row of the table gives bits. A
command packet names its command by OPCODE (Table 12.6), which Machine/DeskRows.lean reads.
-/
namespace Sys2Proof

/-- No row of the opcode table gives bits: no word spells a command. -/
def decodeTableWord (_nbits _w : Nat) : Option Instr := none

end Sys2Proof
end

