-- ==== Sys2Proof/Machine/Bits.lean ====
section
/-!
DEFINITION. Machine/Bits.lean: bit fields of words (R7 to R9), sign extension, saturating counts, and the byte order
of packets and digests.
-/
namespace Sys2Proof.Machine

/-- Field `[hi:lo]` of a word as a number (R7). -/
def fld (w : Word) (hi lo : Nat) : Nat := (w.toNat >>> lo) % 2 ^ (hi + 1 - lo)

/-- Bit `[n]` of a word. -/
def bitAt (w : Word) (n : Nat) : Bool := w.toNat.testBit n

/-- A number read as a two's complement field of `n` bits (R9). -/
def toSigned (n v : Nat) : Int := if v < 2 ^ (n - 1) then (v : Int) else (v : Int) - (2 : Int) ^ n

/-- Field `[hi:lo]` of a word as a two's complement number (R9). -/
def sfld (w : Word) (hi lo : Nat) : Int := toSigned (hi + 1 - lo) (fld w hi lo)

/-- The word that holds `v` in field `[hi:lo]` and zero elsewhere. -/
def put (hi lo v : Nat) : Word := BitVec.ofNat 64 ((v % 2 ^ (hi + 1 - lo)) <<< lo)

/-- The word that holds a two's complement number in field `[hi:lo]`. -/
def putS (hi lo : Nat) (v : Int) : Word := put hi lo (v % (2 : Int) ^ (hi + 1 - lo)).toNat

/-- The word that holds a flag in bit `[n]`. -/
def putB (n : Nat) (b : Bool) : Word := if b then put n n 1 else 0

/-- 1 for true, 0 for false. -/
def b2n (b : Bool) : Nat := if b then 1 else 0

/-- The bitwise OR of several words: a reply word from its fields. -/
def orAll (l : List Word) : Word := l.foldl (· ||| ·) 0

/-- A count that saturates at the largest value of `n` bits. -/
def satAdd (n v k : Nat) : Nat := min (v + k) (2 ^ n - 1)

/-- The payload word of index `i`; a word beyond the payload reads as zero (its absence is refused with 0x0104). -/
def wordAt (l : Words) (i : Nat) : Word := l.getD i 0

/-- The low and the high half of a word. -/
def lo32 (w : Word) : BitVec 32 := w.setWidth 32
/-- The high half of a word. -/
def hi32 (w : Word) : BitVec 32 := (w >>> 32).setWidth 32

/-- The eight bytes of a number below 2^64, lowest address first (R7). -/
def leBytes (n : Nat) : Nat → List Nat
  | v => (List.range n).map fun i => (v >>> (8 * i)) % 256

/-- The bytes of a sequence of words in ascending address order (R7). -/
def wordsBytes (l : Words) : List Nat := l.flatMap fun w => leBytes 8 w.toNat

/-- A number from bytes, lowest address first. -/
def ofLeBytes : List Nat → Nat
  | [] => 0
  | b :: r => b % 256 + 256 * ofLeBytes r

/-- A number from bytes, first byte most significant: the order in which a standard writes a coordinate or a digest. -/
def ofBeBytes (l : List Nat) : Nat := l.foldl (fun a b => a * 256 + b % 256) 0

/-- The `n` bytes of a number, most significant first. -/
def beBytes (n v : Nat) : List Nat := (List.range n).map fun i => (v >>> (8 * (n - 1 - i))) % 256

/-- Words from a list of bytes, eight bytes to a word, lowest address first; a short tail is padded with zeros. -/
def bytesWords : Nat → List Nat → Words
  | 0, _ => []
  | n + 1, l => BitVec.ofNat 64 (ofLeBytes (l.take 8)) :: bytesWords n (l.drop 8)

/-- Four words that hold a 32-byte digest or coordinate, first byte at the lowest address (chapter 17). -/
def words32 (v : Nat) : Words := bytesWords 4 (beBytes 32 v)

/-- The 32-byte number in four words of a payload from index `i`. -/
def num32 (l : Words) (i : Nat) : Nat := ofBeBytes (wordsBytes [wordAt l i, wordAt l (i + 1), wordAt l (i + 2), wordAt l (i + 3)])

/-- A change of one entry of a bank of like elements. -/
def upd {α : Type} {n : Nat} (v : Vector α n) (i : Fin n) (f : α → α) : Vector α n := v.set i.val (f v[i.val])

/-- Change the entry of index `i` where the bank has one. -/
def updN {α : Type} {n : Nat} (v : Vector α n) (i : Nat) (f : α → α) : Vector α n :=
  if h : i < n then upd v ⟨i, h⟩ f else v

/-- The entry of index `i`, or a stated value where the bank has none. -/
def atN {α : Type} {n : Nat} (v : Vector α n) (i : Nat) (d : α) : α := if h : i < n then v[i] else d

/-- Quotient rounded up. -/
def ceilDiv (a b : Nat) : Nat := (a + b - 1) / b

/-- Quotient of integers rounded up, for a positive divisor. -/
def iceil (a b : Int) : Int := -((-a) / b)

/-- An exact fraction `num / den`. -/
structure Frac where
  num : Int := 0
  den : Nat := 1
deriving DecidableEq, Repr

/-- Sum of two fractions. -/
def Frac.add (a b : Frac) : Frac := ⟨a.num * b.den + b.num * a.den, a.den * b.den⟩
/-- A fraction with its sign turned. -/
def Frac.neg (a : Frac) : Frac := ⟨-a.num, a.den⟩
/-- Product of a fraction and a quotient of integers. -/
def Frac.scale (a : Frac) (n : Int) (d : Nat) : Frac := ⟨a.num * n, a.den * d⟩
/-- The nearest integer, a half rounded away from zero. -/
def Frac.round (a : Frac) : Int :=
  if a.num ≥ 0 then (2 * a.num + a.den) / (2 * a.den) else -((2 * (-a.num) + a.den) / (2 * a.den))
/-- `a ≤ n` for a fraction and an integer. -/
def Frac.leInt (a : Frac) (n : Int) : Bool := a.num ≤ n * a.den
/-- `n ≤ a` for an integer and a fraction. -/
def Frac.geInt (a : Frac) (n : Int) : Bool := n * a.den ≤ a.num

end Sys2Proof.Machine
end

