-- ==== Sys2Proof/Machine/Sparse.lean ====
section
/-!
DEFINITION. Machine/Sparse.lean: the on-die memories and the other large spaces as lists of (address, value) pairs in
one canonical form: addresses strictly rising, and no entry equal to what an unlisted address reads as.
-/
namespace Sys2Proof.Machine

/-- A memory: its listed entries, in rising order of address. -/
abbrev Sparse (α : Type) := List (Nat × α)

/-- The entry at address `a`; `d` where none is listed. -/
def Sparse.get {α : Type} (d : α) : Sparse α → Nat → α
  | [], _ => d
  | (k, v) :: m, a => if a = k then v else Sparse.get d m a

/-- The memory with `v` at address `a`. Writing the value an unlisted address reads as removes the entry. -/
def Sparse.set {α : Type} [DecidableEq α] (d : α) : Sparse α → Nat → α → Sparse α
  | [], a, v => if v = d then [] else [(a, v)]
  | (k, w) :: m, a, v =>
    if a < k then (if v = d then (k, w) :: m else (a, v) :: (k, w) :: m)
    else if a = k then (if v = d then m else (k, v) :: m)
    else (k, w) :: Sparse.set d m a v

/-- The canonical form: addresses strictly rising from `lo`, and no entry equal to `d`. -/
def Sparse.wfFrom {α : Type} [DecidableEq α] (d : α) : Nat → Sparse α → Bool
  | _, [] => true
  | lo, (k, v) :: m => decide (lo ≤ k) && (decide (v ≠ d) && Sparse.wfFrom d (k + 1) m)

/-- The canonical form of a whole memory. -/
def Sparse.wf {α : Type} [DecidableEq α] (d : α) (m : Sparse α) : Bool := Sparse.wfFrom d 0 m

/-- The memory with consecutive values written from address `a`. -/
def Sparse.setList {α : Type} [DecidableEq α] (d : α) (m : Sparse α) (a : Nat) : List α → Sparse α
  | [] => m
  | v :: l => Sparse.setList d (Sparse.set d m a v) (a + 1) l

/-- The memory with one value written to `n` addresses from `a`. -/
def Sparse.fill {α : Type} [DecidableEq α] (d : α) (m : Sparse α) (a : Nat) (v : α) : Nat → Sparse α
  | 0 => m
  | n + 1 => Sparse.fill d (Sparse.set d m a v) (a + 1) v n

/-- `n` consecutive values from address `a`. -/
def Sparse.slice {α : Type} (d : α) (m : Sparse α) (a n : Nat) : List α :=
  (List.range n).map fun i => Sparse.get d m (a + i)

/-- The memory without the `n` addresses from `a`. -/
def Sparse.erase {α : Type} (m : Sparse α) (a n : Nat) : Sparse α :=
  m.filter fun e => decide (e.1 < a) || decide (a + n ≤ e.1)

/-- The memory `dst` with the `n` addresses from `a` as `src` has them. -/
def Sparse.copy {α : Type} (dst src : Sparse α) (a n : Nat) : Sparse α :=
  dst.filter (fun e => decide (e.1 < a)) ++ src.filter (fun e => decide (a ≤ e.1) && decide (e.1 < a + n))
    ++ dst.filter (fun e => decide (a + n ≤ e.1))

end Sys2Proof.Machine
end

