-- ==== Sys2Proof/Machine/StateWave.lean ====
section
/-!
DEFINITION. Machine/StateWave.lean: the state of drive and probe synthesis (chapter 4) and of the Stacks, the Shelf and
streaming (chapter 5). The default of every field is its value after power-on reset (R130, R147). Times are device ticks.
-/
namespace Sys2Proof.Machine

/-! ## Slots and outputs (chapter 4) -/

/-- ROLE of a slot (Table 4.9). -/
inductive Role where
  | off
  | tone
  | copy
deriving DecidableEq, Repr

/-- The settings of a drive or probe slot (Table 4.9), and the coefficient that a compensation copy seals (R115). A source
is a slot number 0–511 of the drive bank or, offset by 512, of the probe bank. -/
structure SlotSet where
  role : Role := .off
  sinc : Bool := false
  ftw : BitVec 48 := 0
  foff : BitVec 32 := 0
  amp : BitVec 16 := 0
  src : Nat := 0
  re : BitVec 32 := 0
  im : BitVec 32 := 0
deriving DecidableEq, Repr

/-- A folio that plays on a slot: its number, first DAC sample, length in DAC samples, REP, and the DAC sample before which
it is cut. -/
structure Playing where
  folio : Nat
  start : Nat
  len : Nat
  rep : Bool
  stopAt : Option Nat := none
  /-- The granules that played as zero (R146): the repetition, and the first envelope sample of the granule. -/
  lost : List (Nat × Nat) := []
deriving DecidableEq, Repr

/-- A frequency word and frame offset, in force from a DAC sample on (R101, R107, R110). -/
structure Carrier where
  start : Nat := 0
  ftw : BitVec 48 := 0
  foff : BitVec 32 := 0
deriving DecidableEq, Repr

/-- A slot: shadow, sealed and active settings (R25), the carrier (R107, R108, R110), the folio that plays, and the
hold-mute (Table 3.11). `ftw` and `foff` are the newest values, in force from DAC sample `since`; `past` holds those before
them, newest first. `ended` holds the folios before the one that plays, while a sample of theirs is still to leave. -/
structure Slot where
  shadow : SlotSet := {}
  sealed_ : Option SlotSet := none
  active : SlotSet := {}
  ftw : BitVec 48 := 0
  foff : BitVec 32 := 0
  since : Nat := 0
  past : List Carrier := []
  playing : Option Playing := none
  ended : List Playing := []
  hold : Bool := false
  /-- Muted by a cue-lane parity error until the shot boundary (R17). -/
  parity : Bool := false
deriving DecidableEq, Repr

/-- GAIN and OFFSET of an output (Table 4.9). -/
structure GainSet where
  gain : BitVec 16 := 0x8000#16
  offset : BitVec 16 := 0
deriving DecidableEq, Repr

/-- A ramp of an output's effective gain (R119, R121): from tick `at_` over `len` ticks, from `num / den` of GAIN, up to
GAIN or down to zero. -/
structure Ramp where
  at_ : Nat
  len : Nat
  up : Bool
  num : Nat
  den : Nat
deriving DecidableEq, Repr

/-- The DAC core of an output (R120, R126): powered, powering up since a tick, powering down since a tick, off. -/
inductive CoreState where
  | on
  | powering (since : Nat)
  | dropping (since : Nat)
  | off
deriving DecidableEq, Repr

/-- An RF output: drive outputs D0–D63, then probe outputs P0–P31. -/
structure Output where
  shadow : GainSet := {}
  sealed_ : Option GainSet := none
  /-- The sequencer whose ARM sealed GAIN and OFFSET first (R129). -/
  sealedBy : Option Nat := none
  active : GainSet := {}
  ramp : Nat := 0
  tripLatch : Bool := true
  baseband : Bool := false
  /-- Causes of a mute (Table 4.5). -/
  cmdMute : Bool := true
  unlock : Bool := true
  trip : Bool := false
  /-- A trip mute that stays until an enable (R122). -/
  latched : Bool := false
  faultMute : Bool := false
  thermal : Bool := false
  ramping : Option Ramp := none
  core : CoreState := .on
  /-- The output's own core is out of service until power-on reset (R128). -/
  coreFailed : Bool := false
  onSpare : Bool := false
  failed : Bool := false
  clips : Nat := 0
  /-- A sample has been limited, and the output-clip trouble bit is not set yet (R112). -/
  clipDue : Bool := false
  /-- The DAC sample up to which codes have been formed and clips counted, the code of the last one, and the DAC sample from
  which the code has not changed (R112, R125). -/
  heardTo : Nat := 0
  code : Int := 0
  constFrom : Nat := 0
  muteTick : BitVec 32 := 0
deriving DecidableEq, Repr

/-- What a cluster's spare DAC core does (R125 to R127): free; being prepared for a planned swap since a tick; ready for
it; the swap matrix making and breaking since tick q, onto the spare or back; covering an output in a planned swap;
starting for a failed core since the detection tick f; serving a failed core. -/
inductive SpareUse where
  | free
  | preparing (o : Nat) (since : Nat)
  | ready (o : Nat) (since : Nat)
  | swapping (o : Nat) (q : Nat) (back : Bool)
  | covering (o : Nat)
  | starting (o : Nat) (f : Nat)
  | serving (o : Nat)
deriving DecidableEq, Repr

/-- Drive and probe synthesis. Slot `8·o + s` of the drive bank is D(o)/s(s); slot `16·p + i` of the probe bank is
P(p)/p(i). -/
structure Synth where
  drive : Vector Slot 512 := Vector.replicate 512 {}
  probe : Vector Slot 512 := Vector.replicate 512 {}
  out : Vector Output 96 := Vector.replicate 96 {}
  /-- Shadow crosstalk matrices: coefficient C[t][u] of a cluster at index 128·t + u, real part in [31:0] (R115). -/
  xtalk : Vector (Sparse Word) 8 := Vector.replicate 8 []
  spare : Vector SpareUse 8 := Vector.replicate 8 .free
  /-- The spare core itself is out of service. -/
  spareFailed : Vector Bool 8 := Vector.replicate 8 false
  /-- Pulses on the trigger outputs and mark outputs: pins 0–7 TIO0–TIO7, 8–15 chassis trigger lines 0–7; the tick after
  the pulse's last tick (R432). -/
  pulse : Vector (Option Nat) 16 := Vector.replicate 16 none
deriving DecidableEq, Repr

/-! ## Stacks, Shelf and streaming (chapter 5) -/

/-- States of a folio (R133). -/
inductive FolioState where
  | free
  | open_
  | complete
  | bad
deriving DecidableEq, Repr

/-- A folio directory entry (R133) with the samples its granules hold: word `k` holds samples 2k and 2k + 1. -/
structure Folio where
  state : FolioState := .free
  owner : Fin 8 := 0
  rate : Nat := 0
  n : Nat := 0
  crc : BitVec 32 := 0
  /-- First granule in the partition's memory share. -/
  addr : Nat := 0
  written : Sparse Bool := []
  data : Sparse Word := []
deriving DecidableEq, Repr

/-- What a run of Shelf granules holds (R137, R142, R157). A window belongs to a binding of a sequencer and to one copy of
its stream plan, named by the plan's serial; a kernel to a demodulation slot. -/
inductive ShelfUse where
  | pin (folio : Nat)
  | head (folio : Nat)
  | window (seq bind serial : Nat)
  | kernel (slot : Nat)
deriving DecidableEq, Repr

/-- A run of granules of a Shelf; `placed` once its copy is in place (R138). -/
structure ShelfRun where
  use : ShelfUse
  addr : Nat
  len : Nat
  placed : Bool
deriving DecidableEq, Repr

/-- A converter die's Shelf (R137, R141). -/
structure Shelf where
  runs : List ShelfRun := []
  /-- Words with an uncorrectable error, by granule and word of the granule, until the granule is copied again (R141). -/
  bad : List (Nat × Nat) := []
  /-- Words that a raw write has put over a copy (R404, Table 17.13), by word of the Shelf, until it is copied again. -/
  raw : Sparse (Option Word) := []
  corrected : Nat := 0
  uncorrectable : Nat := 0
deriving DecidableEq, Repr

/-- One half of a stream window (R143): the first sample it was last requested for, the granules requested, how many of
them have landed, how many the player has passed, and those that an uncorrectable codeword left invalid (R146). -/
structure WinHalf where
  first : Nat := 0
  asked : Nat := 0
  landed : Nat := 0
  passed : Nat := 0
  bad : List Nat := []
deriving DecidableEq, Repr

/-- The stream window of a binding in play: the folio's first DAC sample, the repetition, the requests made in it, and the
two halves (R143). -/
structure StreamWin where
  start : Nat := 0
  rep : Nat := 0
  requests : Nat := 0
  a : WinHalf := {}
  b : WinHalf := {}
deriving DecidableEq, Repr

/-- A stream plan: its (binding index, folio) pairs (R144), and a serial that names its windows. -/
structure StreamPlan where
  serial : Nat := 0
  list : List (Nat × Nat) := []
deriving DecidableEq, Repr

/-- The copies of a sequencer's stream plan (R145), and the windows of its bindings in play. -/
structure Plans where
  shadow : StreamPlan := {}
  sealed_ : Option StreamPlan := none
  active : StreamPlan := {}
  wins : Vector StreamWin 8 := Vector.replicate 8 {}
deriving DecidableEq, Repr

/-- Stacks, Shelf and streaming. -/
structure Wave where
  folios : Sparse Folio := []
  shelf : Vector Shelf 4 := Vector.replicate 4 {}
  plans : Vector Plans 256 := Vector.replicate 256 {}
deriving DecidableEq, Repr

end Sys2Proof.Machine
end

