-- ==== Sys2Proof/Machine/StateRead.lean ====
section
/-!
DEFINITION. Machine/StateRead.lean: the state of the readout chain (chapter 6), of the estimators (chapter 7) and of
the fabric (chapter 8). The default of every field is its value after power-on reset (R170, R196, R221). Times are
device ticks.
-/
namespace Sys2Proof.Machine

/-! ## Readout (chapter 6) -/

/-- A fast discriminator (R159, Table 6.9). -/
structure Discrim where
  map0 : Nat := 0
  map1 : Nat := 1
  map2 : Nat := 1
  ac : BitVec 32 := 0x3F800000#32
  as_ : BitVec 32 := 0
  ci : BitVec 32 := 0
  cq : BitVec 32 := 0
  t1 : BitVec 32 := 0
  t2 : BitVec 32 := 0
deriving DecidableEq, Repr

/-- The settings of a demodulation slot (R168). An empty kernel is the boxcar; `kaddr` is the Shelf granule at which an
explicit one lies. -/
structure DemodSet where
  role : Bool := false
  est : Bool := false
  ovrinv : Bool := false
  nochk : Bool := false
  ftw : BitVec 48 := 0
  foff : BitVec 32 := 0
  kernel : Words := []
  kaddr : Nat := 0
  disc : Discrim := {}
deriving DecidableEq, Repr

/-- An integration window that has not closed (R155): its first tick, its length, the sequencer and the SST of its shot,
and whether its MEASURE captures. -/
structure Window where
  start : Nat
  len : Nat
  seq : Nat
  sst : Word
  capt : Bool
  /-- The device tick in which the shot started. -/
  shot : Nat := 0
  /-- The cause of a close without result, and its tick (R163). -/
  cause : Option Nat := none
  /-- It integrated an over-range sample (R152). -/
  outOfRange : Bool := false
  /-- Its trace found no free half of the reservation at its start and is not written (R262). -/
  full : Bool := false
deriving DecidableEq, Repr

/-- A demodulation slot. -/
structure DemodSlot where
  shadow : DemodSet := {}
  sealed_ : Option DemodSet := none
  active : DemodSet := {}
  windows : List Window := []
  outOfRange : Nat := 0
  closed : BitVec 32 := 0
deriving DecidableEq, Repr

/-- An integrated value on its way to the hub (R161, R162). -/
structure Value where
  slot : Nat
  yi : BitVec 32
  yq : BitVec 32
  /-- The tick of the window's last ADC sample. -/
  close : Nat
  outOfRange : Bool
  /-- TN of the shot when the window closed (Table 7.6). -/
  taint : Bool
  win : Window
  /-- SOURCE of the slot is the estimator. -/
  est : Bool
  ovrinv : Bool
  /-- The device tick in which y completes. -/
  done_ : Nat
  /-- Decimated samples of the window, for the trace and average reductions (R255, R259). -/
  z : Words
deriving DecidableEq, Repr

/-- The field of a slot in a discriminator word (R160). -/
structure DiscWord where
  slot : Nat
  state : Nat
  valid : Bool
  win : Window
  /-- The device tick in which the word reaches the hub. -/
  hub : Nat
deriving DecidableEq, Repr

/-- A stretch of ticks in which a line's data are zero: while its core is powered down (R150), or from a core fault until the spare
serves it (R166); `none` as end: still. -/
structure Blank where
  start : Nat
  upTo : Option Nat
  fault : Bool
deriving DecidableEq, Repr

/-- A readout line (R150). -/
structure Line where
  zone : Bool := true
  power : Bool := true
  /-- The start of the analogue settling after a ZONE or POWER change. -/
  settleAt : Option Nat := none
  coreFailed : Bool := false
  onSpare : Bool := false
  failed : Bool := false
  /-- The tick f of the last core fault of the line (R163, R166). -/
  faultAt : Option Nat := none
  /-- The first tick in which a window integrates only samples of the spare after the last fault (R166, R167). -/
  faultEnd : Nat := 0
  /-- The stretches without samples since reset. -/
  blanks : List Blank := []
  /-- The tick in which the reconnection of the line's own core after an overtaken swap ends (R167). -/
  reconnect : Option Nat := none
  /-- The tick in which the value queue sent last (R161). -/
  sentAt : Option Nat := none
  drops : Nat := 0
  overSamples : BitVec 32 := 0
  values : List Value := []
  words : List DiscWord := []
deriving DecidableEq, Repr

/-- The readout chain. Slot `16·l + r` is L(l)/r(r). -/
structure Readout where
  line : Vector Line 32 := Vector.replicate 32 {}
  demod : Vector DemodSlot 512 := Vector.replicate 512 {}
  /-- The spare ADC core of each cluster. -/
  spare : Vector SpareUse 8 := Vector.replicate 8 .free
  spareFailed : Vector Bool 8 := Vector.replicate 8 false
  /-- Windows closed without a result whose ABSENT packet is not formed: slot, window, closure tick (R198). -/
  absent : List (Nat × Window × Nat) := []
deriving DecidableEq, Repr

/-! ## Estimators (chapter 7) -/

/-- States of an estimator (Table 7.10). -/
inductive EstMode where
  | stopped
  | running
  | debugHalted
  | faulted
deriving DecidableEq, Repr

/-- An open REPEAT (Table 7.1): body start, body end, passes left. -/
structure Rep where
  start : Nat
  stop : Nat
  left : Nat
deriving DecidableEq, Repr

/-- A request (R181): a value of an estimator-source window, and the tick from which it is readable. -/
structure Request where
  val : Value
  readable : Nat
deriving DecidableEq, Repr

/-- A result in flight (R179): the cycle from which it is visible, and what it writes. -/
inductive EstWrite where
  | v (r : Nat) (lanes : Vector (BitVec 32) 16)
  | x (r : Nat) (w : Word)
  | mem (addr : Nat) (words : Words)
deriving DecidableEq, Repr

/-- The handler in progress (R183): its request, and whether it has posted (R185). -/
structure Handler where
  req : Request
  ovrinv : Bool
  posted : Bool := false
deriving DecidableEq, Repr

/-- One estimator (Table 7.1, Table 7.10). -/
structure Est where
  v : Vector (Vector (BitVec 32) 16) 32 := Vector.replicate 32 (Vector.replicate 16 0)
  x : Vector Word 16 := Vector.replicate 16 0
  a : Vector (BitVec 17) 8 := Vector.replicate 8 0
  pc : Nat := 0
  resume : Nat := 0
  reps : List Rep := []
  prog : Sparse (BitVec 32) := []
  /-- Working memory, by 64-bit word. -/
  mem : Sparse Word := []
  /-- The two page banks, by 64-bit word, and which is active (R173). -/
  bank0 : Sparse Word := []
  bank1 : Sparse Word := []
  useBank1 : Bool := false
  dispatch : Vector (Option Nat) 16 := Vector.replicate 16 none
  queue : List Request := []
  /-- Values that have left the value queue for this estimator and have not entered the request queue yet (R181). -/
  arriving : List Request := []
  entry : Nat := 0
  limit : Nat := 0
  mode : EstMode := .stopped
  autorestart : Bool := false
  /-- The cycle in which the next instruction is due. -/
  next : Nat := 0
  /-- The cycle after the last transfer gap of a handler's DONE, from which the hold-off of a waiting request counts
  (R182). -/
  gapEnd : Nat := 0
  /-- A branch taken: its target and how many delay slots are left; `none` as target ends the handler (R183). -/
  branch : Option (Option Nat × Nat) := none
  flight : List (Nat × EstWrite) := []
  handler : Option Handler := none
  /-- A stop that takes effect at the next boundary outside a handler (R195). -/
  stopWait : Bool := false
  haltWait : Bool := false
  /-- The last 64 program addresses issued, newest first (R404). -/
  trace : List Nat := []
  pageSealed : Bool := false
  /-- The page swap's copy has run since this cycle (R193). -/
  copyAt : Option Nat := none
  fault : Nat := 0
  faultPc : Nat := 0
  badAddr : Nat := 0
  handled : BitVec 32 := 0
  drops : Nat := 0
  unposted : Nat := 0
  holdMax : Nat := 0
  doubles : Nat := 0
  corrected : BitVec 32 := 0
deriving DecidableEq, Repr

/-! ## The fabric (chapter 8) -/

/-- Lane states (Table 8.6). -/
inductive LaneState where
  | down
  | detect
  | equalize
  | block
  | identify
  | lock
  | up
  | idle
  | test
deriving DecidableEq, Repr

/-- An entry of the lane map (R218). -/
structure MapEnt where
  used : Bool := false
  stby : Bool := false
  peer : Nat := 0
deriving DecidableEq, Repr

/-- The configuration fields of LANE_TRAIN (Table 8.8). -/
structure LaneCfg where
  ctle : Bool := false
  peaking : Nat := 0
  dfe : Nat := 0
  thresh : Nat := 30
  ll : Nat := 64
deriving DecidableEq, Repr

/-- A Selkadex lane. -/
structure Lane where
  st : LaneState := .down
  since : Nat := 0
  /-- The tick in which the attempt entered DETECT. -/
  attemptAt : Nat := 0
  reason : Nat := 0
  attempts : Nat := 0
  auto : Bool := false
  cfg : LaneCfg := {}
  /-- The configuration that the last training took. -/
  on : LaneCfg := {}
  ent : MapEnt := {}
  peakOn : Nat := 0
  dfeOn : Bool := false
  margin : Nat := 0
  lowMargins : Nat := 0
  marginAt : Nat := 0
  nlat : Nat := 0
  ll : Nat := 64
  peer : Nat := 0
  peerLane : Nat := 0
  /-- MARKER and ECHO pairs exchanged in LOCK (R216). -/
  pairs : Nat := 0
  /-- An UP lane runs LOCK again: its routes are unreachable (R216). -/
  relock : Bool := false
  /-- A wake from electrical idle in progress, and the check blocks whose stamps it has compared (R217). -/
  waking : Bool := false
  wakeChecks : Nat := 0
  /-- The difference of the launch stamp from the own tick counter, learned at latency lock (R216). -/
  offset : Option Nat := none
  badChecks : Nat := 0
  badStamps : Nat := 0
  /-- The transmit queue: packets, each with the tick-counter value in which it entered (R206). -/
  queue : List (Word × Nat) := []
  /-- Verdicts received in the present frame (R210). -/
  frame : List Word := []
  checkErrors : Nat := 0
  drops : Nat := 0
  retrains : Nat := 0
  misdelivered : Nat := 0
  /-- The next block slot that is free, in block slots of the tick counter. -/
  slot : Nat := 0
  tstate : Nat := 0
  tbits : Word := 0
  terrors : Nat := 0
  tsync : Nat := 0
  /-- The test's start, its length in ticks, and whether the lane was UP. -/
  testAt : Nat := 0
  testLen : Nat := 0
  testUp : Bool := false
  /-- A TESTREQ is sent and not answered (R220). -/
  testAsked : Bool := false
  /-- Service words that wait to be sent: the content, and the tick-counter value in which the cause came (R216). -/
  service : List (Word × Nat) := []
  /-- The device tick in which the lane last left UP (R219). -/
  lostAt : Nat := 0
  /-- The IDENTITY word of the peer agrees with the own Collection ID and lane map (R215). -/
  identOk : Bool := false
  /-- The last 58 scrambled payload bits sent, the newest in bit 0 (R208). -/
  scrambler : BitVec 58 := 0
  /-- The block sent last, as its bits left, the first in bit 0 (R208). -/
  wire : BitVec 66 := 0
  /-- The payloads sent in the present frame with their block slots, newest first (R209). -/
  sent : List (Nat × Word) := []
  /-- The send time in ps of the SKEW block of a fabric SKEW_CAL that waits for the peer's (R45). -/
  skewAt : Option Nat := none
  /-- The taps of the decision-feedback equalizer in mV (R214). -/
  taps : Vector Int 5 := Vector.replicate 5 0
deriving DecidableEq, Repr

/-- A delivery entry (R202). -/
structure Deliv where
  en : Bool := false
  smem : Nat := 0
  sline : Nat := 0
  sslot : Nat := 0
  age : Nat := 0
deriving DecidableEq, Repr

/-- The delivery entries of VP8 to VP15 of a sequencer, and its stale count. -/
structure RouteSeq where
  shadow : Vector Deliv 8 := Vector.replicate 8 {}
  sealed_ : Option (Vector Deliv 8) := none
  active : Vector Deliv 8 := Vector.replicate 8 {}
  stale : Nat := 0
deriving DecidableEq, Repr

/-- The send entry of a demodulation slot (R201). -/
structure SendEnt where
  shadow : BitVec 16 := 0
  sealed_ : Option (BitVec 16) := none
  active : BitVec 16 := 0
deriving DecidableEq, Repr

/-- Where a verdict in flight is due (Table 8.2): consumers of its own cluster, of the other cluster of its die, of the
other dies; or any consumer, for a verdict received on a lane. -/
inductive Reach where
  | cluster
  | die
  | device
  | lane (n : Fin 16)
deriving DecidableEq, Repr

/-- A verdict that is due at a latch tick. -/
structure Flight where
  packet : Word
  at_ : Nat
  reach : Reach
deriving DecidableEq, Repr

/-- The fabric. -/
structure Fabric where
  cid : BitVec 32 := 0
  member : Nat := 0
  members : BitVec 16 := 1
  lane : Vector Lane 16 := Vector.replicate 16 {}
  send : Vector SendEnt 512 := Vector.replicate 512 {}
  route : Vector RouteSeq 256 := Vector.replicate 256 {}
  flight : List Flight := []
deriving DecidableEq, Repr

end Sys2Proof.Machine
end

