-- ==== Sys2Proof/Machine/Blocks.lean ====
section
/-!
DEFINITION. Machine/Blocks.lean: the 66-bit blocks of a lane (R208, R209): their kinds and type codes, the sync header, the order of
the bits, and the self-synchronizing scrambler.
-/
namespace Sys2Proof.Machine

/-- A block of a lane (Table 8.4). The content of a control block is payload [63:8]. -/
inductive Block where
  | verdict (packet : Word)
  | idle
  | check (content : BitVec 56)
  | service (content : BitVec 56)
  | training (content : BitVec 56)
deriving DecidableEq, Repr

/-- A control payload: the type in [7:0], the content in [63:8]. -/
def controlWord (type : BitVec 8) (content : BitVec 56) : Word := (content.setWidth 64 <<< 8) ||| type.setWidth 64

/-- Payload of a block. -/
def Block.payload : Block → Word
  | .verdict p => p
  | .idle => controlWord 0x1E#8 0
  | .check c => controlWord 0x2D#8 c
  | .service c => controlWord 0x4B#8 c
  | .training c => controlWord 0x78#8 c

/-- A verdict block has sync header 0b01, a control block 0b10. -/
def Block.data : Block → Bool
  | .verdict _ => true
  | _ => false

/-- The kinds of service word (Table 8.5). -/
def serviceKind (content : BitVec 56) : Bool := decide (1 ≤ content.toNat / 2 ^ 52 ∧ content.toNat / 2 ^ 52 ≤ 7)

/-- The block that a sync header, its first bit first, and a descrambled payload make; `none` is a block error (R209). An idle block
has content zero, and a service word a kind of Table 8.5. -/
def readBlock (first second : Bool) (payload : Word) : Option Block :=
  let c := (payload >>> 8).setWidth 56
  match first, second with
  | false, true => some (.verdict payload)
  | true, false =>
    match payload.toNat % 256 with
    | 0x1E => if c = 0 then some .idle else none
    | 0x2D => some (.check c)
    | 0x4B => if serviceKind c then some (.service c) else none
    | 0x78 => some (.training c)
    | _ => none
  | _, _ => none

/-- One bit through the scrambler x^58 + x^39 + 1: `h` holds the last 58 scrambled bits, the newest in bit 0. -/
def scrambleBit (h : BitVec 58) (d : Bool) : Bool := (d != h.getLsbD 38) != h.getLsbD 57

/-- A bit joins the last 58 scrambled bits. -/
def scrambled (h : BitVec 58) (b : Bool) : BitVec 58 := (h <<< 1) ||| (if b then 1#58 else 0#58)

/-- A payload through the scrambler, bit 0 first: the scrambled bits in the same order, and the last 58 of them (R208). -/
def scramble (h : BitVec 58) (w : Word) : Word × BitVec 58 :=
  (List.range 64).foldl (fun (a : Word × BitVec 58) i =>
    let b := scrambleBit a.2 (w.getLsbD i)
    (a.1 ||| (if b then 1#64 <<< i else 0#64), scrambled a.2 b)) (0#64, h)

/-- A scrambled payload through the descrambler, which keeps the last 58 bits received (R208). -/
def descramble (h : BitVec 58) (w : Word) : Word × BitVec 58 :=
  (List.range 64).foldl (fun (a : Word × BitVec 58) i =>
    let b := w.getLsbD i
    (a.1 ||| (if scrambleBit a.2 b then 1#64 <<< i else 0#64), scrambled a.2 b)) (0#64, h)

/-- The 66 bits of a block on the wire, the first in bit 0: the sync header, whose left bit goes first, then the scrambled payload,
bit 0 first (R208); beside them what the scrambler keeps. -/
def Block.wire (h : BitVec 58) (b : Block) : BitVec 66 × BitVec 58 :=
  let (w, h) := scramble h b.payload
  ((w.setWidth 66 <<< 2) ||| (if b.data then 2#66 else 1#66), h)

/-- The block that 66 bits on the wire carry, with the last 58 payload bits received before them. -/
def wireBlock (h : BitVec 58) (x : BitVec 66) : Option Block × BitVec 58 :=
  let (w, h) := descramble h ((x >>> 2).setWidth 64)
  (readBlock (x.getLsbD 0) (x.getLsbD 1) w, h)

/-- How many of a run of blocks on the wire are block errors. -/
def blockErrors : BitVec 58 → List (BitVec 66) → Nat
  | _, [] => 0
  | h, x :: l =>
    let (b, h) := wireBlock h x
    (if b.isNone then 1 else 0) + blockErrors h l

end Sys2Proof.Machine
end

