-- ==== Sys2Proof/Config.lean ====
section
/-!
DEFINITION. Config.lean: what one device fixes and the manual leaves open. Every constant is opaque: a statement about
the model holds for every value of it.
-/
namespace Sys2Proof.Config

/-- A 64-bit value that the manual leaves open, applied to the count of free values drawn. -/
opaque freeWord : Nat → BitVec 64

/-- A 128-bit value that the manual leaves open: the OLD and NEW digests of a Ledger record, whose staging order the
manual does not give. -/
opaque free128 : Nat → BitVec 128

/-- A 256-bit value that the manual leaves open: challenges, signature halves, key coordinates, measurements. -/
opaque free256 : Nat → BitVec 256

/-- Verification of a signed image by the firmware-signing key, whose value the manual does not give: over the header
words S0 to S5 and the signature words S6 to S13 (Table 17.4). -/
opaque firmwareSigned : List (BitVec 64) → Bool

/-- The JEP106 manufacturer code in IDCODE [11:1], which the manual does not state (R435). -/
opaque jtagManufacturer : BitVec 11

/-- The cells of the boundary-scan register that give a pin its level and its driver (R435): places in the vendor's description of the chain,
which the manual does not give. -/
opaque scanCell : Nat → Nat × Nat

/-- The factory trim words sealed in the Archive (R344), by the address of element, range and point. -/
opaque factoryTrim : Nat → BitVec 64

/-- The ROM words of the microstores, and the patch-RAM words of the signed and encrypted images, by word of the raw map
(Table 17.13). -/
opaque rom : Nat → BitVec 64

/-- The origin descriptor that a microword reads (R316), by function and partition; its layout is not in the manual. -/
opaque originDescriptor : Nat → Nat → BitVec 64

/-- The flags C and V of an ALU operation of the Desk where the manual does not say them: by operation and operands. -/
opaque deskFlags : Nat → BitVec 64 → BitVec 64 → BitVec 2

/-- A condition group as the units outside the Desk answer in a cycle (Table 13.5). -/
opaque deskInput : Nat → Nat → BitVec 4

/-- A word that the Desk reads in a cycle from a memory (MEMSEL 0 to 3) or from the configuration bus (4). -/
opaque deskRead : Nat → Nat → BitVec 64 → BitVec 64

/-- The object that an address of a memory or of converter shadow state belongs to, in the order of R319's list of bulk targets: its
kind (0 to 7; 8 on for anything else) and its index. -/
opaque bulkObject : Nat → BitVec 64 → Nat × Nat

/-- A tap of the resampler (R104) at a distance from its centre, in 1/1,024 envelope sample, in units of 2^-20. The manual gives
the response of the filter, not its taps; they are symmetric. -/
opaque resamplerTap : Nat → Int

/-- Entry of the quarter-wave table of the NCO (R108), in units of 2^-30. -/
opaque quarterWave : Nat → Int

/-- Slope of the first-order correction of a table entry (R108): what one unit of θ [17:8] adds, in units of 2^-30. -/
opaque quarterSlope : Nat → Int

/-- The sinc factor K of a frequency word other than zero (R109), in units of 2^-30. -/
opaque sincFactor : BitVec 48 → Int

/-- A tap of the decimation filter (R154) at a distance of 1 to 96 ADC samples from its centre, in units of 2^-30. The centre
tap is what unity gain at DC leaves. -/
opaque decimationTap : Nat → Int

end Sys2Proof.Config
end

