-- ==== Sys2Proof/Machine/Crypto.lean ====
section
/-!
DEFINITION. Machine/Crypto.lean: CRC-32C (R294), the SM3 hash (GB/T 32905) and SM2 signature verification (GB/T 32918)
that chapters 9, 12, 16 and 17 name. Bytes are numbers below 256, first byte at the lowest address.
-/
namespace Sys2Proof.Machine

/-- One bit of the reflected CRC-32C division (R294). -/
def crcBit (c : Nat) : Nat := if c % 2 = 1 then (c >>> 1) ^^^ 0x82F63B78 else c >>> 1

/-- One byte of the CRC-32C. -/
def crcByte (c b : Nat) : Nat :=
  crcBit (crcBit (crcBit (crcBit (crcBit (crcBit (crcBit (crcBit (c ^^^ b))))))))

/-- CRC-32C over bytes in ascending address order (R294): initial value and final XOR all ones, input and output
reflected. -/
def crc32c (l : List Nat) : BitVec 32 := BitVec.ofNat 32 ((l.foldl crcByte 0xFFFFFFFF) ^^^ 0xFFFFFFFF)

/-- CRC-32C over the bytes of a sequence of words. -/
def crcWords (l : Words) : BitVec 32 := crc32c (wordsBytes l)

/-! ## SM3 -/

/-- Rotate a 32-bit number left. -/
def rotl32 (n x : Nat) : Nat := ((x <<< n) ||| (x >>> (32 - n))) % 2 ^ 32
/-- SM3's P0. -/
def sm3P0 (x : Nat) : Nat := x ^^^ rotl32 9 x ^^^ rotl32 17 x
/-- SM3's P1. -/
def sm3P1 (x : Nat) : Nat := x ^^^ rotl32 15 x ^^^ rotl32 23 x
/-- SM3's FF of round `j`. -/
def sm3FF (j x y z : Nat) : Nat := if j < 16 then x ^^^ y ^^^ z else (x &&& y) ||| (x &&& z) ||| (y &&& z)
/-- SM3's GG of round `j`. -/
def sm3GG (j x y z : Nat) : Nat := if j < 16 then x ^^^ y ^^^ z else (x &&& y) ||| ((x ^^^ 0xFFFFFFFF) &&& z)

/-- The eight working words of SM3. -/
structure Sm3 where
  a : Nat
  b : Nat
  c : Nat
  d : Nat
  e : Nat
  f : Nat
  g : Nat
  h : Nat
deriving DecidableEq, Repr

/-- SM3's initial value. -/
def sm3Init : Sm3 := ⟨0x7380166f, 0x4914b2b9, 0x172442d7, 0xda8a0600, 0xa96f30bc, 0x163138aa, 0xe38dee4d, 0xb0fb0e4e⟩

/-- One round, with message words W_j and W'_j. -/
def sm3Round (s : Sm3) (j w w' : Nat) : Sm3 :=
  let t := rotl32 (j % 32) (if j < 16 then 0x79cc4519 else 0x7a879d8a)
  let ss1 := rotl32 7 ((rotl32 12 s.a + s.e + t) % 2 ^ 32)
  let ss2 := ss1 ^^^ rotl32 12 s.a
  let tt1 := (sm3FF j s.a s.b s.c + s.d + ss2 + w') % 2 ^ 32
  let tt2 := (sm3GG j s.e s.f s.g + s.h + ss1 + w) % 2 ^ 32
  ⟨tt1, s.a, rotl32 9 s.b, s.c, sm3P0 tt2, s.e, rotl32 19 s.f, s.g⟩

/-- The message expansion, newest word first. -/
def sm3Expand : Nat → List Nat → List Nat
  | 0, l => l
  | n + 1, l =>
    let w := sm3P1 (l.getD 15 0 ^^^ l.getD 8 0 ^^^ rotl32 15 (l.getD 2 0)) ^^^ rotl32 7 (l.getD 12 0) ^^^ l.getD 5 0
    sm3Expand n (w :: l)

/-- The 64 rounds over the expanded words, oldest first. -/
def sm3Rounds : Nat → List Nat → Nat → Sm3 → Sm3
  | 0, _, _, s => s
  | n + 1, l, j, s => sm3Rounds n l.tail (j + 1) (sm3Round s j (l.getD 0 0) (l.getD 0 0 ^^^ l.getD 4 0))

/-- Big-endian 32-bit words of a block. -/
def sm3Words : Nat → List Nat → List Nat
  | 0, _ => []
  | n + 1, l => ofBeBytes (l.take 4) :: sm3Words n (l.drop 4)

/-- SM3's compression of one 64-byte block. -/
def sm3Block (v : Sm3) (blk : List Nat) : Sm3 :=
  let w := (sm3Expand 52 (sm3Words 16 blk).reverse).reverse
  let r := sm3Rounds 64 w 0 v
  ⟨r.a ^^^ v.a, r.b ^^^ v.b, r.c ^^^ v.c, r.d ^^^ v.d, r.e ^^^ v.e, r.f ^^^ v.f, r.g ^^^ v.g, r.h ^^^ v.h⟩

/-- SM3 over `n` blocks. -/
def sm3Loop : Nat → List Nat → Sm3 → Sm3
  | 0, _, v => v
  | n + 1, l, v => sm3Loop n (l.drop 64) (sm3Block v (l.take 64))

/-- The 32-byte SM3 digest, as the number whose most significant byte is the digest's first. -/
def sm3 (l : List Nat) : Nat :=
  let n := l.length
  let k := (n + 9 + 63) / 64
  let m := l ++ [0x80] ++ List.replicate (k * 64 - n - 9) 0 ++ beBytes 8 (8 * n)
  let v := sm3Loop k m sm3Init
  ((((((v.a * 2 ^ 32 + v.b) * 2 ^ 32 + v.c) * 2 ^ 32 + v.d) * 2 ^ 32 + v.e) * 2 ^ 32 + v.f) * 2 ^ 32 + v.g) * 2 ^ 32 + v.h

/-! ## SM2 -/

/-- The prime of the SM2 curve. -/
def sm2P : Nat := 0xFFFFFFFEFFFFFFFFFFFFFFFFFFFFFFFFFFFFFFFF00000000FFFFFFFFFFFFFFFF
/-- The order of the base point. -/
def sm2N : Nat := 0xFFFFFFFEFFFFFFFFFFFFFFFFFFFFFFFF7203DF6B21C6052B53BBF40939D54123
/-- The coefficient a. -/
def sm2A : Nat := sm2P - 3
/-- The coefficient b. -/
def sm2B : Nat := 0x28E9FA9E9D9F5E344D5A9E4BCF6509A7F39789F515AB8F92DDBCBD414D940E93
/-- The base point. -/
def sm2Gx : Nat := 0x32C4AE2C1F1981195F9904466A39C9948FE30BBFF2660BE1715A4589334C74C7
/-- The base point. -/
def sm2Gy : Nat := 0xBC3736A2F4F6779C59BDCEE36B692153D0A9877CC62A474002DF32E52139F0A0

/-- A point in Jacobian coordinates; z = 0 is the point at infinity. -/
structure EcPoint where
  x : Nat
  y : Nat
  z : Nat
deriving DecidableEq, Repr

/-- `a − b` modulo the prime. -/
def sm2Sub (a b : Nat) : Nat := (a + (sm2P - b % sm2P)) % sm2P

/-- Point doubling. -/
def EcPoint.dbl (q : EcPoint) : EcPoint :=
  if q.z = 0 then q else
  let yy := q.y * q.y % sm2P
  let s := 4 * q.x * yy % sm2P
  let zz := q.z * q.z % sm2P
  let m := (3 * q.x * q.x + sm2A * (zz * zz % sm2P)) % sm2P
  let x := sm2Sub (m * m) (2 * s)
  ⟨x, sm2Sub (m * sm2Sub s x) (8 * (yy * yy % sm2P)), 2 * q.y * q.z % sm2P⟩

/-- Point addition. -/
def EcPoint.plus (p q : EcPoint) : EcPoint :=
  if p.z = 0 then q else if q.z = 0 then p else
  let pz := p.z * p.z % sm2P
  let qz := q.z * q.z % sm2P
  let u1 := p.x * qz % sm2P
  let u2 := q.x * pz % sm2P
  let s1 := p.y * (qz * q.z % sm2P) % sm2P
  let s2 := q.y * (pz * p.z % sm2P) % sm2P
  if u1 = u2 then (if s1 = s2 then p.dbl else ⟨1, 1, 0⟩) else
  let h := sm2Sub u2 u1
  let r := sm2Sub s2 s1
  let h2 := h * h % sm2P
  let h3 := h2 * h % sm2P
  let v := u1 * h2 % sm2P
  let x := sm2Sub (r * r) (h3 + 2 * v)
  ⟨x, sm2Sub (r * sm2Sub v x) (s1 * h3), h * (p.z * q.z % sm2P) % sm2P⟩

/-- Multiple of a point by the low `n` bits of `k`, most significant first. -/
def EcPoint.mulBits (q : EcPoint) (k : Nat) : Nat → EcPoint → EcPoint
  | 0, acc => acc
  | n + 1, acc => EcPoint.mulBits q k n (if k.testBit n then acc.dbl.plus q else acc.dbl)

/-- `b ^ e` modulo `m`, over the low `n` bits of `e`, most significant first. -/
def powMod (m b e : Nat) : Nat → Nat → Nat
  | 0, acc => acc
  | n + 1, acc => powMod m b e n (if e.testBit n then acc * acc % m * b % m else acc * acc % m)

/-- A pair of coordinates is a valid point of the SM2 curve (R398). -/
def sm2OnCurve (x y : Nat) : Bool :=
  x < sm2P && y < sm2P && y * y % sm2P == (x * x % sm2P * x + sm2A * x + sm2B) % sm2P

/-- The default distinguishing identifier (chapter 17): the 16 ASCII bytes "1234567812345678". -/
def sm2Id : List Nat := [0x31, 0x32, 0x33, 0x34, 0x35, 0x36, 0x37, 0x38, 0x31, 0x32, 0x33, 0x34, 0x35, 0x36, 0x37, 0x38]

/-- Verification of an SM2 signature (r, s) over a message with a public key. -/
def sm2Verify (px py r s : Nat) (msg : List Nat) : Bool :=
  if r = 0 ∨ sm2N ≤ r ∨ s = 0 ∨ sm2N ≤ s ∨ !sm2OnCurve px py then false else
  let za := sm3 ([0, 128] ++ sm2Id ++ beBytes 32 sm2A ++ beBytes 32 sm2B ++ beBytes 32 sm2Gx ++ beBytes 32 sm2Gy
    ++ beBytes 32 px ++ beBytes 32 py)
  let e := sm3 (beBytes 32 za ++ msg)
  let t := (r + s) % sm2N
  if t = 0 then false else
  let q := (EcPoint.mulBits ⟨sm2Gx, sm2Gy, 1⟩ s 256 ⟨1, 1, 0⟩).plus (EcPoint.mulBits ⟨px, py, 1⟩ t 256 ⟨1, 1, 0⟩)
  if q.z = 0 then false else
  let zi := powMod sm2P q.z (sm2P - 2) 256 1
  let x := q.x * (zi * zi % sm2P) % sm2P
  (e + x) % sm2N == r

end Sys2Proof.Machine
end

