-- ==== Sys2Proof/Machine/StateAcq.lean ====
section
/-!
DEFINITION. Machine/StateAcq.lean: the state of the Concordance (chapter 9), of triggers and acquisition (chapter 10),
of bias channels and monitors (chapter 11), of calibration (chapter 14) and of thermal supervision (chapter 18). The
default of every field is its value after power-on reset (R241, R264, R286, R359, R426). Times are device ticks.
-/
namespace Sys2Proof.Machine

/-! ## Concordance (chapter 9) -/

/-- A gather-map entry (Table 9.6). -/
structure GatherEnt where
  smem : Nat := 0
  sline : Nat := 0
  sslot : Nat := 0
  sel : Nat := 0
  inv : Bool := false
  dflt : Bool := false
deriving DecidableEq, Repr

/-- View bank states (Table 9.4). -/
inductive ViewState where
  | steady
  | verifying
  | swapping
  | copying
deriving DecidableEq, Repr

/-- A view (R223, Table 9.7). -/
structure View where
  defined : Bool := false
  owner : Fin 8 := 0
  w : Nat := 0
  base : Nat := 0
  age : Nat := 0
  gather : List GatherEnt := []
  st : ViewState := .steady
  /-- Active bank; in SWAPPING the old one: `true` is CB1. -/
  bank1 : Bool := false
  copyback : Bool := false
  /-- Digest of the commit in progress, and its start. -/
  digest : Nat := 0
  since : Nat := 0
  lastCommit : Nat := 0
  lookups : BitVec 32 := 0
  conflicts : Nat := 0
  alerts : Nat := 0
  corrected : BitVec 32 := 0
  uncorrectable : Nat := 0
  overruns : Nat := 0
  lastAlert : Nat := 0
  lastLanding : Word := 0
deriving DecidableEq, Repr

/-- A membership and its frame terms (R224). -/
structure MemberSet where
  view : Option (Fin 16) := none
  terms : Vector Word 8 := Vector.replicate 8 0
  /-- The member's own copy of the view's gather map and AGE, taken at its ARM (R242). -/
  gather : List GatherEnt := []
  age : Nat := 0
deriving DecidableEq, Repr

/-- The Concordance side of a sequencer. -/
structure Member where
  shadow : MemberSet := {}
  sealed_ : Option MemberSet := none
  active : MemberSet := {}
  /-- The bank selector: `true` is CB1. -/
  bank1 : Bool := false
  /-- The member has landed in the SWAPPING view (R236). -/
  landed : Bool := false
  /-- The gathered verdicts with their latch ticks (R226). -/
  inputs : Vector (Option (Word × Nat)) 21 := Vector.replicate 21 none
  discard : Vector Bool 21 := Vector.replicate 21 false
deriving DecidableEq, Repr

/-- A lookup that has resolved: the device tick of its resolution, and the bank and index it reads (R230). -/
structure Read where
  seq : Nat
  res : Nat
  bank1 : Bool
  index : Nat
deriving DecidableEq, Repr

/-- The Concordance. -/
structure Conc where
  view : Vector View 16 := Vector.replicate 16 {}
  member : Vector Member 256 := Vector.replicate 256 {}
  /-- Entries of CB0 and CB1 with CHECK read as zero (R228), and the staging images (R234). -/
  cb0 : Sparse Word := []
  cb1 : Sparse Word := []
  img0 : Sparse Word := []
  img1 : Sparse Word := []
  /-- Entries found uncorrectable and not yet rewritten (R239): bank and index. -/
  bad : List (Bool × Nat) := []
  /-- Resolved lookups of each cluster, newest first. -/
  reads : Vector (List Read) 8 := Vector.replicate 8 []
deriving DecidableEq, Repr

/-! ## Triggers and acquisition (chapter 10) -/

/-- A trigger input (R243 to R247). -/
structure TrigIn where
  filter : Nat := 4
  actlow : Bool := false
  both : Bool := false
  dir : Nat := 0
  stuck : Nat := 0
  /-- The level that drivers outside the device give the line (R247). -/
  ext : Bool := false
  /-- The synchronized level of the ball, and the tick from which it has stood. -/
  ball : Bool := false
  ballAt : Nat := 0
  /-- The filtered level, and the tick in which it became active. -/
  level : Bool := false
  levelAt : Nat := 0
  lastEvent : Option Nat := none
  isStuck : Bool := false
  events : BitVec 32 := 0
  excess : Nat := 0
  stucks : Nat := 0
  rejects : Nat := 0
deriving DecidableEq, Repr

/-- A select entry (R249). -/
structure Select where
  en : Bool := false
  ml : Bool := false
  mon : Nat := 0
  smem : Nat := 0
  sline : Nat := 0
  sslot : Nat := 0
  sel : Nat := 0
  inv : Bool := false
  seq : Nat := 0
deriving DecidableEq, Repr

/-- A pattern unit (R250). -/
structure PatUnit where
  en : Bool := false
  value : Word := 0
  mask : Word := 0
  /-- It matched in the tick before. -/
  prev : Bool := false
  lastFire : Option Nat := none
  fires : BitVec 32 := 0
deriving DecidableEq, Repr

/-- A reduction of a plan (Table 10.9): KIND and its two parameters: LEN and PRE; NPTS and DUMP; BATCH; DUMP. -/
structure Reduction where
  kind : Nat
  a : Nat
  b : Nat
deriving DecidableEq, Repr

/-- A capture plan (R253). -/
structure Plan where
  start : Nat
  pt : Nat
  at_ : BitVec 32
  minPeriod : Nat
  ring : Nat
  /-- First granule of its ring in the partition's memory share (R134). -/
  raddr : Nat := 0
  reds : List Reduction
  i0 : BitVec 32
  q0 : BitVec 32
  si : BitVec 32
  sq : BitVec 32
deriving DecidableEq, Repr

/-- What a reduction has gathered for its next record. -/
structure Accum where
  n : Nat := 0
  /-- Data words of an IQ or verdict batch, or the running means of an average. -/
  data : Words := []
  bins : Sparse Nat := []
  first : Nat := 0
  sst : Word := 0
  taint : Bool := false
  outOfRange : Bool := false
  missing : Bool := false
  /-- The record found no free half at its start and is not written (R262). -/
  full : Bool := false
deriving DecidableEq, Repr

/-- A record that is ready and not yet drained (R262). -/
abbrev Record := Words

/-- A ring (R263): its size in units of 64 KiB, its records, oldest first, and the words of the first record that have been
read. -/
structure Ring where
  size : Nat
  addr : Nat := 0
  recs : List Record := []
  read : Nat := 0
deriving DecidableEq, Repr

/-- A raw record in progress (R257). -/
structure RawCap where
  first : Nat
  last : Nat
  short : Bool
  pre : Nat
  context : Word
  units : Nat
  /-- START and PT of its plan. -/
  start : Nat
  pt : Nat
  /-- The shot whose MEASURE started it: sequencer and start tick. -/
  shot : Option (Nat × Nat) := none
  /-- It found no free half of the reservation at its start and is not written (R262). -/
  full : Bool := false
deriving DecidableEq, Repr

/-- What a captured window enters a plan's reductions with: its value and samples, or its verdict packet (Table 10.5). -/
structure Datum where
  win : Window
  taint : Bool
  outOfRange : Bool
  missing : Bool
  y : Option (BitVec 32 × BitVec 32) := none
  z : Words := []
  packet : Word := 0
deriving DecidableEq, Repr

/-- The acquisition side of a demodulation slot. The shadow and sealed copies hold `some none` for a plan removed. -/
structure CapSlot where
  shadow : Option (Option Plan) := none
  sealed_ : Option (Option Plan) := none
  active : Option Plan := none
  /-- The plan in force before, the next sequence number of its records, and whether the plan in force started a ring of its
  own (R254, R263). -/
  prev : Option Plan := none
  prevSeq : Nat := 0
  newRing : Bool := false
  /-- The apply tick of the plan in force. -/
  planAt : Nat := 0
  /-- Data of captured windows that wait for those of an earlier window, values and verdicts apart (R259). -/
  waiting : List Datum := []
  verdicts : List Datum := []
  /-- The plan's apply tick, and the start of the pre-trigger history (R257). -/
  histAt : Nat := 0
  holdUntil : Option Nat := none
  done_ : Bool := false
  raw : Option RawCap := none
  /-- Raw records in progress of plans that have been replaced (R254), oldest first. -/
  rawLate : List RawCap := []
  acc : Vector Accum 4 := Vector.replicate 4 {}
  ready : List Record := []
  rings : List Ring := []
  seqno : Nat := 0
  starts : BitVec 32 := 0
  heldOff : Nat := 0
  shortPre : Nat := 0
  lost : Nat := 0
  dropped : Nat := 0
  lostRead : Nat := 0
  droppedRead : Nat := 0
  resync : Bool := false
deriving DecidableEq, Repr

/-- Triggers and acquisition. -/
structure Acq where
  input : Vector TrigIn 19 := Vector.replicate 19 {}
  /-- Select bits 22 to 63 of the source vector. -/
  select : Vector Select 42 := Vector.replicate 42 {}
  unit : Vector PatUnit 32 := Vector.replicate 32 {}
  /-- The tick in which the units' matches of the tick before were last taken. -/
  svAt : Nat := 0
  /-- The tick in which a matching verdict arrived at V0 to V15 last (R249). -/
  verdictAt : Vector (Option Nat) 16 := Vector.replicate 16 none
  /-- First and last tick of each sequencer's marker pulse (R249). -/
  marker : Vector (Option (Nat × Nat)) 256 := Vector.replicate 256 none
  cap : Vector CapSlot 512 := Vector.replicate 512 {}
deriving DecidableEq, Repr

/-! ## Bias and monitors (chapter 11) -/

/-- Channel states (R268). -/
inductive ChanState where
  | off
  | on
  | shutting
deriving DecidableEq, Repr

/-- The code queue of a channel (R274, R275): none, waiting for its start, or running since its start tick. -/
inductive QueueRun where
  | idle
  | waiting (start : Nat) (pt : Nat) (since : Nat)
  | running (since : Nat) (done_ : Nat)
deriving DecidableEq, Repr

/-- A bias channel. -/
structure Chan where
  st : ChanState := .off
  frozen : Bool := false
  range : Nat := 0
  supv : Nat := 1
  step : Nat := 64
  sper : Nat := 1
  uper : Nat := 1000
  code : Nat := 0x20000
  target : Nat := 0x20000
  /-- The start of the slew interval in progress. -/
  slewAt : Nat := 0
  /-- The end of the deglitcher's hold and the code it steps to. -/
  hold : Option (Nat × Nat) := none
  /-- The tick in which a SHUTTING channel's output reached zero. -/
  zeroAt : Option Nat := none
  codes : List Nat := []
  loop : Bool := false
  /-- UPER as the queue action found it. -/
  quper : Nat := 1000
  run : QueueRun := .idle
  events : Nat := 0
  /-- A supervision episode is in progress (R277): 1 compliance or overcurrent, 2 open load. -/
  episode : Nat := 0
  /-- The output stage is at its limit, timed from this tick (R277). -/
  limitAt : Option Nat := none
  /-- The channel is under measurement by a calibration run (R351). -/
  measured : Bool := false
deriving DecidableEq, Repr

/-- A window monitor: MB0–MB255, then ML0–ML31. -/
structure Monitor where
  en : Bool := true
  frz : Bool := true
  code : Nat := 1023
  hys : Nat := 8
  blank : Nat := 100
  dmap : BitVec 16 := 0
  pmap : BitVec 8 := 0
  tripped : Bool := true
  /-- The synchronized copy of the trip (R23) shows `tripped` from this tick on, and `copy` before. -/
  copy : Bool := true
  copyAt : Nat := 0
  /-- The apply tick of the last change of its settings (R283). -/
  changedAt : Option Nat := none
  /-- The outputs that the trip in force mutes (R283). -/
  tripD : BitVec 16 := 0
  tripP : BitVec 8 := 0
  /-- The tick from which the blanking interval runs. -/
  blankAt : Nat := 0
  trips : Nat := 0
  lastTrip : BitVec 32 := 0
deriving DecidableEq, Repr

/-- A request of a die's housekeeping ADC (R285): a readback of a monitor's threshold DAC, or a measurement of a channel. -/
inductive HkAsk where
  | readback (m : Nat)
  | measure (b : Nat)
deriving DecidableEq, Repr

/-- A request that waits or is served: what it measures, the acceptance number of its command, and its word of the reply. -/
structure HkReq where
  ask : HkAsk
  accept : BitVec 32
  idx : Nat
deriving DecidableEq, Repr

/-- A die's housekeeping ADC: its requests in order, and the start of the first one's service. -/
structure Hk where
  reqs : List HkReq := []
  at_ : Nat := 0
deriving DecidableEq, Repr

/-- Bias channels and monitors. -/
structure Bias where
  chan : Vector Chan 256 := Vector.replicate 256 {}
  mon : Vector Monitor 288 := (Vector.replicate 256 ({} : Monitor)) ++ (Vector.replicate 32 ({ frz := false } : Monitor))
  hk : Vector Hk 4 := Vector.replicate 4 {}
deriving DecidableEq, Repr

/-! ## Calibration (chapter 14) -/

/-- A calibration run of a die. -/
structure CalRun where
  cls : Nat
  shift : Bool
  apply : Bool
  freq : Nat
  level : Int
  /-- Elements not yet measured: class, index, range. -/
  left : List (Nat × Nat × Nat)
  /-- The start of the element in measurement. -/
  since : Nat
  /-- The head element is measured, and its core waits for the swap back (R350). -/
  measured : Bool := false
  /-- The temperature T at the start of the element's measurement (R352). -/
  temp : Frac := ⟨640, 1⟩
  /-- The run ends early, with this status (R356). -/
  early : Option Nat := none
  accept : BitVec 32
deriving DecidableEq, Repr

/-- The calibration side of a die (Table 14.6). -/
structure CalDie where
  run : Option CalRun := none
  state : Nat := 0
  done_ : Nat := 0
  skipped : Nat := 0
  rejected : Nat := 0
  abandoned : Nat := 0
  /-- Sums of the shifts of the elements passed, and how many RF and bias elements they are. -/
  gain : Int := 0
  phase : Int := 0
  delay : Int := 0
  rf : Nat := 0
  bias : Int := 0
  biasN : Nat := 0
  rejectMask : Word := 0
  /-- The class run last, which the mask belongs to. -/
  maskCls : Nat := 0
  /-- The candidate set: points of the elements measured with APPLY = 0 (R355). -/
  cand : Sparse (Option Word) := []
  /-- The die temperature T of the last target update, in 1/16 °C, as a fraction (R345). -/
  temp : Frac := ⟨640, 1⟩
  /-- A change by CAL_RUN or TRIM_LOAD whose remainders are not all zero (R348). -/
  applying : Bool := false
deriving DecidableEq, Repr

/-- Calibration. A trim word of die d, class c, index i, range r and point p lies at address
`(((d·8 + c)·64 + i)·4 + r)·8 + p`; the value in force of an element at point 5, a result in a candidate at point 7. `none` is the factory word of a point, and
the target of a value in force. -/
structure Cal where
  die : Vector CalDie 4 := Vector.replicate 4 {}
  active : Sparse (Option Word) := []
  inForce : Sparse (Option Word) := []
  /-- The tick from which an element may take its next step (R347, R348), by the address of its value in force. -/
  stepAt : Sparse Nat := []
  updatedAt : Nat := 0
deriving DecidableEq, Repr

/-! ## Thermal supervision (chapter 18) -/

/-- A temperature sensor, in 1/16 °C: the reading that supervision takes, which is the substitute of a failed sensor (R415);
the last reading as read; consecutive deviating polls; the tick in which it was declared failed; the tick of its last poll. -/
structure Sensor where
  reading : Int := 400
  raw : Int := 400
  devs : Nat := 0
  failedAt : Option Nat := none
  polledAt : Nat := 0
deriving DecidableEq, Repr

/-- Thermal levels (Table 18.2). -/
inductive Level where
  | normal
  | warn
  | throttle
  | shutdown
deriving DecidableEq, Repr

/-- Thermal supervision. -/
structure Thermal where
  sensor : Vector Sensor 72 := Vector.replicate 72 {}
  level : Level := .normal
  step : Nat := 0
  warn : Nat := 95
  throttle : Nat := 105
  /-- The ticks from which the hottest reading has stayed at or above WARN, THROTTLE and SHUTDOWN (R417). -/
  aboveW : Option Nat := none
  aboveT : Option Nat := none
  aboveS : Option Nat := none
  /-- The ticks from which it has stayed below the release thresholds of WARN and THROTTLE. -/
  belowW : Option Nat := none
  belowT : Option Nat := none
  /-- Consecutive polls at 125 °C or more. -/
  fast : Nat := 0
  /-- The start of the 100 ms of the present throttle step. -/
  stepAt : Nat := 0
  /-- Level and step are held until power-on reset (R416). -/
  pinned : Bool := false
  skipped : Word := 0
  /-- The first skipped event since the entry into step 3 has been reported (R421). -/
  skipSeen : Bool := false
  /-- The entry tick of a shutdown in progress, and the dies in the STANDBY condition (R423). -/
  shutAt : Option Nat := none
  dieDown : Vector Bool 4 := Vector.replicate 4 false
deriving DecidableEq, Repr

end Sys2Proof.Machine
end

