-- ==== Sys2Proof/Machine/StateHost.lean ====
section
/-!
DEFINITION. Machine/StateHost.lean: the parts of the state that chapters 2, 12, 13, 15, 16, 17 and 19 name: timebase,
command queues, control units, partitions, Archive, Ledger, security, power states, host and start-up. The default of
every field is its value after power-on reset.
-/
namespace Sys2Proof.Machine

/-! ## Identity of the part (R31, chapter 16) -/

/-- Population tiers (Table 1.6). -/
inductive Tier where
  | k8
  | k4
  | k2
deriving DecidableEq, Repr

/-- What manufacture writes and no command changes: tier, stepping, serial number, and the density of the memory that
the card carries. -/
structure Identity where
  tier : Tier := .k8
  stepping : BitVec 8 := 0
  serial : BitVec 64 := 0
  /-- GiB of LPDDR4X on each channel: 1, 2 or 4 (R444). -/
  gibPerChannel : Nat := 4
  /-- SMB_A1 and SMB_A0 (R433). -/
  smbAddr : BitVec 2 := 0
deriving DecidableEq, Repr

/-! ## Timebase (chapter 2) -/

/-- Reference sources (R33). -/
inductive RefSrc where
  | chassis
  | refin10
  | refin100
deriving DecidableEq, Repr

/-- The sample PLL: out of lock, locked, or in holdover (R34, R58). -/
inductive PllState where
  | unlocked
  | locked
  | holdover
deriving DecidableEq, Repr

/-- The selected sync source (Table 2.5). -/
inductive SyncSrc where
  | input (i : SyncIn)
  | internal
deriving DecidableEq, Repr

/-- The epoch capture (R36, R38): none, armed for an edge, or an epoch tick fixed with the edge's phase in ps. -/
inductive Capture where
  | none
  | armed (src : SyncIn)
  | fixed (epochAt : Nat) (ps : Nat)
deriving DecidableEq, Repr

/-- A mark that has occurred (R50): device tick, tick counter, Almanac, and the exact Almanac travel at that tick. -/
structure MarkRec where
  seq : BitVec 32 := 0
  now : Nat := 0
  tick : BitVec 64 := 0
  almanac : BitVec 32 := 0
  travel : Int := 0
  frac : Nat := 0
deriving DecidableEq, Repr

/-- What an Almanac-scheduled event does when it fires (R55, R26, R274, chapter 10). -/
inductive AlmWhat where
  | seqApply (q : Nat)
  | capture (slot : Nat)
  | biasQueue (chan : Nat)
deriving DecidableEq, Repr

/-- An armed Almanac-scheduled event. `due` is the Almanac travel at which its distance is zero; it fires no earlier
than device tick `earliest`. -/
structure AlmEvent where
  what : AlmWhat
  due : Int
  earliest : Nat
deriving DecidableEq, Repr

/-- The state of the timebase. `now` counts device ticks from the last reset or wake (the model's own): the tick counter is
`now − zeroAt` once it counts. -/
structure Timebase where
  now : Nat := 0
  counting : Bool := false
  zeroAt : Nat := 0
  epochValid : Bool := false
  epochCount : BitVec 32 := 0
  epochDelay : Nat := 16
  phaseCorr : Int := 0
  refSrc : RefSrc := .chassis
  pll : PllState := .unlocked
  /-- Lock has been declared since start-up (R34). -/
  everLocked : Bool := false
  /-- The device tick in which the reference returned in holdover (R59). -/
  returnAt : Option Nat := none
  /-- Steered relock is running (R59). -/
  steering : Bool := false
  /-- The device tick of the last change of reference source, while no valid signal has arrived (R35). -/
  sourceChangedAt : Option Nat := none
  /-- The sync source of the last SYNC_ARM since power-on reset (R36, R44). -/
  syncSrc : Option SyncSrc := none
  capture : Capture := .none
  almanac : BitVec 32 := 0
  secPhase : Nat := 0
  /-- The 40-bit accumulator of the slew fraction (R49). -/
  frac : Nat := 0
  /-- The slew fraction ε in units of 2^-40 ns per tick (R49). -/
  eps : Int := 0
  /-- Sum of every advance of the Almanac, by tick, slew and step, never wrapped (R55; the model's own). -/
  travel : Int := 0
  /-- Marks that have occurred and are not yet served, oldest first. -/
  marksDue : List MarkRec := []
  /-- Passages of the second phase through zero whose mark a backward step has already seen (R50). -/
  skipMarks : Nat := 0
  markSeq : BitVec 32 := 0
  /-- The last mark record and the one before it (R50, R52). -/
  lastMark : MarkRec := {}
  prevMark : MarkRec := {}
  /-- The servo (R51, Table 2.3): φ and ψ in ppb, the end of the running phase term, and the configuration. -/
  phi : Frac := {}
  psi : Frac := {}
  psiEnd : Option Nat := none
  slewLimit : Nat := 200
  stepThreshold : Nat := 1000
  tc : Nat := 1000
  kiShift : Nat := 3
  stepInhibit : Bool := false
  /-- The tick-counter value of the mark named by the previous feed (R51). -/
  prevFeed : Option (BitVec 64) := none
  stepCount : BitVec 24 := 0
  events : List AlmEvent := []
deriving DecidableEq, Repr

/-! ## Command queues (chapter 12) -/

/-- QSTATE (Table 12.1). -/
inductive QState where
  | disabled
  | enabled
  | draining
  | broken
deriving DecidableEq, Repr

/-- A queue pair: its descriptor words D0 to D2 as written (ENABLE is bit [39] of D2), the fields of D3, the doorbell
values, and the queue engine's positions (R289 to R292). -/
structure Queue where
  d0 : Word := 0
  d1 : Word := 0
  d2 : Word := 0x4402000000000000#64
  qstate : QState := .disabled
  brk : BitVec 6 := 0
  sqHead : BitVec 12 := 0
  cqTail : BitVec 12 := 0
  refused : BitVec 16 := 0
  sqTail : BitVec 12 := 0
  cqHead : BitVec 12 := 0
  phase : Bool := true
  /-- Completion slots written and not yet freed by CQ_HEAD (R291). -/
  cqUsed : Nat := 0
  /-- Completions not yet signaled, and the device tick of the first (R312). -/
  unsignaled : Nat := 0
  firstUnsignaled : Option Nat := none
deriving DecidableEq, Repr

/-- An open session (R302): its handle holds the function in [31:28] and the serial in [27:0]. -/
structure Session where
  func : Nat
  serial : Nat
  label : BitVec 32
  level : Nat
deriving DecidableEq, Repr

/-- A packet in the packet buffer: its opcode, SQ_HEAD after its fetch, and the device tick of the fetch. -/
structure Fetched where
  opcode : BitVec 16
  packet : Packet
  sqHead : BitVec 12
  at_ : Nat
  /-- Its handle was open at the fetch (R303). -/
  handleOk : Bool
  /-- The device tick since which FENCE or BARRIER keeps it waiting (R306, R308). -/
  parked : Option Nat := none
  /-- Its function was reset after it was accepted: no completion is posted (R303). -/
  silent : Bool := false
  /-- The write of its completion meets a PCIe error (R292). -/
  ringFault : Bool := false
deriving DecidableEq, Repr

/-- The item that a hold list belongs to (R307). -/
inductive Item where
  | seqSet (q : Nat)
  | output (o : Nat)
  | page (e : Nat)
  | view (v : Nat)
  | calElement (cls idx : Nat)
  | diePatch (d : Nat)
  | dieLink (d : Nat)
  | store
  | image
  | power
  | jtag
deriving DecidableEq, Repr

/-- A held command, in acceptance order, with the items it waits on. -/
structure Held where
  items : List Item
  opcode : BitVec 16
  packet : Packet
  accept : BitVec 32
  sqHead : BitVec 12
  since : Nat
deriving DecidableEq, Repr

/-- A command whose completion is not yet posted, or a long command that runs: opcode, packet, acceptance number, and
the device tick in which it began. -/
structure OpenCmd where
  opcode : BitVec 16
  packet : Packet
  accept : BitVec 32
  sqHead : BitVec 12
  since : Nat
  long : Bool
  /-- Its function was reset, or it was held: no completion is posted (R303, R307). -/
  silent : Bool := false
  /-- Steps of a long command that have committed (R324). -/
  steps : Nat := 0
  /-- Measured words that the command's end returns in its reply. -/
  data : Words := []
  /-- The tick of the first exchange of a fabric SKEW_CAL (R309). -/
  first : Option Nat := none
  /-- Sequence number of the record of its change. -/
  seq : BitVec 64 := 0
deriving DecidableEq, Repr

/-- A completion entry as posted (Table 12.4) with its reply payload, and the slot it took. -/
structure Completion where
  source : Source
  slot : BitVec 12
  status : BitVec 16
  detail : BitVec 16
  rslots : BitVec 16
  tag : BitVec 16
  tick : BitVec 64
  ledgerSeq : BitVec 64
  phase : Bool
  slow : Bool
  unit : UnitId
  sqHead : BitVec 12
  opcode : BitVec 16
  accept : BitVec 32
  handle : BitVec 32
  partition : BitVec 4
  reply : Option Words
deriving DecidableEq, Repr

/-- One MSI-X message sent: the function (0 physical, 1 to 8 virtual) and its vector. -/
structure Msix where
  func : Nat
  vector : Nat
deriving DecidableEq, Repr

/-- The command state: queue descriptors of Q0 to Q32767, the debug port's queue pair, sessions, acceptance, hold
lists, MSI-X, and what the device has written to host memory, newest first. -/
structure HostIf where
  queues : Sparse Queue := []
  debugQueue : Queue := {}
  /-- The function a queue belongs to, where it is not the physical function (R288). -/
  queueFunc : Sparse Nat := []
  sessions : List Session := []
  /-- The last 1,024 sessions that have closed, newest first: packets fetched under them complete normally (R303). -/
  closed : List Session := []
  /-- A queue whose own PARTITION_DEFINE moves it, and its new function, until it has drained (R290). -/
  moving : List (Nat × Nat) := []
  /-- The next serial of each function, 9 for the debug port (R302). -/
  nextSerial : Vector Nat 10 := Vector.replicate 10 1
  /-- The last acceptance number (R305). -/
  accept : BitVec 32 := 0
  /-- Fetched packets not yet begun, in fetch order. -/
  fetched : List Fetched := []
  /-- Packets that wait under FENCE, BARRIER or behind a command of their queue that has not completed (R306). -/
  waiting : List Fetched := []
  held : List Held := []
  /-- Commands begun and not completed, and long commands that run, in acceptance order. -/
  open_ : List OpenCmd := []
  slowCount : Nat := 0
  lastSlow : Option Nat := none
  /-- MSI-X mask and pending bits: vectors 0–1,023 of the physical function, then 128 of each virtual function. -/
  msixMask : Vector Bool 2048 := Vector.replicate 2048 true
  msixPend : Vector Bool 2048 := Vector.replicate 2048 false
  messages : List Msix := []
  posted : List Completion := []
deriving DecidableEq, Repr

/-! ## Control units and the Keeper (chapter 13) -/

/-- Control-unit states (Table 13.1). -/
inductive UnitState where
  | selftest
  | resync
  | standby
  | active
  | fenced
  | failed
deriving DecidableEq, Repr

/-- A service lane group to a converter die (R19): up, or failed since a device tick. -/
structure LaneGroup where
  up : Bool := true
  failedAt : Option Nat := none
  lastRetrain : Nat := 0
  /-- 100 ms have passed without the group (R19). -/
  dead : Bool := false
deriving DecidableEq, Repr

/-- One control unit. -/
structure CtlUnit where
  st : UnitState := .selftest
  /-- Device tick of the last heartbeat toggle (R332). -/
  hbAt : Nat := 0
  hbMissing : Bool := false
  /-- A hand-over request has dropped the heartbeat line: the Keeper treats it as a release (R332). -/
  released : Bool := false
  synced : Bool := false
  /-- The unit's claim of the token, waiting for the Keeper's decision (R333). -/
  claim : Bool := false
  fencedAt : Option Nat := none
  groups : Vector LaneGroup 4 := Vector.replicate 4 {}
  /-- Boot release and COMPAT that the unit runs (R401). -/
  release : BitVec 16 := 0
  compat : BitVec 16 := 0
  /-- Digest of that boot image, its measurement M0 (R400). -/
  digest : BitVec 256 := 0
  /-- Cause and microword address of the last machine check (R325). -/
  mcCause : Option MachineCause := none
  mcAddr : BitVec 14 := 0
  /-- The device tick in which the Curator last served its watchdog, and the cycles for which the Desk has stalled (R332). -/
  watchdogAt : Nat := 0
  stall : BitVec 16 := 0
deriving DecidableEq, Repr

/-! ## The Desk (R315 to R325, R330, R331) -/

/-- An entry of the staging buffer (R319). -/
inductive Staged where
  /-- A staged write to the memory MEMSEL names, to hub shadow state or to converter shadow state. -/
  | mem (sel : Nat) (addr data : Word)
  | hub (addr data : Word)
  | converter (addr data : Word)
  | completion (w : Word)
  | reply (w : Word)
  | vector (v : BitVec 4)
  | hold
  | trap (code : BitVec 16)
deriving DecidableEq, Repr

/-- What the microword fields of Table 13.2 drive: the registers of a Desk (R316 to R318). -/
structure DeskCore where
  /-- The address of the next microword; 0 is the dispatch point. -/
  upc : BitVec 14 := 0
  sc : Vector Word 32 := Vector.replicate 32 0
  /-- The ALU result and the flags of the previous microword. -/
  alu : Word := 0
  z : Bool := false
  n : Bool := false
  c : Bool := false
  v : Bool := false
  counter : Word := 0
  /-- Memory and configuration read data. -/
  mem : Word := 0
  cfg : Word := 0
  /-- Cycles until the timer expires, while it runs. -/
  timer : Option Nat := none
  /-- Index of the current payload word. -/
  payload : Nat := 0
  /-- The staging buffer, newest first (R319). -/
  staging : List Staged := []
  /-- The routine has passed its COMMIT: its tail runs (R321). -/
  tail : Bool := false
deriving DecidableEq, Repr

/-- What a routine of the Desk serves: a packet, or a command of a hold list (R307). -/
inductive Job where
  | packet (f : Fetched)
  | held (h : Held)
deriving DecidableEq, Repr

/-- A routine that was abandoned and restarts before any other command begins (R322, R323): its job, its acceptance number where it
has one, the machine checks that the command has met (R325), and how often in a row it was abandoned. -/
structure Running where
  job : Job
  accept : Option (BitVec 32) := none
  checks : Nat := 0
  abandons : Nat := 0
deriving DecidableEq, Repr

/-- A journal record (R331). -/
inductive JRec where
  | accept (n : BitVec 32) (source : Source) (tag : BitVec 16)
  /-- COMMIT: the Ledger sequence number, and the completion's status, detail and reply. -/
  | commit (n : BitVec 32) (seq : BitVec 64) (status detail : Nat) (reply : Option Words)
  | flushed (n : BitVec 32)
  | posted (n : BitVec 32)
  | sessions
  | queue (source : Source)
  | holds
  | curator
deriving DecidableEq, Repr

/-- The Desk of the unit that holds the token, its routine in progress, the journal, and the other unit's mirror buffer. -/
structure DeskState where
  core : DeskCore := {}
  /-- The machine check that the microcode of the last routine meets, and its microword address (R325). -/
  found : Option (MachineCause × BitVec 14) := none
  cur : Option Running := none
  /-- The last 512 journal records, newest first; how many were sent, and how many the STANDBY unit has acknowledged. -/
  journal : List JRec := []
  sent : Nat := 0
  acked : Nat := 0
  /-- Fetched packets that the journal has not marked completed (R330). -/
  mirror : List Fetched := []
  /-- The function served last, and the queue served last in each function (R295). -/
  turnFunc : Nat := 9
  turnQueue : Vector Nat 10 := Vector.replicate 10 32767
deriving DecidableEq, Repr

/-- A patch-map entry (Table 13.8). -/
structure MapEntry where
  valid : Bool := false
  priv : Bool := false
  block : BitVec 8 := 0
deriving DecidableEq, Repr

/-- A command-loaded microstore image (Table 17.3): release, entries with their 64 microwords, and the digest. -/
structure PatchImage where
  index : Nat
  release : BitVec 16
  /-- (entry number, block, 64 microwords). -/
  entries : List (Nat × Nat × List (BitVec 160))
  digest16 : BitVec 16
deriving DecidableEq, Repr

/-- A microstore (Table 13.7) with its version register (Table 13.9). -/
structure Microstore where
  romRel : BitVec 16 := 0
  patchRel : BitVec 16 := 0
  map : Vector MapEntry 64 := Vector.replicate 64 {}
  signed : Bool := false
  pendingPatch : Option PatchImage := none
  digest16 : BitVec 16 := 0
  /-- Patch RAM: word `64 × entry + i`. -/
  ram : Sparse (BitVec 160) := []
deriving DecidableEq, Repr

/-- A memory word that the Curator has to repair (R93, R141, R190, R239). -/
inductive Repair where
  | seqProgram (q : Nat) (addr : Nat)
  | shelf (die granule : Nat)
  | estProgram (e : Nat) (addr : Nat)
  | concordance (bank entry : Nat)
deriving DecidableEq, Repr

/-- The control units, the Keeper and the Desk's own counts. -/
structure Units where
  a : CtlUnit := {}
  b : CtlUnit := {}
  /-- The Keeper's token (R333). -/
  token : Option UnitId := none
  voters : Vector Bool 3 := Vector.replicate 3 true
  decisions : BitVec 32 := 0
  refusedClaims : BitVec 32 := 0
  switchovers : BitVec 16 := 0
  lastSwitch : BitVec 64 := 0
  lastProof : BitVec 64 := 0
  /-- Device tick of the last standby proof (R338). -/
  proofAt : Nat := 0
  standbyOk : Bool := false
  /-- A switch-over has moved the token and its sequence is not finished (Table 13.11). -/
  switching : Bool := false
  /-- The device tick k of the last token move. -/
  movedAt : Nat := 0
  /-- Repair requests deferred to a COMMIT (R323). -/
  deferrals : Nat := 0
  /-- Repairs that wait for their routine, oldest first. -/
  repairs : List Repair := []
  /-- Command-loaded patches in force (R328). -/
  loaded : List PatchImage := []
  stores : Vector Microstore 9 := Vector.replicate 9 {}
deriving DecidableEq, Repr

/-! ## Partitions and admission (chapter 15) -/

/-- States of a partition (R372). -/
inductive PartState where
  | running
  | holding
  | held
deriving DecidableEq, Repr

/-- One partition: its state, the hold in progress, and its shares (R372 to R375). -/
structure Partition where
  st : PartState := .running
  /-- The hold in progress aborts its sequencers. -/
  abortMode : Bool := false
  /-- The device tick at which the hold's TIMEOUT expires (R373). -/
  timeoutAt : Option Nat := none
  heldTick : BitVec 32 := 0
  stream : Nat := 0
  acq : Nat := 0
  bulk : Nat := 0
  memory : Nat := 0
deriving DecidableEq, Repr

/-- Owners of the elements of R370, the partitions, the device split, and the die patches (R374). -/
structure Parts where
  part : Vector Partition 8 :=
    (Vector.replicate 8 {}).set 0 { stream := 24000, acq := 16000, bulk := 8000, memory := 464 }
  dslot : Vector (Fin 8) 512 := Vector.replicate 512 0
  pslot : Vector (Fin 8) 512 := Vector.replicate 512 0
  rslot : Vector (Fin 8) 512 := Vector.replicate 512 0
  bias : Vector (Fin 8) 256 := Vector.replicate 256 0
  seq : Vector (Fin 8) 256 := Vector.replicate 256 0
  pt : Vector (Fin 8) 32 := Vector.replicate 32 0
  streamTotal : Nat := 24000
  acqTotal : Nat := 16000
  bulkTotal : Nat := 8000
  /-- A die patch waits for its partitions (R329), or applies since a device tick (R374). -/
  patchWaits : Vector Bool 4 := Vector.replicate 4 false
  patchSince : Vector (Option Nat) 4 := Vector.replicate 4 none
  /-- Retired real-time bridge lanes per die: hub to die and die to hub (R367). -/
  lanesDown : Vector Nat 4 := Vector.replicate 4 0
  lanesUp : Vector Nat 4 := Vector.replicate 4 0
  dieFailed : Vector Bool 4 := Vector.replicate 4 false
  /-- The last parity error of each bridge lane, with its device tick, and the lanes that have shown two in 1 µs (R367). -/
  parity : List (BridgeLane × Nat) := []
  worn : List BridgeLane := []
deriving DecidableEq, Repr

/-! ## Archive, Ledger and trouble records (chapter 16) -/

/-- A Ledger record (Table 16.4). -/
structure LedgerRec where
  seq : BitVec 64 := 0
  tick : BitVec 64 := 0
  almanac : BitVec 32 := 0
  accept : BitVec 32 := 0
  handle : BitVec 32 := 0
  label : BitVec 32 := 0
  opcode : BitVec 16 := 0
  kind : Nat := 0
  origin : Nat := 0
  unit : UnitId := .cua
  status : BitVec 16 := 0
  tag : BitVec 16 := 0
  die : Nat := 15
  cluster : Nat := 15
  element : Nat := 0
  number : Nat := 0
  slot : Nat := 0
  detail : BitVec 32 := 0
  old : BitVec 128 := 0
  new : BitVec 128 := 0
  oldval : Word := 0
  newval : Word := 0
  /-- The previous and the new value, for a change of one field of at most 64 bits that the model knows (W10, W11). -/
  vals : Option (Word × Word) := none
  chain : Nat := 0
deriving DecidableEq, Repr

/-- A checkpoint page (R390): the anchor record and the 31 records before it, newest first. -/
structure Checkpoint where
  anchor : LedgerRec
  before : List LedgerRec
deriving DecidableEq, Repr

/-- The Ledger. Records are held newest first. -/
structure Ledger where
  /-- SEQ of the next record. -/
  nextSeq : BitVec 64 := 1
  records : List LedgerRec := []
  /-- CHAIN of the newest record, the input of the next. -/
  chain : Nat := 0
  /-- CHAIN of the record before the oldest one held. -/
  baseChain : Nat := 0
  lastTroubleSet : BitVec 64 := 0
  /-- The trouble bits set in one tick, and that tick: a clear in the same tick leaves them set (R12, R393). -/
  setNow : Vector (BitVec 64) 16 := Vector.replicate 16 0
  setAt : Nat := 0
  checkpoints : List Checkpoint := []
  /-- The Ledger has resumed after start-up (R391). -/
  resumed : Bool := false
  /-- Records kept in the Curator's SRAM until then, newest first (R440). -/
  early : List LedgerRec := []
deriving DecidableEq, Repr

/-- Lifecycle states (Table 17.1). -/
inductive Lifecycle where
  | blank
  | provisioned
  | deployed
  | retired
deriving DecidableEq, Repr

/-- An SM2 public key. -/
structure PubKey where
  x : Nat := 0
  y : Nat := 0
deriving DecidableEq, Repr

/-- A store-image copy (R385): sequence number, whether its header and digest verify, and the parts. -/
structure StoreImage where
  seq : BitVec 32 := 0
  valid : Bool := false
  trims : Sparse (Option Word) := []
  profile : Words := []
  patches : List PatchImage := []
  lifecycle : Lifecycle := .blank
  purged : Bool := false
  owner : Option PubKey := none
  floor : BitVec 16 := 0
deriving DecidableEq, Repr

/-- STATE of the store (Table 16.3). -/
inductive StoreState where
  | idle
  | running
  | ended
  | aborted
deriving DecidableEq, Repr

/-- A boot-firmware slot or a half of the privileged area: release, COMPAT and the digest of its body (Table 17.4). -/
structure SignedImage where
  valid : Bool := false
  release : BitVec 16 := 0
  compat : BitVec 16 := 0
  digest : Nat := 0
deriving DecidableEq, Repr

/-- A thermal record (chapter 18): 64 bytes. -/
structure ThermalRec where
  words : Words := []
deriving DecidableEq, Repr

/-- The pages of the Archive (R381, R382). Physical pages are numbered in the order of Table 16.1 (DESIGN CHOICE): identity from 0, the
boot slots from 64, the privileged area from 1,088, store copies X and Y from 1,216 and 1,472, thermal records from 1,728, checkpoints
from 1,736, the spare pool from 2,760. The logical pages of the store copies and of the checkpoint ring bear the numbers of the physical
pages that they take at manufacture. -/
structure Pages where
  /-- The two copies of the remap table: the physical page of a logical page that has moved. -/
  remap : Sparse (Option Nat) := []
  remapCopy : Sparse (Option Nat) := []
  /-- The write count of each physical page. -/
  writes : Sparse Nat := []
  /-- The highest write count, and the pages that have passed 90 million. -/
  top : Nat := 0
  over90 : Nat := 0
  /-- Free pages that held a logical page before, as (write count, page), in ascending order; spare pages from `fresh` on were never
  used. -/
  freed : List (Nat × Nat) := []
  fresh : Nat := 2760
  /-- Pages retired after a failed verification. -/
  retired : List Nat := []
  /-- The page of the checkpoint ring that the next checkpoint takes. -/
  ring : Nat := 0
  /-- What the next verifications find (the model's own): true where the page fails; none stated passes. -/
  verify : List Bool := []
deriving DecidableEq, Repr

/-- The Archive (R381 to R387). -/
structure Archive where
  x : StoreImage := {}
  y : StoreImage := {}
  /-- The copy in force is Y (Table 16.3 IN_USE). -/
  useY : Bool := false
  /-- The staged profile, in words, and how many are staged. -/
  staged : Sparse Word := []
  stagedLen : Nat := 0
  st : StoreState := .idle
  /-- PARTS of the store that runs, and its snapshot. -/
  snapshot : Option (Nat × StoreImage) := none
  thermal : List ThermalRec := []
  /-- Boot slots A and B and the two halves of the privileged area. Manufacture leaves firmware in slot A and in the first
  half. -/
  slotA : SignedImage := { valid := true, release := 1, compat := 1 }
  slotB : SignedImage := {}
  privA : SignedImage := { valid := true, release := 1, compat := 1 }
  privB : SignedImage := {}
  /-- Content of Archive words that a D3 write has set, by word. -/
  raw : Sparse (Option Word) := []
deriving DecidableEq, Repr

/-! ## Security, debug and power states (chapter 17) -/

/-- The live challenge of DEBUG_UNLOCK (R405). -/
structure Challenge where
  value : BitVec 256
  handle : BitVec 32
  level : Nat
  issuedAt : Nat
deriving DecidableEq, Repr

/-- States of PATCH_LOAD's commit (Table 17.2). -/
inductive PatchState where
  | idle
  | running
  | ended
  | refused
deriving DecidableEq, Repr

/-- The debug access port (Tables 17.12, 17.13). -/
structure Dap where
  /-- Status, address and data of the last operation. -/
  status : Nat := 0
  addr : BitVec 48 := 0
  data : Word := 0
  busy : Bool := false
  /-- What the running operation will leave in status and data. -/
  nextStatus : Nat := 0
  nextData : Word := 0
  /-- The data register after Capture-DR. -/
  dr : BitVec 120 := 0
  /-- The submission slots of the debug queue area, by word. -/
  area : Sparse Word := []
  /-- What D3 writes have left in memories whose layout the manual does not give, by word of the raw map. -/
  raw : Sparse (Option Word) := []
deriving DecidableEq, Repr

/-- Lifecycle, keys, debug sessions, patches and measurements. -/
structure Security where
  lifecycle : Lifecycle := .blank
  purged : Bool := false
  owner : Option PubKey := none
  identity : Option PubKey := none
  floor : BitVec 16 := 0
  /-- An advance or a replacement of the owner key runs (Table 17.11 MOVING). -/
  moving : Bool := false
  challenge : Option Challenge := none
  fails : Nat := 0
  lockoutAt : Option Nat := none
  staging : Sparse Word := []
  stagedLen : Nat := 0
  patchSt : PatchState := .idle
  patchStatus : BitVec 16 := 0
  /-- Measurements M1 and M3 (R400, R403). -/
  m1 : BitVec 256 := 0
  m3 : BitVec 256 := 0
  configTick : BitVec 64 := 0
  configAt : Nat := 0
  /-- The key store's secrets are erased by the purge (R397). -/
  keysErased : Bool := false
deriving DecidableEq, Repr

/-- Power states (Table 17.7). -/
inductive Power where
  | run
  | hold
  | standby
  | dormant
deriving DecidableEq, Repr

/-- The power state and the step in progress (R408 to R410). -/
structure PowerCtl where
  st : Power := .run
  /-- The step in progress ends in this state. -/
  step : Option Power := none
  target : Power := .run
  abortMode : Bool := false
  timeout : Nat := 0
  timeoutAt : Option Nat := none
  lastTick : BitVec 64 := 0
  /-- Recorded command-mute states of parked outputs (R408): drive outputs 0–63, probe outputs 64–95. -/
  parked : Vector Bool 96 := Vector.replicate 96 true
deriving DecidableEq, Repr

/-! ## Host, chassis, start-up, rails (chapters 19 and 20) -/

/-- JTAG test instructions in force (R436). -/
inductive JtagTest where
  | none
  | extest
  | clamp
  | highz
deriving DecidableEq, Repr

/-- The test access port (R435, R436). -/
structure Jtag where
  ir : BitVec 8 := 0x01
  refused : Bool := false
  test : JtagTest := .none
  /-- The boundary-scan register as preloaded. -/
  preload : BitVec 64 := 0
  /-- The value that the selected data register captured last. -/
  dr : BitVec 120 := 0
deriving DecidableEq, Repr

/-- Host interface, chassis and start-up. -/
structure Boot where
  /-- Start-up phase code (Table 19.10). -/
  phase : Nat := 0
  resetCause : Nat := 0
  failCause : BitVec 16 := 0
  /-- Strap balls as the card wires them, and as latched at the last power-on or hard reset (R431). -/
  strapBalls : BitVec 6 := 0
  straps : BitVec 6 := 0
  linkUp : Bool := false
  perst : Bool := true
  d3hot : Vector Bool 9 := Vector.replicate 9 false
  vfEnable : Bool := false
  /-- Supplies: every rail within limits, and VIO above its power-on-reset threshold (R453). -/
  suppliesGood : Bool := true
  vioGood : Bool := true
  /-- The ramp of a hard reset runs (R438). -/
  hardRamp : Bool := false
  jtag : Jtag := {}
  /-- The last answer of the SMBus target, in bytes; empty where it was a NACK. -/
  smbus : List Nat := []
  /-- The last reset came in a shutdown at 95 °C or more: start-up holds before phase 5 (R424). -/
  hot : Bool := false
  meminit : Bool := false
  /-- Codeword addresses that hold the poison pattern (R447). -/
  poison : List Nat := []
  zqAt : Nat := 0
  /-- The temperature status that each channel's device returned last (mode register 4), which sets its refresh rate, and the
  tick of that read (R422). -/
  mr4 : Vector (BitVec 8) 8 := Vector.replicate 8 0
  mr4At : Nat := 0
  /-- Cores of which the full internal calibration after READY has ended (R357). -/
  calCores : Nat := 0
deriving DecidableEq, Repr

end Sys2Proof.Machine
end

