-- ==== Sys2Proof/Machine/StateSeq.lean ====
section
/-!
DEFINITION. Machine/StateSeq.lean: the state of the sequencers (chapter 3). The default of every field is its value
after power-on reset (R95). Ticks are tick-counter values unless a field says that they are device ticks.
-/
namespace Sys2Proof.Machine

/-- What a binding index names (Table 3.14): a drive slot, a probe slot or a demodulation slot, by its index in the bank
(8·o + s, 16·p + p, 16·l + r), or no slot. -/
inductive Binding where
  | none
  | drive (i : Fin 512)
  | probe (i : Fin 512)
  | demod (i : Fin 512)
deriving DecidableEq, Repr

/-- Start sources (R85): a source of Table 3.10, or IMMEDIATE. -/
inductive StartSrc where
  | source (n : Fin 52)
  | immediate
deriving DecidableEq, Repr

/-- States of a sequencer (Table 3.17). -/
inductive SeqMode where
  | idle
  | armed
  | running
  | failed
  | debugHalted
deriving DecidableEq, Repr

/-- The action of a cue (R67 to R70). -/
inductive CueAct where
  | play (bind : Nat) (folio : Nat) (rep : Bool)
  | setf (bind : Nat) (v : BitVec 48)
  | setp (bind : Nat) (v : BitVec 32)
  | frame (bind : Nat) (v : BitVec 32)
  | measure (bind : Nat) (len : Nat) (capt : Bool)
  | mark (tgt : Nat) (width : Nat)
  /-- The frame cue of a LOOKUP with APPLY = 1: what it adds to the frame offset of each binding (R78). -/
  | frames (l : List (Nat × BitVec 32))
deriving DecidableEq, Repr

/-- A cue in the cue queue (R69). -/
structure Cue where
  act : CueAct
  stamp : Nat
  sub : Nat
deriving DecidableEq, Repr

/-- A folio placed on a binding in the current shot (R79): its first DAC sample, its length in samples, and REP. -/
structure Placed where
  start : Nat
  len : Nat
  rep : Bool
deriving DecidableEq, Repr

/-- An open loop (R82). -/
structure LoopEnt where
  start : Nat
  stop : Nat
  left : Nat
  depth : Nat
deriving DecidableEq, Repr

/-- Why issue stalls (R64): a WAIT, a BRV of mode 0 or a LOOKUP that issued in `at_`, or the 24 ticks of a lookup after
its resolution in tick `res`. `word` is the instruction; `hit` the first tick with an event of an enabled source, and the
sources that had one in it. -/
inductive Stall where
  | none
  | wait (at_ : Nat) (word : Word) (mask : Word) (hit : Option (Nat × Word))
  | brv (at_ : Nat) (word : Word)
  | lookup (at_ : Nat) (word : Word)
  | lookupRun (res : Nat) (word : Word) (index : Nat) (bank1 old dflt taint : Bool)
deriving DecidableEq, Repr

/-- A verdict port (R66): the verdict it holds with its latch tick, and whether it discards the next one (R76). -/
structure Port where
  held : Option (Word × Nat) := none
  discard : Bool := false
deriving DecidableEq, Repr

/-- The set that a SEQ_ARM seals for a sequencer (R26). -/
structure SealedSet where
  binds : Vector Binding 8
  entry : Nat
  limit : Nat
  start : Option StartSrc
  shots : Nat
  maxlen : Nat
  /-- The acceptance number of the SEQ_ARM (R88). -/
  accept : BitVec 32
  /-- The set waits for its Almanac event (R26). -/
  waitAlm : Bool
deriving DecidableEq, Repr

/-- The END of a shot (R81, R86): its issue tick and LAST. -/
structure Ended where
  at_ : Nat
  last : Bool
deriving DecidableEq, Repr

/-- An abort in progress (Table 3.11): the abort tick, the code, whether it has cut the slots, and whether the sequencer is
armed again after it without a new SEQ_ARM (R91, R93). -/
structure Abort where
  at_ : Nat
  code : Nat
  cut : Bool
  rearm : Bool
deriving DecidableEq, Repr

/-- One sequencer (Tables 3.1 and 3.17). -/
structure Seq where
  g : Vector Word 32 := Vector.replicate 32 0
  snap : Vector Word 32 := Vector.replicate 32 0
  /-- G0–G31 at the last shot boundary (Table 3.17 W5–W36). -/
  gBound : Vector Word 32 := Vector.replicate 32 0
  pc : Nat := 0
  t : Word := 0
  sst : Word := 0
  f : BitVec 6 := 0
  lv : Word := 0
  calls : List Nat := []
  loops : List LoopEnt := []
  ports : Vector Port 16 := Vector.replicate 16 {}
  prog : Sparse Word := []
  entry : Nat := 0
  limit : Nat := 0
  mode : SeqMode := .idle
  start : Option StartSrc := none
  shadow : Vector Binding 8 := Vector.replicate 8 .none
  sealed_ : Option SealedSet := none
  active : Vector Binding 8 := Vector.replicate 8 .none
  shotsDone : BitVec 32 := 0
  /-- Shots left; `none` is unlimited. -/
  shotsLeft : Option Nat := some 0
  maxlen : Nat := 0
  cues : List Cue := []
  stall : Stall := .none
  /-- The device tick from which an armed sequencer waits for its start event (R85). -/
  armedAt : Nat := 0
  /-- It is armed again once its program word is rewritten (R93). -/
  rearmDue : Bool := false
  /-- The tick in which the next instruction issues at the earliest. -/
  nextIssue : Nat := 0
  ended : Option Ended := none
  /-- The last tick of the timed actions of the shot that have executed (R25). -/
  lastTick : Nat := 0
  /-- Per binding, the folio placed last and the placed folio that starts last (R79, R25). -/
  tails : Vector (Option Placed) 8 := Vector.replicate 8 none
  latest : Vector (Option Placed) 8 := Vector.replicate 8 none
  /-- The DAC sample before which END stops the repeating folio of a binding (R81). -/
  stops : Vector (Option Nat) 8 := Vector.replicate 8 none
  abort : Option Abort := none
  /-- A boundary-mode halt waits for the boundary: the acceptance number of the SEQ_HALT, or of the hold (R88, R373). -/
  haltWait : Option (BitVec 32) := none
  /-- The halt of a partition hold that waits for the shot boundary (R373). -/
  holdWait : Option (BitVec 32) := none
  /-- The acceptance number of the last halt that took effect (R88). -/
  lastHalt : BitVec 32 := 0
  /-- A debug halt waits for the boundary (R89). -/
  debugWait : Bool := false
  /-- A DEBUG-HALTED sequencer is in a shot that the debug port steps (R89). -/
  stepping : Bool := false
  /-- Restoring on the spare pair since a tick, and whether the sequencer is armed at its end (R91). -/
  restore : Option (Nat × Bool) := none
  onSpare : Bool := false
  /-- The pair of the logical sequencer is retired (R91, R94). -/
  retired : Bool := false
  missed : Nat := 0
  lateCues : Nat := 0
  lateVerdicts : Nat := 0
  overruns : Nat := 0
  lateFollows : Nat := 0
  fault : Nat := 0
  faultPc : Nat := 0
  lastSst : Word := 0
  /-- The device tick in which the present or last shot started, and those of the shots that ended Tainted: a verdict of an ended
  shot carries the flag too (R63). -/
  startAt : Nat := 0
  tainted : List Nat := []
  corrected : Nat := 0
  /-- Its bound slots are muted by a cue-lane parity error until the shot boundary (R17). -/
  parityMute : Bool := false
  /-- The device tick in which the sequencer's bank selector landed last: the event of source 51 (R73, R236). -/
  landedAt : Option Nat := none
  /-- Underruns of its stream windows (R146). -/
  underruns : Nat := 0
  /-- The last 64 program addresses issued, newest first (R404). -/
  trace : List Nat := []
deriving DecidableEq, Repr

/-- The sequencers with what they share: the spare pair of each cluster, and the device tick of the last event of each
source of Table 3.10. -/
structure Seqs where
  seq : Vector Seq 256 := Vector.replicate 256 {}
  /-- The logical sequencer that the spare pair of a cluster serves. -/
  spare : Vector (Option Nat) 8 := Vector.replicate 8 none
  events : Vector (Option Nat) 52 := Vector.replicate 52 none
deriving DecidableEq, Repr

end Sys2Proof.Machine
end

