-- ==== Sys2Proof/Machine/State.lean ====
section
/-!
DEFINITION. Machine/State.lean: the whole state of the QC512 as the manual gives it, the queue of waiting commands,
and the state after power-on reset.
-/
namespace Sys2Proof.Machine

/-- No event of the manual stops the QC512: every fault it names (chapter 15) is a change of state. No meaning answers
with a fault; the type has no constructor. Safe: nothing can be concluded from a fault. -/
inductive Fault where
deriving DecidableEq, Repr

/-- Why the model gives a command no meaning. -/
inductive Refusal where
  /-- Raised by `exec` for a command that the model has not reached. Safe: the machine stops where the device goes on. -/
  | notModelled (mnemonic : String)
deriving DecidableEq, Repr

/-- The state of the QC512. Every default is the value after power-on reset. -/
structure State where
  /-- The commands that wait, first in, first out. -/
  pending : List Instr := []
  ident : Identity := {}
  time : Timebase := {}
  host : HostIf := {}
  units : Units := {}
  desk : DeskState := {}
  parts : Parts := {}
  archive : Archive := {}
  pages : Pages := {}
  ledger : Ledger := {}
  /-- Trouble words 0 to 15 (Table 16.6). -/
  trouble : Vector Word 16 := Vector.replicate 16 0
  sec : Security := {}
  power : PowerCtl := {}
  boot : Boot := {}
  dap : Dap := {}
  seqs : Seqs := {}
  synth : Synth := {}
  wave : Wave := {}
  readout : Readout := {}
  est : Vector Est 32 := Vector.replicate 32 {}
  fabric : Fabric := {}
  conc : Conc := {}
  acq : Acq := {}
  bias : Bias := {}
  cal : Cal := {}
  thermal : Thermal := {}
  /-- Free values drawn so far (the model's own). -/
  free : Nat := 0
deriving DecidableEq, Repr

/-- The state right after power-on reset. -/
def State.reset : State := {}

end Sys2Proof.Machine
end

