-- ==== Sys2Proof/Machine/Ops.lean ====
section
/-!
DEFINITION. Machine/Ops.lean: the named operations over the state that every command shares: time, free values,
vectors, Ledger records, trouble bits, ownership.
-/
namespace Sys2Proof.Machine

open Host

/-- An outcome: the command has its effect. -/
abbrev Res := Outcome State Fault Refusal

/-! ## Time (chapter 2) -/

/-- By how much the Almanac advances over `k` ticks (R49): 1 ns per tick plus the accumulated slew fraction. -/
def Timebase.moved (t : Timebase) (k : Nat) : Int := (k : Int) + ((t.frac : Int) + k * t.eps) / 2 ^ 40

/-- The number of ticks after which the Almanac has advanced by at least `d` (R49, R55). -/
def Timebase.ticksFor (t : Timebase) (d : Int) : Nat := (iceil (d * 2 ^ 40 - t.frac) (2 ^ 40 + t.eps)).toNat

/-- The tick counter at device tick `n` (R39). -/
def Timebase.counterAt (t : Timebase) (n : Nat) : BitVec 64 :=
  if t.counting then BitVec.ofNat 64 (n - t.zeroAt) else 0

/-- The tick counter (R39). -/
def Timebase.counter (t : Timebase) : BitVec 64 := t.counterAt t.now

/-- The mark of the `j`-th passage of the second phase through zero from here (R50). -/
def Timebase.markAt (t : Timebase) (j : Nat) : MarkRec :=
  let k := t.ticksFor (1000000000 * ((j : Int) + 1) - t.secPhase)
  let a := t.moved k
  { now := t.now + k, tick := t.counterAt (t.now + k), almanac := t.almanac + BitVec.ofInt 32 a, travel := t.travel + a,
    frac := (((t.frac : Int) + k * t.eps) % 2 ^ 40).toNat }

/-- `k` ticks pass: the Almanac, the second phase and the accumulator advance (R48, R49), and every passage of the
second phase through zero leaves a mark to be served (R50), unless a backward step has seen that mark before. -/
def Timebase.advance (k : Nat) (t : Timebase) : Timebase :=
  let a := t.moved k
  let sum := (t.secPhase : Int) + a
  { t with
    now := t.now + k
    frac := (((t.frac : Int) + k * t.eps) % 2 ^ 40).toNat
    almanac := t.almanac + BitVec.ofInt 32 a
    secPhase := (sum % 1000000000).toNat
    travel := t.travel + a
    marksDue := t.marksDue ++ ((List.range (sum / 1000000000).toNat).drop t.skipMarks).map t.markAt
    skipMarks := t.skipMarks - (sum / 1000000000).toNat }

/-- `k` ticks pass. -/
def State.advance (k : Nat) (s : State) : State := { s with time := s.time.advance k }

/-- The clock runs forward to device tick `n`; a tick that is past leaves it where it is. -/
def State.runTo (n : Nat) (s : State) : State := s.advance (n - s.time.now)

/-- The device tick. -/
def State.now (s : State) : Nat := s.time.now

/-- The tick counter as replies and records carry it. -/
def State.tick (s : State) : BitVec 64 := s.time.counter

/-- The sample PLL is neither locked nor in holdover (R58). -/
def State.pllDown (s : State) : Bool := decide (s.time.pll = .unlocked)

/-! ## Free values -/

/-- Draw a 64-bit free value. -/
def State.drawWord (s : State) : Word × State := (Config.freeWord s.free, { s with free := s.free + 1 })

/-- Draw a 256-bit free value. -/
def State.draw256 (s : State) : BitVec 256 × State := (Config.free256 s.free, { s with free := s.free + 1 })

/-- Arm an Almanac-scheduled event with time T (R55): whether T has passed, and the state with the event armed. A passed
T fires in the next tick. -/
def State.armAlm (what : AlmWhat) (T : BitVec 32) (s : State) : Bool × State :=
  let t := s.time
  let passed := (t.almanac - T).toNat < 2 ^ 31
  let e : AlmEvent := { what := what, due := if passed then t.travel else t.travel + (T - t.almanac).toNat,
                        earliest := t.now + 1 }
  (passed, { s with time := { t with events := t.events ++ [e] } })

/-! ## Functions, vectors and messages (R288, R302, R311) -/

/-- The function of a source: 0 the physical function, 1 to 8 a virtual function, 9 the debug port, 15 internal. -/
def State.funcOf (s : State) : Source → Nat
  | .queue q => Sparse.get 0 s.host.queueFunc q.val
  | .debugPort => 9
  | .internal => 15

/-- The index of vector `v` of function `f` in the vector banks (R311). -/
def vecIndex (f v : Nat) : Nat := if f = 0 then v else 1024 + 128 * (f - 1) + v

/-- Raise vector `v` of function `f`: a masked vector sets its pending bit, another sends its message (R311). -/
def State.raiseFn (f v : Nat) (s : State) : State :=
  if atN s.host.msixMask (vecIndex f v) true then
    { s with host := { s.host with msixPend := updN s.host.msixPend (vecIndex f v) fun _ => true } }
  else { s with host := { s.host with messages := ⟨f, v⟩ :: s.host.messages } }

/-- A device-wide event raises its vector in the physical function (R311). -/
def State.raise (v : Nat) (s : State) : State := s.raiseFn 0 v

/-- Raise a vector in one virtual function; without VF Enable there is none (R428). -/
def State.raiseVf (f v : Nat) (s : State) : State := if s.boot.vfEnable then s.raiseFn f v else s

/-- An event of an element owned by a partition raises its vector in the physical function and in the partition's
virtual function (R311). -/
def State.raiseOwned (v : Nat) (owner : Fin 8) (s : State) : State := (s.raise v).raiseVf (owner.val + 1) v

/-- The mark and timebase vectors are raised in every function (R311). -/
def State.raiseEvery (v : Nat) (s : State) : State :=
  (List.range 8).foldl (fun s i => s.raiseVf (i + 1) v) (s.raise v)

/-- Raise a vector of the function that a command came from; the debug port and the device itself have none. -/
def State.raiseFor (src : Source) (v : Nat) (s : State) : State :=
  let f := s.funcOf src
  if f = 0 then s.raise v else if f < 9 then s.raiseVf f v else s

/-! ## The Ledger (chapter 16) -/

/-- The unit that holds the token; CUA while none does. -/
def State.unit (s : State) : UnitId := s.units.token.getD .cua

/-- The unit in a control unit's place. -/
def Units.get (u : Units) : UnitId → CtlUnit
  | .cua => u.a
  | .cub => u.b

/-- The unit that holds the token, as IDENTIFY codes it: 0 CUA, 1 CUB. -/
def State.activeUnit (s : State) : CtlUnit := s.units.get s.unit

/-- The other unit. -/
def otherUnit : UnitId → UnitId
  | .cua => .cub
  | .cub => .cua

/-- The unit that does not hold the token. -/
def State.spareUnit (s : State) : UnitId := otherUnit s.unit

/-- A STANDBY unit is present. -/
def State.standbyPresent (s : State) : Bool := s.units.token.isSome && decide ((s.units.get s.spareUnit).st = .standby)

/-- Send a journal record (R331). A STANDBY unit that is synchronized applies and acknowledges it. -/
def State.sendRec (r : JRec) (s : State) : State :=
  { s with desk := { s.desk with
    journal := (r :: s.desk.journal).take 512, sent := s.desk.sent + 1
    acked := if s.standbyPresent && (s.units.get s.spareUnit).synced then s.desk.sent + 1 else s.desk.acked } }

/-- Code of a unit in completions and records. -/
def unitCode : UnitId → Nat
  | .cua => 0
  | .cub => 1

/-- Words W0 to W11 of a Ledger record (Table 16.4). -/
def LedgerRec.words (r : LedgerRec) : Words :=
  [r.seq, r.tick, put 63 32 r.almanac.toNat ||| put 31 0 r.accept.toNat,
   put 63 32 r.handle.toNat ||| put 31 0 r.label.toNat,
   orAll [put 63 48 r.opcode.toNat, put 47 40 r.kind, put 39 36 r.origin, put 35 32 (unitCode r.unit),
     put 31 16 r.status.toNat, put 15 0 r.tag.toNat],
   orAll [put 63 60 r.die, put 59 56 r.cluster, put 55 52 r.element, put 51 36 r.number, put 35 32 r.slot,
     put 31 0 r.detail.toNat],
   r.old.setWidth 64, (r.old >>> 64).setWidth 64, r.new.setWidth 64, (r.new >>> 64).setWidth 64, r.oldval, r.newval]

/-- The sixteen words of a record as the Ledger ring holds them. -/
def LedgerRec.allWords (r : LedgerRec) : Words := r.words ++ words32 r.chain

/-- CHAIN of a record from the CHAIN before it (Table 16.4 W12–W15). -/
def chainOf (prev : Nat) (r : LedgerRec) : Nat := sm3 (beBytes 32 prev ++ wordsBytes r.words)

/-- A record with the tick, the Almanac and the active unit of the change. -/
def State.dated (s : State) (r : LedgerRec) : LedgerRec := { r with tick := s.tick, almanac := s.time.almanac, unit := s.unit }

/-- Append one dated record: sequence number, digests and chain are filled in (R389). The ring holds 2^20 records. -/
def State.appendDated (r : LedgerRec) (s : State) : State :=
  let r := { r with
    seq := s.ledger.nextSeq
    old := Config.free128 s.free, new := Config.free128 (s.free + 1)
    oldval := match r.vals with
      | some (a, _) => a
      | none => if r.kind = 1 then Config.freeWord (s.free + 2) else r.oldval
    newval := match r.vals with
      | some (_, b) => b
      | none => if r.kind = 1 then Config.freeWord (s.free + 3) else r.newval }
  let r := { r with chain := chainOf s.ledger.chain r }
  { s with
    free := s.free + 4
    ledger := { s.ledger with
      nextSeq := s.ledger.nextSeq + 1
      records := (r :: s.ledger.records).take (2 ^ 20)
      baseChain := match s.ledger.records.drop (2 ^ 20 - 1) with
        | [] => s.ledger.baseChain
        | o :: _ => o.chain
      chain := r.chain
      lastTroubleSet := if r.kind = 4 then r.seq else s.ledger.lastTroubleSet } }

/-- Append one record of a change now. -/
def State.appendRec (r : LedgerRec) (s : State) : State := s.appendDated (s.dated r)

/-! ## Pages of the Archive (R381, R382) -/

/-- Bit `b` of trouble word `w` is set in tick `n` (R12). -/
def Ledger.markSet (n : Nat) (w : Fin 16) (b : Nat) (l : Ledger) : Ledger :=
  let old := if l.setAt = n then l.setNow else Vector.replicate 16 0
  { l with setAt := n, setNow := upd old w fun x => x ||| put b b 1 }

/-- Spare pages that remain: the free ones. -/
def Pages.spares (p : Pages) : Nat := p.freed.length + (4096 - p.fresh)

/-- The physical page of a logical page. -/
def Pages.at_ (p : Pages) (n : Nat) : Nat := (Sparse.get none p.remap n).getD n

/-- One more write of a physical page. -/
def Pages.count (n : Nat) (p : Pages) : Pages :=
  let c := Sparse.get 0 p.writes n + 1
  { p with writes := Sparse.set 0 p.writes n c, top := max p.top c, over90 := if c = 90000001 then p.over90 + 1 else p.over90 }

/-- The free physical page with the lowest write count, the lowest number first among equals (DESIGN CHOICE). -/
def Pages.pick (p : Pages) : Option (Nat × Pages) :=
  match p.freed with
  | (c, n) :: l =>
    if c = 0 ∨ 4096 ≤ p.fresh then some (n, { p with freed := l }) else some (p.fresh, { p with fresh := p.fresh + 1 })
  | [] => if p.fresh < 4096 then some (p.fresh, { p with fresh := p.fresh + 1 }) else none

/-- A page is free, in its place by write count and number. -/
def freeIn (x : Nat × Nat) : List (Nat × Nat) → List (Nat × Nat)
  | [] => [x]
  | y :: l => if x.1 < y.1 ∨ (x.1 = y.1 ∧ x.2 < y.2) then x :: y :: l else y :: freeIn x l

/-- A logical page is written (R382): it moves to the free physical page with the lowest write count, which is verified; a page that fails
is retired, and the write is repeated on the next. With no free page left it is written in place (DESIGN CHOICE). -/
def Pages.write (n : Nat) : Nat → Pages → Pages
  | 0, p => p
  | k + 1, p =>
    match p.pick with
    | none => p.count (p.at_ n)
    | some (m, q) =>
      let q := q.count m
      match q.verify with
      | true :: l => Pages.write n k { q with verify := l, retired := m :: q.retired }
      | l =>
        let old := q.at_ n
        { q with
          verify := l.tail, remap := Sparse.set none q.remap n (some m), remapCopy := Sparse.set none q.remapCopy n (some m)
          freed := freeIn (Sparse.get 0 q.writes old, old) q.freed }

/-- Logical pages are written in order. -/
def Pages.writeAll (l : List Nat) (p : Pages) : Pages := l.foldl (fun p n => p.write n (p.verify.length + 1)) p

/-- The Archive has written pages. When a page passes 90 million writes, or fewer than 64 spare pages remain, ARCHIVE_WEAR is set, with its
kind-4 record (R382, R392). -/
def State.wrote (p : Pages) (s : State) : State :=
  let worn := decide (s.pages.over90 < p.over90 ∨ (64 ≤ s.pages.spares ∧ p.spares < 64))
  let was := bitAt s.trouble[0] 10
  let s := { s with pages := p }
  if !worn then s else
  let s := { s with trouble := upd s.trouble 0 fun x => x ||| put 10 10 1, ledger := s.ledger.markSet s.now 0 10 }
  let s := s.appendRec { kind := 4, origin := 3, handle := 0xF0000000#32, element := 14, number := 0, detail := 10 }
  if was then s else s.raise 0

/-- Pages that are not levelled are written (R382). -/
def State.wroteDirect (first n : Nat) (s : State) : State := s.wrote ((List.range n).foldl (fun p i => p.count (first + i)) s.pages)

/-- One checkpoint (R390): a page of the ring with the newest record as anchor and the 31 records before it; a kind-7 record; vector 14
(Table 12.8). -/
def State.checkpointOnce (s : State) : State :=
  match s.ledger.records with
  | [] => s
  | r :: l =>
    let s := { s with ledger := { s.ledger with
      checkpoints := List.take 1024 ((⟨r, l.take 31⟩ : Checkpoint) :: s.ledger.checkpoints) } }
    let p := s.pages.writeAll [1736 + s.pages.ring]
    let s := s.wrote { p with ring := (p.ring + 1) % 1024 }
    (s.appendRec { kind := 7, origin := 3, handle := 0xF0000000#32 }).raise 14

/-- Write a checkpoint (R390); one more follows when the SEQ of its own record is a multiple of 4,096. -/
def State.checkpoint (s : State) : State :=
  let t := s.checkpointOnce
  if s.ledger.records ≠ [] ∧ (t.ledger.nextSeq - 1).toNat % 4096 = 0 then t.checkpointOnce else t

/-- Write a dated Ledger record (R389). Before the Ledger resumes it is kept in the Curator's SRAM (R440); a record whose
SEQ is a multiple of 4,096 is followed by a checkpoint (R390). -/
def State.noteDated (r : LedgerRec) (s : State) : State :=
  if s.ledger.resumed then
    let q := s.ledger.nextSeq
    let s := s.appendDated r
    if q.toNat % 4096 = 0 then s.checkpoint else s
  else { s with ledger := { s.ledger with early := r :: s.ledger.early } }

/-- Write a Ledger record of this tick. -/
def State.note (r : LedgerRec) (s : State) : State := s.noteDated (s.dated r)

/-- SEQ of the newest record; 0 when none is written. -/
def State.lastSeq (s : State) : BitVec 64 := s.ledger.nextSeq - 1

/-- A record of a device event (kind 6) by the Curator. -/
def evRec (element number : Nat) (detail : BitVec 32 := 0) (die : Nat := 15) (cluster : Nat := 15) (slot : Nat := 0) :
    LedgerRec :=
  { kind := 6, origin := 3, handle := 0xF0000000#32, element := element, number := number, detail := detail, die := die,
    cluster := cluster, slot := slot }

/-- The record of a yield: G`keep` keeps, G`lose` yields (R378). Its DETAIL is the model's own code, log entry 214. -/
def yieldRec (keep lose : Nat) : LedgerRec := evRec 15 0 (BitVec.ofNat 32 (0x900 + 16 * keep + lose))
/-- The lower guarantee yields to the higher, and a record names both (R378). -/
def State.yields (keep lose : Nat) (s : State) : State := s.note (yieldRec keep lose)

/-! ## Trouble words (R392) -/

/-- The bits of trouble word `w` that the present tick has set: a clear in this tick leaves them set (R12). -/
def State.setThisTick (s : State) (w : Fin 16) : Word := if s.ledger.setAt = s.now then s.ledger.setNow[w.val] else 0

/-- Set bit `b` of trouble word `w`: the bit is set and stays set (R11), a kind-4 record names the word and the bit,
and a bit newly set raises vector 0 (Table 12.8). -/
def State.setTrouble (w : Fin 16) (b : Nat) (s : State) : State :=
  let was := bitAt s.trouble[w.val] b
  let s := { s with trouble := upd s.trouble w fun x => x ||| put b b 1, ledger := s.ledger.markSet s.now w b }
  let s := s.note { kind := 4, origin := 3, handle := 0xF0000000#32, element := 14, number := w.val,
                    detail := BitVec.ofNat 32 b }
  if was then s else s.raise 0

/-- Set a trouble bit of an element that a partition owns: vector 0 is raised in its virtual function as well. -/
def State.troubleOwned (w : Fin 16) (b : Nat) (owner : Fin 8) (s : State) : State :=
  let was := bitAt s.trouble[w.val] b
  let s := s.setTrouble w b
  if was then s else s.raiseVf (owner.val + 1) 0

/-- A read meets an uncorrectable or poisoned codeword of channel `c` (R447): DRAM_ECC bit c, a record that carries the address,
and vector 0. -/
def State.dramFault (c : Fin 8) (addr : BitVec 32) (s : State) : State :=
  ((s.setTrouble 2 c.val).note (evRec 15 c.val addr)).raise 0

/-! ## Elements, clusters and dies (R2, R3, R31) -/

/-- The number of clusters the tier enables (Table 1.6). -/
def Tier.clusters : Tier → Nat
  | .k8 => 8
  | .k4 => 4
  | .k2 => 2

/-- Code of the tier in IDENTIFY (Table 12.7). -/
def Tier.code : Tier → Nat
  | .k8 => 0
  | .k4 => 1
  | .k2 => 2

/-- Cluster `k` is enabled (R31). -/
def State.hasCluster (s : State) (k : Nat) : Bool := k < s.ident.tier.clusters

/-- Converter die `d` is enabled (Table 1.6). -/
def State.hasDie (s : State) (d : Nat) : Bool := 2 * d < s.ident.tier.clusters

/-- Memory-share units that remain after the device reserve (R375). -/
def Identity.units (i : Identity) : Nat := if i.gibPerChannel = 4 then 464 else if i.gibPerChannel = 2 then 224 else 104

/-! ## Records of an element -/

/-- A record of a sequencer's event. -/
def seqRec (q : Nat) (detail : BitVec 32 := 0) : LedgerRec := evRec 6 q detail 4 (q / 32)

end Sys2Proof.Machine
end

