-- ==== Sys2Proof/Machine/Desk.lean ====
section
/-!
DEFINITION. Machine/Desk.lean: how the Desk runs one command packet (R299 to R309): the checks in their order, the
acceptance number, holding, the effect, the Ledger record, the completion entry with its reply, and the vectors.
-/
namespace Sys2Proof.Machine

open Host

/-! ## Queue descriptors (Table 12.1) -/

/-- SQ_LOG. -/
def Queue.sqLog (q : Queue) : Nat := fld q.d2 63 60
/-- CQ_LOG. -/
def Queue.cqLog (q : Queue) : Nat := fld q.d2 59 56
/-- VECTOR. -/
def Queue.vector (q : Queue) : Nat := fld q.d2 55 45
/-- IEN. -/
def Queue.ien (q : Queue) : Bool := bitAt q.d2 44
/-- COAL. -/
def Queue.coal (q : Queue) : Nat := fld q.d2 43 40
/-- ENABLE. -/
def Queue.enable (q : Queue) : Bool := bitAt q.d2 39
/-- The descriptor with its ENABLE bit set or cleared. -/
def Queue.setEnable (b : Bool) (q : Queue) : Queue :=
  { q with d2 := (q.d2 &&& ~~~(put 39 39 1)) ||| putB 39 b }

/-- The debug port's queue pair has rings of 16 slots (R301, Table 17.13). -/
def State.queue (s : State) : Source → Queue
  | .queue q => Sparse.get {} s.host.queues q.val
  | .debugPort => s.host.debugQueue
  | .internal => {}

/-- Change the queue pair of a source. -/
def State.modQueue (src : Source) (f : Queue → Queue) (s : State) : State :=
  match src with
  | .queue q => { s with host := { s.host with queues := Sparse.set {} s.host.queues q.val (f (s.queue src)) } }
  | .debugPort => { s with host := { s.host with debugQueue := f s.host.debugQueue } }
  | .internal => s

/-- A record about a queue. -/
def queueRec (src : Source) (detail : BitVec 32) : LedgerRec :=
  match src with
  | .queue q => evRec 9 q.val detail
  | _ => evRec 9 0xFFFF detail

/-- Code of QSTATE (Table 12.1). -/
def QState.code : QState → Nat
  | .disabled => 0
  | .enabled => 1
  | .draining => 2
  | .broken => 3

/-- Change QSTATE: every change writes a Ledger record (R290) and is journaled (R331). -/
def State.setQState (src : Source) (st : QState) (s : State) : State :=
  if (s.queue src).qstate = st then s else
  ((s.modQueue src fun q => { q with qstate := st }).note (queueRec src (BitVec.ofNat 32 st.code))).sendRec (.queue src)

/-- A queue becomes BROKEN (R292): ENABLE is cleared, the queue-broken trouble bit is set, a Ledger record is written and
the function's command-event vector raised. -/
def State.breakQueue (src : Source) (code : Nat) (s : State) : State :=
  let s := s.modQueue src fun q => { q.setEnable false with brk := BitVec.ofNat 6 code }
  ((s.setQState src .broken).setTrouble 1 4).raiseFor src 12

/-! ## Packets (R293, Table 12.3) -/

/-- SLOTS of a packet with `n` payload words. -/
def slotsOf (n : Nat) : Nat := (2 + n + 7) / 8

/-- Header word 0 of a packet (Table 12.3). -/
def pktW0 (opcode : Nat) (p : Packet) : Word :=
  orAll [put 63 48 opcode, put 47 46 (p.rsv.toNat >>> 4), putB 45 p.check, putB 44 p.barrier, putB 43 p.fence,
    put 42 40 ((p.payload.length + 1) % 8), put 39 36 p.partition.toNat, put 35 32 p.rsv.toNat,
    put 31 16 (slotsOf p.payload.length), put 15 0 p.tag.toNat]

/-- The whole packet as words, with a given CRC field. -/
def pktWords (opcode : Nat) (crc : BitVec 32) (p : Packet) : Words :=
  pktW0 opcode p :: (put 63 32 p.handle.toNat ||| put 31 0 crc.toNat) :: p.payload

/-- The CRC that the packet should carry: CRC-32C over its L bytes with the CRC field taken as zero (Table 12.3). -/
def pktCrc (opcode : Nat) (p : Packet) : BitVec 32 := crcWords (pktWords opcode 0 p)

/-- The packet with a correct CRC. -/
def pktSeal (opcode : Nat) (p : Packet) : Packet := { p with crc := pktCrc opcode p }

/-! ## Completions (R296 to R298) -/

/-- DETAIL of a completion to which no record applies (R298). -/
def noRecord : Nat := 0xFFFF

/-- The eight words of a completion entry (Table 12.4). -/
def Completion.words (c : Completion) : Words :=
  let e0 := orAll [put 63 48 c.status.toNat, put 47 32 c.detail.toNat, put 31 16 c.rslots.toNat, put 15 0 c.tag.toNat]
  let e3 := orAll [putB 63 c.phase, putB 62 c.slow, put 61 60 (unitCode c.unit), put 59 48 c.sqHead.toNat,
    put 47 32 c.opcode.toNat, put 31 0 c.accept.toNat]
  let l := [e0, c.tick, c.ledgerSeq, e3, put 63 32 c.handle.toNat, 0, 0]
  l ++ [put 31 0 (crcWords (l ++ [0])).toNat]

/-- The reply packet that follows a completion entry (R297); nothing where the command returns none. -/
def Completion.replyPacket (c : Completion) : Option Words :=
  c.reply.map fun r =>
    let p : Packet := { source := c.source, partition := c.partition, tag := c.tag, handle := c.handle, payload := r }
    pktWords c.opcode.toNat (pktCrc c.opcode.toNat p) p

/-- Slots of a reply: its packet's SLOTS, 0 without a reply (Table 12.4 RSLOTS). -/
def replySlots : Option Words → Nat
  | none => 0
  | some r => slotsOf r.length

/-- What the Desk knows of a command when it posts its completion. -/
structure Post where
  src : Source
  opcode : Nat
  tag : BitVec 16
  handle : BitVec 32
  partition : BitVec 4
  accept : BitVec 32
  sqHead : BitVec 12
  /-- Device tick from which the response bound runs, and the bound in ticks. -/
  since : Nat
  bound : Nat := 1000000
  status : Nat
  detail : Nat
  reply : Option Words := none
  tick : BitVec 64
  ledgerSeq : BitVec 64 := 0
  /-- Its function was reset after the acceptance (R303). -/
  silent : Bool := false
  /-- The write meets a PCIe error (R292). -/
  ringFault : Bool := false

/-- A completion later than its bound counts as slow, and sets the command-latency trouble bit and writes a record, of the yield of
G6 to G5 (Table 15.2), unless another did so less than 10^9 ticks before (R308). -/
def State.slowReport (slow : Bool) (s : State) : State :=
  if !slow then s else
  let s := { s with host := { s.host with slowCount := s.host.slowCount + 1 } }
  let due := match s.host.lastSlow with
    | none => true
    | some t => decide (1000000000 ≤ s.now - t)
  if due then
    (({ s with host := { s.host with lastSlow := some s.now } }).setTrouble 1 6).yields 5 6
  else s

/-- The journal marks a packet completed: it leaves the mirror buffer (R330). -/
def State.mirrorDone (src : Source) (sqHead : BitVec 12) (tag : BitVec 16) (s : State) : State :=
  { s with desk := { s.desk with
    mirror := s.desk.mirror.filter fun f => !(f.packet.source == src && f.sqHead == sqHead && f.packet.tag == tag) } }

/-- Signal of a completion under IEN and COAL (R312). -/
def State.signal (src : Source) (s : State) : State :=
  let q := s.queue src
  if !q.ien then s else
  let n := q.unsignaled + 1
  if 2 ^ q.coal ≤ n then
    (s.modQueue src fun q => { q with unsignaled := 0, firstUnsignaled := none }).raiseFor src q.vector
  else s.modQueue src fun q => { q with unsignaled := n, firstUnsignaled := some (q.firstUnsignaled.getD s.now) }

/-- Post a completion entry and its reply (R296, R297): the entry takes slot CQ_TAIL, the reply the slots after it;
PHASE inverts on each wrap; REFUSED counts classes 0x01xx and 0x02xx (R300). An internal origin has no completion ring;
neither has a queue that a reset has disabled (R303). A PCIe error breaks the queue, and nothing is posted (R292). The POSTED mark
follows (R320), and the packet leaves the mirror buffer (R330). -/
def State.post (c : Post) (s : State) : State :=
  let q := s.queue c.src
  let s := s.mirrorDone c.src c.sqHead c.tag
  if c.src = .internal ∨ c.silent ∨ q.qstate = .disabled then s
  else if c.ringFault ∧ c.src ≠ .debugPort then s.breakQueue c.src 4
  else
  let n := 1 + replySlots c.reply
  let slow := decide (c.since + c.bound < s.now)
  let e : Completion := {
    source := c.src, slot := q.cqTail, status := BitVec.ofNat 16 c.status, detail := BitVec.ofNat 16 c.detail,
    rslots := BitVec.ofNat 16 (replySlots c.reply), tag := c.tag, tick := c.tick, ledgerSeq := c.ledgerSeq,
    phase := q.phase, slow := slow, unit := s.unit, sqHead := c.sqHead, opcode := BitVec.ofNat 16 c.opcode,
    accept := c.accept, handle := c.handle, partition := c.partition, reply := c.reply }
  let after := q.cqTail.toNat + n
  let cls := c.status / 256
  let s := { s with host := { s.host with posted := e :: s.host.posted } }
  let s := s.modQueue c.src fun q => { q with
    cqTail := BitVec.ofNat 12 (after % 2 ^ q.cqLog)
    cqUsed := q.cqUsed + n
    phase := if 2 ^ q.cqLog ≤ after then !q.phase else q.phase
    refused := if cls = 1 ∨ cls = 2 then BitVec.ofNat 16 (satAdd 16 q.refused.toNat 1) else q.refused }
  ((s.slowReport slow).signal c.src).sendRec (.posted c.accept)

/-! ## Commands -/

/-- A refusal: STATUS and DETAIL (Table 12.5). -/
structure Refused where
  status : Nat
  detail : Nat := 0xFFFF
deriving DecidableEq, Repr

/-- An item that a command may have to wait on (R307): the DETAIL it would complete with, and whether the cause of the
hold is in force. -/
structure Wait where
  item : Item
  detail : Nat := 1
  busy : Bool
deriving DecidableEq, Repr

/-- What a command's routine commits (R319, R320). -/
structure Effect where
  st : State
  status : Nat := 0
  detail : Nat := noRecord
  reply : Option Words := none
  /-- The apply tick, where the command has one (Table 12.4 TICK). -/
  tick : Option (BitVec 64) := none
  /-- The command changed configuration or state, so one kind-1 record is written (R296, R389). -/
  changed : Bool := true
  /-- The element fields of that record. -/
  about : LedgerRec := {}
  /-- LEDGER_SEQ of a command that wrote its records itself. -/
  seq : Option (BitVec 64) := none
  /-- A long command (R309): it completes with 0x0001, DETAIL 2, and runs on. -/
  long : Bool := false
  /-- The completion is posted by a later event (R309, kind X). -/
  later : Bool := false
  /-- Words kept with a command that runs on. -/
  data : Words := []
  /-- Ticks added to the response bound (R309). -/
  bound : Nat := 0

/-- One opcode of Table 12.6. -/
structure Command where
  opcode : Nat
  /-- Origins allowed: physical function, virtual functions, internal, and the lowest debug level. -/
  pf : Bool
  vf : Bool
  int : Bool
  dbg : Option Nat
  /-- Step 6 of R299: length, reserved fields, ranges, locators. -/
  fmt : State → Packet → Option Refused
  /-- Payload words of the largest reply (R295). -/
  maxReply : Packet → Nat
  /-- Step 7 of R299: the checks of the command's chapter. -/
  chk : State → Packet → Option Refused
  /-- The items the command may have to wait on (R307). -/
  waits : State → Packet → List Wait
  /-- Its effect. -/
  eff : State → Packet → Effect

/-- The first refusal of several checks, in order. -/
def firstRef : List (Option Refused) → Option Refused
  | [] => none
  | some r :: _ => some r
  | none :: l => firstRef l

/-- A refusal unless the condition holds. -/
def need (c : Bool) (status : Nat) (detail : Nat := noRecord) : Option Refused :=
  if c then none else some ⟨status, detail⟩

/-- Payload length (0x0104): DETAIL is the first word past the shorter of the stated and the received length. -/
def needLen (p : Packet) (n : Nat) : Option Refused :=
  need (p.payload.length = n) 0x0104 (2 + min n p.payload.length)

/-- Reserved bits of payload word `i` (0x0105). -/
def needZero (p : Packet) (i : Nat) (mask : Word) : Option Refused := need ((wordAt p.payload i &&& mask) = 0) 0x0105 (2 + i)

/-- A value of payload word `i` in range (0x0106). -/
def needOk (i : Nat) (c : Bool) : Option Refused := need c 0x0106 (2 + i)

/-- The mask of bits `[hi:lo]`. -/
def mask (hi lo : Nat) : Word := put hi lo (2 ^ 64 - 1)

/-! ## Origins and sessions (R301, R302) -/

/-- Code of the origin in Ledger records (Table 16.4 ORIGIN). -/
def State.originCode (s : State) (src : Source) : Nat :=
  let f := s.funcOf src
  if f = 0 then 0 else if f < 9 then 1 else if f = 9 then 2 else 3

/-- The open session that a handle names. -/
def State.session (s : State) (h : BitVec 32) : Option Session :=
  s.host.sessions.find? fun x => x.func == h.toNat / 2 ^ 28 && x.serial == h.toNat % 2 ^ 28

/-- The session of a handle: the open one, else the last that closed (R303). -/
def State.sessionOf (s : State) (h : BitVec 32) : Option Session :=
  (s.host.sessions ++ s.host.closed).find? fun x => x.func == h.toNat / 2 ^ 28 && x.serial == h.toNat % 2 ^ 28

/-- The label of a handle's session, 0 without one. -/
def State.label (s : State) (h : BitVec 32) : BitVec 32 :=
  match s.sessionOf h with
  | some x => x.label
  | none => 0

/-- Step 3 of R299: the handle is open and owned by the queue's function; SESSION_OPEN carries handle 0. -/
def State.handleOk (s : State) (opcode : Nat) (p : Packet) : Bool :=
  if p.source = .internal then true
  else if opcode = 0x0101 then decide (p.handle = 0)
  else match s.session p.handle with
    | some x => decide (x.func = s.funcOf p.source)
    | none => false

/-- The debug level of a packet's session, after its close too (R303). -/
def State.levelOf (s : State) (p : Packet) : Nat :=
  match s.sessionOf p.handle with
  | some x => x.level
  | none => 0

/-- Opcodes that execute in RETIRED (R397). -/
def retiredOk : List Nat :=
  [0x0101, 0x0102, 0x0103, 0x0104, 0x0204, 0x0D02, 0x0D03, 0x0D04, 0x0E01, 0x0E02, 0x0E04, 0x0F01, 0x1004]

/-- The lifecycle state forbids the opcode (R395, R397). -/
def State.lifecycleBars (s : State) (opcode : Nat) : Bool :=
  match s.sec.lifecycle with
  | .blank => opcode == 0x0E01
  | .retired => !retiredOk.contains opcode || (s.sec.purged && opcode == 0x0E01)
  | _ => false

/-- Steps 1 to 5 of R299 for a known opcode. -/
def Command.front (c : Command) (f : Fetched) (s : State) : Option Refused :=
  let p := f.packet
  let fn := s.funcOf p.source
  firstRef [
    need (p.source = .internal || p.crc = pktCrc c.opcode p) 0x0101 1,
    need (p.rsv = 0 && p.partition.toNat < 8 && !(p.check && c.opcode == 0x0104)) 0x0103 0,
    need (f.handleOk || s.handleOk c.opcode p) 0x0201,
    need (if fn = 0 then c.pf else if fn < 9 then c.vf else if fn = 9 then c.dbg.isSome else c.int) 0x0202,
    need (fn != 9 || c.dbg.getD 0 ≤ s.levelOf p) 0x0205,
    need (!s.lifecycleBars c.opcode) 0x0206,
    need (fn = 0 || 9 ≤ fn || p.partition.toNat + 1 == fn) 0x0203]

/-- The element's owner is the origin's partition (R301): the physical function and the debug port name it in PARTITION,
a virtual function has its own, and an internal origin acts for the element's partition. -/
def pktOwns (p : Packet) (owner : Fin 8) : Bool :=
  p.source == .internal || owner.val == p.partition.toNat

/-! ## Running a packet -/

/-- The record of a command (Table 16.4): origin, handle, label, opcode, tag, acceptance number. -/
def State.cmdRec (s : State) (kind opcode : Nat) (p : Packet) (accept : BitVec 32) (status : Nat) (r : LedgerRec) :
    LedgerRec :=
  { r with
    kind := kind, opcode := BitVec.ofNat 16 opcode, tag := p.tag, accept := accept
    handle := if p.source = .internal then 0xF0000000#32 else p.handle
    label := if status = 0x0201 ∧ (s.session p.handle).isNone then 0 else s.label p.handle, origin := s.originCode p.source, status := BitVec.ofNat 16 status }

/-- The completion of a command in its present state. -/
def Fetched.toPost (f : Fetched) (accept : BitVec 32) (status detail : Nat) (tick : BitVec 64) : Post :=
  { src := f.packet.source, opcode := f.opcode.toNat, tag := f.packet.tag, handle := f.packet.handle,
    partition := f.packet.partition, accept := accept, sqHead := f.sqHead, since := f.at_, status := status,
    detail := detail, tick := tick, silent := f.silent, ringFault := f.ringFault }

/-- The journal records of a commit up to its posting: COMMIT, then the FLUSHED mark (R320). -/
def State.journalCommit (accept : BitVec 32) (seq : BitVec 64) (status detail : Nat) (reply : Option Words) (s : State) : State :=
  (s.sendRec (.commit accept seq status detail reply)).sendRec (.flushed accept)

/-- A refusal: a record of class 0x02xx (R300), and of every refusal of DEBUG_UNLOCK past step 6 (R405), and the completion. -/
def State.refuse (f : Fetched) (accept : BitVec 32) (r : Refused) (s : State) : State :=
  let s := if r.status / 256 = 2 ∨ (f.opcode = 0x0E02 ∧ 2 ≤ r.status / 256) then
    s.note (s.cmdRec 2 f.opcode.toNat f.packet accept r.status {}) else s
  (s.journalCommit accept 0 r.status r.detail none).post (f.toPost accept r.status r.detail s.tick)

/-- The items a command must wait on now: those whose cause is in force, and those whose hold list is not empty
(R307). -/
def State.mustWait (s : State) (l : List Wait) : List Wait :=
  l.filter fun w => w.busy || s.host.held.any fun h => h.items.contains w.item

/-- Hold a command (R307): it joins the hold lists of its items and completes with 0x0001. -/
def State.holdCmd (f : Fetched) (accept : BitVec 32) (l : List Wait) (s : State) : State :=
  let h : Held := { items := l.map (·.item), opcode := f.opcode, packet := f.packet, accept := accept,
                    sqHead := f.sqHead, since := s.now }
  let s := ({ s with host := { s.host with held := s.host.held ++ [h] } } : State).sendRec .holds
  let detail := (l.head?.map (·.detail)).getD 1
  (s.journalCommit accept 0 1 detail none).post (f.toPost accept 0x0001 detail s.tick)

/-- Event vectors are raised after the posting (R320): of the messages that follow the first `n`, those up to `m` are the staged
ones, and are sent last. -/
def State.vectorsLast (n m : Nat) (s : State) : State :=
  let l := s.host.messages
  let rest := l.drop (l.length - m)
  { s with host := { s.host with messages := rest.take (m - n) ++ l.take (l.length - m) ++ rest.drop (m - n) } }

/-- Commit what a command staged in state `s0` (R320): the change, one Ledger record where it changed something, the completion, and
last the event vectors. -/
def State.commit (s0 : State) (f : Fetched) (accept : BitVec 32) (e : Effect) : State :=
  let s := e.st
  let s := if e.changed then
    s.note (s.cmdRec 1 f.opcode.toNat f.packet accept (if e.long then 1 else e.status) e.about) else s
  let seq := e.seq.getD (if e.changed then s.lastSeq else 0)
  let o : OpenCmd := { opcode := f.opcode, packet := f.packet, accept := accept, sqHead := f.sqHead,
                       since := f.at_, long := e.long, silent := f.silent, data := e.data, seq := seq }
  let s := if e.long || e.later then { s with host := { s.host with open_ := s.host.open_ ++ [o] } } else s
  let status := if e.long then 0x0001 else e.status
  let detail := if e.long then 2 else e.detail
  let reply := if e.long then none else e.reply
  let s := s.journalCommit accept seq status detail reply
  let s := if e.later then s else
    s.post { f.toPost accept status detail (e.tick.getD s.tick) with reply := reply, ledgerSeq := seq, bound := 1000000 + e.bound }
  s.vectorsLast s0.host.messages.length e.st.host.messages.length

/-- Steps 6 and 7 of R299. -/
def Command.check (c : Command) (s : State) (p : Packet) : Option Refused :=
  match c.fmt s p with
  | some r => some r
  | none =>
    if p.source ≠ .internal ∧ 2 ^ (s.queue p.source).cqLog ≤ (if c.maxReply p = 0 then 0 else slotsOf (c.maxReply p)) then
      some ⟨0x0108, 0⟩
    else c.chk s p

/-- The command takes the next acceptance number (R305), and its ACCEPT record is journaled (R331). -/
def State.accepted (p : Packet) (s : State) : State :=
  ({ s with host := { s.host with accept := s.host.accept + 1 } } : State).sendRec (.accept (s.host.accept + 1) p.source p.tag)

/-- A packet with CHECK = 1 that passes every check: it completes with 0x0000 and what the command would reply (R297), and makes no
change (R299). -/
def State.checked (f : Fetched) (accept : BitVec 32) (e : Effect) (s : State) : State :=
  let reply := if e.long || e.later then none else e.reply
  let t := { s with free := e.st.free }
  (t.journalCommit accept 0 0 noRecord reply).post { f.toPost accept 0 noRecord s.tick with reply := reply }

/-- An accepted command with its number: steps 6 and 7 of R299, holding, and the effect. CHECK = 1 stops after the checks. -/
def Command.body (c : Command) (f : Fetched) (accept : BitVec 32) (s : State) : State :=
  match c.check s f.packet with
  | some r => s.refuse f accept r
  | none =>
    if f.packet.check then s.checked f accept (c.eff s f.packet) else
    let l := s.mustWait (c.waits s f.packet)
    if l ≠ [] then s.holdCmd f accept l else s.commit f accept (c.eff s f.packet)

/-- The Desk serves queues: a unit holds the token and has no hand-over pending (R322), the device is READY, and no switch-over or hard-reset ramp is in
progress (R335, R336, R438, R440). Internal commands run from start-up on, and the debug port is answered where start-up has
failed (R443). -/
def State.deskUp (s : State) (src : Source) : Bool :=
  s.units.token.isSome && !s.activeUnit.released && !s.units.switching && !s.boot.hardRamp
    && (src == .internal || (s.boot.phase == 8 && decide (s.power.st ≠ .dormant)) || (src == .debugPort && s.boot.phase == 15))

/-- A command of the same queue has not completed, or one before it waits (R306). The device's own commands have no queue. -/
def State.queueBusy (s : State) (src : Source) : Bool :=
  src != .internal && (s.host.open_.any (fun o => !o.long && !o.silent && o.packet.source == src)
    || s.host.waiting.any fun w => w.packet.source == src)

/-- A command of the origin's partition has not completed and executed (R306). The physical function's barrier covers every queue; that of
the debug port covers the queues of the partition that PARTITION names as well. -/
def State.barred (s : State) (p : Packet) : Bool :=
  let f := s.funcOf p.source
  let same (src : Source) : Bool := f == 0 || s.funcOf src == f || (f == 9 && s.funcOf src == p.partition.toNat + 1)
  s.host.open_.any (fun o => !o.long && same o.packet.source) || s.host.held.any fun h => same h.packet.source

/-- FENCE or BARRIER keeps the packet waiting (R306). -/
def State.flagged (s : State) (p : Packet) : Bool :=
  (p.fence && (s.host.held.any (fun h => h.packet.source == p.source) ||
      s.host.open_.any fun o => !o.long && !o.silent && o.packet.source == p.source))
    || (p.barrier && s.barred p)

/-- No command of the packet's queue is open, and its flags let the Desk begin it (R306). -/
def State.mayBegin (s : State) (p : Packet) : Bool :=
  !(p.source != .internal && s.host.open_.any fun o => !o.long && !o.silent && o.packet.source == p.source) && !s.flagged p

/-- The packet as fetched: the entry of the packet buffer where it is there. -/
def State.fetchedAs (s : State) (opcode : Nat) (p : Packet) : Fetched :=
  match s.host.fetched.find? fun f => f.opcode == BitVec.ofNat 16 opcode && f.packet == p && !f.silent && !f.ringFault with
  | some f => f
  | none => { opcode := BitVec.ofNat 16 opcode, packet := p, sqHead := (s.queue p.source).sqHead, at_ := s.now,
              handleOk := false }

/-- An earlier packet of the same queue stands in the packet buffer (R306). -/
def State.behind (s : State) (f : Fetched) : Bool :=
  match s.host.fetched.find? fun x => x.packet.source == f.packet.source with
  | some x => f.packet.source != .internal && x != f
  | none => false

/-- The packet whose routine is in progress (R322). -/
def State.running (s : State) : Option Fetched :=
  match s.desk.cur with
  | some { job := .packet f, .. } => some f
  | _ => none

/-- A packet enters the packet buffer, and the mirror buffer of the other unit (R330). -/
def State.enter_ (f : Fetched) (s : State) : State :=
  { s with host := { s.host with fetched := s.host.fetched ++ [f] }, desk := { s.desk with mirror := s.desk.mirror ++ [f] } }

/-- The packet buffer without a packet that the Desk has taken. -/
def State.takeOut (f : Fetched) (s : State) : State :=
  { s with host := { s.host with fetched := s.host.fetched.erase f } }

/-- A packet that FENCE or BARRIER keeps starts to wait (R306). -/
def State.parkPacket (f : Fetched) (s : State) : State :=
  let s := s.takeOut f
  { s with host := { s.host with waiting := s.host.waiting ++ [{ f with parked := some s.now }] } }

/-- A waiting packet is taken up: the time for which its flags kept it does not count (R308). -/
def State.unparkPacket (f : Fetched) (s : State) : Fetched × State :=
  ({ f with at_ := f.at_ + (s.now - f.parked.getD s.now), parked := none },
   { s with host := { s.host with waiting := s.host.waiting.erase f } })

/-- The completion of a command that an event ends (R309), with its record where it changed something. -/
def State.finish (o : OpenCmd) (status : Nat) (reply : Option Words) (tick : BitVec 64) (seq : BitVec 64)
    (bound : Nat) (s : State) (detail : Nat := noRecord) : State :=
  let s := { s with host := { s.host with open_ := s.host.open_.erase o } }
  (s.journalCommit o.accept seq status detail reply).post {
    src := o.packet.source, opcode := o.opcode.toNat, tag := o.packet.tag, handle := o.packet.handle
    partition := o.packet.partition, accept := o.accept, sqHead := o.sqHead, since := o.since, bound := 1000000 + bound
    status := status, detail := detail, reply := reply, tick := tick, ledgerSeq := seq, silent := o.silent }

/-- The end of a long command (R309): a record with its tag and acceptance number, the function's command-event vector,
and the event vector of its class, in the partition's virtual function too unless Table 12.8 keeps it to the physical function (R311). -/
def State.endLong (o : OpenCmd) (status : Nat) (cls : Nat) (rec : LedgerRec) (s : State) : State :=
  let s := { s with host := { s.host with open_ := s.host.open_.erase o } }
  let s := s.note (s.cmdRec 1 o.opcode.toNat o.packet o.accept status rec)
  let s := s.raiseFor o.packet.source 12
  if cls = 12 then s
  else if cls = 11 ∨ cls = 13 ∨ cls = 14 then s.raise cls
  else s.raiseOwned cls (Fin.ofNat 8 o.packet.partition.toNat)

/-- The running command of an opcode that began first. -/
def State.openOf (s : State) (opcode : Nat) : Option OpenCmd := s.host.open_.find? fun o => o.opcode == BitVec.ofNat 16 opcode

end Sys2Proof.Machine
end

