-- ==== Sys2Proof/Machine/Operands.lean ====
section
/-!
DEFINITION. Machine/Operands.lean: the instruction words that the block's own program memories hold: the sequencer
formats (Tables 3.5 to 3.9) and the estimator formats (Tables 7.2 to 7.4), read field by field; a word that the tables call
malformed reads as none.
-/
namespace Sys2Proof.Machine

/-! ## Sequencer instructions -/

/-- The stamp and binding fields of a timed instruction (Table 3.6). -/
structure Timed where
  tm : Nat
  sub : Nat
  ofs : Nat
  bind : Nat
deriving DecidableEq, Repr

/-- A sequencer instruction (Table 3.5). -/
inductive SeqIns where
  | nop
  | play (t : Timed) (rep : Bool) (folio : Nat)
  | setf (t : Timed) (gs : Nat)
  | setp (t : Timed) (gs : Nat)
  | frame (t : Timed) (src : Bool) (imm gs : Nat)
  | measure (t : Timed) (len : Nat) (capt : Bool)
  | mark (t : Timed) (tgt width : Nat)
  | wait (gm gr tmo : Nat) (tj : Bool) (tgt : Nat)
  | brv (port smask mode : Nat) (dflt drel : Bool) (deadline tgt gr : Nat)
  | lookup (view gd : Nat) (apply dj drel : Bool) (deadline tgt : Nat)
  | br (cond ga gb tgt : Nat)
  | loop (creg : Bool) (gc count stop : Nat)
  | call (tgt : Nat)
  | ret
  | end_ (last : Bool)
  | alu (gd ga gb fn : Nat)
  | alui (gd ga fn : Nat) (imm : Word)
  | li (gd : Nat) (hi : Bool) (imm : BitVec 32)
  | movs (gd sr : Nat)
deriving DecidableEq, Repr

/-- A value where a condition holds. -/
def given {α : Type} (c : Bool) (v : α) : Option α := if c then some v else none

/-- Bits `[hi:lo]` are zero. -/
def zeros (w : Word) (hi lo : Nat) : Bool := fld w hi lo == 0

/-- The stamp fields of a timed instruction that its time mode allows (Table 3.3): `aft` where AFTER is allowed, `sub` where
a sub-tick is. -/
def readTimed (w : Word) (aft sub : Bool) (bind : Nat) : Option Timed :=
  let t : Timed := { tm := fld w 55 53, sub := fld w 52 49, ofs := fld w 48 25, bind := bind }
  given (decide (t.tm ≤ 4) && (t.tm != 3 || (aft && t.ofs == 0 && t.sub == 0)) && (t.tm != 4 || decide (t.ofs < 32))
    && (sub || t.sub == 0)) t

/-- Read a sequencer instruction word (R71). -/
def readSeq (w : Word) : Option SeqIns :=
  let bind := fld w 24 22
  match fld w 63 56 with
  | 0x00 => given (zeros w 55 0) .nop
  | 0x10 => (readTimed w true true bind).bind fun t => given (zeros w 4 0) (.play t (bitAt w 21) (fld w 20 5))
  | 0x11 => (readTimed w false true bind).bind fun t => given (zeros w 16 0) (.setf t (fld w 21 17))
  | 0x12 => (readTimed w false true bind).bind fun t => given (zeros w 16 0) (.setp t (fld w 21 17))
  | 0x13 => (readTimed w false true bind).bind fun t =>
      given (if bitAt w 21 then zeros w 20 5 else zeros w 4 0) (.frame t (bitAt w 21) (fld w 20 5) (fld w 4 0))
  | 0x14 => (readTimed w false false bind).bind fun t =>
      given (zeros w 6 0 && decide (1 ≤ fld w 21 8 ∧ fld w 21 8 ≤ 8192)) (.measure t (fld w 21 8) (bitAt w 7))
  | 0x15 => (readTimed w false false 0).bind fun t =>
      given (zeros w 10 0 && decide (fld w 24 19 ≤ 16 ∧ 1 ≤ fld w 18 11)) (.mark t (fld w 24 19) (fld w 18 11))
  | 0x20 => given (zeros w 8 0) (.wait (fld w 55 51) (fld w 50 46) (fld w 45 22) (bitAt w 21) (fld w 20 9))
  | 0x21 =>
    let mode := fld w 47 46
    given (zeros w 2 0 && (mode == 0 || (mode == 1 && zeros w 55 48 && zeros w 45 20 && zeros w 7 3)))
      (.brv (fld w 55 52) (fld w 51 48) mode (bitAt w 45) (bitAt w 44) (fld w 43 20) (fld w 19 8) (fld w 7 3))
  | 0x22 => given (zeros w 7 0)
      (.lookup (fld w 55 52) (fld w 51 47) (bitAt w 46) (bitAt w 45) (bitAt w 44) (fld w 43 20) (fld w 19 8))
  | 0x28 => given (zeros w 29 0 && decide (fld w 55 52 ≤ 8)) (.br (fld w 55 52) (fld w 51 47) (fld w 46 42) (fld w 41 30))
  | 0x29 => given (zeros w 17 0 && (if bitAt w 55 then zeros w 49 30 else zeros w 54 50))
      (.loop (bitAt w 55) (fld w 54 50) (fld w 49 30) (fld w 29 18))
  | 0x2A => given (zeros w 55 42 && zeros w 29 0) (.call (fld w 41 30))
  | 0x2B => given (zeros w 55 0) .ret
  | 0x2F => given (zeros w 54 0) (.end_ (bitAt w 55))
  | 0x40 => given (zeros w 35 0 && decide (fld w 40 36 ≤ 12) && (decide (fld w 40 36 < 11) || zeros w 45 41))
      (.alu (fld w 55 51) (fld w 50 46) (fld w 45 41) (fld w 40 36))
  | 0x41 => given (zeros w 40 32 && decide (fld w 45 41 ≤ 12) && (decide (fld w 45 41 < 11) || zeros w 31 0))
      (.alui (fld w 55 51) (fld w 50 46) (fld w 45 41) ((lo32 w).signExtend 64))
  | 0x42 => given (zeros w 49 32) (.li (fld w 55 51) (bitAt w 50) (lo32 w))
  | 0x43 => given (zeros w 45 0 && decide (fld w 50 46 ≤ 6)) (.movs (fld w 55 51) (fld w 50 46))
  | _ => none

/-- A word at its address: a LOOP's END exceeds the LOOP's address (Table 3.7). -/
def seqWordOk (addr : Nat) (w : Word) : Bool :=
  match readSeq w with
  | none => false
  | some (.loop _ _ _ stop) => decide (addr < stop)
  | some _ => true

/-- The target that an instruction can take (R99). -/
def SeqIns.target : SeqIns → Option Nat
  | .br _ _ _ t => some t
  | .call t => some t
  | .brv _ smask mode dflt _ _ t _ => if mode = 1 ∨ smask ≠ 0 ∨ dflt then some t else none
  | .wait _ _ _ tj t => if tj then some t else none
  | .lookup _ _ _ dj _ _ t => if dj then some t else none
  | .loop _ _ _ stop => some stop
  | _ => none

/-! ## Estimator instructions -/

/-- The address fields of a memory access (Table 7.3): base register, mode, offset in 4-byte units. -/
structure Access where
  a : Nat
  am : Nat
  ofs : Int
deriving DecidableEq, Repr

/-- An estimator instruction (Table 7.2). -/
inductive EstIns where
  | nop
  | vfma (vd va vb vc : Nat)
  | vfms (vd va vb vc : Nat)
  | vmul (vd va vb : Nat)
  | vadd (vd va vb : Nat)
  | vsub (vd va vb : Nat)
  | vmin (vd va vb : Nat)
  | vmax (vd va vb : Nat)
  | vminx (xd va xm : Nat)
  | vmaxx (xd va xm : Nat)
  | vsum (xd va xm : Nat)
  | vbc (vd xs : Nat) (half : Bool)
  | movx (xd va lane : Nat)
  | vmov (vd va : Nat)
  | xop (xd xa xb fn : Nat)
  | xopi (xd xa fn : Nat) (imm : Word)
  | liq (xd pos imm : Nat)
  | aadd (ad as_ : Nat) (imm : Int)
  | amov (ad xs : Nat)
  | vld (r : Nat) (m : Access)
  | vst (r : Nat) (m : Access)
  | xld (r : Nat) (m : Access)
  | xst (r : Nat) (m : Access)
  | vldb (r : Nat) (m : Access)
  | br (xc cond tgt : Nat)
  | brx (xt : Nat)
  | repeat_ (len count : Nat)
  | repeatx (len xc : Nat)
  | post (xs : Nat)
  | done_
  | idle
  | halt
deriving DecidableEq, Repr

/-- Field `[hi:lo]` of an estimator word. -/
def efld (w : BitVec 32) (hi lo : Nat) : Nat := (w.toNat >>> lo) % 2 ^ (hi + 1 - lo)

/-- Bits `[hi:lo]` of an estimator word are zero. -/
def ezeros (w : BitVec 32) (hi lo : Nat) : Bool := efld w hi lo == 0

/-- The access fields of format M. -/
def readAccess (w : BitVec 32) : Option Access :=
  given (efld w 17 16 != 3) { a := efld w 20 18, am := efld w 17 16, ofs := toSigned 16 (efld w 15 0) }

/-- Read an estimator instruction word (R175). -/
def readEst (w : BitVec 32) : Option EstIns :=
  let vd := efld w 25 21
  let va := efld w 20 16
  let vb := efld w 15 11
  let vc := efld w 10 6
  let xd := efld w 25 22
  let rva := efld w 21 17
  let xm := efld w 16 13
  match efld w 31 26 with
  | 0x00 => given (ezeros w 25 0) .nop
  | 0x01 => given (ezeros w 5 0) (.vfma vd va vb vc)
  | 0x02 => given (ezeros w 5 0) (.vfms vd va vb vc)
  | 0x03 => given (ezeros w 10 0) (.vmul vd va vb)
  | 0x04 => given (ezeros w 10 0) (.vadd vd va vb)
  | 0x05 => given (ezeros w 10 0) (.vsub vd va vb)
  | 0x06 => given (ezeros w 10 0) (.vmin vd va vb)
  | 0x07 => given (ezeros w 10 0) (.vmax vd va vb)
  | 0x08 => given (ezeros w 12 0) (.vminx xd rva xm)
  | 0x09 => given (ezeros w 12 0) (.vmaxx xd rva xm)
  | 0x0A => given (ezeros w 12 0) (.vsum xd rva xm)
  | 0x0C => given (ezeros w 15 0) (.vbc vd (efld w 20 17) (w.toNat.testBit 16))
  | 0x0D => given (ezeros w 12 0) (.movx xd rva (efld w 16 13))
  | 0x0E => given (ezeros w 15 0) (.vmov vd va)
  | 0x10 => given (ezeros w 9 0 && decide (efld w 13 10 ≤ 10)) (.xop xd (efld w 21 18) (efld w 17 14) (efld w 13 10))
  | 0x11 => given (decide (efld w 17 14 ≤ 10))
      (.xopi xd (efld w 21 18) (efld w 17 14) (BitVec.ofInt 64 (toSigned 14 (efld w 13 0))))
  | 0x12 => given (ezeros w 19 16) (.liq xd (efld w 21 20) (efld w 15 0))
  | 0x13 => given (ezeros w 19 16) (.aadd (efld w 25 23) (efld w 22 20) (toSigned 16 (efld w 15 0)))
  | 0x14 => given (ezeros w 18 0) (.amov (efld w 25 23) (efld w 22 19))
  | 0x20 => (readAccess w).map fun m => .vld vd m
  | 0x21 => (readAccess w).map fun m => .vst vd m
  | 0x22 => (readAccess w).bind fun m => given (ezeros w 25 25) (.xld (efld w 24 21) m)
  | 0x23 => (readAccess w).bind fun m => given (ezeros w 25 25) (.xst (efld w 24 21) m)
  | 0x24 => (readAccess w).map fun m => .vldb vd m
  | 0x30 => given (ezeros w 18 14 && decide (efld w 21 19 ≤ 4)) (.br xd (efld w 21 19) (efld w 13 0))
  | 0x31 => given (ezeros w 21 0) (.brx xd)
  | 0x32 => given (efld w 25 16 != 0) (.repeat_ (efld w 25 16) (efld w 15 0))
  | 0x33 => given (efld w 25 16 != 0 && ezeros w 11 0) (.repeatx (efld w 25 16) (efld w 15 12))
  | 0x38 => given (ezeros w 21 0) (.post xd)
  | 0x39 => given (ezeros w 25 0) .done_
  | 0x3A => given (ezeros w 25 0) .idle
  | 0x3B => given (ezeros w 25 0) .halt
  | _ => none

/-- An instruction that no delay slot may hold (R187). -/
def EstIns.noDelay : EstIns → Bool
  | .br _ _ _ | .brx _ | .repeat_ _ _ | .repeatx _ _ | .done_ | .idle | .halt => true
  | _ => false

/-- An instruction that no REPEAT body may hold (R187). -/
def EstIns.noBody : EstIns → Bool
  | .br _ _ _ | .brx _ | .done_ | .idle | .halt => true
  | _ => false

end Sys2Proof.Machine
end

