-- ==== Sys2Proof/Machine/Flags.lean ====
section
/-!
DEFINITION. Machine/Flags.lean: the shot flags (Table 3.2), the scalar functions and conditions of the sequencers
(Table 3.9) and of the estimators (Table 7.4). Arithmetic sets no flag.
-/
namespace Sys2Proof.Machine

/-- Bits of F (Table 3.2). -/
def flagVL : Nat := 0
/-- VA. -/
def flagVA : Nat := 1
/-- WT. -/
def flagWT : Nat := 2
/-- CS. -/
def flagCS : Nat := 3
/-- LC. -/
def flagLC : Nat := 4
/-- TN. -/
def flagTN : Nat := 5

/-- A flag of F. -/
def flagOf (f : BitVec 6) (n : Nat) : Bool := f.toNat.testBit n

/-- F with a flag set or cleared. -/
def setFlag (f : BitVec 6) (n : Nat) (b : Bool) : BitVec 6 :=
  if b then f ||| BitVec.ofNat 6 (2 ^ n) else f &&& ~~~(BitVec.ofNat 6 (2 ^ n))

/-- Index of the lowest set bit, 64 if none (FFS). -/
def lowestBit (w : Word) : Nat := ((List.range 64).find? fun i => bitAt w i).getD 64

/-- Number of set bits (POPC). -/
def bitCount (w : Word) : Nat := ((List.range 64).filter fun i => bitAt w i).length

/-- The functions that sequencers and estimators share (codes 0 to 10 of Tables 3.9 and 7.4). -/
def scalarFn (fn : Nat) (a b : Word) : Word :=
  match fn with
  | 0 => a + b
  | 1 => a - b
  | 2 => a &&& b
  | 3 => a ||| b
  | 4 => a ^^^ b
  | 5 => a <<< (b.toNat % 64)
  | 6 => a >>> (b.toNat % 64)
  | 7 => a.sshiftRight (b.toNat % 64)
  | 8 => a * b
  | 9 => if a.toInt ≤ b.toInt then a else b
  | _ => if a.toInt ≤ b.toInt then b else a

/-- FN of a sequencer (Table 3.9). -/
def seqFn (fn : Nat) (a b : Word) : Word :=
  match fn with
  | 11 => BitVec.ofNat 64 (lowestBit a)
  | 12 => BitVec.ofNat 64 (bitCount a)
  | n => scalarFn n a b

/-- COND of a sequencer's BR (Table 3.9): `gb` is the second operand's register number, the flag bit of FSET and FCLR. -/
def seqCond (cond gb : Nat) (a b : Word) (f : BitVec 6) : Bool :=
  match cond with
  | 0 => true
  | 1 => a == b
  | 2 => a != b
  | 3 => decide (a.toInt < b.toInt)
  | 4 => decide (b.toInt ≤ a.toInt)
  | 5 => decide (a.toNat < b.toNat)
  | 6 => decide (b.toNat ≤ a.toNat)
  | 7 => flagOf f gb
  | _ => !flagOf f gb

/-- COND of an estimator's BR (Table 7.4). -/
def estCond (cond : Nat) (x : Word) : Bool :=
  match cond with
  | 0 => true
  | 1 => x == 0
  | 2 => x != 0
  | 3 => decide (x.toInt < 0)
  | _ => decide (0 ≤ x.toInt)

end Sys2Proof.Machine
end

