-- ==== Sys2Proof/Machine/Float.lean ====
section
/-!
DEFINITION. Machine/Float.lean: float32 arithmetic under R174: round to nearest, ties to even; subnormal inputs and
results read as zero of the same sign; every NaN is the canonical NaN; no traps and no flags.
-/
namespace Sys2Proof.Machine

/-- A float32 as stored. -/
abbrev F32 := BitVec 32

/-- The canonical NaN (R174). -/
def fNaN : F32 := 0x7FC00000#32

/-- A float32 read: a NaN, an infinity with its sign, or a finite value `± mant × 2^exp`. -/
inductive FVal where
  | nan
  | inf (neg : Bool)
  | fin (neg : Bool) (mant : Nat) (exp : Int)
deriving DecidableEq, Repr

/-- Read a float32; a subnormal reads as zero of its sign. -/
def F32.read (b : F32) : FVal :=
  let s := b.toNat.testBit 31
  let e := (b.toNat >>> 23) % 256
  let m := b.toNat % 2 ^ 23
  if e = 255 then (if m = 0 then .inf s else .nan)
  else if e = 0 then .fin s 0 0
  else .fin s (2 ^ 23 + m) ((e : Int) - 150)

/-- The float32 infinity of a sign. -/
def fInf (neg : Bool) : F32 := if neg then 0xFF800000#32 else 0x7F800000#32

/-- The float32 zero of a sign. -/
def fZero (neg : Bool) : F32 := if neg then 0x80000000#32 else 0

/-- Round the quotient `num / den` of a sign to float32 (R174). -/
def fRound (neg : Bool) (num den : Nat) : F32 :=
  if num = 0 then fZero neg else
  let k : Int := (Nat.log2 num : Int) - Nat.log2 den
  -- `2^(k-1) < num/den < 2^(k+1)`: the exponent of the last place is `k - 23` or `k - 24`.
  let below := if k ≥ 0 then decide (num < den * 2 ^ k.toNat) else decide (num * 2 ^ (-k).toNat < den)
  let e : Int := max (-149) ((if below then k - 1 else k) - 23)
  let n := if e ≥ 0 then num else num * 2 ^ (-e).toNat
  let d := if e ≥ 0 then den * 2 ^ e.toNat else den
  let q := n / d
  let r := n % d
  let q := if 2 * r > d ∨ (2 * r = d ∧ q % 2 = 1) then q + 1 else q
  let e := if q = 2 ^ 24 then e + 1 else e
  let q := if q = 2 ^ 24 then 2 ^ 23 else q
  if q < 2 ^ 23 then fZero neg
  else if e > 104 then fInf neg
  else BitVec.ofNat 32 ((if neg then 2 ^ 31 else 0) + (e + 150).toNat * 2 ^ 23 + (q - 2 ^ 23))

/-- Round an exact integer multiple `v × 2^exp`; `neg` is the sign of a zero. -/
def fRoundInt (neg : Bool) (v exp : Int) : F32 :=
  if v = 0 then fZero neg else
  let m := v.natAbs
  if exp ≥ 0 then fRound (decide (v < 0)) (m * 2 ^ exp.toNat) 1 else fRound (decide (v < 0)) m (2 ^ (-exp).toNat)

/-- A finite value as an integer at a smaller exponent. -/
def scaled (neg : Bool) (mant : Nat) (exp lo : Int) : Int :=
  (if neg then -(mant : Int) else (mant : Int)) * 2 ^ (exp - lo).toNat

/-- The exact sum of finite values `± mant × 2^exp`, as an integer and its exponent. -/
def sumExact : List (Bool × Nat × Int) → Int × Int
  | [] => (0, 0)
  | (s, m, e) :: l =>
    let (v, x) := sumExact l
    let lo := min e x
    (scaled s m e lo + v * 2 ^ (x - lo).toNat, lo)

/-- Product of two read values; `none` where it is a NaN or an infinity of a sign. -/
def fMulVal : FVal → FVal → FVal
  | .nan, _ => .nan
  | _, .nan => .nan
  | .inf s, .inf t => .inf (s != t)
  | .inf s, .fin t m _ => if m = 0 then .nan else .inf (s != t)
  | .fin s m _, .inf t => if m = 0 then .nan else .inf (s != t)
  | .fin s m e, .fin t n f => .fin (s != t) (m * n) (e + f)

/-- Sum of two read values, rounded once. An exact zero sum of opposite signs is +0. -/
def fAddVal : FVal → FVal → F32
  | .nan, _ => fNaN
  | _, .nan => fNaN
  | .inf s, .inf t => if s = t then fInf s else fNaN
  | .inf s, .fin _ _ _ => fInf s
  | .fin _ _ _, .inf t => fInf t
  | .fin s m e, .fin t n f =>
    let (v, x) := sumExact [(s, m, e), (t, n, f)]
    fRoundInt (s && t) v x

/-- A read value with its sign turned. -/
def FVal.neg : FVal → FVal
  | .nan => .nan
  | .inf s => .inf !s
  | .fin s m e => .fin (!s) m e

/-- `a + b`. -/
def fAdd (a b : F32) : F32 := fAddVal a.read b.read
/-- `a − b`. -/
def fSub (a b : F32) : F32 := fAddVal a.read b.read.neg
/-- `a × b`. -/
def fMul (a b : F32) : F32 :=
  match fMulVal a.read b.read with
  | .nan => fNaN
  | .inf s => fInf s
  | .fin s m e => fRoundInt s (if s then -(m : Int) else m) e
/-- `a × b + c`, rounded once. -/
def fFma (a b c : F32) : F32 := fAddVal (fMulVal a.read b.read) c.read
/-- `c − a × b`, rounded once. -/
def fFms (a b c : F32) : F32 := fAddVal (fMulVal a.read b.read).neg c.read
/-- `a × b + c × d` of finite values, rounded once (R159). -/
def fDot (a b c d : F32) : F32 := fAddVal (fMulVal a.read b.read) (fMulVal c.read d.read)
/-- `a ÷ n` for a positive integer. -/
def fDivNat (a : F32) (n : Nat) : F32 :=
  match a.read with
  | .nan => fNaN
  | .inf s => fInf s
  | .fin s m e => if e ≥ 0 then fRound s (m * 2 ^ e.toNat) n else fRound s m (n * 2 ^ (-e).toNat)

/-- Finite: neither a NaN nor an infinity. -/
def F32.finite (a : F32) : Bool := decide ((a.toNat >>> 23) % 256 ≠ 255)

/-- The order of two finite values or infinities: `a < b`. A NaN is not less than anything. -/
def fLt (a b : F32) : Bool :=
  match a.read, b.read with
  | .nan, _ => false
  | _, .nan => false
  | .inf s, .inf t => s && !t
  | .inf s, .fin _ _ _ => s
  | .fin _ _ _, .inf t => !t
  | .fin s m e, .fin t n f =>
    let lo := min e f
    decide (scaled s m e lo < scaled t n f lo)

/-- A NaN. -/
def F32.isNaN (a : F32) : Bool := decide (a.read = .nan)

/-- The value as the arithmetic reads it: a subnormal as zero, a NaN as the canonical one. -/
def F32.canon (a : F32) : F32 :=
  match a.read with
  | .nan => fNaN
  | .inf s => fInf s
  | .fin s m _ => if m = 0 then fZero s else a

/-- Minimum (R174): the other operand where one is a NaN. Of equal operands the first. -/
def fMin (a b : F32) : F32 := if a.isNaN then b.canon else if b.isNaN then a.canon else if fLt b a then b.canon else a.canon
/-- Maximum (R174). -/
def fMax (a b : F32) : F32 := if a.isNaN then b.canon else if b.isNaN then a.canon else if fLt a b then b.canon else a.canon

/-- `⌊(y − o) ÷ s⌋` clamped to 0 and 63, of finite values with `s > 0`, evaluated exactly (R259). -/
def fBin (y o s : F32) : Nat :=
  match y.read, o.read, s.read with
  | .fin ys ym ye, .fin os om oe, .fin _ sm se =>
    let (v, x) := sumExact [(ys, ym, ye), (!os, om, oe)]
    let lo := min x se
    let n := v * 2 ^ (x - lo).toNat
    let d := (sm : Int) * 2 ^ (se - lo).toNat
    (min 63 (max 0 (if d = 0 then 0 else n / d))).toNat
  | _, _, _ => 0

/-- The sum of exact products that have each been rounded to float32, rounded once (R156). -/
def fSumRound (l : List F32) : F32 :=
  let (v, x) := sumExact (l.filterMap fun a =>
    match a.read with
    | .fin s m e => some (s, m, e)
    | _ => none)
  fRoundInt false v x

/-- The square of a complex float32 magnitude is at most `k²` (R157, Table 4.10): `re² + im² ≤ k²`, exactly. -/
def fMagLe (re im : F32) (k : Nat) : Bool :=
  match re.read, im.read with
  | .fin _ a x, .fin _ b y =>
    let (v, e) := sumExact [(false, a * a, 2 * x), (false, b * b, 2 * y), (true, k * k, 0)]
    let _ := e
    decide (v ≤ 0)
  | _, _ => false

end Sys2Proof.Machine
end

