-- ==== Sys2Proof/Machine/Links.lean ====
section
/-!
DEFINITION. Machine/Links.lean: which elements belong together (R3), one operation per bank of elements, and the mutes of
the RF outputs (R118 to R123).
-/
namespace Sys2Proof.Machine

/-! ## Elements of a cluster and of a die (R3) -/

/-- Cluster of a sequencer. -/
def seqCluster (q : Nat) : Nat := q / 32
/-- Cluster of a line, and of its estimator. -/
def lineCluster (l : Nat) : Nat := l / 4
/-- Cluster of an output: drive outputs 0–63, then probe outputs. -/
def outCluster (o : Nat) : Nat := if o < 64 then o / 8 else (o - 64) / 4
/-- Converter die of a cluster. -/
def dieOf (k : Nat) : Nat := k / 2
/-- Output of a drive or probe slot. -/
def driveOut (i : Nat) : Nat := i / 8
/-- Output of a probe slot. -/
def probeOut (i : Nat) : Nat := 64 + i / 16
/-- The slots of an output: the bank (`true` is the probe bank), first index, count. -/
def outSlots (o : Nat) : Bool × Nat × Nat := if o < 64 then (false, 8 * o, 8) else (true, 16 * (o - 64), 16)

/-! ## Changes of one element -/

/-- Change one sequencer. -/
def State.modSeq (q : Nat) (f : Seq → Seq) (s : State) : State := { s with seqs := { s.seqs with seq := updN s.seqs.seq q f } }
/-- A sequencer. -/
def State.sq (s : State) (q : Nat) : Seq := atN s.seqs.seq q {}
/-- Change one output. -/
def State.modOut (o : Nat) (f : Output → Output) (s : State) : State :=
  { s with synth := { s.synth with out := updN s.synth.out o f } }
/-- An output. -/
def State.out (s : State) (o : Nat) : Output := atN s.synth.out o {}
/-- Change a drive or probe slot that a binding names. -/
def State.modSlot (b : Binding) (f : Slot → Slot) (s : State) : State :=
  match b with
  | .drive i => { s with synth := { s.synth with drive := upd s.synth.drive i f } }
  | .probe i => { s with synth := { s.synth with probe := upd s.synth.probe i f } }
  | _ => s
/-- The drive or probe slot that a binding names. -/
def State.slotOf (s : State) : Binding → Slot
  | .drive i => s.synth.drive[i.val]
  | .probe i => s.synth.probe[i.val]
  | _ => {}
/-- Change a demodulation slot. -/
def State.modDemod (k : Nat) (f : DemodSlot → DemodSlot) (s : State) : State :=
  { s with readout := { s.readout with demod := updN s.readout.demod k f } }
/-- A demodulation slot. -/
def State.dm (s : State) (k : Nat) : DemodSlot := atN s.readout.demod k {}
/-- Change a line. -/
def State.modLine (l : Nat) (f : Line → Line) (s : State) : State :=
  { s with readout := { s.readout with line := updN s.readout.line l f } }
/-- A line. -/
def State.ln (s : State) (l : Nat) : Line := atN s.readout.line l {}
/-- Change an estimator. -/
def State.modEst (e : Nat) (f : Est → Est) (s : State) : State := { s with est := updN s.est e f }
/-- An estimator. -/
def State.es (s : State) (e : Nat) : Est := atN s.est e {}
/-- Change a lane. -/
def State.modLane (n : Nat) (f : Lane → Lane) (s : State) : State :=
  { s with fabric := { s.fabric with lane := updN s.fabric.lane n f } }
/-- A lane. -/
def State.lane (s : State) (n : Nat) : Lane := atN s.fabric.lane n {}
/-- Change the delivery entries of a sequencer. -/
def State.modRoute (q : Nat) (f : RouteSeq → RouteSeq) (s : State) : State :=
  { s with fabric := { s.fabric with route := updN s.fabric.route q f } }
/-- Change the send entry of a demodulation slot. -/
def State.modSend (k : Nat) (f : SendEnt → SendEnt) (s : State) : State :=
  { s with fabric := { s.fabric with send := updN s.fabric.send k f } }
/-- Change a view. -/
def State.modView (v : Nat) (f : View → View) (s : State) : State := { s with conc := { s.conc with view := updN s.conc.view v f } }
/-- A view. -/
def State.vw (s : State) (v : Nat) : View := atN s.conc.view v {}
/-- Change the Concordance side of a sequencer. -/
def State.modMember (q : Nat) (f : Member → Member) (s : State) : State :=
  { s with conc := { s.conc with member := updN s.conc.member q f } }
/-- The Concordance side of a sequencer. -/
def State.mem (s : State) (q : Nat) : Member := atN s.conc.member q {}
/-- Change the acquisition side of a demodulation slot. -/
def State.modCap (k : Nat) (f : CapSlot → CapSlot) (s : State) : State := { s with acq := { s.acq with cap := updN s.acq.cap k f } }
/-- The acquisition side of a demodulation slot. -/
def State.cap (s : State) (k : Nat) : CapSlot := atN s.acq.cap k {}
/-- Change the stream plans of a sequencer. -/
def State.modPlans (q : Nat) (f : Plans → Plans) (s : State) : State := { s with wave := { s.wave with plans := updN s.wave.plans q f } }
/-- The stream plans of a sequencer. -/
def State.plansOf (s : State) (q : Nat) : Plans := atN s.wave.plans q {}
/-- Change a Shelf. -/
def State.modShelf (d : Nat) (f : Shelf → Shelf) (s : State) : State := { s with wave := { s.wave with shelf := updN s.wave.shelf d f } }
/-- A Shelf. -/
def State.shelfOf (s : State) (d : Nat) : Shelf := atN s.wave.shelf d {}
/-- `n` granules of a Shelf from granule `a` on are copied again: no word of them is in error (R141), and none is a raw write's
(R404). -/
def Shelf.recopied (a n : Nat) (h : Shelf) : Shelf :=
  { h with bad := h.bad.filter fun x => !decide (a ≤ x.1 ∧ x.1 < a + n)
           raw := h.raw.filter fun e => !decide (32 * a ≤ e.1 ∧ e.1 < 32 * (a + n)) }
/-- A folio. -/
def State.folio (s : State) (n : Nat) : Folio := Sparse.get {} s.wave.folios n
/-- Change a folio. -/
def State.modFolio (n : Nat) (f : Folio → Folio) (s : State) : State :=
  { s with wave := { s.wave with folios := Sparse.set {} s.wave.folios n (f (s.folio n)) } }
/-- Change a bias channel. -/
def State.modChan (b : Nat) (f : Chan → Chan) (s : State) : State := { s with bias := { s.bias with chan := updN s.bias.chan b f } }
/-- A bias channel. -/
def State.ch (s : State) (b : Nat) : Chan := atN s.bias.chan b {}
/-- Change a monitor. -/
def State.modMon (m : Nat) (f : Monitor → Monitor) (s : State) : State := { s with bias := { s.bias with mon := updN s.bias.mon m f } }
/-- A monitor. -/
def State.monOf (s : State) (m : Nat) : Monitor := atN s.bias.mon m {}

/-- Owner of a sequencer. -/
def State.seqOwner (s : State) (q : Nat) : Fin 8 := atN s.parts.seq q 0
/-- Owner of a demodulation slot. -/
def State.demodOwner (s : State) (k : Nat) : Fin 8 := atN s.parts.rslot k 0
/-- Owner of a drive or probe slot. -/
def State.slotOwner (s : State) : Binding → Fin 8
  | .drive i => s.parts.dslot[i.val]
  | .probe i => s.parts.pslot[i.val]
  | .demod i => s.parts.rslot[i.val]
  | .none => 0
/-- The partition that owns every demodulation slot of a line, if one does (R195, R287). -/
def State.lineOwner (s : State) (l : Nat) : Option (Fin 8) :=
  let o := s.demodOwner (16 * l)
  if (List.range 16).all fun i => s.demodOwner (16 * l + i) = o then some o else none
/-- Owners of the slots of an output. -/
def State.outOwners (s : State) (o : Nat) : List (Fin 8) :=
  let (pr, f, n) := outSlots o
  (List.range n).map fun i => if pr then atN s.parts.pslot (f + i) 0 else atN s.parts.dslot (f + i) 0

/-- The slots of an output by their binding names. -/
def slotsOfOut (o : Nat) : List Binding :=
  let (pr, f, n) := outSlots o
  (List.range n).filterMap fun i =>
    if h : f + i < 512 then some (if pr then .probe ⟨f + i, h⟩ else .drive ⟨f + i, h⟩) else none

/-- The output of a bound drive or probe slot. -/
def Binding.out : Binding → Option Nat
  | .drive i => some (driveOut i)
  | .probe i => some (probeOut i)
  | _ => Option.none

/-! ## The tick counter and device ticks -/

/-- The device tick at which the tick counter reads `n` (R39). -/
def State.dev (s : State) (n : Nat) : Nat := s.time.zeroAt + n
/-- The tick counter as a number at device tick `n`. -/
def State.cnt (s : State) (n : Nat) : Nat := n - s.time.zeroAt
/-- The clock runs to tick-counter value `n`. -/
def State.runToCount (n : Nat) (s : State) : State := s.runTo (s.dev n)

/-! ## Mutes of the RF outputs (Table 4.5) -/

/-- Some cause mutes the output. -/
def Output.muted (o : Output) : Bool := o.cmdMute || o.unlock || o.trip || o.latched || o.faultMute || o.thermal || o.failed

/-- Record the tick of a mute (R123). -/
def Output.stamp (tick : BitVec 64) (o : Output) : Output := { o with muteTick := tick.setWidth 32 }

/-- A release of a cause ramps the output up over RAMP where nothing mutes it any longer (R119). -/
def Output.release (was : Bool) (now : Nat) (o : Output) : Output :=
  if was && !o.muted && o.ramp != 0 then { o with ramping := some { at_ := now, len := o.ramp, up := true, num := 0, den := 1 } }
  else if was && !o.muted then { o with ramping := none } else o

/-- Change the mute causes of an output: a mute records its tick, a release ramps. Causes other than the command cause do
not ramp down (R119). -/
def State.muteBy (o : Nat) (f : Output → Output) (s : State) : State :=
  s.modOut o fun x =>
    let y := f x
    if !x.muted && y.muted then { y.stamp s.tick with ramping := none } else y.release x.muted s.now

/-- The trouble word of the die of an output. -/
def dieWord (d : Nat) : Fin 16 := ⟨(4 + d % 4) % 16, Nat.mod_lt _ (by decide)⟩
/-- The trouble word of a cluster. -/
def clusterWord (k : Nat) : Fin 16 := ⟨(8 + k % 8) % 16, Nat.mod_lt _ (by decide)⟩

/-- A class-0 element number of an output on its die (Table 14.1). -/
def outIndex (o : Nat) : Nat := if o < 64 then o % 16 else 16 + (o - 64) % 8
/-- The die of an output. -/
def outDie (o : Nat) : Nat := dieOf (outCluster o)

/-- A record about an output. -/
def outRec (o : Nat) (detail : BitVec 32) : LedgerRec :=
  if o < 64 then evRec 1 o detail (outDie o) (outCluster o) else evRec 2 (o - 64) detail (outDie o) (outCluster o)

/-! ## The source vector (R248) -/

/-- Cluster of a monitor: MB0–MB255 by channel, ML0–ML31 by line (Table 0.3). -/
def monCluster (m : Nat) : Nat := if m < 256 then m / 32 else lineCluster (m - 256)

/-- The synchronized copy of a monitor's trip in tick `t` (R23). -/
def Monitor.seen (x : Monitor) (t : Nat) : Bool := if x.copyAt ≤ t then x.tripped else x.copy

/-- The synchronized copy of the trip of a monitor of an enabled cluster (R32). -/
def State.monSeen (s : State) (m t : Nat) : Bool := s.hasCluster (monCluster m) && (s.monOf m).seen t

/-- The synchronized copy of a monitor of the list shows a trip in a tick. -/
def State.anyTripped (s : State) (lo n t : Nat) : Bool := (List.range n).any fun i => s.monSeen (lo + i) t

/-- The marker bit of a sequencer is high at a tick (R249). -/
def State.markerHigh (s : State) (q t : Nat) : Bool :=
  match atN s.acq.marker q none with
  | some (a, b) => decide (a ≤ t ∧ t ≤ b)
  | none => false

/-- The bit of select entry `i` (source-vector bit 22 + i) in a tick (R249). -/
def State.selectBit (s : State) (i t : Nat) : Bool :=
  let e := atN s.acq.select i {}
  e.en && (if i < 10 then s.monSeen (if e.ml then 256 + e.mon else e.mon) t
    else if i < 26 then decide (atN s.acq.verdictAt (i - 10) none = some t)
    else s.markerHigh e.seq t)

/-- The source vector of a tick (Table 10.3). -/
def State.sv (s : State) (t : Nat) : Word :=
  BitVec.ofNat 64 (((List.range 64).map fun i =>
    let b := if i < 11 then (atN s.acq.input i {}).level
      else if i < 19 then (atN s.acq.input i {}).dir == 0 && (atN s.acq.input i {}).level
      else if i = 19 then decide (s.time.lastMark.now = t ∧ s.time.markSeq ≠ 0)
      else if i = 20 then s.anyTripped 0 256 t
      else if i = 21 then s.anyTripped 256 32 t
      else s.selectBit (i - 22) t
    if b then 2 ^ i else 0).foldl (· + ·) 0)

/-- A pattern unit matches the vector (R250). -/
def PatUnit.matches_ (u : PatUnit) (v : Word) : Bool := u.en && ((v ^^^ u.value) &&& ~~~u.mask) == 0

/-- Before a change of the source vector in this tick, and before a unit fires: whether each unit matched in the tick before
(R250). -/
def State.svSync (s : State) : State :=
  if s.now ≤ s.acq.svAt then s else
  let v := s.sv (s.now - 1)
  { s with acq := { s.acq with svAt := s.now, unit := s.acq.unit.map fun u => { u with prev := u.matches_ v } } }

/-! ## Events of start and WAIT sources (Table 3.10) -/

/-- An event of source `n` is registered in device tick `t`: a WAIT that enables it takes it (R73); a sequencer that starts
on it and is not armed counts a missed start (R85). -/
def State.event (n t : Nat) (s : State) : State :=
  let c := s.cnt t
  let f (q : Seq) : Seq :=
    let q := if q.start == some (.source (Fin.ofNat 52 n)) && q.mode != .armed then { q with missed := satAdd 16 q.missed 1 } else q
    match q.stall with
    | .wait w word m hit =>
      if bitAt m n && decide (w ≤ c) then
        { q with stall := .wait w word m (match hit with
            | none => some (c, put n n 1)
            | some (c', v) => if c' = c then some (c', v ||| put n n 1) else some (c', v)) }
      else q
    | _ => q
  { s with seqs := { s.seqs with seq := s.seqs.seq.map f, events := updN s.seqs.events n fun _ => some t } }

end Sys2Proof.Machine
end

