-- ==== Sys2Proof/Machine/WaveOps.lean ====
section
/-!
DEFINITION. Machine/WaveOps.lean: lengths of folios, heads and windows (R103, R142), where the player of a streamed folio is,
which half it requests next (R143), and the granules that it finds invalid (R146).
-/
namespace Sys2Proof.Machine

/-- Length of a folio in DAC samples (R103). -/
def Folio.samples (f : Folio) : Nat := max 1 (ceilDiv (f.n * 2 ^ 24) f.rate)

/-- Granules of a folio (R134). -/
def Folio.granules (f : Folio) : Nat := ceilDiv f.n 64

/-- Samples of a folio's head (R142): 8 µs of its rate, at most the folio. -/
def Folio.head (f : Folio) : Nat := min f.n (ceilDiv (f.rate * 128000) (2 ^ 24))

/-- The folio has a body (R142). -/
def Folio.hasBody (f : Folio) : Bool := decide (f.head < f.n)

/-- Granules of a window half for a highest rate (R142): 4 µs of play. -/
def halfGranules (rate : Nat) : Nat := ceilDiv (rate * 1000) (2 ^ 24)

/-- The highest rate among the folios with a body that a plan lists for a binding; 0 where it has no window. -/
def State.planRate (s : State) (p : StreamPlan) (b : Nat) : Nat :=
  p.list.foldl (fun m (c, f) => if c = b ∧ (s.folio f).hasBody then max m (s.folio f).rate else m) 0

/-- H of a binding under a plan, in granules; 0 without a window. -/
def State.planHalf (s : State) (p : StreamPlan) (b : Nat) : Nat := halfGranules (s.planRate p b)

/-- Charge of a plan in MB/s (R144). -/
def State.planCharge (s : State) (p : StreamPlan) : Nat := ((List.range 8).map fun b => 64 * s.planHalf p b).sum

/-- The folio has a pin on a die, whether or not its copy is in place: a folio whose copy is still in progress counts as pinned for a
second pin and for an unpin (DESIGN CHOICE: R138 says only that it counts as not placed). -/
def State.pinned (s : State) (die folio : Nat) : Bool := (s.shelfOf die).runs.any fun r => r.use == .pin folio

/-- The folio is pinned on a die with its copy in place (R138). -/
def State.inPlace (s : State) (die folio : Nat) : Bool := (s.shelfOf die).runs.any fun r => r.placed && r.use == .pin folio

/-- The DAC sample, from the folio's first, at which the player reaches envelope sample `m` (R103). -/
def Folio.reach (f : Folio) (m : Nat) : Nat := ceilDiv (m * 2 ^ 24) f.rate

/-- The streamed folio that plays on binding `b` of sequencer `q`: what plays, the folio, and H. A pinned folio draws no
refill (R140). -/
def State.streaming (s : State) (q b : Nat) : Option (Playing × Folio × Nat) :=
  match (s.slotOf (atN (s.sq q).active b Binding.none)).playing with
  | none => none
  | some x =>
    let f := s.folio x.folio
    let p := (s.plansOf q).active
    if p.list.contains (b, x.folio) && f.hasBody && !s.inPlace (dieOf (seqCluster q)) x.folio then some (x, f, s.planHalf p b)
    else none

/-- The window of a binding as it belongs to what plays now: a new folio starts it afresh. -/
def StreamWin.at_ (w : StreamWin) (start : Nat) : StreamWin := if w.start = start then w else { start := start }

/-- The envelope sample at which request `k` of a repetition is made (R143): the midpoint of the head, then the first sample of
each half. The midpoint of a head of `n` samples is sample ⌊n / 2⌋ (DESIGN CHOICE: the manual does not say what it is for an odd
`n`). -/
def requestAt (head half k : Nat) : Nat := if k = 0 then head / 2 else head + (k - 1) * 64 * half

/-- The next request of a window: repetition and number. A repetition under REP restarts from the head. -/
def nextRequest (w : StreamWin) (f : Folio) (half : Nat) (rep : Bool) : Option (Nat × Nat) :=
  if f.head + w.requests * 64 * half < f.n then some (w.rep, w.requests) else if rep then some (w.rep + 1, 0) else none

/-- How many granules of a half the player has entered by DAC sample `n`, in a repetition that starts at sample `n0`. -/
def WinHalf.entered (h : WinHalf) (f : Folio) (n0 n : Nat) : Nat :=
  ((List.range h.asked).filter fun g => decide (n0 + f.reach (h.first + 64 * g) ≤ n)).length

/-- The granules that the player has found invalid since the last look, among the `p` it has entered (R146). -/
def WinHalf.missed (h : WinHalf) (p : Nat) : List Nat :=
  (List.range p).filter fun g => decide (h.passed ≤ g) && (decide (h.landed ≤ g) || h.bad.contains g)

/-- A half after the player has entered `p` of its granules. -/
def WinHalf.settle (h : WinHalf) (p : Nat) : WinHalf := { h with passed := max h.passed p }

/-- The folio that a binding streams, its window, how many granules of each half the player has entered by device tick `t`, and the
first envelope samples of those it found invalid since the last look. -/
def State.unsettled (s : State) (q b t : Nat) : Option (Playing × StreamWin × Nat × Nat × List Nat) :=
  match s.streaming q b with
  | none => none
  | some (x, f, _) =>
    let w := (atN (s.plansOf q).wins b {}).at_ x.start
    let n := match x.stopAt with
      | some e => min (16 * t) (e - 1)
      | none => 16 * t
    let n0 := x.start + w.rep * x.len
    let pa := w.a.entered f n0 n
    let pb := w.b.entered f n0 n
    some (x, w, pa, pb, (w.a.missed pa).map (fun g => w.a.first + 64 * g) ++ (w.b.missed pb).map fun g => w.b.first + 64 * g)

/-- The underruns of a sequencer's bindings by device tick `t` that are not settled yet (R146). -/
def State.owed (s : State) (q t : Nat) : Nat :=
  ((List.range 8).map fun b => match s.unsettled q b t with
    | some x => x.2.2.2.2.length
    | none => 0).sum

/-- The shot flags of a sequencer at device tick `t`: TN shows every underrun by then (R63). -/
def State.flagsAt (s : State) (q t : Nat) : BitVec 6 :=
  if s.owed q t = 0 then (s.sq q).f else setFlag (s.sq q).f flagTN true

/-- The granules of binding `b` that the player has passed by device tick `t` are settled (R146): each that was not valid plays as
zero and is an underrun, which taints the shot and sets STREAM_UNDERRUN of the die: G5 yields, to G2 at a throttle level, else to G3
(Table 15.2). -/
def State.settle (q b t : Nat) (s : State) : State :=
  match s.unsettled q b t with
  | none => s
  | some (_, w, pa, pb, l) =>
    let s := s.modPlans q fun p => { p with wins := updN p.wins b fun _ => { w with a := w.a.settle pa, b := w.b.settle pb } }
    if l = [] then s else
    let s := s.modSlot (atN (s.sq q).active b Binding.none) fun x =>
      { x with playing := x.playing.map fun y => { y with lost := l.map (fun m => (w.rep, m)) ++ y.lost } }
    let s := s.modSeq q fun c =>
      { c with underruns := satAdd 32 c.underruns l.length, f := setFlag c.f flagTN true }
    (s.troubleOwned (dieWord (dieOf (seqCluster q))) 2 (s.seqOwner q)).yields (if s.thermal.level = .throttle then 2 else 3) 5

/-- Every binding of a sequencer is settled. -/
def State.settleAll (q t : Nat) (s : State) : State := (List.range 8).foldl (fun s b => s.settle q b t) s

end Sys2Proof.Machine
end

