-- ==== Sys2Proof/Machine/AcqOps.lean ====
section
/-!
DEFINITION. Machine/AcqOps.lean: the capture engine (R253 to R263): starts, holdoff, what each reduction gathers, records
and rings; and the formation and latching of verdicts (R160, R184, R198 to R206, R226, R249), which feed captures, ports,
gather inputs and selects.
-/
namespace Sys2Proof.Machine

/-! ## Trigger inputs (R244 to R247) -/

/-- Change an input. -/
def State.modIn (i : Nat) (f : TrigIn → TrigIn) (s : State) : State := { s with acq := { s.acq with input := updN s.acq.input i f } }
/-- An input. -/
def State.inp (s : State) (i : Nat) : TrigIn := atN s.acq.input i {}

/-- The level at the ball is active under the input's polarity. -/
def TrigIn.active (x : TrigIn) : Bool := x.ball != x.actlow

/-- The tick in which the filtered level follows the synchronized one (R244). -/
def TrigIn.due (x : TrigIn) : Nat := x.ballAt + x.filter - 1

/-- The input makes events (R247). -/
def TrigIn.isInput (i : Nat) (x : TrigIn) : Bool := decide (i < 11) || x.dir == 0

/-- The filtered level of an input follows, with its event (R244, R245). -/
def State.trigEvent (i : Nat) (s : State) : State :=
  let x := s.inp i
  if x.active = x.level then s else
  let t := x.due
  let s := (s.runTo t).svSync
  let rise := x.active
  let makes := x.isInput i && (rise || x.both)
  let near : Bool := match x.lastEvent with
    | some e => decide (t < e + 4)
    | none => false
  let s := s.modIn i fun x => { x with
    level := rise, levelAt := t, isStuck := x.isStuck && rise
    events := if makes && !near then x.events + 1 else x.events
    excess := if makes && near then satAdd 16 x.excess 1 else x.excess
    lastEvent := if makes && !near then some t else x.lastEvent }
  if makes && !near then s.event (32 + i) t else s

/-- The line's level as the device's own input sees it: its drivers outside, and the device's MARK on a chassis trigger line (R247). -/
def State.lineHigh (s : State) (i : Nat) (ext : Bool) : Bool := ext || (decide (i < 8) && (atN s.synth.pulse (8 + i) none).isSome)

/-- The line of input `i` has the level that its drivers give it now, and the filter sees a change from tick `y` on (Table 10.2).
Activity shorter than FILTER ticks is a rejected pulse (R244). -/
def State.lineEdge (i y : Nat) (ext : Bool) (s : State) : State :=
  let x := s.inp i
  let s := if x.active ≠ x.level ∧ x.due < y then s.trigEvent i else s
  let level := s.lineHigh i ext
  let x := s.inp i
  if x.ball = level then s.modIn i fun x => { x with ext := ext }
  else
    let rejected := x.active && !x.level && decide (y - x.ballAt < x.filter)
    s.modIn i fun x => { x with ext := ext, ball := level, ballAt := y, rejects := if rejected then satAdd 8 x.rejects 1 else x.rejects }

/-- A MARK on chassis trigger line `i` begins or ends in tick `t`: the device's own input sees it as any other driver's, after a
synchronizer delay of 0 to 4 ticks that the manual leaves open (R247, Table 10.2). -/
def State.ownEdge (i t : Nat) (s : State) : State :=
  let (d, s) := s.drawWord
  s.lineEdge i (t + d.toNat % 5) (s.inp i).ext

/-! ## Records and rings -/

/-- Line and slot of a demodulation slot. -/
def demodLine (k : Nat) : Nat := k / 16
/-- Slot number within its line. -/
def demodSlotNo (k : Nat) : Nat := k % 16

/-- A record about a demodulation slot. -/
def demodRec (k : Nat) (detail : BitVec 32) : LedgerRec :=
  evRec 3 (demodLine k) detail (dieOf (lineCluster (demodLine k))) (lineCluster (demodLine k)) (demodSlotNo k)

/-- Acquisition trouble of a slot's cluster: bit 6 holdoff, bit 7 overflow, bit 8 ECC (R256, R260, R262). -/
def State.acqTrouble (k bit : Nat) (s : State) : State :=
  ((s.troubleOwned (clusterWord (lineCluster (demodLine k))) bit (s.demodOwner k)).note
    (demodRec k (BitVec.ofNat 32 bit))).raiseOwned 7 (s.demodOwner k)

/-- Header fields of a record (Table 10.4). -/
structure Header where
  kind : Nat
  start : Nat
  pt : Nat := 0
  taint : Bool := false
  outOfRange : Bool := false
  missing : Bool := false
  short : Bool := false
  pre : Nat := 0
  tick : Word
  context : Word
  aux : Nat := 0

/-- A record with its header (R258). -/
def mkRecord (k seqno : Nat) (h : Header) (data : Words) : Record :=
  [orAll [put 63 60 h.kind, put 59 55 (demodLine k), put 54 51 (demodSlotNo k), put 50 49 h.start, put 48 44 h.pt,
     putB 43 h.taint, putB 42 h.outOfRange, putB 41 h.missing, putB 40 h.short, put 39 26 h.pre, put 25 0 seqno],
   h.tick, h.context, put 63 32 h.aux ||| put 31 0 data.length] ++ data

/-- KIND of a record. -/
def recordKind (r : Record) : Nat := fld (wordAt r 0) 63 60

/-- A reduction of the slot has no free half of its reservation for a record that starts now (R262): two records of its kind are
filled or filling, of which `filling` are in progress. -/
def State.noHalf (s : State) (k kind filling : Nat) : Bool :=
  decide (2 ≤ ((s.cap k).ready.filter fun x => recordKind x = kind).length + filling)

/-- A record starts, and is not written where it found no free half (R262): counted, with the trouble bit and its record. -/
def State.dropRecord (k : Nat) (full : Bool) (s : State) : State :=
  if full then
    (s.modCap k fun c => { c with dropped := satAdd 32 c.dropped 1, droppedRead := satAdd 32 c.droppedRead 1 }).acqTrouble k 7
  else s

/-- A finished record (R258): it stands in the half that it found at its start; without one it is not written (R262). -/
def State.emit (k : Nat) (full : Bool) (h : Header) (data : Words) (s : State) : State :=
  if full then s else
  let r := mkRecord k ((s.cap k).seqno % 2 ^ 26) h data
  s.modCap k fun c => { c with ready := c.ready ++ [r], seqno := c.seqno + 1,
                               shortPre := if h.short then satAdd 16 c.shortPre 1 else c.shortPre }

/-- Words in a ring. -/
def Ring.words (r : Ring) : Nat := (r.recs.map List.length).sum - r.read

/-- Room for a record: whole records are discarded from the oldest until it fits (R263); answers the ring, how many records
were lost, and whether the read position moved. -/
def Ring.fit (cap need : Nat) : Nat → Ring → Ring × Nat × Bool
  | 0, r => (r, 0, false)
  | n + 1, r =>
    if (r.recs.map List.length).sum + need ≤ cap then (r, 0, false) else
    match r.recs with
    | [] => (r, 0, false)
    | _ :: l =>
      let (r', lost, moved) := Ring.fit cap need n { r with recs := l, read := 0 }
      (r', lost + 1, moved || r.read != 0)

/-- A record enters the newest ring of its slot (R263). -/
def CapSlot.drain (c : CapSlot) : CapSlot :=
  match c.ready, c.rings.reverse with
  | r :: l, ring :: older =>
    let (ring, lost, moved) := Ring.fit (8192 * ring.size) r.length ring.recs.length ring
    { c with
      ready := l
      rings := (({ ring with recs := ring.recs ++ [r] } : Ring) :: older).reverse
      lost := satAdd 32 c.lost lost, lostRead := satAdd 32 c.lostRead lost, resync := c.resync || moved }
  | _, _ => c

/-! ## Starts (R253, R256, R257) -/

/-- Captures start only in power state RUN and outside a thermal shutdown (Tables 17.7 and 18.4). -/
def State.captureOpen (s : State) : Bool := decide (s.power.st = .run) && s.thermal.shutAt.isNone

/-- The raw reduction of a plan. -/
def Plan.raw (p : Plan) : Option Reduction := p.reds.find? fun r => r.kind == 1

/-- Raw records of a slot in progress: of its plan, and of plans replaced (R254). -/
def CapSlot.raws (c : CapSlot) : List RawCap := c.rawLate ++ c.raw.toList

/-- The first tick after the raw records in progress of a line. -/
def State.rawUntil (s : State) (l : Nat) : Nat :=
  ((List.range 16).map fun r => ((s.cap (16 * l + r)).raws.map fun x => x.last + 1).foldl max 0).foldl max 0

/-- A raw record that starts in tick `t` (R257). Its first tick is bounded by the history, and by the end of a raw record of the line
that is still in progress, of which it repeats no sample. -/
def State.rawStart (s : State) (k kind t : Nat) (context : Word) (units : Nat) (shot : Option (Nat × Nat)) (p : Plan) (r : Reduction) :
    RawCap :=
  let first := max (max (t - r.b) (s.cap k).histAt) (s.rawUntil (demodLine k))
  { first := first, last := t + r.a - 1 - r.b, short := decide (t - first < r.b), pre := t - first, context := context, units := units
    start := kind, pt := p.pt, shot := shot, full := s.noHalf k 1 (s.cap k).raw.toList.length }

/-- A start in tick `t` (R253): ignored in re-arm holdoff (R256), otherwise a capture; answers whether it started. `shot` is the
sequencer and the start tick of the shot whose MEASURE starts it. -/
def State.startCapture (k kind t : Nat) (context : Word) (units : Nat) (shot : Option (Nat × Nat)) (s : State) : Bool × State :=
  let c := s.cap k
  match c.active with
  | none => (false, s)
  | some p =>
    if p.start ≠ kind ∨ c.done_ ∨ !s.captureOpen then (false, s)
    else if (match c.holdUntil with
      | some u => decide (t < u)
      | none => false) then
      (false, (s.modCap k fun c => { c with heldOff := satAdd 16 c.heldOff 1 }).acqTrouble k 6)
    else
      let raw : Option RawCap := p.raw.map (s.rawStart k kind t context units shot p)
      (true, (s.modCap k fun c => { c with
        starts := c.starts + 1, holdUntil := some (t + p.minPeriod), done_ := kind == 2
        raw := if raw.isSome then raw else c.raw }).dropRecord k (raw.any (·.full)))

/-! ## Window reductions (R259, R260) -/

/-- The float32 pair of a complex value as one word. -/
def pairWord (i q : F32) : Word := (q.setWidth 64 <<< 32) ||| i.setWidth 64

/-- The datum of a window without a value (R260). -/
def missingWord : Word := pairWord fNaN fNaN

/-- A reduction's accumulator after one more window. -/
def Accum.add (a : Accum) (x : Datum) (data : Words) (bins : Sparse Nat) : Accum :=
  { n := a.n + 1, data := data, bins := bins
    first := if a.n = 0 then x.win.start else a.first
    sst := if a.n = 0 then x.win.sst else a.sst
    taint := a.taint || x.taint, outOfRange := a.outOfRange || x.outOfRange, missing := a.missing || x.missing }

/-- The running mean after the n-th window (R259). -/
def meanStep (n : Nat) : Words → Words → Words
  | a :: as_, z :: zs =>
    let f (a z : F32) : F32 := fAdd a (fDivNat (fSub z a) n)
    pairWord (f (lo32 a) (lo32 z)) (f (hi32 a) (hi32 z)) :: meanStep n as_ zs
  | as_, [] => as_
  | [], _ => []

/-- The 2,048 words of a histogram record. -/
def histWords (b : Sparse Nat) : Words :=
  (List.range 2048).map fun i => put 63 32 (Sparse.get 0 b (2 * i + 1)) ||| put 31 0 (Sparse.get 0 b (2 * i))

/-- Data words of a batch or dump record (Table 10.5). -/
def Accum.words (kind : Nat) (a : Accum) : Words := if kind = 5 then histWords a.bins else a.data

/-- The windows a batch or dump record takes (Table 10.5). -/
def Reduction.group (r : Reduction) : Nat := if r.kind = 6 then r.b else r.a

/-- The accumulator of a batch or dump reduction after a window (R259); a missing datum enters no histogram and no average, and
leaves MISSING (R260). -/
def Reduction.take (r : Reduction) (p : Plan) (x : Datum) (a : Accum) : Accum :=
  match r.kind with
  | 3 => a.add x (a.data ++ [match x.y with
      | some (i, q) => pairWord i q
      | none => missingWord]) []
  | 4 => a.add x (a.data ++ [x.packet]) []
  | 5 => match x.y with
    | none => { a with missing := true }
    | some (yi, yq) =>
      let b := 64 * fBin yq p.q0 p.sq + fBin yi p.i0 p.si
      a.add x [] (Sparse.set 0 a.bins b (satAdd 32 (Sparse.get 0 a.bins b) 1))
  | 6 => match x.y with
    | none => { a with missing := true }
    | some _ =>
      let base := if a.n = 0 then List.replicate r.a (0 : Word) else a.data
      a.add x (meanStep (a.n + 1) base (x.z.take ((x.win.len + 1) / 2))) []
  | _ => a

/-- The header of a batch or dump record. -/
def State.accHeader (s : State) (p : Plan) (r : Reduction) (a : Accum) : Header :=
  { kind := r.kind, start := p.start, taint := a.taint, outOfRange := a.outOfRange, missing := a.missing,
    tick := BitVec.ofNat 64 (s.cnt a.first), context := a.sst, aux := if r.kind = 5 ∨ r.kind = 6 then a.n else 0 }

/-- The header of a window's trace. -/
def State.traceHeader (s : State) (p : Plan) (x : Datum) : Header :=
  { kind := 2, start := p.start, taint := x.taint, outOfRange := x.outOfRange, missing := x.missing,
    tick := BitVec.ofNat 64 (s.cnt x.win.start), context := x.win.sst }

/-- The samples of a window's trace. -/
def Reduction.trace (r : Reduction) (x : Datum) : Words := x.z.take (min ((x.win.len + 1) / 2) r.a)

/-- Emit the record of reduction `i` and start afresh. -/
def State.flush (k i : Nat) (p : Plan) (r : Reduction) (s : State) : State :=
  let a := atN (s.cap k).acc i {}
  let s := if a.n = 0 then s else s.emit k a.full (s.accHeader p r a) (a.words r.kind)
  s.modCap k fun c => { c with acc := updN c.acc i fun _ => {} }

/-- Reduction `i` of the plan in force takes one window. The record of a batch or dump starts with its first window (R262). -/
def State.reduce (k : Nat) (p : Plan) (x : Datum) (i : Nat) (r : Reduction) (s : State) : State :=
  if r.kind = 2 then s.emit k x.win.full (s.traceHeader p x) (r.trace x) else
  let a := atN (s.cap k).acc i {}
  let b := r.take p x a
  let begins := decide (a.n = 0 ∧ b.n ≠ 0)
  let full := if begins then s.noHalf k r.kind 0 else a.full
  let s := (s.modCap k fun c => { c with acc := updN c.acc i fun _ => { b with full := full } }).dropRecord k (begins && full)
  if (atN (s.cap k).acc i {}).n = r.group then s.flush k i p r else s

/-- Emptied rings are freed, but for the newest of a plan in force and while data of the plan before are to come (R263). -/
def CapSlot.freeRings (busy : Bool) (c : CapSlot) : CapSlot :=
  let n := c.rings.length
  let keep := busy || c.rawLate != []
  { c with rings := (c.rings.zipIdx.filter fun (r, i) => r.words != 0 || keep || (c.active.isSome && i + 1 == n)).map (·.1) }

/-- A window's trace starts with the window (R262): whether it finds no free half of the reservation. -/
def State.traceFull (s : State) (k : Nat) : Bool :=
  ((s.cap k).active.any fun p => p.reds.any fun r => r.kind == 2) &&
    s.noHalf k 2 (((s.dm k).windows.filter fun w => w.capt && !w.full).length +
      ((s.ln (demodLine k)).values.filter fun v => v.slot == k && v.win.capt && !v.win.full).length)

/-- The slot's captured windows whose values are to come: open, or with a value in the line's value queue. -/
def State.valueless (s : State) (k : Nat) : List Nat :=
  (((s.dm k).windows.filter (·.capt)).map (·.start)) ++
    (((s.ln (demodLine k)).values.filter fun v => v.slot == k && v.win.capt).map (·.win.start))

/-- The slot's captured windows whose verdicts are to come, but for those of an estimator. -/
def State.verdictless (s : State) (k : Nat) : List Nat :=
  (if (s.dm k).active.est then [] else ((s.dm k).windows.filter (·.capt)).map (·.start)) ++
    (((s.ln (demodLine k)).words.filter fun x => x.slot == k && x.win.capt).map (·.win.start)) ++
    ((s.readout.absent.filter fun e => e.1 == k && e.2.1.capt).map (·.2.1.start))

/-- Data of a plan that has been replaced are to come. -/
def State.lateDue (s : State) (k : Nat) : Bool :=
  let c := s.cap k
  (s.valueless k ++ s.verdictless k ++ c.waiting.map (·.win.start) ++ c.verdicts.map (·.win.start)).any fun t => decide (t < c.planAt)

/-- A record of the plan before enters the ring of that plan (R254). -/
def CapSlot.late (k : Nat) (h : Header) (data : Words) (c : CapSlot) : CapSlot :=
  let x := mkRecord k (c.prevSeq % 2 ^ 26) h data
  let own := c.active.isSome && c.newRing
  let newest := if own then c.rings.drop (c.rings.length - 1) else []
  let older := if own then c.rings.dropLast else c.rings
  let y := ({ c with ready := [x], rings := older } : CapSlot).drain
  { c with rings := y.rings ++ newest, lostRead := y.lostRead, resync := y.resync, prevSeq := c.prevSeq + 1 }

/-- A window of the plan before, whose partial records were emitted when the plan was replaced, leaves a record of its own in
each reduction that `f` names. -/
def State.reduceLate (k : Nat) (p : Plan) (x : Datum) (r : Reduction) (s : State) : State :=
  if r.kind = 2 then (if x.win.full then s else s.modCap k fun c => c.late k (s.traceHeader p x) (r.trace x)) else
  let a := r.take p x {}
  if a.n = 0 then s else s.modCap k fun c => c.late k (s.accHeader p r a) (a.words r.kind)

/-- A datum enters the reductions of its plan that `f` names: of the plan in force where its window started from the apply tick
onward, else of the plan before (R254). -/
def State.enter (k : Nat) (f : Reduction → Bool) (x : Datum) (s : State) : State :=
  let c := s.cap k
  if c.planAt ≤ x.win.start then
    match c.active with
    | none => s
    | some p => p.reds.zipIdx.foldl (fun s (r, i) => if f r then s.reduce k p x i r else s) s
  else match c.prev with
    | none => s
    | some p =>
      let s := p.reds.foldl (fun s r => if f r then s.reduceLate k p x r else s) s
      s.modCap k (CapSlot.freeRings (s.lateDue k))

/-- Insert in window order. -/
def datumInsert (x : Datum) : List Datum → List Datum
  | [] => [x]
  | y :: l => if x.win.start < y.win.start then x :: y :: l else y :: datumInsert x l

/-- The data at the head that wait for no window in `due`. -/
def readyData (due : List Nat) (l : List Datum) : List Datum := l.takeWhile fun d => due.all fun t => decide (d.win.start < t)

/-- The value of a captured window enters the plan's reductions other than the verdict reduction, one datum per window in the
order of the windows (R259, R260). -/
def State.captureWindow (k : Nat) (x : Datum) (s : State) : State :=
  if x.win.capt then
    let l := datumInsert x (s.cap k).waiting
    let go := readyData (s.valueless k) l
    let s := s.modCap k fun c => { c with waiting := l.drop go.length }
    go.foldl (fun s d => s.enter k (fun r => r.kind != 4) d) s
  else s

/-- The verdict of a captured window enters the verdict reduction, as formed and in the order of the windows (Table 10.5). -/
def State.captureVerdict (k : Nat) (x : Datum) (s : State) : State :=
  if x.win.capt then
    let l := datumInsert x (s.cap k).verdicts
    let go := readyData (s.verdictless k) l
    let s := s.modCap k fun c => { c with verdicts := l.drop go.length }
    go.foldl (fun s d => s.enter k (fun r => r.kind == 4) d) s
  else s

/-! ## Applying a plan (R254, R263) -/

/-- The rings after a plan applies (R263): a plan with the RING of the plan that it replaces keeps the ring, another starts a
new one; an emptied old ring is freed unless data of the old plan are to come. -/
def ringsFor (keeps : Bool) (new : Plan) (busy : Bool) (l : List Ring) : List Ring :=
  if keeps then l else (l.filter fun r => r.words != 0 || busy) ++ [{ size := new.ring, addr := new.raddr }]

/-- A plan applies in tick `t` (R254): partial records of the old plan are emitted, the plan's counts start from zero
(R256, R258, R262, R263), the pre-trigger history starts afresh (R257). -/
def State.applyPlan (k t : Nat) (new : Option Plan) (s : State) : State :=
  let s := match (s.cap k).active with
    | none => s
    | some p => p.reds.zipIdx.foldl (fun s (r, i) => s.flush k i p r) s
  let s := { s with time := { s.time with events := s.time.events.filter fun e => e.what != AlmWhat.capture k } }
  let s := s.modCap k fun c => { c with planAt := t }
  let due := s.lateDue k
  let s := s.modCap k fun c =>
    -- The records of the old plan belong to the old ring; a raw record in progress completes under it.
    let c : CapSlot := (List.range c.ready.length).foldl (fun (c : CapSlot) _ => c.drain) c
    let c : CapSlot := { c with
      raw := none, rawLate := c.raws
      holdUntil := none, done_ := false, acc := Vector.replicate 4 {}
      prev := c.active, prevSeq := c.seqno, seqno := 0
      starts := 0, heldOff := 0, shortPre := 0, lost := 0, dropped := 0 }
    let busy := c.rawLate != [] || due
    match new with
    | none => { c with active := none, newRing := false, rings := c.rings.filter fun r => r.words != 0 || busy }
    | some p =>
      let keeps := c.active.any (fun q => q.ring == p.ring) && c.rings != []
      { c with active := some p, histAt := t, newRing := !keeps, rings := ringsFor keeps p busy c.rings }
  match new with
  | some p => if p.start = 2 then (s.armAlm (.capture k) p.at_).2 else s
  | none => s

/-! ## Verdicts (R160, R184, R198) -/

/-- A verdict packet (Table 8.1). -/
def mkVerdict (member line slot state : Nat) (valid absent taint : Bool) (sst : Word) : Word :=
  orAll [put 63 56 member, put 55 48 line, put 47 44 slot, put 43 42 state, putB 41 valid, putB 39 absent, putB 38 taint,
    put 37 0 sst.toNat]

/-- SRCDEV, LINE and SLOT of a packet. -/
def vSrc (w : Word) : Nat := fld w 63 56
/-- LINE. -/
def vLine (w : Word) : Nat := fld w 55 48
/-- SLOT. -/
def vSlot (w : Word) : Nat := fld w 47 44
/-- STATE. -/
def vState (w : Word) : Nat := fld w 43 42
/-- VALID. -/
def vValid (w : Word) : Bool := bitAt w 41
/-- ABSENT. -/
def vAbsent (w : Word) : Bool := bitAt w 39
/-- TAINTED. -/
def vTaint (w : Word) : Bool := bitAt w 38
/-- SHOTTICK. -/
def vTick (w : Word) : Nat := fld w 37 0

/-- SEL of a state (R227, R249). -/
def selBit (sel state : Nat) : Bool :=
  match sel with
  | 0 => state.testBit 0
  | 1 => state.testBit 1
  | _ => state != 0

/-- The shot of sequencer `q` that started in device tick `e` is Tainted (R63): TN now while it is the present or last shot, else as
it ended. -/
def State.shotTainted (s : State) (q e : Nat) : Bool :=
  let c := s.sq q
  (c.startAt == e && flagOf (s.flagsAt q s.now) flagTN) || c.tainted.contains e

/-- The shot of a window is Tainted (R63). -/
def State.taintOf (s : State) (w : Window) : Bool := s.shotTainted w.seq w.shot

/-- The lanes to a peer that carry its verdicts: the primary while UP, else the standby (R219). -/
def State.laneTo (s : State) (peer : Nat) : Option Nat :=
  let find (stby : Bool) : Option Nat := (List.range 16).find? fun n =>
    let l := s.lane n
    l.ent.used && l.ent.peer == peer && l.ent.stby == stby && decide (l.st = .up) && !l.relock
  match find false with
  | some n => some n
  | none => find true

/-- A block slot that is no check slot (R208). -/
def freeSlot (k : Nat) : Nat := if k % 16 = 15 then k + 1 else k

/-- The block slots in which queued verdicts launch, from slot `k` on (R206): the first free one that starts in a tick after the
verdict entered. -/
def launchSlots : Nat → List (Word × Nat) → List Nat
  | _, [] => []
  | k, (_, f) :: l => let j := freeSlot (max k ((f + 2) / 2)); j :: launchSlots (j + 1) l

/-- Insert a verdict by tick of entry, then LINE, then SLOT (R206). -/
def txInsert (x : Word × Nat) : List (Word × Nat) → List (Word × Nat)
  | [] => [x]
  | y :: l => if x.2 < y.2 ∨ (x.2 = y.2 ∧ fld x.1 55 44 < fld y.1 55 44) then x :: y :: l else y :: txInsert x l

/-- A verdict enters a lane's transmit queue of 64 in tick-counter value `f`, or is dropped (R206). -/
def State.laneSend (n : Nat) (packet : Word) (f : Nat) (s : State) : State :=
  let l := s.lane n
  -- A lane that is not UP, or runs LOCK again, launches nothing: what entered its queue is still there.
  let held := if l.st = .up ∧ !l.relock then ((launchSlots l.slot l.queue).filter fun j => decide (f < 2 * j)).length else l.queue.length
  if 64 ≤ held then (s.modLane n fun l => { l with drops := satAdd 16 l.drops 1 }).setTrouble 3 (48 + n)
  else s.modLane n fun l => { l with queue := txInsert (packet, f) l.queue }

/-- The primary lane to a peer (R218). -/
def State.primaryTo (s : State) (peer : Nat) : Option Nat :=
  (List.range 16).find? fun n => let l := s.lane n
    l.ent.used && l.ent.peer == peer && !l.ent.stby

/-- The lane in whose transmit queue a verdict formed in device tick `F` for a peer is placed (R201, R219): the primary while UP; else
the standby, from the frame after the primary went DOWN; with neither, the primary, whose queue keeps it. -/
def State.sendLane (s : State) (peer F : Nat) : Option Nat :=
  match s.laneTo peer with
  | none => s.primaryTo peer
  | some n =>
    let late := (List.range 16).any fun m =>
      let l := s.lane m
      l.ent.used && l.ent.peer == peer && !l.ent.stby && decide (s.cnt F / 32 ≤ s.cnt l.lostAt / 32 ∧ 0 < l.lostAt)
    if (s.lane n).ent.stby && late then s.primaryTo peer else some n

/-- A packet formed in hub tick `F` is sent to a Collection member over the lane that reaches it (R201, R203). -/
def State.sendTo (m F : Nat) (packet : Word) (s : State) : State :=
  match s.sendLane m F with
  | some n => s.laneSend n packet (s.cnt F)
  | none => s

/-- The verdict of a window of slot `k` is formed in tick `F` (R198): it is placed on the verdict buses, and enters a verdict
reduction. The send entry in force in tick F routes it then (R203, `State.sendOut`). -/
def State.formVerdict (k F : Nat) (w : Window) (packet : Word) (s : State) : State :=
  let s := s.captureVerdict k { win := w, taint := vTaint packet, outOfRange := w.outOfRange, missing := vAbsent packet, packet := packet }
  { s with fabric := { s.fabric with flight := s.fabric.flight ++
    [⟨packet, F, .cluster⟩, ⟨packet, F + 12, .die⟩, ⟨packet, F + 24, .device⟩] } }

/-! ## Latching (R199, R200, R202, R226, R249) -/

/-- The staleness test of R202: `(SST − SHOTTICK) mod 2^38` lies between AGE + 1 and 2^37 − 1. -/
def isStale (sst : Word) (packet : Word) (age : Nat) : Bool :=
  let d := (sst.toNat % 2 ^ 38 + 2 ^ 38 - vTick packet) % 2 ^ 38
  age != 65535 && decide (age + 1 ≤ d ∧ d ≤ 2 ^ 37 - 1)

/-- A verdict enters a port (R66, R76). -/
def Seq.latch (i : Nat) (packet : Word) (t : Nat) (q : Seq) : Seq :=
  let p := atN q.ports i {}
  if p.discard then
    { q with ports := updN q.ports i fun p => { p with discard := false }, lateVerdicts := satAdd 16 q.lateVerdicts 1 }
  else
    { q with ports := updN q.ports i fun p => { p with held := some (packet, t) }
             overruns := if p.held.isSome then satAdd 16 q.overruns 1 else q.overruns }

/-- The consumers of a cluster that a verdict in flight reaches now (Table 8.2). -/
def reaches (r : Reach) (line cluster : Nat) : Bool :=
  match r with
  | .cluster => cluster == lineCluster line
  | .die => cluster != lineCluster line && dieOf cluster == dieOf (lineCluster line)
  | .device => dieOf cluster != dieOf (lineCluster line)
  | .lane _ => true

/-- A verdict reaches sequencer `q` in tick-counter value `t`: its ports VP0 to VP7 (R200), VP8 to VP15 (R202) and its
gather inputs (R226). -/
def State.latchSeq (x : Flight) (t q : Nat) (s : State) : State :=
  let own := x.reach == .cluster
  let p := x.packet
  let isBound (b : Binding) : Bool :=
    match b with
    | .demod k => own && vSrc p == s.fabric.member && k.val == 16 * vLine p + vSlot p
    | _ => false
  let s := (List.range 8).foldl (fun s i =>
    let c := s.sq q
    if isBound (atN c.active i Binding.none) then
      if vTick p = c.sst.toNat % 2 ^ 38 then s.modSeq q (Seq.latch i p t)
      else s.modRoute q fun r => { r with stale := satAdd 16 r.stale 1 }
    else s) s
  let s := (List.range 8).foldl (fun s i =>
    let e := atN (atN s.fabric.route q {}).active i {}
    if e.en && e.smem == vSrc p && e.sline == vLine p && e.sslot == vSlot p then
      if isStale (s.sq q).sst p e.age then s.modRoute q fun r => { r with stale := satAdd 16 r.stale 1 }
      else s.modSeq q (Seq.latch (8 + i) p t)
    else s) s
  let m := s.mem q
  match m.active.view with
  | none => s
  | some v =>
    m.active.gather.zipIdx.foldl (fun s (g, i) =>
      if g.smem = vSrc p ∧ g.sline = vLine p ∧ g.sslot = vSlot p ∧ !isStale (s.sq q).sst p m.active.age then
        let m := s.mem q
        if atN m.discard i false then
          -- As R76 states for ports, the discarded verdict is counted (R226).
          (s.modMember q fun m => { m with discard := updN m.discard i fun _ => false }).modSeq q fun c =>
            { c with lateVerdicts := satAdd 16 c.lateVerdicts 1 }
        else
          let full := (atN m.inputs i none).isSome
          let s := s.modMember q fun m => { m with inputs := updN m.inputs i fun _ => some (p, t) }
          if full then s.modView v.val fun w => { w with overruns := satAdd 16 w.overruns 1 } else s
      else s) s

/-- A verdict arrives at the verdict selects (R249): in tick F + 24, or two ticks after it is readable. -/
def State.latchSelects (x : Flight) (s : State) : State :=
  let at_ : Bool := match x.reach with
    | .device => true
    | .lane _ => true
    | _ => false
  if !at_ then s else
  let p := x.packet
  let s := s.svSync
  (List.range 16).foldl (fun s j =>
    let e := atN s.acq.select (10 + j) {}
    if e.en && e.smem == vSrc p && e.sline == vLine p && e.sslot == vSlot p && vValid p && !vAbsent p
        && (selBit e.sel (vState p) != e.inv) then
      { s with acq := { s.acq with verdictAt := updN s.acq.verdictAt j fun _ => some x.at_ } }
    else s) s

/-- In its formation tick a verdict is placed in the transmit queues that the send entry of its slot, in force in that tick, names
(R201, R203). -/
def State.sendOut (x : Flight) (s : State) : State :=
  if x.reach ≠ .cluster then s else
  let mask := (atN s.fabric.send (16 * vLine x.packet + vSlot x.packet) {}).active
  (List.range 16).foldl (fun s m => if mask.toNat.testBit m then s.sendTo m x.at_ x.packet else s) s

/-- The verdict in flight whose latch tick is the earliest. -/
def earliest : List Flight → Option Flight
  | [] => none
  | x :: l => match earliest l with
    | none => some x
    | some y => if x.at_ ≤ y.at_ then some x else some y

/-- VERDICT_LATCH: the earliest verdict in flight reaches its consumers in its latch tick (R199); in its formation tick it also goes to
the members its send entry names (R201). -/
def execVerdictLatch (s : State) : Res :=
  match earliest s.fabric.flight with
  | none => .next s
  | some x =>
    let s := s.runTo x.at_
    let s := { s with fabric := { s.fabric with flight := s.fabric.flight.erase x } }
    let t := s.cnt x.at_
    let qs := (List.range 256).filter fun q => reaches x.reach (vLine x.packet) (seqCluster q)
    .next (((qs.foldl (fun s q => s.latchSeq x t q) s).latchSelects x).sendOut x)

end Sys2Proof.Machine
end

