-- ==== Sys2Proof/Machine/TrimOps.lean ====
section
/-!
DEFINITION. Machine/TrimOps.lean: the trim elements of Table 14.1, which of their values in force follow the target at once
(R347, R348), and what ends every calibration run early (R356).
-/
namespace Sys2Proof.Machine

/-- Elements of a class (Table 14.1). -/
def classSize (cls : Nat) : Nat := if cls ≤ 1 then 24 else if cls ≤ 3 then 8 else if cls = 4 then 64 else 1

/-- The output of element `i` of class 0 or 1 of a die (Table 14.1). -/
def calOut (d cls i : Nat) : Nat :=
  if cls = 0 then (if i < 16 then 16 * d + i else 64 + 8 * d + (i - 16))
  else
    let k := 2 * d + i / 12
    let t := i % 12
    if t < 8 then 8 * k + t else 64 + 4 * k + (t - 8)

/-- Cluster of an element of an RF class. -/
def calCluster (d cls i : Nat) : Nat := if cls ≤ 1 then outCluster (calOut d cls i) else lineCluster (8 * d + i)

/-- Change the calibration side of a die. -/
def State.modCal (d : Nat) (f : CalDie → CalDie) (s : State) : State := { s with cal := { s.cal with die := updN s.cal.die d f } }
/-- The calibration side of a die. -/
def State.calOf (s : State) (d : Nat) : CalDie := atN s.cal.die d {}
/-- No slot of the output is bound in any active or sealed set (R129). -/
def State.outUnbound (s : State) (o : Nat) : Bool :=
  !(slotsOfOut o).any fun b => s.seqs.seq.toList.any fun c => c.active.toList.contains b || c.sealed_.any fun x => x.binds.toList.contains b

/-- The demodulation slot of a line and a slot number. -/
def demodBinding (l r : Nat) : Binding := if h : 16 * l + r < 512 then .demod ⟨16 * l + r, h⟩ else .none

/-- Some slot of the line is bound in an active or sealed set (R150). -/
def State.lineBound (s : State) (l : Nat) : Bool :=
  s.seqs.seq.toList.any fun c => (List.range 16).any fun r =>
    c.active.toList.contains (demodBinding l r) || c.sealed_.any fun x => x.binds.toList.contains (demodBinding l r)

/-- Use of a cluster's spare DAC core. -/
def State.dacSpare (s : State) (k : Nat) : SpareUse := atN s.synth.spare k .free
/-- Change the use of a cluster's spare DAC core. -/
def State.setDacSpare (k : Nat) (u : SpareUse) (s : State) : State :=
  { s with synth := { s.synth with spare := updN s.synth.spare k fun _ => u } }
/-- Use of a cluster's spare ADC core. -/
def State.adcSpare (s : State) (k : Nat) : SpareUse := atN s.readout.spare k .free
/-- Change the use of a cluster's spare ADC core. -/
def State.setAdcSpare (k : Nat) (u : SpareUse) (s : State) : State :=
  { s with readout := { s.readout with spare := updN s.readout.spare k fun _ => u } }

/-! ## Values in force -/

/-- Address of a trim word: die, class, index, range, point (5 is the value in force). -/
def trimAddr (d c i r p : Nat) : Nat := (((d * 8 + c) * 64 + i) * 4 + r) * 8 + p

/-- The core of a class-0 or class-2 element is disconnected from the balls in a planned swap: its old values stay in force
until it is reconnected (R350). -/
def State.swappedOut (s : State) (d c i : Nat) : Bool :=
  if c = 0 then decide (s.dacSpare (calCluster d c i) = .covering (calOut d c i))
  else if c = 2 then decide (s.adcSpare (calCluster d c i) = .covering (8 * d + i))
  else false

/-- The values in force of an element follow their target at once: an RF element of which no slot is bound, an OFF bias
channel, the housekeeping ADC (R347, R348); not a core that a planned swap has disconnected (R350). -/
def State.trimFree (s : State) (d c i : Nat) : Bool :=
  if s.swappedOut d c i then false
  else if c ≤ 1 then s.outUnbound (calOut d c i)
  else if c ≤ 3 then !s.lineBound (8 * d + i)
  else if c = 4 then decide ((s.ch (64 * d + i)).st = .off)
  else true

/-- The elements whose values follow at once have their target in force. It runs before a slot is bound and before a channel
is enabled. -/
def State.settleTrims (s : State) : State :=
  let keep (e : Nat × Option Word) : Bool := !s.trimFree (e.1 / 16384) (e.1 / 2048 % 8) (e.1 / 32 % 64)
  { s with cal := { s.cal with inForce := s.cal.inForce.filter keep } }

/-- Every remainder of the die is zero: the end of a trim application raises the calibration vector (R348, Table 12.8). -/
def State.trimCheck (d : Nat) (s : State) : State :=
  let s := s.settleTrims
  if (s.calOf d).applying && s.cal.inForce.all fun e => e.1 / 16384 != d then
    (s.modCal d fun c => { c with applying := false }).raise 10
  else s

/-! ## Trim words (Table 14.2) -/

/-- A field of a trim word: its bits, and whether it is signed. -/
structure TrimField where
  hi : Nat
  lo : Nat
  signed : Bool

/-- Fields of a trim word of a class: GAIN, PHASE, DELAY, ENVDLY and OFFSET of an RF class; GAIN and OFFSET else. -/
def trimFields (c : Nat) : List TrimField :=
  if c ≤ 3 then [⟨63, 48, true⟩, ⟨47, 32, true⟩, ⟨31, 19, false⟩, ⟨18, 11, true⟩, ⟨10, 0, true⟩] else [⟨63, 40, true⟩, ⟨39, 16, true⟩]

/-- Step limits of the fields (Table 14.3). -/
def trimLimits (c : Nat) : List Int := if c ≤ 3 then [50, 10, 1, 1, 1] else [100, 64]

/-- Value of a field. -/
def TrimField.get (f : TrimField) (w : Word) : Int := if f.signed then sfld w f.hi f.lo else (fld w f.hi f.lo : Int)

/-- The format of a field holds a value. -/
def TrimField.fits (f : TrimField) (v : Int) : Bool :=
  let m : Int := (2 : Int) ^ (f.hi - f.lo)
  if f.signed then decide (-m ≤ v ∧ v < m) else decide (0 ≤ v ∧ v < 2 * m)

/-- The fields of a word as numbers. -/
def trimGet (c : Nat) (w : Word) : List Int := (trimFields c).map fun f => f.get w

/-- The word of given fields. -/
def trimPut (c : Nat) (l : List Int) : Word := orAll (((trimFields c).zip l).map fun (f, v) => putS f.hi f.lo v)

/-- The sum of a word and differences, field by field. A field that its format cannot hold takes a value that the manual does
not state (R352). -/
def trimAdd (c : Nat) (open_ w : Word) (l : List Int) : Word :=
  orAll (((trimFields c).zip l).map fun (f, x) =>
    let v := f.get w + x
    if f.fits v then putS f.hi f.lo v else put f.hi f.lo (fld open_ f.hi f.lo))

/-- The word of a point: the factory word where none has been written (R344). -/
def State.trimPoint (s : State) (d c i r p : Nat) : Word :=
  (Sparse.get none s.cal.active (trimAddr d c i r p)).getD (Config.factoryTrim (trimAddr d c i r p))

/-- T clamped to 40 to 100 °C, in 1/16 °C (R345). -/
def clampT (t : Frac) : Frac := if t.num ≤ 640 * t.den then ⟨640, 1⟩ else if 1600 * t.den ≤ t.num then ⟨1600, 1⟩ else t

/-- Interpolation of a field between the points of the segment from 40 + 15·p °C, to the nearest unit (R345). -/
def interpolate (t : Frac) (p : Nat) (a b : Int) : Int :=
  (⟨a * (240 * t.den) + (b - a) * (t.num - (640 + 240 * p) * t.den), 240 * t.den⟩ : Frac).round

/-- The segment of T. -/
def segment (t : Frac) : Nat := min 3 ((t.num / t.den - 640) / 240).toNat

/-- The target of an element (R345). -/
def State.target (s : State) (d c i r : Nat) : Word :=
  let t := clampT (s.calOf d).temp
  let p := segment t
  trimPut c (((trimGet c (s.trimPoint d c i r p)).zip (trimGet c (s.trimPoint d c i r (p + 1)))).map fun (a, b) => interpolate t p a b)

/-- The value in force of an element (R346). -/
def State.inForceOf (s : State) (d c i r : Nat) : Word :=
  if s.trimFree d c i then s.target d c i r
  else (Sparse.get none s.cal.inForce (trimAddr d c i r 5)).getD (s.target d c i r)

/-- The code that a channel's resistor string receives (R267, R342): the trim in force maps each code through a gain, in 0.1 ppm about the
zero code, and an offset, in 1/64 code. The manual gives no formula: the gain acts about the zero code, the result is rounded to the
nearest and stays in the code range (DESIGN CHOICE). -/
def State.stringCode (s : State) (b : Nat) (code : Nat) : Nat :=
  match trimGet 4 (s.inForceOf (b / 64) 4 (b % 64) (s.ch b).range) with
  | [g, o] =>
    let v := (⟨((code : Int) - 131072) * (10000000 + g) * 64 + o * 10000000, 640000000⟩ : Frac).round + 131072
    (max 0 (min v 262143)).toNat
  | _ => code

/-! ## Early end of a run (R356) -/

/-- A spare that waits for a planned swap is released. -/
def SpareUse.unready (u : SpareUse) : SpareUse :=
  match u with
  | .preparing _ _ => .free
  | .ready _ _ => .free
  | u => u

/-- The run of a die ends early: no further element starts; a core behind its spare waits for the swap back (R356). -/
def State.calStop (d status : Nat) (s : State) : State :=
  match (s.calOf d).run with
  | none => s
  | some r =>
    let s := match r.left with
      | (4, i, _) :: _ => s.modChan (64 * d + i) fun c => { c with measured := false }
      | _ => s
    let s := s.modCal d fun c => { c with run := some { r with left := [], measured := true, early := some status } }
    [2 * d, 2 * d + 1].foldl (fun s k => (s.setDacSpare k (s.dacSpare k).unready).setAdcSpare k (s.adcSpare k).unready) s

/-- Every run ends early. -/
def State.calStopAll (status : Nat) (s : State) : State := (List.range 4).foldl (fun s d => s.calStop d status) s

end Sys2Proof.Machine
end

