-- ==== Sys2Proof/Machine/Signal.lean ====
section
/-!
DEFINITION. Machine/Signal.lean: what leaves a DAC core: the carrier of a slot (R107 to R110), the resampled envelope (R103,
R104), the output sample of a slot and of a compensation copy (R108, R109, R113, R114), the summer, gain and saturation (R112),
the count of limited samples, and the instant of a sample (R42). Values are exact integers over one common full scale; the taps,
the sine table and K, whose values the manual does not give, are constants of Config.
-/
namespace Sys2Proof.Machine

/-! ## Carrier (R107, R108, R110) -/

/-- The phase accumulator at DAC sample `n` since the epoch: the coherent-reset rule (R107). -/
def accumulator (ftw : BitVec 48) (n : Nat) : BitVec 48 := BitVec.ofNat 48 (ftw.toNat * n)

/-- The carrier phase in units of 2^-32 turn (R108). -/
def carrierPhase (ftw : BitVec 48) (foff : BitVec 32) (n : Nat) : BitVec 32 := (accumulator ftw n >>> 16).setWidth 32 + foff

/-- The carrier values before the newest that some sample from `keep` on still uses. -/
def carriersFrom (keep : Nat) : List Carrier → List Carrier
  | [] => []
  | c :: l => if c.start ≤ keep then [c] else c :: carriersFrom keep l

/-- New carrier values from DAC sample `n` on (R101, R110); samples before `keep` have left. -/
def Slot.tune (keep n : Nat) (ftw : BitVec 48) (foff : BitVec 32) (x : Slot) : Slot :=
  { x with ftw := ftw, foff := foff, since := n
           past := carriersFrom keep ({ start := x.since, ftw := x.ftw, foff := x.foff } :: x.past) }

/-- The carrier values in force at DAC sample `n`. -/
def Slot.carrierAt (x : Slot) (n : Nat) : BitVec 48 × BitVec 32 :=
  if x.since ≤ n then (x.ftw, x.foff) else
  match x.past.find? fun c => decide (c.start ≤ n) with
  | some c => (c.ftw, c.foff)
  | none => (x.ftw, x.foff)

/-- The phase accumulator of a slot at DAC sample `n` of the device, where the epoch is DAC sample `epoch` (R107). -/
def Slot.acc (epoch : Nat) (x : Slot) (n : Nat) : BitVec 48 := accumulator (x.carrierAt n).1 (n - epoch)
/-- The carrier phase of a slot at DAC sample `n` of the device, where the epoch is DAC sample `epoch` (R108). -/
def Slot.theta (epoch : Nat) (x : Slot) (n : Nat) : BitVec 32 := (Slot.acc epoch x n >>> 16).setWidth 32 + (x.carrierAt n).2

/-- Sine in the first quadrant at `w` of 2^22 parts of it, in units of 2^-30 (R108): the table entry of bits [29:18], with the
first-order correction of bits [17:8]. -/
def quarterSine (w : Nat) : Int :=
  if w = 0 then 0 else if w = 2 ^ 22 then 2 ^ 30
  else Config.quarterWave (w / 1024) + Config.quarterSlope (w / 1024) * (w % 1024 : Nat)

/-- Cosine and sine of a phase (R108): bits [31:30] select the quadrant, bits [7:0] are not used. -/
def cosSin (theta : BitVec 32) : Int × Int :=
  let w := theta.toNat / 256 % 2 ^ 22
  let up := quarterSine w
  let down := quarterSine (2 ^ 22 - w)
  match theta.toNat / 2 ^ 30 with
  | 0 => (down, up)
  | 1 => (-up, down)
  | 2 => (-down, -up)
  | _ => (up, -down)

/-- K of a frequency word in units of 2^-30 (R109): 1.0 at DC. -/
def sincK (ftw : BitVec 48) : Int := if ftw = 0 then 2 ^ 30 else Config.sincFactor ftw

/-! ## Envelope (R103, R104) -/

/-- The envelope position of DAC sample `j` of a folio, in units of 2^-24 envelope samples (R103). -/
def envelopePos (rate j : Nat) : Nat := j * rate

/-- Tap `k` of the 16 from ⌊p⌋ − 7 to ⌊p⌋ + 8 at a fraction of `p` (R104): its bits [23:14] select the phase, and bits [13:0]
interpolate to the next phase. In units of 2^-34. -/
def resamplerCoef (frac : Nat) (k : Int) : Int :=
  let tap (phase : Int) : Int := Config.resamplerTap (1024 * k - phase).natAbs
  let phase : Int := (frac / 2 ^ 14 : Nat)
  let w : Int := (frac % 2 ^ 14 : Nat)
  tap phase * (2 ^ 14 - w) + tap (phase + 1) * w

/-- One of the two samples of a folio word (Table 5.1). -/
def wordSample (w : Word) (odd : Bool) : Int × Int := if odd then (sfld w 47 32, sfld w 63 48) else (sfld w 15 0, sfld w 31 16)

/-- Sample `m` of a folio (Table 5.1); zero outside 0 to N − 1 (R103). -/
def Folio.sample (f : Folio) (m : Int) : Int × Int :=
  if m < 0 ∨ (f.n : Int) ≤ m then (0, 0) else wordSample (Sparse.get 0 f.data (m.toNat / 2)) (decide (m.toNat % 2 = 1))

/-- The envelope at position `p` in units of 2^-24 samples, from a reading of the samples (R104); in units of 2^-34. -/
def resample (sample : Int → Int × Int) (p : Int) : Int × Int :=
  let i := p / 2 ^ 24
  let frac := (p % 2 ^ 24).toNat
  (List.range 16).foldl (fun (a : Int × Int) (t : Nat) =>
    let k : Int := (t : Int) - 7
    let c := resamplerCoef frac k
    let x := sample (i + k)
    (a.1 + c * x.1, a.2 + c * x.2)) (0, 0)

/-! ## What plays on a slot -/

/-- Index of a drive or probe slot as the source of a copy: probe slots follow the 512 drive slots. -/
def Binding.srcIndex : Binding → Option Nat
  | .drive i => some i.val
  | .probe i => some (512 + i.val)
  | _ => Option.none

/-- The folio has DAC sample `n`: the sample's number from the start of its repetition, and the repetition. -/
def Playing.at_ (p : Playing) (n : Nat) : Option (Nat × Nat) :=
  if p.start ≤ n ∧ p.stopAt.all (fun e => decide (n < e)) ∧ (p.rep ∨ n < p.start + p.len) then
    some ((n - p.start) % p.len, (n - p.start) / p.len)
  else none

/-- The folio that plays on a slot at DAC sample `n`. -/
def Slot.playsAt (x : Slot) (n : Nat) : Option (Playing × Nat × Nat) :=
  (x.playing.toList ++ x.ended).findSome? fun p => (p.at_ n).map fun j => (p, j)

/-- A folio starts on a slot (R70): the one before ends at that sample. -/
def Slot.play (p : Playing) (x : Slot) : Slot :=
  { x with playing := some p
           ended := match x.playing with
             | some y => [{ y with stopAt := some (min (y.stopAt.getD p.start) p.start) }]
             | none => [] }

/-- The sequencer and binding index that a slot has in an active set. -/
def State.playerOf (s : State) (b : Binding) : Option (Nat × Nat) :=
  (List.range 256).findSome? fun q => ((s.sq q).active.toList.findIdx? fun x => x == b).map fun i => (q, i)

/-- The two halves of the window of binding `i` of sequencer `q` in the Shelf of its die (R142). -/
def State.windowRuns (s : State) (q i : Nat) : List ShelfRun :=
  (s.shelfOf (dieOf (seqCluster q))).runs.filter fun r => r.use == .window q i (s.plansOf q).active.serial

/-- The place in the die's Shelf, counted in samples, from which sample `m` of a folio plays on binding `i` of sequencer `q`: a pin,
else the head, else the half of the binding's window that holds it. -/
def State.shelfPlace (s : State) (q i folio m : Nat) : Option Nat :=
  let runs := (s.shelfOf (dieOf (seqCluster q))).runs
  match runs.find? fun r => r.placed && r.use == .pin folio with
  | some r => some (64 * r.addr + m)
  | none =>
    if m < (s.folio folio).head then (runs.find? fun r => r.use == .head folio).map fun r => 64 * r.addr + m else
    let w := atN (s.plansOf q).wins i {}
    let half (h : WinHalf) : Bool := decide (h.first ≤ m ∧ m < h.first + 64 * h.asked)
    match s.windowRuns q i with
    | [a, b] =>
      if half w.a then some (64 * a.addr + (m - w.a.first)) else if half w.b then some (64 * b.addr + (m - w.b.first)) else none
    | _ => none

/-- Sample `m` of a folio that streams on binding `i` lies in a granule of a window half that is not valid (R146). -/
def State.invalid (s : State) (q i : Nat) (p : Playing) (rep m : Nat) : Bool :=
  match s.streaming q i with
  | none => false
  | some (x, _, _) =>
    let w := (atN (s.plansOf q).wins i {}).at_ x.start
    let bad (h : WinHalf) : Bool :=
      let g := (m - h.first) / 64
      decide (h.first ≤ m ∧ g < h.asked) && (decide (h.landed ≤ g) || h.bad.contains g)
    decide (x.start = p.start ∧ w.rep = rep) && (bad w.a || bad w.b)

/-- Sample `m` of what plays on a slot: a granule that was not valid (R146) and a Shelf word in error (R141) play as zero, and a word
that a raw write has put into the Shelf plays as it stands (R404). -/
def State.played (s : State) (b : Binding) (p : Playing) (rep : Nat) (m : Int) : Int × Int :=
  let lost := p.lost.any fun g => g.1 == rep && decide ((g.2 : Int) ≤ m ∧ m < g.2 + 64)
  let f := s.folio p.folio
  match s.playerOf b with
  | none => if lost then (0, 0) else f.sample m
  | some (q, i) =>
    if lost || s.invalid q i p rep m.toNat then (0, 0) else
    match (if m < 0 ∨ (f.n : Int) ≤ m then none else s.shelfPlace q i p.folio m.toNat) with
    | none => f.sample m
    | some x =>
      let h := s.shelfOf (dieOf (seqCluster q))
      if h.bad.contains (x / 64, x % 64 / 2) then (0, 0) else
      match Sparse.get none h.raw (x / 2) with
      | some w => wordSample w (decide (x % 2 = 1))
      | none => f.sample m

/-! ## Trims of an output (R342) -/

/-- The trim word in force of the core that serves an output (R342, R346). -/
def State.outTrim (s : State) (o : Nat) : Word :=
  if (s.out o).onSpare then
    let k := outCluster o
    let t := if o < 64 then o % 8 else 8 + (o - 64) % 4
    s.inForceOf (outDie o) 1 (12 * (k % 2) + t) 0
  else s.inForceOf (outDie o) 0 (outIndex o) 0

/-- The trim word in force of the core that serves a line (R342, R346). -/
def State.lineTrim (s : State) (l : Nat) : Word :=
  s.inForceOf (l / 8) (if (s.ln l).onSpare then 3 else 2) (l % 8) 0

/-- A phase trim of `v` units of 0.1 mrad in units of 2^-32 turn, to the nearest (R342, Table 14.2). -/
def phaseTurns (v : Int) : BitVec 32 :=
  BitVec.ofInt 32 (⟨v * 2 ^ 32 * 10 ^ 16, 2 * 314159265358979323846⟩ : Frac).round

/-- DELAY of a trim word, in units of 0.25 ps (Table 14.2). -/
def trimDelay (w : Word) : Nat := fld w 31 19

/-- The instant of DAC sample `n`, counted from the epoch, at an output, in units of 0.25 ps from the epoch (R42): its tick and
sub-tick, the output's delay trim and the device's phase correction. -/
def State.outInstant (s : State) (o n : Nat) : Int := 250 * (n : Int) + trimDelay (s.outTrim o) + 4 * s.time.phaseCorr

/-- The instant of a timed action with stamp `t` of the tick counter and sub-tick `sub` at an output (R42). -/
def State.actionInstant (s : State) (o t sub : Nat) : Int := s.outInstant o (16 * t + sub)

/-- The instant of ADC sample `m` of a line, in units of 0.25 ps from the epoch (R42, R151): 8 samples a tick, and the line's delay
trim. -/
def State.lineInstant (s : State) (l m : Nat) : Int := 500 * (m : Int) + trimDelay (s.lineTrim l) + 4 * s.time.phaseCorr

/-! ## Output samples (R108, R109, R113, R114) -/

/-- One full scale in the units of a sample: AMP, K, envelope, sine and 32,767. -/
def slotScale : Int := 2 ^ 15 * 2 ^ 30 * 2 ^ 34 * 2 ^ 30 * 32767

/-- The complex signal of a tone slot at DAC sample `n` (R108, R113), over `slotScale`: zero with ROLE off, without a folio and under
a hold-mute or the mute of a parity error. The trims of the output's core add to the phase, but for baseband mode, and move the
envelope (R342). -/
def State.slotSignal (s : State) (b : Binding) (n : Nat) : Int × Int :=
  let x := s.slotOf b
  if x.active.role ≠ .tone ∨ x.hold ∨ x.parity then (0, 0) else
  match x.playsAt n with
  | none => (0, 0)
  | some (p, j, rep) =>
    let o := b.out.getD 0
    let trim := s.outTrim o
    let rate := (s.folio p.folio).rate
    let pos : Int := (envelopePos rate j : Int) - sfld trim 18 11 * rate / 250
    let (i, q) := resample (s.played b p rep) pos
    let ftw := (x.carrierAt n).1
    let (c, d) := cosSin (x.theta (16 * s.time.zeroAt) n + (if (s.out o).baseband then 0 else phaseTurns (sfld trim 47 32)))
    let k := (x.active.amp.toNat : Int) * (if x.active.sinc then sincK ftw else 2 ^ 30)
    (k * (i * c - q * d), k * (i * d + q * c))

/-- The slot that a source number names. -/
def srcBinding (n : Nat) : Binding :=
  if h : n < 512 then .drive ⟨n, h⟩ else if h : n - 512 < 512 then .probe ⟨n - 512, h⟩ else .none

/-- Output of a source number. -/
def srcOut (n : Nat) : Nat := if n < 512 then n / 8 else 64 + (n - 512) / 16

/-- The output gives differential zero at DAC sample `n`: a cause mutes it, and it does not ramp down (R118, R119). -/
def Output.silent (o : Output) (n : Nat) : Bool :=
  o.muted && !(o.ramping.any fun r => !r.up && decide (n < 16 * (r.at_ + r.len)))

/-- A finite float32 in units of 2^-149. -/
def F32.units (a : F32) : Int :=
  match a.read with
  | .fin neg m e => scaled neg m e (-149)
  | _ => 0

/-- One full scale in the units of the summer: a sample times a coefficient in units of 2^-149. -/
def fullScale : Int := slotScale * 2 ^ 149

/-- What a slot contributes to its output at DAC sample `n`, over `fullScale`: s(n) of a tone (R108), c(n) of a copy (R113), which
is zero while its source is zero or the source's output is muted (R114). -/
def State.contribution (s : State) (b : Binding) (n : Nat) : Int :=
  let a := (s.slotOf b).active
  match a.role with
  | .off => 0
  | .tone => (s.slotSignal b n).1 * 2 ^ 149
  | .copy =>
    if (s.out (srcOut a.src)).silent n then 0 else
    let z := s.slotSignal (srcBinding a.src) n
    F32.units a.re * z.1 - F32.units a.im * z.2

/-! ## Summer, gain and saturation (R112, R119) -/

/-- A number held within ± `m`; answers whether it was limited. -/
def held (m v : Int) : Int × Bool := if v > m then (m, true) else if v < -m then (-m, true) else (v, false)

/-- The partial sums of an output, in the order of its slots, each held at the summer's range: ±8 full scales on a drive output, ±16
on a probe output (R112). -/
def summer (o : Nat) (l : List Int) : Int × Bool :=
  l.foldl (fun (a, lim) x => let (v, h) := held ((if o < 64 then 8 else 16) * fullScale) (a + x); (v, lim || h)) (0, false)

/-- The part of GAIN in force at DAC sample `n`, as numerator and denominator: a ramp is linear over its ticks (R119). -/
def Output.gainPart (o : Output) (n : Nat) : Nat × Nat :=
  match o.ramping with
  | none => if o.muted then (0, 1) else (1, 1)
  | some r =>
    let d := min (n - 16 * r.at_) (16 * r.len)
    if r.len = 0 then (if r.up then (1, 1) else (0, 1))
    else if r.up then (r.num * (16 * r.len) + (r.den - r.num) * d, r.den * (16 * r.len))
    else (r.num * (16 * r.len - d), r.den * (16 * r.len))

/-- The code of an output at DAC sample `n`, and whether the summer or sat16 limited it (R112). A mute replaces the code with zero;
the summer runs on behind it. -/
def State.codeAt (s : State) (o n : Nat) : Int × Bool :=
  let x := s.out o
  let (sum, lim) := summer o ((slotsOfOut o).map fun b => s.contribution b n)
  if x.silent n then (0, lim) else
  let (num, den) := x.gainPart n
  let v := (⟨32767 * x.active.gain.toNat * num * sum, (32768 * den : Nat) * fullScale.toNat⟩ : Frac).round + toSigned 16 x.active.offset.toNat
  if v > 32767 then (32767, true) else if v < -32768 then (-32768, true) else (v, lim)

/-- A slot gives a signal from DAC sample `n` on, as far as what plays now tells. -/
def State.sounds (s : State) (b : Binding) (n : Nat) : Bool :=
  let x := s.slotOf b
  decide (x.active.role = .tone) && (x.playing.toList ++ x.ended).any fun p =>
    p.stopAt.all (fun e => decide (n < e)) && (p.rep || decide (n < p.start + p.len))

/-- The code of an output may change at DAC sample `n` or later without a command: a slot or a source of it plays, or its gain
ramps. -/
def State.moving (s : State) (o n : Nat) : Bool :=
  ((s.out o).ramping.any fun r => decide (n < 16 * (r.at_ + r.len))) ||
  (slotsOfOut o).any fun b =>
    let a := (s.slotOf b).active
    match a.role with
    | .off => false
    | .tone => s.sounds b n
    | .copy => s.sounds (srcBinding a.src) n

/-- One more sample of an output, with its code and whether it was limited. -/
def Output.hears (n : Nat) (c : Int × Bool) (o : Output) : Output :=
  { o with code := c.1, constFrom := if c.1 = o.code then o.constFrom else n
           clips := satAdd 16 o.clips (b2n c.2), clipDue := o.clipDue || (c.2 && o.clips == 0) }

/-- The code of an output none of whose slots plays: OFFSET, or zero behind a mute (R112). -/
def Output.restCode (n : Nat) (o : Output) : Int := if o.silent n then 0 else toSigned 16 o.active.offset.toNat

/-- The codes of an output up to DAC sample `n` are formed with the settings of now, and its limited samples counted (R112). It runs
before anything that an output depends on changes. -/
def State.hear (n o : Nat) (s : State) : State :=
  let x := s.out o
  if n ≤ x.heardTo then s else
  if s.moving o x.heardTo then
    s.modOut o fun y => { (List.range (n - x.heardTo)).foldl (fun y i => y.hears (x.heardTo + i) (s.codeAt o (x.heardTo + i))) y with heardTo := n }
  else s.modOut o fun y => { y.hears x.heardTo (y.restCode x.heardTo, false) with heardTo := n }

/-- The outputs of a cluster. -/
def clusterOuts (k : Nat) : List Nat := (List.range 8).map (8 * k + ·) ++ (List.range 4).map (64 + 4 * k + ·)

/-- The codes of every output of a cluster up to device tick `t`: a slot is summed into outputs of its own cluster only (R114). -/
def State.hearCluster (t k : Nat) (s : State) : State := (clusterOuts k).foldl (fun s o => s.hear (16 * t) o) s

/-- The codes of every output of a die up to now. -/
def State.hearDie (d : Nat) (s : State) : State := (s.hearCluster s.now (2 * d)).hearCluster s.now (2 * d + 1)

/-- The output-clip trouble bit of an output with a limited sample that has not been reported (R112). -/
def State.clipReport (o : Nat) (s : State) : State :=
  if (s.out o).clipDue then
    let s := s.modOut o fun x => { x with clipDue := false }
    (s.outOwners o).eraseDups.foldl (fun s w => s.raiseVf (w.val + 1) 0) (s.setTrouble (dieWord (outDie o)) 9)
  else s

/-- The trouble bits of the outputs of a cluster (R112). -/
def State.clipReports (k : Nat) (s : State) : State := (clusterOuts k).foldl (fun s o => s.clipReport o) s

/-- Change the mute causes of an output; the samples before are formed without the change. -/
def State.muting (o : Nat) (f : Output → Output) (s : State) : State := (s.hearCluster s.now (outCluster o)).muteBy o f

/-- The codes of every output up to now. -/
def State.hearEvery (s : State) : State := (List.range 8).foldl (fun s k => s.hearCluster s.now k) s

/-- Change the mute causes of every output. -/
def State.mutingAll (f : Output → Output) (s : State) : State := (List.range 96).foldl (fun s o => s.muteBy o f) s.hearEvery

/-- Every RF output takes or loses the unlock mute (R118). -/
def State.unlockAll (b : Bool) (s : State) : State := s.mutingAll fun x => { x with unlock := b }

/-- The codes of every output up to now, and the trouble bits of limited samples. -/
def State.hearAll (s : State) : State :=
  (List.range 8).foldl (fun s k => s.clipReports k) s.hearEvery

end Sys2Proof.Machine
end

