-- ==== Sys2Proof/Machine/SeqOps.lean ====
section
/-!
DEFINITION. Machine/SeqOps.lean: what happens to a sequencer between its instructions: issue, loops and branches, program
faults and aborts (Table 3.11), shot starts (R62, R85), shot boundaries (R25, R86, R88), and the application of a sealed set
to the sequencer and the elements bound to it (R26).
-/
namespace Sys2Proof.Machine

/-! ## Registers and flags -/

/-- Read a G register; G0 reads zero (Table 3.1). -/
def Seq.reg (q : Seq) (n : Nat) : Word := if n = 0 then 0 else atN q.g n 0
/-- Write a G register; a write to G0 is discarded. -/
def Seq.setReg (n : Nat) (v : Word) (q : Seq) : Seq := if n = 0 then q else { q with g := updN q.g n fun _ => v }
/-- Set or clear a flag of F. -/
def Seq.flag (n : Nat) (b : Bool) (q : Seq) : Seq := { q with f := setFlag q.f n b }
/-- The sequencer is in a shot (R25). -/
def Seq.inShot (q : Seq) : Bool := decide (q.mode = .running) || q.stepping
/-- A late or colliding cue (R63, R68, R70). -/
def Seq.late (q : Seq) : Seq := { (q.flag flagLC true).flag flagTN true with lateCues := satAdd 16 q.lateCues 1 }

/-! ## Aborts (R84, Table 3.11) -/

/-- Trouble bits of a sequencer's cluster: bit `b` with the sequencer's SEQ_MASK bit (Table 16.6), a record, vector 3. -/
def State.seqTrouble (q b : Nat) (code : Nat) (s : State) : State :=
  let w := clusterWord (seqCluster q)
  (((s.troubleOwned w b (s.seqOwner q)).troubleOwned w (32 + q % 32) (s.seqOwner q)).note
    (seqRec q (BitVec.ofNat 32 code))).raiseOwned 3 (s.seqOwner q)

/-- The shot of `q` is aborted in tick-counter value `a` with a fault code (Table 3.11): issue stops, and the code and the PC
are recorded; SEQ_ABORT is set, and SEQ_SPARE as well for a miscompare (Table 16.6). The cut of tick a + 5 and the boundary of tick a + 6 are events of their own. -/
def State.abortSeq (q a code : Nat) (rearm : Bool) (s : State) : State :=
  let c := s.sq q
  if !c.inShot ∨ c.abort.isSome then s else
  let s := s.runToCount a
  let s := s.modSeq q fun c => { c with
    abort := some { at_ := a, code := code, cut := false, rearm := rearm }, stall := .none, fault := code, faultPc := c.pc }
  let s := if code = 1 then s.troubleOwned (clusterWord (seqCluster q)) 1 (s.seqOwner q) else s
  s.seqTrouble q 0 code

/-! ## Program flow (R64, R82) -/

/-- The address after `pc`; a PC has 12 bits (Table 3.1). -/
def pcNext (pc : Nat) : Nat := (pc + 1) % 4096

/-- The PC after an instruction at `pc` that does not branch: the end of an innermost loop entered at this call depth goes
back to its start while passes remain, and ends it otherwise; then the enclosing loop is looked at. -/
def loopNext (depth pc : Nat) : List LoopEnt → Nat × List LoopEnt
  | [] => (pcNext pc, [])
  | l :: rest =>
    if l.stop = pc ∧ l.depth = depth then
      if 1 < l.left then (l.start, { l with left := l.left - 1 } :: rest) else loopNext depth pc rest
    else (pcNext pc, l :: rest)

/-- The loops that a taken branch to `target` leaves open (R82). -/
def loopPop (depth target : Nat) : List LoopEnt → List LoopEnt
  | [] => []
  | l :: rest => if l.depth = depth ∧ (target < l.start ∨ l.stop < target) then loopPop depth target rest else l :: rest

/-- The next instruction is at `pc`, in tick `i + 1`; a PC outside the live range is a program fault with code 5 (R84). -/
def State.goto (q i pc : Nat) (loops : List LoopEnt) (s : State) : State :=
  let s := s.modSeq q fun c => { c with pc := pc, loops := loops, nextIssue := i + 1, stall := .none }
  let c := s.sq q
  if c.entry ≤ pc ∧ pc ≤ c.limit then s else s.abortSeq q (i + 1) 5 false

/-- The instruction ends in tick `i` and falls through. -/
def State.fall (q i : Nat) (s : State) : State :=
  let c := s.sq q
  let (pc, loops) := loopNext c.calls.length c.pc c.loops
  s.goto q i pc loops

/-- The instruction ends in tick `i` with a taken branch. -/
def State.jump (q i target : Nat) (s : State) : State :=
  let c := s.sq q
  s.goto q i target (loopPop c.calls.length target c.loops)

/-! ## Shelf runs that a copy no longer needs (R145, R157) -/

/-- Free the kernel granules of a slot that none of its copies holds (R157). -/
def State.freeKernels (k : Nat) (s : State) : State :=
  let d := s.dm k
  let live := (d.shadow :: d.active :: d.sealed_.toList).filterMap fun x => if x.kernel = [] then none else some x.kaddr
  let die := dieOf (lineCluster (demodLine k))
  s.modShelf die fun sh => { sh with runs := sh.runs.filter fun r =>
    match r.use with
    | .kernel k' => k' != k || live.contains r.addr
    | _ => true }

/-- A stream plan of some sequencer of the die lists the folio. -/
def State.listed (s : State) (die folio : Nat) : Bool :=
  (List.range 64).any fun i =>
    let p := s.plansOf (64 * die + i)
    (p.shadow :: p.active :: p.sealed_.toList).any fun x => x.list.any fun e => e.2 == folio

/-- Free the windows that no plan of a sequencer uses, and the heads that no plan of the die lists (R145). -/
def State.freeStreams (q : Nat) (s : State) : State :=
  let p := s.plansOf q
  let live := (p.shadow :: p.active :: p.sealed_.toList).map (·.serial)
  let die := dieOf (seqCluster q)
  s.modShelf die fun sh => { sh with runs := sh.runs.filter fun r =>
    match r.use with
    | .window q' _ n => q' != q || live.contains n
    | .head f => s.listed die f || s.pinned die f
    | _ => true }

/-! ## Sealed sets (R26) -/

/-- All drive and probe slots. -/
def allSlots : List Binding := ((List.finRange 512).map Binding.drive) ++ (List.finRange 512).map Binding.probe

/-- Change every drive and probe slot. -/
def State.mapSlots (f : Slot → Slot) (s : State) : State :=
  { s with synth := { s.synth with drive := s.synth.drive.map f, probe := s.synth.probe.map f } }

/-- A compensation copy of one of the slots listed. -/
def SlotSet.copyOf (l : List Nat) (x : SlotSet) : Bool := decide (x.role = .copy) && l.contains x.src

/-- Settings `x` of a slot with the settings `a` in force are a copy of a source in `new`, or end a copy of a source in `old`
(R129). -/
def SlotSet.copyTurn (new old : List Nat) (a x : SlotSet) : Bool := x.copyOf new || (decide (x.role ≠ .copy) && a.copyOf old)

/-- Seal the shadow copies of a bound element (R26). GAIN and OFFSET of an output belong to the ARM that seals them first
(R129). -/
def State.sealSlot (q : Nat) (b : Binding) (s : State) : State :=
  match b with
  | .demod k =>
    let s := s.modDemod k.val fun d => { d with sealed_ := some d.shadow }
    let s := s.modSend k.val fun e => { e with sealed_ := some e.shadow }
    s.modCap k.val fun c => match c.shadow with
      | none => c
      | some p => { c with shadow := none, sealed_ := some p }
  | .none => s
  | b =>
    let s := s.modSlot b fun x => { x with sealed_ := some x.shadow }
    match b.out with
    | some o => s.modOut o fun x => if x.sealed_.isSome then x else { x with sealed_ := some x.shadow, sealedBy := some q }
    | none => s

/-- Apply the sealed copies of an element bound to sequencer `q` in device tick `t` (R26, R129, R168, R203, R254). GAIN and OFFSET
apply at the boundary of the sequencer whose ARM sealed them first; the carrier follows with the base values of the next shot
(R111). -/
def State.applySlot (q t : Nat) (b : Binding) (s : State) : State :=
  match b with
  | .demod k =>
    let s := s.modDemod k.val fun d => { d with active := d.sealed_.getD d.active, sealed_ := none }
    let s := s.modSend k.val fun e => { e with active := e.sealed_.getD e.active, sealed_ := none }
    let s := match (s.cap k.val).sealed_ with
      | none => s
      | some p => (s.applyPlan k.val t p).modCap k.val fun c => { c with sealed_ := none }
    s.freeKernels k.val
  | .none => s
  | b =>
    let s := s.modSlot b fun x => { x with active := x.sealed_.getD x.active, sealed_ := none }
    match b.out with
    | some o => s.modOut o fun x =>
        if x.sealedBy = some q then { x with active := x.sealed_.getD x.active, sealed_ := none, sealedBy := none } else x
    | none => s

/-- A slot that an ARM unbinds: its hold-mute is released (R84), nothing plays on it, and it gives zero (R129). -/
def State.unbindSlot (b : Binding) (s : State) : State :=
  match b with
  | .demod k =>
    let s := s.modDemod k.val fun d => { d with active := {} }
    (s.modSend k.val fun e => { e with active := 0 }).freeKernels k.val
  | b => s.modSlot b fun x => { x with active := {}, hold := false, parity := false, playing := none, ended := [] }

/-- The end of a commit of view `v` (R238): a record with the commit's tag and acceptance number, vectors 5 and 12. -/
def State.commitEnd (v status : Nat) (s : State) : State :=
  match s.host.open_.find? fun o => o.opcode == 0x0903 && fld (wordAt o.packet.payload 0) 61 58 == v with
  | some o => (s.endLong o status 12 { element := 11, number := v }).raiseOwned 5 (s.vw v).owner
  | none => s

/-- The view's landing is complete when no member is left on the old bank (R236): the old active region becomes the
shadow, and the view enters COPYING or STEADY. -/
def State.checkLanded (v : Nat) (t : Nat) (s : State) : State :=
  let w := s.vw v
  let waits := (List.range 256).any fun q =>
    let m := s.mem q
    decide (m.active.view.map (·.val) = some v) && !m.landed
  if w.st = .swapping ∧ !waits then
    let s := s.modView v fun w => { w with
      bank1 := !w.bank1, lastCommit := 1, since := t
      st := if w.copyback then .copying else .steady }
    if w.copyback then s else s.commitEnd v 0
  else s

/-- Member `q` lands in device tick `t` (R236): its bank selector changes, and source 51 has its event. -/
def State.land (q t : Nat) (s : State) : State :=
  let m := s.mem q
  match m.active.view with
  | none => s
  | some v =>
    if (s.vw v.val).st = .swapping ∧ !m.landed then
      let s := s.modMember q fun m => { m with bank1 := !(s.vw v.val).bank1, landed := true }
      let c := s.cnt t
      let s := s.modView v.val fun w => { w with lastLanding := BitVec.ofNat 64 c }
      let s := s.modSeq q fun x =>
        let x := if x.start == some (.source 51) && x.mode != .armed then { x with missed := satAdd 16 x.missed 1 } else x
        let x := { x with landedAt := some t }
        match x.stall with
        | .wait w word mask hit =>
          if bitAt mask 51 then
            { x with stall := .wait w word mask (match hit with
                | none => some (c, put 51 51 1)
                | some (c', v) => if c' = c then some (c', v ||| put 51 51 1) else some (c', v)) }
          else x
        | _ => x
      s.checkLanded v.val t
    else s

/-- The Concordance membership of a sealed set applies (R224, R236, R242). -/
def State.applyMember (q t : Nat) (s : State) : State :=
  let m := s.mem q
  match m.sealed_ with
  | none => s
  | some n =>
    let stays := decide (n.view = m.active.view)
    let bank := match n.view with
      | none => false
      | some v => if stays then m.bank1 else if (s.vw v.val).st = .swapping then !(s.vw v.val).bank1 else (s.vw v.val).bank1
    let old := m.active.view
    let s := s.modMember q fun m => { m with
      active := n, sealed_ := none, bank1 := bank, landed := if stays then m.landed else true }
    match old with
    | some v => if stays then s else s.checkLanded v.val t
    | none => s

/-- The sealed set of `q` applies in device tick `t` (R26): its bindings, live range, start source and counts, and the sealed
copies of every element bound to it. The sequencer's mode is the caller's. -/
def State.applySet (q t : Nat) (s : State) : State :=
  let c := s.sq q
  match c.sealed_ with
  | none => s
  | some set =>
    let new := set.binds.toList
    let old := c.active.toList
    let s := s.hearCluster t (seqCluster q)
    let s := c.active.toList.foldl (fun s b => if new.contains b then s else s.unbindSlot b) s
    let s := s.modSeq q fun c => { c with
      active := set.binds, entry := set.entry, limit := set.limit, start := set.start, shotsDone := 0
      shotsLeft := if set.shots = 0 then none else some set.shots
      maxlen := set.maxlen, sealed_ := none }
    let s := new.foldl (fun s b => s.applySlot q t b) s
    let srcs := new.filterMap Binding.srcIndex
    let s := s.mapSlots fun x => match x.sealed_ with
      | some a => if a.copyTurn srcs (srcs ++ old.filterMap Binding.srcIndex) x.active then { x with active := a, sealed_ := none } else x
      | none => x
    let s := s.modRoute q fun r => { r with active := r.sealed_.getD r.active, sealed_ := none }
    let s := s.modPlans q fun p => { p with active := p.sealed_.getD p.active, sealed_ := none }
    (s.freeStreams q).applyMember q t

/-! ## Partitions and holds that wait for sequencers (R372, R373) -/

/-- Every sequencer of the partition is IDLE or FAILED. -/
def State.partIdle (s : State) (p : Nat) : Bool :=
  (List.range 256).all fun q => (s.seqOwner q).val != p || decide ((s.sq q).mode = .idle ∨ (s.sq q).mode = .failed)

/-- A HOLDING partition becomes HELD in the tick in which its last sequencer becomes IDLE or FAILED (R372, R373). -/
def State.partCheck (p : Nat) (s : State) : State :=
  let x := atN s.parts.part p {}
  if x.st = .holding ∧ s.partIdle p then
    let s := { s with parts := { s.parts with part := updN s.parts.part p fun x =>
      { x with st := .held, timeoutAt := none, heldTick := s.tick.setWidth 32 } } }
    ((s.note (evRec 10 p)).raise 12).raiseVf (p + 1) 12
  else s

/-- A sequencer becomes IDLE or FAILED. -/
def State.setIdle (q : Nat) (m : SeqMode) (s : State) : State :=
  (s.modSeq q fun c => { c with mode := m }).partCheck (s.seqOwner q).val

/-! ## Start and boundary of a shot -/

/-- At the start of a shot in device tick `e` the base values come back on a bound slot, in force from the first sample of tick
e + 52, and its hold-mute is released (R84, R111). -/
def Slot.fresh (e : Nat) (x : Slot) : Slot :=
  { x.tune (16 * e) (16 * (e + 52)) x.active.ftw x.active.foff with hold := false, playing := none, ended := [] }

/-- A shot of `q` starts in device tick `e` (R62, R85): snapshot, PC, T, SST, flags, stacks, ports and gather inputs. -/
def State.startShot (q e : Nat) (step : Bool) (s : State) : State :=
  let c := s.sq q
  let t := s.cnt e
  let s := s.hearCluster e (seqCluster q)
  let s := s.modSeq q fun c => { c with
    mode := if step then .debugHalted else .running, stepping := step, startAt := e, snap := c.g, pc := c.entry, t := BitVec.ofNat 64 t, sst := BitVec.ofNat 64 t, f := 0, lv := 0
    calls := [], loops := [], ports := Vector.replicate 16 {}, cues := [], stall := .none, nextIssue := t + 1, ended := none
    lastTick := t, tails := Vector.replicate 8 none, latest := Vector.replicate 8 none, stops := Vector.replicate 8 none
    abort := none, lastSst := BitVec.ofNat 64 t, parityMute := false, shotsLeft := c.shotsLeft.map (· - 1) }
  let s := c.active.toList.foldl (fun s b => s.modSlot b (Slot.fresh e)) s
  s.modMember q fun m => { m with inputs := Vector.replicate 21 none, discard := Vector.replicate 21 false }

/-- The last tick of a folio placed on a binding, counted in ticks (R25). -/
def Placed.lastTick (p : Placed) (stop : Option Nat) : Nat :=
  match stop with
  | some n => (n - 1) / 16
  | none => (p.start + p.len - 1) / 16

/-- The boundary tick of a shot that has ended (R25): the tick after the later of END and the last tick of the last timed
action. -/
def Seq.boundary (c : Seq) (e : Ended) : Nat :=
  ((List.range 8).foldl (fun m i =>
    match atN c.latest i none with
    | some p => max m (p.lastTick (atN c.stops i none))
    | none => m) (max e.at_ c.lastTick)) + 1

/-- The sequencer would be armed again at this boundary (R86). -/
def Seq.rearms (c : Seq) : Bool :=
  c.shotsLeft != some 0 && (match c.ended with
    | some e => !e.last
    | none => true)

/-- Bound slots lose the parity mute of R17 at the shot boundary. -/
def State.clearParity (q : Nat) (s : State) : State :=
  (s.sq q).active.toList.foldl (fun s b => s.modSlot b fun x => { x with parity := false }) s

/-- A program word of the sequencer waits to be rewritten (R93). -/
def State.repairDue (s : State) (q : Nat) : Bool :=
  s.units.repairs.any fun r => match r with
    | .seqProgram n _ => n == q
    | _ => false

/-- What a sequencer becomes at a shot boundary in device tick `t`. `ab` is the abort that ended the shot.

A sealed set that waits for no Almanac event applies (R26). With it the sequencer is armed, unless a halt accepted after its SEQ_ARM
takes effect here (R88); without it where R86 arms it again, no halt takes effect, and the shot was not ended by a program fault.
A miscompare connects the spare pair first, and the sequencer is armed once G0 to G31 are restored, or becomes FAILED where
the spare already serves another pair (R91, R92); a program word in error is rewritten first (R93); a debug halt or step keeps the
sequencer DEBUG-HALTED (R89). -/
def State.endShot (q t : Nat) (ab : Option Abort) (s : State) : State :=
  let s := (s.settleAll q t).hearCluster t (seqCluster q)
  let c := s.sq q
  let halt := match c.haltWait, c.holdWait with
    | some a, some b => some (if a.toNat < b.toNat then b else a)
    | a, none => a
    | none, b => b
  let code : Nat := (ab.map (·.code)).getD 0
  let s := s.modSeq q fun c => { c with
    gBound := c.g, cues := [], stall := .none, abort := none, haltWait := none, holdWait := none
    tainted := if flagOf c.f flagTN then c.startAt :: c.tainted else c.tainted
    shotsDone := if ab.isNone then c.shotsDone + 1 else c.shotsDone, lastHalt := halt.getD c.lastHalt }
  let s := s.clearParity q
  let s := s.land q t
  let rearm := (s.sq q).rearms
  let s := s.modSeq q fun c => { c with ended := none, mode := .idle, stepping := false }
  let halted := halt.isSome || code == 8
  let keep := rearm && !halted && ab.all (·.rearm)
  let last := (s.sq q).lastHalt.toNat
  let want : Bool := match c.sealed_ with
    | some set => if set.waitAlm then keep else !(halted && decide (set.accept.toNat ≤ last))
    | none => keep
  let s := if c.sealed_.any fun x => !x.waitAlm then s.applySet q t else s
  let s :=
    if code = 1 then
      if (atN s.seqs.spare (seqCluster q) none).isSome then (s.setIdle q .failed).seqTrouble q 2 1
      else
        let s := { s with seqs := { s.seqs with spare := updN s.seqs.spare (seqCluster q) fun _ => some q } }
        let s := s.modSeq q fun c => { c with onSpare := true, retired := true, restore := some (t, want) }
        if want then s else s.setIdle q .idle
    else if code = 2 ∧ s.repairDue q then
      let s := s.modSeq q fun c => { c with rearmDue := want }
      if want then s else s.setIdle q .idle
    else if c.debugWait || c.stepping then
      s.modSeq q fun c => { c with mode := .debugHalted, debugWait := false, rearmDue := want }
    else if want then s.modSeq q fun c => { c with mode := .armed, armedAt := t }
    else s.setIdle q .idle
  s.clipReports (seqCluster q)

/-- The start source of a sequencer has an event in the present tick. -/
def State.eventNow (s : State) (q : Nat) : Bool :=
  match (s.sq q).start with
  | some (.source n) =>
    (if n.val = 51 then (s.sq q).landedAt else atN s.seqs.events n.val none) == some s.now
  | _ => false

/-- A halt executes (R88): in boundary mode, or in abort mode with code 8, for one sequencer; `acc` is the acceptance number
of the command. An armed sequencer is disarmed, and an event of its start source in this tick counts as a missed start. A shot that
is already being aborted goes on to its boundary, where the halt takes effect. -/
def State.haltSeq (q : Nat) (abortMode : Bool) (acc : BitVec 32) (s : State) : State :=
  let c := s.sq q
  match (if c.stepping then .running else c.mode) with
  | .armed =>
    let miss := s.eventNow q
    (s.modSeq q fun c => { c with lastHalt := acc, missed := if miss then satAdd 16 c.missed 1 else c.missed }).setIdle q .idle
  | .running =>
    if abortMode && c.abort.isNone then (s.modSeq q fun c => { c with lastHalt := acc }).abortSeq q (s.cnt s.now) 8 false
    else s.modSeq q fun c => { c with haltWait := some acc }
  | .debugHalted =>
    (s.modSeq q fun c => { c with lastHalt := acc, rearmDue := false }).setIdle q .idle
  | .idle => s.modSeq q fun c => { c with lastHalt := acc, rearmDue := false, restore := c.restore.map fun r => (r.1, false) }
  | .failed => s

/-- A sequencer is armed or running. -/
def State.anySeqLive (s : State) : Bool :=
  s.seqs.seq.toList.any fun c => decide (c.mode = .armed) || c.inShot

/-- The sealed set of a sequencer outside a shot applies at once, and the sequencer is armed (R26), unless a halt accepted after its
SEQ_ARM has taken effect (R88). One that restores G0 to G31 or waits for a program word is armed after that (R91, R93). -/
def State.applyIdle (q : Nat) (s : State) : State :=
  let c := s.sq q
  match c.sealed_ with
  | none => s
  | some set =>
    if c.inShot then s else
    let s := s.applySet q s.now
    if c.mode = .failed then s
    else if set.accept.toNat ≤ c.lastHalt.toNat then s.setIdle q .idle
    else if c.restore.isSome then s.modSeq q fun c => { c with restore := c.restore.map fun r => (r.1, true) }
    else if s.repairDue q then s.modSeq q fun c => { c with rearmDue := true }
    else s.modSeq q fun c => { c with mode := .armed, armedAt := s.now, rearmDue := false }

end Sys2Proof.Machine
end

