-- ==== Sys2Proof/Machine/BiasOps.lean ====
section
/-!
DEFINITION. Machine/BiasOps.lean: level changes of a bias channel (R272, R273), its code queue (R274, R275), and trips and
releases of window monitors (R279 to R284).
-/
namespace Sys2Proof.Machine

/-- CODE of a zero output (R266). -/
def zeroCode : Nat := 0x20000

/-- Die of a channel, and of a monitor: MB0–MB255 by channel, ML0–ML31 by line. -/
def chanDie (b : Nat) : Nat := b / 64
/-- Die of a monitor. -/
def monDie (m : Nat) : Nat := if m < 256 then m / 64 else (m - 256) / 8

/-- Owner of a channel. -/
def State.chanOwner (s : State) (b : Nat) : Fin 8 := atN s.parts.bias b 0

/-- A record about a channel. -/
def chanRec (b : Nat) (detail : BitVec 32) : LedgerRec := evRec 4 b detail (chanDie b) (b / 32)
/-- A record about a monitor. -/
def monRec (m : Nat) (detail : BitVec 32) : LedgerRec := evRec 5 m detail (monDie m) (monCluster m)

/-! ## Ranges (R266, R267, Table 11.1) -/

/-- What shapes the level changes of a range. -/
inductive Shaper where
  | slew
  | deglitch
deriving DecidableEq, Repr

/-- What is monitored in a range, and what limits its output stage (Table 11.1). -/
inductive Monitored where
  | current
  | voltage
deriving DecidableEq, Repr

/-- A bias range (Table 11.1). Full scale FS and threshold full scale TFS are in nA of a current range and in µV of the ±5 V range;
the limit is the compliance in mV of a current range and the current limit in µA of the ±5 V range. -/
structure BiasRange where
  fs : Nat
  tfs : Nat
  shaper : Shaper
  quantity : Monitored
  limit : Nat
deriving DecidableEq, Repr

/-- The row of Table 11.1 of a RANGE code. -/
def biasRange (r : Nat) : BiasRange :=
  match r with
  | 0 => { fs := 2500000, tfs := 3200000, shaper := .slew, quantity := .current, limit := 6000 }
  | 1 => { fs := 10000000, tfs := 12800000, shaper := .deglitch, quantity := .current, limit := 6000 }
  | _ => { fs := 5000000, tfs := 6400000, shaper := .slew, quantity := .voltage, limit := 12000 }

/-- The output of a code in a range (R266), FS × (CODE − 131,072) ÷ 131,072, as multiple of 1 ÷ 131,072 nA or µV. One code is FS of
them: the LSB of Table 11.1. -/
def BiasRange.output (r : BiasRange) (code : Nat) : Int := (r.fs : Int) * ((code : Int) - 131072)

/-- The output of a channel (R266, R268): zero through 1 MΩ while it is OFF. -/
def Chan.output (c : Chan) : Int := if c.st = .off then 0 else (biasRange c.range).output c.code

/-- The threshold of a monitor at a code: of an MB monitor in nA or µV by the range of its channel, CODE × TFS ÷ 1,024; of an ML
monitor in units of 0.5 µV, CODE × 1.5625 mV (R278). -/
def State.threshold (s : State) (m code : Nat) : Nat :=
  if m < 256 then code * (biasRange (s.ch m).range).tfs / 1024 else code * 3125

/-- The trip level TH (R278). -/
def State.tripLevel (s : State) (m : Nat) : Nat := s.threshold m (s.monOf m).code
/-- The release level (R278), never below zero. -/
def State.releaseLevel (s : State) (m : Nat) : Nat := s.threshold m ((s.monOf m).code - (s.monOf m).hys)

/-- |x| of an MB monitor where the rules give it, in the unit of its threshold: zero of an OFF channel (R278), else the magnitude of
the programmed output, unless the output stage stands at its limit. The input of an ML monitor is not given. -/
def State.monInput (s : State) (m : Nat) : Option Nat :=
  if m < 256 ∧ (s.ch m).limitAt.isNone then some ((s.ch m).output.natAbs / 131072) else none

/-! ## Level changes -/

/-- A target arrives in tick `t` (R272, R273): the slew limiter starts a fresh interval; in the ±10 mA range the deglitcher
lets a change within one tap through and holds a major transition for 250 ns. A frozen channel takes none (R268). -/
def Chan.setTarget (t v : Nat) (c : Chan) : Chan :=
  if c.frozen then c
  else if (biasRange c.range).shaper = .deglitch then
    match c.hold with
    | some (e, _) => { c with target := v, hold := some (e, v) }
    | none => if c.code / 512 = v / 512 then { c with target := v, code := v } else { c with target := v, hold := some (t + 250, v) }
  else { c with target := v, slewAt := t }

/-- The state goes to SHUTTING with target zero (R270). -/
def Chan.off (t : Nat) (c : Chan) : Chan :=
  match c.st with
  | .off => { c with frozen := false, run := .idle }
  | .shutting => { c with frozen := false, run := .idle }
  | .on => { ({ c with frozen := false } : Chan).setTarget t zeroCode with st := .shutting, run := .idle, zeroAt := none }

/-- FROZEN is set unless the channel is SHUTTING (R268, R270, Table 11.2): a running hold drops its pending step (R279), and the queue
stops. -/
def Chan.freeze (c : Chan) : Chan := if c.st = .shutting then c else { c with frozen := true, hold := none, run := .idle }

/-- The queue of a channel starts in tick `t` (R275): entry 0 becomes the target. -/
def Chan.startQueue (t : Nat) (c : Chan) : Chan :=
  match c.codes with
  | [] => { c with run := .idle }
  | v :: l => { (if c.st = .on then c.setTarget t v else c) with run := if l = [] ∧ !c.loop then .idle else .running t 1 }

/-! ## Monitors -/

/-- Outputs that a map names on a die (R280). -/
def mapOuts (d : Nat) (dm : BitVec 16) (pm : BitVec 8) : List Nat :=
  ((List.range 16).filterMap fun i => if dm.toNat.testBit i then some (16 * d + i) else none)
    ++ (List.range 8).filterMap fun i => if pm.toNat.testBit i then some (64 + 8 * d + i) else none

/-- The outputs that the trip in force of a monitor mutes. -/
def State.monOuts (s : State) (m : Nat) : List Nat := let x := s.monOf m; mapOuts (monDie m) x.tripD x.tripP

/-- A shot in progress drives the output. -/
def State.outInShot (s : State) (o : Nat) : Bool :=
  s.seqs.seq.toList.any fun c => c.inShot && c.active.toList.any fun b => b.out == some o

/-- Some other tripped monitor mutes the output (R281). -/
def State.otherTrip (s : State) (m o : Nat) : Bool :=
  (List.range 288).any fun n => n != m && (s.monOf n).tripped && (s.monOuts n).contains o

/-- Some tripped monitor mutes the output. -/
def State.tripOn (s : State) (o : Nat) : Bool := (List.range 288).any fun n => (s.monOf n).tripped && (s.monOuts n).contains o

/-- The monitor is tripped in tick `t` and mutes its map (Table 11.2). -/
def State.startTripped (m t : Nat) (s : State) : State :=
  let s := s.modMon m fun x => { x with tripped := true, copy := true, copyAt := t, tripD := x.dmap, tripP := x.pmap, blankAt := t }
  (s.monOuts m).foldl (fun s o => s.muting o fun x => { x with trip := true }) s

/-- Owner of a monitor: of its channel, or of its line where one partition owns it. -/
def State.monOwner (s : State) (m : Nat) : Option (Fin 8) := if m < 256 then some (s.chanOwner m) else s.lineOwner (m - 256)

/-- Raise a vector of an element that may have no single owner. -/
def State.raiseMaybe (v : Nat) (o : Option (Fin 8)) (s : State) : State :=
  match o with
  | some p => s.raiseOwned v p
  | none => s.raise v

/-- A waiting Almanac start of a channel's queue is withdrawn. -/
def State.dropQueueStart (b : Nat) (s : State) : State :=
  { s with time := { s.time with events := s.time.events.filter fun e => e.what != AlmWhat.biasQueue b } }

/-- Every channel acts as under BIAS_CONFIG off (R270). -/
def State.allChansOff (s : State) : State :=
  let events := s.time.events.filter fun e => match e.what with
    | .biasQueue _ => false
    | _ => true
  { s with time := { s.time with events := events }, bias := { s.bias with chan := s.bias.chan.map (Chan.off s.now) } }

/-- A channel is frozen, and a waiting start of its queue is withdrawn (R268, R279). -/
def State.freezeChan (b : Nat) (s : State) : State :=
  let s := if (s.ch b).st = .shutting then s else s.dropQueueStart b
  s.modChan b Chan.freeze

/-- The synchronized copy of a monitor's trip, which showed `was`, follows a change in tick `t` 4 ticks later than a synchronized input
follows its ball, which takes up to 4 ticks (R23, Table 1.4). Answers the tick. -/
def State.copyTrip (m t : Nat) (was : Bool) (s : State) : Nat × State :=
  let (d, s) := s.drawWord
  let at_ := t + 4 + d.toNat % 5
  (at_, s.modMon m fun x => { x with copy := was, copyAt := at_ })

/-- A trip in tick `t` (Table 11.2): mutes, freeze, count, tick, trouble bit, record, vector 8. The record carries the tick in which
the synchronized copy of the trip arrives (R23). Where a mapped output drives a shot, G3 yields to G1 (Table 15.2). -/
def State.trip (m t : Nat) (s : State) : State :=
  let was := (s.monOf m).seen t
  let s := s.svSync.startTripped m t
  let (at_, s) := s.copyTrip m t was
  let s := if (s.monOf m).frz ∧ m < 256 then s.freezeChan m else s
  let s := s.modMon m fun x => { x with trips := satAdd 14 x.trips 1, lastTrip := BitVec.ofNat 32 (s.cnt t) }
  let s := match s.monOwner m with
    | some p => s.troubleOwned (dieWord (monDie m)) 6 p
    | none => s.setTrouble (dieWord (monDie m)) 6
  let s := (s.noteDated ((s.runTo at_).dated (monRec m 1))).raiseMaybe 8 (s.monOwner m)
  if m < 256 ∧ (s.monOuts m).any s.outInShot then s.yields 1 3 else s

/-- The monitor's trip cause is withdrawn (R281, R283): an output that no tripped monitor mutes any longer releases, or stays
muted under TRIPLATCH = 1 (R122). -/
def State.untrip (m : Nat) (s : State) : State :=
  let outs := s.monOuts m
  let was := (s.monOf m).seen s.now
  let s := s.svSync.modMon m fun x => { x with tripped := false, tripD := 0, tripP := 0 }
  let s := (s.copyTrip m s.now was).2
  outs.foldl (fun s o =>
    if s.otherTrip m o then s
    else s.muting o fun x => { x with trip := false, latched := x.latched || x.tripLatch }) s

end Sys2Proof.Machine
end

