-- ==== Sys2Proof/Machine/Hooks.lean ====
section
/-!
DEFINITION. Machine/Hooks.lean: what the timebase does to other units: unlock mutes (R34, R58), the mark on TIO pins (R50),
Almanac-scheduled events (R55), lanes after an epoch (R216).
-/
namespace Sys2Proof.Machine

/-- Loss of lock: every RF output takes the unlock mute (R58), and every calibration run ends (R356). -/
def State.unlockMute (s : State) : State := (s.unlockAll true).calStopAll 0x0401

/-- The unlock mute clears when lock is declared (R118). -/
def State.unlockRelease (s : State) : State := s.unlockAll false

/-- The mark drives each TIO pin configured as a mark output for 100 ticks (R50), and source-vector bit 19 (Table 10.3). -/
def State.driveMark (t : Nat) (s : State) : State :=
  (List.range 8).foldl (fun s i =>
    if (atN s.acq.input (11 + i) {}).dir = 2 then
      { s with synth := { s.synth with pulse := updN s.synth.pulse i fun o => some (max (o.getD 0) (t + 100)) } }
    else s) s

/-- An Almanac-scheduled event fires now (R55, R26, R253, R275). -/
def State.fireAlm (w : AlmWhat) (s : State) : State :=
  match w with
  | .seqApply q =>
    let s := s.modSeq q fun c => { c with sealed_ := c.sealed_.map fun x => { x with waitAlm := false } }
    s.applyIdle q
  | .capture k =>
    match (s.cap k).active with
    | some p => (s.startCapture k 2 s.now (p.at_.setWidth 64) 0 none).2
    | none => s
  | .biasQueue b =>
    s.modChan b fun c => match c.run with
      | .waiting 1 _ _ => c.startQueue s.now
      | _ => c

/-- The 8 MARKER words of a latency lock (R216, Table 8.5): kind and marker number; the stamp is filled in at launch. -/
def markers (c : Nat) : List (Word × Nat) := (List.range 8).map fun i => (put 63 60 2 ||| put 23 8 i, c)

/-- Block slots and the ticks of what waits are counted by the tick counter (R208), which reads `c`: a new epoch may have put it back. -/
def Lane.recount (c : Nat) (l : Lane) : Lane :=
  { l with slot := min l.slot ((c + 1) / 2), sent := [], queue := l.queue.map fun (w, t) => (w, min t c)
           service := l.service.map fun (w, t) => (w, min t c) }

/-- After a new epoch, and after a change of phase correction, each UP lane runs LOCK again (R216). -/
def State.lanesRelockDue (s : State) : State :=
  let c := s.cnt s.now
  { s with fabric := { s.fabric with lane := s.fabric.lane.map fun l =>
      let l := l.recount c
      if l.st = .up then { l with relock := true, pairs := 0, since := s.now, service := l.service ++ markers c } else l } }

/-- A lane to the peer is UP. -/
def State.peerLocked (s : State) (peer : Nat) : Bool := (s.laneTo peer).isSome

/-- A SKEW word waits to be sent on a lane; stamp and phase are filled in at launch (R45, Table 8.5). -/
def Lane.askSkew (c : Nat) (l : Lane) : Lane := { l with service := l.service ++ [(put 63 60 4, c)] }

/-- The first time-stamp block of a fabric SKEW_CAL goes to the lane that reaches the peer (R45). -/
def State.askSkew (peer : Nat) (s : State) : State :=
  match s.laneTo peer with
  | some n => s.modLane n (Lane.askSkew (s.cnt s.now))
  | none => s

end Sys2Proof.Machine
end

