-- ==== Sys2Proof/Machine/HostCmds.lean ====
section
/-!
DEFINITION. Machine/HostCmds.lean: the commands of group 0x01 and the BAR0 writes of chapters 12 and 19: doorbells,
queue descriptors, MSI-X, interrupt coalescing.
-/
namespace Sys2Proof.Machine

/-! ## Sessions (R302, R303) -/

/-- Sessions open on a function. -/
def State.sessionsOf (s : State) (f : Nat) : List Session := s.host.sessions.filter fun x => x.func == f

/-- The next serial after `n`: it wraps from 2^28 − 1 to 1 (R302). -/
def nextSer (n : Nat) : Nat := if n + 1 < 2 ^ 28 then n + 1 else 1

/-- The first serial from `n` on that is not open on the function (R302); at most 64 are. -/
def State.freeSerial (s : State) (f : Nat) : Nat → Nat → Nat
  | 0, n => n
  | k + 1, n => if (s.sessionsOf f).any (fun x => x.serial == n) then s.freeSerial f k (nextSer n) else n

/-- The most sessions a function may hold: 64, and 4 on the debug port (R302). -/
def sessionLimit (f : Nat) : Nat := if f = 9 then 4 else 64

/-- The handle of a function and a serial (R302). -/
def handleOf (f n : Nat) : BitVec 32 := BitVec.ofNat 32 (f * 2 ^ 28 + n)

/-- Open a session on a function. -/
def State.openSession (f : Nat) (label : BitVec 32) (s : State) : Nat × State :=
  let n := s.freeSerial f 65 (atN s.host.nextSerial f 1)
  (n, ({ s with host := { s.host with
    sessions := s.host.sessions ++ [{ func := f, serial := n, label := label, level := 0 }]
    nextSerial := updN s.host.nextSerial f fun _ => nextSer n } } : State).sendRec .sessions)

/-- SESSION_OPEN (Table 12.7). -/
def sessionOpenCmd : Command where
  opcode := 0x0101
  pf := true
  vf := true
  int := false
  dbg := some 0
  fmt _ p := firstRef [needLen p 1, needZero p 0 (mask 31 0)]
  maxReply _ := 1
  chk s p := need ((s.sessionsOf (s.funcOf p.source)).length < sessionLimit (s.funcOf p.source)) 0x0305
  waits _ _ := []
  eff s p :=
    let f := s.funcOf p.source
    let (n, s') := s.openSession f (hi32 (wordAt p.payload 0))
    let part := if 1 ≤ f ∧ f ≤ 8 then f - 1 else 0
    { st := s'
      reply := some [orAll [put 63 32 (handleOf f n).toNat, put 31 28 f, put 27 24 part,
        put 21 15 (s'.sessionsOf f).length]] }

/-- Sessions close: packets fetched under them before still find them (R303), and the change is journaled (R331). -/
def State.closeSessions (f : Session → Bool) (s : State) : State :=
  ({ s with host := { s.host with
    sessions := s.host.sessions.filter fun x => !f x
    closed := (s.host.sessions.filter f ++ s.host.closed).take 1024 } } : State).sendRec .sessions

/-- Close the session that a handle names. -/
def State.closeSession (h : BitVec 32) (s : State) : State := s.closeSessions fun x => handleOf x.func x.serial == h

/-- SESSION_CLOSE (Table 12.7). -/
def sessionCloseCmd : Command where
  opcode := 0x0102
  pf := true
  vf := true
  int := false
  dbg := some 0
  fmt _ p := firstRef [needLen p 1, needZero p 0 (mask 31 0)]
  maxReply _ := 0
  chk s p :=
    match s.session (hi32 (wordAt p.payload 0)) with
    | some x => need (s.funcOf p.source == 0 || x.func == s.funcOf p.source) 0x0201
    | none => some ⟨0x0201, noRecord⟩
  waits _ _ := []
  eff s p := { st := s.closeSession (hi32 (wordAt p.payload 0)) }

/-! ## IDENTIFY and ECHO -/

/-- Code of a lifecycle state (Table 12.7). -/
def Lifecycle.code : Lifecycle → Nat
  | .blank => 0
  | .provisioned => 1
  | .deployed => 2
  | .retired => 3

/-- Code of a power state (Table 12.7). -/
def Power.code : Power → Nat
  | .run => 0
  | .hold => 1
  | .standby => 2
  | .dormant => 3

/-- The reply of IDENTIFY (Table 12.7). -/
def State.identifyWords (s : State) : Words :=
  [orAll [put 63 48 0x0512, put 47 46 s.ident.tier.code, put 45 44 s.sec.lifecycle.code, put 43 42 s.power.st.code,
     put 41 34 s.ident.stepping.toNat, put 33 33 (unitCode s.unit), putB 32 s.units.standbyOk,
     put 31 0 s.activeUnit.release.toNat],
   s.ident.serial, put 63 32 s.fabric.cid.toNat ||| put 31 28 s.fabric.member]

/-- IDENTIFY (Table 12.7). -/
def identifyCmd : Command where
  opcode := 0x0103
  pf := true
  vf := true
  int := false
  dbg := some 0
  fmt _ p := needLen p 0
  maxReply _ := 3
  chk _ _ := none
  waits _ _ := []
  eff s _ := { st := s, changed := false, reply := some s.identifyWords }

/-- ECHO (Table 12.7): it returns its payload unchanged and writes no record. -/
def echoCmd : Command where
  opcode := 0x0104
  pf := true
  vf := true
  int := false
  dbg := some 0
  fmt _ _ := none
  maxReply p := p.payload.length
  chk _ _ := none
  waits _ _ := []
  eff s p := { st := s, changed := false, reply := some p.payload }

/-! ## BAR0 writes (R290 to R292, R430) -/

/-- A write to a doorbell or a queue descriptor reaches it: the device is READY (R430) and the queue's function is not in
D3hot. -/
def State.bar0Open (s : State) (q : Fin 32768) : Bool :=
  s.boot.phase == 8 && s.boot.linkUp && !(atN s.boot.d3hot (s.funcOf (.queue q)) false)

/-- A queue whose doorbell is checked: ENABLED or DRAINING. Table 12.2 gives the two fields as RW in every state; DESIGN CHOICE (R292
names no state): a write to a DISABLED or BROKEN queue is stored, is not checked, breaks nothing, and a narrower one is ignored. -/
def Queue.live (d : Queue) : Bool := d.qstate == .enabled || d.qstate == .draining

/-- DOORBELL_SQ_TAIL (R291): the slots up to SQ_TAIL become available. An SQ_TAIL at or beyond the ring, or one that moves
the available region backward, breaks the queue with code 2; a narrower write with code 5 (R292). -/
def execDoorbellSqTail (q : Fin 32768) (sqTail : BitVec 12) (narrow : Bool) (s : State) : Res :=
  let src : Source := .queue q
  let d := s.queue src
  if !s.bar0Open q then .next s
  else if !d.live then .next (if narrow then s else s.modQueue src fun d => { d with sqTail := sqTail })
  else if narrow then .next (s.breakQueue src 5)
  else
    let n := 2 ^ d.sqLog
    let dist (t : Nat) : Nat := (t + n - d.sqHead.toNat) % n
    if n ≤ sqTail.toNat ∨ dist sqTail.toNat < dist d.sqTail.toNat then .next (s.breakQueue src 2)
    else .next (s.modQueue src fun d => { d with sqTail := sqTail })

/-- DOORBELL_CQ_HEAD (R291): every completion slot before CQ_HEAD is freed. A CQ_HEAD at or beyond the ring, or past
CQ_TAIL, breaks the queue with code 3; a narrower write with code 5 (R292). -/
def execDoorbellCqHead (q : Fin 32768) (cqHead : BitVec 12) (narrow : Bool) (s : State) : Res :=
  let src : Source := .queue q
  let d := s.queue src
  if !s.bar0Open q then .next s
  else if !d.live then .next (if narrow then s else s.modQueue src fun d => { d with cqHead := cqHead })
  else if narrow then .next (s.breakQueue src 5)
  else
    let n := 2 ^ d.cqLog
    let freed := (cqHead.toNat + n - d.cqHead.toNat) % n
    if n ≤ cqHead.toNat ∨ d.cqUsed < freed then .next (s.breakQueue src 3)
    else .next (s.modQueue src fun d => { d with cqHead := cqHead, cqUsed := d.cqUsed - freed })

/-- The queue with its positions at slot 0 and its phase at 1 (R290). -/
def Queue.restart (d : Queue) : Queue :=
  { d.setEnable true with
    sqHead := 0, cqTail := 0, sqTail := 0, cqHead := 0, phase := true, cqUsed := 0, unsignaled := 0
    firstUnsignaled := none }

/-- QUEUE_ENABLE: ENABLE = 1 written to a DISABLED or BROKEN queue (R290). -/
def execQueueEnable (q : Fin 32768) (s : State) : Res :=
  let src : Source := .queue q
  let d := s.queue src
  if s.bar0Open q && (d.qstate == .disabled || d.qstate == .broken) then
    .next ((s.modQueue src Queue.restart).setQState src .enabled)
  else .next s

/-- QUEUE_DISABLE: ENABLE = 0 written to an ENABLED queue makes it DRAINING (R290). -/
def execQueueDisable (q : Fin 32768) (s : State) : Res :=
  let src : Source := .queue q
  if s.bar0Open q && (s.queue src).qstate == .enabled then
    .next ((s.modQueue src (Queue.setEnable false)).setQState src .draining)
  else .next s

/-- Packets of a queue that are fetched and not completed. -/
def State.inFlight (s : State) (src : Source) : Bool :=
  s.host.fetched.any (fun f => f.packet.source == src) || s.host.waiting.any (fun f => f.packet.source == src)
    || (s.host.open_.any fun o => !o.long && !o.silent && o.packet.source == src)
    || s.running.any fun f => f.packet.source == src

/-- The function and the vector within it of an index in the vector banks (R311). -/
def vecOf (i : Nat) : Msix := if i < 1024 then ⟨0, i⟩ else ⟨(i - 1024) / 128 + 1, (i - 1024) % 128⟩

/-- Clear the mask bit of a vector: its pending message is sent (R311). -/
def State.unmask (v : Fin 2048) (s : State) : State :=
  let h := { s.host with msixMask := upd s.host.msixMask v fun _ => false }
  if s.host.msixPend[v.val] then
    { s with host := { h with msixPend := upd s.host.msixPend v fun _ => false, messages := vecOf v.val :: h.messages } }
  else { s with host := h }

/-- MSIX_VECTOR_UNMASK (R311). -/
def execMsixVectorUnmask (v : Fin 2048) (s : State) : Res := .next (s.unmask v)

/-- BAR0_REGISTER_WRITE: a write to a descriptor word is stored while the queue is DISABLED or BROKEN and ignored
otherwise; D2 keeps its ENABLE bit, which QUEUE_ENABLE and QUEUE_DISABLE write; D3, the read-only regions and unmapped
offsets ignore writes (R290, R430); a mask bit of the MSI-X table is stored (R311). -/
def execBar0RegisterWrite (r : Bar0Target) (v : Word) (s : State) : Res :=
  match r with
  | .descriptor q w =>
    let src : Source := .queue q
    let d := s.queue src
    if s.bar0Open q && (d.qstate == .disabled || d.qstate == .broken) then
      .next (s.modQueue src fun d =>
        if w.val = 0 then { d with d0 := v }
        else if w.val = 1 then { d with d1 := v }
        else if w.val = 2 then { d with d2 := (v &&& ~~~(put 39 39 1)) ||| putB 39 d.enable }
        else d)
    else .next s
  | .msixMask i true => .next { s with host := { s.host with msixMask := upd s.host.msixMask i fun _ => true } }
  | .msixMask i false => .next (s.unmask i)
  | .readOnly => .next s
  | .unmapped => .next s

/-- INTERRUPT_COALESCE_TIMEOUT: 10 µs after the first completion not yet signaled, the queue's vector is raised (R312). -/
def execInterruptCoalesceTimeout (q : Fin 32768) (s : State) : Res :=
  let src : Source := .queue q
  match (s.queue src).firstUnsignaled with
  | some t =>
    let s := s.runTo (t + 10000)
    .next ((s.modQueue src fun d => { d with unsignaled := 0, firstUnsignaled := none }).raiseFor src (s.queue src).vector)
  | none => .next s

/-- VF_ENABLE: a configuration write sets VF Enable (R428); configuration requests complete from link-up on (R440). -/
def execVfEnable (s : State) : Res :=
  if s.boot.linkUp then .next { s with boot := { s.boot with vfEnable := true } } else .next s

end Sys2Proof.Machine
end

