-- ==== Sys2Proof/Machine/UnitCmds.lean ====
section
/-!
DEFINITION. Machine/UnitCmds.lean: chapter 13: UNIT_SWITCHOVER, heartbeats, the Keeper, switch-over, the standby
proof, restart, machine checks, and the service lane groups of R19.
-/
namespace Sys2Proof.Machine

/-- Change one unit. -/
def State.modUnit (u : UnitId) (f : CtlUnit → CtlUnit) (s : State) : State :=
  match u with
  | .cua => { s with units := { s.units with a := f s.units.a } }
  | .cub => { s with units := { s.units with b := f s.units.b } }

/-- The unit in one place. -/
def State.getUnit (s : State) (u : UnitId) : CtlUnit := s.units.get u

/-- Code of a unit state (Table 15.8). -/
def UnitState.code : UnitState → Nat
  | .selftest => 0
  | .resync => 1
  | .standby => 2
  | .active => 3
  | .fenced => 4
  | .failed => 5

/-- A record about the control units. -/
def unitRec (u : UnitId) (detail : BitVec 32) : LedgerRec := evRec 15 (unitCode u) detail

/-! ## UNIT_SWITCHOVER (Table 15.8) -/

/-- The reply of UNIT_SWITCHOVER. -/
def State.unitWords (s : State) : Words :=
  [orAll [put 63 63 (unitCode s.unit), put 62 60 s.units.a.st.code, put 59 57 s.units.b.st.code,
     putB 56 s.units.standbyOk, put 55 40 s.units.switchovers.toNat],
   s.units.lastSwitch, s.units.lastProof]

/-- A unit restarts into its self-test (R340). -/
def CtlUnit.restart (now : Nat) (u : CtlUnit) : CtlUnit :=
  { u with st := .selftest, fencedAt := none, claim := false, released := false, synced := false, hbMissing := false,
           hbAt := now }

/-- UNIT_SWITCHOVER (Table 15.8). A planned switch-over makes the ACTIVE unit release the token (R337); a restart sends the
non-active unit into its self-test (R340). -/
def unitSwitchoverCmd : Command where
  opcode := 0x1004
  pf := true
  vf := false
  int := true
  dbg := some 2
  fmt _ p :=
    let w := wordAt p.payload 0
    firstRef [needLen p 1, needOk 0 (fld w 63 62 ≤ 2), needZero p 0 (mask 61 0)]
  maxReply p := if fld (wordAt p.payload 0) 63 62 = 2 then 3 else 0
  chk s p :=
    let a := fld (wordAt p.payload 0) 63 62
    firstRef [
      need (s.sec.lifecycle != .retired || a == 2) 0x0206,
      need (a != 0 || s.standbyPresent) 0x0303,
      need (a != 1 || decide ((s.getUnit s.spareUnit).st = .failed ∨ (s.getUnit s.spareUnit).st = .fenced)) 0x0403]
  waits _ _ := []
  eff s p :=
    match fld (wordAt p.payload 0) 63 62 with
    | 0 => { st := (s.modUnit s.unit fun u => { u with released := true }), long := true }
    | 1 => { st := s.modUnit s.spareUnit (CtlUnit.restart s.now), long := true }
    | _ => { st := s, changed := false, reply := some s.unitWords }

/-! ## Heartbeats and the Keeper (R332 to R335) -/

/-- HEARTBEAT_TOGGLE: a unit toggles its heartbeat line 2 µs after its last toggle, while the Curator has served its watchdog in that
period, the Desk has not stalled for 1,600 cycles, and no hand-over is pending (R332). `watchdog` and `stall` are what the unit finds at
the end of the period; a unit that misses a condition does not toggle. -/
def execHeartbeatToggle (u : UnitId) (watchdog : Bool) (stall : BitVec 16) (s : State) : Res :=
  let c := s.getUnit u
  if (c.st = .active ∨ c.st = .standby ∨ c.st = .resync) ∧ !c.released then
    let s := s.runTo (c.hbAt + 2000)
    let s := s.modUnit u fun c => { c with stall := stall, watchdogAt := if watchdog then s.now else c.watchdogAt }
    if watchdog ∧ stall.toNat < 1600 then .next (s.modUnit u fun c => { c with hbAt := s.now, hbMissing := false })
    else .next s
  else .next s

/-- HEARTBEAT_MISSING: 6 µs without a toggle (R332). A STANDBY unit whose heartbeat is missing is marked FAILED. -/
def execHeartbeatMissing (u : UnitId) (s : State) : Res :=
  let c := s.getUnit u
  if (c.st = .active ∨ c.st = .standby ∨ c.st = .resync) ∧ !c.hbMissing then
    let s := s.runTo (c.hbAt + 6000)
    let s := s.modUnit u fun c => { c with hbMissing := true }
    if c.st = .standby then
      let s := s.modUnit u fun c => { c with st := .failed, synced := false }
      .next ({ s with units := { s.units with standbyOk := false } }.note (unitRec u 1))
    else .next s
  else .next s

/-- TOKEN_CLAIM: the unit claims the token; the Keeper decides in its next cycle (R333). -/
def execTokenClaim (u : UnitId) (s : State) : Res := .next (s.modUnit u fun c => { c with claim := true })

/-- A claim is eligible (R333). -/
def CtlUnit.eligible (c : CtlUnit) : Bool := c.claim && c.synced && !c.hbMissing && decide (c.st ≠ .fenced)

/-- The Keeper fences a unit (R333, R334). -/
def State.fence (u : UnitId) (s : State) : State :=
  s.modUnit u fun c => { c with st := .fenced, fencedAt := some s.now, claim := false, synced := false }

/-- The token moves to a unit: a switch-over begins (R336). -/
def State.moveToken (u : UnitId) (s : State) : State :=
  let s := s.modUnit u fun c => { c with st := .active, claim := false, released := false }
  { s with units := { s.units with
    token := some u, switching := true, movedAt := s.now, standbyOk := false
    switchovers := BitVec.ofNat 16 (satAdd 16 s.units.switchovers.toNat 1), lastSwitch := s.tick } }

/-- A decision of the Keeper: counted in the mailbox, with a record by the unit that holds the token (R333). -/
def State.decided (detail : BitVec 32) (s : State) : State :=
  let s := { s with units := { s.units with decisions := s.units.decisions + 1 } }
  if s.units.token.isSome then s.note { evRec 15 0 detail with origin := 4 } else s

/-- A refused claim (Table 13.10), counted and saturating. -/
def State.refuseClaim (u : UnitId) (s : State) : State :=
  let s := s.modUnit u fun c => { c with claim := false }
  { s with units := { s.units with refusedClaims := BitVec.ofNat 32 (satAdd 32 s.units.refusedClaims.toNat 1) } }

/-- One KEEP cycle of the Keeper (Table 13.10). -/
def State.keeper (s : State) : State :=
  match s.units.token with
  | some h =>
    let c := s.getUnit h
    let o := otherUnit h
    if !c.hbMissing && !c.released then
      if (s.getUnit o).claim && (s.getUnit o).eligible then s.refuseClaim o else s
    else if (s.getUnit o).eligible then ((s.fence h).moveToken o).decided 1
    else ({ (s.fence h) with units := { (s.fence h).units with token := none } }).decided 2
  | none =>
    match s.units.a.eligible, s.units.b.eligible with
    | true, true => ((s.fence .cub).moveToken .cua).decided 3
    | true, false => (s.moveToken .cua).decided 4
    | false, true => (s.moveToken .cub).decided 5
    | false, false => s

/-- KEEPER_DECISION. -/
def execKeeperDecision (s : State) : Res := .next s.keeper

/-- KEEPER_VOTER_FAULT: a voter that disagrees with the majority is out of service, and the Keeper trouble bit is set
(R368). -/
def execKeeperVoterFault (v : Fin 3) (s : State) : Res :=
  if s.units.voters[v.val] then
    .next ({ s with units := { s.units with voters := upd s.units.voters v fun _ => false } }.setTrouble 0 8)
  else .next s

/-! ## Switch-over, proof, restart (R336 to R341) -/

/-- SWITCHOVER: the new active unit has completed the journal and taken over the queues, its Desk stands at the dispatch point and
executes the command that was in progress first (R310); the switch-over trouble bit is
set, a record written and vector 13 raised (Table 13.11). A planned switch-over ends its command. -/
def execSwitchover (s : State) : Res :=
  if s.units.switching then
    let s := s.runTo (s.units.movedAt + 13500)
    let s := { s with
                units := { s.units with switching := false }
                desk := { s.desk with core := {}, cur := s.desk.cur.map fun (r : Running) => { r with checks := 0, abandons := 0 } } }
    let s := ((s.setTrouble 1 1).note (unitRec s.unit 2)).raise 13
    match s.openOf 0x1004 with
    | some o => if fld (wordAt o.packet.payload 0) 63 62 = 0 then .next (s.endLong o 0 13 {}) else .next s
    | none => .next s
  else .next s

/-- STANDBY_ACK_TIMEOUT: no journal acknowledgment within 1 µs marks the standby not synchronized and sets the
standby-lost trouble bit; the commit goes on (R320). -/
def execStandbyAckTimeout (s : State) : Res :=
  if s.standbyPresent then
    let s := s.advance 1000
    let s := s.modUnit s.spareUnit fun c => { c with synced := false }
    .next ({ s with units := { s.units with standbyOk := false } }.setTrouble 1 2)
  else .next s

/-- JOURNAL_PARITY_ERROR: the STANDBY unit leaves STANDBY for RESYNC, and the standby-lost trouble bit is set (R331). -/
def execJournalParityError (s : State) : Res :=
  if s.standbyPresent then
    let s := s.modUnit s.spareUnit fun c => { c with st := .resync, synced := false }
    .next ({ s with units := { s.units with standbyOk := false } }.setTrouble 1 2)
  else .next s

/-- STANDBY_PROOF: the proof of R338, 60 s after the last. A failed item makes the unit FAILED, clears STANDBY_OK, sets the
proof-failed trouble bit, writes a record and raises vector 13. -/
def execStandbyProof (passed : Bool) (s : State) : Res :=
  if s.standbyPresent then
    let s := s.runTo (s.units.proofAt + 60000000000)
    let s := { s with units := { s.units with proofAt := s.now, lastProof := s.tick } }
    if passed then .next { s with units := { s.units with standbyOk := true } }
    else
      let u := s.spareUnit
      let s := s.modUnit u fun c => { c with st := .failed, synced := false }
      .next ((({ s with units := { s.units with standbyOk := false } }.setTrouble 1 3).note (unitRec u 3)).raise 13)
  else .next s

/-- UNIT_RESTART: a FENCED unit restarts itself 1 ms after it is fenced (R340). -/
def execUnitRestart (u : UnitId) (s : State) : Res :=
  match (s.getUnit u).fencedAt with
  | some t =>
    if (s.getUnit u).st = .fenced then
      let s := s.runTo (t + 1000000)
      .next (s.modUnit u (CtlUnit.restart s.now))
    else .next s
  | none => .next s

/-- The boot-firmware slot that a starting unit runs (R400): the verified slot with the higher release that is not below
the release floor. -/
def State.bootSlot (s : State) : Option SignedImage :=
  let ok (x : SignedImage) : Bool := x.valid && s.sec.floor.toNat ≤ x.release.toNat
  match ok s.archive.slotA, ok s.archive.slotB with
  | true, true => some (if s.archive.slotA.release.toNat < s.archive.slotB.release.toNat then s.archive.slotB
                        else s.archive.slotA)
  | true, false => some s.archive.slotA
  | false, true => some s.archive.slotB
  | false, false => none

/-- The privileged image that boot firmware loads: the newer half that verifies. -/
def Archive.priv (a : Archive) : Option SignedImage :=
  match a.privA.valid, a.privB.valid with
  | true, true => some (if a.privA.release.toNat < a.privB.release.toNat then a.privB else a.privA)
  | true, false => some a.privA
  | false, true => some a.privB
  | false, false => none

/-- The Desk's patch map after boot firmware has loaded the privileged image (R400): entries 56 to 63 over blocks 0xE0 to 0xFF; which
blocks is in the encrypted image and not in the manual. -/
def Microstore.privDesk (x : Word) (m : Microstore) : Microstore :=
  let put_ (v : Vector MapEntry 64) (j : Nat) : Vector MapEntry 64 :=
    updN v (56 + j) fun _ => { valid := true, priv := true, block := BitVec.ofNat 8 (0xE0 + fld x (5 * j + 4) (5 * j)) }
  { m with map := (List.range 8).foldl put_ m.map, signed := true }

/-- The security engine's patch map after boot firmware has loaded the privileged image: which of the 32 entries are valid, and
their blocks, is in the encrypted image. -/
def Microstore.privEngine (x : Word) (y : BitVec 256) (m : Microstore) : Microstore :=
  let put_ (v : Vector MapEntry 64) (j : Nat) : Vector MapEntry 64 :=
    updN v j fun _ => { valid := bitAt x j, priv := true, block := (y >>> (7 * j)).setWidth 8 &&& 0x7F }
  { m with map := (List.range 32).foldl put_ m.map, signed := true }

/-- A starting unit's boot ROM and firmware (R400): the boot image it runs and the privileged image it loads into its Desk and the
security engine; after a purge there is none to load (R397). `none`: no slot qualifies. -/
def State.startUnit (u : UnitId) (s : State) : State :=
  match s.bootSlot with
  | none => (s.modUnit u fun c => { c with st := .failed }).setTrouble 0 13
  | some b =>
    let s := s.modUnit u fun c => { c with release := b.release, compat := b.compat, digest := BitVec.ofNat 256 b.digest }
    if s.sec.keysErased then s else
    match s.archive.priv with
    | none => s.modUnit u fun c => { c with st := .failed }
    | some m =>
      let (x, s) := s.drawWord
      let (z, s) := s.drawWord
      let (y, s) := s.draw256
      let v := updN (updN s.units.stores (unitCode u) (Microstore.privDesk x)) 8 (Microstore.privEngine z y)
      { s with units := { s.units with stores := v }, sec := { s.sec with m1 := BitVec.ofNat 256 m.digest } }

/-- The token goes to a unit during start-up (R341). -/
def State.firstToken (u : UnitId) (s : State) : State :=
  let s := s.modUnit u fun c => { c with st := .active, claim := false, synced := true, hbAt := s.now, hbMissing := false }
  ({ s with units := { s.units with token := some u } }).decided 6

/-- A restarted unit of which the self-test passed runs its boot firmware (R400), and enters RESYNC when its release and
the ACTIVE unit's exchange a journal; otherwise it becomes FAILED, with a record (R401). Without an ACTIVE unit it waits in RESYNC (R335,
R340). -/
def State.rejoin (u : UnitId) (s : State) : State :=
  let s := s.startUnit u
  let b := s.getUnit u
  let a := s.activeUnit
  if b.st = .failed then s
  else if s.units.token = none ∨ (a.compat.toNat ≤ b.release.toNat ∧ b.compat.toNat ≤ a.release.toNat) then
    s.modUnit u fun c => { c with st := .resync, hbAt := s.now }
  else (s.modUnit u fun c => { c with st := .failed }).note (unitRec u 4)

/-- UNIT_SELFTEST_END: the self-test of a unit ends (R340, R341). During start-up CUA takes the token when it passes, and
CUB only when CUA has failed; the other unit runs its boot firmware with phase 3 (Table 19.10); with both FAILED start-up ends in
phase 15 with cause 1 (R443). -/
def execUnitSelftestEnd (u : UnitId) (passed : Bool) (s : State) : Res :=
  if (s.getUnit u).st ≠ .selftest then .next s
  else if s.units.token.isSome ∨ 3 ≤ s.boot.phase then
    if !passed then .next (s.modUnit u fun c => { c with st := .failed })
    else if s.boot.phase < 4 then .next (s.modUnit u fun c => { c with st := .resync, hbAt := s.now })
    else .next (s.rejoin u)
  else
    let s := s.modUnit u fun c => { c with st := if passed then .resync else .failed }
    match s.units.a.st, s.units.b.st with
    | .resync, _ => .next (s.firstToken .cua)
    | .failed, .resync => .next (s.firstToken .cub)
    | .failed, .failed =>
      .next { s with boot := { s.boot with phase := 15, failCause := 1 } }
    | _, _ => .next s

/-- RESYNC_END: the state image and the journal are applied, the first proof has passed: the unit is STANDBY and sets
STANDBY_OK (R340). A restart by UNIT_SWITCHOVER ends. -/
def execResyncEnd (u : UnitId) (s : State) : Res :=
  if (s.getUnit u).st = .resync ∧ s.units.token = some (otherUnit u) ∧ 4 ≤ s.boot.phase then
    let s := s.modUnit u fun c => { c with st := .standby, synced := true, hbAt := s.now, hbMissing := false }
    let s := { s with
                units := { s.units with standbyOk := true, proofAt := s.now, lastProof := s.tick }
                desk := { s.desk with acked := s.desk.sent } }
    let s := s.note (unitRec u 5)
    match s.openOf 0x1004 with
    | some o => if fld (wordAt o.packet.payload 0) 63 62 = 1 then .next (s.endLong o 0 13 {}) else .next s
    | none => .next s
  else .next s

/-! ## Command-loaded patches (R328, R329) -/

/-- A command-loaded image of a unit is in force (R328, Tables 13.8 and 13.9): its entries, its patch RAM, its release. -/
def Microstore.load (img : PatchImage) (m : Microstore) : Microstore :=
  let map := img.entries.foldl (fun v (e, b, _) => updN v e fun _ => { valid := true, priv := false, block := BitVec.ofNat 8 b })
    (m.map.map fun x => if x.valid && !x.priv then {} else x)
  { m with
    map := map, pendingPatch := none, patchRel := img.release, digest16 := if img.entries = [] then 0 else img.digest16
    ram := img.entries.foldl (fun r (e, _, ws) => Sparse.setList 0 r (64 * e) ws) m.ram }

/-- An image replaces the command-loaded patch of its microstore; a Desk image that of both Desks (R328). -/
def State.patchApply (img : PatchImage) (s : State) : State :=
  let l := if img.index ≤ 1 then [0, 1] else [img.index]
  let keep := s.units.loaded.filter fun x => if img.index ≤ 1 then 1 < x.index else x.index != img.index
  { s with units := { s.units with
    stores := l.foldl (fun v i => updN v i (Microstore.load img)) s.units.stores
    loaded := if img.entries = [] ∧ img.release = 0 then keep else img :: keep } }

/-- A pending patch of a microstore applies (R329). -/
def State.patchDue (i : Nat) (s : State) : State :=
  match (atN s.units.stores i {}).pendingPatch with
  | some img => s.patchApply img
  | none => s

/-! ## Machine checks and repairs (R322 to R325) -/

/-- Code of a machine-check cause in its record. -/
def causeCode : MachineCause → Nat
  | .microwordParity => 0
  | .patchMapParity => 1
  | .stagingParity => 2
  | .scratchParity => 3
  | .malformedField => 4
  | .commitRule => 5

/-- A memory word is rewritten (R323). The model's word was never lost. A sequencer that waits for its word is armed again
where R86 would have armed it (R93); a Concordance entry is correct again (R239). A Shelf granule is copied again (R141), and an
estimator restarts with ESTIMATOR_AUTORESTART (R190). -/
def State.repair (r : Repair) (s : State) : State :=
  match r with
  | .seqProgram q _ =>
    if (atN s.seqs.seq q {}).rearmDue && !s.units.repairs.any (fun x => match x with
        | .seqProgram n _ => n == q
        | _ => false) then
      { s with seqs := { s.seqs with seq := updN s.seqs.seq q fun c =>
          if c.mode ≠ .idle then c
          else if c.debugWait then { c with mode := .debugHalted, debugWait := false }
          else { c with mode := .armed, armedAt := s.now, rearmDue := false } } }
    else s
  | .shelf d g => s.modShelf d (Shelf.recopied g 1)
  | .concordance b i =>
    -- The entry is rewritten from the staging image (R239).
    let c := { s.conc with bad := s.conc.bad.filter fun x => x != (b == 1, i) }
    { s with conc := if b = 1 then { c with cb1 := Sparse.set 0 c.cb1 i (Sparse.get 0 c.img1 i) }
                     else { c with cb0 := Sparse.set 0 c.cb0 i (Sparse.get 0 c.img0 i) } }
  | _ => s

/-! ## Service lane groups (R19) -/

/-- The ACTIVE unit's group to a converter die. -/
def State.group (s : State) (d : Fin 4) : LaneGroup := s.activeUnit.groups[d.val]

/-- Change a unit's group to a die. -/
def State.modGroup (u : UnitId) (d : Fin 4) (f : LaneGroup → LaneGroup) (s : State) : State :=
  s.modUnit u fun c => { c with groups := upd c.groups d f }

/-- A command that needs a die waits while the ACTIVE unit's group to it is down (R19), and while a die patch applies (R374). -/
def State.dieWait (s : State) (d : Fin 4) : Wait :=
  { item := .dieLink d.val, detail := 2, busy := !(s.group d).up || (atN s.parts.patchSince d.val none).isSome }

/-- After 100 ms without a group, every command that needs the die completes at once with 0x0603 (R19). -/
def State.needDie (s : State) (d : Fin 4) (detail : Nat := noRecord) : Option Refused :=
  need ((s.group d).up || !(s.group d).dead) 0x0603 detail

/-- The first record of a packet whose die is lost, from the dies of its records (R19, R298). -/
def State.needDies (s : State) (l : List Nat) : Option Refused := firstRef (l.zipIdx.map fun (d, i) => s.needDie (Fin.ofNat 4 d) i)

/-- SERVICE_LANE_FAILURE (R19): with a STANDBY unit whose group to the die is up, the ACTIVE unit requests a switch-over;
otherwise SERVICE_LANE is set and the group retrained every 1 ms. -/
def execServiceLaneFailure (u : UnitId) (die : Fin 4) (s : State) : Res :=
  if !(s.getUnit u).groups[die.val].up ∨ !s.hasDie die.val then .next s else
  let s := s.modGroup u die fun g => { g with up := false, failedAt := some s.now, lastRetrain := s.now }
  if s.units.token = some u then
    if s.standbyPresent && (s.getUnit (otherUnit u)).groups[die.val].up then
      .next (s.modUnit u fun c => { c with released := true })
    else .next (s.setTrouble 1 7)
  else .next s

/-- The group is up again: its hold list may execute. -/
def State.groupUp (u : UnitId) (die : Fin 4) (s : State) : State :=
  s.modGroup u die fun g => { g with up := true, failedAt := none, dead := false }

/-- SERVICE_LANE_RETRAIN: every 1 ms the ACTIVE unit retrains its failed group (R19). -/
def execServiceLaneRetrain (die : Fin 4) (up : Bool) (s : State) : Res :=
  if (s.group die).up ∨ !s.hasDie die.val then .next s else
  let s := s.runTo ((s.group die).lastRetrain + 1000000)
  let s := s.modGroup s.unit die fun g => { g with lastRetrain := s.now }
  if up then .next (s.groupUp s.unit die) else .next s

/-- SERVICE_LANE_UP: a group to the die returns (R19). -/
def execServiceLaneUp (u : UnitId) (die : Fin 4) (s : State) : Res :=
  if (s.getUnit u).groups[die.val].up ∨ !s.hasDie die.val then .next s else .next (s.groupUp u die)

/-- A held command that is refused when it executes (R307): a record with its tag, acceptance number and status, the
deferred-refusal trouble bit, and the function's command-event vector. -/
def State.deferredRefusal (h : Held) (status : Nat) (s : State) : State :=
  let s := s.note (s.cmdRec 3 h.opcode.toNat h.packet h.accept status {})
  (s.setTrouble 1 5).raiseFor h.packet.source 12

/-- SERVICE_LANE_HOLD_TIMEOUT: 100 ms without a group, each command held for the die is refused with 0x0603 (R19). -/
def execServiceLaneHoldTimeout (die : Fin 4) (s : State) : Res :=
  match (s.group die).failedAt with
  | some t =>
    if (s.group die).dead then .next s else
    let s := s.runTo (t + 100000000)
    let s := s.modGroup s.unit die fun g => { g with dead := true }
    let mine (h : Held) : Bool := h.items.contains (.dieLink die.val)
    let l := s.host.held.filter mine
    let s := { s with host := { s.host with held := s.host.held.filter fun h => !mine h } }
    .next (l.foldl (fun s h => s.deferredRefusal h 0x0603) s)
  | none => .next s

end Sys2Proof.Machine
end

