-- ==== Sys2Proof/Machine/RecordCmds.lean ====
section
/-!
DEFINITION. Machine/RecordCmds.lean: chapter 16: ARCHIVE_STORE, LEDGER_READ, TROUBLE_READ and TROUBLE_CLEAR.
-/
namespace Sys2Proof.Machine

/-! ## Trouble words -/

/-- The defined bits of a trouble word (Table 16.6). -/
def troubleMask (w : Nat) : Word :=
  if w = 0 then mask 13 0
  else if w = 1 then mask 7 0
  else if w = 2 then mask 8 0
  else if w = 3 then mask 63 0
  else if w < 8 then mask 9 0 ||| mask 39 16 ||| mask 63 40
  else mask 8 0 ||| mask 63 32

/-- A partition owns an element of cluster `k` (R393). -/
def State.ownsInCluster (s : State) (part k : Nat) : Bool :=
  let inn {n : Nat} (v : Vector (Fin 8) n) (m : Nat) : Bool :=
    ((v.toList.drop (m * k)).take m).any fun o => o.val == part
  inn s.parts.dslot 64 || inn s.parts.pslot 64 || inn s.parts.rslot 64 || inn s.parts.bias 32 || inn s.parts.seq 32

/-- A virtual function sees the die and cluster words of its partition; the others read as zero (R393). -/
def State.troubleSeen (s : State) (fn w : Nat) : Word :=
  let v := atN s.trouble w 0
  if fn = 0 ∨ 9 ≤ fn then v
  else if 8 ≤ w then (if s.ownsInCluster (fn - 1) (w - 8) then v else 0)
  else if 4 ≤ w then
    (if s.ownsInCluster (fn - 1) (2 * (w - 4)) || s.ownsInCluster (fn - 1) (2 * (w - 4) + 1) then v else 0)
  else 0

/-- TROUBLE_READ (Table 16.7): the words with the output samples formed up to now, whose limiting sets trouble bits (R112). -/
def troubleReadCmd : Command where
  opcode := 0x0D03
  pf := true
  vf := true
  int := false
  dbg := some 1
  fmt _ p :=
    let w := wordAt p.payload 0
    firstRef [needLen p 1, needZero p 0 (mask 54 0),
      needOk 0 (1 ≤ fld w 59 55 && fld w 59 55 ≤ 16 && fld w 63 60 + fld w 59 55 ≤ 16)]
  maxReply p := 1 + fld (wordAt p.payload 0) 59 55
  chk _ _ := none
  waits _ _ := []
  eff s p :=
    let w := wordAt p.payload 0
    let seen := s.hearAll
    { st := s, changed := false
      reply := some (seen.ledger.lastTroubleSet ::
        (List.range (fld w 59 55)).map fun i => seen.troubleSeen (s.funcOf p.source) (fld w 63 60 + i)) }

/-- Clear one trouble bit, with its kind-5 record (R393). -/
def State.troubleClear (w : Fin 16) (b : Nat) (r : LedgerRec) (s : State) : State :=
  { s with trouble := upd s.trouble w fun x => x &&& ~~~(put b b 1) }.note
    { r with kind := 5, element := 14, number := w.val, detail := BitVec.ofNat 32 b }

/-- The set bits of a word, in ascending order. -/
def bitsOf (m : Word) : List Nat := (List.range 64).filter fun b => bitAt m b

/-- TROUBLE_CLEAR (Table 16.7): it clears the masked bits that are set and were not set in this very tick (R12, R393), one kind-5 record for each in ascending order, and
returns the word as it stood before. It writes no kind-1 record. -/
def troubleClearCmd : Command where
  opcode := 0x0D04
  pf := true
  vf := false
  int := false
  dbg := some 2
  fmt _ p :=
    let w := wordAt p.payload
    firstRef [needLen p 2, needZero p 0 (mask 59 0), needOk 1 (w 1 &&& ~~~(troubleMask (fld (w 0) 63 60)) = 0)]
  maxReply _ := 2
  chk _ _ := none
  waits _ _ := []
  eff s p :=
    let s := s.hearAll
    let w := wordAt p.payload
    let i : Fin 16 := Fin.ofNat 16 (fld (w 0) 63 60)
    let was := s.trouble[i.val]
    let l := bitsOf (was &&& w 1 &&& ~~~(s.setThisTick i))
    let r := s.cmdRec 5 0x0D04 p s.host.accept 0 {}
    let s' := l.foldl (fun s b => s.troubleClear i b r) s
    { st := s', changed := false, reply := some [s.ledger.lastTroubleSet, was]
      seq := some (if l = [] then 0 else s'.lastSeq) }

/-! ## LEDGER_READ (Table 16.5) -/

/-- The CHAIN of the record before `r`, which a reply carries as PREV_CHAIN: of the record held before it, of the last
one dropped from the ring, or a value the manual does not state once the ring has lost it. -/
def State.chainBefore (s : State) (r : LedgerRec) : Nat :=
  match s.ledger.records.dropWhile (fun x => r.seq.toNat ≤ x.seq.toNat) with
  | x :: _ => x.chain
  | [] => if s.ledger.records.getLast?.any (fun x => x.seq = r.seq) then s.ledger.baseChain
          else (Config.free256 s.free).toNat

/-- The reply for records in ascending order. -/
def State.ledgerReply (s : State) (l : List LedgerRec) (older : Bool) : Words :=
  match l with
  | [] => [0, 0, 0, 0, 0, putB 54 older]
  | r :: _ => [r.seq] ++ words32 (s.chainBefore r) ++ [put 63 55 l.length ||| putB 54 older] ++ l.flatMap LedgerRec.allWords

/-- The oldest SEQ held in the ring. -/
def Ledger.oldest (l : Ledger) : BitVec 64 := (l.records.getLast?.map (·.seq)).getD l.nextSeq

/-- LEDGER_READ (Table 16.5). -/
def ledgerReadCmd : Command where
  opcode := 0x0D02
  pf := true
  vf := false
  int := false
  dbg := some 1
  fmt _ p :=
    let w := wordAt p.payload 0
    firstRef [needLen p 2, needOk 0 (fld w 63 62 ≤ 2), needZero p 0 (mask 52 0),
      needOk 0 (if fld w 63 62 = 0 then 1 ≤ fld w 61 53 else fld w 61 53 == 0)]
  maxReply p :=
    let w := wordAt p.payload 0
    6 + 16 * (if fld w 63 62 = 0 then fld w 61 53 else if fld w 63 62 = 1 then 32 else 1)
  chk s p :=
    let w := wordAt p.payload
    match fld (w 0) 63 62 with
    | 0 => need ((w 1).toNat < s.ledger.nextSeq.toNat) 0x0403
    | 1 => need (s.ledger.checkpoints.any fun c => c.anchor.seq = w 1) 0x0403
    | _ => need (!s.ledger.checkpoints.isEmpty) 0x0403
  waits _ _ := []
  eff s p :=
    let w := wordAt p.payload
    match fld (w 0) 63 62 with
    | 0 =>
      let older := decide ((w 1).toNat < s.ledger.oldest.toNat)
      let l := (s.ledger.records.reverse.filter fun r => decide ((w 1).toNat ≤ r.seq.toNat)).take (fld (w 0) 61 53)
      { st := { s with free := s.free + 1 }, changed := false, reply := some (s.ledgerReply l older) }
    | 1 =>
      let l := match s.ledger.checkpoints.find? fun c => c.anchor.seq = w 1 with
        | some c => c.before.reverse ++ [c.anchor]
        | none => []
      { st := { s with free := s.free + 1 }, changed := false, reply := some (s.ledgerReply l false) }
    | _ =>
      let l := match s.ledger.checkpoints.head? with
        | some c => [c.anchor]
        | none => []
      { st := { s with free := s.free + 1 }, changed := false, reply := some (s.ledgerReply l false) }

/-! ## ARCHIVE_STORE (Tables 16.2 and 16.3) -/

/-- The store image in force (R386). -/
def Archive.inUse (a : Archive) : StoreImage := if a.useY then a.y else a.x

/-- A sequence of words divides into whole packets in the format of R293: each packet's SLOTS and LASTW give its length. -/
def wholePackets : Nat → Words → Bool
  | 0, l => l.isEmpty
  | n + 1, l =>
    match l with
    | [] => true
    | w :: _ =>
      let len := 8 * (fld w 31 16 - 1) + fld w 42 40 + 1
      fld w 31 16 != 0 && decide (2 ≤ len ∧ len ≤ l.length) && wholePackets n (l.drop len)

/-- The staged profile in words. -/
def Archive.profile (a : Archive) : Words := Sparse.slice 0 a.staged 0 a.stagedLen

/-- The patches that PATCH_LOAD has loaded: those that wait for their apply point, and those in force that none of them replaces
(R329). -/
def State.patchesLoaded (s : State) : List PatchImage :=
  let wait := s.units.stores.toList.filterMap fun m => m.pendingPatch
  wait ++ s.units.loaded.filter fun x => !wait.any fun y => y.index == x.index

/-- The store image that a store with PARTS writes: the parts it names from the working copies, the others unchanged from
the newer copy (R385), and the present lifecycle state, owner key and floor. -/
def State.storeImage (s : State) (parts : Nat) : StoreImage :=
  let o := s.archive.inUse
  { o with
    trims := if parts.testBit 0 then s.cal.active else o.trims
    profile := if parts.testBit 1 then s.archive.profile else o.profile
    patches := if parts.testBit 2 then s.patchesLoaded else o.patches
    lifecycle := s.sec.lifecycle, purged := s.sec.purged, owner := s.sec.owner, floor := s.sec.floor }

/-- Write a store image into the copy with the lower sequence number, under the higher number plus 1; that copy is then in
force (R385). -/
def Archive.store (img : StoreImage) (a : Archive) : Archive :=
  let seq := BitVec.ofNat 32 (max a.x.seq.toNat a.y.seq.toNat + 1)
  let img := { img with seq := seq, valid := true }
  if a.y.seq.toNat < a.x.seq.toNat ∨ (a.x.seq = a.y.seq ∧ !a.useY) then { a with y := img, useY := true }
  else { a with x := img, useY := false }

/-- A store writes the 256 pages of the copy that it replaces: the content pages, then the header page (R382, R385). That it writes every page
of the copy is a DESIGN CHOICE. -/
def State.storeCopy (img : StoreImage) (s : State) : State :=
  let a := s.archive.store img
  let first := if a.useY then 1472 else 1216
  ({ s with archive := a } : State).wrote (s.pages.writeAll ((List.range 255).map (first + 1 + ·) ++ [first]))

/-- ARCHIVE_STORE (Table 16.2). -/
def archiveStoreCmd : Command where
  opcode := 0x0D01
  pf := true
  vf := false
  int := false
  dbg := none
  fmt _ p :=
    let w := wordAt p.payload 0
    let act := fld w 63 62
    let n := p.payload.length
    firstRef [
      (if act = 1 then need (2 ≤ n) 0x0104 3 else needLen p 1),
      needZero p 0 (mask 38 0),
      needOk 0 (act != 0 || fld w 61 59 != 0),
      needOk 0 (act != 1 || (fld w 58 39 % 8 == 0 && fld w 58 39 + 8 * (n - 1) ≤ 786432))]
  maxReply p := if fld (wordAt p.payload 0) 63 62 = 3 then 2 else 0
  chk s p :=
    let w := wordAt p.payload 0
    need (!(fld w 63 62 == 0 && (fld w 61 59).testBit 1) || wholePackets (s.archive.stagedLen + 1) s.archive.profile) 0x0106 2
  waits s p :=
    if fld (wordAt p.payload 0) 63 62 = 0 then [{ item := .store, detail := 2, busy := decide (s.archive.st = .running) }]
    else []
  eff s p :=
    let w := wordAt p.payload 0
    match fld w 63 62 with
    | 0 =>
      { st := { s with archive := { s.archive with st := .running, snapshot := none } }, long := true }
    | 1 =>
      let at0 := fld w 58 39 / 8
      let d := p.payload.drop 1
      { st := { s with archive := { s.archive with
          staged := Sparse.setList 0 s.archive.staged at0 d, stagedLen := max s.archive.stagedLen (at0 + d.length) } } }
    | 2 => { st := { s with archive := { s.archive with staged := [], stagedLen := 0 } } }
    | _ =>
      let a := s.archive
      let code := match a.st with
        | .idle => 0
        | .running => 1
        | .ended => 2
        | .aborted => 3
      { st := s, changed := false
        reply := some [orAll [put 63 62 code, putB 61 a.useY, put 60 29 a.inUse.seq.toNat, put 28 9 a.stagedLen],
          orAll [put 63 32 (s.pages.top / 1000), put 31 16 s.pages.spares, put 15 0 s.pages.retired.length]] }

/-- The first step of a store takes its snapshot in its COMMIT (R385). -/
def State.storeStep (o : OpenCmd) (s : State) : State :=
  match s.archive.snapshot with
  | some _ => s
  | none =>
    let parts := fld (wordAt o.packet.payload 0) 61 59
    { s with archive := { s.archive with snapshot := some (parts, s.storeImage parts) } }

/-- The end of a store (R385): the copy is written, a checkpoint follows, and the command ends (R309). -/
def State.storeEnd (o : OpenCmd) (s : State) : State :=
  let s := s.storeStep o
  match s.archive.snapshot with
  | some (_, img) =>
    let s := s.storeCopy img
    let s := { s with archive := { s.archive with st := .ended, snapshot := none } }
    (s.endLong o 0 14 {}).checkpoint
  | none => s.endLong o 0 14 {}

/-- A store in progress is aborted with 0x0703: the older copy stays in force (R387). -/
def State.abortStore (s : State) : State :=
  if s.archive.st = .running then
    let s := { s with archive := { s.archive with st := .aborted, snapshot := none } }
    match s.openOf 0x0D01 with
    | some o => s.endLong o 0x0703 14 {}
    | none => s
  else s

end Sys2Proof.Machine
end

