-- ==== Sys2Proof/Machine/CalOps.lean ====
section
/-!
DEFINITION. Machine/CalOps.lean: the trim elements of Table 14.1, and how a calibration run goes from element to element
with the spares (R350, R351, R356).
-/
namespace Sys2Proof.Machine

/-- The element that a die's run measures, or waits to measure. -/
def State.calHead (s : State) (d : Nat) : Option (Nat × Nat × Nat) := (s.calOf d).run.bind (·.left.head?)

/-- The element is being measured in place, disconnected from the balls (R350, R351). -/
def State.measuredNow (s : State) (d cls i : Nat) : Bool :=
  (s.calHead d).any fun (c, j, _) => c == cls && j == i

/-- A free spare DAC core. -/
def State.dacFree (s : State) (k : Nat) : Bool := decide (s.dacSpare k = .free) && !atN s.synth.spareFailed k false
/-- A free spare ADC core. -/
def State.adcFree (s : State) (k : Nat) : Bool := decide (s.adcSpare k = .free) && !atN s.readout.spareFailed k false

/-- REF_FREQ, in units of 10 kHz, lies in the Nyquist zone of a line: the first from 0.1 to 3.8 GHz, the
second from 4.0 to 8.0 GHz (Table 6.1, R356). -/
def inZone (zone2 : Bool) (freq : Nat) : Bool :=
  if zone2 then decide (400000 ≤ freq ∧ freq ≤ 800000) else decide (10000 ≤ freq ∧ freq ≤ 380000)

/-- Start the measurement of an element in tick now, with the swap onto the spare where its core serves; `none` where the
element is skipped (R350, R351, R356). -/
def State.calBegin (d cls i freq : Nat) (s : State) : Option State :=
  let k := calCluster d cls i
  if cls = 0 then
    let o := calOut d 0 i
    let x := s.out o
    if x.coreFailed || x.failed then none
    else if x.core = .off then some s
    else if s.dacFree k then some (s.setDacSpare k (.preparing o s.now)) else none
  else if cls = 1 then (if s.dacFree k then some s else none)
  else if cls = 2 then
    let l := 8 * d + i
    let x := s.ln l
    if x.coreFailed || x.failed || !inZone x.zone freq then none
    else if !x.power then some s
    else if s.adcFree k then some (s.setAdcSpare k (.preparing l s.now)) else none
  else if cls = 3 then (if s.adcFree k && inZone (s.ln (8 * d + i)).zone freq then some s else none)
  else if cls = 4 then
    let b := 64 * d + i
    if (s.ch b).st = .off then some (s.modChan b fun c => { c with measured := true }) else none
  else some s

/-- The measurement of the head element starts (R352). -/
def CalRun.started (now : Nat) (t : Frac) (r : CalRun) : CalRun := { r with since := now, temp := t, measured := false }

/-- The head element of a run starts, or is skipped; then the next one is looked at. -/
def State.calStart (d : Nat) : Nat → State → State
  | 0, s => s
  | n + 1, s =>
    match (s.calOf d).run with
    | none => s
    | some r =>
      match r.left with
      | [] => s
      | (cls, i, _) :: l =>
        match s.calBegin d cls i r.freq with
        | some s => s.modCal d fun c => { c with run := some (r.started s.now c.temp) }
        | none => (s.modCal d fun c =>
            { c with skipped := c.skipped + 1, run := some { r with left := l } }).calStart d n

/-- The head element of a run is done with: the next one starts. -/
def State.calNext (d : Nat) (s : State) : State :=
  match (s.calOf d).run with
  | none => s
  | some r =>
    let s := match r.left with
      | (4, i, _) :: _ => s.modChan (64 * d + i) fun c => { c with measured := false }
      | _ => s
    let s := s.modCal d fun c => { c with run := some { r with left := r.left.drop 1 } }
    s.calStart d r.left.length

/-- The head element is skipped: no quiet interval within 100 ms (R356). -/
def State.calSkip (d : Nat) (s : State) : State := (s.modCal d fun c => { c with skipped := c.skipped + 1 }).calNext d

/-- A core fault takes the spare from the head element, which is abandoned (R127, R167, R356). -/
def State.calAbandon (d k : Nat) (dac : Bool) (s : State) : State :=
  match s.calHead d with
  | some (cls, i, _) =>
    if cls < 4 ∧ (decide (cls ≤ 1) == dac) ∧ calCluster d cls i = k then
      (s.modCal d fun c => { c with abandoned := c.abandoned + 1 }).calNext d
    else s
  | none => s

end Sys2Proof.Machine
end

