-- ==== Sys2Proof/Machine/SeqExec.lean ====
section
/-!
DEFINITION. Machine/SeqExec.lean: the sequencer instructions (R67 to R84) and the events of a shot: starts, stamps, cues,
waits, verdict branches, lookups, aborts and boundaries.
-/
namespace Sys2Proof.Machine

/-! ## Issue -/

/-- The instruction that sequencer `q` issues next: it is in a shot, nothing has stopped issue, and the word at its PC is
well-formed (R64). -/
def State.ready (s : State) (q : Nat) : Option SeqIns :=
  let c := s.sq q
  if c.inShot ∧ c.abort = none ∧ c.ended = none ∧ c.stall = .none then readSeq (Sparse.get 0 c.prog c.pc) else none

/-- The issue of the instruction at the PC in tick `i`: the clock runs to that tick, the address enters the trace (R404),
and an instruction under debug step taints the shot (R63). -/
def State.issueAt (q i : Nat) (s : State) : State :=
  let s := s.runToCount i
  s.modSeq q fun c =>
    let c := { c with trace := (c.pc :: c.trace).take 64 }
    if c.stepping then c.flag flagTN true else c

/-- The tick in which the next instruction issues; under debug step no earlier than now. -/
def State.issueTick (s : State) (q : Nat) : Nat :=
  let c := s.sq q
  if c.stepping then max c.nextIssue (s.cnt s.now) else c.nextIssue

/-- The tick in which a timed instruction issues (R69): the first in which fewer than 64 cues hold an entry. -/
def roomTick (cues : List Cue) (i : Nat) : Nat :=
  let held (t : Nat) : Nat := (cues.filter fun c => decide (t < c.stamp)).length
  if held i < 64 then i else
  (cues.map (·.stamp)).foldl (fun m t => if held t < 64 ∧ i ≤ t ∧ (m = i ∨ t < m) then t else m) i

/-! ## Stamps (R67, R68) -/

/-- Leads of Table 3.4. -/
def leadSlot : Nat := 52
/-- MEASURE. -/
def leadMeasure : Nat := 8
/-- MARK. -/
def leadMark : Nat := 2

/-- The stamp that a time mode resolves in issue tick `i` (Table 3.3); under debug step every one is ASAP (R89). -/
def Seq.resolve (c : Seq) (t : Timed) (i lead : Nat) : Nat :=
  match (if c.stepping then 2 else t.tm) with
  | 0 => (c.sst.toNat + t.ofs) % 2 ^ 64
  | 1 => (c.t.toNat + t.ofs) % 2 ^ 64
  | 2 => i + lead + t.ofs
  | _ => (c.reg (t.ofs % 32)).toNat

/-- A timed instruction issues (R67 to R69): its stamp, lateness, T, and its cue. `after` is the placement of an AFTER PLAY:
first DAC sample. -/
def State.cueIssue (q lead : Nat) (t : Timed) (after : Option Nat) (act : CueAct) (s : State) : State :=
  let i := roomTick (s.sq q).cues (s.issueTick q)
  let s := s.issueAt q i
  let c := s.sq q
  let n := match after with
    | some n => n
    | none => 16 * c.resolve t i lead + t.sub
  let late := decide (n / 16 < i + lead)
  let stamp := if late then i + lead else n / 16
  let s := s.modSeq q fun c =>
    let c := if late then c.late else c
    { c with t := BitVec.ofNat 64 stamp, cues := c.cues ++ [{ act := act, stamp := stamp, sub := n % 16 }] }
  s.fall q i

/-! ## Folios on a binding (R79 to R81) -/

/-- The number of successors that play before a request with effective tick `x` takes effect (R80): the least `k` such that
the decision point of the k-th successor is not earlier than `x`. -/
def Placed.follows (p : Placed) (x : Nat) : Nat := ceilDiv (16 * (x + 16) + 1 - p.start) p.len - 1

/-- The folio placed at sample `n` becomes the tail of its binding (R79). -/
def Seq.placed (b : Nat) (p : Placed) (c : Seq) : Seq :=
  { c with
    tails := updN c.tails b fun _ => some p
    latest := updN c.latest b fun o => match o with
      | some l => if p.start < l.start then o else some p
      | none => some p }

/-- PLAY (R67, R79, R80). -/
def State.doPlay (q : Nat) (t : Timed) (rep : Bool) (folio : Nat) (s : State) : State :=
  let len := (s.folio folio).samples
  let i := roomTick (s.sq q).cues (s.issueTick q)
  let c := s.sq q
  let aft := decide (t.tm = 3) && !c.stepping
  let tail := atN c.tails t.bind none
  let after : Option Nat := if !aft then none else
    match tail with
    | none => some (16 * (i + leadSlot))
    | some p => some (p.start + (p.follows (i + leadSlot) + 1) * p.len)
  let k := if aft then (tail.map fun p => p.follows (i + leadSlot)).getD 0 else 0
  let n0 := match after with
    | some n => n
    | none => max (16 * c.resolve t i leadSlot + t.sub) (16 * (i + leadSlot) + t.sub)
  let n0 := if 16 * c.resolve t i leadSlot + t.sub < 16 * (i + leadSlot) ∧ after.isNone then 16 * (i + leadSlot) + t.sub else n0
  let s := s.modSeq q fun c =>
    ({ c with lateFollows := satAdd 16 c.lateFollows k }).placed t.bind { start := n0, len := len, rep := rep }
  s.cueIssue q leadSlot t after (.play t.bind folio rep)

/-- PLAY. -/
def execPlay (q : Fin 256) (s : State) : Res :=
  match s.ready q.val with
  | some (.play t rep folio) => .next (s.doPlay q.val t rep folio)
  | _ => .next s

/-- SETF: the value is read from G when the instruction issues (R64). -/
def State.doSetf (q : Nat) (t : Timed) (gs : Nat) (s : State) : State :=
  s.cueIssue q leadSlot t none (.setf t.bind (((s.sq q).reg gs).setWidth 48))

/-- SETF. -/
def execSetf (q : Fin 256) (s : State) : Res :=
  match s.ready q.val with
  | some (.setf t gs) => .next (s.doSetf q.val t gs)
  | _ => .next s

/-- SETP (R110). -/
def State.doSetp (q : Nat) (t : Timed) (gs : Nat) (s : State) : State :=
  s.cueIssue q leadSlot t none (.setp t.bind (((s.sq q).reg gs).setWidth 32))

/-- SETP. -/
def execSetp (q : Fin 256) (s : State) : Res :=
  match s.ready q.val with
  | some (.setp t gs) => .next (s.doSetp q.val t gs)
  | _ => .next s

/-- FRAME: IMM16 × 2^16, or G[GS][31:0] (Table 3.6). -/
def State.doFrame (q : Nat) (t : Timed) (src : Bool) (imm gs : Nat) (s : State) : State :=
  s.cueIssue q leadSlot t none
    (.frame t.bind (if src then ((s.sq q).reg gs).setWidth 32 else BitVec.ofNat 32 (imm * 2 ^ 16)))

/-- FRAME. -/
def execFrame (q : Fin 256) (s : State) : Res :=
  match s.ready q.val with
  | some (.frame t src imm gs) => .next (s.doFrame q.val t src imm gs)
  | _ => .next s

/-- MEASURE. -/
def State.doMeasure (q : Nat) (t : Timed) (len : Nat) (capt : Bool) (s : State) : State :=
  s.cueIssue q leadMeasure t none (.measure t.bind len capt)

/-- MEASURE. -/
def execMeasure (q : Fin 256) (s : State) : Res :=
  match s.ready q.val with
  | some (.measure t len capt) => .next (s.doMeasure q.val t len capt)
  | _ => .next s

/-- MARK. -/
def State.doMark (q : Nat) (t : Timed) (tgt width : Nat) (s : State) : State :=
  s.cueIssue q leadMark t none (.mark tgt width)

/-- MARK. -/
def execMark (q : Fin 256) (s : State) : Res :=
  match s.ready q.val with
  | some (.mark t tgt width) => .next (s.doMark q.val t tgt width)
  | _ => .next s

/-- NOP. -/
def State.doNop (q : Nat) (s : State) : State := let i := s.issueTick q; (s.issueAt q i).fall q i

/-- NOP. -/
def execNop (q : Fin 256) (s : State) : Res :=
  match s.ready q.val with
  | some .nop => .next (s.doNop q.val)
  | _ => .next s

/-! ## Scalar instructions (Tables 3.8 and 3.9) -/

/-- An instruction that writes one register and falls through. -/
def State.doWrite (q gd : Nat) (v : State → Word) (s : State) : State :=
  let i := s.issueTick q
  let s := s.issueAt q i
  (s.modSeq q (Seq.setReg gd (v s))).fall q i

/-- ALU. -/
def State.doAlu (q gd ga gb fn : Nat) (s : State) : State :=
  s.doWrite q gd fun s => seqFn fn ((s.sq q).reg ga) ((s.sq q).reg gb)

/-- ALU. -/
def execAlu (q : Fin 256) (s : State) : Res :=
  match s.ready q.val with
  | some (.alu gd ga gb fn) => .next (s.doAlu q.val gd ga gb fn)
  | _ => .next s

/-- ALUI. -/
def State.doAlui (q gd ga fn : Nat) (imm : Word) (s : State) : State := s.doWrite q gd fun s => seqFn fn ((s.sq q).reg ga) imm

/-- ALUI. -/
def execAlui (q : Fin 256) (s : State) : Res :=
  match s.ready q.val with
  | some (.alui gd ga fn imm) => .next (s.doAlui q.val gd ga fn imm)
  | _ => .next s

/-- LI: sign-extended, or the high half with the low half kept. -/
def State.doLi (q gd : Nat) (hi : Bool) (imm : BitVec 32) (s : State) : State :=
  s.doWrite q gd fun s =>
    if hi then (imm.setWidth 64 <<< 32) ||| (((s.sq q).reg gd).setWidth 32).setWidth 64 else imm.signExtend 64

/-- LI. -/
def execLi (q : Fin 256) (s : State) : Res :=
  match s.ready q.val with
  | some (.li gd hi imm) => .next (s.doLi q.val gd hi imm)
  | _ => .next s

/-- A special register (Table 3.9). -/
def State.special (s : State) (q sr : Nat) : Word :=
  let c := s.sq q
  match sr with
  | 0 => s.tick
  | 1 => c.sst
  | 2 => c.t
  | 3 => (s.flagsAt q s.now).setWidth 64
  | 4 => c.shotsDone.setWidth 64
  | 5 => s.time.almanac.setWidth 64
  | _ => c.lv

/-- MOVS. -/
def State.doMovs (q gd sr : Nat) (s : State) : State := s.doWrite q gd fun s => s.special q sr

/-- MOVS. -/
def execMovs (q : Fin 256) (s : State) : Res :=
  match s.ready q.val with
  | some (.movs gd sr) => .next (s.doMovs q.val gd sr)
  | _ => .next s

/-! ## Branches, loops, calls, END (R81 to R84) -/

/-- BR. -/
def State.doBr (q cond ga gb tgt : Nat) (s : State) : State :=
  let i := s.issueTick q
  let s := s.issueAt q i
  let c := s.sq q
  if seqCond cond gb (c.reg ga) (c.reg gb) (s.flagsAt q (s.dev i)) then s.jump q i tgt else s.fall q i

/-- BR. -/
def execBr (q : Fin 256) (s : State) : Res :=
  match s.ready q.val with
  | some (.br cond ga gb tgt) => .next (s.doBr q.val cond ga gb tgt)
  | _ => .next s

/-- LOOP (R82): a count of 0 skips the body; a fifth open loop is fault 4, a count from G above 1,048,575 fault 9. -/
def State.doLoop (q : Nat) (creg : Bool) (gc count stop : Nat) (s : State) : State :=
  let i := s.issueTick q
  let s := s.issueAt q i
  let c := s.sq q
  let n := if creg then (c.reg gc).toNat else count
  if creg ∧ 1048575 < n then s.abortSeq q i 9 false
  else if n = 0 then s.goto q i (pcNext stop) c.loops
  else if 4 ≤ c.loops.length then s.abortSeq q i 4 false
  else s.goto q i (pcNext c.pc) ({ start := pcNext c.pc, stop := stop, left := n, depth := c.calls.length } :: c.loops)

/-- LOOP. -/
def execLoop (q : Fin 256) (s : State) : Res :=
  match s.ready q.val with
  | some (.loop creg gc count stop) => .next (s.doLoop q.val creg gc count stop)
  | _ => .next s

/-- CALL (R83): a ninth is fault 3. A CALL that is the last instruction of a loop body does not take the loop back: it pushes PC + 1
and goes to its target (DESIGN CHOICE: R82 states the jump back without naming a CALL at END). -/
def State.doCall (q tgt : Nat) (s : State) : State :=
  let i := s.issueTick q
  let s := s.issueAt q i
  let c := s.sq q
  if 8 ≤ c.calls.length then s.abortSeq q i 3 false
  else (s.modSeq q fun c => { c with calls := pcNext c.pc :: c.calls }).goto q i tgt c.loops

/-- CALL. -/
def execCall (q : Fin 256) (s : State) : Res :=
  match s.ready q.val with
  | some (.call tgt) => .next (s.doCall q.val tgt)
  | _ => .next s

/-- RET (R83): on an empty stack fault 3. -/
def State.doRet (q : Nat) (s : State) : State :=
  let i := s.issueTick q
  let s := s.issueAt q i
  let c := s.sq q
  match c.calls with
  | [] => s.abortSeq q i 3 false
  | a :: l => (s.modSeq q fun c => { c with calls := l }).goto q i a c.loops

/-- RET. -/
def execRet (q : Fin 256) (s : State) : Res :=
  match s.ready q.val with
  | some .ret => .next (s.doRet q.val)
  | _ => .next s

/-- Where END stops the repeating folio of a binding (R81): the sample after the first repetition whose decision point is
not earlier than `x`. -/
def Placed.stopFor (p : Placed) (x : Nat) : Option Nat :=
  if p.rep then some (p.start + (p.follows x + 1) * p.len) else none

/-- A repeating folio that plays takes its stop for the effective device tick `x` of END: the DAC sample before which it ends
(R81). -/
def Playing.ending (x : Nat) (p : Playing) : Playing :=
  { p with stopAt := match Placed.stopFor { start := p.start, len := p.len, rep := p.rep } x with
      | some n => some (min n (p.stopAt.getD n))
      | none => p.stopAt }

/-- END (R81, R86): every repeating folio that plays takes its stop now, and one whose PLAY waits takes it when it starts. -/
def State.doEnd (q : Nat) (last : Bool) (s : State) : State :=
  let i := s.issueTick q
  let s := s.issueAt q i
  let c := s.sq q
  let stops := c.latest.map fun o => o.bind fun p => p.stopFor (i + leadSlot)
  let s := s.modSeq q fun c => { c with ended := some { at_ := i, last := last }, stops := stops }
  c.active.toList.foldl (fun s b => s.modSlot b fun x => { x with playing := x.playing.map (Playing.ending (s.dev (i + leadSlot))) }) s

/-- END. -/
def execSeqEnd (q : Fin 256) (s : State) : Res :=
  match s.ready q.val with
  | some (.end_ last) => .next (s.doEnd q.val last)
  | _ => .next s

/-! ## WAIT (R72 to R74, R97) -/

/-- The unit mask of a sequencer (R97). -/
def State.unitMask (s : State) (q : Nat) : Word :=
  orAll ((List.range 32).map fun n => putB n (decide (atN s.parts.pt n 0 = s.seqOwner q)))

/-- The sources a WAIT enables (R72, R97, R225): units of the partition, sources 32 to 50, and 51 where the sequencer has a
view. -/
def State.waitMask (s : State) (q : Nat) (m : Word) : Word :=
  let view := (s.mem q).active.view.isSome
  (m &&& s.unitMask q) ||| (m &&& mask64 50 32) ||| (if view then m &&& mask64 51 51 else 0)
where
  /-- Bits `[hi:lo]`. -/
  mask64 (hi lo : Nat) : Word := put hi lo (2 ^ 64 - 1)

/-- WAIT (R73): events registered in the issue tick or later count; a swap-wait that finds its view SWAPPING lands in its
issue tick (R236). -/
def State.doWait (q gm : Nat) (s : State) : State :=
  let i := s.issueTick q
  let s := s.issueAt q i
  let c := s.sq q
  let m := s.waitMask q (c.reg gm)
  let now := (List.range 51).filterMap fun n =>
    match atN s.seqs.events n none with
    | some e => if bitAt m n && decide (s.dev i ≤ e) then some (s.cnt e, n) else none
    | none => none
  let first := now.foldl (fun (a : Option Nat) (x : Nat × Nat) => match a with
    | none => some x.1
    | some t => some (min t x.1)) none
  let hit := first.map fun t => (t, orAll ((now.filter fun x => x.1 == t).map fun x => put x.2 x.2 1))
  let s := s.modSeq q fun c => { c with stall := .wait i (Sparse.get 0 c.prog c.pc) m hit }
  if bitAt m 51 then s.land q (s.dev i) else s

/-- WAIT. -/
def execWait (q : Fin 256) (s : State) : Res :=
  match s.ready q.val with
  | some (.wait gm _ _ _ _) => .next (s.doWait q.val gm)
  | _ => .next s

/-- A sequencer in a shot whose abort has not begun. -/
def State.stalled (s : State) (q : Nat) : Stall :=
  let c := s.sq q
  if c.inShot ∧ c.abort = none then c.stall else .none

/-- WAIT_RESOLVE: the first tick with an event of an enabled source (R73). -/
def execWaitResolve (q : Fin 256) (s : State) : Res :=
  match s.stalled q.val with
  | .wait w word _ (some (t, v)) =>
    match readSeq word with
    | some (.wait _ gr tmo _ _) =>
      if tmo ≠ 0 ∧ w + tmo < t then .next s
      else
        let s := s.runToCount t
        .next ((s.modSeq q.val fun c => (c.setReg gr v).flag flagWT false).fall q.val t)
    | _ => .next s
  | _ => .next s

/-- WAIT_TIMEOUT: no event through tick w + TMO (R73); a swap-wait sets CS as well (R74). -/
def execWaitTimeout (q : Fin 256) (s : State) : Res :=
  match s.stalled q.val with
  | .wait w word m hit =>
    match readSeq word with
    | some (.wait _ gr tmo tj tgt) =>
      if tmo = 0 ∨ hit.any (fun h => decide (h.1 ≤ w + tmo)) then .next s
      else
        let s := s.runToCount (w + tmo)
        let s := s.modSeq q.val fun c =>
          let c := (c.setReg gr 0).flag flagWT true
          if bitAt m 51 then c.flag flagCS true else c
        .next (if tj then s.jump q.val (w + tmo) tgt else s.fall q.val (w + tmo))
    | _ => .next s
  | _ => .next s

/-! ## BRV (R75 to R77, R205) -/

/-- The deadline of a BRV or LOOKUP (R75). -/
def Seq.deadline (c : Seq) (drel : Bool) (ofs : Nat) : Nat := ((if drel then c.t else c.sst).toNat + ofs) % 2 ^ 64

/-- The source of a port is unreachable (R205). -/
def State.unreachable (s : State) (q port : Nat) : Bool :=
  if port < 8 then false else
  let e := atN (atN s.fabric.route q {}).active (port - 8) {}
  e.en && e.smem != s.fabric.member && (s.laneTo e.smem).isNone

/-- BRV: mode 1 tests TN in its issue tick and clears VL and VA (R63, R77); mode 0 stalls until it resolves. -/
def State.doBrv (q mode tgt : Nat) (s : State) : State :=
  let i := s.issueTick q
  let s := s.issueAt q i
  if mode = 1 then
    let taken := flagOf (s.flagsAt q (s.dev i)) flagTN
    let s := s.modSeq q fun c => (c.flag flagVL false).flag flagVA false
    if taken then s.jump q i tgt else s.fall q i
  else s.modSeq q fun c => { c with stall := .brv i (Sparse.get 0 c.prog c.pc) }

/-- BRV. -/
def execBrv (q : Fin 256) (s : State) : Res :=
  match s.ready q.val with
  | some (.brv _ _ mode _ _ _ tgt _) => .next (s.doBrv q.val mode tgt)
  | _ => .next s

/-- The path of a BRV ends in tick `x`. -/
def State.brvPath (q x : Nat) (taken : Bool) (tgt : Nat) (s : State) : State := if taken then s.jump q x tgt else s.fall q x

/-- BRV_RESOLVE: a verdict latched in the port is consumed in tick max(b, v) + 1 where that is not past the deadline
(R75). -/
def execBrvResolve (q : Fin 256) (s : State) : Res :=
  match s.stalled q.val with
  | .brv b word =>
    match readSeq word with
    | some (.brv port smask _ dflt drel dl tgt gr) =>
      let c := s.sq q.val
      match (atN c.ports port {}).held with
      | none => .next s
      | some (p, v) =>
        let x := max b v + 1
        if c.deadline drel dl < x then .next s else
        let s := s.runToCount x
        let ok := vValid p && !vAbsent p
        let s := s.modSeq q.val fun c =>
          let c := { c with ports := updN c.ports port (fun y => { y with held := none }), lv := p }
          ((c.setReg gr p).flag flagVL false).flag flagVA (!ok)
        .next (s.brvPath q.val x (if ok then smask.testBit (vState p) else dflt) tgt)
    | _ => .next s
  | _ => .next s

/-- A port that has defaulted late in tick `x` discards the next verdict of the shot, one that has latched in that tick or later
among them (R76). -/
def Seq.defaulted (port x : Nat) (c : Seq) : Seq :=
  if (atN c.ports port {}).held.any fun h => decide (x ≤ h.2) then
    { c with ports := updN c.ports port (fun y => { y with held := none }), lateVerdicts := satAdd 16 c.lateVerdicts 1 }
  else { c with ports := updN c.ports port fun y => { y with discard := true } }

/-- BRV_DEADLINE: no verdict in time (R75): the default path in tick max(D, b + 1). The packet has Valid = 0 and the Late or
the Absent bit; the manual does not state its other bits, which are a free value. A port that defaulted late discards the
next verdict of the shot (R76). -/
def execBrvDeadline (q : Fin 256) (s : State) : Res :=
  match s.stalled q.val with
  | .brv b word =>
    match readSeq word with
    | some (.brv port _ _ dflt drel dl tgt gr) =>
      let c := s.sq q.val
      let d := c.deadline drel dl
      let inTime := match (atN c.ports port {}).held with
        | some (_, v) => decide (max b v + 1 ≤ d)
        | none => false
      if inTime then .next s else
      let x := max d (b + 1)
      let s := s.runToCount x
      let un := s.unreachable q.val port
      let (w, s) := s.drawWord
      let p := (w &&& ~~~(put 41 39 7)) ||| (if un then put 39 39 1 else put 40 40 1)
      let s := s.modSeq q.val fun c =>
        let c := { (if un then c else c.defaulted port x) with lv := p }
        ((c.setReg gr p).flag flagVL (!un)).flag flagVA un
      .next (s.brvPath q.val x dflt tgt)
    | _ => .next s
  | _ => .next s

/-! ## LOOKUP (R78, R226 to R232) -/

/-- LOOKUP stalls until it resolves. -/
def State.doLookup (q : Nat) (s : State) : State :=
  let i := s.issueTick q
  let s := s.issueAt q i
  s.modSeq q fun c => { c with stall := .lookup i (Sparse.get 0 c.prog c.pc) }

/-- LOOKUP. -/
def execLookup (q : Fin 256) (s : State) : Res :=
  match s.ready q.val with
  | some (.lookup _ _ _ _ _ _ _) => .next (s.doLookup q.val)
  | _ => .next s

/-- What one gather input gives at resolution (R227): the index bit, whether it defaulted, and whether the default sets VA,
VL, and its Tainted flag. -/
structure GatherBit where
  bit : Bool
  dflt : Bool
  va : Bool
  vl : Bool
  taint : Bool
deriving DecidableEq, Repr

/-- One gather input at resolution (R227). -/
def State.gatherBit (s : State) (g : GatherEnt) (held : Option (Word × Nat)) : GatherBit :=
  match held with
  | some (p, _) =>
    if vValid p && !vAbsent p then ⟨selBit g.sel (vState p) != g.inv, false, false, false, vTaint p⟩
    else ⟨g.dflt, true, true, false, vTaint p⟩
  | none =>
    let un := g.smem != s.fabric.member && (s.laneTo g.smem).isNone
    ⟨g.dflt, true, un, !un, false⟩

/-- The tick in which the last mapped verdict latched, where every gather input holds one. -/
def lastLatch : List GatherEnt → List (Option (Word × Nat)) → Option Nat
  | [], _ => some 0
  | _ :: gs, some (_, t) :: hs => (lastLatch gs hs).map fun m => max t m
  | _ :: _, _ => none

/-- LOOKUP_RESOLVE (R78, R227): the gather is complete, or the deadline has come; the index and the flags are formed, the
inputs are emptied, and an input that defaulted late discards the next matching verdict of the shot (R226). A verdict counts from
the tick after its latch. -/
def execLookupResolve (q : Fin 256) (s : State) : Res :=
  match s.stalled q.val with
  | .lookup b word =>
    match readSeq word, (s.mem q.val).active.view with
    | some (.lookup _ _ _ _ drel dl _), some v =>
      let c := s.sq q.val
      let m := s.mem q.val
      let d := c.deadline drel dl
      let x := match lastLatch m.active.gather m.inputs.toList with
        | some t => if max b t + 1 ≤ d then max b t + 1 else max d (b + 1)
        | none => max d (b + 1)
      let s := s.runToCount x
      let bits := m.active.gather.zipIdx.map fun (g, i) => s.gatherBit g ((atN m.inputs i none).filter fun h => decide (h.2 < x))
      let w := s.vw v.val
      let idx := w.base + (bits.zipIdx.foldl (fun a (y, i) => if y.bit then a + 2 ^ i else a) 0)
      let dflt := bits.any (·.dflt)
      let old := decide (w.st = .swapping) && !m.landed
      let s := s.modMember q.val fun m => { m with
        inputs := Vector.replicate 21 none
        discard := bits.zipIdx.foldl (fun ds (y, i) => if y.vl && (atN m.inputs i none).isNone then updN ds i fun _ => true else ds) m.discard }
      -- A verdict that latched in the resolution tick itself, behind the default, is the one discarded and counted (R76, R226).
      let gone := (bits.zipIdx.filter fun (y, i) => y.vl && (atN m.inputs i none).isSome).length
      let s := s.modSeq q.val fun c =>
        { (c.flag flagVL (bits.any (·.vl))).flag flagVA (bits.any (·.va)) with
          lateVerdicts := satAdd 16 c.lateVerdicts gone, stall := .lookupRun x word idx m.bank1 old dflt (bits.any (·.taint)) }
      let s := s.modView v.val fun w => { w with lookups := w.lookups + 1 }
      .next { s with conc := { s.conc with reads := updN s.conc.reads (seqCluster q.val) fun l =>
        (⟨q.val, s.dev x, m.bank1, idx⟩ : Read) :: l.filter fun r => decide (s.dev x ≤ r.res + 64) } }
    | _, _ => .next s
  | _ => .next s

/-- An entry of a bank with CHECK read as zero. -/
def State.entry (s : State) (bank1 : Bool) (i : Nat) : Word := Sparse.get 0 (if bank1 then s.conc.cb1 else s.conc.cb0) i

/-- A lookup is turned away (R230): lookups of its cluster that resolve in the same tick need several reads, and it is not
in the group of the lowest-numbered sequencer. -/
def conflict (l : List Read) (r : Read) : Bool :=
  let same := l.filter fun y => y.res == r.res
  let low := same.foldl (fun m y => if y.seq < m.seq then y else m) r
  !(low.bank1 == r.bank1 && low.index == r.index)

/-- The read of the last lookup of sequencer `q` among the reads of its cluster is turned away. -/
def turnedAway (l : List Read) (q : Nat) : Bool := (l.find? fun r => r.seq == q).any (conflict l)

/-- The sum of the frame terms of a binding whose update bit is 1 (R231). -/
def termSum (term e : Word) : BitVec 32 :=
  let a := if bitAt term 63 && bitAt e (16 + fld term 61 56) then fld term 47 32 else 0
  let b := if bitAt term 31 && bitAt e (16 + fld term 29 24) then fld term 15 0 else 0
  BitVec.ofNat 32 ((a + b) * 2 ^ 16)

/-- An entry read of view `v` is uncorrectable (R239): the word waits to be rewritten, with a record and vector 5. -/
def State.entryLost (v : Nat) (bank1 : Bool) (idx : Nat) (s : State) : State :=
  let bads := if s.conc.bad.contains (bank1, idx) then s.conc.bad else (bank1, idx) :: s.conc.bad
  let todo := s.units.repairs ++ [Repair.concordance (if bank1 then 1 else 0) idx]
  let s := { s with conc := { s.conc with bad := bads }, units := { s.units with repairs := todo } }
  (s.note (evRec 11 v)).raiseOwned 5 (s.vw v).owner

/-- The frame cue of a LOOKUP issues in tick `i` (R78, R231). -/
def State.frameCue (q i : Nat) (e : Word) (s : State) : State :=
  let terms := (s.mem q).active.terms
  let l := (List.range 8).map fun b => (b, termSum (atN terms b 0) e)
  (s.runToCount i).modSeq q fun c => { c with cues := c.cues ++ [{ act := .frames l, stamp := i + leadSlot, sub := 0 }] }

/-- LOOKUP_RESULT (R229, R231, R232): 24 ticks after resolution the result word is written, the frame cue issues, and the
program goes on. `err` says how the read of the entry went: 1 a corrected single-bit error, 2 an uncorrectable one. -/
def execLookupResult (q : Fin 256) (err : Fin 3) (s : State) : Res :=
  match s.stalled q.val with
  | .lookupRun x word idx bank1 old dflt taint =>
    match readSeq word, (s.mem q.val).active.view with
    | some (.lookup _ gd apply dj _ _ tgt), some v =>
      let s := s.runToCount (x + 24)
      let conf := turnedAway (atN s.conc.reads (seqCluster q.val) []) q.val
      let unc := !conf && (err = 2 || s.conc.bad.contains (bank1, idx))
      let cor := !conf && !unc && err = 1
      let e := s.entry bank1 idx
      let bad := conf || unc
      let status := orAll [putB 0 cor, putB 1 unc, putB 2 dflt, putB 3 old, putB 4 bank1, putB 5 taint, putB 6 conf]
      let r := (if bad then (0 : Word) else (e >>> 8) <<< 8) ||| status
      let s := s.modSeq q.val (Seq.setReg gd r)
      let s := s.modView v.val fun w => { w with
        conflicts := if conf then satAdd 16 w.conflicts 1 else w.conflicts
        corrected := if cor then w.corrected + 1 else w.corrected
        uncorrectable := if unc then satAdd 16 w.uncorrectable 1 else w.uncorrectable
        alerts := if !bad && bitAt e 15 then satAdd 16 w.alerts 1 else w.alerts
        lastAlert := if !bad && bitAt e 15 then idx else w.lastAlert }
      let s := if bad then s.setTrouble 2 8 else s
      let s := if unc then s.entryLost v.val bank1 idx else s
      let go := apply && !bad
      let i := if go then roomTick (s.sq q.val).cues (x + 24) else x + 24
      let s := if go then s.frameCue q.val i e else s
      .next (if dj ∧ dflt then s.jump q.val i tgt else s.fall q.val i)
    | _, _ => .next s
  | _ => .next s

/-! ## Cues (R67 to R70) -/

/-- The cue that executes next: the earliest stamp, then sub-tick, then issue order. -/
def firstCue : List Cue → Option Cue
  | [] => none
  | c :: l => match firstCue l with
    | none => some c
    | some d => if d.stamp < c.stamp ∨ (d.stamp = c.stamp ∧ d.sub < c.sub) then some d else some c

/-- The cues that still execute: after an abort in tick `a`, a hub cue stamped by then and a converter cue stamped before
tick a + 5 (Table 3.11). A MEASURE with CAPT = 1 is one cue here, alive for stamps before a + 5: its capture start is not discarded on
its own at a + 1 (DESIGN CHOICE: the manual does not say how such a cue divides between hub and converter die). -/
def Seq.liveCues (c : Seq) : List Cue :=
  match c.abort with
  | none => c.cues
  | some a => c.cues.filter fun x => match x.act with
    | .mark _ _ => decide (x.stamp ≤ a.at_)
    | _ => decide (x.stamp < a.at_ + 5)

/-- A cue of `q` executes in device tick `t`: it acts on DAC sample 16t + SUB of its slot (R101). Its instant at the ball is
`State.actionInstant` (R42). -/
def State.runCue (q t : Nat) (x : Cue) (s : State) : State :=
  let c := s.sq q
  let bound (b : Nat) : Binding := atN c.active b Binding.none
  let s := s.modSeq q fun c => { c with cues := c.cues.erase x }
  let touch (n : Nat) (s : State) : State := s.modSeq q fun c => { c with lastTick := max c.lastTick n }
  -- The sample that the action acts on (R101), and the samples before this tick, which are formed without it.
  let n := 16 * t + x.sub
  let heard (s : State) : State := s.hearCluster t (seqCluster q)
  let told (s : State) : State := s.clipReports (seqCluster q)
  match x.act with
  | .play b folio rep =>
    let start : Playing := { folio := folio, start := n, len := (s.folio folio).samples, rep := rep }
    let new := match c.ended with
      | some e => start.ending (s.dev (e.at_ + leadSlot))
      | none => start
    told ((heard (s.settle q b t)).modSlot (bound b) (Slot.play new))
  | .setf b v => told (touch x.stamp ((heard s).modSlot (bound b) fun y => y.tune (16 * t) n v y.foff))
  | .setp b v => told (touch x.stamp ((heard s).modSlot (bound b) fun y => y.tune (16 * t) n y.ftw v))
  | .frame b v => told (touch x.stamp ((heard s).modSlot (bound b) fun y => y.tune (16 * t) n y.ftw (y.foff + v)))
  | .frames l =>
    told (touch x.stamp (l.foldl (fun s (b, v) => s.modSlot (bound b) fun y => y.tune (16 * t) n y.ftw (y.foff + v)) (heard s)))
  | .measure b len capt =>
    match bound b with
    | .demod k =>
      -- A window of the slot that is open collides (R70).
      if (s.dm k.val).windows.any fun w => decide (w.start ≤ t ∧ t < w.start + w.len) && w.cause.isNone then
        s.modSeq q Seq.late
      else
        let (started, s) := if capt then s.startCapture k.val 0 t c.sst 0 (some (q, c.startAt)) else (false, s)
        let full := started && s.traceFull k.val
        let s := (s.modDemod k.val fun d =>
          { d with windows := d.windows ++ [{ start := t, len := len, seq := q, sst := c.sst, capt := started, shot := c.startAt, full := full }] }).dropRecord
            k.val full
        touch (x.stamp + len - 1) s
    | _ => s
  | .mark tgt width =>
    let s := touch (x.stamp + width - 1) s
    if tgt = 16 then
      let s := s.svSync
      { s with acq := { s.acq with marker := updN s.acq.marker q fun o => match o with
          | some (a, e) => if t ≤ e + 1 then some (a, max e (t + width - 1)) else some (t, t + width - 1)
          | none => some (t, t + width - 1) } }
    else if tgt < 8 ∧ (atN s.acq.input (11 + tgt) {}).dir ≠ 1 then s
    else
      let s := { s with synth := { s.synth with pulse := updN s.synth.pulse tgt fun o => some (max (o.getD 0) (t + width)) } }
      -- A chassis trigger line is seen at the device's own input (R247).
      if 8 ≤ tgt then s.ownEdge (tgt - 8) t else s

/-- CUE_EXECUTE: the next cue of the sequencer executes in its stamp tick. -/
def execCueExecute (q : Fin 256) (s : State) : Res :=
  match firstCue (s.sq q.val).liveCues with
  | none => .next s
  | some x => .next ((s.runToCount x.stamp).runCue q.val (s.dev x.stamp) x)

/-- MARK_PULSE_END: the pulse of a pin, or of a sequencer's marker bit, ends (Table 3.6). -/
def execMarkPulseEnd (m : MarkTarget) (s : State) : Res :=
  match m with
  | .pin p =>
    match s.synth.pulse[p.val] with
    | none => .next s
    | some t =>
      let s := s.runTo t
      let s := { s with synth := { s.synth with pulse := upd s.synth.pulse p fun _ => none } }
      .next (if 8 ≤ p.val then s.ownEdge (p.val - 8) t else s)
  | .marker q =>
    match s.acq.marker[q.val] with
    | none => .next s
    | some (_, e) =>
      let s := (s.runTo (e + 1)).svSync
      .next { s with acq := { s.acq with marker := upd s.acq.marker q fun _ => none } }

/-! ## Shots -/

/-- Ratio k of n of the skip windows (Table 18.3). -/
def skipRatio (step : Nat) : Nat × Nat := if step = 3 then (1, 2) else if step = 4 then (3, 4) else if step = 5 then (7, 8) else (0, 1)

/-- The window of tick-counter value `t` skips start events (R421). -/
def State.skips (s : State) (t : Nat) : Bool :=
  let (k, n) := skipRatio s.thermal.step
  decide (s.thermal.level = .throttle) && decide ((t / 2 ^ 20) % n < k)

/-- `n` start events are skipped (R421): counted, and the first since the entry into step 3 sets SHOT_SKIP. -/
def State.skipped (n : Nat) (s : State) : State :=
  let seen := s.thermal.skipSeen
  let s := { s with thermal := { s.thermal with skipped := s.thermal.skipped + BitVec.ofNat 64 n, skipSeen := true } }
  if seen then s else s.setTrouble 0 7

/-- The device tick in which the start event of an armed sequencer is registered. -/
def State.startEvent (s : State) (q : Nat) : Option Nat :=
  let c := s.sq q
  let since (o : Option Nat) : Option Nat := o.bind fun e => if c.armedAt ≤ e then some e else none
  match c.start with
  | some .immediate => some c.armedAt
  | some (.source n) => if n.val = 51 then since c.landedAt else since (atN s.seqs.events n.val none)
  | none => none

/-- SHOT_START: an armed sequencer takes the event of its start source (R85), unless its window skips it (R421). -/
def execShotStart (q : Fin 256) (s : State) : Res :=
  let c := s.sq q.val
  if c.mode ≠ .armed then .next s else
  match s.startEvent q.val with
  | none => .next s
  | some e =>
    let t := s.cnt e
    if s.skips t then
      let next := if c.start = some .immediate then s.dev ((t / 2 ^ 20 + 1) * 2 ^ 20) else e + 1
      .next ((s.modSeq q.val fun c => { c with armedAt := next }).skipped (if c.start = some .immediate then next - e else 1))
    else .next ((s.runTo e).startShot q.val e false)

/-- SHOT_BOUNDARY: the boundary of a shot that has ended, or of one that an abort has cut (R25, R86, Table 3.11). -/
def execShotBoundary (q : Fin 256) (s : State) : Res :=
  let c := s.sq q.val
  if !c.inShot then .next s else
  match c.abort, c.ended with
  | some a, _ =>
    if a.cut then
      let s := s.runToCount (a.at_ + 6)
      .next (s.endShot q.val (s.dev (a.at_ + 6)) (some a))
    else .next s
  | none, some e =>
    if c.cues = [] then
      let s := s.runToCount (c.boundary e)
      .next (s.endShot q.val (s.dev (c.boundary e)) none)
    else .next s
  | none, none => .next s

/-- An aborted shot of `q` leaves a bound slot in device tick `t` (Table 3.11): an open window closes, what plays is cut, and the slot is
hold-muted. -/
def State.cutSlot (q t : Nat) (b : Binding) (s : State) : State :=
  match b with
  | .demod k => s.modDemod k.val fun d => { d with windows := d.windows.map fun w =>
      if w.seq = q ∧ t < w.start + w.len ∧ w.cause.isNone then { w with cause := some t } else w }
  | b => s.modSlot b fun x => { x with playing := none, ended := [], hold := true }

/-- SEQ_ABORT_CUT (Table 3.11, tick a + 5): cues discarded, folios cut, bound slots hold-muted, open windows closed. -/
def execSeqAbortCut (q : Fin 256) (s : State) : Res :=
  let c := s.sq q.val
  match c.abort with
  | none => .next s
  | some a =>
    if a.cut then .next s else
    let s := s.runToCount (a.at_ + 5)
    let t := s.dev (a.at_ + 5)
    let s := ((s.settleAll q.val t).hearCluster t (seqCluster q.val)).modSeq q.val fun c =>
      { c with abort := some { a with cut := true }, cues := [] }
    .next ((c.active.toList.foldl (fun s b => s.cutSlot q.val t b) s).clipReports (seqCluster q.val))

/-- SHOT_LENGTH_LIMIT: the shot reaches SST + MAXLEN (R87). -/
def execShotLengthLimit (q : Fin 256) (s : State) : Res :=
  let c := s.sq q.val
  if !c.inShot ∨ c.maxlen = 0 ∨ c.abort.isSome then .next s
  else if (match c.ended with
    | some e => decide (c.cues = [] ∧ c.boundary e ≤ c.sst.toNat + c.maxlen)
    | none => false) then .next s
  else .next (s.abortSeq q.val (c.sst.toNat + c.maxlen) 6 false)

/-! ## Lockstep, program memory, debug (R89 to R94) -/

/-- LOCKSTEP_MISCOMPARE: the shot is aborted with code 1 and the pair retired (R91, R92). -/
def execLockstepMiscompare (q : Fin 256) (s : State) : Res :=
  if (s.sq q.val).inShot then .next (s.abortSeq q.val (s.cnt s.now) 1 true) else .next s

/-- SPARE_PAIR_RESTORE_END: G0 to G31 are restored from the snapshot, and the sequencer is armed 32 ticks after the boundary
where R86 would have armed it (R91), or DEBUG-HALTED where a debug halt waits (R89). -/
def execSparePairRestoreEnd (q : Fin 256) (s : State) : Res :=
  match (s.sq q.val).restore with
  | none => .next s
  | some (t, arm) =>
    let s := s.runTo (t + 32)
    let s := s.modSeq q.val fun c => { c with g := c.snap, restore := none }
    .next (if (s.sq q.val).debugWait then s.modSeq q.val fun c => { c with mode := .debugHalted, debugWait := false, rearmDue := arm }
      else if arm then s.modSeq q.val fun c => { c with mode := .armed, armedAt := t + 32 } else s.setIdle q.val .idle)

/-- PROGRAM_MEMORY_ERROR: a corrected single-bit error is counted (R90); an uncorrectable word aborts the shot with code 2,
and the control unit rewrites it (R93). -/
def execProgramMemoryError (q : Fin 256) (addr : Fin 4096) (corrected : Bool) (s : State) : Res :=
  if corrected then .next (s.modSeq q.val fun c => { c with corrected := c.corrected + 1 })
  else
    let s := { s with units := { s.units with repairs := s.units.repairs ++ [Repair.seqProgram q.val addr.val] } }
    .next ((s.abortSeq q.val (s.cnt s.now) 2 true).seqTrouble q.val 3 2)

/-- Some session of the debug port is open at level `n` or higher (Table 17.10). -/
def State.debugLevel (s : State) (n : Nat) : Bool := s.host.sessions.any fun x => x.func == 9 && decide (n ≤ x.level)

/-- DEBUG_SEQUENCER_HALT: at level D2, the sequencer halts at its next shot boundary (R89). -/
def execDebugSequencerHalt (q : Fin 256) (s : State) : Res :=
  if !s.debugLevel 2 then .next s else
  match (s.sq q.val).mode with
  | .running => .next (s.modSeq q.val fun c => { c with debugWait := true })
  | .armed => .next (s.modSeq q.val fun c => { c with mode := .debugHalted, rearmDue := true })
  | .idle => .next (s.modSeq q.val fun c => { c with mode := .debugHalted, rearmDue := false })
  | _ => .next s

/-- Execute one instruction, whatever it is. -/
def State.doIns (q : Nat) (i : SeqIns) (s : State) : State :=
  match i with
  | .nop => s.doNop q
  | .play t rep folio => s.doPlay q t rep folio
  | .setf t gs => s.doSetf q t gs
  | .setp t gs => s.doSetp q t gs
  | .frame t src imm gs => s.doFrame q t src imm gs
  | .measure t len capt => s.doMeasure q t len capt
  | .mark t tgt width => s.doMark q t tgt width
  | .wait gm _ _ _ _ => s.doWait q gm
  | .brv _ _ mode _ _ _ tgt _ => s.doBrv q mode tgt
  | .lookup _ _ _ _ _ _ _ => s.doLookup q
  | .br cond ga gb tgt => s.doBr q cond ga gb tgt
  | .loop creg gc count stop => s.doLoop q creg gc count stop
  | .call tgt => s.doCall q tgt
  | .ret => s.doRet q
  | .end_ last => s.doEnd q last
  | .alu gd ga gb fn => s.doAlu q gd ga gb fn
  | .alui gd ga fn imm => s.doAlui q gd ga fn imm
  | .li gd hi imm => s.doLi q gd hi imm
  | .movs gd sr => s.doMovs q gd sr

/-- DEBUG_SEQUENCER_STEP: a halted sequencer executes one instruction (R89); the first step of a shot starts it. -/
def execDebugSequencerStep (q : Fin 256) (s : State) : Res :=
  let c := s.sq q.val
  if !s.debugLevel 2 ∨ c.mode ≠ .debugHalted then .next s
  else if c.stepping then
    match s.ready q.val with
    | some i => .next (s.doIns q.val i)
    | none => .next s
  else if c.rearmDue then
    let s := s.startShot q.val s.now true
    match s.ready q.val with
    | some i => .next (s.doIns q.val i)
    | none => .next s
  else .next s

end Sys2Proof.Machine
end

