-- ==== Sys2Proof/Machine/SeqCmds.lean ====
section
/-!
DEFINITION. Machine/SeqCmds.lean: SEQ_LOAD, SEQ_BIND, SEQ_ARM, SEQ_HALT and SEQ_STATUS (R96 to R99, Tables 3.13 to 3.17).
-/
namespace Sys2Proof.Machine

/-- A sequencer may be named: its cluster is enabled (R2) and the origin's partition owns it (R96). -/
def State.needSeq (s : State) (p : Packet) (q : Nat) (i : Nat := noRecord) : Option Refused :=
  firstRef [need (s.hasCluster (seqCluster q)) 0x0303 i, need (pktOwns p (s.seqOwner q)) 0x0204 i]

/-- The hold of R28: the sequencer's set is sealed. -/
def State.setWait (s : State) (q : Nat) : Wait := { item := .seqSet q, busy := (s.sq q).sealed_.isSome }

/-! ## SEQ_LOAD -/

/-- SEQ_LOAD (R71, R98, Table 3.13). -/
def seqLoadCmd : Command where
  opcode := 0x0301
  pf := true
  vf := true
  int := true
  dbg := none
  fmt _ p :=
    let w := wordAt p.payload 0
    let n := fld w 43 31
    firstRef [need (p.payload ≠ []) 0x0104 2, needOk 0 (1 ≤ n ∧ fld w 55 44 + n ≤ 4096), needLen p (1 + n),
      needZero p 0 (mask 30 0),
      firstRef ((List.range n).map fun i => needOk (1 + i) (seqWordOk (fld w 55 44 + i) (wordAt p.payload (1 + i))))]
  maxReply _ := 0
  chk s p :=
    let w := wordAt p.payload 0
    let q := fld w 63 56
    let c := s.sq q
    let lo := fld w 55 44
    let hi := lo + fld w 43 31 - 1
    let clear (a b : Nat) : Bool := decide (hi < a ∨ b < lo)
    let live := decide (c.mode = .armed) || c.inShot || c.sealed_.isSome
    firstRef [s.needSeq p q,
      need (!live || (clear c.entry c.limit && c.sealed_.all fun x => clear x.entry x.limit)) 0x0402]
  waits _ _ := []
  eff s p :=
    let w := wordAt p.payload 0
    let q := fld w 63 56
    { st := s.modSeq q fun c => { c with prog := Sparse.setList 0 c.prog (fld w 55 44) ((p.payload.drop 1).take (fld w 43 31)) }
      about := { die := 4, cluster := seqCluster q, element := 6, number := q } }

/-! ## SEQ_BIND -/

/-- A 16-bit entry of words W1 and W2. -/
def bindEntry (p : Packet) (i : Nat) : Nat := fld (wordAt p.payload (1 + i / 4)) (16 * (i % 4) + 15) (16 * (i % 4))

/-- Read a binding entry (Table 3.14); `none` where it is malformed. -/
def readBinding (e : Nat) : Option Binding :=
  let chan := (e >>> 8) % 64
  let slot := (e >>> 4) % 16
  match e >>> 14 with
  | 0 => if h : slot < 8 ∧ 8 * chan + slot < 512 then some (.drive ⟨8 * chan + slot, h.2⟩) else none
  | 1 => if h : 16 * chan + slot < 512 then some (.probe ⟨16 * chan + slot, h⟩) else none
  | 2 => if h : 16 * chan + slot < 512 then some (.demod ⟨16 * chan + slot, h⟩) else none
  | _ => some .none

/-- Cluster of a bound slot. -/
def Binding.cluster : Binding → Option Nat
  | .drive i => some (i.val / 64)
  | .probe i => some (i.val / 64)
  | .demod i => some (i.val / 64)
  | .none => Option.none

/-- The bindings that a packet replaces: index and binding. -/
def bindList (p : Packet) : List (Nat × Option Binding) :=
  (List.range 8).filterMap fun i =>
    if bitAt (wordAt p.payload 0) (48 + i) then some (i, readBinding (bindEntry p i)) else none

/-- The shadow bindings after a packet. -/
def Seq.rebind (p : Packet) (c : Seq) : Vector Binding 8 :=
  (bindList p).foldl (fun v (i, b) => updN v i fun _ => b.getD .none) c.shadow

/-- A slot is bound in some copy of a sequencer other than `q` (R65). -/
def State.boundElsewhere (s : State) (q : Nat) (b : Binding) : Bool :=
  s.seqs.seq.toList.zipIdx.any fun (c, i) => i != q &&
    (c.shadow.toList.contains b || c.active.toList.contains b || c.sealed_.any fun x => x.binds.toList.contains b)

/-- A slot carries a compensation copy in some copy of its settings (R65). -/
def Slot.isCopy (x : Slot) : Bool :=
  decide (x.shadow.role = .copy) || decide (x.active.role = .copy) || x.sealed_.any fun y => decide (y.role = .copy)

/-- SEQ_BIND (R65, Table 3.14). -/
def seqBindCmd : Command where
  opcode := 0x0302
  pf := true
  vf := true
  int := true
  dbg := none
  fmt s p :=
    let q := fld (wordAt p.payload 0) 63 56
    let low := orAll ((List.range 4).map fun i => put (16 * i + 3) (16 * i) 15)
    firstRef [needLen p 3, needZero p 0 (mask 47 0), needZero p 1 low, needZero p 2 low,
      firstRef ((bindList p).map fun (i, b) => needOk (1 + i / 4) (match b with
        | none => false
        | some b => match b.cluster with
          | none => true
          | some k => k == seqCluster q || !s.hasCluster k))]
  maxReply _ := 0
  chk s p :=
    let q := fld (wordAt p.payload 0) 63 56
    let new := ((s.sq q).rebind p).toList
    firstRef (s.needSeq p q :: (bindList p).map fun (i, b) =>
      match b with
      | some .none => none
      | none => none
      | some b =>
        let copy : Bool := match b with
          | .demod _ => false
          | b => (s.slotOf b).isCopy
        firstRef [need (b.cluster.all s.hasCluster) 0x0303 i, need (pktOwns p (s.slotOwner b)) 0x0204 i,
          need (!copy) 0x0304 i, need (!s.boundElsewhere q b) 0x0304 i, need (new.count b = 1) 0x0304 i])
  waits s p := [s.setWait (fld (wordAt p.payload 0) 63 56)]
  eff s p :=
    let q := fld (wordAt p.payload 0) 63 56
    { st := s.modSeq q fun c => { c with shadow := c.rebind p }
      about := { die := 4, cluster := seqCluster q, element := 6, number := q } }

/-! ## SEQ_ARM -/

/-- The sequencer words of a SEQ_ARM: sequencer, ENTRY, LIMIT. -/
def armList (p : Packet) : List (Nat × Nat × Nat) :=
  (p.payload.drop 2).map fun w => (fld w 63 56, fld w 55 44, fld w 43 32)

/-- The folio is placed on the die for a PLAY of sequencer `q` at binding `b` under its shadow plan (R140): pinned, or listed
with its head in place. -/
def State.folioPlaced (s : State) (q b folio : Nat) : Bool :=
  (s.shelfOf (dieOf (seqCluster q))).runs.any (fun r => r.placed && r.use == .pin folio)
    || ((s.plansOf q).shadow.list.contains (b, folio)
        && (s.shelfOf (dieOf (seqCluster q))).runs.any fun r => r.placed && r.use == .head folio)

/-- A binding is a drive or probe slot. -/
def Binding.isTone : Binding → Bool
  | .drive _ => true
  | .probe _ => true
  | _ => false

/-- One instruction of a live range fits the set that is sealed (R99, R140, R169, R204, R225). -/
def State.insFits (s : State) (q entry limit : Nat) (i : SeqIns) : Bool :=
  let c := s.sq q
  let bound (b : Nat) : Binding := atN c.shadow b Binding.none
  let view := (s.mem q).shadow.view
  (match i.target with
    | some t => decide (entry ≤ t ∧ t ≤ limit)
    | none => true) &&
  match i with
  | .play t _ folio => (bound t.bind).isTone && s.folioPlaced q t.bind folio
  | .setf t _ => (bound t.bind).isTone
  | .setp t _ => (bound t.bind).isTone
  | .frame t _ _ _ => (bound t.bind).isTone
  | .measure t len _ =>
    match bound t.bind with
    | .demod k =>
      let d := (s.dm k.val).shadow
      d.role && (s.ln (demodLine k.val)).power && (d.kernel == [] || d.nochk || decide (len ≤ 2 * d.kernel.length))
    | _ => false
  | .brv port _ mode _ _ _ _ _ =>
    mode == 1 || (if port < 8 then (match bound port with
      | .demod _ => true
      | _ => false) else (atN (atN s.fabric.route q {}).shadow (port - 8) {}).en)
  | .lookup v _ _ _ _ _ _ => decide (view.map (·.val) = some v) && (s.vw v).defined
  | _ => true

/-- The program of a live range fits (R99). -/
def State.progFits (s : State) (q entry limit : Nat) : Bool :=
  (List.range (limit + 1 - entry)).all fun k =>
    match readSeq (Sparse.get 0 (s.sq q).prog (entry + k)) with
    | some i => s.insFits q entry limit i
    | none => false

/-- A MEASURE of the live range measures on a FAILED line (R167). -/
def State.measuresFailed (s : State) (q entry limit : Nat) : Bool :=
  (List.range (limit + 1 - entry)).any fun k =>
    match readSeq (Sparse.get 0 (s.sq q).prog (entry + k)) with
    | some (.measure t _ _) => match atN (s.sq q).shadow t.bind Binding.none with
      | .demod k => (s.ln (demodLine k.val)).failed
      | _ => false
    | _ => false

/-- A frame term is enabled only on a drive or probe slot (R225). -/
def State.termsFit (s : State) (q : Nat) : Bool :=
  (List.range 8).all fun b =>
    let w := atN (s.mem q).shadow.terms b 0
    !(bitAt w 63 || bitAt w 31) || (atN (s.sq q).shadow b Binding.none).isTone

/-- The start source that START_SRC names; `some none` keeps the present one. -/
def armSource (n : Nat) : Option (Option StartSrc) :=
  if h : n < 52 then some (some (.source ⟨n, h⟩)) else if n = 62 then some (some .immediate) else if n = 63 then some none else none

/-- Index of an output as a crosstalk target and of a slot as a source (Table 4.3). -/
def xtalkTarget (o : Nat) : Nat := if o < 64 then o % 8 else 8 + (o - 64) % 4
/-- Source index u. -/
def xtalkSource (src : Nat) : Nat := if src < 512 then src % 64 else 64 + src % 64

/-- The copies of sources in `new` seal their settings, each with its coefficient from the shadow matrix (R115); a slot that ceases to be a
copy of a source in `old` seals too (R129). -/
def State.sealCopies (new old : List Nat) (s : State) : State :=
  let coef (o src : Nat) : Word := Sparse.get 0 (atN s.synth.xtalk (outCluster o) []) (128 * xtalkTarget o + xtalkSource src)
  let f (o : Nat) (x : Slot) : Slot :=
    if x.shadow.copyTurn new old x.active then
      let w := if x.shadow.role = .copy then coef o x.shadow.src else 0
      { x with sealed_ := some { x.shadow with re := lo32 w, im := hi32 w } }
    else x
  { s with synth := { s.synth with
    drive := s.synth.drive.mapFinIdx fun i x _ => f (driveOut i) x
    probe := s.synth.probe.mapFinIdx fun i x _ => f (probeOut i) x } }

/-- SEQ_ARM seals the shadow copies of `q` and of its bound elements (R26). -/
def State.sealSeq (q : Nat) (set : SealedSet) (s : State) : State :=
  let s := s.modSeq q fun c => { c with sealed_ := some set }
  let l := set.binds.toList
  let s := l.foldl (fun s b => s.sealSlot q b) s
  let srcs := l.filterMap Binding.srcIndex
  let s := s.sealCopies srcs (srcs ++ (s.sq q).active.toList.filterMap Binding.srcIndex)
  let s := s.modRoute q fun r => { r with sealed_ := some r.shadow }
  let s := s.modPlans q fun p => { p with sealed_ := some p.shadow }
  let m := (s.mem q).shadow
  let set : MemberSet := match m.view with
    | none => m
    | some v => { m with gather := (s.vw v.val).gather, age := (s.vw v.val).age }
  s.modMember q fun m => { m with sealed_ := some set }

/-- A lane carries a route of sequencer `q`'s sealed set, or of an active one (R217): a send entry whose mask names its peer,
or a delivery entry whose SMEM is that peer. -/
def State.carries (s : State) (n : Nat) : Bool :=
  let l := s.lane n
  l.ent.used && (s.fabric.send.toList.any (fun e => e.active.toNat.testBit l.ent.peer || e.sealed_.any fun m => m.toNat.testBit l.ent.peer)
    || s.fabric.route.toList.any fun r =>
      let names (v : Vector Deliv 8) : Bool := v.toList.any fun d => d.en && d.smem == l.ent.peer
      names r.active || r.sealed_.any names)

/-- SEQ_ARM (R26, R40, R97, R99, R140, R169, R204, R225, Table 3.15). An Almanac time that has passed applies in the next
tick with 0x0501 (R55). Idle lanes that the set's routes use are woken, and the command completes when they are UP
(R217). -/
def seqArmCmd : Command where
  opcode := 0x0303
  pf := true
  vf := true
  int := true
  dbg := none
  fmt _ p :=
    let w := wordAt p.payload 0
    let n := fld w 63 55
    let alm := bitAt w 54
    firstRef [need (p.payload ≠ []) 0x0104 2, needOk 0 (1 ≤ n ∧ n ≤ 256), needLen p (2 + n), needZero p 0 (mask 47 32),
      needOk 0 (armSource (fld w 53 48)).isSome, needOk 0 (alm || fld w 31 0 == 0),
      firstRef ((armList p).zipIdx.map fun ((q, e, l), i) =>
        firstRef [needZero p (2 + i) (mask 31 0), needOk (2 + i) (e ≤ l),
          needOk (2 + i) (!((armList p).take i).any fun y => y.1 == q)])]
  maxReply _ := 0
  chk s p :=
    let w := wordAt p.payload 0
    let src := fld w 53 48
    firstRef ((armList p).zipIdx.map (fun ((q, _, _), i) => s.needSeq p q i) ++
      [need (!s.pllDown) 0x0401, need s.time.epochValid 0x0401,
       need (decide (s.power.st = .run) && s.thermal.shutAt.isNone) 0x0404] ++
      (armList p).zipIdx.map fun ((q, e, l), i) =>
        let c := s.sq q
        firstRef [need (c.mode ≠ .failed) 0x0303 i,
          need (decide ((atN s.parts.part (s.seqOwner q).val {}).st = .running)) 0x0406 i,
          need (32 ≤ src || bitAt (s.unitMask q) src) 0x0204 i,
          need (src != 63 || c.start.isSome) 0x0403 i,
          need (!s.measuresFailed q e l) 0x0303 i,
          need (s.progFits q e l && s.termsFit q) 0x0403 i])
  waits s p := (armList p).map fun (q, _, _) => s.setWait q
  eff s p :=
    let w := wordAt p.payload 0
    let w1 := wordAt p.payload 1
    let alm := bitAt w 54
    let s := (armList p).foldl (fun s (q, e, l) =>
      let s := s.settleTrims
      let c := s.sq q
      s.sealSeq q { binds := c.shadow, entry := e, limit := l
                    start := match armSource (fld w 53 48) with
                      | some (some x) => some x
                      | _ => c.start
                    shots := fld w1 63 32, maxlen := fld w1 31 0, accept := s.host.accept, waitAlm := alm }) s
    let (passed, s) := if alm then
        (armList p).foldl (fun (_, s) (q, _, _) => s.armAlm (.seqApply q) (lo32 w)) (false, s)
      else (false, (armList p).foldl (fun s (q, _, _) => s.applyIdle q) s)
    let idle := (List.range 16).filter fun n => decide ((s.lane n).st = .idle) && s.carries n
    let s := idle.foldl (fun s n => s.modLane n fun l => { l with waking := true, wakeChecks := 0, since := s.now }) s
    { st := s, status := if passed then 0x0501 else 0, later := idle ≠ [], data := [if passed then 0x0501 else 0]
      about := match armList p with
        | (q, _, _) :: _ => { die := 4, cluster := seqCluster q, element := 6, number := q }
        | [] => {} }

/-! ## SEQ_HALT and SEQ_STATUS -/

/-- The sequencers that a mask of four words names, from payload word `w`. -/
def seqMaskList (p : Packet) (w : Nat) : List Nat := (List.range 256).filter fun q => bitAt (wordAt p.payload (w + q / 64)) (q % 64)

/-- SEQ_HALT (R88, Table 3.16). -/
def seqHaltCmd : Command where
  opcode := 0x0304
  pf := true
  vf := true
  int := false
  dbg := some 2
  fmt _ p := firstRef [needLen p 5, needZero p 0 (mask 61 0), needOk 0 (fld (wordAt p.payload 0) 63 62 ≤ 1)]
  maxReply _ := 0
  chk s p := firstRef ((seqMaskList p 1).map fun q => s.needSeq p q)
  waits _ _ := []
  eff s p :=
    let l := seqMaskList p 1
    { st := l.foldl (fun s q => s.haltSeq q (fld (wordAt p.payload 0) 63 62 == 1) s.host.accept) s
      changed := l ≠ []
      about := match l with
        | q :: _ => { die := 4, cluster := seqCluster q, element := 6, number := q }
        | [] => {} }

/-- Code of a sequencer's state (Table 3.17). -/
def SeqMode.code : SeqMode → Nat
  | .idle => 0
  | .armed => 1
  | .running => 2
  | .failed => 3
  | .debugHalted => 4

/-- The reply of SEQ_STATUS (Table 3.17). -/
def State.seqWords (s : State) (q : Nat) (regs : Bool) : Words :=
  let c := s.sq q
  let k := seqCluster q
  [orAll [put 63 56 q, put 55 53 c.mode.code, put 52 44 (if c.onSpare then 256 + k else q), putB 43 c.onSpare,
     putB 42 (atN s.seqs.spare k none).isNone, put 41 30 c.pc, put 29 18 c.entry, put 17 6 c.limit, put 5 0 (s.flagsAt q s.now).toNat],
   put 63 32 c.shotsDone.toNat ||| put 31 0 (c.shotsLeft.getD 0xFFFFFFFF),
   orAll [put 63 48 c.missed, put 47 32 c.lateCues, put 31 16 c.lateVerdicts, put 15 0 c.overruns],
   orAll [put 63 48 c.lateFollows, put 47 40 c.fault, put 39 28 c.faultPc], c.lastSst]
  ++ (if regs then c.gBound.toList else [])

/-- SEQ_STATUS (Table 3.17). -/
def seqStatusCmd : Command where
  opcode := 0x0305
  pf := true
  vf := true
  int := false
  dbg := some 1
  fmt _ p := firstRef [needLen p 1, needZero p 0 (mask 53 0)]
  maxReply p := if bitAt (wordAt p.payload 0) 55 then 37 else 5
  chk s p := s.needSeq p (fld (wordAt p.payload 0) 63 56)
  waits _ _ := []
  eff s p :=
    let w := wordAt p.payload 0
    let q := fld w 63 56
    let clr := bitAt w 54
    { st := if clr then s.modSeq q fun c =>
        { c with missed := 0, lateCues := 0, lateVerdicts := 0, overruns := 0, lateFollows := 0 } else s
      changed := clr, reply := some (s.seqWords q (bitAt w 55))
      about := { die := 4, cluster := seqCluster q, element := 6, number := q } }

end Sys2Proof.Machine
end

