-- ==== Sys2Proof/Machine/SynthCmds.lean ====
section
/-!
DEFINITION. Machine/SynthCmds.lean: chapter 4: TONE_CONFIG, XTALK_MATRIX and OUTPUT_ENABLE (R129 to R131), ramps and core
power-up (R119 to R121), and the spare DAC cores (R125 to R128).
-/
namespace Sys2Proof.Machine

/-! ## Ownership and holds of slots and outputs -/

/-- The origin's partition owns every slot of the output (R131). -/
def State.ownsOut (s : State) (p : Packet) (o : Nat) : Bool := (s.outOwners o).all fun x => pktOwns p x

/-- The sequencer that binds a slot in some copy (R65: at most one). -/
def State.binder (s : State) (b : Binding) : Option Nat :=
  s.seqs.seq.toList.findIdx? fun c =>
    c.shadow.toList.contains b || c.active.toList.contains b || c.sealed_.any fun x => x.binds.toList.contains b

/-- The hold of R28 on a bound slot: its sequencer's sealed set holds the slot. -/
def State.bindWait (s : State) (b : Binding) : List Wait :=
  match s.binder b with
  | none => []
  | some q => [{ item := .seqSet q, busy := (s.sq q).sealed_.any fun x => x.binds.toList.contains b }]

/-- The hold of R28 on a compensation copy: the sequencer of its source has sealed it (R115, R129). -/
def State.copyWait (s : State) (b : Binding) : List Wait :=
  let x := s.slotOf b
  let srcs := ([x.shadow, x.active] ++ x.sealed_.toList).filterMap fun y => if y.role = .copy then some y.src else none
  srcs.filterMap fun n => match s.binder (srcBinding n) with
    | none => none
    | some q => some { item := .seqSet q, busy := x.sealed_.any fun y => y.copyTurn [n] [n] x.active }

/-- The holds of R28 on an output: any sequencer that has sealed one of its slots (R129). -/
def State.outWait (s : State) (o : Nat) : List Wait := (slotsOfOut o).flatMap s.bindWait

/-! ## TONE_CONFIG (Table 4.9) -/

/-- A record of TONE_CONFIG. -/
inductive ToneRec where
  | slot (b : Binding) (o : Nat) (x : SlotSet)
  | output (o : Nat) (g : GainSet)
deriving DecidableEq, Repr

/-- Output that a record names. -/
def toneOut (a : Word) : Nat := if bitAt a 62 then 64 + fld a 61 56 else fld a 61 56

/-- Index in its bank of the slot that a record names. -/
def toneSlot (a : Word) : Nat := if bitAt a 62 then 16 * fld a 61 56 + fld a 55 52 else 8 * fld a 61 56 + fld a 55 52

/-- A record from its two words (Table 4.9). -/
def toneRec (a b : Word) : ToneRec :=
  if bitAt a 63 then .output (toneOut a) { gain := BitVec.ofNat 16 (fld a 31 16), offset := BitVec.ofNat 16 (fld a 15 0) }
  else .slot (srcBinding (if bitAt a 62 then 512 + toneSlot a else toneSlot a)) (toneOut a) {
    role := match fld a 51 50 with
      | 1 => .tone
      | 2 => .copy
      | _ => .off
    sinc := bitAt a 49, ftw := a.setWidth 48, foff := hi32 b, amp := BitVec.ofNat 16 (fld b 31 16)
    src := if bitAt b 15 then 512 + 16 * fld b 14 9 + fld b 8 5 else 8 * fld b 14 9 + fld b 8 5 }

/-- The format of record `i`, whose first word has payload index `j` (Tables 4.8 and 4.9). -/
def toneFmt (p : Packet) (i : Nat) : Option Refused :=
  let j := 1 + 2 * i
  let a := wordAt p.payload j
  let b := wordAt p.payload (j + 1)
  let chan := needOk j (!bitAt a 62 || fld a 61 56 ≤ 31)
  if bitAt a 63 then firstRef [needZero p j (mask 55 32), needZero p (j + 1) (mask 63 0), chan, needOk j (fld a 31 16 ≤ 0x8000)]
  else
    let copy := fld a 51 50 == 2
    firstRef [needZero p j (mask 48 48), needZero p (j + 1) (mask 4 0), chan,
      needOk j ((bitAt a 62 || fld a 55 52 ≤ 7) && fld a 51 50 != 3),
      needOk j (!copy || (!bitAt a 49 && fld a 47 0 == 0)),
      needOk (j + 1) (fld b 31 16 ≤ 0x8000 && (!copy || fld b 63 16 == 0)),
      needOk (j + 1) (if copy then
          (if bitAt b 15 then fld b 14 9 ≤ 31 else fld b 8 5 ≤ 7) &&
          (match toneRec a b with
            | .slot _ o x => srcOut x.src != o && outCluster (srcOut x.src) == outCluster o
            | .output _ _ => true)
        else fld b 15 5 == 0)]

/-- Records of a packet, in payload order. -/
def toneList (p : Packet) : List ToneRec :=
  (List.range (fld (wordAt p.payload 0) 63 54)).map fun i => toneRec (wordAt p.payload (1 + 2 * i)) (wordAt p.payload (2 + 2 * i))

/-- Shadow copies after one record. -/
def State.toneApply (s : State) (r : ToneRec) : State :=
  match r with
  | .slot b _ x => s.modSlot b fun y => { y with shadow := x }
  | .output o g => s.modOut o fun y => { y with shadow := g }

/-- Some shadow copy names the slot as its source. -/
def State.copied (s : State) (b : Binding) : Bool :=
  allSlots.any fun c => let x := (s.slotOf c).shadow; decide (x.role = .copy) && decide (srcBinding x.src = b)

/-- The chapter's checks of record `i`; `t` is the state after the whole packet (Table 4.8). -/
def State.toneChk (s t : State) (p : Packet) (i : Nat) (r : ToneRec) : Option Refused :=
  match r with
  | .output o _ => firstRef [need (s.hasCluster (outCluster o)) 0x0303 i, need (s.ownsOut p o) 0x0204 i]
  | .slot b o x =>
    let copy := decide (x.role = .copy)
    firstRef [need (s.hasCluster (outCluster o)) 0x0303 i, need (pktOwns p (s.slotOwner b)) 0x0204 i,
      need (!copy || pktOwns p (s.slotOwner (srcBinding x.src))) 0x0204 i,
      need (!copy || (s.binder b).isNone) 0x0304 i,
      need (!copy || decide ((t.slotOf (srcBinding x.src)).shadow.role = .tone)) 0x0403 i,
      need (decide ((s.slotOf b).shadow.role ≠ .tone) || decide ((t.slotOf b).shadow.role = .tone) || !t.copied b) 0x0403 i]

/-- The dies whose converter shadow state a list of outputs touches (R19). -/
def State.outDies (s : State) (l : List Nat) : List Wait :=
  (List.finRange 4).filterMap fun d => if l.any fun o => outDie o == d.val then some (s.dieWait d) else none

/-- After 100 ms without a group to the die of an output (R19). -/
def State.outDead (s : State) (l : List Nat) : Option Refused :=
  s.needDies (l.map outDie)

/-- Output of a record. -/
def ToneRec.out : ToneRec → Nat
  | .slot _ o _ => o
  | .output o _ => o

/-- TONE_CONFIG (R129, R131). -/
def toneConfigCmd : Command where
  opcode := 0x0401
  pf := true
  vf := true
  int := true
  dbg := none
  fmt _ p :=
    let n := fld (wordAt p.payload 0) 63 54
    firstRef [need (p.payload ≠ []) 0x0104 2, needOk 0 (1 ≤ n ∧ n ≤ 512), needLen p (1 + 2 * n), needZero p 0 (mask 53 0),
      firstRef ((List.range n).map (toneFmt p))]
  maxReply _ := 0
  chk s p :=
    let l := toneList p
    let t := l.foldl State.toneApply s
    firstRef ((l.zipIdx.map fun (r, i) => s.toneChk t p i r) ++ [s.outDead (l.map ToneRec.out)])
  waits s p :=
    let l := toneList p
    s.outDies (l.map ToneRec.out) ++ l.flatMap fun r => match r with
      | .slot b _ x => s.bindWait b ++ s.copyWait b ++
          (if x.role = .copy then match s.binder (srcBinding x.src) with
            | some q => [{ item := .seqSet q, busy := false }]
            | none => [] else [])
      | .output o _ => s.outWait o
  eff s p :=
    let l := toneList p
    { st := l.foldl State.toneApply s
      about := match l with
        | r :: _ => outRec r.out 0
        | [] => {} }

/-! ## XTALK_MATRIX (Table 4.10) -/

/-- A segment: the payload index of its header, the header, and its entries. -/
structure XtalkSeg where
  at_ : Nat
  hdr : Word
  entries : Words

/-- Target, first source and count of a segment. -/
def XtalkSeg.target (g : XtalkSeg) : Nat := fld g.hdr 63 60
/-- FIRST. -/
def XtalkSeg.first (g : XtalkSeg) : Nat := fld g.hdr 59 53
/-- N. -/
def XtalkSeg.n (g : XtalkSeg) : Nat := fld g.hdr 52 45

/-- The segments of a payload, `n` of them from index `i`, with the index after the last. -/
def xtalkSegs : Nat → Nat → Words → List XtalkSeg × Nat
  | 0, i, _ => ([], i)
  | n + 1, i, l =>
    match l with
    | [] => ([], i + 1)
    | h :: r =>
      let m := fld h 52 45
      let (gs, e) := xtalkSegs n (i + 1 + m) (r.drop m)
      (⟨i, h, r.take m⟩ :: gs, e)

/-- The segments of a packet. -/
def xtalkList (p : Packet) : List XtalkSeg × Nat := xtalkSegs (fld (wordAt p.payload 0) 60 57) 1 (p.payload.drop 1)

/-- The source slot u of a cluster (Table 4.3). -/
def xtalkSlot (k u : Nat) : Binding := srcBinding (if u < 64 then 64 * k + u else 512 + 64 * k + (u - 64))
/-- The target output t of a cluster (Table 4.3). -/
def xtalkOut (k t : Nat) : Nat := if t < 8 then 8 * k + t else 64 + 4 * k + (t - 8)

/-- A coefficient is not zero. -/
def coefNonzero (w : Word) : Bool := (w &&& 0x7FFFFFFF7FFFFFFF#64) != 0

/-- The format of a segment (Table 4.10). -/
def XtalkSeg.fmt (k : Nat) (p : Packet) (g : XtalkSeg) : Option Refused :=
  firstRef ([needZero p g.at_ (mask 44 0), needOk g.at_ (g.target ≤ 11 && 1 ≤ g.n && g.first + g.n ≤ 128)] ++
    g.entries.zipIdx.map fun (e, j) => needOk (g.at_ + 1 + j)
      (F32.finite (lo32 e) && F32.finite (hi32 e) && fMagLe (lo32 e) (hi32 e) 2 &&
        !(coefNonzero e && (xtalkSlot k (g.first + j)).out == some (xtalkOut k g.target))))

/-- XTALK_MATRIX (R115, R131). -/
def xtalkMatrixCmd : Command where
  opcode := 0x0402
  pf := true
  vf := true
  int := true
  dbg := none
  fmt _ p :=
    let w := wordAt p.payload 0
    let n := fld w 60 57
    let (gs, e) := xtalkList p
    firstRef [need (p.payload ≠ []) 0x0104 2, needOk 0 (1 ≤ n ∧ n ≤ 12), needLen p e, needZero p 0 (mask 56 0),
      firstRef (gs.map fun g => g.fmt (fld w 63 61) p)]
  maxReply _ := 0
  chk s p :=
    let k := fld (wordAt p.payload 0) 63 61
    firstRef ([need (s.hasCluster k) 0x0303] ++ (xtalkList p).1.zipIdx.map (fun (g, i) =>
      firstRef [need (s.ownsOut p (xtalkOut k g.target)) 0x0204 i,
        need (g.entries.zipIdx.all fun (e, j) => !coefNonzero e || pktOwns p (s.slotOwner (xtalkSlot k (g.first + j)))) 0x0204 i])
      ++ [s.needDie (Fin.ofNat 4 (outDie (8 * k)))])
  waits s p := s.outDies [8 * fld (wordAt p.payload 0) 63 61]
  eff s p :=
    let k := fld (wordAt p.payload 0) 63 61
    let m := (xtalkList p).1.foldl (fun m g => Sparse.setList 0 m (128 * g.target + g.first) g.entries) (atN s.synth.xtalk k [])
    { st := { s with synth := { s.synth with xtalk := updN s.synth.xtalk k fun _ => m } }
      about := { die := dieOf k, cluster := k } }

/-! ## Ramps (R119, R121) -/

/-- The part of GAIN that a ramp has reached in a tick, as numerator and denominator. -/
def Ramp.level (r : Ramp) (t : Nat) : Nat × Nat :=
  let d := min (t - r.at_) r.len
  if r.up then (r.num * r.len + (r.den - r.num) * d, r.den * r.len) else (r.num * (r.len - d), r.den * r.len)

/-- A ramp down is in progress in a tick. -/
def Output.fallingAt (o : Output) (t : Nat) : Bool :=
  match o.ramping with
  | some r => !r.up && decide (t < r.at_ + r.len)
  | none => false

/-- The command mute in tick `a` (R119, R121): ramped over RAMP from the gain reached; off powers the core down after the
ramp. A core whose power-up a mute cancels before tick b counts as powered from then on, so that a later enable goes live without
the settling of R120 (DESIGN CHOICE: the manual states the cancelled enable, not the state of the core). -/
def Output.mute (a : Nat) (off : Bool) (tick : BitVec 64) (o : Output) : Output :=
  let o := match o.core with
    | .powering _ => { o with core := .on }
    | _ => o
  let o := if o.cmdMute then o else
    let r : Option Ramp := if o.muted || o.ramp == 0 then none else
      let (n, d) := match o.ramping with
        | some x => x.level a
        | none => (1, 1)
      some { at_ := a, len := o.ramp, up := false, num := n, den := d }
    { (if o.muted then o else o.stamp tick) with cmdMute := true, ramping := r }
  if off ∧ o.core = .on then
    { o with core := .dropping (match o.ramping with
        | some x => x.at_ + x.len
        | none => a) }
  else o

/-- The enable in tick `a` (R119, R120, R122): an OFF core powers up first; a latched trip mute is released; the command mute
clears, ramped up. -/
def Output.enable (a : Nat) (baseband : Bool) (o : Output) : Output :=
  let was := o.muted
  let o := { o with latched := false, baseband := baseband }
  match o.core with
  | .on => ({ o with cmdMute := false } : Output).release was a
  | .powering _ => o
  | _ => { o with core := .powering a }

/-- STATE of the reply (Table 4.12). -/
def Output.stateCode (held : Bool) (o : Output) : Nat :=
  if o.failed then 3 else if held || o.ramping.isSome then 4 else
  match o.core with
  | .powering _ => 4
  | .on => if o.muted then 1 else 0
  | _ => 2

/-- A held command waits on the output. -/
def State.outHeld (s : State) (o : Nat) : Bool := s.host.held.any fun h => h.items.contains (.output o)

/-- A reply word of OUTPUT_ENABLE (Table 4.12). -/
def State.outWord (s : State) (o : Nat) : Word :=
  let x := s.out o
  orAll [put 63 61 (x.stateCode (s.outHeld o)), putB 60 (x.trip || x.latched), putB 59 x.faultMute, putB 58 x.onSpare,
    putB 57 (s.dacFree (outCluster o)), putB 56 x.baseband, put 47 32 x.clips, put 31 0 x.muteTick.toNat]

/-! ## OUTPUT_ENABLE (Table 4.11) -/

/-- A record of OUTPUT_ENABLE: output, ACTION, BASEBAND, TRIPLATCH, RAMP. -/
structure OutRecd where
  o : Nat
  action : Nat
  baseband : Bool
  latch : Bool
  ramp : Nat
deriving DecidableEq, Repr

/-- The records of a packet. -/
def outList (p : Packet) : List OutRecd :=
  (p.payload.drop 1).map fun w =>
    { o := if bitAt w 63 then 64 + fld w 62 57 else fld w 62 57, action := fld w 56 54, baseband := bitAt w 53,
      latch := bitAt w 52, ramp := fld w 51 44 }

/-- The effect of one record in tick `a`: RAMP and TRIPLATCH first (Table 4.11), then the action. -/
def State.outAct (r : OutRecd) (s : State) : State :=
  let a := s.now
  let s := s.hearCluster a (outCluster r.o)
  let s := s.modOut r.o fun x => { x with ramp := r.ramp, tripLatch := r.latch }
  match r.action with
  | 0 => s.modOut r.o (Output.mute a false s.tick)
  | 1 =>
    let free := s.outUnbound r.o
    s.modOut r.o fun x => (if free then { x with active := x.shadow } else x).enable a r.baseband
  | 2 => s.modOut r.o (Output.mute a true s.tick)
  | _ => s

/-- The core of the output is measured in place, disconnected from the balls (R350). -/
def State.outMeasured (s : State) (o : Nat) : Bool :=
  decide ((s.out o).core = .off) && s.measuredNow (outDie o) 0 (outIndex o)

/-- OUTPUT_ENABLE (R120, R121, R129, R131). The checks and holds of every record are made on the state before the packet, and the
effects follow in payload order, also where several records name one output (DESIGN CHOICE: the manual does not say which state the
later records see). An enable waits while the output ramps down or its core powers down (DETAIL 3),
while its core is measured in place, and while a JTAG test instruction is in force (R350, R436). -/
def outputEnableCmd : Command where
  opcode := 0x0403
  pf := true
  vf := true
  int := true
  dbg := none
  fmt _ p :=
    let n := fld (wordAt p.payload 0) 63 57
    firstRef [need (p.payload ≠ []) 0x0104 2, needOk 0 (1 ≤ n ∧ n ≤ 96), needLen p (1 + n), needZero p 0 (mask 56 0),
      firstRef ((outList p).zipIdx.map fun (r, i) =>
        firstRef [needZero p (1 + i) (mask 43 0), needOk (1 + i) (r.o < 96 && r.action ≤ 3),
          needOk (1 + i) (!r.baseband || (r.action == 1 && r.o < 64))])]
  maxReply p := fld (wordAt p.payload 0) 63 57
  chk s p :=
    firstRef ((outList p).zipIdx.map (fun (r, i) =>
      let x := s.out r.o
      let en := r.action == 1
      firstRef [need (s.hasCluster (outCluster r.o)) 0x0303 i, need (s.ownsOut p r.o) 0x0204 i,
        need (!en || decide (s.power.st ≠ .standby)) 0x0404 i,
        need (!en || !x.failed) 0x0303 i, need (!en || !s.pllDown) 0x0401 i, need (!en || !s.tripOn r.o) 0x0405 i,
        need (!en || r.baseband == x.baseband || x.muted) 0x0403 i])
      ++ [s.outDead ((outList p).map (·.o))])
  waits s p :=
    let l := outList p
    (l.map fun r => ({ item := .output r.o, detail := 3
                       busy := r.action == 1 && ((s.out r.o).fallingAt s.now || (match (s.out r.o).core with
                         | .dropping _ => true
                         | _ => false)) } : Wait)) ++
    (l.filterMap fun r => if r.action = 1 then
      some ({ item := .calElement 0 r.o, detail := 2, busy := s.outMeasured r.o } : Wait) else none) ++
    (if l.any fun r => r.action == 1 then [({ item := .jtag, detail := 2, busy := decide (s.boot.jtag.test ≠ .none) } : Wait)] else []) ++
    s.outDies (l.map (·.o))
  eff s p :=
    let l := outList p
    let s := l.foldl (fun s r => s.outAct r) s
    { st := s, reply := some (l.map fun r => s.outWord r.o), tick := some s.tick
      about := match l with
        | r :: _ => outRec r.o 0
        | [] => {} }

/-- OUTPUT_RAMP_END: a mute ramp ends; then, for an output that goes off, its core's power-down ends (R121). A held enable
may execute from the next tick. -/
def execOutputRampEnd (o : Fin 96) (s : State) : Res :=
  let x := s.out o.val
  match x.ramping, x.core with
  | some r, _ =>
    if r.up then .next s
    else
      let s := s.runTo (r.at_ + r.len)
      .next ((s.hearCluster s.now (outCluster o.val)).modOut o.val fun x => { x with ramping := none })
  | none, .dropping t => .next ((s.runTo t).modOut o.val fun x => { x with core := .off })
  | none, _ => .next s

/-- OUTPUT_RAMP_UP_END: a ramp-up ends and the output is LIVE (R119). -/
def execOutputRampUpEnd (o : Fin 96) (s : State) : Res :=
  match (s.out o.val).ramping with
  | some r =>
    if r.up then
      let s := s.runTo (r.at_ + r.len)
      .next ((s.hearCluster s.now (outCluster o.val)).modOut o.val fun x => { x with ramping := none })
    else .next s
  | none => .next s

/-- DAC_CORE_SETTLED: tick b of R120: the core has settled, the command mute clears, and the ramp begins. -/
def execDacCoreSettled (o : Fin 96) (s : State) : Res :=
  match (s.out o.val).core with
  | .powering _ => .next ((s.hearCluster s.now (outCluster o.val)).modOut o.val fun x => ({ x with core := .on, cmdMute := false } : Output).release x.muted s.now)
  | _ => .next s

/-! ## Spare DAC cores (R125 to R128) -/

/-- Raise a vector for an output: in the physical function, and in the virtual function of each partition that owns a slot
of it (R311). -/
def State.raiseOut (v o : Nat) (s : State) : State :=
  (s.outOwners o).eraseDups.foldl (fun s w => s.raiseVf (w.val + 1) v) (s.raise v)

/-- A fault mute on an output: DAC_FAULT with the element's bit, a record, vector 8 (R123, R126). -/
def State.faultMuteOut (o : Nat) (s : State) : State :=
  let s := s.muting o fun x => { x with faultMute := true }
  ((s.setTrouble (dieWord (outDie o)) (16 + outIndex o)).note (outRec o 1)).raiseOut 8 o

/-- The output becomes FAILED: it stays fault-muted (R127). -/
def State.failOut (o : Nat) (s : State) : State := (s.hearCluster s.now (outCluster o)).modOut o fun x => { x with failed := true }

/-- The output that a planned swap has on the spare, or is moving. -/
def SpareUse.covered : SpareUse → Option Nat
  | .swapping o _ _ => some o
  | .covering o => some o
  | _ => Option.none

/-- DAC_CORE_FAULT: the core that serves the output fails in tick f = now (R126, R127). A fault takes precedence over a
planned swap, whose output gets its own core back, with the power-up of the spare from tick f + 2,000. -/
def execDacCoreFault (o : Fin 96) (s : State) : Res :=
  let k := outCluster o.val
  let x := s.out o.val
  if x.failed ∨ x.faultMute ∨ x.core = .off ∨ !s.hasCluster k then .next s else
  let u := s.dacSpare k
  let s := s.faultMuteOut o.val
  if x.onSpare then
    let s := { s with synth := { s.synth with spareFailed := updN s.synth.spareFailed k fun _ => true } }
    let s := s.setDacSpare k .free
    if x.coreFailed then .next (s.failOut o.val)
    else .next ((s.modOut o.val fun x => { x with onSpare := false }).calAbandon (dieOf k) k true)
  else
    let s := s.modOut o.val fun x => { x with coreFailed := true }
    if atN s.synth.spareFailed k false then .next (s.failOut o.val) else
    match u with
    | .starting _ _ => .next (s.failOut o.val)
    | .serving _ => .next (s.failOut o.val)
    | _ =>
      match u.covered with
      | some c =>
        if c = o.val then .next ((s.setDacSpare k (.starting o.val s.now)).calAbandon (dieOf k) k true) else
        let s := (s.faultMuteOut c).modOut c fun x => { x with onSpare := false }
        .next ((s.setDacSpare k (.starting o.val (s.now + 1998))).calAbandon (dieOf k) k true)
      | none => .next ((s.setDacSpare k (.starting o.val s.now)).calAbandon (dieOf k) k true)

/-- DAC_FAULT_SWAP_END: the spare serves the failed output in tick f + 10,016 (Table 4.7), or an output that a fault took off
the spare has its own core back (R127): the fault mute is released. -/
def execDacFaultSwapEnd (o : Fin 96) (s : State) : Res :=
  let k := outCluster o.val
  let x := s.out o.val
  match s.dacSpare k with
  | .starting c f =>
    if c = o.val then
      let s := s.runTo (f + 10016)
      let s := (s.hearCluster s.now k).setDacSpare k (.serving o.val)
      let s := s.modOut o.val fun x => { x with onSpare := true }
      let s := s.muting o.val fun x => { x with faultMute := false }
      .next ((s.note (outRec o.val 2)).raiseOut 8 o.val)
    else if x.faultMute ∧ !x.coreFailed ∧ !x.failed then
      .next ((s.runTo (f + 2)).muting o.val fun x => { x with faultMute := false })
    else .next s
  | _ =>
    if x.faultMute ∧ !x.coreFailed ∧ !x.failed then .next (s.muting o.val fun x => { x with faultMute := false }) else .next s

/-- SPARE_PREPARED: the spare of a cluster has been powered for 100 µs with its trims (R125, R165): the DAC spare first, then
the ADC spare. -/
def execSparePrepared (k : Fin 8) (s : State) : Res :=
  match s.dacSpare k.val, s.adcSpare k.val with
  | .preparing o t, _ =>
    let s := s.runTo (t + 100000)
    .next (s.setDacSpare k.val (.ready o s.now))
  | _, .preparing l t =>
    let s := s.runTo (t + 100000)
    .next (s.setAdcSpare k.val (.ready l s.now))
  | _, _ => .next s

/-- A cue with a stamp before device tick `n` is held for a slot. -/
def State.cueHeld (s : State) (b : Binding) (n : Nat) : Bool :=
  s.seqs.seq.toList.any fun c => c.cues.any fun x =>
    decide (s.dev x.stamp < n) && (match x.act with
      | .play i _ _ => decide (atN c.active i Binding.none = b)
      | .setf i _ => decide (atN c.active i Binding.none = b)
      | .setp i _ => decide (atN c.active i Binding.none = b)
      | .frame i _ => decide (atN c.active i Binding.none = b)
      | .frames l => l.any fun y => decide (atN c.active y.1 Binding.none = b)
      | _ => false)

/-- A quiet interval of an output starts at tick q (R125): its code has been constant in ticks q − 16 to q − 1, and no cue with a stamp
before tick q + 52 is held for a slot of it or a source of its copies. The codes have been formed up to tick q. -/
def State.quietOut (s : State) (o q : Nat) : Bool :=
  decide ((s.out o).constFrom ≤ 16 * q - 256) && (slotsOfOut o).all fun b =>
    let a := (s.slotOf b).active
    !s.cueHeld b (q + 52) && !(decide (a.role = .copy) && s.cueHeld (srcBinding a.src) (q + 52))

/-- The core of the cluster's run is measured and waits for its swap back. -/
def State.calMeasured (s : State) (d : Nat) : Bool :=
  match (s.calOf d).run with
  | some r => r.measured
  | none => true

/-- DAC_PLANNED_SWAP: a quiet interval is confirmed in tick q = now, and the switch matrix makes and breaks (Table 4.6): onto
the prepared spare, or back once the core is measured. -/
def execDacPlannedSwap (o : Fin 96) (s : State) : Res :=
  let k := outCluster o.val
  let s := s.hearCluster s.now k
  match s.dacSpare k with
  | .ready c _ => if c = o.val ∧ s.quietOut c s.now then .next (s.setDacSpare k (.swapping c s.now false)) else .next s
  | .covering c =>
    if c = o.val ∧ s.calMeasured (dieOf k) ∧ s.quietOut c s.now then .next (s.setDacSpare k (.swapping c s.now true)) else .next s
  | _ => .next s

/-- DAC_PLANNED_SWAP_END: tick q + 16 (Table 4.6): the incoming core serves the output. After the swap back the run goes on
to its next element. -/
def execDacPlannedSwapEnd (o : Fin 96) (s : State) : Res :=
  let k := outCluster o.val
  match s.dacSpare k with
  | .swapping c q back =>
    if c ≠ o.val then .next s else
    let s := s.runTo (q + 16)
    let s := s.hearCluster s.now k
    if back then
      let s := (s.setDacSpare k .free).modOut o.val fun x => { x with onSpare := false }
      .next (((s.raiseOut 8 o.val).calNext (dieOf k)).trimCheck (dieOf k))
    else
      let s := (s.settleTrims.setDacSpare k (.covering o.val)).modOut o.val fun x => { x with onSpare := true }
      let s := s.modCal (dieOf k) fun c => { c with run := c.run.map (CalRun.started s.now c.temp) }
      .next (s.raiseOut 8 o.val)
  | _ => .next s

/-- PLANNED_SWAP_ABANDON: 100 ms without a quiet interval or without room: the attempt is abandoned and the element skipped
(R125, R165, R356). -/
def execPlannedSwapAbandon (k : Fin 8) (s : State) : Res :=
  match s.dacSpare k.val, s.adcSpare k.val with
  | .ready _ t, _ => .next (((s.runTo (t + 100000000)).setDacSpare k.val .free).calSkip (dieOf k.val))
  | _, .ready _ t => .next (((s.runTo (t + 100000000)).setAdcSpare k.val .free).calSkip (dieOf k.val))
  | _, _ => .next s

end Sys2Proof.Machine
end

