-- ==== Sys2Proof/Machine/WaveCmds.lean ====
section
/-!
DEFINITION. Machine/WaveCmds.lean: chapter 5: FOLIO_WRITE, SHELF_PIN and STREAM_PLAN (R135 to R145), refill (R143, R146) and
Shelf words in error (R141). Runs of granules are taken at the lowest address that fits.
-/
namespace Sys2Proof.Machine

/-! ## Runs of granules -/

/-- A run: first granule and length. -/
abbrev Run := Nat × Nat

/-- Two runs share a granule. -/
def Run.meets (a b : Run) : Bool := decide (a.1 < b.1 + b.2 ∧ b.1 < a.1 + a.2)

/-- Where a free run may begin: granule 0 and the granule after each used run. -/
def runStarts (used : List Run) : List Nat := 0 :: used.map fun r => r.1 + r.2

/-- The lowest free run of `n` granules among `total` (DESIGN CHOICE: the manual gives no placement). -/
def firstFit (used : List Run) (total n : Nat) : Option Nat :=
  (((runStarts used).filter fun a => decide (a + n ≤ total) && !used.any fun r => Run.meets (a, n) r).foldl
    (fun o a => match o with
      | none => some a
      | some b => some (min a b)) none)

/-- The free granules from `a` up to the next used run. -/
def runFrom (used : List Run) (total a : Nat) : Nat :=
  if total ≤ a ∨ used.any (fun r => decide (r.1 ≤ a ∧ a < r.1 + r.2)) then 0
  else (used.foldl (fun e r => if a ≤ r.1 then min e r.1 else e) total) - a

/-- The longest free run. -/
def largestRun (used : List Run) (total : Nat) : Nat := ((runStarts used).map (runFrom used total)).foldl max 0

/-- Granules of a list of runs. -/
def runsLen (l : List Run) : Nat := (l.map (·.2)).sum

/-! ## The memory share (R134, R375) -/

/-- Granules of a partition's memory share: units of 64 MiB. -/
def State.shareGranules (s : State) (p : Nat) : Nat := 262144 * (atN s.parts.part p {}).memory

/-- Granules of a ring of RING × 64 KiB. -/
def ringGranules (size : Nat) : Nat := 256 * size

/-- The rings of a slot, with those that its sealed and shadow plans have taken (R263). -/
def CapSlot.runs (c : CapSlot) : List Run :=
  let plan (o : Option (Option Plan)) : List Run := match o with
    | some (some p) => [(p.raddr, ringGranules p.ring)]
    | _ => []
  ((c.rings.map fun r => (r.addr, ringGranules r.size)) ++ plan c.sealed_ ++ plan c.shadow).eraseDups

/-- The runs in use in a partition's share: its folios, and the rings of its slots. -/
def State.shareRuns (s : State) (p : Nat) : List Run :=
  (s.wave.folios.filterMap fun (_, f) => if f.state ≠ .free ∧ f.owner.val = p then some (f.addr, f.granules) else none)
  ++ (s.parts.rslot.toList.zip s.acq.cap.toList).flatMap fun (o, c) => if o.val = p then c.runs else []

/-- The slot with the first granule of each of its rings, and of the rings its plans have taken, changed. -/
def CapSlot.rehome (f : Nat → Nat) (c : CapSlot) : CapSlot :=
  let plan (p : Plan) : Plan := { p with raddr := f p.raddr }
  { c with rings := c.rings.map fun r => { r with addr := f r.addr }
           active := c.active.map plan, prev := c.prev.map plan
           sealed_ := c.sealed_.map (·.map plan), shadow := c.shadow.map (·.map plan) }

/-- The granule behind the last run. -/
def runsEnd (l : List Run) : Nat := (l.map fun r => r.1 + r.2).foldl max 0

/-- New places for runs among those in use: the lowest free run each, or behind the last where none is free. -/
def placeRuns (total : Nat) : List Run → List Run → List (Nat × Nat)
  | [], _ => []
  | r :: l, used =>
    let a := (firstFit used total r.2).getD (runsEnd used)
    (r.1, a) :: placeRuns total l ((a, r.2) :: used)

/-- The rings of a slot that has come to another partition take places in that partition's share, outside every run of it (R134, R371). -/
def State.rehome (k : Nat) (s : State) : State :=
  let part := (s.demodOwner k).val
  let others := (s.modCap k fun _ => {}).shareRuns part
  let new := placeRuns (s.shareGranules part) (s.cap k).runs others
  s.modCap k (CapSlot.rehome fun a => ((new.find? fun x => x.1 == a).map (·.2)).getD a)

/-- Free bytes of a partition's share (Table 5.3). -/
def State.shareFree (s : State) (p : Nat) : Nat := 256 * (s.shareGranules p - runsLen (s.shareRuns p))

/-! ## FOLIO_WRITE (R135, R136) -/

/-- Fields of Table 5.2. -/
def fwMode (p : Packet) : Nat := fld (wordAt p.payload 0) 63 62
/-- FOLIO. -/
def fwFolio (p : Packet) : Nat := fld (wordAt p.payload 0) 55 40
/-- RATE. -/
def fwRate (p : Packet) : Nat := fld (wordAt p.payload 0) 39 16
/-- N. -/
def fwN (p : Packet) : Nat := fld (wordAt p.payload 1) 63 40
/-- OFFSET. -/
def fwOffset (p : Packet) : Nat := fld (wordAt p.payload 2) 63 40
/-- COUNT. -/
def fwCount (p : Packet) : Nat := fld (wordAt p.payload 2) 39 26

/-- A folio that some plan of any sequencer lists (R136). -/
def State.planned (s : State) (n : Nat) : Bool :=
  s.wave.plans.toList.any fun p => (p.shadow :: p.active :: p.sealed_.toList).any fun x => x.list.any fun e => e.2 == n

/-- A folio that is pinned on some die. -/
def State.pinnedAny (s : State) (n : Nat) : Bool := (List.range 4).any fun d => s.pinned d n

/-- OFFSET and COUNT fit a folio of `n` samples (Table 5.2). -/
def fwFits (p : Packet) (n : Nat) : Bool :=
  decide (fwOffset p + fwCount p ≤ n) && (fwCount p % 64 == 0 || fwOffset p + fwCount p == n)

/-- A folio with the samples of a packet: the words they fill, the upper half of the last word zero where the folio ends in
it, and the granules written. -/
def Folio.write (p : Packet) (f : Folio) : Folio :=
  let ws := (p.payload.drop 3).zipIdx.map fun (w, i) =>
    if fwOffset p + 2 * i + 1 < f.n then w else w &&& 0xFFFFFFFF#64
  { f with
    data := Sparse.setList 0 f.data (fwOffset p / 2) ws
    written := Sparse.fill false f.written (fwOffset p / 64) true (ceilDiv (fwCount p) 64) }

/-- Granules not yet written. -/
def Folio.missing (f : Folio) : Nat := f.granules - f.written.length

/-- The sample bytes of a folio (R135). -/
def Folio.bytes (f : Folio) : List Nat := (wordsBytes (Sparse.slice 0 f.data 0 (ceilDiv f.n 2))).take (4 * f.n)

/-- The check of R135 after a write that leaves no granule unwritten. -/
def Folio.check (f : Folio) : Folio :=
  if f.missing ≠ 0 then { f with state := .open_ }
  else if crc32c f.bytes = f.crc then { f with state := .complete } else { f with state := .bad }

/-- STATE of Table 5.3. -/
def FolioState.code : FolioState → Nat
  | .open_ => 0
  | .complete => 1
  | .bad => 2
  | .free => 3

/-- FOLIO_WRITE (R135, R136, Tables 5.2 and 5.3). OFFSET + COUNT is held against N in CREATE and DATA; a DELETE has COUNT = 0 and
carries no N, and its OFFSET is not held against the folio's (DESIGN CHOICE: R136 makes that check for DATA alone). -/
def folioWriteCmd : Command where
  opcode := 0x0501
  pf := true
  vf := true
  int := false
  dbg := none
  fmt _ p :=
    let create := fwMode p == 0
    firstRef [need (3 ≤ p.payload.length) 0x0104 (2 + p.payload.length), needLen p (3 + ceilDiv (fwCount p) 2),
      needZero p 0 (mask 61 56 ||| mask 15 0), needZero p 1 (mask 39 32), needZero p 2 (mask 25 0),
      needOk 0 (fwMode p ≠ 3), needOk 0 (if create then 16384 ≤ fwRate p ∧ fwRate p ≤ 2097152 else fwRate p = 0),
      needOk 1 (if create then 1 ≤ fwN p else fwN p = 0), needOk 1 (create || lo32 (wordAt p.payload 1) == 0),
      needOk 2 (fwOffset p % 64 == 0 && fwCount p ≤ 16320), needOk 2 (fwMode p != 2 || fwCount p == 0),
      needOk 2 (!create || fwFits p (fwN p))]
  maxReply _ := 2
  chk s p :=
    let f := s.folio (fwFolio p)
    let free := decide (f.state = .free)
    if fwMode p = 0 then
      firstRef [need (free || pktOwns p f.owner) 0x0204, need free 0x0403,
        need (firstFit (s.shareRuns p.partition.toNat) (s.shareGranules p.partition.toNat) (ceilDiv (fwN p) 64)).isSome 0x0306]
    else
      firstRef [need (free || pktOwns p f.owner) 0x0204, need (!free) 0x0403,
        need (!s.pinnedAny (fwFolio p) && !s.planned (fwFolio p)) 0x0403,
        if fwMode p = 1 then needOk 2 (fwFits p f.n) else none]
  waits _ _ := []
  eff s p :=
    let n := fwFolio p
    let own : Fin 8 := Fin.ofNat 8 p.partition.toNat
    let f := s.folio n
    let g : Folio := match fwMode p with
      | 0 =>
        let a := (firstFit (s.shareRuns own.val) (s.shareGranules own.val) (ceilDiv (fwN p) 64)).getD 0
        (({ state := .open_, owner := own, rate := fwRate p, n := fwN p, crc := lo32 (wordAt p.payload 1), addr := a } : Folio).write p).check
      | 1 => (f.write p).check
      | _ => {}
    let s := s.modFolio n fun _ => g
    { st := s, status := if fwMode p ≠ 2 ∧ g.state = .bad then 0x0601 else 0
      reply := some [put 63 62 g.state.code ||| put 61 42 g.missing, BitVec.ofNat 64 (s.shareFree own.val)]
      about := evRec 12 n }

/-! ## The Shelf (R137 to R139) -/

/-- Granules of a Shelf (R137). -/
def shelfSize : Nat := 57344

/-- The runs in use on a Shelf. -/
def Shelf.used (h : Shelf) : List Run := h.runs.map fun r => (r.addr, r.len)

/-- A run holds a placement entry: pins, heads and kernels (R137, R142, R157). -/
def ShelfUse.entry : ShelfUse → Bool
  | .pin _ => true
  | .head _ => true
  | .kernel _ => true
  | _ => false

/-- Placement entries in use. -/
def Shelf.placed (h : Shelf) : Nat := (h.runs.filter fun r => r.use.entry).length

/-- Free granules. -/
def Shelf.free (h : Shelf) : Nat := shelfSize - runsLen h.used

/-- The Shelf with a run added at the lowest address that fits; `none` where granules or placement entries are short. -/
def Shelf.alloc (use : ShelfUse) (n : Nat) (placed : Bool) (h : Shelf) : Option Shelf :=
  if use.entry ∧ 4096 ≤ h.placed then none else
  match firstFit h.used shelfSize n with
  | none => none
  | some a => some { h with runs := h.runs ++ [{ use := use, addr := a, len := n, placed := placed }] }

/-- Several runs, in order; answers the index of the first that finds no room. -/
def Shelf.allocAll : List (ShelfUse × Nat × Bool) → Nat → Shelf → Shelf × Option Nat
  | [], _, h => (h, none)
  | (u, n, pl) :: l, i, h =>
    match h.alloc u n pl with
    | none => (h, some i)
    | some h => Shelf.allocAll l (i + 1) h

/-- The folios that a SHELF_PIN names (Table 5.4). -/
def pinList (p : Packet) : List Nat :=
  (List.range (fld (wordAt p.payload 0) 59 47)).map fun i => fld (wordAt p.payload (1 + i / 4)) (16 * (i % 4) + 15) (16 * (i % 4))

/-- Fields of Table 5.4. -/
def pinAction (p : Packet) : Nat := fld (wordAt p.payload 0) 63 62
/-- DIE. -/
def pinDie (p : Packet) : Nat := fld (wordAt p.payload 0) 61 60

/-- A PLAY of an active or sealed live range of a sequencer on the die names the folio (R139). -/
def State.playsOn (s : State) (die folio : Nat) : Bool :=
  (List.range 64).any fun i =>
    let c := s.sq (64 * die + i)
    let names (lo hi : Nat) : Bool := (List.range (hi + 1 - lo)).any fun k => match readSeq (Sparse.get 0 c.prog (lo + k)) with
      | some (.play _ _ f) => f == folio
      | _ => false
    names c.entry c.limit || c.sealed_.any fun x => names x.entry x.limit

/-- The partition owns an element of a cluster of the die. -/
def State.ownsOnDie (s : State) (part die : Nat) : Bool := s.ownsInCluster part (2 * die) || s.ownsInCluster part (2 * die + 1)

/-- The runs that a pin takes. -/
def State.pinRuns (s : State) (l : List Nat) : List (ShelfUse × Nat × Bool) :=
  l.map fun f => (.pin f, (s.folio f).granules, false)

/-- The reply of SHELF_PIN (Table 5.5). -/
def Shelf.word (h : Shelf) : Word := orAll [put 63 48 h.free, put 47 32 (largestRun h.used shelfSize), put 31 19 h.placed]

/-- SHELF_PIN (R138, R139, Tables 5.4 and 5.5). A pin completes when its last copy is in place; its bound grows by 1 µs per
4 KiB (R309). A folio that one packet names twice is refused for a pin, since the first naming pins it, and accepted for an unpin
(DESIGN CHOICE: the manual does not speak of a repeated name). A query checks the ownership of the folios it names (R139). -/
def shelfPinCmd : Command where
  opcode := 0x0502
  pf := true
  vf := true
  int := false
  dbg := none
  fmt _ p :=
    let n := fld (wordAt p.payload 0) 59 47
    let unused := if n % 4 = 0 then 0 else mask 63 (16 * (n % 4))
    firstRef [need (p.payload ≠ []) 0x0104 2, needOk 0 (n ≤ 4096 && (1 ≤ n || pinAction p == 2)), needLen p (1 + ceilDiv n 4),
      needZero p 0 (mask 46 0), needOk 0 (pinAction p ≠ 3), needZero p (ceilDiv n 4) (if n = 0 then 0 else unused)]
  maxReply _ := 1
  chk s p :=
    let d := pinDie p
    let l := pinList p
    firstRef ([need (s.hasDie d) 0x0303, need (s.ownsOnDie p.partition.toNat d) 0x0204] ++
      (l.zipIdx.map fun (f, i) =>
        let x := s.folio f
        let free := decide (x.state = .free)
        if pinAction p = 2 then need (free || pktOwns p x.owner) 0x0204 i
        else if pinAction p = 0 then
          firstRef [need (free || pktOwns p x.owner) 0x0204 i, need (decide (x.state = .complete)) 0x0403 i,
            need (!s.pinned d f && !(l.take i).contains f) 0x0403 i]
        else
          firstRef [need (free || pktOwns p x.owner) 0x0204 i, need (s.pinned d f) 0x0403 i, need (!s.playsOn d f) 0x0402 i]) ++
      [if pinAction p = 0 then
        match (Shelf.allocAll (s.pinRuns l) 0 (s.shelfOf d)).2 with
        | some i => some ⟨0x0302, i⟩
        | none => none
       else none])
  waits _ _ := []
  eff s p :=
    let d := pinDie p
    let l := pinList p
    match pinAction p with
    | 0 =>
      let s := s.modShelf d fun h => (Shelf.allocAll (s.pinRuns l) 0 h).1
      { st := s, later := true, bound := 1000 * ceilDiv ((l.map fun f => 256 * (s.folio f).granules).sum) 4096
        about := { evRec 12 (l.headD 0) with die := d } }
    | 1 =>
      let s := s.modShelf d fun h => { h with runs := h.runs.filter fun r => match r.use with
        | .pin f => !l.contains f
        | .head f => s.listed d f || (s.pinned d f && !l.contains f)
        | _ => true }
      { st := s, reply := some [(s.shelfOf d).word], about := { evRec 12 (l.headD 0) with die := d } }
    | _ => { st := s, changed := false, reply := some [(s.shelfOf d).word] }

/-! ## STREAM_PLAN (R144, R145) -/

/-- The pairs of a packet (Table 5.6). -/
def planPairs (p : Packet) : List (Nat × Nat) := (p.payload.drop 1).map fun w => (fld w 63 61, fld w 60 45)
/-- SEQ. -/
def planSeq (p : Packet) : Nat := fld (wordAt p.payload 0) 63 56

/-- Plans of a sequencer with a new shadow, under a serial that no copy has. -/
def Plans.replace (l : List (Nat × Nat)) (x : Plans) : Plans :=
  { x with shadow := { serial := 1 + max x.shadow.serial (max x.active.serial ((x.sealed_.map (·.serial)).getD 0)), list := l } }

/-- Partition demand (R144): per sequencer, the larger charge of the plan in force and of the newest plan. -/
def State.streamDemand (s : State) (p : Nat) : Nat :=
  ((s.parts.seq.toList.zip s.wave.plans.toList).map fun (o, x) =>
    if o.val = p then max (s.planCharge x.active) (s.planCharge x.shadow) else 0).sum

/-- The state with the new shadow plan and without the runs that only the old shadow plan used. -/
def State.withPlan (s : State) (p : Packet) : State :=
  (s.modPlans (planSeq p) (Plans.replace (planPairs p))).freeStreams (planSeq p)

/-- The runs that the new plan needs: two halves per window, and the heads not present on the die. -/
def State.planRuns (s : State) (q : Nat) : List (ShelfUse × Nat × Bool) :=
  let x := (s.plansOf q).shadow
  let sh := s.shelfOf (dieOf (seqCluster q))
  ((List.range 8).flatMap fun b =>
    let h := s.planHalf x b
    if h = 0 then [] else [(ShelfUse.window q b x.serial, h, true), (ShelfUse.window q b x.serial, h, true)])
  ++ (((x.list.map (·.2)).eraseDups.filter fun f => !sh.runs.any fun r => r.use == .head f).map fun f =>
    (ShelfUse.head f, ceilDiv (s.folio f).head 64, false))

/-- The reply of STREAM_PLAN (Table 5.7). -/
def State.planWords (s : State) (q : Nat) : Words :=
  let x := s.plansOf q
  let sh := s.shelfOf (dieOf (seqCluster q))
  let mine (r : ShelfRun) : Bool := match r.use with
    | .window q' _ _ => q' == q
    | .head f => (x.shadow :: x.active :: x.sealed_.toList).any fun y => y.list.any fun e => e.2 == f
    | _ => false
  [put 63 32 (s.planCharge x.shadow) ||| put 31 0 (s.streamDemand (s.seqOwner q).val),
   orAll [put 63 32 (atN s.parts.part (s.seqOwner q).val {}).stream, put 31 16 ((sh.runs.filter mine).map (·.len)).sum, put 15 0 sh.free],
   put 63 32 (satAdd 32 (s.sq q).underruns (s.owed q s.now))]

/-- Heads that the shadow plan of a sequencer lists and that are not in place. -/
def State.headsDue (s : State) (q : Nat) : List Nat :=
  let sh := s.shelfOf (dieOf (seqCluster q))
  ((s.plansOf q).shadow.list.map (·.2)).eraseDups.filter fun f => sh.runs.any fun r => r.use == .head f && !r.placed

/-- STREAM_PLAN (R144, R145, Tables 5.6 and 5.7). It completes when the last head is in place. -/
def streamPlanCmd : Command where
  opcode := 0x0503
  pf := true
  vf := true
  int := false
  dbg := none
  fmt _ p :=
    let n := fld (wordAt p.payload 0) 55 46
    firstRef [need (p.payload ≠ []) 0x0104 2, needLen p (1 + n), needZero p 0 (mask 45 0),
      firstRef ((planPairs p).zipIdx.map fun (e, i) =>
        firstRef [needZero p (1 + i) (mask 44 0), needOk (1 + i) (!((planPairs p).take i).contains e)])]
  maxReply _ := 3
  chk s p :=
    let q := planSeq p
    let part := (s.seqOwner q).val
    let t := s.withPlan p
    firstRef ([s.needSeq p q] ++ (planPairs p).zipIdx.map (fun ((_, f), i) =>
        let x := s.folio f
        firstRef [need (decide (x.state = .free) || pktOwns p x.owner) 0x0204 i, need (decide (x.state = .complete)) 0x0403 i]) ++
      [need (t.streamDemand part ≤ (atN s.parts.part part {}).stream) 0x0301,
       need (Shelf.allocAll (t.planRuns q) 0 (t.shelfOf (dieOf (seqCluster q)))).2.isNone 0x0302])
  waits s p := [s.setWait (planSeq p)]
  eff s p :=
    let q := planSeq p
    let d := dieOf (seqCluster q)
    let s := s.withPlan p
    let runs := s.planRuns q
    let s := s.modShelf d fun h => (Shelf.allocAll runs 0 h).1
    let due := s.headsDue q
    { st := s, later := due ≠ [], reply := some (s.planWords q)
      bound := 1000 * ceilDiv ((due.map fun f => 4 * (s.folio f).head).sum) 4096
      about := seqRec q }

/-- SHELF_COPY_END: the last copy of the SHELF_PIN or STREAM_PLAN that began first is in place, and the command completes
(R138, R145). A copy that met an uncorrectable codeword sets its folio to BAD: that copy is not placed, and the command
completes with 0x0602 (R146). -/
def execShelfCopyEnd (bad : Option (BitVec 16)) (s : State) : Res :=
  match s.host.open_.find? fun o => o.opcode == 0x0502 || o.opcode == 0x0503 with
  | none => .next s
  | some o =>
    let pin := o.opcode == 0x0502
    let d := if pin then pinDie o.packet else dieOf (seqCluster (planSeq o.packet))
    let l := if pin then pinList o.packet else s.headsDue (planSeq o.packet)
    let use (f : Nat) : ShelfUse := if pin then .pin f else .head f
    let bad := bad.bind fun b => if l.contains b.toNat then some b.toNat else none
    let place (r : ShelfRun) : Option ShelfRun :=
      if !(l.any fun f => r.use == use f) then some r
      else if (bad.any fun b => r.use == use b) then none
      else some { r with placed := true }
    let s := s.hearDie d
    let landed := (s.shelfOf d).runs.filter fun r => !r.placed && l.any fun f => r.use == use f
    let s := s.modShelf d fun h => landed.foldl (fun h r => h.recopied r.addr r.len) { h with runs := h.runs.filterMap place }
    let s := match bad with
      | some b => s.modFolio b fun f => { f with state := .bad }
      | none => s
    let reply := if pin then [(s.shelfOf d).word] else s.planWords (planSeq o.packet)
    let index := if bad.isSome then l.findIdx fun f => bad == some f else noRecord
    .next (State.finish (detail := index) o (if bad.isSome then 0x0602 else 0) (some reply) s.tick o.seq
      (bound := 1000 * ceilDiv ((l.map fun f => if pin then 256 * (s.folio f).granules else 4 * (s.folio f).head).sum) 4096) s)

/-! ## Refill (R143, R146) -/

/-- REFILL_REQUEST: the player of a binding passes the midpoint of the head or enters a half, and the next half is requested.
Its granules become invalid. A folio cut before that sample makes no further request. -/
def execRefillRequest (q : Fin 256) (b : Fin 8) (s : State) : Res :=
  match s.streaming q.val b.val with
  | none => .next s
  | some (x, f, half) =>
    let w := (atN (s.plansOf q.val).wins b.val {}).at_ x.start
    match nextRequest w f half x.rep with
    | none => .next s
    | some (r, k) =>
      let n := x.start + r * x.len + f.reach (requestAt f.head half k)
      if x.stopAt.any (fun e => decide (e ≤ n)) then .next s else
      let s := (s.runTo (n / 16)).settle q.val b.val (n / 16)
      let first := f.head + k * 64 * half
      let h : WinHalf := { first := first, asked := min half (ceilDiv (f.n - first) 64) }
      .next (s.modPlans q.val fun p => { p with wins := updN p.wins b.val fun w =>
        let w := w.at_ x.start
        let w := if r = w.rep then w else { w with rep := r, a := {}, b := {} }
        if k % 2 = 0 then { w with requests := k + 1, a := h } else { w with requests := k + 1, b := h } })

/-- An uncorrectable codeword of a channel is met at an address that the manual does not state (R146, R447). -/
def State.dramError (c : Fin 8) (s : State) : State :=
  let (a, s) := s.drawWord
  s.dramFault c (lo32 a)

/-- REFILL_LAND: `n` granules of the half that a binding requested last, or of the one before while it is not complete, land
and become valid. The last of them stays invalid where it met an uncorrectable codeword of channel `err` (R146). -/
def execRefillLand (q : Fin 256) (b : Fin 8) (n : Fin 8192) (err : Option (Fin 8)) (s : State) : Res :=
  match s.streaming q.val b.val with
  | none => .next s
  | some (x, _, _) =>
    let s := s.settle q.val b.val s.now
    let land (h : WinHalf) : WinHalf :=
      let l := min h.asked (h.landed + n.val)
      { h with landed := l, bad := if err.isSome && h.landed < l then (l - 1) :: h.bad else h.bad }
    let s := match err with
      | some c => s.dramError c
      | none => s
    let w := (atN (s.plansOf q.val).wins b.val {}).at_ x.start
    -- The older request lands first.
    let aFirst := decide (w.a.landed < w.a.asked) && (decide (w.b.asked ≤ w.b.landed) || decide (w.a.first < w.b.first))
    let h := if aFirst then w.a else w.b
    let s := match (s.windowRuns q.val b.val)[if aFirst then 0 else 1]? with
      | some r => s.modShelf (dieOf (seqCluster q.val)) (Shelf.recopied (r.addr + h.landed) ((land h).landed - h.landed))
      | none => s
    .next (s.modPlans q.val fun p => { p with wins := updN p.wins b.val fun _ =>
      if aFirst then { w with a := land w.a } else { w with b := land w.b } })

/-- SHELF_ECC_ERROR: a Shelf word, by granule and word of the granule, that sequencer `q`'s slot plays (R141). A corrected one is
counted; an uncorrectable one plays as two zero samples until its granule is copied again, taints the shot, sets SHELF_ECC and asks
for a repair from the Stacks. -/
def execShelfEccError (q : Fin 256) (granule : Fin 57344) (word : Fin 32) (corrected : Bool) (s : State) : Res :=
  let d := dieOf (seqCluster q.val)
  if corrected then .next (s.modShelf d fun h => { h with corrected := h.corrected + 1 })
  else
    let s := s.hearCluster s.now (seqCluster q.val)
    let s := s.modShelf d fun h =>
      { h with uncorrectable := h.uncorrectable + 1, bad := if h.bad.contains (granule.val, word.val) then h.bad else (granule.val, word.val) :: h.bad }
    let s := if (s.sq q.val).inShot then s.modSeq q.val fun c => { c with f := setFlag c.f flagTN true } else s
    let s := { s with units := { s.units with repairs := s.units.repairs ++ [Repair.shelf d granule.val] } }
    .next (s.troubleOwned (dieWord d) 3 (s.seqOwner q.val))

end Sys2Proof.Machine
end

