-- ==== Sys2Proof/Machine/ReadCmds.lean ====
section
/-!
DEFINITION. Machine/ReadCmds.lean: chapter 6: READOUT_CONFIG, KERNEL_LOAD and DISCRIM_CONFIG (R168 to R171), integration
windows (R155, R156), fast verdicts (R159, R160), value lanes (R161, R162), windows without a result (R163, R198), and the
spare ADC cores (R165 to R167).
-/
namespace Sys2Proof.Machine

/-! ## READOUT_CONFIG (Tables 6.6 and 6.7) -/

/-- Fields of record `i`: its two words. -/
def rcA (p : Packet) (i : Nat) : Word := wordAt p.payload (1 + 2 * i)
/-- Second word. -/
def rcB (p : Packet) (i : Nat) : Word := wordAt p.payload (2 + 2 * i)
/-- Line of a record. -/
def rcLine (a : Word) : Nat := fld a 62 58
/-- The record is of a line. -/
def rcIsLine (a : Word) : Bool := bitAt a 63
/-- The record is a query. -/
def rcQuery (a : Word) : Bool := bitAt a 57
/-- Demodulation slot of a slot record. -/
def rcSlot (a : Word) : Nat := 16 * rcLine a + fld a 56 53

/-- Records of a packet. -/
def rcList (p : Packet) : List (Word × Word) :=
  (List.range (fld (wordAt p.payload 0) 63 54)).map fun i => (rcA p i, rcB p i)

/-- The origin's partition owns every slot of a line. -/
def State.ownsLine (s : State) (p : Packet) (l : Nat) : Bool := (List.range 16).all fun r => pktOwns p (s.demodOwner (16 * l + r))

/-- Waits and the refusal of R19 for the dies of lines. -/
def State.lineDies (s : State) (l : List Nat) : List Wait :=
  (List.finRange 4).filterMap fun d => if l.any fun x => x / 8 == d.val then some (s.dieWait d) else none
/-- After 100 ms without a group to the die of a record's line (R19). -/
def State.lineDead (s : State) (l : List Nat) : Option Refused :=
  s.needDies (l.map (· / 8))

/-- The line gives no samples from tick `t` on (R150, R166). -/
def Line.silence (t : Nat) (upTo : Option Nat) (fault : Bool) (l : Line) : Line := { l with blanks := { start := t, upTo, fault } :: l.blanks }

/-- POWER of a line from tick `t` on (R150): without it the line produces no samples. -/
def Line.setPower (t : Nat) (on : Bool) (l : Line) : Line :=
  if on = l.power then l
  else if on then { l with power := true, blanks := l.blanks.map fun b => if b.fault || b.upTo.isSome then b else { b with upTo := some t } }
  else { l.silence t none false with power := false }

/-- A record of READOUT_CONFIG acts: slot settings into the shadow copy, ZONE and POWER at once (R150, R168). -/
def State.rcApply (s : State) (r : Word × Word) : State :=
  let (a, b) := r
  if rcQuery a then s
  else if rcIsLine a then
    s.modLine (rcLine a) fun x =>
      let z := bitAt a 56
      let w := bitAt a 55
      { x.setPower s.now w with zone := z, settleAt := if z != x.zone || w != x.power then some s.now else x.settleAt }
  else s.modDemod (rcSlot a) fun d => { d with shadow := { d.shadow with
    role := bitAt a 52, est := bitAt a 51, ovrinv := bitAt a 50, nochk := bitAt a 49, ftw := a.setWidth 48, foff := hi32 b } }

/-- A reply word of READOUT_CONFIG (Table 6.7). -/
def State.rcWord (s : State) (a : Word) : Word :=
  let l := s.ln (rcLine a)
  let d := s.dm (rcSlot a)
  let (st, ca, n) := if rcIsLine a then (if l.failed then 2 else b2n !l.power, l.drops, l.overSamples) else (b2n d.active.role, d.outOfRange, d.closed)
  orAll [put 63 62 st, putB 61 l.onSpare, putB 60 (s.adcFree (lineCluster (rcLine a))), putB 59 l.zone, put 47 32 ca, put 31 0 n.toNat]

/-- Some line of a packet still settles. -/
def State.rcSettling (s : State) (p : Packet) : Bool := (rcList p).any fun (a, _) => rcIsLine a && (s.ln (rcLine a)).settleAt.isSome

/-- READOUT_CONFIG (R150, R168, R171). A change of ZONE or POWER posts the completion after settling. -/
def readoutConfigCmd : Command where
  opcode := 0x0601
  pf := true
  vf := true
  int := true
  dbg := none
  fmt _ p :=
    let n := fld (wordAt p.payload 0) 63 54
    firstRef [need (p.payload ≠ []) 0x0104 2, needOk 0 (1 ≤ n ∧ n ≤ 544), needLen p (1 + 2 * n), needZero p 0 (mask 53 0),
      firstRef ((List.range n).map fun i =>
        let a := rcA p i
        let j := 1 + 2 * i
        if rcIsLine a then firstRef [needZero p j (mask 54 0), needZero p (j + 1) (mask 63 0),
          needOk j (!rcQuery a || fld a 56 55 == 0)]
        else firstRef [needZero p j (mask 48 48), needZero p (j + 1) (mask 31 0),
          needOk j (!rcQuery a || fld a 52 0 == 0), needOk (j + 1) (!rcQuery a || rcB p i == 0)])]
  maxReply p := fld (wordAt p.payload 0) 63 54
  chk s p :=
    firstRef ((rcList p).zipIdx.map (fun ((a, _), i) =>
      let l := rcLine a
      let x := s.ln l
      let set := rcIsLine a && !rcQuery a
      firstRef [need (s.hasCluster (lineCluster l)) 0x0303 i,
        need (if rcIsLine a then s.ownsLine p l else pktOwns p (s.demodOwner (rcSlot a))) 0x0204 i,
        need (!(set && bitAt a 55) || decide (s.power.st ≠ .standby)) 0x0404 i,
        need (!set || (bitAt a 56 == x.zone && bitAt a 55 == x.power) || !s.lineBound l) 0x0402 i,
        need (!(set && bitAt a 55) || !x.failed) 0x0403 i]) ++ [s.lineDead ((rcList p).map fun r => rcLine r.1)])
  waits s p :=
    ((rcList p).flatMap fun (a, _) =>
      let l := rcLine a
      if rcQuery a then []
      else if rcIsLine a then [({ item := .calElement 2 l, detail := 2
                                  busy := bitAt a 55 && !(s.ln l).power && s.measuredNow (l / 8) 2 (l % 8) } : Wait)]
      else s.bindWait (demodBinding l (fld a 56 53))) ++ s.lineDies ((rcList p).map fun r => rcLine r.1)
  eff s p :=
    let l := rcList p
    let s := l.foldl State.rcApply s
    { st := s, reply := some (l.map fun r => s.rcWord r.1), changed := l.any fun r => !rcQuery r.1
      later := l.any fun r => !rcQuery r.1 && rcIsLine r.1 && (s.ln (rcLine r.1)).settleAt == some s.now
      about := match l with
        | r :: _ => demodRec (rcSlot r.1) 0
        | [] => {} }

/-- LINE_SETTLE_END: the analogue settling of a line ends (R150), and a READOUT_CONFIG of which no line settles any longer
completes. -/
def execLineSettleEnd (l : Fin 32) (s : State) : Res :=
  if (s.ln l.val).settleAt.isNone then .next s else
  let s := s.modLine l.val fun x => { x with settleAt := none }
  let mine (o : OpenCmd) : Bool := o.opcode == 0x0601 && !s.rcSettling o.packet
  .next ((s.host.open_.filter mine).foldl (fun s o =>
    s.finish o 0 (some ((rcList o.packet).map fun r => s.rcWord r.1)) s.tick o.seq 20000) s)

/-! ## KERNEL_LOAD (Table 6.8) and DISCRIM_CONFIG (Table 6.9) -/

/-- Slot that a KERNEL_LOAD or a record of DISCRIM_CONFIG names. -/
def klSlot (w : Word) : Nat := 16 * fld w 63 59 + fld w 58 55

/-- Granules of a kernel of `k` weights (R157). -/
def kernelGranules (k : Nat) : Nat := ceilDiv k 32

/-- KERNEL_LOAD (R157, R171). -/
def kernelLoadCmd : Command where
  opcode := 0x0602
  pf := true
  vf := true
  int := false
  dbg := none
  fmt _ p :=
    let w := wordAt p.payload 0
    let k := fld w 53 41
    firstRef [need (p.payload ≠ []) 0x0104 2, needOk 0 (if bitAt w 54 then k = 0 else 1 ≤ k ∧ k ≤ 4096), needLen p (1 + k),
      needZero p 0 (mask 40 0),
      firstRef ((List.range k).map fun i =>
        let e := wordAt p.payload (1 + i)
        needOk (1 + i) (F32.finite (lo32 e) && F32.finite (hi32 e) && fMagLe (lo32 e) (hi32 e) (2 ^ 20)))]
  maxReply _ := 1
  chk s p :=
    let w := wordAt p.payload 0
    let k := klSlot w
    let l := fld w 63 59
    firstRef [need (s.hasCluster (lineCluster l)) 0x0303, need (pktOwns p (s.demodOwner k)) 0x0204,
      if bitAt w 54 then none else
        need ((s.shelfOf (dieOf (lineCluster l))).alloc (.kernel k) (kernelGranules (fld w 53 41)) true).isSome 0x0302,
      s.needDie (Fin.ofNat 4 (l / 8))]
  waits s p :=
    let w := wordAt p.payload 0
    s.bindWait (demodBinding (fld w 63 59) (fld w 58 55)) ++ s.lineDies [fld w 63 59]
  eff s p :=
    let w := wordAt p.payload 0
    let k := klSlot w
    let d := dieOf (lineCluster (fld w 63 59))
    let n := kernelGranules (fld w 53 41)
    let a := (firstFit (s.shelfOf d).used shelfSize n).getD 0
    let s := if bitAt w 54 then s else s.modShelf d fun h => (h.alloc (.kernel k) n true).getD h
    let s := s.modDemod k fun x => { x with shadow := { x.shadow with kernel := p.payload.drop 1, kaddr := if bitAt w 54 then 0 else a } }
    let s := s.freeKernels k
    { st := s, reply := some [put 63 48 (if bitAt w 54 then 0 else n) ||| put 47 32 (s.shelfOf d).free], about := demodRec k 0 }

/-- The words of record `i`: A to D. -/
def dcWord (p : Packet) (i j : Nat) : Word := wordAt p.payload (1 + 4 * i + j)

/-- The discriminator of record `i` (Table 6.9). -/
def dcRead (p : Packet) (i : Nat) : Discrim :=
  let a := dcWord p i 0
  let b := dcWord p i 1
  let c := dcWord p i 2
  let d := dcWord p i 3
  { map0 := fld a 54 52, map1 := fld a 51 49, map2 := fld a 48 46, ac := lo32 b, as_ := hi32 b, ci := lo32 c, cq := hi32 c
    t1 := lo32 d, t2 := hi32 d }

/-- Every parameter finite (R159). -/
def Discrim.pairOk (w : Word) : Bool := F32.finite (lo32 w) && F32.finite (hi32 w)

/-- DISCRIM_CONFIG (R159, R171). -/
def discrimConfigCmd : Command where
  opcode := 0x0603
  pf := true
  vf := true
  int := true
  dbg := none
  fmt _ p :=
    let n := fld (wordAt p.payload 0) 63 54
    firstRef [need (p.payload ≠ []) 0x0104 2, needOk 0 (1 ≤ n ∧ n ≤ 512), needLen p (1 + 4 * n), needZero p 0 (mask 53 0),
      firstRef ((List.range n).map fun i =>
        let j := 1 + 4 * i
        let x := dcRead p i
        firstRef [needZero p j (mask 45 0), needOk j (x.map0 ≤ 4 && x.map1 ≤ 4 && x.map2 ≤ 4),
          needOk (j + 1) (Discrim.pairOk (dcWord p i 1)), needOk (j + 2) (Discrim.pairOk (dcWord p i 2)),
          needOk (j + 3) (Discrim.pairOk (dcWord p i 3) && !fLt x.t2 x.t1)])]
  maxReply _ := 0
  chk s p :=
    let n := fld (wordAt p.payload 0) 63 54
    firstRef ((List.range n).map (fun i =>
      let k := klSlot (dcWord p i 0)
      firstRef [need (s.hasCluster (lineCluster (demodLine k))) 0x0303 i, need (pktOwns p (s.demodOwner k)) 0x0204 i])
      ++ [s.lineDead ((List.range n).map fun i => demodLine (klSlot (dcWord p i 0)))])
  waits s p :=
    let l := (List.range (fld (wordAt p.payload 0) 63 54)).map fun i => klSlot (dcWord p i 0)
    (l.flatMap fun k => s.bindWait (demodBinding (demodLine k) (demodSlotNo k))) ++ s.lineDies (l.map demodLine)
  eff s p :=
    let l := List.range (fld (wordAt p.payload 0) 63 54)
    { st := l.foldl (fun s i => s.modDemod (klSlot (dcWord p i 0)) fun x => { x with shadow := { x.shadow with disc := dcRead p i } }) s
      about := demodRec (klSlot (dcWord p 0 0)) 0 }

/-! ## Windows (R155, R156) -/

/-- The accumulator of a demodulation slot at ADC sample `m` (R153): the DAC sample instant that coincides with it is 2m. A window near
the epoch reaches samples before it. -/
def demodAcc (ftw : BitVec 48) (m : Int) : BitVec 48 := BitVec.ofInt 48 (ftw.toNat * (2 * m))

/-- The carrier phase θ(m) of a demodulation slot, counted from the epoch (R153). -/
def DemodSet.theta (d : DemodSet) (m : Int) : BitVec 32 := (demodAcc d.ftw m >>> 16).setWidth 32 + d.foff

/-- The code of a raw sample as a number (R151). -/
def adcCode (c : BitVec 12) : Int := toSigned 12 c.toNat

/-- The line produces no sample in tick `t`, or its data are replaced by zero (R150, R166). -/
def Line.blank (l : Line) (t : Int) : Bool := l.blanks.any fun b => decide ((b.start : Int) ≤ t) && b.upTo.all fun e => decide (t < (e : Int))

/-- The samples of a line from codes of which the first is ADC sample `n0` of the device, eight a tick (R151); zero in a blank. -/
def Line.sample (l : Line) (n0 : Int) (codes : List (BitVec 12)) (n : Int) : Int :=
  if n < n0 ∨ l.blank (n / 8) then 0 else adcCode (codes.getD (n - n0).toNat 0)

/-- A tap of the decimation filter at distance `d` from its centre, in units of 2^-30 (R154): symmetric, unity gain at DC. -/
def decimTap (d : Nat) : Int :=
  if d = 0 then 2 ^ 30 - 2 * ((List.range 96).map fun i => Config.decimationTap (i + 1)).sum else Config.decimationTap d

/-- One ADC sample times e^(−j2πθ) (R153): code 2,048 is 1.0, in units of 2^-41. -/
def mixSample (theta : BitVec 32) (x : Int) : Int × Int :=
  let (c, s) := cosSin theta
  (x * c, -(x * s))

/-- The decimated sample centred on ADC sample `m` (R154): 193 taps over mixed samples, rounded to float32. -/
def decimate (mixed : Int → Int × Int) (m : Int) : Word :=
  let z := (List.range 193).foldl (fun (a : Int × Int) (t : Nat) =>
    let d : Int := (t : Int) - 96
    let h := decimTap d.natAbs
    let x := mixed (m + d)
    (a.1 + h * x.1, a.2 + h * x.2)) (0, 0)
  pairWord (fRoundInt false z.1 (-71)) (fRoundInt false z.2 (-71))

/-- Last tick of a window. -/
def Window.last (w : Window) : Nat := w.start + w.len - 1

/-- Decimated samples of a window (R155). -/
def Window.samples (w : Window) : Nat := (w.len + 1) / 2

/-- The first ADC sample that a window's filter reaches, 12 ticks before the window, numbered on the device clock (R155). -/
def Window.reach (w : Window) : Int := 8 * (w.start : Int) - 96

/-- The decimated samples of a window of slot `k`, from raw codes of which the first is the first sample its filter reaches (R153 to
R155). Decimated sample j is centred on the first sample of tick start + 2j; the line's phase trim adds to the phase (R342). -/
def State.demodulate (s : State) (k : Nat) (w : Window) (codes : List (BitVec 12)) : Words :=
  let l := s.ln (demodLine k)
  let trim := phaseTurns (sfld (s.lineTrim (demodLine k)) 47 32)
  let mixed (n : Int) : Int × Int :=
    mixSample ((s.dm k).active.theta (n - 8 * (s.time.zeroAt : Int)) + trim) (l.sample w.reach codes n)
  (List.range w.samples).map fun (j : Nat) => decimate mixed (8 * (w.start : Int) + 16 * j)

/-- A window integrates an over-range sample: one of its own ticks at code −2,048 or +2,047 (R152). -/
def State.overIn (s : State) (k : Nat) (w : Window) (codes : List (BitVec 12)) : Bool :=
  let l := s.ln (demodLine k)
  (List.range (8 * w.len)).any fun (j : Nat) =>
    let x := l.sample w.reach codes (8 * (w.start : Int) + j)
    x == -2048 || x == 2047

/-- Sign of a float32 turned. -/
def fNeg (a : F32) : F32 := a ^^^ 0x80000000#32

/-- The integrated value (R156): each product rounded to float32, their sum formed exactly and rounded once, I and Q
separately. -/
def integrate (kernel z : Words) : F32 × F32 :=
  if kernel = [] then (fSumRound (z.map lo32), fSumRound (z.map hi32))
  else
    let l := kernel.zip z
    (fSumRound (l.flatMap fun (w, x) => [fMul (lo32 w) (lo32 x), fNeg (fMul (hi32 w) (hi32 x))]),
     fSumRound (l.flatMap fun (w, x) => [fMul (lo32 w) (hi32 x), fMul (hi32 w) (lo32 x)]))

/-- The projection p of a value on the axis (R159). -/
def Discrim.project (d : Discrim) (y : F32 × F32) : F32 := fDot (fSub y.1 d.ci) d.ac (fSub y.2 d.cq) d.as_

/-- Region of p and its code (R159): the state, and whether it is valid. -/
def Discrim.classify (d : Discrim) (y : F32 × F32) : Nat × Bool :=
  let p := d.project y
  let c := if fLt p d.t1 then d.map0 else if fLt p d.t2 then d.map1 else d.map2
  if c = 4 then (0, false) else (c % 4, true)

/-- The closure tick of a window that closes without a result (R163); `none` for one that completes. -/
def Line.noResult (l : Line) (w : Window) : Option Nat :=
  match w.cause with
  | some t => some t
  | none =>
    match l.faultAt, l.reconnect with
    | some f, _ =>
      if f ≤ w.last + 31 ∧ (w.start < l.faultEnd ∨ l.failed) then some (if w.start ≤ f then f else w.last)
      else match l.reconnect with
        | some e => if w.start ≤ e ∧ e ≤ w.last + 2000 then some e else none
        | none => none
    | none, some e => if w.start ≤ e ∧ e ≤ w.last + 2000 then some e else none
    | none, none => none

/-- The earliest open window of a slot that completes. -/
def State.firstWindow (s : State) (k : Nat) : Option Window :=
  (s.dm k).windows.find? fun w => ((s.ln (demodLine k)).noResult w).isNone

/-- A slot without one of its windows, which counts as closed. -/
def State.shut (k : Nat) (w : Window) (s : State) : State :=
  s.modDemod k fun d => { d with windows := d.windows.erase w, closed := d.closed + 1 }

/-- What a window of the slot that integrated over-range samples leaves, and the line's count of them (R152). -/
def State.overRange (k : Nat) (outOfRange : Bool) (samples : BitVec 32) (s : State) : State :=
  let l := demodLine k
  let s := s.modLine l fun x => { x with overSamples := x.overSamples + samples }
  if outOfRange then
    (s.modDemod k fun d => { d with outOfRange := satAdd 16 d.outOfRange 1 }).troubleOwned (dieWord (dieOf (lineCluster l)))
      (48 + l % 8) (s.demodOwner k)
  else s

/-- WINDOW_CLOSE: the earliest window of the slot completes. `codes` are the raw codes of the line from the first sample that the
window's filter reaches; they are mixed, decimated, weighted and summed (R153 to R156), and the value is queued, its state put in
the discriminator word. `samples` is how many over-range samples the line has taken since the last report (R152). -/
def execWindowClose (k : Fin 512) (codes : List (BitVec 12)) (samples : BitVec 32) (s : State) : Res :=
  match s.firstWindow k.val with
  | none => .next s
  | some w =>
    let l := demodLine k.val
    let s := s.runTo w.last
    let s := s.shut k.val w
    let d := s.dm k.val
    let z := s.demodulate k.val w codes
    let outOfRange := s.overIn k.val w codes
    let y := integrate d.active.kernel z
    let (st, valid) := d.active.disc.classify y
    let win : Window := { w with outOfRange := outOfRange }
    let v : Value := { slot := k.val, yi := y.1, yq := y.2, close := w.last, outOfRange := outOfRange, taint := s.taintOf w, win := win
                       est := d.active.est, ovrinv := d.active.ovrinv, done_ := w.last + 31, z := z }
    let s := s.modLine l fun x => { x with
      values := x.values ++ [v]
      words := if d.active.est then x.words else
        x.words ++ [{ slot := k.val, state := st, valid := valid && !(outOfRange && d.active.ovrinv), win := win, hub := w.last + 43 }] }
    .next (s.overRange k.val outOfRange samples)

/-- A window without a result: what captures keep of it (R260), and its ABSENT packet that is due (R198). -/
def State.closeAbsent (k : Nat) (w : Window) (t : Nat) (z : Words) (s : State) : State :=
  let s := s.captureWindow k { win := w, taint := s.taintOf w, outOfRange := w.outOfRange, missing := true, z := z }
  { s with readout := { s.readout with absent := s.readout.absent ++ [(k, w, t)] } }

/-- WINDOW_CLOSED_NO_RESULT: the earliest window of the slot that an abort, a core fault or an overtaken swap leaves without a
result closes (R163). `codes` and `samples` are as in WINDOW_CLOSE. Its decimated samples end at the closure (R260): those centred no
later than the closure tick. -/
def execWindowClosedNoResult (k : Fin 512) (codes : List (BitVec 12)) (samples : BitVec 32) (s : State) : Res :=
  let l := s.ln (demodLine k.val)
  match (s.dm k.val).windows.find? fun w => (l.noResult w).isSome with
  | none => .next s
  | some w =>
    let t := (l.noResult w).getD w.last
    let s := s.runTo t
    let outOfRange := s.overIn k.val w codes
    let z := (s.demodulate k.val w codes).take ((t + 2 - w.start) / 2)
    let s := (s.shut k.val w).closeAbsent k.val { w with outOfRange := outOfRange } t z
    .next (s.overRange k.val outOfRange samples)

/-- ABSENT_VERDICT_FORMATION: the hub forms the ABSENT packet of the oldest such window of the slot, at most 4 ticks after
its closure tick (R198). -/
def execAbsentVerdictFormation (k : Fin 512) (d : Fin 5) (s : State) : Res :=
  match s.readout.absent.find? fun e => e.1 == k.val with
  | none => .next s
  | some (k', w, t) =>
    let s := s.runTo (t + d.val)
    let s := { s with readout := { s.readout with absent := s.readout.absent.erase (k', w, t) } }
    .next (s.formVerdict k.val (t + d.val) w
      (mkVerdict s.fabric.member (demodLine k.val) (demodSlotNo k.val) 0 false true (s.taintOf w) w.sst))

/-! ## Discriminator words (R160) -/

/-- The least tick of a list. -/
def minTick : List Nat → Option Nat
  | [] => none
  | a :: l => match minTick l with
    | none => some a
    | some b => some (min a b)

/-- Insert by slot number. -/
def wordInsert (x : DiscWord) : List DiscWord → List DiscWord
  | [] => [x]
  | y :: l => if x.slot < y.slot then x :: y :: l else y :: wordInsert x l

/-- DISCRIMINATOR_WORD_ARRIVAL: the line's earliest discriminator word reaches the hub, and each fast slot of it has its
verdict formed in the next tick (R160). -/
def execDiscriminatorWordArrival (l : Fin 32) (s : State) : Res :=
  let ws := (s.ln l.val).words
  match minTick (ws.map (·.hub)) with
  | none => .next s
  | some t =>
    let now := (ws.filter fun x => x.hub == t).foldl (fun l x => wordInsert x l) []
    let s := s.runTo t
    let s := s.modLine l.val fun x => { x with words := x.words.filter fun y => y.hub != t }
    .next (now.foldl (fun s x => s.formVerdict x.slot (t + 1) x.win
      (mkVerdict s.fabric.member l.val (demodSlotNo x.slot) x.state x.valid false (s.taintOf x.win) x.win.sst)) s)

/-! ## Value lanes (R161, R162) -/

/-- Order of two values in the value queue (R161). -/
def Value.before (a b : Value) : Bool :=
  decide (a.done_ < b.done_) || (a.done_ == b.done_ && ((a.est && !b.est) || (a.est == b.est && decide (a.slot < b.slot))))

/-- Insert in queue order. -/
def valueInsert (x : Value) : List Value → List Value
  | [] => [x]
  | y :: l => if x.before y then x :: y :: l else y :: valueInsert x l

/-- The tick of the next send of a line's value queue. -/
def Line.sendTick (l : Line) : Option Nat :=
  (minTick (l.values.map (·.done_))).map fun d => match l.sentAt with
    | some t => max d (t + 1)
    | none => d

/-- A value dropped for want of room (R161): counted, VALUE_DROP, and missing in captures. -/
def State.dropValue (v : Value) (s : State) : State :=
  let l := demodLine v.slot
  let s := s.modLine l fun x => { x with drops := satAdd 16 x.drops 1 }
  let s := s.troubleOwned (dieWord (dieOf (lineCluster l))) (56 + l % 8) (s.demodOwner v.slot)
  s.captureWindow v.slot { win := v.win, taint := v.taint, outOfRange := v.outOfRange, missing := true, z := v.z }

/-- A value enters captures in the tick in which it reaches the hub. -/
def State.valueCapture (v : Value) (s : State) : State :=
  s.captureWindow v.slot { win := v.win, taint := v.taint, outOfRange := v.outOfRange, missing := false, y := some (v.yi, v.yq), z := v.z }

/-- VALUE_ARRIVAL: the value queue of a line sends its 4 oldest values, which reach the hub 4 ticks later (R161, R162). Values
that found the queue of 64 full are dropped. A value of an estimator slot becomes a request (ESTIMATOR_REQUEST). -/
def execValueArrival (l : Fin 32) (s : State) : Res :=
  let x := s.ln l.val
  match x.sendTick with
  | none => .next s
  | some t =>
    let q := (x.values.filter fun v => decide (v.done_ ≤ t)).foldl (fun l v => valueInsert v l) []
    let old := q.filter fun v => decide (v.done_ < t)
    let new := q.filter fun v => v.done_ == t
    let queued := old ++ new.take (64 - old.length)
    let lost := new.drop (64 - old.length)
    let sent := queued.take 4
    let s := s.runTo (t + 4)
    let s := s.modLine l.val fun x => { x with
      sentAt := some t, values := queued.drop 4 ++ x.values.filter (fun v => decide (t < v.done_)) }
    let s := sent.foldl (fun s v => s.valueCapture v) s
    let s := lost.foldl (fun s v => s.dropValue v) s
    let new : List Request := (sent.filter (·.est)).map fun v => { val := v, readable := t + 5 }
    .next (s.modEst l.val fun e => { e with arriving := e.arriving ++ new })

/-! ## Spare ADC cores (R165 to R167) -/

/-- Raise a vector for a line: in the physical function, and in the virtual function of each partition that owns a slot. -/
def State.raiseLine (v l : Nat) (s : State) : State :=
  (((List.range 16).map fun r => s.demodOwner (16 * l + r)).eraseDups).foldl (fun s w => s.raiseVf (w.val + 1) v) (s.raise v)

/-- A record about a line. -/
def lineRec (l : Nat) (detail : BitVec 32) : LedgerRec := evRec 3 l detail (dieOf (lineCluster l)) (lineCluster l)

/-- Open windows of a line take a cause in tick `t`; those that have closed and whose value or word has not reached the hub
close without a result (R163). -/
def State.faultWindows (l t : Nat) (s : State) : State :=
  let x := s.ln l
  let bad (w : Window) : Bool := decide (t ≤ w.last + 31)
  let gone := (x.values.filter fun v => bad v.win).map fun v => (v.slot, v.win, v.z)
  let s := s.modLine l fun x => { x with values := x.values.filter (fun v => !bad v.win), words := x.words.filter fun y => !bad y.win }
  gone.foldl (fun s (k, w, z) => s.closeAbsent k w t z) s

/-- ADC_CORE_FAULT: the core that serves the line fails in tick f = now (R166, R167). -/
def execAdcCoreFault (l : Fin 32) (s : State) : Res :=
  let k := lineCluster l.val
  let x := s.ln l.val
  let busy : Bool := match s.adcSpare k with
    | .starting c _ => c == l.val
    | _ => false
  if x.failed ∨ busy ∨ !x.power ∨ !s.hasCluster k then .next s else
  let f := s.now
  let u := s.adcSpare k
  -- Zero replaces the line's data until a core serves it that starts up in tick `n` (R166, R167), or for good.
  let silent (upTo : Option Nat) (s : State) : State := s.modLine l.val fun x => x.silence (f + 2) upTo true
  let s := s.modLine l.val fun x => { x with faultAt := some f, faultEnd := f + 10028 }
  let s := s.faultWindows l.val f
  let s := ((s.setTrouble (dieWord (dieOf k)) (40 + l.val % 8)).note (lineRec l.val 1)).raiseLine 8 l.val
  let fail (s : State) : State := (silent none s).modLine l.val fun x => { x with failed := true }
  let start (n : Nat) (s : State) : State :=
    ((silent (some (n + 10016)) s).modLine l.val fun x => { x with faultEnd := n + 10028 })
      |> fun s => (s.setAdcSpare k (.starting l.val n)).calAbandon (dieOf k) k false
  if x.onSpare then
    let s := { s with readout := { s.readout with spareFailed := updN s.readout.spareFailed k fun _ => true } }
    let s := s.setAdcSpare k .free
    if x.coreFailed then .next (fail s)
    else .next (((silent (some (f + 2000)) s).modLine l.val fun x => { x with onSpare := false, faultAt := none, reconnect := some (f + 2000) }).calAbandon (dieOf k) k false)
  else
    let s := s.modLine l.val fun x => { x with coreFailed := true }
    if atN s.readout.spareFailed k false then .next (fail s) else
    match u with
    | .starting _ _ => .next (fail s)
    | .serving _ => .next (fail s)
    | _ =>
      match u.covered with
      | some c =>
        if c = l.val then .next (start f s)
        else .next (start (f + 1998) (s.modLine c fun x => { x with onSpare := false, reconnect := some (f + 2000) }))
      | none => .next (start f s)

/-- ADC_FAULT_SWAP_END: the spare serves the failed line in tick f + 10,016 (R166). -/
def execAdcFaultSwapEnd (l : Fin 32) (s : State) : Res :=
  let k := lineCluster l.val
  match s.adcSpare k with
  | .starting c f =>
    if c = l.val then
      let s := (s.runTo (f + 10016)).setAdcSpare k (.serving l.val)
      let s := s.modLine l.val fun x => { x with onSpare := true }
      .next ((s.note (lineRec l.val 2)).raiseLine 8 l.val)
    else .next s
  | _ => .next s

/-- A raw capture of the line runs in tick `t` (R165). -/
def State.rawRuns (s : State) (l t : Nat) : Bool :=
  decide (t < s.rawUntil l)

/-- ADC_PLANNED_SWAP: a planned swap starts in a tick without a raw capture of the line (R165): onto the prepared spare, or
back once the core is measured. -/
def execAdcPlannedSwap (l : Fin 32) (s : State) : Res :=
  let k := lineCluster l.val
  match s.adcSpare k with
  | .ready c _ => if c = l.val ∧ !s.rawRuns c s.now then .next (s.setAdcSpare k (.swapping c s.now false)) else .next s
  | .covering c =>
    if c = l.val ∧ s.calMeasured (dieOf k) ∧ !s.rawRuns c s.now then .next (s.setAdcSpare k (.swapping c s.now true)) else .next s
  | _ => .next s

/-- ADC_PLANNED_SWAP_END: tick q + 16 (Table 6.4). After the swap back the run goes on to its next element. -/
def execAdcPlannedSwapEnd (l : Fin 32) (s : State) : Res :=
  let k := lineCluster l.val
  match s.adcSpare k with
  | .swapping c q back =>
    if c ≠ l.val then .next s else
    let s := s.runTo (q + 16)
    if back then
      let s := (s.setAdcSpare k .free).modLine l.val fun x => { x with onSpare := false }
      .next (((s.raiseLine 8 l.val).calNext (dieOf k)).trimCheck (dieOf k))
    else
      let s := (s.settleTrims.setAdcSpare k (.covering l.val)).modLine l.val fun x => { x with onSpare := true }
      let s := s.modCal (dieOf k) fun c => { c with run := c.run.map (CalRun.started s.now c.temp) }
      .next (s.raiseLine 8 l.val)
  | _ => .next s

end Sys2Proof.Machine
end

