-- ==== Sys2Proof/Machine/EstOps.lean ====
section
/-!
DEFINITION. Machine/EstOps.lean: how an estimator issues instructions: results in flight (R179), data memory (R173, R178),
repeats (R180), branches and delay slots, boundaries (R182), dispatch (R183), posts (R184, R185), faults (R188 to R191). A
cycle is a device tick.
-/
namespace Sys2Proof.Machine

/-! ## Results in flight (R179) -/

/-- Write data memory words. -/
def Est.store (addr : Nat) : Words → Est → Est
  | [], e => e
  | w :: l, e => ({ e with mem := Sparse.set 0 e.mem (addr / 8) w } : Est).store (addr + 8) l

/-- A result becomes visible. -/
def Est.landOne (e : Est) : EstWrite → Est
  | .v r x => { e with v := updN e.v r fun _ => x }
  | .x r w => { e with x := updN e.x r fun _ => w }
  | .mem a l => e.store a l

/-- Insert by cycle of visibility, behind equal ones: a result of a later-issued instruction lands last. -/
def flightInsert (x : Nat × EstWrite) : List (Nat × EstWrite) → List (Nat × EstWrite)
  | [] => [x]
  | y :: l => if x.1 < y.1 then x :: y :: l else y :: flightInsert x l

/-- The results visible to an instruction that issues in cycle `c` land. -/
def Est.land (c : Nat) (e : Est) : Est :=
  let due := (e.flight.filter fun x => decide (x.1 ≤ c)).foldl (fun l x => flightInsert x l) []
  (due.foldl (fun e x => e.landOne x.2) e : Est) |> fun e => { e with flight := e.flight.filter fun x => decide (c < x.1) }

/-- A result becomes visible in cycle `c`. -/
def Est.result (c : Nat) (w : EstWrite) (e : Est) : Est := { e with flight := e.flight ++ [(c, w)] }

/-! ## Registers and memory -/

/-- A scalar register. -/
def Est.xr (e : Est) (n : Nat) : Word := atN e.x n 0
/-- A vector register. -/
def Est.vr (e : Est) (n : Nat) : Vector (BitVec 32) 16 := atN e.v n (Vector.replicate 16 0)
/-- An address register. -/
def Est.ar (e : Est) (n : Nat) : BitVec 17 := atN e.a n 0
/-- Write an address register, visible to the next instruction (Table 7.5). -/
def Est.setA (n : Nat) (v : BitVec 17) (e : Est) : Est := { e with a := updN e.a n fun _ => v }

/-- The active page bank. -/
def Est.page (e : Est) : Sparse Word := if e.useBank1 then e.bank1 else e.bank0
/-- The shadow page bank. -/
def Est.shadowPage (e : Est) : Sparse Word := if e.useBank1 then e.bank0 else e.bank1

/-- A data-memory word by byte address (R173). -/
def Est.load (e : Est) (addr : Nat) : Word :=
  if addr < 0x18000 then Sparse.get 0 e.mem (addr / 8) else Sparse.get 0 e.page ((addr - 0x1C000) / 8)

/-- The address of an access (Table 7.3). -/
def Est.addr (e : Est) (m : Access) : Int := (if m.am = 2 then 0 else ((e.ar m.a).toNat : Int)) + m.ofs * 4

/-- An access is not a fault (R178). -/
def accessOk (addr : Int) (align : Nat) (store : Bool) : Bool :=
  decide (0 ≤ addr ∧ addr ≤ 0x1FFFF) && addr % align == 0 && !decide (0x18000 ≤ addr ∧ addr < 0x1C000) &&
    !(store && decide (0x1C000 ≤ addr))

/-- AM = 1 writes the address back (Table 7.3). -/
def Est.amWrite (m : Access) (addr : Nat) (e : Est) : Est := if m.am = 1 then e.setA m.a (BitVec.ofNat 17 addr) else e

/-- The lanes of eight words (Table 7.1). -/
def lanesOf (l : Words) : Vector (BitVec 32) 16 :=
  Vector.ofFn fun i => if i.val % 2 = 0 then lo32 (wordAt l (i.val / 2)) else hi32 (wordAt l (i.val / 2))

/-- The eight words of a vector register. -/
def lanesWords (v : Vector (BitVec 32) 16) : Words := (List.range 8).map fun i => pairWord (atN v (2 * i) 0) (atN v (2 * i + 1) 0)

/-! ## Reductions (R176, R177) -/

/-- The lanes that take part, in lane order. -/
def redLanes (v : Vector (BitVec 32) 16) (m : Word) : List (Nat × F32) :=
  (List.range 16).filterMap fun i => let x := atN v i 0; if bitAt m i && !F32.isNaN x then some (i, F32.canon x) else none

/-- The selected lane: the first among equals; `better a b` says that `a` is strictly better. -/
def redPick (better : F32 → F32 → Bool) (l : List (Nat × F32)) : Option (Nat × F32) :=
  l.foldl (fun o x => match o with
    | none => some x
    | some y => if better x.2 y.2 then some x else some y) none

/-- The reduction word (R176). -/
def redWord : Option (Nat × F32) → Word
  | none => put 63 32 0x7FC00000 ||| put 4 4 1
  | some (i, x) => put 63 32 x.toNat ||| put 3 0 i

/-- The sum tree of R177. -/
def pairSums : List F32 → List F32
  | a :: b :: l => fAdd a b :: pairSums l
  | l => l

/-- VSUM of the enabled lanes; disabled lanes count as +0 (R177). -/
def vsumWord (v : Vector (BitVec 32) 16) (m : Word) : Word :=
  let l := (List.range 16).map fun i => if bitAt m i then atN v i 0 else (0 : F32)
  put 63 32 ((pairSums (pairSums (pairSums (pairSums l)))).headD 0).toNat

/-! ## Program flow -/

/-- The address after the instruction at `pc`, and the repeats left open (R180): at the end of an innermost body its next
pass, or its end and then the enclosing body's. -/
def estNext (pc : Nat) : List Rep → Nat × List Rep
  | [] => ((pc + 1) % 2 ^ 14, [])
  | r :: l =>
    if r.stop = pc then (if 1 < r.left then (r.start, { r with left := r.left - 1 } :: l) else estNext pc l)
    else ((pc + 1) % 2 ^ 14, r :: l)

/-- The instruction that is due is at an estimator boundary, apart from handlers (R182): no delay slot, no repeat body. -/
def Est.free (e : Est) : Bool := e.branch.isNone && e.reps == []

/-- An estimator boundary (R182). -/
def Est.boundary (e : Est) : Bool := e.free && e.handler.isNone

/-- The due instruction stands behind the transfer gap of a handler that has ended (R183), in which no halt is taken (R182). -/
def Est.ended (e : Est) : Bool := e.handler.isNone && e.next == e.gapEnd

/-- A debug halt is taken before the due instruction (R192). -/
def Est.takeHalt (e : Est) : Est := { e with mode := .debugHalted, haltWait := false }

/-- The request at the head of the queue. -/
def Est.head (e : Est) : Option Request := e.queue.head?

/-- A record of an estimator's event. -/
def estRec (n : Nat) (detail : BitVec 32) : LedgerRec := evRec 7 n detail 4 (lineCluster n)

/-- Set a trouble bit of an estimator's cluster, and raise a vector for its owner. -/
def State.estTrouble (n bit : Nat) (s : State) : State :=
  match s.lineOwner n with
  | some p => s.troubleOwned (clusterWord (lineCluster n)) bit p
  | none => s.setTrouble (clusterWord (lineCluster n)) bit

/-- `k` requests are dropped (R181). -/
def State.estDrop (n k : Nat) (s : State) : State :=
  if k = 0 then s else (s.modEst n fun e => { e with drops := satAdd 16 e.drops k }).estTrouble n 5

/-- The queued requests are dropped. -/
def State.estFlush (n : Nat) (s : State) : State :=
  let k := (s.es n).queue.length
  (s.modEst n fun e => { e with queue := [] }).estDrop n k

/-- The core stops (R191): queued requests are dropped. -/
def State.estHalt (n : Nat) (s : State) : State :=
  (s.modEst n fun e => { e with mode := .stopped, stopWait := false, haltWait := false, handler := none, branch := none, reps := [] }).estFlush n

/-- A fault in cycle `c` (R188 to R190): FAULTED, the queue and the interrupted handler's request dropped, EST_FAULT, a
record, vector 4. Results in flight land. -/
def State.estFault (n c code : Nat) (s : State) : State :=
  let s := s.runTo c
  let e := s.es n
  let k := e.queue.length + b2n e.handler.isSome
  let s := s.modEst n fun e => let e := e.land (c + 4); { e with
    mode := .faulted, fault := code, faultPc := e.pc, queue := [], handler := none, branch := none, reps := [], stopWait := false, haltWait := false }
  let s := s.estDrop n k
  ((s.estTrouble n 4).note (estRec n (BitVec.ofNat 32 code))).raiseMaybe 4 (s.lineOwner n)

/-- The instruction that issued in cycle `c` is done with, and the next is due: a delay slot, the target of a branch, or what
follows. A PC outside the live range is a fault with code 5 (R188). The end of a handler's second delay slot begins the
transfer gap (R183). -/
def State.estAdvance (n c pc : Nat) (reps : List Rep) (s : State) : State :=
  let e : Est := s.es n
  let s : State := match e.branch with
    | none => s.modEst n fun e => { e with pc := pc, reps := reps, next := c + 1 }
    | some (t, k) =>
      if 1 < k then s.modEst n fun e => { e with pc := pc, reps := reps, next := c + 1, branch := some (t, k - 1) }
      else match t with
        | some a => s.modEst n fun e => { e with pc := a, next := c + 1, branch := none }
        | none => s.modEst n fun e => { e with pc := e.resume, next := c + 5, gapEnd := c + 5, branch := none, handler := none
                                               unposted := if e.handler.any (fun h => !h.posted) then satAdd 16 e.unposted 1 else e.unposted }
  let e : Est := s.es n
  if e.pc < e.entry ∨ e.limit < e.pc then s.estFault n (c + 1) 5
  else if e.haltWait && e.free && !e.ended && decide (e.mode = .running) then s.modEst n Est.takeHalt
  else s

/-- The instruction in cycle `c` falls through. -/
def State.estFall (n c : Nat) (s : State) : State :=
  let e := s.es n
  let (pc, reps) := estNext e.pc e.reps
  s.estAdvance n c pc reps

/-- A branch issues in cycle `c`: the two instructions after it are its delay slots, then `target` issues. -/
def State.estBranch (n c : Nat) (target : Option Nat) (s : State) : State :=
  let pc := ((s.es n).pc + 1) % 2 ^ 14
  let s := s.modEst n fun e => { e with branch := some (target, 3) }
  s.estAdvance n c pc (s.es n).reps

/-- An instruction issues in cycle `c`: the clock runs there, results land, its address enters the trace (R404). -/
def State.estIssue (n c : Nat) (s : State) : State :=
  (s.runTo c).modEst n fun e => let e := e.land c; { e with trace := (e.pc :: e.trace).take 64 }

/-- The cycle of the next instruction; under debug step no earlier than now. -/
def State.estCycle (s : State) (n : Nat) : Nat :=
  let e := s.es n
  if e.mode = .debugHalted then max e.next s.now else e.next

/-! ## Classes of instructions -/

/-- A vector result that is visible `k` cycles after issue. -/
def State.estV (n r k : Nat) (f : Est → Vector (BitVec 32) 16) (s : State) : State :=
  let c := s.estCycle n
  let s := s.estIssue n c
  (s.modEst n fun e => e.result (c + k) (.v r (f e))).estFall n c

/-- A scalar result that is visible `k` cycles after issue. -/
def State.estX (n r k : Nat) (f : Est → Word) (s : State) : State :=
  let c := s.estCycle n
  let s := s.estIssue n c
  (s.modEst n fun e => e.result (c + k) (.x r (f e))).estFall n c

/-- A lane-wise operation on two registers. -/
def lanes2 (f : F32 → F32 → F32) (a b : Vector (BitVec 32) 16) : Vector (BitVec 32) 16 := Vector.ofFn fun i => f a[i] b[i]

/-- A lane-wise operation on three registers. -/
def lanes3 (f : F32 → F32 → F32 → F32) (a b z : Vector (BitVec 32) 16) : Vector (BitVec 32) 16 := Vector.ofFn fun i => f a[i] b[i] z[i]

/-- An access in cycle `c` (R178): a fault with code 1, or what it does, with the address register written back. -/
def State.estAccess (n : Nat) (m : Access) (align : Nat) (store : Bool) (f : Nat → Nat → Est → Est) (s : State) : State :=
  let c := s.estCycle n
  let s := s.estIssue n c
  let a := (s.es n).addr m
  if accessOk a align store then (s.modEst n fun e => (f c a.toNat e).amWrite m a.toNat).estFall n c
  else s.estFault n c 1

/-- Eight words from an address. -/
def Est.loadLine (e : Est) (a : Nat) : Words := (List.range 8).map fun i => e.load (a + 8 * i)

/-! ## Handlers (R183 to R185) -/

/-- The request descriptor (Table 7.6). -/
def Request.descriptor (r : Request) (cnt : Nat) : Word :=
  orAll [put 63 60 (demodSlotNo r.val.slot), putB 59 r.val.outOfRange, putB 58 r.val.taint, put 37 0 cnt]

/-- The handler's first instruction of a request issues in cycle `c`; `b` is the boundary that took the request, with OVRINV of the slot
latched (R183). A halt that waited through a transfer gap is taken before that instruction (R192). -/
def State.estTake (n b c : Nat) (save : Bool) (s : State) : State :=
  match (s.es n).head with
  | none => s
  | some r =>
    let s := s.runTo b
    let cnt := s.cnt r.val.close
    let ovrinv := (s.dm r.val.slot).active.ovrinv
    let target := ((atN (s.es n).dispatch (demodSlotNo r.val.slot) none).getD 0)
    s.modEst n fun e =>
      let e := e.land b
      let e := if e.haltWait then e.takeHalt else e
      let hold := b - max r.readable e.gapEnd
      { e with
        resume := if save then e.pc else e.resume, pc := target, next := c, queue := e.queue.drop 1
        x := updN (updN e.x 14 fun _ => r.descriptor cnt) 15 fun _ => pairWord r.val.yi r.val.yq
        handler := some { req := r, ovrinv := ovrinv }, handled := e.handled + 1, holdMax := satAdd 16 (max e.holdMax hold) 0 }

/-- POST in cycle `p` (R184, R185): the handler's first post forms the verdict in tick p + 2; another is counted. Under debug
step the verdict is tainted (R192). A POST outside a handler has no request and posts nothing. -/
def State.estPost (n p xs : Nat) (s : State) : State :=
  let e := s.es n
  match e.handler with
  | none => s
  | some h =>
    if h.posted then s.modEst n fun e => { e with doubles := satAdd 16 e.doubles 1 } else
    let w := e.xr xs
    let v := h.req.val
    let packet := mkVerdict s.fabric.member n (demodSlotNo v.slot) (fld w 1 0) (!bitAt w 4 && !(v.outOfRange && h.ovrinv)) false
      (s.taintOf v.win || decide (e.mode = .debugHalted)) v.win.sst
    let s := s.modEst n fun e => { e with handler := some { h with posted := true } }
    s.formVerdict v.slot (p + 2) v.win packet

end Sys2Proof.Machine
end

