-- ==== Sys2Proof/Machine/EstExec.lean ====
section
/-!
DEFINITION. Machine/EstExec.lean: the estimator instructions (R175 to R180) and the events of an estimator: requests, dispatch,
stops, faults, restarts, page swaps, debug halt and step (R181 to R193).
-/
namespace Sys2Proof.Machine

/-- Something stands before an instruction at a boundary (R182): a readable request, a stop, a sealed page. -/
def Est.taken (e : Est) : Bool :=
  e.boundary && ((match e.head with
    | some r => decide (r.readable ≤ e.next)
    | none => false) || e.stopWait || e.pageSealed)

/-- The request at the head of the queue takes over from a handler that has ended (R183). -/
def Est.handover (e : Est) : Bool :=
  e.ended && (match e.head with
    | some r => decide (r.readable < e.next)
    | none => false)

/-- The instruction that is due. -/
def Est.due (e : Est) : Option EstIns := readEst (Sparse.get 0 e.prog e.pc)

/-- The instruction that the core issues next, unless something stands before it. -/
def Est.ready (e : Est) : Option EstIns :=
  if e.mode = .running ∧ !e.taken ∧ !e.handover ∧ !(e.haltWait && e.free) then e.due else none

/-! ## Instructions -/

/-- NOP: no action. -/
def State.doEstNop (n : Nat) (s : State) : State :=
  let c := s.estCycle n
  (s.estIssue n c).estFall n c

/-- A lane-wise operation on VA and VB (class F). -/
def State.doLanes2 (n vd va vb : Nat) (f : F32 → F32 → F32) (s : State) : State :=
  s.estV n vd 4 fun e => lanes2 f (e.vr va) (e.vr vb)

/-- A lane-wise operation on VA, VB and VC (class F). -/
def State.doLanes3 (n vd va vb vc : Nat) (f : F32 → F32 → F32 → F32) (s : State) : State :=
  s.estV n vd 4 fun e => lanes3 f (e.vr va) (e.vr vb) (e.vr vc)

/-- A reduction that selects a lane (R176, class F). -/
def State.doRed (n xd va xm : Nat) (better : F32 → F32 → Bool) (s : State) : State :=
  s.estX n xd 4 fun e => redWord (redPick better (redLanes (e.vr va) (e.xr xm)))

/-- VSUM (R177). -/
def State.doVsum (n xd va xm : Nat) (s : State) : State := s.estX n xd 4 fun e => vsumWord (e.vr va) (e.xr xm)

/-- VBC. -/
def State.doVbc (n vd xs : Nat) (half : Bool) (s : State) : State :=
  s.estV n vd 1 fun e => Vector.replicate 16 (if half then hi32 (e.xr xs) else lo32 (e.xr xs))

/-- MOVX. -/
def State.doMovx (n xd va lane : Nat) (s : State) : State := s.estX n xd 1 fun e => (atN (e.vr va) lane 0).setWidth 64

/-- VMOV. -/
def State.doVmov (n vd va : Nat) (s : State) : State := s.estV n vd 1 fun e => e.vr va

/-- XOP (Table 7.4). -/
def State.doXop (n xd xa xb fn : Nat) (s : State) : State := s.estX n xd 1 fun e => scalarFn fn (e.xr xa) (e.xr xb)

/-- XOPI (Table 7.4). -/
def State.doXopi (n xd xa fn : Nat) (imm : Word) (s : State) : State := s.estX n xd 1 fun e => scalarFn fn (e.xr xa) imm

/-- A 16-bit quarter of a word replaced. -/
def setQuarter (w : Word) (pos imm : Nat) : Word :=
  (w &&& ~~~(put (16 * pos + 15) (16 * pos) 0xFFFF)) ||| put (16 * pos + 15) (16 * pos) imm

/-- LIQ. -/
def State.doLiq (n xd pos imm : Nat) (s : State) : State := s.estX n xd 1 fun e => setQuarter (e.xr xd) pos imm

/-- An address register is written, visible to the next instruction. -/
def State.estA (n ad : Nat) (f : Est → BitVec 17) (s : State) : State :=
  let c := s.estCycle n
  let s := s.estIssue n c
  (s.modEst n fun e => e.setA ad (f e)).estFall n c

/-- AADD. -/
def State.doAadd (n ad as_ : Nat) (imm : Int) (s : State) : State :=
  s.estA n ad fun e => e.ar as_ + BitVec.ofInt 17 (imm * 4)

/-- AMOV. -/
def State.doAmov (n ad xs : Nat) (s : State) : State := s.estA n ad fun e => (e.xr xs).setWidth 17

/-- VLD. -/
def State.doVld (n r : Nat) (m : Access) (s : State) : State :=
  s.estAccess n m 64 false fun c a e => e.result (c + 3) (.v r (lanesOf (e.loadLine a)))

/-- VST. -/
def State.doVst (n r : Nat) (m : Access) (s : State) : State :=
  s.estAccess n m 64 true fun c a e => e.result (c + 2) (.mem a (lanesWords (e.vr r)))

/-- XLD. -/
def State.doXld (n r : Nat) (m : Access) (s : State) : State :=
  s.estAccess n m 8 false fun c a e => e.result (c + 3) (.x r (e.load a))

/-- XST. -/
def State.doXst (n r : Nat) (m : Access) (s : State) : State :=
  s.estAccess n m 8 true fun c a e => e.result (c + 2) (.mem a [e.xr r])

/-- The four bytes at an address. -/
def Est.load4 (e : Est) (a : Nat) : BitVec 32 := if a % 8 = 0 then lo32 (e.load a) else hi32 (e.load a)

/-- VLDB. -/
def State.doVldb (n r : Nat) (m : Access) (s : State) : State :=
  s.estAccess n m 4 false fun c a e => e.result (c + 3) (.v r (Vector.replicate 16 (e.load4 a)))

/-- A branch to the address that the issuing core gives. -/
def State.doBranch (n : Nat) (target : Est → Option Nat) (s : State) : State :=
  let c := s.estCycle n
  let s := s.estIssue n c
  s.estBranch n c (target (s.es n))

/-- BR: a branch that is not taken goes on behind its delay slots. -/
def State.doEstBr (n xc cond tgt : Nat) (s : State) : State :=
  s.doBranch n fun e => some (if estCond cond (e.xr xc) then tgt else (e.pc + 3) % 2 ^ 14)

/-- BRX. -/
def State.doBrx (n xt : Nat) (s : State) : State := s.doBranch n fun e => some (fld (e.xr xt) 13 0)

/-- DONE. -/
def State.doDone (n : Nat) (s : State) : State := s.doBranch n fun _ => none

/-- REPEAT and REPEATX (R180): with count 0 the instruction after the body issues next. -/
def State.doRepeat (n len : Nat) (count : Est → Nat) (s : State) : State :=
  let c := s.estCycle n
  let s := s.estIssue n c
  let e := s.es n
  let k := count e
  if k = 0 then
    let (pc, reps) := estNext ((e.pc + len) % 2 ^ 14) e.reps
    s.estAdvance n c pc reps
  else
    let pc := (e.pc + 1) % 2 ^ 14
    s.estAdvance n c pc ({ start := pc, stop := (e.pc + len) % 2 ^ 14, left := k } :: e.reps)

/-- POST (R184, R185). -/
def State.doPost (n xs : Nat) (s : State) : State :=
  let c := s.estCycle n
  let s := s.estIssue n c
  (s.estPost n c xs).estFall n c

/-- IDLE issues nothing: it stays due. -/
def State.doIdle (n : Nat) (s : State) : State :=
  let c := s.estCycle n
  (s.runTo c).modEst n fun e => let e := e.land c; { e with next := c + 1, trace := if e.trace.head? = some e.pc then e.trace else (e.pc :: e.trace).take 64 }

/-- HALT (R191). -/
def State.doHalt (n : Nat) (s : State) : State :=
  let c := s.estCycle n
  (s.estIssue n c).estHalt n

/-- An estimator instruction. -/
def State.doEst (n : Nat) (i : EstIns) (s : State) : State :=
  match i with
  | .nop => s.doEstNop n
  | .vfma vd va vb vc => s.doLanes3 n vd va vb vc fFma
  | .vfms vd va vb vc => s.doLanes3 n vd va vb vc fFms
  | .vmul vd va vb => s.doLanes2 n vd va vb fMul
  | .vadd vd va vb => s.doLanes2 n vd va vb fAdd
  | .vsub vd va vb => s.doLanes2 n vd va vb fSub
  | .vmin vd va vb => s.doLanes2 n vd va vb fMin
  | .vmax vd va vb => s.doLanes2 n vd va vb fMax
  | .vminx xd va xm => s.doRed n xd va xm fLt
  | .vmaxx xd va xm => s.doRed n xd va xm fun a b => fLt b a
  | .vsum xd va xm => s.doVsum n xd va xm
  | .vbc vd xs half => s.doVbc n vd xs half
  | .movx xd va lane => s.doMovx n xd va lane
  | .vmov vd va => s.doVmov n vd va
  | .xop xd xa xb fn => s.doXop n xd xa xb fn
  | .xopi xd xa fn imm => s.doXopi n xd xa fn imm
  | .liq xd pos imm => s.doLiq n xd pos imm
  | .aadd ad as_ imm => s.doAadd n ad as_ imm
  | .amov ad xs => s.doAmov n ad xs
  | .vld r m => s.doVld n r m
  | .vst r m => s.doVst n r m
  | .xld r m => s.doXld n r m
  | .xst r m => s.doXst n r m
  | .vldb r m => s.doVldb n r m
  | .br xc cond tgt => s.doEstBr n xc cond tgt
  | .brx xt => s.doBrx n xt
  | .repeat_ len count => s.doRepeat n len fun _ => count
  | .repeatx len xc => s.doRepeat n len fun e => fld (e.xr xc) 15 0
  | .post xs => s.doPost n xs
  | .done_ => s.doDone n
  | .idle => s.doIdle n
  | .halt => s.doHalt n

/-- EST_NOP. -/
def execEstNop (e : Fin 32) (s : State) : Res :=
  match (s.es e.val).ready with
  | some .nop => .next (s.doEstNop e.val)
  | _ => .next s

/-- VFMA. -/
def execVfma (e : Fin 32) (s : State) : Res :=
  match (s.es e.val).ready with
  | some (.vfma vd va vb vc) => .next (s.doLanes3 e.val vd va vb vc fFma)
  | _ => .next s

/-- VFMS. -/
def execVfms (e : Fin 32) (s : State) : Res :=
  match (s.es e.val).ready with
  | some (.vfms vd va vb vc) => .next (s.doLanes3 e.val vd va vb vc fFms)
  | _ => .next s

/-- VMUL. -/
def execVmul (e : Fin 32) (s : State) : Res :=
  match (s.es e.val).ready with
  | some (.vmul vd va vb) => .next (s.doLanes2 e.val vd va vb fMul)
  | _ => .next s

/-- VADD. -/
def execVadd (e : Fin 32) (s : State) : Res :=
  match (s.es e.val).ready with
  | some (.vadd vd va vb) => .next (s.doLanes2 e.val vd va vb fAdd)
  | _ => .next s

/-- VSUB. -/
def execVsub (e : Fin 32) (s : State) : Res :=
  match (s.es e.val).ready with
  | some (.vsub vd va vb) => .next (s.doLanes2 e.val vd va vb fSub)
  | _ => .next s

/-- VMIN. -/
def execVmin (e : Fin 32) (s : State) : Res :=
  match (s.es e.val).ready with
  | some (.vmin vd va vb) => .next (s.doLanes2 e.val vd va vb fMin)
  | _ => .next s

/-- VMAX. -/
def execVmax (e : Fin 32) (s : State) : Res :=
  match (s.es e.val).ready with
  | some (.vmax vd va vb) => .next (s.doLanes2 e.val vd va vb fMax)
  | _ => .next s

/-- VMINX. -/
def execVminx (e : Fin 32) (s : State) : Res :=
  match (s.es e.val).ready with
  | some (.vminx xd va xm) => .next (s.doRed e.val xd va xm fLt)
  | _ => .next s

/-- VMAXX. -/
def execVmaxx (e : Fin 32) (s : State) : Res :=
  match (s.es e.val).ready with
  | some (.vmaxx xd va xm) => .next (s.doRed e.val xd va xm fun a b => fLt b a)
  | _ => .next s

/-- VSUM. -/
def execVsum (e : Fin 32) (s : State) : Res :=
  match (s.es e.val).ready with
  | some (.vsum xd va xm) => .next (s.doVsum e.val xd va xm)
  | _ => .next s

/-- VBC. -/
def execVbc (e : Fin 32) (s : State) : Res :=
  match (s.es e.val).ready with
  | some (.vbc vd xs half) => .next (s.doVbc e.val vd xs half)
  | _ => .next s

/-- MOVX. -/
def execMovx (e : Fin 32) (s : State) : Res :=
  match (s.es e.val).ready with
  | some (.movx xd va lane) => .next (s.doMovx e.val xd va lane)
  | _ => .next s

/-- VMOV. -/
def execVmov (e : Fin 32) (s : State) : Res :=
  match (s.es e.val).ready with
  | some (.vmov vd va) => .next (s.doVmov e.val vd va)
  | _ => .next s

/-- XOP. -/
def execXop (e : Fin 32) (s : State) : Res :=
  match (s.es e.val).ready with
  | some (.xop xd xa xb fn) => .next (s.doXop e.val xd xa xb fn)
  | _ => .next s

/-- XOPI. -/
def execXopi (e : Fin 32) (s : State) : Res :=
  match (s.es e.val).ready with
  | some (.xopi xd xa fn imm) => .next (s.doXopi e.val xd xa fn imm)
  | _ => .next s

/-- LIQ. -/
def execLiq (e : Fin 32) (s : State) : Res :=
  match (s.es e.val).ready with
  | some (.liq xd pos imm) => .next (s.doLiq e.val xd pos imm)
  | _ => .next s

/-- AADD. -/
def execAadd (e : Fin 32) (s : State) : Res :=
  match (s.es e.val).ready with
  | some (.aadd ad as_ imm) => .next (s.doAadd e.val ad as_ imm)
  | _ => .next s

/-- AMOV. -/
def execAmov (e : Fin 32) (s : State) : Res :=
  match (s.es e.val).ready with
  | some (.amov ad xs) => .next (s.doAmov e.val ad xs)
  | _ => .next s

/-- VLD. -/
def execVld (e : Fin 32) (s : State) : Res :=
  match (s.es e.val).ready with
  | some (.vld r m) => .next (s.doVld e.val r m)
  | _ => .next s

/-- VST. -/
def execVst (e : Fin 32) (s : State) : Res :=
  match (s.es e.val).ready with
  | some (.vst r m) => .next (s.doVst e.val r m)
  | _ => .next s

/-- XLD. -/
def execXld (e : Fin 32) (s : State) : Res :=
  match (s.es e.val).ready with
  | some (.xld r m) => .next (s.doXld e.val r m)
  | _ => .next s

/-- XST. -/
def execXst (e : Fin 32) (s : State) : Res :=
  match (s.es e.val).ready with
  | some (.xst r m) => .next (s.doXst e.val r m)
  | _ => .next s

/-- VLDB. -/
def execVldb (e : Fin 32) (s : State) : Res :=
  match (s.es e.val).ready with
  | some (.vldb r m) => .next (s.doVldb e.val r m)
  | _ => .next s

/-- BR. -/
def execEstBr (e : Fin 32) (s : State) : Res :=
  match (s.es e.val).ready with
  | some (.br xc cond tgt) => .next (s.doEstBr e.val xc cond tgt)
  | _ => .next s

/-- BRX. -/
def execBrx (e : Fin 32) (s : State) : Res :=
  match (s.es e.val).ready with
  | some (.brx xt) => .next (s.doBrx e.val xt)
  | _ => .next s

/-- REPEAT. -/
def execRepeatN (e : Fin 32) (s : State) : Res :=
  match (s.es e.val).ready with
  | some (.repeat_ len count) => .next (s.doRepeat e.val len fun _ => count)
  | _ => .next s

/-- REPEATX. -/
def execRepeatx (e : Fin 32) (s : State) : Res :=
  match (s.es e.val).ready with
  | some (.repeatx len xc) => .next (s.doRepeat e.val len fun e => fld (e.xr xc) 15 0)
  | _ => .next s

/-- POST. -/
def execPost (e : Fin 32) (s : State) : Res :=
  match (s.es e.val).ready with
  | some (.post xs) => .next (s.doPost e.val xs)
  | _ => .next s

/-- DONE. -/
def execEstDone (e : Fin 32) (s : State) : Res :=
  match (s.es e.val).ready with
  | some .done_ => .next (s.doDone e.val)
  | _ => .next s

/-- IDLE. -/
def execIdle (e : Fin 32) (s : State) : Res :=
  match (s.es e.val).ready with
  | some .idle => .next (s.doIdle e.val)
  | _ => .next s

/-- HALT. -/
def execHalt (e : Fin 32) (s : State) : Res :=
  match (s.es e.val).ready with
  | some .halt => .next (s.doHalt e.val)
  | _ => .next s

/-! ## Requests and handlers (R181 to R183) -/

/-- ESTIMATOR_REQUEST: the first value that has reached the hub for this estimator enters its queue, or is dropped: core not
RUNNING or DEBUG-HALTED, queue full, or slot without a handler (R181). -/
def execEstimatorRequest (e : Fin 32) (s : State) : Res :=
  match (s.es e.val).arriving with
  | [] => .next s
  | r :: l =>
    let s := s.runTo (r.readable - 1)
    let x := s.es e.val
    let s := s.modEst e.val fun x => { x with arriving := l }
    if (x.mode ≠ .running ∧ x.mode ≠ .debugHalted) ∨ 32 ≤ x.queue.length ∨ (atN x.dispatch (demodSlotNo r.val.slot) none).isNone then
      .next (s.estDrop e.val 1)
    else .next (s.modEst e.val fun x => { x with queue := x.queue ++ [r] })

/-- ESTIMATOR_DISPATCH: after a handler's transfer gap, or at an estimator boundary, the request at the head of the queue
starts its handler (R183). A core in IDLE takes it in the tick in which it becomes readable (R186). A halt that waited through a
transfer gap in which no request came is taken (R192). -/
def execEstimatorDispatch (e : Fin 32) (s : State) : Res :=
  let x := s.es e.val
  if x.mode = .running ∧ x.haltWait ∧ x.free ∧ !x.handover then .next ((s.runTo x.next).modEst e.val Est.takeHalt) else
  match x.head with
  | none => .next s
  | some r =>
    if x.mode ≠ .running then .next s
    else if x.handover then .next (s.estTake e.val x.next x.next false)
    else if !x.boundary ∨ x.stopWait ∨ x.pageSealed then .next s
    else
      let b := if x.due = some .idle then max x.next r.readable else x.next
      if r.readable ≤ b then .next (s.estTake e.val b (b + 4) true) else .next s

/-- ESTIMATOR_STOP: a commanded stop at a boundary outside a handler (R191, Table 7.9). -/
def execEstimatorStop (e : Fin 32) (s : State) : Res :=
  let x := s.es e.val
  if x.stopWait ∧ x.boundary ∧ !x.handover ∧ (x.mode = .running ∨ x.mode = .debugHalted) then
    .next ((s.runTo x.next).estHalt e.val)
  else .next s

/-! ## Errors and restarts (R188 to R190) -/

/-- The core is issuing instructions or may be stepped. -/
def Est.live (e : Est) : Bool := decide (e.mode = .running) || decide (e.mode = .debugHalted)

/-- ESTIMATOR_PROGRAM_MEMORY_ERROR: an uncorrectable program word (code 2, R190), a failed check of the datapath or an
uncorrectable data word (code 3, R189), or a corrected bit, which is counted. With AUTORESTART the Curator repairs. -/
def execEstimatorProgramMemoryError (e : Fin 32) (err : EstError) (s : State) : Res :=
  let x := s.es e.val
  match err with
  | .corrected => .next (s.modEst e.val fun x => { x with corrected := x.corrected + 1 })
  | .program addr =>
    if !x.live then .next s else
    let s := s.estFault e.val (max x.next s.now) 2
    .next { s with units := { s.units with repairs := s.units.repairs ++ [Repair.estProgram e.val addr.val] } }
  | .datapath => if !x.live then .next s else .next (s.estFault e.val (max x.next s.now) 3)

/-- The core restarts at ENTRY with its registers cleared; data memory and pages stay (R190). -/
def Est.restart (t : Nat) (e : Est) : Est :=
  let z : Est := {}
  { e with
    v := z.v, x := z.x, a := z.a, reps := [], flight := [], branch := none, handler := none, stopWait := false, haltWait := false
    pc := e.entry, resume := 0, mode := .running, next := t + 1, gapEnd := 0 }

/-- ESTIMATOR_AUTORESTART: the program word is rewritten from the journal copy, and the core restarts at ENTRY (R190). -/
def execEstimatorAutorestart (e : Fin 32) (s : State) : Res :=
  let x := s.es e.val
  if x.mode = .faulted ∧ x.autorestart ∧ (x.fault = 2 ∨ x.fault = 3) ∧ s.units.token.isSome then
    let s := s.modEst e.val fun x => x.restart s.now
    let s := { s with units := { s.units with repairs := s.units.repairs.filter fun r => match r with
      | .estProgram n _ => n != e.val
      | _ => true } }
    .next ((s.note (estRec e.val 0x100)).raiseMaybe 4 (s.lineOwner e.val))
  else .next s

/-! ## Parameter pages (R193) -/

/-- PAGE_SWAP: the sealed page becomes the active one, at a boundary outside a handler, or at once where the core is STOPPED or
FAULTED. The copy begins. -/
def execPageSwap (e : Fin 32) (s : State) : Res :=
  let x := s.es e.val
  if !x.pageSealed then .next s
  else if x.mode = .stopped ∨ x.mode = .faulted then
    .next (s.modEst e.val fun x => { x with useBank1 := !x.useBank1, pageSealed := false, copyAt := some s.now })
  else if x.boundary ∧ !x.handover then
    let s := s.runTo x.next
    .next (s.modEst e.val fun y => { y with useBank1 := !y.useBank1, pageSealed := false, copyAt := some s.now })
  else .next s

/-- PAGE_COPY_END: 2,048 cycles after the swap the shadow page equals the active one. -/
def execPageCopyEnd (e : Fin 32) (s : State) : Res :=
  match (s.es e.val).copyAt with
  | none => .next s
  | some c =>
    .next ((s.runTo (c + 2048)).modEst e.val fun x => { x with
      copyAt := none, bank0 := if x.useBank1 then x.bank1 else x.bank0, bank1 := if x.useBank1 then x.bank1 else x.bank0 })

/-! ## Debug (R192) -/

/-- DEBUG_ESTIMATOR_HALT: at level D2 the port halts a running core; the halt is taken at a boundary, inside a handler too, and never in
a transfer gap. -/
def execDebugEstimatorHalt (e : Fin 32) (s : State) : Res :=
  let x := s.es e.val
  if !s.debugLevel 2 ∨ x.mode ≠ .running then .next s
  else if x.free ∧ (!x.ended ∨ (x.next ≤ s.now ∧ !x.handover)) then .next ((s.runTo x.next).modEst e.val Est.takeHalt)
  else .next (s.modEst e.val fun x => { x with haltWait := true })

/-- DEBUG_ESTIMATOR_STEP: a halted core issues one instruction. -/
def execDebugEstimatorStep (e : Fin 32) (s : State) : Res :=
  let x := s.es e.val
  if !s.debugLevel 2 ∨ x.mode ≠ .debugHalted then .next s
  else match x.due with
    | some i => .next (s.doEst e.val i)
    | none => .next s

end Sys2Proof.Machine
end

