-- ==== Sys2Proof/Machine/EstCmds.lean ====
section
/-!
DEFINITION. Machine/EstCmds.lean: EST_LOAD and EST_START (R187, R193 to R195, Tables 7.8 to 7.10).
-/
namespace Sys2Proof.Machine

/-- The partition owns every demodulation slot of the line of estimator `n` (R195). -/
def ownsEst (s : State) (p : Packet) (n : Nat) : Bool :=
  p.source == .internal || (match s.lineOwner n with
    | some o => pktOwns p o
    | none => false)

/-- The page of an estimator waits (R193): sealed, or being copied. -/
def Est.pageBusy (e : Est) : Bool := e.pageSealed || e.copyAt.isSome

/-- The hold of R193. -/
def State.pageWait (s : State) (n : Nat) : Wait := { item := .page n, detail := 4, busy := (s.es n).pageBusy }

/-- Size of a region of EST_LOAD in units of ADDR, and units in a 64-bit word (Table 7.8). -/
def estRegion (r : Nat) : Nat × Nat := if r = 0 then (0x4000, 2) else if r = 1 then (0x18000, 8) else (0x4000, 8)

/-- A 64-bit word of a region. -/
def Est.regionWord (e : Est) (region addr : Nat) : Word :=
  if region = 0 then pairWord (Sparse.get 0 e.prog addr) (Sparse.get 0 e.prog (addr + 1))
  else if region = 1 then Sparse.get 0 e.mem (addr / 8) else Sparse.get 0 e.shadowPage (addr / 8)

/-- Write 64-bit words to a region. -/
def Est.writeRegion (region addr : Nat) (l : Words) (e : Est) : Est :=
  if region = 0 then { e with prog := Sparse.setList 0 e.prog addr (l.flatMap fun w => [lo32 w, hi32 w]) }
  else if region = 1 then { e with mem := Sparse.setList 0 e.mem (addr / 8) l }
  else if e.useBank1 then { e with bank0 := Sparse.setList 0 e.bank0 (addr / 8) l }
  else { e with bank1 := Sparse.setList 0 e.bank1 (addr / 8) l }

/-- EST_LOAD (R194, Table 7.8). -/
def estLoadCmd : Command where
  opcode := 0x0701
  pf := true
  vf := true
  int := false
  dbg := some 2
  fmt _ p :=
    let w := wordAt p.payload 0
    let r := fld w 58 57
    let n := fld w 38 25
    let (size, unit) := estRegion r
    firstRef [need (p.payload ≠ []) 0x0104 2, needLen p (if bitAt w 56 then 1 else 1 + n), needZero p 0 (mask 24 0), needOk 0 (r ≠ 3),
      needOk 0 (1 ≤ n ∧ n ≤ 8189), needOk 0 (fld w 55 39 % unit = 0 ∧ fld w 55 39 + n * unit ≤ size)]
  maxReply p := if bitAt (wordAt p.payload 0) 56 then fld (wordAt p.payload 0) 38 25 else 0
  chk s p :=
    let w := wordAt p.payload 0
    let n := fld w 63 59
    let e := s.es n
    firstRef [need (s.hasCluster (lineCluster n)) 0x0303, need (ownsEst s p n) 0x0204,
      need (bitAt w 56 || fld w 58 57 == 2 || decide (e.mode = .stopped) || decide (e.mode = .faulted)) 0x0403]
  waits s p :=
    let w := wordAt p.payload 0
    if fld w 58 57 = 2 ∧ !bitAt w 56 then [s.pageWait (fld w 63 59)] else []
  eff s p :=
    let w := wordAt p.payload 0
    let n := fld w 63 59
    let r := fld w 58 57
    let a := fld w 55 39
    if bitAt w 56 then
      let e := (s.es n).land s.now
      { st := s, changed := false, reply := some ((List.range (fld w 38 25)).map fun i => e.regionWord r (a + i * (estRegion r).2)) }
    else
      { st := s.modEst n fun e => (e.land s.now).writeRegion r a (p.payload.drop 1)
        about := estRec n 0 }

/-! ## The check of a program (R187) -/

/-- Addresses in turn from ENTRY to LIMIT, with what the instructions before left open: delay slots to come, and the ends of
open repeat bodies, innermost first. -/
structure EstScan where
  slots : Nat := 0
  ends : List Nat := []

/-- The check of the instruction at `a`, and what it leaves open; `none` where the rule refuses it. -/
def estScan (e : Est) (entry limit a : Nat) (c : EstScan) : Option EstScan :=
  match readEst (Sparse.get 0 e.prog a) with
  | none => none
  | some i =>
    let ends := c.ends.filter fun x => decide (a ≤ x)
    if 0 < c.slots ∧ i.noDelay then none
    else if ends ≠ [] ∧ i.noBody then none
    else
      let slots := c.slots - 1
      let rep (len : Nat) : Option EstScan :=
        let stop := a + len
        if limit < stop ∨ 2 ≤ ends.length ∨ ends.any (fun x => decide (x < stop)) then none else some { slots := slots, ends := stop :: ends }
      match i with
      | .br _ _ t => if t < entry ∨ limit < t then none else some { slots := 2, ends := ends }
      | .brx _ => some { slots := 2, ends := ends }
      | .done_ => some { slots := 2, ends := ends }
      | .repeat_ len _ => rep len
      | .repeatx len _ => rep len
      | _ => some { slots := slots, ends := ends }

/-- The first address of the live range that R187 refuses, by `k` addresses from `a`. -/
def estScanFrom (e : Est) (entry limit : Nat) : Nat → Nat → EstScan → Option Nat
  | 0, _, _ => none
  | k + 1, a, c => match estScan e entry limit a c with
    | none => some a
    | some c => estScanFrom e entry limit k (a + 1) c

/-- A dispatch entry of the payload (Table 7.9). -/
def estEntry (p : Packet) (i : Nat) : Option Nat :=
  let x := fld (wordAt p.payload (1 + i / 4)) (16 * (i % 4) + 15) (16 * (i % 4))
  if x.testBit 15 then some (x % 2 ^ 14) else none

/-- The dispatch table of the payload. -/
def estDispatch (p : Packet) : Vector (Option Nat) 16 := Vector.ofFn fun i => estEntry p i

/-- The first offending address of a start (R187). -/
def Est.badStart (e : Est) (p : Packet) : Option Nat :=
  let w := wordAt p.payload 0
  let entry := fld w 54 41
  let limit := fld w 40 27
  match estScanFrom e entry limit (limit + 1 - entry) entry {} with
  | some a => some a
  | none => ((List.range 16).filterMap (estEntry p)).find? fun a => decide (a < entry ∨ limit < a)

/-- Code of the state (Table 7.10). -/
def EstMode.code : EstMode → Nat
  | .stopped => 0
  | .running => 1
  | .debugHalted => 2
  | .faulted => 3

/-- The reply of EST_START (Table 7.10). -/
def Est.reply (e : Est) (n : Nat) : Words :=
  [orAll [put 63 59 n, put 58 56 e.mode.code, put 55 48 e.fault, put 47 34 e.faultPc, put 33 20 e.badAddr, putB 19 e.pageSealed],
   orAll [put 63 32 e.handled.toNat, put 31 16 e.drops, put 15 0 e.unposted],
   orAll [put 63 48 e.holdMax, put 47 32 e.doubles, put 31 0 e.corrected.toNat]]

/-- A start at device tick `t`: registers, stacks and queue positions are cleared, PC is ENTRY (Table 7.9). -/
def Est.start (p : Packet) (t : Nat) (e : Est) : Est :=
  let w := wordAt p.payload 0
  { ({ e with entry := fld w 54 41, limit := fld w 40 27, autorestart := bitAt w 55, dispatch := estDispatch p
              fault := 0, badAddr := 0, holdMax := 0 } : Est).restart t with entry := fld w 54 41 }

/-- EST_START (R187, R193, Table 7.9). -/
def estStartCmd : Command where
  opcode := 0x0702
  pf := true
  vf := true
  int := false
  dbg := some 2
  fmt _ p :=
    let w := wordAt p.payload 0
    let m := fld w 58 56
    firstRef [need (p.payload ≠ []) 0x0104 2, needLen p (if m = 0 then 5 else 1), needZero p 0 (mask 26 0), needOk 0 (m ≤ 4),
      if m ≠ 0 then none else firstRef [needOk 0 (fld w 54 41 ≤ fld w 40 27),
        firstRef ((List.range 4).map fun i => needZero p (1 + i) 0x4000400040004000)]]
  maxReply _ := 3
  chk s p :=
    let w := wordAt p.payload 0
    let n := fld w 63 59
    let e := s.es n
    firstRef [need (s.hasCluster (lineCluster n)) 0x0303, need (ownsEst s p n) 0x0204,
      if fld w 58 56 = 0 then firstRef [need (!e.live) 0x0403, if p.check then need (e.badStart p).isNone 0x0403 else none] else none]
  waits s p :=
    let w := wordAt p.payload 0
    if fld w 58 56 = 2 then [s.pageWait (fld w 63 59)] else []
  eff s p :=
    let w := wordAt p.payload 0
    let n := fld w 63 59
    let e := s.es n
    let m := fld w 58 56
    let answer (s' : State) (changed : Bool) : Effect :=
      { st := s', changed := changed, reply := some ((s'.es n).reply n), about := estRec n (BitVec.ofNat 32 m) }
    match m with
    | 0 =>
      match e.badStart p with
      | some a => { st := s.modEst n fun e => { e with badAddr := a }, status := 0x0403, changed := false }
      | none => answer (s.modEst n fun e => e.start p s.now) true
    | 1 => answer (s.modEst n fun e => if e.live then { e with stopWait := true } else e) true
    | 2 => answer (s.modEst n fun e => { e with pageSealed := true }) true
    | 3 => answer s false
    | _ => { (answer s true) with st := s.modEst n fun e => { e with
               handled := 0, drops := 0, unposted := 0, holdMax := 0, doubles := 0, corrected := 0 } }

end Sys2Proof.Machine
end

