-- ==== Sys2Proof/Machine/TimeCmds.lean ====
section
/-!
DEFINITION. Machine/TimeCmds.lean: chapter 2: the commands of group 0x02 and the events of the timebase.
-/
namespace Sys2Proof.Machine

/-! ## The servo (R51, R463) -/

/-- ε from φ + ψ, clamped to the slew limit: ppb to units of 2^-40 ns per tick, to the nearest unit. -/
def Timebase.slew (t : Timebase) : Int :=
  let sum := t.phi.add t.psi
  let lim : Int := 1000 * t.slewLimit
  let c := if sum.geInt lim then (⟨lim, 1⟩ : Frac) else if sum.leInt (-lim) then ⟨-lim, 1⟩ else sum
  (c.scale (2 ^ 40) 1000000000).round

/-- The timebase with ε recomputed. -/
def Timebase.reslew (t : Timebase) : Timebase := { t with eps := t.slew }

/-- The Almanac correction applied since a mark, in ps: what steps and slews have added to one nanosecond a tick. -/
def Timebase.correction (t : Timebase) (m : MarkRec) : Frac :=
  let d := (t.travel - m.travel) - ((t.now : Int) - m.now)
  ⟨1000 * (d * 2 ^ 40 + ((t.frac : Int) - m.frac)), 2 ^ 40⟩

/-- A step of the Almanac and the second phase by `d` ns (R50, R51, R56): a forward step that carries the second phase
across zero produces one mark in the step tick; a backward step across zero produces none, and the mark of that second
is not repeated. -/
def Timebase.step (d : Int) (t : Timebase) : Timebase :=
  let sum := (t.secPhase : Int) + d
  let n := sum / 1000000000
  let t' := { t with
    almanac := t.almanac + BitVec.ofInt 32 d, secPhase := (sum % 1000000000).toNat, travel := t.travel + d
    stepCount := t.stepCount + 1 }
  if n < 0 then { t' with skipMarks := t.skipMarks + (-n).toNat }
  else if (t.skipMarks : Int) < n then
    { t' with
      skipMarks := 0
      marksDue := t.marksDue ++ [{ now := t.now, tick := t.counter, almanac := t'.almanac, travel := t'.travel,
                                   frac := t.frac }] }
  else { t' with skipMarks := t.skipMarks - n.toNat }

/-- The mark that a FEED names: one of the two most recent marks (R52). -/
def Timebase.markNamed (t : Timebase) (seq : BitVec 32) : Option MarkRec :=
  if t.lastMark.seq ≠ 0 ∧ t.lastMark.seq = seq then some t.lastMark
  else if t.prevMark.seq ≠ 0 ∧ t.prevMark.seq = seq then some t.prevMark
  else none

/-- θ less the correction applied since mark `m`, in ps. -/
def Timebase.theta (t : Timebase) (m : MarkRec) (offset : Int) : Frac := (⟨offset, 1⟩ : Frac).add (t.correction m).neg

/-- |θ| reaches the step threshold, and steps are not inhibited (R51). -/
def Timebase.mustStep (t : Timebase) (θ : Frac) : Bool :=
  !t.stepInhibit && (θ.geInt (1000 * t.stepThreshold) || θ.leInt (-(1000 * t.stepThreshold)))

/-- A FEED with offset θ that refers to mark `m` (R51). -/
def Timebase.feed (t : Timebase) (m : MarkRec) (offset : Int) : Timebase :=
  let θ := t.theta m offset
  if t.mustStep θ then
    let t := t.step (-(θ.scale 1 1000).round)
    { t with psi := {}, psiEnd := none, prevFeed := some m.tick }.reslew
  else
    let τ : Int := match t.prevFeed with
      | none => 1000000000
      | some k => if (m.tick - k).toInt ≤ 0 then 1000000000 else (m.tick - k).toInt
    { t with
      phi := t.phi.add (θ.scale (-1000000) (2 ^ t.kiShift * τ.toNat))
      psi := θ.scale (-1) t.tc
      psiEnd := some (t.now + t.tc * 1000000)
      prevFeed := some m.tick }.reslew

/-- TIME_SERVO_FEED (Table 2.3). The manual does not say what SET does to the 40-bit accumulator, nor whether its movement counts as a
correction applied since a mark: the model clears the accumulator and counts the movement (DESIGN CHOICE). -/
def timeServoFeedCmd : Command where
  opcode := 0x0201
  pf := true
  vf := false
  int := false
  dbg := none
  fmt _ p :=
    let w := wordAt p.payload
    let mode := fld (w 0) 63 60
    firstRef [
      needOk 0 (mode ≤ 2),
      needLen p (if mode = 1 then 3 else 2),
      needZero p 0 (mask 59 32),
      if mode = 2 then needZero p 1 (mask 63 62) else none,
      needOk 1 (mode != 0 || ((sfld (w 1) 63 0).natAbs < 2 ^ 31 * 1000)),
      needOk 1 (mode != 2 || fld (w 1) 61 32 < 1000000000),
      needOk 2 (mode != 1 || (1 ≤ fld (w 2) 63 56 && fld (w 2) 63 56 ≤ 200 && 100 ≤ fld (w 2) 55 24
        && fld (w 2) 55 24 ≤ 1000000000 && 10 ≤ fld (w 2) 23 8 && fld (w 2) 23 8 ≤ 60000 && fld (w 2) 7 1 ≤ 16))]
  maxReply _ := 0
  chk s p :=
    let w := wordAt p.payload
    match fld (w 0) 63 60 with
    | 0 => need (s.time.markNamed (lo32 (w 0))).isSome 0x0403
    | 2 => need s.time.events.isEmpty 0x0403
    | _ => none
  waits _ _ := []
  eff s p :=
    let w := wordAt p.payload
    let t := s.time
    match fld (w 0) 63 60 with
    | 0 =>
      match t.markNamed (lo32 (w 0)) with
      | none => { st := s, changed := false }
      | some m =>
        let off := sfld (w 1) 63 0
        let θ := t.theta m off
        let t' := t.feed m off
        let s' := { s with time := t' }
        if t.mustStep θ then
          let d := -(θ.scale 1 1000).round
          let s' := if d < 0 ∨ (t.stepThreshold : Int) < d then s'.setTrouble 0 2 else s'
          { st := s'.raiseEvery 2
            -- θ in ns, and the Almanac before and after (R53).
            about := { detail := BitVec.ofInt 32 (-d), vals := some (put 31 0 t.almanac.toNat, put 31 0 t'.almanac.toNat) } }
        else { st := s' }
    | 1 =>
      { st := { s with time := { t with
          slewLimit := fld (w 2) 63 56, stepThreshold := fld (w 2) 55 24, tc := fld (w 2) 23 8, kiShift := fld (w 2) 7 1
          stepInhibit := bitAt (w 2) 0 }.reslew } }
    | _ =>
      let a := lo32 (w 1)
      { st := { s with time := { t with
          almanac := a, secPhase := fld (w 1) 61 32, frac := 0, skipMarks := 0
          travel := t.travel + (a - t.almanac).toInt } } }

/-! ## SYNC_ARM -/

/-- The reference source that REF_SRC names (Table 2.5). -/
def refSrcOf : Nat → Option RefSrc
  | 1 => some .chassis
  | 2 => some .refin10
  | 3 => some .refin100
  | _ => none

/-- A change of reference source (R35): the sample PLL leaves lock, every RF output takes the unlock mute, and the epoch
is invalid. -/
def State.changeRef (r : RefSrc) (s : State) : State :=
  { s with time := { s.time with
      refSrc := r, pll := .unlocked, epochValid := false, returnAt := none, steering := false
      sourceChangedAt := some s.now } }.unlockMute

/-- The reference source that a SYNC_ARM changes to, where it changes it. -/
def State.refChange (s : State) (w0 : Word) : Option RefSrc :=
  match refSrcOf (fld w0 63 60) with
  | some r => if r = s.time.refSrc then none else some r
  | none => none

/-- SYNC_ARM (Table 2.5). -/
def syncArmCmd : Command where
  opcode := 0x0202
  pf := true
  vf := false
  int := true
  dbg := none
  fmt _ p :=
    let w0 := wordAt p.payload 0
    let cancel := bitAt w0 0
    firstRef [needLen p 2, needZero p 0 (mask 55 1), needOk 0 (cancel || (fld w0 63 60 ≤ 3 && fld w0 59 56 ≤ 2))]
  maxReply _ := 0
  chk s p :=
    let w := wordAt p.payload
    if bitAt (w 0) 0 then none else
    firstRef [
      need (!s.anySeqLive) 0x0402,
      needOk 1 (fld (w 0) 59 56 != 2
        || (1000 ≤ ((w 1).toNat : Int) - s.tick.toNat && ((w 1).toNat : Int) - s.tick.toNat ≤ 2 ^ 40))]
  waits _ _ := []
  eff s p :=
    let w := wordAt p.payload
    if bitAt (w 0) 0 then { st := { s with time := { s.time with capture := .none } }, tick := some s.tick } else
    let s' := match s.refChange (w 0) with
      | some r => s.changeRef r
      | none => s
    let (src, cap) : SyncSrc × Capture := match fld (w 0) 59 56 with
      | 0 => (.input .chassis, .armed .chassis)
      | 1 => (.input .syncin, .armed .syncin)
      | _ => (.internal, .fixed (s.now + ((w 1).toNat - s.tick.toNat)) 0)
    { st := { s' with time := { s'.time with syncSrc := some src, capture := cap } }, tick := some s.tick }

/-! ## SKEW_CAL -/

/-- SKEW_CAL (Table 2.2). -/
def skewCalCmd : Command where
  opcode := 0x0203
  pf := true
  vf := false
  int := false
  dbg := none
  fmt _ p :=
    let w := wordAt p.payload 0
    let mode := fld w 63 60
    let d := fld w 47 40
    let c := sfld w 31 0
    firstRef [
      needLen p 1, needOk 0 (mode ≤ 2), needZero p 0 (mask 59 56 ||| mask 39 32),
      needOk 0 (mode != 1 || fld w 55 48 ≤ 15),
      needOk 0 (mode != 2 || ((d = 0 || (8 ≤ d && d ≤ 63)) && -1000 ≤ c && c ≤ 1000))]
  maxReply p := if fld (wordAt p.payload 0) 63 60 = 2 then 0 else 1
  chk s p :=
    let w := wordAt p.payload 0
    match fld w 63 60 with
    | 1 => firstRef [need s.time.epochValid 0x0401, need (s.peerLocked (fld w 55 48)) 0x0403]
    | 2 => need (!s.anySeqLive) 0x0402
    | _ => none
  waits _ _ := []
  eff s p :=
    let w := wordAt p.payload 0
    if fld w 63 60 = 2 then
      let d := fld w 47 40
      let s' := { s with time := { s.time with
          phaseCorr := sfld w 31 0, epochDelay := if d = 0 then s.time.epochDelay else d } }
      { st := if sfld w 31 0 = s.time.phaseCorr then s' else s'.lanesRelockDue }
    else { st := if fld w 63 60 = 1 then s.askSkew (fld w 55 48) else s, changed := false, later := true }

/-- A SKEW_CAL of mode `m` that runs. -/
def OpenCmd.isSkew (m : Nat) (o : OpenCmd) : Bool := o.opcode == 0x0203 && fld (wordAt o.packet.payload 0) 63 60 == m

/-- The oldest SKEW_CAL of mode `m` that has not completed. -/
def State.skewOpen (s : State) (m : Nat) : Option OpenCmd := s.host.open_.find? (OpenCmd.isSkew m)

/-- The oldest SKEW_CAL of mode `m` that has not completed and of which `f` holds. -/
def State.skewWith (s : State) (m : Nat) (f : OpenCmd → Bool) : Option OpenCmd :=
  s.host.open_.find? fun o => o.isSkew m && f o

/-- The sync input that a TDC measurement watches (R44): that of the last SYNC_ARM, or the chassis sync line. -/
def State.tdcInput (s : State) : SyncIn :=
  match s.time.syncSrc with
  | some (.input i) => i
  | _ => .chassis

/-- Replace the kept words of a command that runs. -/
def State.setData (o : OpenCmd) (d : Words) (s : State) : State :=
  { s with host := { s.host with open_ := s.host.open_.map fun x => if x = o then { o with data := d } else x } }

/-- Sum and extremes of a list of integers. -/
def intSum (l : List Int) : Int := l.foldl (· + ·) 0

/-- The reply word of SKEW_CAL: `hi` in [63:32], the spread in [31:16]. -/
def skewReply (hi spread : Int) : Word := putS 63 32 hi ||| put 31 16 spread.toNat

/-- Mean and spread in ps of the exchanges of a fabric measurement, from twice each offset δ (R45). -/
def skewResult (l : List Int) : Int × Int :=
  let hi := l.foldl max (l.headD 0)
  let lo := l.foldl min (l.headD 0)
  ((⟨intSum l, 2 * max l.length 1⟩ : Frac).round, (⟨hi - lo, 2⟩ : Frac).round)

/-- SKEW_CAL_COMPLETE: a TDC measurement that has its edge, or a fabric measurement that has its 8 exchanges, completes
(R44, R45, R309). An edge within 150 ps of a tick boundary completes with 0x0502. -/
def execSkewCalComplete (s : State) : Res :=
  match s.skewWith 0 (fun o => !o.data.isEmpty) with
  | some o =>
    let ps := fld (wordAt o.data 0) 31 0
    let near := ps < 150 || 850 < ps
    .next (s.finish o (if near then 0x0502 else 0) (some [skewReply ps 0]) s.tick 0 1000000000)
  | none =>
    match s.skewWith 1 (fun o => 8 ≤ o.data.length) with
    | some o =>
      let (m, sp) := skewResult (o.data.map fun w => sfld w 63 0)
      .next (s.finish o 0 (some [skewReply m sp]) s.tick 0 1000000)
    | none => .next s

/-- SKEW_CAL_TIMEOUT: no edge within 1 s, or a peer that has not answered within 1 ms of the first exchange, completes the
command with 0x0603 (R309). -/
def execSkewCalTimeout (s : State) : Res :=
  match s.skewWith 0 (fun o => o.data.isEmpty) with
  | some o =>
    let s := s.runTo (o.since + 1000000000)
    .next (s.finish o 0x0603 none s.tick 0 1000000000)
  | none =>
    match s.skewWith 1 (fun o => o.data.length < 8) with
    | some o =>
      let s := s.runTo (o.first.getD o.since + 1000000)
      .next (s.finish o 0x0603 none s.tick 0 1000000)
    | none => .next s

/-! ## ALMANAC_READ -/

/-- The reply of ALMANAC_READ (Table 2.6): every field of one tick (R60). -/
def Timebase.readWords (t : Timebase) : Words :=
  [put 63 32 t.almanac.toNat ||| put 29 0 t.secPhase, t.counter,
   put 63 32 t.markSeq.toNat ||| put 31 0 t.lastMark.almanac.toNat, t.lastMark.tick,
   orAll [putS 63 32 t.eps, put 31 8 t.stepCount.toNat, putB 2 (t.pll = .holdover), putB 1 (t.pll = .locked),
     putB 0 t.epochValid]]

/-- ALMANAC_READ (Table 2.6). -/
def almanacReadCmd : Command where
  opcode := 0x0204
  pf := true
  vf := true
  int := true
  dbg := some 1
  fmt _ p := needLen p 0
  maxReply _ := 5
  chk _ _ := none
  waits _ _ := []
  eff s _ := { st := s, changed := false, reply := some s.time.readWords }

/-! ## Reference and sample PLL -/

/-- A record and the timebase vector of a timebase event. -/
def State.timeEvent (detail : BitVec 32) (s : State) : State := (s.note (evRec 15 0 detail)).raiseEvery 2

/-- REFERENCE_LOSS: the sample PLL, locked or being steered, goes to holdover; trouble bit, record, timebase vector
(R58). -/
def execReferenceLoss (s : State) : Res :=
  if s.time.pll = .locked ∨ (s.time.pll = .holdover ∧ s.time.returnAt.isSome) then
    .next ((({ s with time := { s.time with pll := .holdover, returnAt := none, steering := false } }).setTrouble 0 0).timeEvent 1)
  else .next s

/-- REFERENCE_RETURN: the wait for a stable reference begins (R59). -/
def execReferenceReturn (s : State) : Res :=
  if s.time.pll = .holdover ∧ s.time.returnAt = none then
    .next { s with time := { s.time with returnAt := some s.now } }
  else .next s

/-- REFERENCE_STABLE: 1 ms after the return, steered relock begins (R59). -/
def execReferenceStable (s : State) : Res :=
  match s.time.returnAt with
  | some t =>
    if s.time.pll = .holdover then
      let s := s.runTo (t + 1000000)
      .next { s with time := { s.time with steering := true } }
    else .next s
  | none => .next s

/-- RELOCK_COMPLETE: the sample PLL is locked again and epoch-valid is cleared (R59). -/
def execRelockComplete (s : State) : Res :=
  if s.time.steering then
    .next (({ s with time := { s.time with
      pll := .locked, steering := false, returnAt := none, epochValid := false } }).timeEvent 2)
  else .next s

/-- PLL_LOCK: from the selection of a reference in phase 4 on, lock is declared (R34): the tick counter starts from zero at the first lock (R39), epoch-valid is clear after
any loss of lock (R35, R369), and the unlock mute clears (R118). -/
def execPllLock (s : State) : Res :=
  if s.time.pll = .unlocked ∧ 4 ≤ s.boot.phase ∧ s.power.st ≠ .dormant then
    let t := s.time
    .next (({ s with time := { t with
      pll := .locked, everLocked := true, sourceChangedAt := none, epochValid := false, counting := true
      zeroAt := if t.counting then t.zeroAt else t.now } }).unlockRelease.timeEvent 3)
  else .next s

/-- REFERENCE_TIMEOUT: no valid signal within 10 ms of a source change: the sample PLL runs free, REF_LOSS is set, the
timebase vector raised and a record written (R35, R441). -/
def execReferenceTimeout (s : State) : Res :=
  match s.time.sourceChangedAt with
  | some t =>
    if s.time.pll = .unlocked then
      let s := s.runTo (t + 10000000)
      .next ((({ s with time := { s.time with sourceChangedAt := none } }).setTrouble 0 0).timeEvent 4)
    else .next s
  | none => .next s

/-- PLL_FAULT: the lock detector declares a fault while the reference is present: every RF output takes the unlock mute
(R369). -/
def execPllFault (s : State) : Res :=
  if s.time.pll = .locked then
    .next ((({ s with time := { s.time with pll := .unlocked } }).unlockMute.setTrouble 0 1).timeEvent 5)
  else .next s

/-! ## Epochs -/

/-- SYNC_EDGE: a rising edge of a sync input at phase `ps` of the present tick reaches the TDC. It fixes the epoch tick of
an armed capture: the first tick boundary at least the epoch delay after the edge (R36, R38). It is the measurement of every
SKEW_CAL in TDC mode that waits for the next edge of this input (R44). -/
def execSyncEdge (src : SyncIn) (ps : Fin 1000) (s : State) : Res :=
  let t := s.time
  let s := if t.capture = .armed src then
      { s with time := { t with
          capture := .fixed (t.now + t.epochDelay + (if ps.val = 0 then 0 else 1)) ps.val } }
    else s
  let timed (o : OpenCmd) : OpenCmd := if o.isSkew 0 && o.data.isEmpty then { o with data := [put 31 0 ps.val] } else o
  if s.tdcInput = src then .next { s with host := { s.host with open_ := s.host.open_.map timed } } else .next s

/-- The mark as the epoch tick has it: a mark in tick `n` latches the counter value of that tick, zero (R39, R50). -/
def MarkRec.atEpoch (n : Nat) (m : MarkRec) : MarkRec := if m.now = n then { m with tick := 0 } else m

/-- EPOCH_SET: at the epoch tick the tick counter reads zero, epoch-valid is set, the epoch count goes up, and the record
carries the TDC reading (R39, R41). -/
def execEpochSet (s : State) : Res :=
  match s.time.capture with
  | .fixed n ps =>
    let s := s.runTo n
    let t := s.time
    .next (({ s with time := { t with
      zeroAt := n, counting := true, epochValid := true, epochCount := t.epochCount + 1
      capture := .none, marksDue := t.marksDue.map (MarkRec.atEpoch n), lastMark := t.lastMark.atEpoch n } }).lanesRelockDue.timeEvent (BitVec.ofNat 32 ps))
  | _ => .next s

/-! ## Almanac events -/

/-- Serve the oldest mark that is due (R50): the mark record is latched, the mark vector raised in every function, and the
mark driven on the mark outputs. -/
def State.serveMark (s : State) : State :=
  match s.time.marksDue with
  | [] => s
  | m :: l =>
    let t := s.time
    let m := { m with seq := t.markSeq + 1 }
    (({ s with time := { t with
      marksDue := l, markSeq := t.markSeq + 1, prevMark := t.lastMark, lastMark := m } }).raiseEvery 1).driveMark m.now

/-- ALMANAC_MARK: the second phase passes from 999,999,999 to zero (R50). Without a mark that is due, the clock runs
forward to the next. -/
def execAlmanacMark (s : State) : Res :=
  if s.time.marksDue = [] then
    .next (s.advance (s.time.ticksFor (1000000000 * ((s.time.skipMarks : Int) + 1) - s.time.secPhase))).serveMark
  else .next s.serveMark

/-- SERVO_PHASE_TERM_END: the phase term ends after tc; ε is recomputed (R51, R463). -/
def execServoPhaseTermEnd (s : State) : Res :=
  match s.time.psiEnd with
  | some n =>
    let s := s.runTo n
    .next { s with time := { s.time with psi := {}, psiEnd := none }.reslew }
  | none => .next s

/-- The device tick in which an Almanac-scheduled event fires, if nothing steps or slews the Almanac (R55). -/
def Timebase.fireTick (t : Timebase) (e : AlmEvent) : Nat :=
  max e.earliest (if e.due ≤ t.travel then t.now else t.now + t.ticksFor (e.due - t.travel))

/-- The event is due: its distance is zero or less (R55). -/
def Timebase.isDue (t : Timebase) (e : AlmEvent) : Bool := e.due ≤ t.travel && e.earliest ≤ t.now

/-- ALMANAC_EVENT_FIRE: the clock runs to the first tick in which an armed event is due; all events due in that tick fire
and are disarmed (R55, R56). -/
def execAlmanacEventFire (s : State) : Res :=
  match s.time.events with
  | [] => .next s
  | e :: l =>
    let n := l.foldl (fun n e => min n (s.time.fireTick e)) (s.time.fireTick e)
    let s := s.runTo n
    let due := s.time.events.filter s.time.isDue
    let s := { s with time := { s.time with events := s.time.events.filter fun e => !s.time.isDue e } }
    .next (due.foldl (fun s e => s.fireAlm e.what) s)

end Sys2Proof.Machine
end

