-- ==== Sys2Proof/Machine/FabricCmds.lean ====
section
/-!
DEFINITION. Machine/FabricCmds.lean: ROUTE_TABLE, LANE_TRAIN, COLLECTION_JOIN, LANE_TEST, and the events of the Selkadex lanes:
launches, receptions, service words, failure, training, tests (R201 to R222, R45).
-/
namespace Sys2Proof.Machine

/-! ## Lane states (Table 8.6) -/

/-- Code of a lane state (Table 8.9). -/
def LaneState.code : LaneState → Nat
  | .down => 0
  | .detect => 1
  | .equalize => 2
  | .block => 3
  | .identify => 4
  | .lock => 5
  | .up => 6
  | .idle => 7
  | .test => 8

/-- Limit in an attempt in ticks, and the reason code of a failure there (Table 8.6). -/
def LaneState.limit : LaneState → Option (Nat × Nat)
  | .detect => some (1000000, 1)
  | .equalize => some (4000000, 2)
  | .block => some (100000, 3)
  | .identify => some (1000000, 4)
  | .lock => some (1000000, 5)
  | _ => none

/-- A record about a lane. -/
def laneRec (n : Nat) (detail : BitVec 32) : LedgerRec := evRec 8 n detail

/-- A lane enters a state: a change raises vector 6 (Table 12.8). -/
def State.laneEnter (n : Nat) (st : LaneState) (s : State) : State :=
  let was := (s.lane n).st
  let s := s.modLane n fun l => { l with
    st := st, since := s.now, lostAt := if was = .up ∧ st ≠ .up then s.now else l.lostAt, relock := false, pairs := 0 }
  if was = st then s else s.raise 6

/-- A SEQ_ARM that waits for woken lanes completes when none is waking any longer (R217); with 0x0603 where a lane did not come
UP. -/
def State.armsDone (failed : Bool) (s : State) : State :=
  if !failed && s.fabric.lane.toList.any (·.waking) then s else
  (s.host.open_.filter fun o => o.opcode == 0x0303).foldl (fun s o =>
    s.finish o (if failed then 0x0603 else fld (wordAt o.data 0) 15 0) none s.tick o.seq 0) s

/-- The reply of LANE_TEST (Table 8.12). -/
def Lane.testReply (l : Lane) : Words :=
  [put 63 62 l.tstate, l.tbits, put 63 32 l.terrors ||| put 31 0 l.tsync]

/-- A LANE_TEST that waits for the peer's answer completes. -/
def State.testAnswer (n status : Nat) (s : State) : State :=
  let s := s.modLane n fun l => { l with testAsked := false }
  match s.host.open_.find? fun o => o.opcode == 0x0804 && fld (wordAt o.packet.payload 0) 63 60 == n with
  | some o => s.finish o status (some (s.lane n).testReply) s.tick o.seq 0
  | none => s

/-- A lane goes DOWN with a reason. A test that runs is stopped; a test that is asked for fails with its lane. -/
def State.laneDown (n reason : Nat) (s : State) : State :=
  let l := s.lane n
  let s := s.laneEnter n .down
  let s := s.modLane n fun x => { x with
    reason := reason, waking := false, frame := [], service := [], tstate := if l.st = .test then 3 else x.tstate }
  let s := if l.testAsked then (s.modLane n fun x => { x with tstate := 3 }).testAnswer n 0x0702 else s
  if l.waking then s.armsDone true else s

/-- An attempt begins in DETECT (R215). -/
def State.laneAttempt (n : Nat) (s : State) : State :=
  let s := s.laneEnter n .detect
  s.modLane n fun l => { l with
    attemptAt := s.now, identOk := false, lowMargins := 0, offset := none, frame := [], service := []
    peakOn := if l.on.ctle then l.on.peaking else l.peakOn }

/-- The decision-feedback equalizer is engaged or not; it starts with all taps at zero (R214). -/
def Lane.setDfe (on : Bool) (l : Lane) : Lane := { l with dfeOn := on, taps := Vector.replicate 5 0 }

/-- Training begins, with a pending patch of the training engine applied (R329): the configuration in force is taken (Table 8.8), the
DFE is off or forced on until the next training (R214), and an attempt runs. -/
def State.laneTrain (n : Nat) (s : State) : State :=
  ((s.patchDue 7).modLane n fun l => { l.setDfe (decide (l.cfg.dfe = 1)) with
    on := l.cfg, attempts := 0, retrains := satAdd 16 l.retrains 1, tstate := if l.st = .test then 3 else l.tstate }).laneAttempt n

/-- An attempt fails: after 3 the lane is DOWN with the reason of the last (R215). -/
def State.laneFail (n reason : Nat) (s : State) : State :=
  let k := (s.lane n).attempts + 1
  let s := s.modLane n fun l => { l with attempts := k, reason := reason }
  if 3 ≤ k then s.laneDown n reason else s.laneAttempt n

/-- The primary lane to the peer of lane `n`. -/
def State.primaryOf (s : State) (n : Nat) : Option Nat :=
  (List.range 16).find? fun m => let l := s.lane m
    l.ent.used && !l.ent.stby && l.ent.peer == (s.lane n).ent.peer

/-- The latency to which a lane locks: its own, or the primary's for a standby lane (R219). -/
def State.targetLl (s : State) (n : Nat) : Nat :=
  let l := s.lane n
  if l.ent.stby then (match s.primaryOf n with
    | some m => (s.lane m).ll
    | none => l.on.ll) else l.on.ll

/-! ## ROUTE_TABLE -/

/-- Source of a delivery record: member, line, slot (Table 8.7). -/
def rtDeliv (w : Word) : Deliv :=
  { en := bitAt w 51, smem := fld w 50 47, sline := fld w 46 42, sslot := fld w 41 38, age := fld w 37 22 }

/-- The demodulation slot of a send record. -/
def rtSlot (w : Word) : Nat := 16 * fld w 62 58 + fld w 57 54

/-- Checks of record `i` (R222). -/
def State.routeCheck (s : State) (p : Packet) (w : Word) (i : Nat) : Option Refused :=
  if bitAt w 63 then
    let q := fld w 62 55
    let d := rtDeliv w
    firstRef [need (s.hasCluster (seqCluster q)) 0x0303 i, need (pktOwns p (s.seqOwner q)) 0x0204 i,
      if !d.en then none
      else if d.smem = s.fabric.member then firstRef [need (s.hasCluster (lineCluster d.sline)) 0x0303 i,
        need (pktOwns p (s.demodOwner (16 * d.sline + d.sslot))) 0x0204 i]
      else need (s.fabric.members.toNat.testBit d.smem) 0x0403 i]
  else
    let k := rtSlot w
    firstRef [need (s.hasCluster (lineCluster (demodLine k))) 0x0303 i, need (pktOwns p (s.demodOwner k)) 0x0204 i,
      need ((fld w 53 38 &&& (2 ^ 16 - 1 - s.fabric.members.toNat)) = 0) 0x0403 i]

/-- ROUTE_TABLE (R203, R222, Table 8.7). -/
def routeTableCmd : Command where
  opcode := 0x0801
  pf := true
  vf := true
  int := true
  dbg := none
  fmt s p :=
    let n := fld (wordAt p.payload 0) 63 53
    firstRef [need (p.payload ≠ []) 0x0104 2, needOk 0 (1 ≤ n ∧ n ≤ 1024), needLen p (1 + n), needZero p 0 (mask 52 0),
      firstRef ((List.range n).map fun i =>
        let w := wordAt p.payload (1 + i)
        if bitAt w 63 then needZero p (1 + i) (mask 21 0)
        else firstRef [needZero p (1 + i) (mask 37 0), needOk (1 + i) (!(fld w 53 38).testBit s.fabric.member)])]
  maxReply _ := 0
  chk s p := firstRef ((p.payload.drop 1).zipIdx.map fun (w, i) => s.routeCheck p w i)
  waits s p := (p.payload.drop 1).flatMap fun w =>
    if bitAt w 63 then [s.setWait (fld w 62 55)] else s.bindWait (demodBinding (fld w 62 58) (fld w 57 54))
  eff s p :=
    { st := (p.payload.drop 1).foldl (fun s w =>
        if bitAt w 63 then s.modRoute (fld w 62 55) fun r => { r with shadow := updN r.shadow (fld w 54 52) fun _ => rtDeliv w }
        else s.modSend (rtSlot w) fun e => { e with shadow := BitVec.ofNat 16 (fld w 53 38) }) s
      about := evRec 15 0 }

/-! ## LANE_TRAIN -/

/-- The reply of LANE_TRAIN (Table 8.9). -/
def Lane.reply (l : Lane) : Words :=
  [orAll [put 63 60 l.st.code, put 59 57 l.reason, put 56 55 l.attempts, put 54 51 l.peakOn, putB 50 l.dfeOn, putB 49 l.ent.stby,
     put 48 42 (min l.margin 127), put 41 35 l.nlat, put 34 28 l.ll, put 27 24 l.peer, put 23 20 l.peerLane],
   orAll [put 63 32 l.checkErrors, put 31 16 l.drops, put 15 0 l.retrains], put 63 32 l.misdelivered]

/-- LANE_TRAIN (R215, R217, Table 8.8). -/
def laneTrainCmd : Command where
  opcode := 0x0802
  pf := true
  vf := false
  int := true
  dbg := none
  fmt s p :=
    let w := wordAt p.payload 0
    let a := fld w 59 57
    let ll := fld w 41 35
    firstRef [needLen p 1, needZero p 0 (mask 34 0), needOk 0 (a ≠ 7),
      if 5 ≤ a then none else needOk 0 (fld w 50 49 ≠ 3 ∧ 5 ≤ fld w 48 42 ∧ fld w 48 42 ≤ 100
        ∧ (ll = 0 ∨ (s.lane (fld w 63 60)).ent.stby ∨ (16 ≤ ll ∧ ll ≤ 126)))]
  maxReply _ := 3
  chk s p :=
    let w := wordAt p.payload 0
    let n := fld w 63 60
    let l := s.lane n
    match fld w 59 57 with
    | 0 => firstRef [need l.ent.used 0x0403, need (!(decide (l.st = .up) && s.carries n)) 0x0503]
    | 1 => need (!s.carries n) 0x0503
    | 2 => firstRef [need (!s.carries n) 0x0402,
        need (!l.ent.stby || (s.primaryOf n).any fun m => decide ((s.lane m).st = .up)) 0x0403]
    | _ => none
  waits _ _ := []
  eff s p :=
    let w := wordAt p.payload 0
    let n := fld w 63 60
    let a := fld w 59 57
    let ll := fld w 41 35
    let s := if 5 ≤ a then s else s.modLane n fun l => { l with
      auto := bitAt w 56
      cfg := { ctle := bitAt w 55, peaking := fld w 54 51, dfe := fld w 50 49, thresh := fld w 48 42
               ll := if ll = 0 ∨ l.ent.stby then l.cfg.ll else ll } }
    let r := (s.lane n).reply
    let s := match a with
      | 0 => s.laneTrain n
      | 1 => s.laneDown n 7
      | 2 => s.laneEnter n .idle
      | 3 => if (s.lane n).st = .idle then s.modLane n fun l => { l with waking := true, wakeChecks := 0, since := s.now } else s
      | 6 => s.modLane n fun l => { l with checkErrors := 0, drops := 0, retrains := 0, misdelivered := 0 }
      | _ => s
    { st := s, changed := a ≠ 5, reply := some (if a = 6 then r else (s.lane n).reply), about := laneRec n (BitVec.ofNat 32 a) }

/-! ## COLLECTION_JOIN -/

/-- Entry `k` of the lane map that the payload gives (R218, Table 8.10). -/
def joinEntry (p : Packet) (k : Nat) : MapEnt :=
  let w := wordAt p.payload 0
  let m := fld w 31 28
  if bitAt w 27 then
    let peer := (m + k + 1) % 16
    if k < 15 ∧ bitAt (wordAt p.payload 1) (48 + peer) then { used := true, stby := false, peer := peer } else {}
  else
    let e := fld (wordAt p.payload (2 + k / 8)) (8 * (k % 8) + 7) (8 * (k % 8))
    { used := e.testBit 7, stby := e.testBit 6, peer := e % 16 }

/-- The lane map is well-formed (Table 8.10). -/
def joinMapOk (p : Packet) : Bool :=
  let l := (List.range 16).map (joinEntry p)
  let used := l.filter (·.used)
  used.all fun e =>
    e.peer != fld (wordAt p.payload 0) 31 28 && bitAt (wordAt p.payload 1) (48 + e.peer)
      && decide ((used.filter fun x => x.peer == e.peer && x.stby == e.stby).length ≤ 1)
      && (!e.stby || used.any fun x => x.peer == e.peer && !x.stby)

/-- COLLECTION_JOIN (R218, R222, Table 8.10). -/
def collectionJoinCmd : Command where
  opcode := 0x0803
  pf := true
  vf := false
  int := true
  dbg := none
  fmt _ p :=
    let w := wordAt p.payload 0
    firstRef [needLen p 4, needZero p 0 (mask 25 0), needZero p 1 (mask 47 0),
      needOk 1 (bitAt (wordAt p.payload 1) (48 + fld w 31 28)),
      needOk 2 (!bitAt w 27 || wordAt p.payload 2 == 0), needOk 3 (!bitAt w 27 || wordAt p.payload 3 == 0),
      needZero p 2 0x3030303030303030, needZero p 3 0x3030303030303030, needOk 2 (joinMapOk p)]
  maxReply _ := 0
  chk s _ := need (!s.anySeqLive) 0x0402
  waits _ _ := []
  eff s p :=
    let w := wordAt p.payload 0
    let s := { s with fabric := { s.fabric with
      cid := hi32 w, member := fld w 31 28, members := BitVec.ofNat 16 (fld (wordAt p.payload 1) 63 48) } }
    let s := (List.range 16).foldl (fun s k =>
      let e := joinEntry p k
      if (s.lane k).ent = e then s else (s.laneDown k 7).modLane k fun l => { l with ent := e }) s
    let s := if bitAt w 26 then (List.range 16).foldl (fun s k => if (s.lane k).ent.used then s.laneTrain k else s) s else s
    { st := s, about := evRec 15 (fld w 31 28) }

/-! ## LANE_TEST -/

/-- A test begins at a lane (R220): its counts are cleared. -/
def State.testStart (n ms : Nat) (s : State) : State :=
  let up := decide ((s.lane n).st = .up)
  let s := s.laneEnter n .test
  s.modLane n fun l => { l with tstate := 1, tbits := 0, terrors := 0, tsync := 0, testAt := s.now, testLen := ms * 1000000, testUp := up }

/-- A test ends (R220): a lane that was UP trains again, one that was DOWN returns to DOWN. -/
def State.testOver (n tstate : Nat) (s : State) : State :=
  let up := (s.lane n).testUp
  let s := if up then s.laneTrain n else s.laneEnter n .down
  s.modLane n fun l => { l with tstate := tstate }

/-- The counts of a test that runs, which the spec leaves to the lane (free values). -/
def State.testCounts (n : Nat) (s : State) : State :=
  if (s.lane n).st = .test then
    let (b, s) := s.drawWord
    let (e, s) := s.drawWord
    s.modLane n fun l => { l with tbits := b, terrors := fld e 31 0 }
  else s

/-- LANE_TEST (R220, Table 8.11). -/
def laneTestCmd : Command where
  opcode := 0x0804
  pf := true
  vf := false
  int := true
  dbg := none
  fmt _ p :=
    let w := wordAt p.payload 0
    let m := fld w 59 58
    let d := fld w 57 38
    firstRef [needLen p 1, needZero p 0 (mask 37 0), needOk 0 (m ≠ 3), needOk 0 (if m = 0 then 1 ≤ d ∧ d ≤ 600000 else d = 0)]
  maxReply _ := 3
  chk s p :=
    let w := wordAt p.payload 0
    let n := fld w 63 60
    let l := s.lane n
    if fld w 59 58 ≠ 0 then none
    else firstRef [need (decide (l.st = .up) || decide (l.st = .down)) 0x0403, need (!(decide (l.st = .up) && s.carries n)) 0x0402,
      need (!l.testAsked) 0x0403]
  waits _ _ := []
  eff s p :=
    let w := wordAt p.payload 0
    let n := fld w 63 60
    let about := laneRec n 0
    match fld w 59 58 with
    | 0 =>
      if (s.lane n).st = .up then
        { st := s.modLane n fun l => { l with testAsked := true, service := l.service ++ [(put 63 60 5 ||| put 59 40 (fld w 57 38), s.cnt s.now)] }
          later := true, about := about }
      else
        let s := s.testStart n (fld w 57 38)
        { st := s, reply := some (s.lane n).testReply, about := about }
    | 1 =>
      let s := s.testCounts n
      { st := s, changed := false, reply := some (s.lane n).testReply }
    | _ =>
      let run := decide ((s.lane n).st = .test)
      let s := s.testCounts n
      let s := if run then s.testOver n 3 else s
      { st := s, changed := run, reply := some (s.lane n).testReply, about := about }

/-! ## Blocks (R206, R208 to R210) -/

/-- The payloads of slots 0 to 14 of frame `j` (R209); a slot that no launch filled carried an idle block. -/
def Lane.framePayloads (l : Lane) (j : Nat) : Words :=
  (List.range 15).map fun i => match l.sent.find? fun x => x.1 == 16 * j + i with
    | some x => x.2
    | none => Block.idle.payload

/-- The check block of frame `j` (Table 8.4): CRC-32C of its payloads, and bits [28:5] of its first launch tick. -/
def Lane.checkBlock (l : Lane) (j : Nat) : Block :=
  .check (BitVec.ofNat 56 ((j % 2 ^ 24) * 2 ^ 32 + (crcWords (l.framePayloads j)).toNat))

/-- A service word that launches in tick-counter value `t`, its cause having come in `came` (Table 8.5): a MARKER carries its launch
tick, an ECHO its turnaround, a SKEW word its launch tick and the CDR phase. -/
def launchService (w : Word) (came t phase : Nat) : Word :=
  match fld w 63 60 with
  | 2 => w ||| put 59 24 t
  | 3 => w ||| put 23 8 (t - came)
  | 4 => w ||| put 59 18 t ||| put 17 8 phase
  | _ => w

/-- A block leaves in block slot `k`. The scrambler's 58 bits stand from the block before where that left in the slot before; else
they are those of the idle blocks between, which no command gives. -/
def State.sendBlock (n k : Nat) (b : Block) (s : State) : State :=
  let s := s.runToCount (2 * k)
  let (h, s) := if (s.lane n).slot = k then ((s.lane n).scrambler, s) else
    let (w, s) := s.drawWord
    (w.setWidth 58, s)
  let (wire, h) := b.wire h
  s.modLane n fun l => { l with
    wire := wire, scrambler := h, slot := k + 1, sent := (k, b.payload) :: l.sent.filter fun x => x.1 / 16 == k / 16 }

/-- A SKEW_CAL of fabric mode with the peer of a lane has its first exchange in tick `t` (R309). -/
def State.skewBegins (n t : Nat) (s : State) : State :=
  let asks (o : OpenCmd) : Bool := o.isSkew 1 && o.first.isNone && fld (wordAt o.packet.payload 0) 55 48 == (s.lane n).ent.peer
  { s with host := { s.host with open_ := s.host.open_.map fun o => if asks o then { o with first := some t } else o } }

/-- A service word of a lane launches in block slot `k`. The CDR phase that a SKEW word carries is what the receive lane shows. -/
def State.sendService (n k : Nat) (w : Word) (came : Nat) (s : State) : State :=
  let skew := decide (fld w 63 60 = 4)
  let (phase, s) : Nat × State := if skew then
      let (x, s) := s.drawWord
      (x.toNat % 1000, s)
    else (0, s)
  let s := s.modLane n fun l => { l with
    service := l.service.drop 1, skewAt := if skew then some (2000 * k + phase) else l.skewAt }
  let s := s.sendBlock n k (.service ((launchService w came (2 * k) phase >>> 8).setWidth 56))
  if skew then s.skewBegins n s.now else s

/-- The block that fills a slot with nothing to send: the frame's check block, a training block in training, or an idle block. -/
def Lane.filler (l : Lane) (k : Nat) : Block :=
  match l.st with
  | .up => if k % 16 = 15 then l.checkBlock (k / 16) else .idle
  | .detect | .equalize | .block => .training 0
  | _ => .idle

/-- LANE_VERDICT_LAUNCH: the lane sends its next block: the oldest queued verdict in the first free slot after it entered, a
service word in a slot at whose start no verdict is queued, else an idle or training block, or the check block of the frame (R206,
R208, R209). In electrical idle, and in TEST, whose pattern is not coded, it sends no block. -/
def execLaneVerdictLaunch (n : Fin 16) (s : State) : Res :=
  let l := s.lane n.val
  if l.st = .idle ∨ l.st = .test then .next s else
  let k0 := max l.slot ((s.cnt s.now + 1) / 2)
  let k1 := freeSlot k0
  let q := if l.st = .up ∧ !l.relock then l.queue else []
  let j := (launchSlots l.slot q).headD (k1 + 1)
  match l.service, q with
  | (w, came) :: _, _ => if k1 < j then .next (s.sendService n.val k1 w came) else
    .next ((s.modLane n.val fun l => { l with queue := l.queue.drop 1 }).sendBlock n.val j (.verdict ((q.headD (0, 0)).1)))
  | [], (p, _) :: _ => .next ((s.modLane n.val fun l => { l with queue := l.queue.drop 1 }).sendBlock n.val j (.verdict p))
  | [], [] => .next (s.sendBlock n.val k0 (l.filler k0))

/-- LANE_VERDICT_RECEIVE: a verdict block launched in sender tick `launch` is readable LL ticks later, and latches two ticks
after that (R199, R210, R216). One whose SRCDEV names no member, or this device, is discarded and counted (R202). -/
def execLaneVerdictReceive (n : Fin 16) (packet : Word) (launch : BitVec 64) (s : State) : Res :=
  let l := s.lane n.val
  if l.st ≠ .up then .next s else
  let s := s.runToCount (launch.toNat + l.ll)
  let src := vSrc packet
  if 16 ≤ src ∨ src = s.fabric.member ∨ !s.fabric.members.toNat.testBit src then
    .next (s.modLane n.val fun l => { l with misdelivered := satAdd 32 l.misdelivered 1, frame := l.frame ++ [packet] })
  else
    let s := s.modLane n.val fun l => { l with frame := l.frame ++ [packet] }
    .next { s with fabric := { s.fabric with flight := s.fabric.flight ++ [⟨packet, s.dev (launch.toNat + l.ll) + 2, .lane n⟩] } }

/-- A verdict packet with VALID cleared. -/
def unvalid (w : Word) : Word := w &&& ~~~(put 41 41 1)

/-- VALID is cleared in every port and gather input that still holds a verdict of the list (R210). -/
def State.clearValid (n : Fin 16) (l : Words) (s : State) : State :=
  let mend (o : Option (Word × Nat)) : Option (Word × Nat) := o.map fun (w, t) => (if l.contains w then unvalid w else w, t)
  { s with
    seqs := { s.seqs with seq := s.seqs.seq.map fun q => { q with ports := q.ports.map fun p => { p with held := mend p.held } } }
    conc := { s.conc with member := s.conc.member.map fun m => { m with inputs := m.inputs.map mend } }
    fabric := { s.fabric with flight := s.fabric.flight.map fun x =>
      if x.reach == Reach.lane n && decide (x.at_ ≤ s.now) && l.contains x.packet then { x with packet := unvalid x.packet } else x } }

/-- CHECK_BLOCK_RECEIVE: the check block of a frame with the payloads of slots 0 to 14; `none` where it is missing. Its CRC is
compared (R210), its launch stamp with what latency lock learned (R212), and for a lane that wakes with what stood before
(R217). -/
def execCheckBlockReceive (n : Fin 16) (payloads : Words) (content : Option (BitVec 56)) (s : State) : Res :=
  let l := s.lane n.val
  if l.st ≠ .up ∧ !(decide (l.st = .idle) && l.waking) then .next s else
  let c := s.cnt s.now
  let good : Bool := match content with
    | some x => x.setWidth 32 == crcWords payloads
    | none => false
  let off := match content with
    | some x => (c / 32 + 2 ^ 24 - x.toNat / 2 ^ 32) % 2 ^ 24
    | none => 0
  if !good then
    let s := s.clearValid n l.frame
    let s := s.modLane n.val fun l => { l with checkErrors := satAdd 32 l.checkErrors 1, badChecks := l.badChecks + 1, frame := [] }
    .next (((s.setTrouble 3 (32 + n.val)).note (laneRec n.val (BitVec.ofNat 32 (c + 2 ^ 32 - 30 - l.ll)))).raise 6)
  else
    let same : Bool := match l.offset with
      | some o => o == off
      | none => !l.waking
    let s := s.modLane n.val fun l => { l with
      badChecks := 0, frame := [], badStamps := if same then 0 else l.badStamps + 1, offset := some (l.offset.getD off) }
    if l.waking then
      if same then .next (s.modLane n.val fun l => { l with wakeChecks := l.wakeChecks + 1 })
      else .next (s.laneTrain n.val)
    else .next s

/-! ## Service words (Table 8.5) -/

/-- SERVICE_IDENTITY: in IDENTIFY, the peer's word is compared with the own Collection ID and lane map (R215). -/
def execServiceIdentity (n : Fin 16) (cid : BitVec 32) (member : Fin 16) (peerLane : Fin 16) (s : State) : Res :=
  let l := s.lane n.val
  if l.st = .identify then
    .next (s.modLane n.val fun l => { l with
      peer := member.val, peerLane := peerLane.val, identOk := decide (cid = s.fabric.cid) && l.ent.used && l.ent.peer == member.val })
  else .next s

/-- The lane exchanges MARKER and ECHO words: LOCK, or an UP lane that runs LOCK again (R216). -/
def Lane.locking (l : Lane) : Bool := decide (l.st = .lock) || (decide (l.st = .up) && l.relock)

/-- SERVICE_MARKER: the word is echoed with its stamp; the turnaround is filled in at launch (R216). -/
def execServiceMarker (n : Fin 16) (stamp : BitVec 36) (_number : BitVec 16) (s : State) : Res :=
  if (s.lane n.val).locking then
    .next (s.modLane n.val fun l => { l with service := l.service ++ [(put 63 60 3 ||| put 59 24 stamp.toNat, s.cnt s.now)] })
  else .next s

/-- SERVICE_ECHO: the round trip less the peer's turnaround, halved and rounded up, is the natural latency (R216). -/
def execServiceEcho (n : Fin 16) (stamp : BitVec 36) (turnaround : BitVec 16) (s : State) : Res :=
  if (s.lane n.val).locking then
    let rtt := (s.cnt s.now % 2 ^ 36 + 2 ^ 36 - stamp.toNat) % 2 ^ 36
    .next (s.modLane n.val fun l => { l with pairs := l.pairs + 1, nlat := (rtt - turnaround.toNat + 1) / 2 })
  else .next s

/-- Twice the offset δ of an exchange (R45). The peer's word carries bits [41:0] of its send tick and its CDR phase; all times in ps. -/
def skewOffset (t1 t2 : Nat) (stamp : BitVec 42) (peerPhase : Nat) (c phase : Nat) : Int :=
  let t3 : Int := 1000 * ((c : Int) - ((c + 2 ^ 42 - stamp.toNat) % 2 ^ 42 : Nat)) + peerPhase
  let t4 : Int := 1000 * (c : Int) + phase
  ((t2 : Int) - t1) - (t4 - t3)

/-- The fabric SKEW_CAL that exchanges blocks with the peer of a lane. -/
def State.skewOver (s : State) (n : Nat) : Option OpenCmd :=
  s.skewWith 1 fun o => (s.lane n).ent.used && decide ((s.lane n).ent.peer = fld (wordAt o.packet.payload 0) 55 48) && decide (o.data.length < 8)

/-- SERVICE_SKEW: a SKEW word of the peer is received (R45). Where a fabric SKEW_CAL of this device has a block out on the lane, it is the
answer: the exchange gives an offset, and the next block is sent until there are 8. Otherwise the peer asks, and is answered with a
block of this device. `phase` is the CDR phase of the receive lane, `t2` the time at which the peer received this device's block, in
ps: Table 8.5 gives the word no field for it. -/
def execServiceSkew (n : Fin 16) (stamp : BitVec 42) (peerPhase : Fin 1000) (t2 : BitVec 63) (phase : Fin 1000) (s : State) : Res :=
  let l := s.lane n.val
  let c := s.cnt s.now
  if l.st ≠ .up ∨ l.relock then .next s else
  match l.skewAt, s.skewOver n.val with
  | some t1, some o =>
    let d := skewOffset t1 t2.toNat stamp peerPhase.val c phase.val
    let s := s.setData o (o.data ++ [BitVec.ofInt 64 d])
    .next (s.modLane n.val fun l =>
      let l := { l with skewAt := none }
      if o.data.length < 7 then l.askSkew c else l)
  | _, _ => .next (s.modLane n.val (Lane.askSkew c))

/-- TESTREQ: a peer asks for a test (R220): an UP lane that carries no route enters TEST and answers TESTACK; another answers
TESTREFUSE. -/
def execTestreq (n : Fin 16) (ms : BitVec 20) (s : State) : Res :=
  let l := s.lane n.val
  if l.st ≠ .up then .next s
  else if s.carries n.val then
    .next (s.modLane n.val fun l => { l with service := l.service ++ [(put 63 60 7, s.cnt s.now)] })
  else
    .next ((s.testStart n.val ms.toNat).modLane n.val fun l => { l with service := l.service ++ [(put 63 60 6, s.cnt s.now)] })

/-- The duration that a waiting LANE_TEST asks for. -/
def State.askedMs (s : State) (n : Nat) : Nat :=
  match s.host.open_.find? fun o => o.opcode == 0x0804 && fld (wordAt o.packet.payload 0) 63 60 == n with
  | some o => fld (wordAt o.packet.payload 0) 57 38
  | none => 0

/-- TESTACK: the peer is in TEST; this end enters TEST, and LANE_TEST completes (R220). -/
def execTestack (n : Fin 16) (s : State) : Res :=
  if (s.lane n.val).testAsked then .next ((s.testStart n.val (s.askedMs n.val)).testAnswer n.val 0) else .next s

/-- TESTREFUSE: LANE_TEST completes with 0x0403 (R220). -/
def execTestrefuse (n : Fin 16) (s : State) : Res :=
  if (s.lane n.val).testAsked then .next ((s.modLane n.val fun l => { l with tstate := 3 }).testAnswer n.val 0x0403) else .next s

/-! ## Failure and training (R212 to R217) -/

/-- The cause of a failure is present (R212). -/
def Lane.fails (l : Lane) : LaneCause → Bool
  | .signal => true
  | .blocks before run => decide (16 ≤ blockErrors before run)
  | .checks => decide (4 ≤ l.badChecks)
  | .stamps => decide (2 ≤ l.badStamps)

/-- An UP lane fails (R212): DOWN, LANE_DOWN, a record, vector 6; with AUTORETRAIN training starts at once. Where it carries a route
while a shot runs, G4 yields to G3 (Table 15.2). -/
def State.laneLost (n reason : Nat) (s : State) : State :=
  let awaited := s.carries n && s.seqs.seq.toList.any (·.inShot)
  let s := s.laneDown n reason
  let s := (s.setTrouble 3 n).note (laneRec n (BitVec.ofNat 32 reason))
  let s := if awaited then s.yields 3 4 else s
  if (s.lane n).auto ∧ (s.lane n).ent.used then s.laneTrain n else s

/-- LANE_FAILURE. -/
def execLaneFailure (n : Fin 16) (cause : LaneCause) (s : State) : Res :=
  let l := s.lane n.val
  if l.st = .up ∧ l.fails cause then .next (s.laneLost n.val 6) else .next s

/-- LANE_DETECT_DONE: CDR lock. -/
def execLaneDetectDone (n : Fin 16) (s : State) : Res :=
  if (s.lane n.val).st = .detect then .next (s.laneEnter n.val .equalize) else .next s

/-- LANE_EQUALIZE_DONE: the CTLE sweep, or the forced setting, reaches 15 mV (R213, Table 8.6). -/
def execLaneEqualizeDone (n : Fin 16) (peaking : Fin 16) (margin : BitVec 16) (s : State) : Res :=
  let l := s.lane n.val
  if l.st = .equalize ∧ 15 ≤ margin.toNat then
    .next ((s.laneEnter n.val .block).modLane n.val fun l => { l with
      margin := margin.toNat, peakOn := if l.on.ctle then l.on.peaking else peaking.val })
  else .next s

/-- LANE_BLOCK_LOCK: 64 valid sync headers in a row. -/
def execLaneBlockLock (n : Fin 16) (s : State) : Res :=
  if (s.lane n.val).st = .block then
    .next ((s.laneEnter n.val .identify).modLane n.val fun l => { l with
      identOk := false, service := l.service ++ [(orAll [put 63 60 1, put 59 28 s.fabric.cid.toNat, put 27 24 s.fabric.member, put 23 20 n.val], s.cnt s.now)] })
  else .next s

/-- LANE_IDENTIFY_DONE: both ends match; LOCK exchanges 8 pairs. -/
def execLaneIdentifyDone (n : Fin 16) (s : State) : Res :=
  let l := s.lane n.val
  if l.st = .identify ∧ l.identOk then
    .next ((s.laneEnter n.val .lock).modLane n.val fun l => { l with service := l.service ++ markers (s.cnt s.now) })
  else .next s

/-- The hold of R216 is within its range. -/
def holdOk (ll nlat : Nat) : Bool := decide (nlat ≤ ll ∧ ll ≤ nlat + 62)

/-- LANE_LOCK_DONE: after 8 pairs the hold is set and the lane is UP, or LOCK fails with reason 5 (R216). -/
def execLaneLockDone (n : Fin 16) (s : State) : Res :=
  let l := s.lane n.val
  if l.st = .lock ∧ 8 ≤ l.pairs then
    let ll := s.targetLl n.val
    if holdOk ll l.nlat then
      let s := s.laneEnter n.val .up
      let s := s.modLane n.val fun l => { l with
        slot := max l.slot ((s.cnt s.now + 1) / 2)
        ll := ll, offset := none, badChecks := 0, badStamps := 0, frame := [], waking := false, marginAt := s.now, lowMargins := 0 }
      .next (if l.waking then s.armsDone false else s)
    else .next (s.laneFail n.val 5)
  else .next s

/-- LANE_ATTEMPT_TIMEOUT: a state's limit, or 10 ms from DETECT, has passed (R215). -/
def execLaneAttemptTimeout (n : Fin 16) (s : State) : Res :=
  let l := s.lane n.val
  match l.st.limit with
  | none => .next s
  | some (k, reason) => .next ((s.runTo (min (l.since + k) (l.attemptAt + 10000000))).laneFail n.val reason)

/-- LANE_AUTO_RETRAIN: a lane that failed, in service or in training, trains again 1 s later (R212). -/
def execLaneAutoRetrain (n : Fin 16) (s : State) : Res :=
  let l := s.lane n.val
  if l.st = .down ∧ l.auto ∧ l.ent.used ∧ l.reason ≠ 0 ∧ l.reason ≠ 7 then
    .next ((s.runTo (l.since + 1000000000)).laneTrain n.val)
  else .next s

/-- A tap of the DFE after `us` microseconds of adaptation: it has moved by at most 1 mV in each (R214), by how much the signal decides. -/
def tapMoved (us : Nat) (tap : Int) (w : Word) : Int := tap + (((w.toNat % (2 * us + 1) : Nat) : Int) - us)

/-- The taps of an engaged DFE adapt for `us` microseconds (R214). -/
def State.adaptTaps (n us : Nat) (s : State) : State :=
  (List.range 5).foldl (fun s i =>
    let (w, s) := s.drawWord
    s.modLane n fun l => { l with taps := updN l.taps i fun x => tapMoved us x w }) s

/-- LANE_MARGIN_MEASURE: the margin of this millisecond (R213, R214): in fall-back mode the third measurement in a row below
DFE_THRESH engages the DFE; below 10 mV in UP sets LANE_MARGIN. -/
def execLaneMarginMeasure (n : Fin 16) (margin : BitVec 16) (s : State) : Res :=
  let l := s.lane n.val
  if l.st ≠ .up ∧ l.st ≠ .equalize then .next s else
  let s := s.runTo (l.marginAt + 1000000)
  let low := if margin.toNat < l.on.thresh ∧ !l.dfeOn then l.lowMargins + 1 else 0
  let s := if l.dfeOn then s.adaptTaps n.val ((s.now - l.marginAt) / 1000) else s
  let s := s.modLane n.val fun l =>
    let l := if !l.dfeOn && l.on.dfe == 0 && decide (3 ≤ low) then l.setDfe true else l
    { l with margin := margin.toNat, marginAt := s.now, lowMargins := low }
  if l.st = .up ∧ margin.toNat < 10 then .next (s.setTrouble 3 (16 + n.val)) else .next s

/-- LANE_RELOCK: an UP lane that runs LOCK again has exchanged its pairs (R216). -/
def execLaneRelock (n : Fin 16) (s : State) : Res :=
  let l := s.lane n.val
  if l.st = .up ∧ l.relock ∧ 8 ≤ l.pairs then
    if holdOk l.ll l.nlat then .next (s.modLane n.val fun l => { l with
      relock := false, offset := none, badStamps := 0, slot := max l.slot ((s.cnt s.now + 1) / 2) })
    else .next (s.laneLost n.val 5)
  else .next s

/-- LANE_WAKE_END: the stamps of two check blocks agree, and the lane is UP with its hold unchanged (R217). A SEQ_ARM that waits
for it completes. -/
def execLaneWakeEnd (n : Fin 16) (s : State) : Res :=
  let l := s.lane n.val
  if l.st = .idle ∧ l.waking ∧ 2 ≤ l.wakeChecks then
    let s := s.laneEnter n.val .up
    .next ((s.modLane n.val fun l => { l with
      waking := false, badChecks := 0, badStamps := 0, marginAt := s.now, slot := max l.slot ((s.cnt s.now + 1) / 2) }).armsDone false)
  else .next s

/-- PATTERN_LOCK_LOSS: the checker of a lane in TEST loses pattern lock, which is counted, or regains it (R220). -/
def execPatternLockLoss (n : Fin 16) (lost : Bool) (s : State) : Res :=
  if (s.lane n.val).st = .test ∧ lost then .next (s.modLane n.val fun l => { l with tsync := satAdd 32 l.tsync 1 }) else .next s

/-- LANE_TEST_END: the end of DURATION, with the bits compared and the bit errors (R220). -/
def execLaneTestEnd (n : Fin 16) (bits : Word) (errors : BitVec 32) (s : State) : Res :=
  let l := s.lane n.val
  if l.st = .test then
    let s := s.runTo (l.testAt + l.testLen)
    let s := s.modLane n.val fun l => { l with tbits := bits, terrors := errors.toNat }
    .next (s.testOver n.val 2)
  else .next s

end Sys2Proof.Machine
end

