-- ==== Sys2Proof/Machine/ConcCmds.lean ====
section
/-!
DEFINITION. Machine/ConcCmds.lean: CONC_MAP, CONC_WRITE, CONC_COMMIT, verification, landings, copy-back and scrubbing of the
Concordance (R223, R234 to R242).
-/
namespace Sys2Proof.Machine

/-- Entries of a view region. -/
def View.size (v : View) : Nat := 2 ^ v.w

/-- An index lies in the view's region. -/
def View.holds (v : View) (i : Nat) : Bool := v.defined && decide (v.base ≤ i ∧ i < v.base + v.size)

/-- Sequencer `q` is a member of view `v`. -/
def State.inView (s : State) (v q : Nat) : Bool := decide ((s.mem q).active.view.map (·.val) = some v)

/-- The members of a view. -/
def State.members (s : State) (v : Nat) : List Nat := (List.range 256).filter (s.inView v)

/-- Sequencers that are members of the view, or become members at their next ARM, by a sealed set that joins it. A shadow copy makes
no member (R224). -/
def State.joined (s : State) (v : Nat) : List Nat := (List.range 256).filter fun q =>
  s.inView v q || ((s.mem q).sealed_.any fun x => decide (x.view.map (·.val) = some v))

/-- Some member is armed, running or holds a sealed set (Table 9.5). -/
def State.viewLive (s : State) (v : Nat) : Bool := (s.joined v).any fun q =>
  let c := s.sq q
  decide (c.mode = .armed) || decide (c.mode = .running) || decide (c.mode = .debugHalted) || c.sealed_.isSome

/-- A record about a view. -/
def viewRec (v : Nat) (detail : BitVec 32) : LedgerRec := evRec 11 v detail

/-! ## CONC_MAP -/

/-- Field `i` of the gather map of the payload (Table 9.6). -/
def gatherField (p : Packet) (i : Nat) : Nat := fld (wordAt p.payload (1 + i / 3)) (21 * (i % 3) + 20) (21 * (i % 3))

/-- Bits `[hi:lo]` of a number. -/
def nfld (n hi lo : Nat) : Nat := (n >>> lo) % 2 ^ (hi + 1 - lo)

/-- A gather-map entry. -/
def gatherRead (n : Nat) : GatherEnt :=
  { smem := nfld n 20 17, sline := nfld n 16 12, sslot := nfld n 11 8, sel := nfld n 7 6, inv := n.testBit 5, dflt := n.testBit 4 }

/-- The fields of a view record: view, W, BASE, AGE. -/
def viewFields (p : Packet) : Nat × Nat × Nat × Nat :=
  let w := wordAt p.payload 0
  (fld w 61 58, fld w 56 52, fld w 51 31, fld w 30 15)

/-- Word `j` of member record `i`. -/
def mrWord (p : Packet) (i j : Nat) : Word := wordAt p.payload (1 + 9 * i + j)

/-- Checks of a term word (Table 9.6). -/
def termRef (p : Packet) (i : Nat) : Option Refused :=
  let w := wordAt p.payload i
  firstRef [needZero p i (mask 62 62 ||| mask 55 48 ||| mask 30 30 ||| mask 23 16), needOk i (fld w 61 56 ≤ 47 ∧ fld w 29 24 ≤ 47)]

/-- Form of word `i` of the gather map for a view of width `w`: its reserved bits, then its three entries (Table 9.6). -/
def gatherRef (p : Packet) (w i : Nat) : Option Refused :=
  firstRef (needZero p (1 + i) (mask 63 63 ||| mask 3 0 ||| mask 24 21 ||| mask 45 42) ::
    (List.range 3).map fun j =>
      let e := 3 * i + j
      needOk (1 + i) (if e < w then (gatherRead (gatherField p e)).sel ≠ 3 else gatherField p e = 0))

/-- Two regions overlap. -/
def overlap (a n b m : Nat) : Bool := decide (a < b + m ∧ b < a + n)

/-- Checks of a view record (Table 9.5), in payload order: those of W0, then the sources of the gather map. -/
def State.viewRef (s : State) (p : Packet) : Option Refused :=
  let (v, w, base, _) := viewFields p
  let x := s.vw v
  if bitAt (wordAt p.payload 0) 57 then
    firstRef [need (!x.defined || pktOwns p x.owner) 0x0204, need (!s.viewLive v) 0x0402,
      need (s.joined v).isEmpty 0x0402]
  else
    firstRef [need (!x.defined || pktOwns p x.owner) 0x0204,
      need (!((List.range 16).any fun u => u != v && (s.vw u).defined && overlap base (2 ^ w) (s.vw u).base (s.vw u).size)) 0x0304,
      need (!x.defined || (x.w == w && x.base == base) || !s.viewLive v) 0x0402,
      firstRef ((List.range w).map fun i =>
        let g := gatherRead (gatherField p i)
        if g.smem = s.fabric.member then firstRef [need (s.hasCluster (lineCluster g.sline)) 0x0303,
          need (pktOwns p (s.demodOwner (16 * g.sline + g.sslot))) 0x0204] else none)]

/-- The reply of a query (Table 9.7). -/
def State.viewWords (s : State) (v : Nat) : Words :=
  let x := s.vw v
  let m := s.members v
  let st : Nat := match x.st with
    | .steady => 0
    | .verifying => 1
    | .swapping => 2
    | .copying => 3
  [orAll [put 63 62 st, putB 61 x.defined, putB 60 x.bank1, put 59 56 x.owner.val, put 55 51 x.w, put 50 30 x.base,
     put 29 28 x.lastCommit, put 27 19 m.length,
     put 18 10 (if x.st = .swapping then (m.filter fun q => !(s.mem q).landed).length else 0)],
   orAll [put 63 32 x.lookups.toNat, put 31 16 x.conflicts, put 15 0 x.alerts],
   orAll [put 63 32 x.corrected.toNat, put 31 16 x.uncorrectable, put 15 0 x.overruns], put 63 43 x.lastAlert, x.lastLanding]

/-- CONC_MAP (R223, R224, R242, Table 9.6). -/
def concMapCmd : Command where
  opcode := 0x0901
  pf := true
  vf := true
  int := false
  dbg := none
  fmt _ p :=
    let w0 := wordAt p.payload 0
    let m := fld w0 63 62
    let n := fld w0 61 53
    let (_, w, base, _) := viewFields p
    firstRef [need (p.payload ≠ []) 0x0104 2, needOk 0 (m ≤ 2),
      if m = 0 then firstRef [needLen p 8, needZero p 0 (mask 14 0),
        if bitAt w0 57 then firstRef [needOk 0 (fld w0 56 15 = 0), firstRef ((List.range 7).map fun i => needOk (1 + i) (wordAt p.payload (1 + i) == 0))]
        else firstRef [needOk 0 (1 ≤ w ∧ w ≤ 21 ∧ base % 2 ^ w = 0 ∧ base + 2 ^ w ≤ 2 ^ 21),
          firstRef ((List.range 7).map (gatherRef p w))]]
      else if m = 1 then firstRef [needOk 0 (1 ≤ n ∧ n ≤ 256), needLen p (1 + 9 * n), needZero p 0 (mask 52 0),
        firstRef ((List.range n).map fun i => firstRef ([needZero p (1 + 9 * i) (mask 50 0),
          needOk (1 + 9 * i) (bitAt (mrWord p i 0) 55 || fld (mrWord p i 0) 54 51 == 0)] ++
          (List.range 8).map fun j => termRef p (2 + 9 * i + j)))]
      else firstRef [needLen p 1, needZero p 0 (mask 57 0)]]
  maxReply p := if fld (wordAt p.payload 0) 63 62 = 2 then 5 else 0
  chk s p :=
    let w0 := wordAt p.payload 0
    match fld w0 63 62 with
    | 0 => s.viewRef p
    | 1 => firstRef ((List.range (fld w0 61 53)).map fun i =>
        let r := mrWord p i 0
        let q := fld r 63 56
        let x := s.vw (fld r 54 51)
        firstRef [need (s.hasCluster (seqCluster q)) 0x0303 i, need (pktOwns p (s.seqOwner q)) 0x0204 i,
          need (!bitAt r 55 || !x.defined || pktOwns p x.owner) 0x0204 i, need (!bitAt r 55 || x.defined) 0x0403 i])
    | _ =>
      let x := s.vw (fld w0 61 58)
      need (!x.defined || pktOwns p x.owner) 0x0204
  waits s p :=
    let w0 := wordAt p.payload 0
    if fld w0 63 62 = 1 then (List.range (fld w0 61 53)).map fun i => s.setWait (fld (mrWord p i 0) 63 56) else []
  eff s p :=
    let w0 := wordAt p.payload 0
    let (v, w, base, age) := viewFields p
    match fld w0 63 62 with
    | 0 =>
      let st := s.modView v fun x =>
        if bitAt w0 57 then {} else { x with
          defined := true, owner := Fin.ofNat 8 p.partition.toNat, w := w, base := base, age := age
          gather := (List.range w).map fun i => gatherRead (gatherField p i) }
      { st := st, about := viewRec v 0 }
    | 1 =>
      { st := (List.range (fld w0 61 53)).foldl (fun s i =>
          let r := mrWord p i 0
          s.modMember (fld r 63 56) fun m => { m with shadow := { m.shadow with
            view := if bitAt r 55 then some (Fin.ofNat 16 (fld r 54 51)) else none
            terms := Vector.ofFn fun j => mrWord p i (1 + j.val) } }) s
        about := seqRec (fld (mrWord p 0 0) 63 56) }
    | _ => { st := s, changed := false, reply := some (s.viewWords (fld w0 61 58)) }

/-! ## CONC_WRITE -/

/-- Change a bank and its staging image from index `a` on (R234). Words written mend uncorrectable entries. -/
def State.writeBank (bank1 : Bool) (a n : Nat) (f : Sparse Word → Sparse Word) (s : State) : State :=
  let c := s.conc
  let bad := c.bad.filter fun (b, i) => !(b == bank1 && decide (a ≤ i ∧ i < a + n))
  { s with conc := if bank1 then { c with cb1 := f c.cb1, img1 := f c.img1, bad := bad }
                   else { c with cb0 := f c.cb0, img0 := f c.img0, bad := bad } }

/-- The hold of R234. -/
def State.viewWait (s : State) (v : Nat) : Wait := { item := .view v, busy := decide ((s.vw v).st ≠ .steady) }

/-- Checks of a view that a write or a commit names. -/
def State.viewOwned (s : State) (p : Packet) (v : Nat) : Option Refused :=
  let x := s.vw v
  firstRef [need (!x.defined || pktOwns p x.owner) 0x0204, need x.defined 0x0403]

/-- CONC_WRITE (R234, Table 9.8). The entries of a fill are written at once; its completion follows (CONC_FILL_END, R309). -/
def concWriteCmd : Command where
  opcode := 0x0902
  pf := true
  vf := true
  int := false
  dbg := none
  fmt s p :=
    let w := wordAt p.payload 0
    let m := fld w 63 62
    let n := fld w 36 15
    let x := s.vw (fld w 61 58)
    firstRef [need (p.payload ≠ []) 0x0104 2, needOk 0 (m ≤ 1), needOk 0 (1 ≤ n ∧ n ≤ (if m = 0 then 8189 else 2097152)),
      needLen p (if m = 0 then 1 + n else 2), needZero p 0 (mask 14 0),
      needOk 0 (!x.defined || decide (fld w 57 37 + n ≤ x.size)),
      firstRef ((p.payload.drop 1).zipIdx.map fun (e, i) => needOk (1 + i) (fld e 7 0 = 0))]
  maxReply _ := 0
  chk s p := s.viewOwned p (fld (wordAt p.payload 0) 61 58)
  waits s p := [s.viewWait (fld (wordAt p.payload 0) 61 58)]
  eff s p :=
    let w := wordAt p.payload 0
    let v := fld w 61 58
    let n := fld w 36 15
    let x := s.vw v
    let a := x.base + fld w 57 37
    if fld w 63 62 = 0 then
      { st := s.writeBank (!x.bank1) a n fun m => Sparse.setList 0 m a (p.payload.drop 1), about := viewRec v 0 }
    else
      { st := s.writeBank (!x.bank1) a n fun m => Sparse.fill 0 m a (wordAt p.payload 1) n, later := true, bound := n, about := viewRec v 1 }

/-- CONC_FILL_END: a fill has written its entries and completes; its bound is 1 ms and one tick an entry (R309). -/
def execConcFillEnd (s : State) : Res :=
  match s.openOf 0x0902 with
  | none => .next s
  | some o => .next (s.finish o 0 none s.tick o.seq (fld (wordAt o.packet.payload 0) 36 15))

/-! ## CONC_COMMIT -/

/-- CONC_COMMIT (R235, R238, Table 9.8). The end of a commit that a cancel ends is recorded before the cancel's own
change. -/
def concCommitCmd : Command where
  opcode := 0x0903
  pf := true
  vf := true
  int := false
  dbg := none
  fmt _ p :=
    let w := wordAt p.payload 0
    let m := fld w 63 62
    firstRef [needLen p 5, needOk 0 (m ≤ 1), needZero p 0 (mask 56 0),
      if m = 1 then firstRef ((List.range 4).map fun i => needOk (1 + i) (wordAt p.payload (1 + i) == 0)) else none]
  maxReply _ := 0
  chk s p :=
    let w := wordAt p.payload 0
    let v := fld w 61 58
    firstRef [s.viewOwned p v, need (decide ((s.vw v).st = if fld w 63 62 = 0 then ViewState.steady else .verifying)) 0x0403]
  waits _ _ := []
  eff s p :=
    let w := wordAt p.payload 0
    let v := fld w 61 58
    if fld w 63 62 = 0 then
      { st := s.modView v fun x => { x with st := .verifying, since := s.now, copyback := bitAt w 57, digest := num32 p.payload 1 }
        long := true, about := viewRec v 0 }
    else
      { st := (s.modView v fun x => { x with st := .steady, lastCommit := 3 }).commitEnd v 0, about := viewRec v 3 }

/-! ## Events (R235 to R237, R239) -/

/-- The digest message of the shadow view region (R235). -/
def State.viewMessage (s : State) (v : Nat) : List Nat :=
  let x := s.vw v
  wordsBytes (Sparse.slice 0 (if x.bank1 then s.conc.cb0 else s.conc.cb1) x.base x.size)

/-- A member may land (R236): it is at a shot boundary, not in a shot, or in a swap-wait. -/
def Seq.mayLand (c : Seq) : Bool :=
  !c.inShot || (match c.stall with
    | .wait _ _ m _ => bitAt m 51
    | _ => false)

/-- VERIFICATION_END (R235): on a match the view is SWAPPING in the next tick and members not in a shot land; on a mismatch it
returns to STEADY and the commit ends. Both write a record and raise vector 5. -/
def execVerificationEnd (v : Fin 16) (s : State) : Res :=
  let x := s.vw v.val
  if x.st ≠ .verifying then .next s else
  let s := s.runTo (x.since + x.size)
  let ok := decide (sm3 (s.viewMessage v.val) = x.digest)
  let s := (s.note (viewRec v.val (if ok then 1 else 2))).raiseOwned 5 x.owner
  if !ok then .next ((s.modView v.val fun x => { x with st := .steady, lastCommit := 2 }).commitEnd v.val 0x0601)
  else
    let s := s.advance 1
    let s := s.modView v.val fun x => { x with st := .swapping, since := s.now }
    let l := s.members v.val
    let s := l.foldl (fun s q => s.modMember q fun m => { m with landed := false }) s
    let s := (l.filter fun q => (s.sq q).mayLand).foldl (fun s q => s.land q s.now) s
    .next (s.checkLanded v.val s.now)

/-- MEMBER_LANDING: a member of a SWAPPING view at a shot boundary or in a swap-wait changes to the new bank (R236). -/
def execMemberLanding (q : Fin 256) (s : State) : Res :=
  if (s.sq q.val).mayLand then .next (s.land q.val s.now) else .next s

/-- COPYING_END: after 2^W ticks the shadow region equals the active one, in the banks and in the staging images (R237). -/
def execCopyingEnd (v : Fin 16) (s : State) : Res :=
  let x := s.vw v.val
  if x.st ≠ .copying then .next s else
  let s := s.runTo (x.since + x.size)
  let c := s.conc
  let bad := c.bad.filter fun (b, i) => !(b != x.bank1 && x.holds i)
  let s := { s with conc := if x.bank1 then { c with cb0 := Sparse.copy c.cb0 c.cb1 x.base x.size, img0 := Sparse.copy c.img0 c.img1 x.base x.size, bad := bad }
                            else { c with cb1 := Sparse.copy c.cb1 c.cb0 x.base x.size, img1 := Sparse.copy c.img1 c.img0 x.base x.size, bad := bad } }
  .next ((s.modView v.val fun x => { x with st := .steady }).commitEnd v.val 0)

/-- CONCORDANCE_SCRUB: the scrub reads one entry (R239): clean, corrected in place, or uncorrectable. -/
def execConcordanceScrub (bank1 : Bool) (i : Fin 2097152) (err : Fin 3) (s : State) : Res :=
  let v := (List.range 16).find? fun v => (s.vw v).holds i.val
  if err = 0 then .next s
  else if err = 1 then
    match v with
    | some v => .next (s.modView v fun x => { x with corrected := x.corrected + 1 })
    | none => .next s
  else
    let s := match v with
      | some v => s.modView v fun x => { x with uncorrectable := satAdd 16 x.uncorrectable 1 }
      | none => s
    let bads := if s.conc.bad.contains (bank1, i.val) then s.conc.bad else (bank1, i.val) :: s.conc.bad
    let todo := s.units.repairs ++ [Repair.concordance (if bank1 then 1 else 0) i.val]
    let s := { s with conc := { s.conc with bad := bads }, units := { s.units with repairs := todo } }
    let s := (s.setTrouble 2 8).note (viewRec (v.getD 15) (BitVec.ofNat 32 i.val))
    match v with
    | some v => .next (s.raiseOwned 5 (s.vw v).owner)
    | none => .next (s.raise 5)

end Sys2Proof.Machine
end

