-- ==== Sys2Proof/Machine/AcqCmds.lean ====
section
/-!
DEFINITION. Machine/AcqCmds.lean: PATTERN_CONFIG, CAPTURE_CONFIG, CAPTURE_READ, and the events of trigger inputs, pattern units
and captures (R243 to R265).
-/
namespace Sys2Proof.Machine

/-! ## Trigger inputs (R244 to R247) -/

/-- TRIGGER_INPUT_EDGE: the level that the line's drivers outside the device give the ball changes now, and is seen by the filter
`delay` ticks later (Table 10.2). -/
def execTriggerInputEdge (i : Fin 19) (level : Bool) (delay : Fin 5) (s : State) : Res :=
  .next (s.lineEdge i.val (s.now + delay.val) level)

/-- TRIGGER_EVENT. -/
def execTriggerEvent (i : Fin 19) (s : State) : Res := .next (s.trigEvent i.val)

/-- INPUT_STUCK: the filtered level has stayed active for STUCK ticks (R246). -/
def execInputStuck (i : Fin 19) (s : State) : Res :=
  let x := s.inp i.val
  if x.level ∧ x.stuck ≠ 0 ∧ !x.isStuck then
    let s := s.runTo (x.levelAt + x.stuck - 1)
    let s := s.modIn i.val fun x => { x with isStuck := true, stucks := satAdd 8 x.stucks 1 }
    .next (((s.setTrouble 0 12).note (evRec 15 i.val 12)).raise 7)
  else .next s

/-! ## Pattern units (R250, R251) -/

/-- The units that fire in this tick. -/
def State.firing (s : State) : Nat :=
  let v := s.sv s.now
  ((List.range 32).map fun u =>
    let x := atN s.acq.unit u {}
    if x.lastFire = some s.now ∨ (x.matches_ v ∧ !x.prev) then 2 ^ u else 0).sum

/-- Captures that a unit starts begin in its match tick `t` (R253). -/
def State.patternStarts (u t : Nat) (v : Word) (all : Nat) (s : State) : State :=
  ((List.range 512).filter fun k => (s.cap k).active.any fun p => p.start == 1 && p.pt == u).foldl
    (fun s k => (s.startCapture k 1 t v all none).2) s

/-- PATTERN_UNIT_FIRE: the unit matches in this tick and did not match in the one before: its event is registered in the next
tick, and captures started by it start now (R250, R251, R253). -/
def execPatternUnitFire (u : Fin 32) (s : State) : Res :=
  let s := s.svSync
  let t := s.now
  let v := s.sv t
  let x := s.acq.unit[u.val]
  if x.matches_ v ∧ !x.prev ∧ x.lastFire ≠ some t then
    let all := s.firing
    let s := { s with acq := { s.acq with unit := upd s.acq.unit u fun x => { x with lastFire := some t, fires := x.fires + 1 } } }
    .next ((s.patternStarts u.val t v all).event u.val (t + 1))
  else .next s

/-! ## PATTERN_CONFIG -/

/-- A record of PATTERN_CONFIG. -/
inductive PatRec where
  | input (i : Nat) (query : Bool) (actlow both : Bool) (dir filter stuck : Nat)
  | select (i : Nat) (query : Bool) (e : Select)
  | unit (u : Nat) (query : Bool) (en : Bool) (value mask : Word)
deriving DecidableEq, Repr

/-- Word `j` of record `i`. -/
def patWord (p : Packet) (i j : Nat) : Word := wordAt p.payload (1 + 3 * i + j)

/-- The select entry of a record. -/
def patSelect (w : Word) : Select :=
  let b := fld w 60 55
  if b < 32 then { en := bitAt w 54, ml := bitAt w 53, mon := fld w 52 45 }
  else if b < 48 then { en := bitAt w 54, smem := fld w 53 50, sline := fld w 49 45, sslot := fld w 44 41, sel := fld w 40 39, inv := bitAt w 38 }
  else { en := bitAt w 54, seq := fld w 53 46 }

/-- Record `i` of the payload (Table 10.7). -/
def patRead (p : Packet) (i : Nat) : PatRec :=
  let a := patWord p i 0
  match fld a 63 62 with
  | 0 => .input (fld a 60 56) (bitAt a 61) (bitAt a 55) (bitAt a 54) (fld a 53 52) (fld a 51 44) (fld (patWord p i 1) 63 32)
  | 1 => .select (fld a 60 55 - 22) (bitAt a 61) (patSelect a)
  | _ => .unit (fld a 60 56) (bitAt a 61) (bitAt a 55) (patWord p i 1) (patWord p i 2)

/-- Form of record `i` (Table 10.7). -/
def patRef (p : Packet) (i : Nat) : Option Refused :=
  let j := 1 + 3 * i
  let a := patWord p i 0
  let b := fld a 60 55
  match fld a 63 62 with
  | 0 =>
    let n := fld a 60 56
    firstRef [needOk j (n ≤ 18), needZero p j (mask 43 0), needZero p (j + 1) (mask 31 0), needZero p (j + 2) (mask 63 0),
      if bitAt a 61 then firstRef [needOk j (fld a 55 44 = 0), needOk (j + 1) (fld (patWord p i 1) 63 32 = 0)]
      else needOk j (fld a 53 52 ≤ 2 ∧ (11 ≤ n ∨ fld a 53 52 = 0) ∧ 2 ≤ fld a 51 44)]
  | 1 =>
    firstRef [needOk j (22 ≤ b),
      needZero p j (if b < 32 then mask 44 0 else if b < 48 then mask 37 0 else mask 45 0), needZero p (j + 1) (mask 63 0),
      needZero p (j + 2) (mask 63 0),
      if bitAt a 61 then needOk j (fld a 54 0 = 0)
      else needOk j (if b < 32 then !(bitAt a 53) || decide (fld a 52 45 ≤ 31) else if b < 48 then fld a 40 39 != 3 else true)]
  | 2 =>
    firstRef [needZero p j (mask 54 0),
      if bitAt a 61 then firstRef [needOk j (!bitAt a 55), needOk (j + 1) (patWord p i 1 == 0), needOk (j + 2) (patWord p i 2 == 0)]
      else needOk (j + 2) (!bitAt a 55 || patWord p i 2 != 0xFFFFFFFFFFFFFFFF)]
  | _ => needOk j false

/-- The element of an enabled select is of an enabled cluster (R265). -/
def State.selectOk (s : State) (b : Nat) (e : Select) : Bool :=
  !e.en || (if b < 10 then s.hasCluster (if e.ml then lineCluster e.mon else e.mon / 32)
    else if b < 26 then e.smem != s.fabric.member || s.hasCluster (lineCluster e.sline)
    else s.hasCluster (seqCluster e.seq))

/-- The reply word of a record (Table 10.8). -/
def State.patWords (s : State) (r : PatRec) : Word :=
  match r with
  | .input i _ _ _ _ _ _ =>
    let x := s.inp i
    orAll [put 63 32 x.events.toNat, put 31 16 x.excess, put 15 8 x.stucks, put 7 0 x.rejects]
  | .select _ _ _ => 0
  | .unit u _ _ _ _ => put 63 32 (atN s.acq.unit u {}).fires.toNat

/-- One record writes its settings (R252). -/
def State.patApply (s : State) (r : PatRec) : State :=
  match r with
  | .input i q actlow both dir filter stuck =>
    if q then s else s.modIn i fun x => { x with actlow := actlow, both := both, dir := dir, filter := filter, stuck := stuck }
  | .select i q e => if q then s else { s with acq := { s.acq with select := updN s.acq.select i fun _ => e } }
  | .unit u q en value mask =>
    if q then s else { s with acq := { s.acq with unit := updN s.acq.unit u fun x => { x with en := en, value := value, mask := mask } } }

/-- Two states of an input have the same settings. -/
def TrigIn.sameSettings (a b : TrigIn) : Bool :=
  a.actlow == b.actlow && a.both == b.both && a.dir == b.dir && a.filter == b.filter && a.stuck == b.stuck

/-- An input whose settings change in tick `t` takes its synchronized level as its filtered level, and makes no event (R252). An edge
that has not passed the synchronizer goes through the filter as usual. -/
def TrigIn.resettle (t : Nat) (x : TrigIn) : TrigIn :=
  let sync := if x.ballAt ≤ t then x.ball else !x.ball
  let level := sync != x.actlow
  { x with level := level, levelAt := if level = x.level then x.levelAt else t, isStuck := x.isStuck && level }

/-- What the change of settings does beyond the settings (R252): a changed input takes its level, a changed unit its match of this
tick as its previous match. An item is changed where the packet leaves settings other than those in force before it. -/
def State.patSettle (s0 s : State) : State :=
  let s := (List.range 19).foldl (fun s i =>
    if (s.inp i).sameSettings (s0.inp i) then s else s.modIn i (TrigIn.resettle s.now)) s
  let v := s.sv s.now
  (List.range 32).foldl (fun s u =>
    let a := atN s0.acq.unit u {}
    let b := atN s.acq.unit u {}
    if a.en != b.en || a.value != b.value || a.mask != b.mask then
      { s with acq := { s.acq with unit := updN s.acq.unit u fun x => { x with prev := x.matches_ v } } }
    else s) s

/-- PATTERN_CONFIG (R252, R265, Tables 10.7 and 10.8). Changed units take their match in the apply tick as their previous
match. -/
def patternConfigCmd : Command where
  opcode := 0x0A02
  pf := true
  vf := true
  int := true
  dbg := none
  fmt _ p :=
    let n := fld (wordAt p.payload 0) 63 57
    -- The field has 7 bits: a COUNT of 128 cannot be written, and 0 is malformed.
    firstRef [need (p.payload ≠ []) 0x0104 2, needOk 0 (1 ≤ n), needLen p (1 + 3 * n), needZero p 0 (mask 56 0),
      firstRef ((List.range n).map (patRef p))]
  maxReply p := fld (wordAt p.payload 0) 63 57
  chk s p :=
    let pf := s.funcOf p.source == 0 || p.source == .internal
    firstRef ((List.range (fld (wordAt p.payload 0) 63 57)).map fun i =>
      match patRead p i with
      | .input _ _ _ _ _ _ _ => need pf 0x0202 i
      | .select b _ e => firstRef [need pf 0x0202 i, need (s.selectOk b e) 0x0303 i]
      | .unit u _ _ _ _ => need (pktOwns p (atN s.parts.pt u 0)) 0x0204 i)
  waits _ _ := []
  eff s p :=
    let l := (List.range (fld (wordAt p.payload 0) 63 57)).map (patRead p)
    let s0 := s.svSync
    let s := State.patSettle s0 (l.foldl State.patApply s0)
    let writes := l.any fun r => match r with
      | .input _ q _ _ _ _ _ => !q
      | .select _ q _ => !q
      | .unit _ q _ _ _ => !q
    { st := s, changed := writes, reply := some (l.map s.patWords), about := evRec 13 0 }

/-! ## CAPTURE_CONFIG -/

/-- Reduction `i` of the payload (Table 10.9). -/
def capRed (w : Word) : Option Reduction :=
  match fld w 63 60 with
  | 1 => some { kind := 1, a := fld w 59 44, b := fld w 43 30 }
  | 2 => some { kind := 2, a := fld w 59 47, b := 0 }
  | 3 => some { kind := 3, a := fld w 59 51, b := 0 }
  | 4 => some { kind := 4, a := fld w 59 51, b := 0 }
  | 5 => some { kind := 5, a := fld w 59 44, b := 0 }
  | 6 => some { kind := 6, a := fld w 59 47, b := fld w 46 31 }
  | _ => none

/-- Form of a reduction word (Table 10.9): its reserved bits and its ranges. -/
def capRedRef (p : Packet) (i : Nat) : Option Refused :=
  let w := wordAt p.payload i
  let rsv := match fld w 63 60 with
    | 0 => mask 59 0
    | 1 => mask 29 0
    | 2 => mask 46 0
    | 3 => mask 50 0
    | 4 => mask 50 0
    | 5 => mask 43 0
    | 6 => mask 30 0
    | _ => 0
  firstRef [needOk i (fld w 63 60 ≤ 6), needZero p i rsv, match capRed w with
    | none => none
    | some r =>
      match r.kind with
      | 1 => needOk i (1 ≤ r.a ∧ r.a ≤ 32768 ∧ r.b ≤ 8192 ∧ r.b < r.a)
      | 2 => needOk i (1 ≤ r.a ∧ r.a ≤ 4096)
      | 5 => needOk i (1 ≤ r.a)
      | 6 => needOk i (1 ≤ r.a ∧ r.a ≤ 4096 ∧ 1 ≤ r.b)
      | _ => needOk i (1 ≤ r.a ∧ r.a ≤ 256)]

/-- Demodulation slot of the payload. -/
def capSlotOf (p : Packet) : Nat := let w := wordAt p.payload 0; 16 * fld w 61 57 + fld w 56 53

/-- The reductions of the payload. -/
def capReds (p : Packet) : List Reduction := (List.range 4).filterMap fun i => capRed (wordAt p.payload (3 + i))

/-- The plan of the payload. -/
def capPlan (p : Packet) : Plan :=
  let w := wordAt p.payload 0
  { start := fld w 52 51, pt := fld w 50 46, at_ := hi32 (wordAt p.payload 1), minPeriod := fld (wordAt p.payload 1) 31 0
    ring := fld (wordAt p.payload 2) 63 48, reds := capReds p, i0 := lo32 (wordAt p.payload 7), q0 := hi32 (wordAt p.payload 7)
    si := lo32 (wordAt p.payload 8), sq := hi32 (wordAt p.payload 8) }

/-- Form of a set (Tables 10.6 and 10.9). -/
def capSetRef (p : Packet) : Option Refused :=
  let w := wordAt p.payload 0
  let x := capPlan p
  let hist := x.reds.any fun r => r.kind == 5
  firstRef [needLen p 9, needZero p 0 (mask 45 0), needOk 0 (x.start ≤ 2), needOk 0 (x.start = 1 ∨ fld w 50 46 = 0),
    needOk 1 (x.start = 2 ∨ x.at_ = 0), needOk 1 (1 ≤ x.minPeriod), needOk 2 (1 ≤ x.ring), needZero p 2 (mask 47 0),
    firstRef ((List.range 4).map fun i => firstRef [capRedRef p (3 + i), match capRed (wordAt p.payload (3 + i)) with
      | none => none
      | some r => firstRef [needOk (3 + i) (r.kind = 1 ∨ x.start = 0), needOk (3 + i) (r.kind ≠ 1 ∨ r.a ≤ x.minPeriod),
          needOk (3 + i) (!((List.range i).any fun j => (capRed (wordAt p.payload (3 + j))).any fun y => y.kind == r.kind))]]),
    if hist then firstRef [needOk 7 (F32.finite x.i0 && F32.finite x.q0),
      needOk 8 (F32.finite x.si && F32.finite x.sq && fLt 0 x.si && fLt 0 x.sq)]
    else firstRef [needOk 7 (wordAt p.payload 7 == 0), needOk 8 (wordAt p.payload 8 == 0)]]

/-- RB of a reduction, and ACC (Table 10.5). -/
def Reduction.bytes (r : Reduction) : Nat × Nat :=
  match r.kind with
  | 1 => (32 + 16 * r.a, 16 * r.b)
  | 2 => (32 + 8 * r.a, 0)
  | 5 => (16416, 16384)
  | 6 => (32 + 8 * r.a, 8 * r.a)
  | _ => (32 + 8 * r.a, 0)

/-- G of a reduction (Table 10.5). -/
def Reduction.starts (r : Reduction) : Nat := if r.kind = 1 ∨ r.kind = 2 then 1 else r.group

/-- Charge of a plan in MB/s (R261). -/
def Plan.charge (p : Plan) : Nat := (p.reds.map fun r => ceilDiv (1000 * r.bytes.1) (p.minPeriod * r.starts)).sum

/-- Reservation of a plan in bytes (R261). -/
def Plan.reserved (p : Plan) : Nat := (p.reds.map fun r => 2 * r.bytes.1 + r.bytes.2).sum

/-- The newest plan of a slot: shadow, sealed, or in force; a removal that waits is no plan. -/
def CapSlot.newest (c : CapSlot) : Option Plan := c.shadow.join <|> c.sealed_.join <|> c.active

/-- The plan that a plan written now replaces when it applies (R263). -/
def CapSlot.replaced (c : CapSlot) : Option Plan :=
  match c.sealed_ with
  | some p => p
  | none => c.active

/-- Charge of an optional plan. -/
def chargeOf (o : Option Plan) : Nat := (o.map Plan.charge).getD 0
/-- Reservation of an optional plan. -/
def reservedOf (o : Option Plan) : Nat := (o.map Plan.reserved).getD 0

/-- Demand of a slot (R261): the larger of the charge in force and that of the newest plan. -/
def CapSlot.demand (c : CapSlot) : Nat := max (chargeOf c.active) (chargeOf c.newest)

/-- Demand of a partition (R261). -/
def State.acqDemand (s : State) (part : Nat) : Nat :=
  ((s.parts.rslot.toList.zip s.acq.cap.toList).map fun (o, c) => if o.val = part then c.demand else 0).sum

/-- Bytes of a slot in its cluster's buffer: old and new plans until the new one applies (R261). -/
def CapSlot.buffer (c : CapSlot) : Nat :=
  reservedOf c.active + (match c.sealed_ with
    | some p => reservedOf p
    | none => 0) + (match c.shadow with
    | some p => reservedOf p
    | none => 0)

/-- Bytes reserved in a cluster's capture buffer. -/
def State.bufferUsed (s : State) (k : Nat) : Nat := ((List.range 64).map fun i => (s.cap (64 * k + i)).buffer).sum

/-- Some copy of the slot's plan holds a reduction of the kind (R255). -/
def CapSlot.holds (c : CapSlot) (kind : Nat) : Bool :=
  ([c.active] ++ [c.sealed_.getD none] ++ [c.shadow.getD none]).any fun o => o.any fun p => p.reds.any fun r => r.kind == kind

/-- Another slot of the line holds a raw or trace reduction that the plan has too (R255). -/
def State.secondOnLine (s : State) (k : Nat) (p : Plan) : Bool :=
  p.reds.any fun r => (r.kind == 1 || r.kind == 2) && (List.range 16).any fun i =>
    16 * demodLine k + i != k && (s.cap (16 * demodLine k + i)).holds r.kind

/-- The sequencer that binds a slot in its active or sealed set. -/
def State.liveBinder (s : State) (b : Binding) : Option Nat :=
  s.seqs.seq.toList.findIdx? fun c => c.active.toList.contains b || c.sealed_.any fun x => x.binds.toList.contains b

/-- The first granule of the ring of a plan: the ring kept, or the lowest free run of the partition's share; `none` where the
share has no room (R263). -/
def State.ringFor (s : State) (k : Nat) (p : Plan) : Option Nat :=
  match (s.cap k).replaced with
  | some old => if old.ring = p.ring then some old.raddr else room
  | none => room
where
  /-- A free run of the share, without the slot's present shadow plan. -/
  room : Option Nat :=
    let s := s.modCap k fun c => { c with shadow := none }
    let part := (s.demodOwner k).val
    firstFit (s.shareRuns part) (s.shareGranules part) (ringGranules p.ring)

/-- A slot has no plan and no ring (Table 10.6). -/
def CapSlot.bare (c : CapSlot) : Bool := c.active.isNone && c.sealed_.isNone && c.shadow.isNone && c.rings == []

/-- STATE of Table 10.10. -/
def State.capState (s : State) (k : Nat) : Nat :=
  let c := s.cap k
  let pending := c.sealed_.any Option.isSome || c.shadow.any Option.isSome
  if c.active.isNone then (if c.raws != [] then 3 else if pending then 1 else 0)
  else if c.raws != [] || (s.dm k).windows.any (fun w => w.capt && decide (w.start ≤ s.now)) then 3
  else if c.done_ then 5
  else if c.holdUntil.any fun u => decide (s.now < u) then 4
  else 2

/-- The reply of CAPTURE_CONFIG (Table 10.10). -/
def State.capWords (s : State) (k : Nat) : Words :=
  let c := s.cap k
  let part := (s.demodOwner k).val
  [put 63 61 (s.capState k) ||| put 31 0 (chargeOf c.newest), put 63 32 (s.acqDemand part) ||| put 31 0 (atN s.parts.part part {}).acq,
   put 63 32 (reservedOf c.newest) ||| put 31 0 (3145728 - s.bufferUsed (lineCluster (demodLine k))),
   orAll [put 63 32 c.starts.toNat, put 31 16 c.heldOff, put 15 0 c.shortPre], put 63 32 c.lost ||| put 31 0 c.dropped]

/-- CAPTURE_CONFIG (R254, R255, R261, R263, Tables 10.6, 10.9 and 10.10). In modes 1 and 2 every bit of W0 below the slot is checked
to be zero, START and PT too, which Table 10.9 lists for mode 0 only and does not call reserved there (DESIGN CHOICE). -/
def captureConfigCmd : Command where
  opcode := 0x0A01
  pf := true
  vf := true
  int := true
  dbg := none
  fmt _ p :=
    let w := wordAt p.payload 0
    firstRef [need (p.payload ≠ []) 0x0104 2, needOk 0 (fld w 63 62 ≤ 2),
      if fld w 63 62 = 0 then capSetRef p else firstRef [needLen p 1, needZero p 0 (mask 52 0)]]
  maxReply _ := 5
  chk s p :=
    let w := wordAt p.payload 0
    let k := capSlotOf p
    let x := capPlan p
    let part := (s.demodOwner k).val
    firstRef [need (s.hasCluster (lineCluster (demodLine k))) 0x0303, need (pktOwns p (s.demodOwner k)) 0x0204,
      match fld w 63 62 with
      | 0 =>
        let s' := s.modCap k fun c => { c with shadow := some (some x) }
        firstRef [need (x.start ≠ 1 || pktOwns p (atN s.parts.pt x.pt 0)) 0x0204, need (!s.secondOnLine k x) 0x0304,
          need (s'.acqDemand part ≤ (atN s.parts.part part {}).acq) 0x0301,
          need (s'.bufferUsed (lineCluster (demodLine k)) ≤ 3145728) 0x0302, need (s.ringFor k x).isSome 0x0306]
      | 1 => need (!(s.cap k).bare) 0x0403
      | _ => none]
  waits s p :=
    if fld (wordAt p.payload 0) 63 62 = 2 then [] else s.bindWait (demodBinding (demodLine (capSlotOf p)) (demodSlotNo (capSlotOf p)))
  eff s p :=
    let w := wordAt p.payload 0
    let k := capSlotOf p
    let free := (s.liveBinder (demodBinding (demodLine k) (demodSlotNo k))).isNone
    let about := demodRec k 0
    match fld w 63 62 with
    | 0 =>
      let x := { capPlan p with raddr := (s.ringFor k (capPlan p)).getD 0 }
      let passed := x.start = 2 ∧ (s.time.almanac - x.at_).toNat < 2 ^ 31
      let s := if free then (s.applyPlan k s.now (some x)).modCap k fun c => { c with shadow := none }
        else s.modCap k fun c => { c with shadow := some (some x) }
      { st := s, status := if free ∧ passed then 0x0501 else 0, reply := some (s.capWords k), about := about
        tick := if free then some s.tick else none }
    | 1 =>
      let s := if free then (s.applyPlan k s.now none).modCap k fun c => { c with shadow := none }
        else s.modCap k fun c => { c with shadow := some none }
      { st := s, reply := some (s.capWords k), about := about }
    | _ => { st := s, changed := false, reply := some (s.capWords k) }

/-! ## CAPTURE_READ -/

/-- The words of a slot's rings, in order (R263). -/
def CapSlot.stream (c : CapSlot) : Words := c.rings.flatMap fun r => (r.recs.flatten).drop r.read

/-- A ring after `n` words are read from it. -/
def Ring.consume : Nat → Ring → Ring
  | n, r => go n r.recs r
where
  /-- Whole records go; the rest is the read position. -/
  go (n : Nat) : List Record → Ring → Ring
    | [], r => { r with recs := [], read := 0 }
    | x :: l, r => if x.length ≤ n + r.read then go (n + r.read - x.length) l { r with recs := l, read := 0 } else { r with recs := x :: l, read := n + r.read }

/-- Rings after `n` words are read from the oldest on. -/
def consumeAll : Nat → List Ring → List Ring
  | _, [] => []
  | n, r :: l => if n = 0 then r :: l else r.consume n :: consumeAll (n - r.words) l

/-- CAPTURE_READ (R263, Table 10.11). A read takes data; it changes no configuration and writes no record (DEDUCED). -/
def captureReadCmd : Command where
  opcode := 0x0A03
  pf := true
  vf := true
  int := false
  dbg := none
  fmt _ p :=
    let w := wordAt p.payload 0
    let m := fld w 63 62
    let n := fld w 52 39
    firstRef [needLen p 1, needZero p 0 (mask 38 0), needOk 0 (m ≤ 2), needOk 0 (if m = 2 then n = 0 else 1 ≤ n ∧ n ≤ 8188)]
  maxReply p := 2 + fld (wordAt p.payload 0) 52 39
  chk s p :=
    let k := capSlotOf p
    firstRef [need (s.hasCluster (lineCluster (demodLine k))) 0x0303, need (pktOwns p (s.demodOwner k)) 0x0204,
      need (!(s.cap k).bare) 0x0403]
  waits _ _ := []
  eff s p :=
    let w := wordAt p.payload 0
    let k := capSlotOf p
    let m := fld w 63 62
    let c := s.cap k
    if m = 2 then
      { st := s.modCap k fun c => ({ c with rings := c.rings.map fun r => { r with recs := [], read := 0 } } : CapSlot).freeRings (s.lateDue k)
        reply := some [put 63 32 c.lostRead ||| putB 31 c.resync, put 63 32 c.droppedRead], about := demodRec k 0 }
    else
      let d := c.stream.take (fld w 52 39)
      let all := c.stream.length
      let left := if m = 0 then all - d.length else all
      let s := if m = 0 then s.modCap k fun c => ({ c with
          rings := consumeAll d.length c.rings, lostRead := 0, droppedRead := 0, resync := false } : CapSlot).freeRings (s.lateDue k) else s
      { st := s, changed := false
        reply := some ([orAll [put 63 32 c.lostRead, putB 31 c.resync, put 30 17 d.length],
          put 63 32 c.droppedRead ||| put 31 0 (min left (2 ^ 32 - 1))] ++ d) }

/-! ## Events of captures (R256, R257, R260, R262) -/

/-- CAPTURE_HOLDOFF_END. -/
def execCaptureHoldoffEnd (k : Fin 512) (s : State) : Res :=
  match (s.cap k.val).holdUntil with
  | none => .next s
  | some u => .next ((s.runTo u).modCap k.val fun c => { c with holdUntil := none })

/-- A raw sample stands at −2,048 or +2,047 (Table 10.4 OVR). -/
def rawOver (l : Words) : Bool :=
  l.any fun w => (List.range 4).any fun i => let x := fld w (16 * i + 15) (16 * i + 4); x == 0x800 || x == 0x7FF

/-- A word of four raw samples of tick `t` as the line's sample lanes carry it (R151): the codes left-justified, zero in a blank
(R150, R166, R260). -/
def Line.rawWord (l : Line) (t : Nat) (w : Word) : Word := if l.blank t then 0 else w &&& 0xFFF0FFF0FFF0FFF0#64

/-- The data words of a raw record, two a tick (Table 10.5), from what the sample lanes brought. -/
def RawCap.data (r : RawCap) (l : Line) (data : Words) : Words :=
  (List.range (2 * (r.last + 1 - r.first))).map fun j => l.rawWord (r.first + j / 2) (wordAt data j)

/-- Some sample of the record is replaced by zero after a core fault (R166, R260). -/
def RawCap.missing (r : RawCap) (l : Line) : Bool :=
  l.blanks.any fun b => b.fault && decide (b.start ≤ r.last) && b.upTo.all fun e => decide (r.first < e)

/-- The header of a raw record (Table 10.4). -/
def State.rawHeader (s : State) (k : Nat) (r : RawCap) (d : Words) : Header :=
  { kind := 1, start := r.start, pt := r.pt, outOfRange := rawOver d, short := r.short, pre := r.pre
    tick := BitVec.ofNat 64 (s.cnt r.first), context := r.context, aux := r.units
    taint := r.shot.any fun x => s.shotTainted x.1 x.2
    missing := r.missing (s.ln (demodLine k)) }

/-- The raw record of a list that ends first. -/
def firstEnd : List RawCap → Option RawCap
  | [] => none
  | x :: l => match firstEnd l with
    | none => some x
    | some y => if x.last ≤ y.last then some x else some y

/-- The pre-trigger history of a line starts afresh in the tick after a raw record (R257). -/
def State.histFrom (l t : Nat) (s : State) : State :=
  (List.range 16).foldl (fun s r => s.modCap (16 * l + r) fun c => { c with histAt := max c.histAt t }) s

/-- RAW_RECORD_END: the last tick of the slot's earliest raw record passes, with its raw samples, two words a tick; the record is
formed and the pre-trigger history starts afresh in the next tick (R257). A record of a plan that has been replaced enters the ring
of that plan (R254). -/
def execRawRecordEnd (k : Fin 512) (data : Words) (s : State) : Res :=
  let c := s.cap k.val
  let l := demodLine k.val
  match firstEnd c.raws with
  | none => .next s
  | some r =>
    let s := (s.runTo r.last).histFrom l (r.last + 1)
    let d := r.data (s.ln l) data
    let h := s.rawHeader k.val r d
    if c.rawLate.contains r then
      let s := s.modCap k.val fun c => { c with rawLate := c.rawLate.erase r }
      let s := if r.full then s else s.modCap k.val (CapSlot.late k.val h d)
      .next (s.modCap k.val (CapSlot.freeRings (s.lateDue k.val)))
    else .next ((s.modCap k.val fun c => { c with raw := none }).emit k.val r.full h d)

/-- A record with one word that drains as zero: it carries MISSING (R260). -/
def badWord (n : Nat) (r : Record) : Record :=
  let r := if 4 ≤ n then r.set n 0 else r
  r.set 0 (wordAt r 0 ||| put 41 41 1)

/-- RECORD_DRAIN: the oldest completed record of the slot moves to its ring (R262, R263); `bad` is a capture-buffer word found
uncorrectable (R260). -/
def execRecordDrain (k : Fin 512) (bad : Option (BitVec 16)) (s : State) : Res :=
  let c := s.cap k.val
  match c.ready, bad with
  | [], _ => .next s
  | _, none => .next (s.modCap k.val CapSlot.drain)
  | r :: l, some n =>
    .next ((s.modCap k.val fun c => ({ c with ready := badWord n.toNat r :: l } : CapSlot).drain).acqTrouble k.val 8)

end Sys2Proof.Machine
end

