-- ==== Sys2Proof/Machine/BiasCmds.lean ====
section
/-!
DEFINITION. Machine/BiasCmds.lean: BIAS_CONFIG, BIAS_SET, MONITOR_CONFIG, the housekeeping ADCs, and the events of bias channels
and window monitors (R268 to R287).
-/
namespace Sys2Proof.Machine

/-! ## Shared -/

/-- The converter dies that channels need (R19). -/
def State.chanDies (s : State) (l : List Nat) : List Wait :=
  (l.map chanDie).eraseDups.map fun d => s.dieWait (Fin.ofNat 4 d)

/-- The converter dies of channels are lost (R19). -/
def State.chanDead (s : State) (l : List Nat) : Option Refused :=
  s.needDies (l.map chanDie)

/-- The hold of R351: the channel is under measurement. -/
def State.chanWait (s : State) (b : Nat) : Wait := { item := .calElement 4 b, detail := 2, busy := (s.ch b).measured }

/-- A level or queue action ends a supervision episode, and the condition is timed afresh (R277). -/
def Chan.retime (t : Nat) (c : Chan) : Chan := { c with episode := 0, limitAt := c.limitAt.map fun _ => t }

/-! ## BIAS_CONFIG -/

/-- A record of BIAS_CONFIG (Table 11.4). -/
structure BcRec where
  chan : Nat
  action : Nat
  range : Nat
  supv : Nat
  step : Nat
  sper : Nat
  uper : Nat
deriving DecidableEq, Repr

/-- Words A and B of record `i`. -/
def bcWord (p : Packet) (i j : Nat) : Word := wordAt p.payload (1 + 2 * i + j)

/-- Record `i`. -/
def bcRead (p : Packet) (i : Nat) : BcRec :=
  let a := bcWord p i 0
  { chan := fld a 63 56, action := fld a 55 54, range := fld a 53 52, supv := fld a 51 50, step := fld a 47 30, sper := fld a 29 14
    uper := fld (bcWord p i 1) 63 32 }

/-- The records. -/
def bcList (p : Packet) : List BcRec := (List.range (fld (wordAt p.payload 0) 63 55)).map (bcRead p)

/-- The check of a record against the state that the records before it leave (R287, Table 11.3). -/
def State.bcCheck (s : State) (p : Packet) (i : Nat) (r : BcRec) : Option Refused :=
  let c := s.ch r.chan
  firstRef [need (s.hasCluster (r.chan / 32)) 0x0303 i, need (pktOwns p (s.chanOwner r.chan)) 0x0204 i,
    need (r.action ≠ 1 || s.time.everLocked) 0x0401 i,
    need (2 ≤ r.action || c.st == .off || r.range == c.range) 0x0403 i]

/-- The settings of a record (R269, R272): a change of STEP or SPER during a ramp begins a fresh interval. -/
def Chan.configure (t : Nat) (r : BcRec) (c : Chan) : Chan :=
  let changed := r.step != c.step || r.sper != c.sper
  { c with range := if c.st = .off then r.range else c.range, supv := r.supv, step := r.step, sper := r.sper, uper := r.uper
           slewAt := if changed then t else c.slewAt }

/-- The effect of a record in tick `t` (R269 to R271). An enable leaves FROZEN, which R284 clears. -/
def Chan.bcApply (t : Nat) (r : BcRec) (c : Chan) : Chan :=
  match r.action with
  | 0 => c.configure t r
  | 1 =>
    let c := c.configure t r
    match c.st with
    | .off => { c with st := .on, code := zeroCode, target := zeroCode, hold := none, run := .idle, episode := 0 }
    | .shutting => { c with st := .on, target := c.code, hold := none, zeroAt := none }
    | .on => c
  | 2 => c.off t
  | _ => c

/-- A record acts. -/
def State.bcStep (s : State) (r : BcRec) : State :=
  let s := if r.action = 2 then s.dropQueueStart r.chan else if r.action = 1 then s.settleTrims else s
  s.modChan r.chan (Chan.bcApply s.now r)

/-- The first refusal of the records in payload order. -/
def bcCheckAll (p : Packet) : Nat → List BcRec → State → Option Refused
  | _, [], _ => none
  | i, r :: l, s => match s.bcCheck p i r with
    | some e => some e
    | none => bcCheckAll p (i + 1) l (s.bcStep r)

/-- Queue entries not yet played (Table 11.5). -/
def Chan.left (c : Chan) : Nat :=
  match c.run with
  | .idle => 0
  | .waiting _ _ _ => c.codes.length
  | .running _ j => if c.loop then c.codes.length - ((j - 1) % max c.codes.length 1 + 1) else c.codes.length - j

/-- The reply word of a channel (Table 11.5). -/
def Chan.word (c : Chan) : Word :=
  let st : Nat := match c.st with
    | .off => 0
    | .on => 1
    | .shutting => 2
  orAll [put 63 62 st, putB 61 c.frozen, putB 60 (c.run != .idle), put 59 58 c.range, putB 57 (c.episode == 1), putB 56 (c.episode == 2),
    put 55 38 c.code, put 37 20 c.target, put 19 11 c.left, put 10 0 c.events]

/-- BIAS_CONFIG (R269 to R272, R276, R287, Tables 11.4 and 11.5). -/
def biasConfigCmd : Command where
  opcode := 0x0B01
  pf := true
  vf := true
  int := true
  dbg := none
  fmt _ p :=
    let n := fld (wordAt p.payload 0) 63 55
    firstRef [need (p.payload ≠ []) 0x0104 2, needOk 0 (1 ≤ n ∧ n ≤ 256), needLen p (1 + 2 * n), needZero p 0 (mask 54 0),
      firstRef ((List.range n).map fun i =>
        let r := bcRead p i
        let j := 1 + 2 * i
        firstRef [needZero p j (mask 49 48 ||| mask 13 0), needZero p (j + 1) (mask 31 0),
          if r.action = 2 then none
          else if r.action = 3 then firstRef [needOk j (fld (bcWord p i 0) 53 14 = 0), needOk (j + 1) (r.uper = 0)]
          else firstRef [needOk j (r.range ≠ 3 ∧ r.supv ≠ 3 ∧ 1 ≤ r.step ∧ 1 ≤ r.sper), needOk (j + 1) (1000 ≤ r.uper)]])]
  maxReply p := fld (wordAt p.payload 0) 63 55
  chk s p := firstRef [bcCheckAll p 0 (bcList p) s, s.chanDead ((bcList p).map (·.chan))]
  waits s p :=
    let l := bcList p
    s.chanDies (l.map (·.chan)) ++ (l.filterMap fun r => if r.action = 1 then some (s.chanWait r.chan) else none) ++
      if l.any fun r => r.action == 1 then [({ item := .jtag, detail := 2, busy := decide (s.boot.jtag.test ≠ .none) } : Wait)] else []
  eff s p :=
    let l := bcList p
    let s := l.foldl State.bcStep s
    { st := s, changed := l.any fun r => r.action != 3, reply := some (l.map fun r => (s.ch r.chan).word), tick := some s.tick
      about := chanRec ((l.head?.map (·.chan)).getD 0) 0 }

/-! ## The housekeeping ADC (R285) -/

/-- A request joins a die's ADC. -/
def State.hkAsk (d : Nat) (r : HkReq) (s : State) : State :=
  { s with bias := { s.bias with hk := updN s.bias.hk d fun h => { reqs := h.reqs ++ [r], at_ := if h.reqs = [] then s.now else h.at_ } } }

/-- Requests that wait or are served at a die. -/
def State.hkDepth (s : State) (d : Nat) : Nat := (atN s.bias.hk d {}).reqs.length

/-- Some request of a command waits or is served. -/
def State.hkBusy (s : State) (accept : BitVec 32) : Bool := s.bias.hk.toList.any fun h => h.reqs.any fun r => r.accept == accept

/-- HOUSEKEEPING_REQUEST_END: the request in service ends with what the ADC read: of a readback the signed code in [15:0], of a
measure the current in [63:32] and the voltage in [31:0]. The command completes with its last request (R309). -/
def execHousekeepingRequestEnd (die : Fin 4) (value : Word) (s : State) : Res :=
  let h := s.bias.hk[die.val]
  match h.reqs with
  | [] => .next s
  | r :: l =>
    let s := { s with bias := { s.bias with hk := upd s.bias.hk die fun _ => { reqs := l, at_ := s.now } } }
    match s.host.open_.find? fun o => o.accept == r.accept with
    | none => .next s
    | some o =>
      -- Kept words: the completion's tick, the bound, the reply.
      let d := match r.ask with
        | .readback _ => o.data.set (2 + r.idx) (wordAt o.data (2 + r.idx) ||| put 47 32 (fld value 15 0))
        | .measure _ => (o.data.set 0 (BitVec.ofNat 64 (s.cnt h.at_))).set (2 + r.idx) value
      let o' := { o with data := d }
      let s := { s with host := { s.host with open_ := s.host.open_.map fun x => if x = o then o' else x } }
      if s.hkBusy r.accept then .next s
      else .next (s.finish o' 0 (some (d.drop 2)) (wordAt d 0) o.seq (wordAt d 1).toNat)

/-! ## BIAS_SET -/

/-- The code list of a queue payload (Table 11.6). -/
def bsCodes (p : Packet) : List Nat :=
  (List.range (fld (wordAt p.payload 0) 44 36)).map fun i =>
    let w := wordAt p.payload (1 + i / 2)
    if i % 2 = 0 then fld w 17 0 else fld w 49 32

/-- BIAS_SET (R274, R275, R284, R285, R287, Table 11.6). -/
def biasSetCmd : Command where
  opcode := 0x0B02
  pf := true
  vf := true
  int := true
  dbg := none
  fmt _ p :=
    let w := wordAt p.payload 0
    let a := fld w 55 53
    let n := fld w 44 36
    firstRef [need (p.payload ≠ []) 0x0104 2, needOk 0 (a ≤ 3),
      needOk 0 (if a = 1 then fld w 52 51 ≠ 3 ∧ 1 ≤ n ∧ n ≤ 256 else fld w 52 51 = 0 ∧ n = 0),
      needOk 0 (fld w 52 51 = 2 ∨ fld w 50 46 = 0), needOk 0 (fld w 52 51 = 1 ∨ fld w 31 0 = 0),
      needLen p (if a = 0 then 2 else if a = 1 then 1 + ceilDiv n 2 else 1), needZero p 0 (mask 35 32),
      if a = 0 then needZero p 1 (mask 63 18)
      else if a = 1 then firstRef ((List.range (ceilDiv n 2)).map fun i =>
        needZero p (1 + i) (mask 31 18 ||| mask 63 50 ||| (if 2 * i + 1 < n then 0 else mask 49 32)))
      else none]
  maxReply p := if fld (wordAt p.payload 0) 55 53 = 3 then 1 else 0
  chk s p :=
    let w := wordAt p.payload 0
    let b := fld w 63 56
    let a := fld w 55 53
    let c := s.ch b
    let x := s.monOf b
    firstRef [need (s.hasCluster (b / 32)) 0x0303, need (pktOwns p (s.chanOwner b)) 0x0204,
      need (fld w 52 51 ≠ 2 || pktOwns p (atN s.parts.pt (fld w 50 46) 0)) 0x0204,
      if a ≤ 1 then firstRef [need s.time.everLocked 0x0401,
        need (a = 0 || decide (s.power.st = .run) && s.thermal.shutAt.isNone) 0x0404,
        need (c.st == .on) 0x0403, need (!(x.tripped && x.frz)) 0x0405] else none,
      s.needDie (Fin.ofNat 4 (chanDie b))]
  waits s p := s.chanDies [fld (wordAt p.payload 0) 63 56]
  eff s p :=
    let w := wordAt p.payload 0
    let b := fld w 63 56
    let about := chanRec b 0
    let t := s.now
    match fld w 55 53 with
    | 0 =>
      let s := (s.dropQueueStart b).modChan b fun c =>
        ({ c.retime t with frozen := false, run := .idle } : Chan).setTarget t (fld (wordAt p.payload 1) 17 0)
      { st := s, tick := some s.tick, about := about }
    | 1 =>
      let s := (s.dropQueueStart b).modChan b fun c =>
        { c.retime t with frozen := false, run := .idle, codes := bsCodes p, loop := bitAt w 45, quper := c.uper }
      match fld w 52 51 with
      | 0 =>
        let s := s.modChan b (Chan.startQueue t)
        { st := s, tick := some s.tick, about := about }
      | 1 =>
        let s := s.modChan b fun c => { c with run := .waiting 1 0 t }
        let (passed, s) := s.armAlm (.biasQueue b) (lo32 w)
        { st := s, status := if passed then 0x0501 else 0, tick := some s.tick, about := about }
      | _ =>
        let s := s.modChan b fun c => { c with run := .waiting 2 (fld w 50 46) t }
        { st := s, tick := some s.tick, about := about }
    | 2 =>
      let s := (s.dropQueueStart b).modChan b fun c => { c with run := .idle }
      { st := s, tick := some s.tick, about := about }
    | _ =>
      let k := 20000 * (s.hkDepth (chanDie b) + 1)
      { st := s.hkAsk (chanDie b) { ask := .measure b, accept := s.host.accept, idx := 0 }, changed := false, later := true
        data := [s.tick, BitVec.ofNat 64 k, 0] }

/-! ## MONITOR_CONFIG -/

/-- A record of MONITOR_CONFIG (Table 11.7); `mon` counts MB0 to MB255, then ML0 to ML31. -/
structure McRec where
  mon : Nat
  action : Nat
  en : Bool
  frz : Bool
  code : Nat
  hys : Nat
  blank : Nat
  dmap : BitVec 16
  pmap : BitVec 8
deriving DecidableEq, Repr

/-- Words A and B of record `i`. -/
def mcWord (p : Packet) (i j : Nat) : Word := wordAt p.payload (1 + 2 * i + j)

/-- Record `i`. -/
def mcRead (p : Packet) (i : Nat) : McRec :=
  let a := mcWord p i 0
  let b := mcWord p i 1
  { mon := if bitAt a 63 then 256 + fld a 62 55 else fld a 62 55, action := fld a 54 53, en := bitAt a 52, frz := bitAt a 51
    code := fld a 50 41, hys := fld a 40 35, blank := fld a 34 19, dmap := BitVec.ofNat 16 (fld b 63 48), pmap := BitVec.ofNat 8 (fld b 47 40) }

/-- The records. -/
def mcList (p : Packet) : List McRec := (List.range (fld (wordAt p.payload 0) 63 55)).map (mcRead p)

/-- The origin may map every output of a trip map (R287). -/
def State.mapOk (s : State) (p : Packet) (r : McRec) : Bool :=
  s.funcOf p.source == 0 || p.source == .internal || (mapOuts (monDie r.mon) r.dmap r.pmap).all fun o => s.ownsOut p o

/-- The check of a record (R287). -/
def State.mcCheck (s : State) (p : Packet) (i : Nat) (r : McRec) : Option Refused :=
  let mb := decide (r.mon < 256)
  firstRef [need (s.hasCluster (if mb then r.mon / 32 else lineCluster (r.mon - 256))) 0x0303 i,
    need (p.source == .internal || (match s.monOwner r.mon with
      | some o => pktOwns p o
      | none => false)) 0x0204 i,
    need (r.action ≠ 0 || s.mapOk p r) 0x0204 i]

/-- A configure record acts in this tick (R282, R283): an enable starts tripped (a trip as Table 11.2 gives it), a disable withdraws
the trip, a change of a tripped monitor restarts its blanking, and a change of another trips it where |x| is then at or above the
new release level. Where the rules do not give |x|, MONITOR_TRIP brings it in the same tick. -/
def State.mcStep (s : State) (r : McRec) : State :=
  if r.action ≠ 0 then s else
  let x := s.monOf r.mon
  let y := { x with en := r.en, frz := r.frz, code := r.code, hys := r.hys, blank := r.blank, dmap := r.dmap, pmap := r.pmap }
  if x = y then s
  else if !x.en ∧ r.en then (s.svSync.modMon r.mon fun _ => y).trip r.mon s.now
  else if x.en ∧ !r.en then (s.modMon r.mon fun _ => y).untrip r.mon
  else
    let s := s.modMon r.mon fun _ => { y with blankAt := s.now, changedAt := some s.now }
    if x.en && !x.tripped && (s.monInput r.mon).any (fun v => decide (s.releaseLevel r.mon ≤ v)) then s.trip r.mon s.now else s

/-- The reply word of a monitor (Table 11.8). -/
def Monitor.word (x : Monitor) : Word :=
  orAll [putB 63 x.tripped, putB 62 x.en, put 61 48 x.trips, put 31 0 x.lastTrip.toNat]

/-- The readback requests of a packet, with their places in the reply. -/
def mcAsks (p : Packet) : List (McRec × Nat) := (mcList p).zipIdx.filter fun (r, _) => r.action == 2

/-- MONITOR_CONFIG (R280 to R283, R285, R287, Tables 11.7 and 11.8). -/
def monitorConfigCmd : Command where
  opcode := 0x0B03
  pf := true
  vf := true
  int := true
  dbg := none
  fmt _ p :=
    let n := fld (wordAt p.payload 0) 63 55
    firstRef [need (p.payload ≠ []) 0x0104 2, needOk 0 (1 ≤ n ∧ n ≤ 288), needLen p (1 + 2 * n), needZero p 0 (mask 54 0),
      firstRef ((List.range n).map fun i =>
        let r := mcRead p i
        let j := 1 + 2 * i
        firstRef [needOk j (r.mon < 288), needZero p j (mask 18 0), needZero p (j + 1) (mask 39 0), needOk j (r.action ≠ 3),
          if r.action = 0 then needOk j (!(r.frz && decide (256 ≤ r.mon)) && decide (1 ≤ r.blank))
          else firstRef [needOk j (fld (mcWord p i 0) 52 19 = 0), needOk (j + 1) (fld (mcWord p i 1) 63 40 = 0)]])]
  maxReply p := fld (wordAt p.payload 0) 63 55
  chk s p := firstRef ((mcList p).zipIdx.map (fun (r, i) => s.mcCheck p i r) ++
    [s.needDies ((mcList p).map fun r => monDie r.mon)])
  waits s p := ((mcList p).map fun r => monDie r.mon).eraseDups.map fun d => s.dieWait (Fin.ofNat 4 d)
  eff s p :=
    let l := mcList p
    let a := s.host.accept
    let s := l.foldl State.mcStep s
    let words := l.map fun r => (s.monOf r.mon).word
    let changed := l.any fun r => r.action == 0
    let about := monRec ((l.head?.map (·.mon)).getD 0) 0
    if mcAsks p = [] then { st := s, changed := changed, reply := some words, tick := some s.tick, about := about }
    else
      let s' := (mcAsks p).foldl (fun s (r, i) => s.hkAsk (monDie r.mon) { ask := .readback r.mon, accept := a, idx := i }) s
      let k := 20000 * ((List.range 4).map s'.hkDepth).foldl max 0
      { st := s', changed := changed, later := true, data := [s.tick, BitVec.ofNat 64 k] ++ words, about := about }

/-! ## Events of channels (R270 to R275, R277) -/

/-- The code moves toward the target by at most STEP (R272). -/
def slewTo (code target step : Nat) : Nat :=
  if code < target then min target (code + step) else max target (code - step)

/-- BIAS_SLEW_STEP: the end of a slew interval (R272). -/
def execBiasSlewStep (b : Fin 256) (s : State) : Res :=
  let c := s.ch b.val
  if c.st = .off ∨ c.frozen ∨ (biasRange c.range).shaper = .deglitch ∨ c.code = c.target then .next s else
  let t := c.slewAt + 1000 * c.sper
  .next ((s.runTo t).modChan b.val fun c => { c with code := slewTo c.code c.target c.step, slewAt := t })

/-- DEGLITCH_HOLD_END: the hold ends and the output steps to the target (R273). -/
def execDeglitchHoldEnd (b : Fin 256) (s : State) : Res :=
  match (s.ch b.val).hold with
  | none => .next s
  | some (e, v) => .next ((s.runTo e).modChan b.val fun c => { c with code := v, hold := none })

/-- BIAS_QUEUE_START: a queue that waits for a pattern unit starts in the tick in which the unit's event is registered (R275). An
Almanac start fires with its event (R55). -/
def execBiasQueueStart (b : Fin 256) (s : State) : Res :=
  match (s.ch b.val).run with
  | .waiting 2 pt since =>
    match atN s.seqs.events pt none with
    | some t => if since ≤ t then .next ((s.runTo t).modChan b.val (Chan.startQueue t)) else .next s
    | none => .next s
  | _ => .next s

/-- BIAS_QUEUE_UPDATE: entry j becomes the target in tick s + j × UPER (R274). -/
def execBiasQueueUpdate (b : Fin 256) (s : State) : Res :=
  let c := s.ch b.val
  match c.run with
  | .running since j =>
    let n := c.codes.length
    let t := since + j * c.quper
    .next ((s.runTo t).modChan b.val fun c =>
      { c.setTarget t (c.codes.getD (j % max n 1) 0) with run := if !c.loop ∧ n ≤ j + 1 then .idle else .running since (j + 1) })
  | _ => .next s

/-- BIAS_REACH_ZERO: the output of a SHUTTING channel is at zero; outside the ±10 mA range the channel becomes OFF (R268,
R270). -/
def execBiasReachZero (b : Fin 256) (s : State) : Res :=
  let c := s.ch b.val
  if c.st = .shutting ∧ c.code = zeroCode ∧ c.hold = none ∧ c.zeroAt = none then
    if (biasRange c.range).shaper = .deglitch then .next (s.modChan b.val fun c => { c with zeroAt := some s.now })
    else .next (s.modChan b.val fun c => { c with st := .off, target := zeroCode, episode := 0, limitAt := none })
  else .next s

/-- BIAS_SWITCH_OPEN: 1 µs after zero the switch of a ±10 mA channel opens (R270). -/
def execBiasSwitchOpen (b : Fin 256) (s : State) : Res :=
  match (s.ch b.val).zeroAt with
  | none => .next s
  | some t => .next ((s.runTo (t + 1000)).modChan b.val fun c =>
      { c with st := .off, target := zeroCode, zeroAt := none, episode := 0, limitAt := none })

/-- STAGE_LIMIT_CHANGE: the output stage reaches or leaves its limit (R277). -/
def execStageLimitChange (b : Fin 256) (limited : Bool) (s : State) : Res :=
  let c := s.ch b.val
  if limited then
    if c.st = .off ∨ c.limitAt.isSome then .next s else .next (s.modChan b.val fun c => { c with limitAt := some s.now })
  else .next (s.modChan b.val fun c => { c with limitAt := none, episode := 0 })

/-- Less than 3 % of full scale flows in a current range (R277); the current in nA. -/
def BiasRange.openLoad (r : BiasRange) (current : Nat) : Bool := r.quantity == .current && decide (100 * current < 3 * r.fs)

/-- SUPERVISION_EVENT: the stage has stood at its limit for 2 µs and no episode runs (R277); `current` is the magnitude of the measured
current in nA. SUPV = 2 acts as BIAS_CONFIG off, SUPV = 1 freezes. -/
def execSupervisionEvent (b : Fin 256) (current : BitVec 32) (s : State) : Res :=
  let c := s.ch b.val
  match c.limitAt with
  | none => .next s
  | some t =>
    if c.episode ≠ 0 ∨ c.st = .off then .next s else
    let s := s.runTo (t + 2000)
    let open_ := (biasRange c.range).openLoad current.toNat
    let s := s.modChan b.val fun c => { c with episode := if open_ then 2 else 1, events := satAdd 11 c.events 1 }
    let s := match c.supv with
      | 1 => s.freezeChan b.val
      | 2 => (s.dropQueueStart b.val).modChan b.val (Chan.off s.now)
      | _ => s
    let s := s.troubleOwned (dieWord (chanDie b.val)) (if open_ then 5 else 4) (s.chanOwner b.val)
    .next ((s.note (chanRec b.val (if open_ then 2 else 1))).raiseOwned 9 (s.chanOwner b.val))

/-! ## Events of monitors (R279 to R284) -/

/-- The level that trips a monitor now: TH, or in the apply tick of a change the new release level (R278, R283). -/
def State.tripsAt (s : State) (m : Nat) : Nat := if (s.monOf m).changedAt = some s.now then s.releaseLevel m else s.tripLevel m

/-- |x| at the comparator: of an OFF channel zero, else as it stands there, in the unit of the threshold (R278). -/
def State.atComparator (s : State) (m : Nat) (x : BitVec 32) : Nat := if m < 256 ∧ (s.ch m).st = .off then 0 else x.toNat

/-- MONITOR_TRIP: |x| stands at or above the trip level of an enabled monitor that is not tripped (R278, R279). `x` is |x| in nA or µV
of an MB monitor, in units of 0.5 µV of an ML monitor. -/
def execMonitorTrip (m : Fin 288) (x : BitVec 32) (s : State) : Res :=
  let y := s.monOf m.val
  if !y.en ∨ y.tripped ∨ !s.hasCluster (monCluster m.val) ∨ s.atComparator m.val x < s.tripsAt m.val then .next s
  else .next (s.trip m.val s.now)

/-- MONITOR_RELEASE: |x| was at or above the release level for the last time `above` ticks after the blanking interval began, and a
full interval below it completes (R281). |x| is never below a release level of zero. -/
def execMonitorRelease (m : Fin 288) (above : BitVec 32) (s : State) : Res :=
  let x := s.monOf m.val
  if !x.tripped ∨ s.releaseLevel m.val = 0 ∨ !s.hasCluster (monCluster m.val) then .next s
  else .next ((s.runTo (x.blankAt + above.toNat + 1000 * x.blank)).untrip m.val)

end Sys2Proof.Machine
end

