-- ==== Sys2Proof/Machine/ThermOps.lean ====
section
/-!
DEFINITION. Machine/ThermOps.lean: the temperature sensors: their grids and neighbors (R414), substitutes (R415), the hottest
reading, and the temperature of a die (R345).
-/
namespace Sys2Proof.Machine

/-- A sensor. -/
def State.sensor (s : State) (i : Nat) : Sensor := atN s.thermal.sensor i {}
/-- Change a sensor. -/
def State.modSensor (i : Nat) (f : Sensor → Sensor) (s : State) : State :=
  { s with thermal := { s.thermal with sensor := updN s.thermal.sensor i f } }

/-- Die of a sensor: 0 to 3 a converter die, 4 the hub (R414). -/
def sensorDie (i : Nat) : Nat := if i < 48 then i / 12 else 4
/-- Sensors of a die. -/
def dieSensors (d : Nat) : List Nat := if d < 4 then (List.range 12).map (12 * d + ·) else (List.range 24).map (48 + ·)
/-- The sensor takes part in supervision (R414). -/
def State.supervised (s : State) (i : Nat) : Bool := 48 ≤ i || s.hasDie (i / 12)

/-- Neighbors of a sensor in its grid of 3 rows by 4 or 4 rows by 6 columns (R414). -/
def neighbors (i : Nat) : List Nat :=
  let (base, rows, cols) := if i < 48 then (12 * (i / 12), 3, 4) else (48, 4, 6)
  let r := (i - base) / cols
  let c := (i - base) % cols
  (if 0 < r then [i - cols] else []) ++ (if r + 1 < rows then [i + cols] else []) ++ (if 0 < c then [i - 1] else [])
    ++ (if c + 1 < cols then [i + 1] else [])

/-- A valid sensor. -/
def State.validSensor (s : State) (i : Nat) : Bool := s.supervised i && (s.sensor i).failedAt.isNone

/-- Valid for the cross-check of this tick: sensors that fail in one tick are judged together. -/
def State.checkable (s : State) (i : Nat) : Bool :=
  s.supervised i && (match (s.sensor i).failedAt with
    | none => true
    | some t => decide (t = s.now))

/-- The largest of some values. -/
def maxOf : List Int → Option Int
  | [] => none
  | x :: l => some (l.foldl max x)

/-- The substitute for a failed sensor (R415): the highest valid neighbor, else the hottest valid sensor of the die, plus 5 °C.
Where the die has none the manual states no value. -/
def State.substitute (s : State) (i : Nat) : Int :=
  let read (l : List Nat) : List Int := (l.filter s.validSensor).map fun j => (s.sensor j).reading
  match maxOf (read (neighbors i)) with
  | some v => v + 80
  | none =>
    match maxOf (read (dieSensors (sensorDie i))) with
    | some v => v + 80
    | none => sfld (Config.freeWord s.free) 15 0

/-- The highest reading of some sensors that take part, with the first sensor that has it. -/
def State.hottestOf (s : State) (l : List Nat) : Option (Nat × Int) :=
  l.foldl (fun (m : Option (Nat × Int)) i =>
    let v := (s.sensor i).reading
    if !s.supervised i then m else match m with
      | none => some (i, v)
      | some (j, w) => if w < v then some (i, v) else some (j, w)) none

/-- The hottest reading and its sensor. The hub's sensors always take part. -/
def State.hottest (s : State) : Nat × Int := (s.hottestOf (List.range 72)).getD (48, 0)

/-- The temperature of a converter die: the mean of its sensors (R345). -/
def State.dieTemp (s : State) (d : Nat) : Frac := ⟨((dieSensors d).map fun i => (s.sensor i).reading).foldl (· + ·) 0, 12⟩

end Sys2Proof.Machine
end

