-- ==== Sys2Proof/Machine/CalCmds.lean ====
section
/-!
DEFINITION. Machine/CalCmds.lean: chapter 14: trim words and their targets (R343 to R345), how they come into force (R346 to
R348), CAL_RUN, TRIM_LOAD and TRIM_READ (R349 to R358), and the events of calibration.
-/
namespace Sys2Proof.Machine

/-! ## Trim words in force (R345 to R348) -/

/-- Put a value in force. -/
def State.setInForce (d c i r : Nat) (w : Word) (s : State) : State :=
  let v : Option Word := if w = s.target d c i r then none else some w
  { s with cal := { s.cal with inForce := Sparse.set none s.cal.inForce (trimAddr d c i r 5) v } }

/-- Elements of a die with their ranges. -/
def trimElems : List (Nat × Nat × Nat) :=
  (List.range 6).flatMap fun c => (List.range (classSize c)).flatMap fun i =>
    (List.range (if c = 4 then 3 else 1)).map fun r => (c, i, r)

/-- Change the calibration side of a die. -/
def Cal.onDie (d : Nat) (f : CalDie → CalDie) (c : Cal) : Cal := { c with die := updN c.die d f }

/-- The trim words of some points of the active set. -/
def Cal.points (l : List (Nat × Option Word)) (c : Cal) : Cal := { c with active := l.foldl (fun m x => Sparse.set none m x.1 x.2) c.active }

/-- A change of targets of a die: what is in force stays, but where it follows at once (R345 to R348). -/
def State.retarget (d : Nat) (f : Cal → Cal) (s : State) : State :=
  let keep := trimElems.filter fun (c, i, _) => !s.trimFree d c i
  let old := keep.map fun (c, i, r) => (c, i, r, s.inForceOf d c i r)
  (old.foldl (fun (s : State) x => s.setInForce d x.1 x.2.1 x.2.2.1 x.2.2.2) { s with cal := f s.cal }).trimCheck d

/-! ## Steps (R346 to R348) -/

/-- One step of a field toward its target (R346), of which one unit is the least. -/
def stepField (limit force target : Int) : Int :=
  let r := target - force
  let m : Int := min (min r.natAbs (max 1 (r.natAbs / 16))) limit
  if r < 0 then force - m else force + m

/-- One step of a word. -/
def stepWord (c : Nat) (force target : Word) : Word :=
  trimPut c (((trimLimits c).zip ((trimGet c force).zip (trimGet c target))).map fun (l, a, b) => stepField l a b)

/-- An element takes one step; the next comes no earlier than `gap` ticks later. -/
def State.stepElem (d c i gap : Nat) (s : State) : State :=
  let s := (List.range (if c = 4 then 3 else 1)).foldl (fun s r =>
    s.setInForce d c i r (stepWord c (s.inForceOf d c i r) (s.target d c i r))) s
  ({ s with cal := { s.cal with stepAt := Sparse.set 0 s.cal.stepAt (trimAddr d c i 0 5) (s.now + gap) } }).trimCheck d

/-- A remainder of the element is not zero. -/
def State.remains (s : State) (d c i : Nat) : Bool :=
  (List.range (if c = 4 then 3 else 1)).any fun r => s.inForceOf d c i r != s.target d c i r

/-- The earliest tick of an element's next step. -/
def State.nextStep (s : State) (d c i : Nat) : Nat := Sparse.get 0 s.cal.stepAt (trimAddr d c i 0 5)

/-- The slots whose sequencers an RF element waits for (R347). -/
def trimSlots (d c i : Nat) : List Binding :=
  if c ≤ 1 then slotsOfOut (calOut d c i) else (List.range 16).map (demodBinding (8 * d + i))

/-- Every sequencer that binds a slot of the element in its active or sealed set is at a boundary now: not in a shot, or in
the boundary tick of one (R25, R347). -/
def State.atBoundary (s : State) (l : List Binding) : Bool :=
  s.seqs.seq.toList.all fun c =>
    !(c.inShot && l.any fun b => c.active.toList.contains b || c.sealed_.any fun x => x.binds.toList.contains b) ||
      c.ended.any fun e => c.cues.isEmpty && decide (s.dev (c.boundary e) = s.now)

/-- TRIM_TARGET_UPDATE: every 1 ms the targets follow the temperature of each die (R345). -/
def execTrimTargetUpdate (s : State) : Res :=
  let s := s.runTo (s.cal.updatedAt + 1000000)
  let s := { s with cal := { s.cal with updatedAt := s.now } }
  .next ((List.range 4).foldl (fun s d =>
    if s.hasDie d then s.retarget d (Cal.onDie d fun c => { c with temp := s.dieTemp d }) else s) s)

/-- TRIM_STEP: an RF element takes one step in an eligible tick (R347). -/
def execTrimStep (die : Fin 4) (cls : Fin 4) (i : Fin 24) (s : State) : Res :=
  if i.val < classSize cls.val ∧ s.hasDie die.val ∧ !s.trimFree die.val cls.val i.val ∧ s.remains die.val cls.val i.val ∧
      s.nextStep die.val cls.val i.val ≤ s.now ∧ s.atBoundary (trimSlots die.val cls.val i.val) ∧
      !s.swappedOut die.val cls.val i.val then
    let s := if cls.val ≤ 1 then s.hearCluster s.now (calCluster die.val cls.val i.val) else s
    .next (s.stepElem die.val cls.val i.val 16000)
  else .next s

/-- BIAS_TRIM_STEP: an ON or SHUTTING channel that is not FROZEN takes one step every 1 ms (R348). -/
def execBiasTrimStep (b : Fin 256) (s : State) : Res :=
  let d := b.val / 64
  let i := b.val % 64
  if (s.ch b.val).st = .off ∨ (s.ch b.val).frozen ∨ !s.remains d 4 i then .next s
  else .next ((s.runTo (s.nextStep d 4 i)).stepElem d 4 i 1000000)

/-! ## Limits of results (R353) -/

/-- The absolute limits of R353. -/
def trimAbsolute (c : Nat) (w : Word) : Bool :=
  match trimGet c w with
  | [g, _, d, e, o] => decide (g.natAbs ≤ 1500 ∧ d ≤ 8000 ∧ e.natAbs ≤ 127 ∧ o.natAbs ≤ 512)
  | [g, o] => decide (g.natAbs ≤ 50000 ∧ o.natAbs ≤ 131072)
  | _ => true

/-- The result differs from the present target by no more than R353 allows. -/
def trimNear (c : Nat) (l : List Int) : Bool :=
  match l with
  | [g, p, d, _, _] => decide (g.natAbs ≤ 500 ∧ p.natAbs ≤ 1000 ∧ d.natAbs ≤ 200)
  | g :: _ => c != 4 || decide (g.natAbs ≤ 5000)
  | [] => true

/-- The point nearest to T (R352). -/
def nearestPoint (t : Frac) : Nat := (((t.num * 2 - 1280 * t.den) / t.den + 240) / 480).toNat

/-- The point nearest to T lies within 5 °C of it (R352). -/
def pointNear (t : Frac) : Bool :=
  let e := t.num - (640 + 240 * nearestPoint t) * t.den
  decide (e.natAbs ≤ 80 * t.den)

/-! ## CAL_RUN (Tables 14.5 and 14.6) -/

/-- The elements that a run names, in order: class, index, range. -/
def calElems (w0 w1 : Word) : List (Nat × Nat × Nat) :=
  let cls := fld w0 60 58
  let rng := fld w0 53 51
  trimElems.filter fun (c, i, r) => cls == 6 || (c == cls && bitAt w1 i && (c != 4 || rng.testBit r))

/-- Bits of MASK that no element of the class has. -/
def calMaskBad (cls : Nat) (w1 : Word) : Bool := cls < 6 && decide (2 ^ classSize cls ≤ w1.toNat)

/-- A virtual function's partition owns the element (R358). -/
def State.calOwns (s : State) (p : Packet) (d c i : Nat) : Bool :=
  if c ≤ 1 then (s.outOwners (calOut d c i)).all fun x => pktOwns p x
  else if c ≤ 3 then s.ownsLine p (8 * d + i)
  else c == 4 && pktOwns p (s.chanOwner (64 * d + i))

/-- Mean of a sum. -/
def meanOf (v : Int) (n : Nat) : Int := if n = 0 then 0 else (⟨v, n⟩ : Frac).round

/-- The query reply (Table 14.6). -/
def CalDie.words (c : CalDie) : Words :=
  [orAll [put 63 62 c.state, put 61 53 c.done_, put 52 44 c.skipped, put 43 35 c.rejected, put 34 26 c.abandoned, putB 25 (!c.cand.isEmpty)],
   orAll [putS 63 48 (meanOf c.gain c.rf), putS 47 32 (meanOf c.phase c.rf), putS 31 16 (meanOf c.delay c.rf),
     putS 15 0 (meanOf c.bias (10 * c.biasN))],
   c.rejectMask]

/-- The candidate moves into the active set (R355). -/
def State.acceptCand (d : Nat) (s : State) : State :=
  let cand := (s.calOf d).cand.filter fun e => decide (e.1 % 8 < 5)
  s.retarget d fun c => (c.points cand).onDie d fun c => { c with cand := [], applying := true }

/-- CAL_RUN (R349 to R358). -/
def calRunCmd : Command where
  opcode := 0x0C01
  pf := true
  vf := true
  int := false
  dbg := none
  fmt _ p :=
    let w := wordAt p.payload 0
    let w2 := wordAt p.payload 2
    let run := fld w 63 61 == 0
    let cls := fld w 60 58
    let lvl := sfld w2 31 16
    firstRef [need (p.payload ≠ []) 0x0104 2, needOk 0 (fld w 63 61 ≤ 4), needLen p (if run then 3 else 1), needZero p 0 (mask 50 0),
      if run then firstRef [needOk 0 (cls ≠ 7), needOk 0 (cls == 4 || fld w 53 51 == 0), needOk 1 (!calMaskBad cls (wordAt p.payload 1)),
        needZero p 2 (mask 15 0),
        needOk 2 (cls == 4 || cls == 5 || (decide (50000 ≤ fld w2 63 32 ∧ fld w2 63 32 ≤ 800000) && decide (-3000 ≤ lvl ∧ lvl ≤ 1000)))]
      else none]
  maxReply p := if fld (wordAt p.payload 0) 63 61 = 1 then 3 else 0
  chk s p :=
    let w := wordAt p.payload 0
    let d := fld w 57 56
    let act := fld w 63 61
    let cls := fld w 60 58
    let fn := s.funcOf p.source
    firstRef [need (s.hasDie d) 0x0303,
      if act = 0 then firstRef [
        need (fn == 0 || 9 ≤ fn || (cls ≤ 4 && (calElems w (wordAt p.payload 1)).all fun (c, i, _) => s.calOwns p d c i)) 0x0204,
        need (s.calOf d).run.isNone 0x0403,
        need (decide (s.power.st = .run) && s.thermal.shutAt.isNone) 0x0404, s.needDie (Fin.ofNat 4 d)]
      else if act = 2 then need (s.calOf d).run.isSome 0x0403
      else if act = 3 then firstRef [need (!(s.calOf d).cand.isEmpty) 0x0403, s.needDie (Fin.ofNat 4 d)]
      else none]
  waits s p :=
    let w := wordAt p.payload 0
    -- A run measures on the die, and accept writes its trims (R19).
    if fld w 63 61 = 0 ∨ fld w 63 61 = 3 then [s.dieWait (Fin.ofNat 4 (fld w 57 56))] else []
  eff s p :=
    let w := wordAt p.payload 0
    let d := fld w 57 56
    let rec_ := evRec 15 0 0 d
    match fld w 63 61 with
    | 0 =>
      let apply := bitAt w 54
      let l := calElems w (wordAt p.payload 1)
      let r : CalRun := { cls := fld w 60 58, shift := bitAt w 55, apply := apply, freq := fld (wordAt p.payload 2) 63 32,
                          level := sfld (wordAt p.payload 2) 31 16, left := l, since := s.now, accept := s.host.accept }
      let s := s.modCal d fun c =>
        { run := some r, state := 1, cand := if apply then c.cand else [], temp := c.temp, applying := c.applying,
          maskCls := (l.head?.map (·.1)).getD 0 }
      { st := s.calStart d (l.length + 1), long := true, about := rec_ }
    | 1 => { st := s, changed := false, reply := some (s.calOf d).words }
    | 2 => { st := s.calStop d 0, about := rec_ }
    | 3 => { st := s.acceptCand d, about := rec_ }
    | _ => { st := s.modCal d fun c => { c with cand := [] }, changed := !(s.calOf d).cand.isEmpty, about := rec_ }

/-! ## Measurements -/

/-- How long the measurement of an element takes, in ticks (Table 14.4). -/
def calTicks (c : Nat) : Nat := if c ≤ 1 then 5000000 else if c ≤ 3 then 4000000 else if c = 4 then 2000000 else 1000000

/-- The element's measurement runs: in place, or its core behind the spare (R350). -/
def State.calMeasuring (s : State) (d c i : Nat) : Bool :=
  let k := calCluster d c i
  if c = 0 then decide ((s.out (calOut d 0 i)).core = .off) || decide (s.dacSpare k = .covering (calOut d 0 i))
  else if c = 2 then !(s.ln (8 * d + i)).power || decide (s.adcSpare k = .covering (8 * d + i))
  else true

/-- A result passes: the new points of the element, with the result itself at point 7, enter the candidate or the active set
(R352, R355). -/
def State.calPass (d c i r : Nat) (run : CalRun) (w : Word) (diff : List Int) (s : State) : State :=
  let f := s.free
  let pts : List (Nat × Option Word) :=
    if run.shift then (List.range 5).map fun p =>
      (trimAddr d c i r p, some (trimAdd c (Config.freeWord (f + p)) (s.trimPoint d c i r p) diff))
    else [(trimAddr d c i r (nearestPoint (clampT run.temp)), some w)]
  let put_ (m : Sparse (Option Word)) (l : List (Nat × Option Word)) : Sparse (Option Word) :=
    l.foldl (fun m (a, v) => Sparse.set none m a v) m
  let s := { s with free := f + 5 }
  let s := s.modCal d fun x => { x with
    done_ := x.done_ + 1, rf := x.rf + b2n (c ≤ 3), biasN := x.biasN + b2n (c == 4)
    gain := x.gain + (if c ≤ 3 then diff.getD 0 0 else 0), phase := x.phase + (if c ≤ 3 then diff.getD 1 0 else 0)
    delay := x.delay + (if c ≤ 3 then diff.getD 2 0 else 0), bias := x.bias + (if c = 4 then diff.getD 0 0 else 0) }
  if run.apply then
    s.retarget d fun c => (c.points pts).onDie d fun x => { x with applying := true }
  else s.modCal d fun x => { x with cand := put_ x.cand (pts ++ [(trimAddr d c i r 7, some w)]) }

/-- A result is rejected: counted, with the calibration-range trouble bit and a record (R353). -/
def State.calReject (d c i : Nat) (s : State) : State :=
  let s := s.modCal d fun x => { x with rejected := x.rejected + 1, rejectMask := x.rejectMask ||| put i i 1 }
  (s.setTrouble (dieWord d) 7).note (evRec 15 i (BitVec.ofNat 32 (0x100 + c)) d)

/-- The microengine of a die stands still while a patch of it applies (R374). -/
def State.microStopped (s : State) (d : Nat) : Bool := (atN s.parts.patchSince d none).isSome

/-- CAL_ELEMENT_END: the measurement of the head element of a die's run ends with a result, which passes or is rejected
(R352, R353, Table 14.4). A core behind its spare waits for the swap back; otherwise the next element starts (R350). -/
def execCalElementEnd (die : Fin 4) (result : Word) (s : State) : Res :=
  let d := die.val
  match (s.calOf d).run, s.calHead d with
  | some run, some (c, i, r) =>
    if run.measured ∨ !s.calMeasuring d c i ∨ s.microStopped d then .next s else
    let s := s.runTo (run.since + calTicks c)
    let s := s.modCal d fun x => if x.maskCls = c then x else { x with rejectMask := 0, maskCls := c }
    let w := if c = 2 ∨ c = 3 then result &&& ~~~(mask 18 11) else if c ≤ 1 then result else result &&& ~~~(mask 15 0)
    let diff := ((trimGet c w).zip (trimGet c (s.target d c i r))).map fun (a, b) => a - b
    let ok := trimAbsolute c w && trimNear c diff && (run.shift || pointNear (clampT run.temp))
    let s := if ok then s.calPass d c i r run w diff else s.calReject d c i
    if s.swappedOut d c i then .next (s.modCal d fun x => { x with run := x.run.map fun y => { y with measured := true } })
    else .next (s.calNext d)
  | _, _ => .next s

/-- A cluster has no planned swap in progress. -/
def SpareUse.settled (u : SpareUse) : Bool :=
  match u with
  | .preparing _ _ => false
  | .ready _ _ => false
  | .swapping _ _ _ => false
  | .covering _ => false
  | _ => true

/-- CAL_RUN_END: a run with no element left ends with its last swap back (R356): a record, and the calibration vector. -/
def execCalRunEnd (die : Fin 4) (s : State) : Res :=
  let d := die.val
  match (s.calOf d).run with
  | some r =>
    if r.left ≠ [] ∨ !([2 * d, 2 * d + 1].all fun k => (s.dacSpare k).settled && (s.adcSpare k).settled) then .next s else
    let s := s.modCal d fun c => { c with run := none, state := if r.early.isSome then 3 else 2 }
    let rec_ := evRec 15 0 0 d
    match s.host.open_.find? fun o => o.opcode == 0x0C01#16 && o.accept == r.accept with
    | some o => .next (s.endLong o (r.early.getD 0) 10 rec_)
    | none => .next ((s.note rec_).raise 10)
  | none => .next s

/-- INTERNAL_CALIBRATION_END: after READY the full internal calibration of one more core ends behind its spare; the converter
specifications hold from the last one: 12 DAC and 4 ADC cores of each cluster (R357). -/
def execInternalCalibrationEnd (s : State) : Res :=
  if s.boot.phase = 8 ∧ s.boot.calCores < 16 * s.ident.tier.clusters then
    .next { s with boot := { s.boot with calCores := s.boot.calCores + 1 } }
  else .next s

/-! ## TRIM_LOAD and TRIM_READ (Table 14.7) -/

/-- Fields of word 0: class, die, point, first, count, range, factory. -/
structure TrimAsk where
  cls : Nat
  die : Nat
  point : Nat
  first : Nat
  n : Nat
  range : Nat
  factory : Bool

/-- Word 0 of the payload. -/
def trimAsk (p : Packet) : TrimAsk :=
  let w := wordAt p.payload 0
  { cls := fld w 63 61, die := fld w 60 59, point := fld w 58 56, first := fld w 55 48, n := fld w 47 40, range := fld w 39 38
    factory := bitAt w 37 }

/-- Checks that the two commands share. -/
def trimFmt (a : TrimAsk) : Option Refused :=
  firstRef [needOk 0 (a.cls ≤ 5), needOk 0 (1 ≤ a.n && a.n ≤ 64), needOk 0 (a.first + a.n ≤ classSize a.cls),
    needOk 0 (if a.cls = 4 then a.range < 3 else a.range == 0)]

/-- A word that TRIM_LOAD may write (Table 14.2, R353). -/
def trimWordOk (c i : Nat) (p : Packet) : Option Refused :=
  let w := wordAt p.payload i
  firstRef [if 4 ≤ c then needZero p i (mask 15 0) else none, needOk i (trimAbsolute c w), needOk i (!(c == 2 || c == 3) || fld w 18 11 == 0)]

/-- A run of the die covers the class. -/
def State.runCovers (s : State) (d c : Nat) : Bool := (s.calOf d).run.any fun r => r.cls == c || r.cls == 6

/-- TRIM_LOAD (R358). -/
def trimLoadCmd : Command where
  opcode := 0x0C02
  pf := true
  vf := false
  int := false
  dbg := none
  fmt _ p :=
    let a := trimAsk p
    firstRef [need (p.payload ≠ []) 0x0104 2, needLen p (if a.factory then 1 else 1 + a.n), needZero p 0 (mask 36 0), trimFmt a,
      needOk 0 (a.point ≤ 4), firstRef ((List.range (p.payload.length - 1)).map fun j => trimWordOk a.cls (1 + j) p)]
  maxReply _ := 0
  chk s p :=
    let a := trimAsk p
    firstRef [need (s.hasDie a.die) 0x0303, need (!s.runCovers a.die a.cls) 0x0403, s.needDie (Fin.ofNat 4 a.die)]
  waits s p := [s.dieWait (Fin.ofNat 4 (trimAsk p).die)]
  eff s p :=
    let a := trimAsk p
    let pts : List (Nat × Option Word) := (List.range a.n).map fun j =>
      (trimAddr a.die a.cls (a.first + j) a.range a.point, if a.factory then Option.none else some (wordAt p.payload (1 + j)))
    { st := s.retarget a.die fun c => (c.points pts).onDie a.die fun c => { c with applying := true }
      about := evRec 15 a.first 0 a.die }

/-- The word that TRIM_READ returns of an element. A candidate word that no run has measured is a value the manual does not
state. -/
def State.trimWord (s : State) (a : TrimAsk) (i : Nat) : Word :=
  if a.factory then Config.factoryTrim (trimAddr a.die a.cls i a.range a.point)
  else if a.point ≤ 4 then s.trimPoint a.die a.cls i a.range a.point
  else if a.point = 5 then s.inForceOf a.die a.cls i a.range
  else if a.point = 6 then s.target a.die a.cls i a.range
  else (Sparse.get none (s.calOf a.die).cand (trimAddr a.die a.cls i a.range 7)).getD (Config.freeWord (s.free + i))

/-- TRIM_READ (R358). -/
def trimReadCmd : Command where
  opcode := 0x0C03
  pf := true
  vf := true
  int := false
  dbg := some 1
  fmt _ p :=
    let a := trimAsk p
    firstRef [needLen p 1, needZero p 0 (mask 36 0), trimFmt a, needOk 0 (!a.factory || a.point ≤ 4)]
  maxReply p := (trimAsk p).n
  chk s p :=
    let a := trimAsk p
    firstRef [need (s.hasDie a.die) 0x0303, if a.factory then none else s.needDie (Fin.ofNat 4 a.die)]
  waits s p := if (trimAsk p).factory then [] else [s.dieWait (Fin.ofNat 4 (trimAsk p).die)]
  eff s p :=
    let a := trimAsk p
    { st := { s with free := s.free + 64 }, changed := false, reply := some ((List.range a.n).map fun j => s.trimWord a (a.first + j)) }

end Sys2Proof.Machine
end

