-- ==== Sys2Proof/Machine/ThermCmds.lean ====
section
/-!
DEFINITION. Machine/ThermCmds.lean: chapter 18: sensor polls, thermal levels, throttle steps and shutdown (R415 to R424),
THERMAL_CONFIG (R425), and the upkeep of main memory (R422, R445 to R447).
-/
namespace Sys2Proof.Machine

/-! ## Levels (R416, R417) -/

/-- Code of a level (Table 18.7). -/
def Level.code : Level → Nat
  | .normal => 0
  | .warn => 1
  | .throttle => 2
  | .shutdown => 3

/-- A record of a level change, with the hottest sensor and its reading (R417). -/
def State.levelRec (s : State) : LedgerRec :=
  let (i, v) := s.hottest
  evRec 15 i (BitVec.ofNat 32 (0x30000 + s.thermal.level.code * 0x100000) ||| (BitVec.ofInt 16 v).setWidth 32) (sensorDie i)

/-- A level is entered: its trouble bit, a record, vector 11 (R417). In THROTTLE G5 yields to G2 (Table 15.2). -/
def State.levelEnter (l : Level) (s : State) : State :=
  let s := { s with thermal := { s.thermal with level := l } }
  let s := if l = .normal then s else s.setTrouble 0 (2 + l.code)
  let s := (s.note s.levelRec).raise 11
  if l = .throttle then s.yields 2 5 else s

/-- A level is left for the one below it: a record, vector 11 (R417). -/
def State.levelLeave (l : Level) (s : State) : State :=
  let s := { s with thermal := { s.thermal with level := l } }
  (s.note s.levelRec).raise 11

/-- The level THROTTLE begins at a step (R419). An entry into step 3 lets the next skipped event report (R421). -/
def State.setStep (n : Nat) (s : State) : State :=
  { s with thermal := { s.thermal with step := n, stepAt := s.now, skipSeen := if n = 3 then false else s.thermal.skipSeen } }

/-- Since when a condition holds: from now where it did not hold before. -/
def dwell (c : Bool) (now : Nat) (t : Option Nat) : Option Nat := if c then some (t.getD now) else none

/-- After a poll of sensor `i` every dwell is timed against the hottest reading (R417, R419). Polls of the hottest sensor at
125 °C or more are counted. -/
def State.supervise (i : Nat) (s : State) : State :=
  let (h, v) := s.hottest
  let t := s.thermal
  let n := s.now
  { s with thermal := { t with
    aboveW := dwell (decide (16 * (t.warn : Int) ≤ v)) n t.aboveW
    aboveT := dwell (decide (16 * (t.throttle : Int) ≤ v)) n t.aboveT
    aboveS := dwell (decide (1920 ≤ v)) n t.aboveS
    belowW := dwell (decide (v < 16 * ((t.warn : Int) - 3))) n t.belowW
    belowT := dwell (decide (v < 16 * ((t.throttle : Int) - 3))) n t.belowT
    fast := if v < 2000 then 0 else if i = h then t.fast + 1 else t.fast } }

/-! ## Sensors (R414 to R416) -/

/-- The last reading lies within 5 °C of an entry or release threshold (Table 18.1). -/
def Thermal.close (t : Thermal) (v : Int) : Bool :=
  [(t.warn : Int), t.warn - 3, t.throttle, t.throttle - 3, 120].any fun x => decide ((v - 16 * x).natAbs ≤ 80)

/-- The poll interval of a sensor in ticks (Table 18.1). -/
def State.pollGap (s : State) (i : Nat) : Nat := if s.thermal.close (s.sensor i).reading then 50000 else 1000000

/-- A reading differs by more than 8 °C from the mean of at least two checkable neighbors (R415). -/
def State.deviates (s : State) (i : Nat) : Bool :=
  let l := (neighbors i).filter s.checkable
  let sum := (l.map fun j => (s.sensor j).raw).foldl (· + ·) 0
  decide (2 ≤ l.length) && decide (128 * l.length < ((s.sensor i).raw * l.length - sum).natAbs)

/-- Fewer than 3 valid sensors of an enabled die: THROTTLE, step 5, at once, held until power-on reset (R416). -/
def State.starved (d : Nat) (s : State) : State :=
  if s.thermal.pinned ∨ 3 ≤ ((dieSensors d).filter s.validSensor).length then s else
  let s := { s with thermal := { s.thermal with pinned := true } }
  if s.thermal.level = .shutdown then s
  else if s.thermal.level = .throttle then s.setStep 5
  else (s.setStep 5).levelEnter .throttle

/-- SENSOR_POLL: a sensor is read and cross-checked; after 3 deviating polls it is failed and its substitute takes its place
(R415). Readings lie within the range of Table 18.1. -/
def execSensorPoll (i : Fin 72) (reading : Int) (s : State) : Res :=
  if !s.supervised i.val then .next s else
  let s := s.runTo ((s.sensor i.val).polledAt + s.pollGap i.val)
  let v := max (-640) (min 2400 reading)
  let s := s.modSensor i.val fun x => { x with raw := v, polledAt := s.now }
  if (s.sensor i.val).failedAt.isSome then
    let w := s.substitute i.val
    .next ((({ s with free := s.free + 1 } : State).modSensor i.val fun x => { x with reading := w }).supervise i.val)
  else
    let dev := s.deviates i.val
    let s := s.modSensor i.val fun x => { x with reading := v, devs := if dev then x.devs + 1 else 0 }
    if (s.sensor i.val).devs < 3 then .next (s.supervise i.val) else
    let s := s.modSensor i.val fun x => { x with failedAt := some s.now }
    let w := s.substitute i.val
    let s := ({ s with free := s.free + 1 } : State).modSensor i.val fun x => { x with reading := w }
    let s := ((s.setTrouble 0 6).note (evRec 15 i.val 0x400 (sensorDie i.val))).raise 11
    .next ((s.supervise i.val).starved (sensorDie i.val))

/-! ## Entry, release, steps (R417, R419) -/

/-- THERMAL_LEVEL_ENTRY: 10 ms at or above a threshold: WARN from NORMAL, THROTTLE at step 1 from WARN (R417, R419). -/
def execThermalLevelEntry (s : State) : Res :=
  match s.thermal.level, s.thermal.aboveW, s.thermal.aboveT with
  | .normal, some t, _ => .next ((s.runTo (t + 10000000)).levelEnter .warn)
  | .warn, _, some t => .next (((s.runTo (t + 10000000)).setStep 1).levelEnter .throttle)
  | _, _, _ => .next s

/-- Step 1 is left for WARN. -/
def State.unthrottle (s : State) : State := (s.setStep 0).levelLeave .warn

/-- THERMAL_LEVEL_RELEASE: 100 ms below the release threshold: WARN is left for NORMAL, and THROTTLE at step 1 for WARN
(R417, R419). -/
def execThermalLevelRelease (s : State) : Res :=
  match s.thermal.level, s.thermal.belowW, s.thermal.belowT with
  | .warn, some t, _ => .next ((s.runTo (t + 100000000)).levelLeave .normal)
  | .throttle, _, some t =>
    if s.thermal.pinned ∨ s.thermal.step ≠ 1 then .next s
    else .next (s.runTo (max t s.thermal.stepAt + 100000000)).unthrottle
  | _, _, _ => .next s

/-- THROTTLE_STEP: 100 ms at or above the THROTTLE threshold advance the step, 100 ms below the release threshold move it back;
step 1 moves back to WARN (R419). -/
def execThrottleStep (s : State) : Res :=
  let t := s.thermal
  if t.level ≠ .throttle ∨ t.pinned then .next s else
  match t.aboveT, t.belowT with
  | some a, _ =>
    let s := s.runTo (max a t.stepAt + 100000000)
    if t.step < 5 then .next (s.setStep (t.step + 1)) else .next { s with thermal := { s.thermal with stepAt := s.now } }
  | none, some b =>
    let s := s.runTo (max b t.stepAt + 100000000)
    if t.step ≤ 1 then .next s.unthrottle else .next (s.setStep (t.step - 1))
  | none, none => .next s

/-! ## Shutdown (R423, Table 18.4) -/

/-- A thermal record (Table 18.5). -/
def State.thermalRec (s : State) (tick : BitVec 64) (alm : BitVec 32) (fast : Bool) (seq : BitVec 64) : ThermalRec :=
  let (i, v) := s.hottest
  let n := match s.archive.thermal with
    | [] => 1
    | r :: _ => fld (wordAt r.words 0) 63 32 + 1
  { words := [orAll [put 63 32 n, put 31 25 i, put 24 22 (sensorDie i), putB 21 fast, putB 20 (s.sensor i).failedAt.isSome, putS 15 0 v],
      tick, put 63 32 alm.toNat, seq, 0, 0, 0, 0] }

/-- A step of POWER_STATE in progress ends with 0x0703 (R410). -/
def State.abortPower (s : State) : State :=
  if s.power.step.isNone then s else
  let s := { s with power := { s.power with step := none, timeoutAt := none } }
  match s.openOf 0x0F01 with
  | some o => s.endLong o 0x0703 14 {}
  | none => s

/-- An estimator that runs, or that the debug port holds, stops (R191). -/
def State.estStop (e : Nat) (s : State) : State :=
  match (s.es e).mode with
  | .running => s.estHalt e
  | .debugHalted => s.estHalt e
  | _ => s

/-- THERMAL_SHUTDOWN: 10 ms at 120 °C or more, or three polls at 125 °C or more (R417), enter SHUTDOWN in tick s. The rows of
Table 18.4 up to the record are taken together, the outputs and channels in tick s + 2. Shots yield to it, and it yields to channels
that ramp (Table 15.2). -/
def execThermalShutdown (s : State) : Res :=
  let fast := decide (3 ≤ s.thermal.fast)
  if s.thermal.level = .shutdown ∨ !(fast || s.thermal.aboveS.isSome) then .next s else
  let s := if fast then s else s.runTo (s.thermal.aboveS.getD 0 + 10000000)
  let tick := s.tick
  let alm := s.time.almanac
  let s := { s with thermal := { s.thermal with level := .shutdown, step := 0, shutAt := some s.now, dieDown := Vector.replicate 4 false } }
  let shots := s.seqs.seq.toList.any (·.inShot)
  let s := (List.range 256).foldl (fun s q => s.haltSeq q true s.host.accept) s
  let s := (List.range 32).foldl (fun s e => s.estStop e) s
  let s := s.mutingAll fun x => { x with thermal := true }
  let s := ((s.calStopAll 0x0703).abortStore).abortPower
  let s := s.runTo (s.now + 2)
  let ramps : Bool := !(List.range 256).all fun i => (s.ch i).st == .off
  let s := s.allChansOff
  let s := (List.range 16).foldl (fun s n => s.laneEnter n .idle) s
  let s := s.setTrouble 0 5
  let s := if shots then s.yields 2 3 else s
  let s := if ramps then s.yields 1 2 else s
  let s := s.note s.levelRec
  let s := { s with archive := { s.archive with thermal := (s.thermalRec tick alm fast s.lastSeq :: s.archive.thermal).take 512 } }
  let number := fld (wordAt (s.archive.thermal.headD {}).words 0) 63 32
  .next (((s.wroteDirect (1728 + number % 512 / 64) 1).checkpoint).raise 11)

/-- Outputs are parked: each records its command-mute state and is muted by the command cause over its RAMP (R408). -/
def State.park (l : List Nat) (s : State) : State :=
  let s := { s with power := { s.power with parked := l.foldl (fun v o => updN v o fun _ => (s.out o).cmdMute) s.power.parked } }
  l.foldl (fun s o => s.modOut o (Output.mute s.now false s.tick)) s.hearEvery

/-- Every debug-port session above a level drops to it (R396, R398, R406). -/
def State.dropDebug (n : Nat) (s : State) : State :=
  { s with host := { s.host with sessions := s.host.sessions.map fun x => if x.func = 9 then { x with level := min x.level n } else x } }

/-- A power state is reached: its tick, the debug sessions (R406), a record (R409). -/
def State.powerAt (p : Power) (s : State) : State :=
  let s := { s with power := { s.power with st := p, lastTick := s.tick } }
  (s.dropDebug 1).note (evRec 15 0 (BitVec.ofNat 32 (0x500 + p.code)))

/-- Every enabled die is in the STANDBY condition. -/
def State.allDown (s : State) : Bool := (List.range 4).all fun d => !s.hasDie d || atN s.thermal.dieDown d false

/-- SHUTDOWN_DIE_STANDBY: at the later of s + 2 ms and its last channel reaching OFF, a die enters the STANDBY condition, its
outputs parked; when
every enabled die has, the power state reads STANDBY (Table 18.4). -/
def execShutdownDieStandby (die : Fin 4) (s : State) : Res :=
  match s.thermal.shutAt with
  | some t =>
    if !s.hasDie die.val ∨ atN s.thermal.dieDown die.val false ∨
        !((List.range 64).all fun i => decide ((s.ch (64 * die.val + i)).st = .off)) then .next s else
    let s := s.runTo (t + 2000000)
    let s := { s with thermal := { s.thermal with dieDown := updN s.thermal.dieDown die.val fun _ => true } }
    let s := s.park ((List.range 96).filter fun o => outDie o == die.val)
    if s.allDown then .next (s.powerAt .standby)
    else .next s
  | none => .next s

/-! ## THERMAL_CONFIG (Tables 18.6 and 18.7) -/

/-- The reading of a sensor as replies carry it. -/
def State.reading16 (s : State) (i : Nat) : Nat := if s.supervised i then ((s.sensor i).reading % 65536).toNat else 0x8000

/-- The query reply (Table 18.7). -/
def State.thermalWords (s : State) : Words :=
  let t := s.thermal
  let (i, v) := s.hottest
  let failed (n : Nat) : Bool := (s.sensor n).failedAt.isSome
  [orAll [put 63 62 t.level.code, put 61 59 t.step, put 58 52 i, putS 51 36 v, put 35 28 t.warn, put 27 20 t.throttle], t.skipped,
   orAll ((List.range 64).map fun n => putB n (failed n)),
   orAll ((List.range 8).map (fun n => putB n (failed (64 + n))) ++ (List.range 4).map fun d => putB (8 + d) (!s.hasDie d))] ++
  (List.range 18).map fun k => orAll ((List.range 4).map fun j => put (16 * j + 15) (16 * j) (s.reading16 (4 * k + j)))

/-- THERMAL_CONFIG (R425). -/
def thermalConfigCmd : Command where
  opcode := 0x0F02
  pf := true
  vf := false
  int := true
  dbg := none
  fmt _ p :=
    let w := wordAt p.payload 0
    let act := fld w 63 62
    let a := fld w 61 54
    let b := fld w 53 46
    firstRef [needLen p 1, needZero p 0 (mask 36 0),
      needOk 0 (if act = 0 then decide (60 ≤ a ∧ a ≤ 95) && decide (70 ≤ b ∧ b ≤ 105 ∧ a + 5 ≤ b) else a == 0 && b == 0),
      needOk 0 (act == 2 || fld w 45 37 == 0)]
  maxReply p :=
    let act := fld (wordAt p.payload 0) 63 62
    if act = 0 then 0 else if act = 2 then 8 else 22
  chk s p :=
    let w := wordAt p.payload 0
    need (fld w 63 62 != 2 || decide (fld w 45 37 < s.archive.thermal.length)) 0x0403
  waits _ _ := []
  eff s p :=
    let w := wordAt p.payload 0
    match fld w 63 62 with
    | 0 => { st := { s with thermal := { s.thermal with warn := fld w 61 54, throttle := fld w 53 46 } }, about := evRec 15 0 0x401 }
    | 1 => { st := s, changed := false, reply := some s.thermalWords }
    | 2 => { st := s, changed := false, reply := (s.archive.thermal[fld w 45 37]?).map (·.words) }
    | _ => { st := { s with thermal := { s.thermal with skipped := 0 } }, reply := some s.thermalWords, about := evRec 15 0 0x402 }

/-! ## Main memory (R422, R445 to R447) -/

/-- Main memory is in service: from its training in phase 5 on, outside DORMANT (R445). -/
def State.memUp (s : State) : Bool := decide (6 ≤ s.boot.phase ∧ s.boot.phase ≤ 8) && decide (s.power.st ≠ .dormant)

/-- DRAM_TEMPERATURE_READ: every 1 ms each device's temperature status is read, and sets its refresh rate (R422). -/
def execDramTemperatureRead (status : Vector (BitVec 8) 8) (s : State) : Res :=
  if s.memUp then
    let s := s.runTo (s.boot.mr4At + 1000000)
    .next { s with boot := { s.boot with mr4 := status, mr4At := s.now } }
  else .next s

/-- DRAM_ZQ_UPDATE: every 50 ms in service ZQ and the write-DQS timing are updated, without a pause of traffic (R445). -/
def execDramZqUpdate (s : State) : Res :=
  if s.memUp then
    let s := s.runTo (s.boot.zqAt + 50000000)
    .next { s with boot := { s.boot with zqAt := s.now } }
  else .next s

/-- DRAM_PATROL_SCRUB: the scrubber reads a codeword of a channel. A correctable one is written back as it was; an
uncorrectable one takes the poison pattern; a poisoned one is met again as uncorrectable (R447). The codeword number is
the address within the channel. -/
def execDramPatrolScrub (channel : Fin 8) (codeword : BitVec 26) (uncorrectable : Bool) (s : State) : Res :=
  let a := channel.val * 2 ^ 26 + codeword.toNat
  if !s.memUp then .next s
  else if uncorrectable ∨ a ∈ s.boot.poison then
    let s := if a ∈ s.boot.poison then s else { s with boot := { s.boot with poison := a :: s.boot.poison } }
    .next (s.dramFault channel (codeword.setWidth 32))
  else .next s

/-- MEMINIT_COMPLETE: the last block of main memory is initialized, and MEMINIT is set (R446). -/
def execMeminitComplete (s : State) : Res :=
  if s.memUp then .next { s with boot := { s.boot with meminit := true } } else .next s

end Sys2Proof.Machine
end

