-- ==== Sys2Proof/Machine/PartCmds.lean ====
section
/-!
DEFINITION. Machine/PartCmds.lean: chapter 15: PARTITION_DEFINE, PARTITION_HOLD and ADMIT (R370 to R379), hold time-outs, die
patches (R374), and the faults of the real-time bridges and dies (R17, R361, R367).
-/
namespace Sys2Proof.Machine

/-! ## Elements (R370) -/

/-- A partition. -/
def State.pt (s : State) (p : Nat) : Partition := atN s.parts.part p {}
/-- Change a partition. -/
def State.modPart (p : Nat) (f : Partition → Partition) (s : State) : State :=
  { s with parts := { s.parts with part := updN s.parts.part p f } }

/-- Code of a partition's state (Table 15.5). -/
def PartState.code : PartState → Nat
  | .running => 0
  | .holding => 1
  | .held => 2

/-! ## PARTITION_DEFINE (Table 15.3) -/

/-- The payload names element `i` of the section that starts at word `first`. -/
def pdNames (p : Packet) (first i : Nat) : Bool := bitAt (wordAt p.payload (first + i / 64)) (i % 64)

/-- Fields of word 0. -/
def pdPart (p : Packet) : Fin 8 := Fin.ofNat 8 (fld (wordAt p.payload 0) 63 61)
/-- MODE. -/
def pdMode (p : Packet) : Nat := fld (wordAt p.payload 0) 60 59
/-- The queues that QFIRST and QCOUNT name. -/
def pdQueues (p : Packet) : List Nat := (List.range (fld (wordAt p.payload 0) 43 28)).map (fld (wordAt p.payload 0) 58 44 + ·)

/-- A bank of owners with the named elements moved. -/
def moveOwners {n : Nat} (p : Packet) (first : Nat) (v : Vector (Fin 8) n) : Vector (Fin 8) n :=
  Vector.ofFn fun i => if pdNames p first i.val then pdPart p else v[i.val]

/-- The named elements belong to the target partition. -/
def Parts.assign (p : Packet) (x : Parts) : Parts :=
  { x with
    dslot := moveOwners p 1 x.dslot, pslot := moveOwners p 9 x.pslot, rslot := moveOwners p 17 x.rslot
    bias := moveOwners p 25 x.bias, seq := moveOwners p 29 x.seq, pt := moveOwners p 33 x.pt }

/-- Owners of the named elements of a bank. -/
def namedOwners {n : Nat} (p : Packet) (first : Nat) (v : Vector (Fin 8) n) : List (Fin 8) :=
  (List.range n).filterMap fun i => if pdNames p first i then some (atN v i 0) else none

/-- Present owners of every named element. -/
def Parts.named (p : Packet) (x : Parts) : List (Fin 8) :=
  namedOwners p 1 x.dslot ++ namedOwners p 9 x.pslot ++ namedOwners p 17 x.rslot ++ namedOwners p 25 x.bias ++ namedOwners p 29 x.seq
    ++ namedOwners p 33 x.pt

/-- Clusters of the named elements. -/
def pdClusters (p : Packet) : List Nat :=
  (List.range 8).filter fun k =>
    let names (first m : Nat) : Bool := (List.range m).any fun i => pdNames p first (m * k + i)
    names 1 64 || names 9 64 || names 17 64 || names 25 32 || names 29 32

/-- A gather map takes local verdicts of one partition only. -/
def State.gatherSound (s : State) (owner : Fin 8) (l : List GatherEnt) : Bool :=
  l.all fun g => g.smem != s.fabric.member || s.demodOwner (16 * g.sline + g.sslot) == owner

/-- Nothing joins elements of two partitions in any copy (R371): bindings; compensation copies and their sources; stream plans
and their folios; views, their members and local gather sources; delivery entries and their local sources. -/
def State.partsSound (s : State) : Bool :=
  ((List.range 256).all fun q =>
    let c := s.sq q
    let o := s.seqOwner q
    let binds (v : Vector Binding 8) : Bool := v.toList.all fun b => b == .none || s.slotOwner b == o
    let plan (x : StreamPlan) : Bool := x.list.all fun e => (s.folio e.2).owner == o
    let mset (x : MemberSet) : Bool := (match x.view with
      | some v => (s.vw v.val).owner == o
      | none => true) && s.gatherSound o x.gather
    let route (v : Vector Deliv 8) : Bool :=
      v.toList.all fun e => !e.en || e.smem != s.fabric.member || s.demodOwner (16 * e.sline + e.sslot) == o
    let pl := s.plansOf q
    let m := s.mem q
    let r := atN s.fabric.route q {}
    binds c.shadow && binds c.active && c.sealed_.all (fun x => binds x.binds)
      && plan pl.shadow && plan pl.active && pl.sealed_.all plan
      && mset m.shadow && mset m.active && m.sealed_.all mset
      && route r.shadow && route r.active && r.sealed_.all route)
  && (allSlots.all fun b =>
    let copy (x : SlotSet) : Bool := x.role != .copy || s.slotOwner (srcBinding x.src) == s.slotOwner b
    let x := s.slotOf b
    copy x.shadow && copy x.active && x.sealed_.all copy)
  && (List.range 16).all fun v => !(s.vw v).defined || s.gatherSound (s.vw v).owner (s.vw v).gather

/-- The function that a PARTITION_DEFINE gives its queues. -/
def pdFunc (p : Packet) : Nat := if pdMode p = 2 then 0 else (pdPart p).val + 1

/-- The queues that change their function. -/
def State.pdMoved (s : State) (p : Packet) : List Nat := (pdQueues p).filter fun q => Sparse.get 0 s.host.queueFunc q != pdFunc p

/-- A named queue has packets in flight other than this command. -/
def State.pdBusy (s : State) (p : Packet) : Bool :=
  (s.pdMoved p).any fun q =>
    let own (src : Source) : Bool := match src with
      | .queue i => i.val == q
      | _ => false
    s.host.fetched.any (fun f => own f.packet.source && f.packet != p) || s.host.waiting.any (fun f => own f.packet.source && f.packet != p)
      || (s.host.open_.any fun o => !o.long && !o.silent && own o.packet.source && o.packet != p)
      || (s.running.any fun f => own f.packet.source && f.packet != p)

/-- A queue as a source. -/
def queueSrc (q : Nat) : Source := .queue (Fin.ofNat 32768 q)

/-- The queues that move are drained (R290): each that is ENABLED becomes DRAINING. -/
def State.pdDrain (p : Packet) (s : State) : State :=
  (s.pdMoved p).foldl (fun s q =>
    if (s.queue (queueSrc q)).qstate = .enabled then (s.modQueue (queueSrc q) (Queue.setEnable false)).setQState (queueSrc q) .draining
    else s) s

/-- The drained queues belong to their new function, and the named elements to their new partition; a moved demodulation slot takes its
rings with it (R371). -/
def State.pdMove (p : Packet) (s : State) : State :=
  let l := (s.pdMoved p).filter fun q => queueSrc q != p.source
  let s := l.foldl (fun s q => if (s.queue (queueSrc q)).qstate = .draining then s.setQState (queueSrc q) .disabled else s) s
  let own := (s.pdMoved p).filter fun q => queueSrc q == p.source
  let s := { s with host := { s.host with
    queueFunc := l.foldl (fun m q => Sparse.set 0 m q (pdFunc p)) s.host.queueFunc
    moving := s.host.moving ++ own.map fun q => (q, pdFunc p) } }
  if pdMode p = 0 then
    let moved := (List.range 512).filter fun k => s.demodOwner k != ({ s with parts := s.parts.assign p } : State).demodOwner k
    moved.foldl (fun s k => s.rehome k) { s with parts := s.parts.assign p }
  else s

/-- Words W1 to W33 of a section: the elements that a partition owns. -/
def ownWords {n : Nat} (p : Fin 8) (v : Vector (Fin 8) n) : Words :=
  (List.range (ceilDiv n 64)).map fun w => orAll ((List.range 64).map fun i => putB i (decide (64 * w + i < n ∧ atN v (64 * w + i) 0 = p)))

/-- The query reply (Table 15.3). -/
def State.partWords (s : State) (p : Fin 8) : Words :=
  let x := s.parts
  let n := (s.host.queueFunc.filter fun e => e.2 == p.val + 1).length
  orAll [put 63 61 p.val, put 60 59 (s.pt p.val).st.code, put 58 44 n] ::
    (ownWords p x.dslot ++ ownWords p x.pslot ++ ownWords p x.rslot ++ ownWords p x.bias ++ ownWords p x.seq ++ ownWords p x.pt)

/-- PARTITION_DEFINE (R371, Table 15.3). With packets in flight on a queue that moves, it completes when that queue is
drained. A command that moves its own queue is completed first, and that queue drains after it (R290, R296). -/
def partitionDefineCmd : Command where
  opcode := 0x1001
  pf := true
  vf := false
  int := false
  dbg := none
  fmt _ p :=
    let w := wordAt p.payload 0
    let qf := fld w 58 44
    let qc := fld w 43 28
    firstRef [need (p.payload ≠ []) 0x0104 2, needOk 0 (pdMode p ≠ 3), needLen p (if pdMode p = 0 then 34 else 1), needZero p 0 (mask 27 0),
      needOk 0 (qc == 0 || qf != 0), needOk 0 (qf + qc ≤ 32768), if pdMode p = 0 then needZero p 33 (mask 63 32) else none]
  maxReply p := if pdMode p = 1 then 34 else 0
  chk s p :=
    if pdMode p ≠ 0 then none else
    let named := s.parts.named p
    firstRef [need ((pdClusters p).all fun k => s.hasCluster k) 0x0303,
      need (named.isEmpty || decide ((s.pt (pdPart p).val).st = .held)) 0x0406,
      need (named.all fun o => decide ((s.pt o.val).st = .held)) 0x0406,
      need (named.isEmpty || ({ s with parts := s.parts.assign p } : State).partsSound) 0x0304]
  waits _ _ := []
  eff s p :=
    if pdMode p = 1 then { st := s, changed := false, reply := some (s.partWords (pdPart p)) } else
    let busy := s.pdBusy p
    let s := s.pdDrain p
    { st := if busy then s else s.pdMove p, changed := !busy, later := busy, about := evRec 10 (pdPart p).val }

/-- A queue that its own PARTITION_DEFINE moves belongs to its new function once it has drained (R290). -/
def State.moved (q : Nat) (s : State) : State :=
  match s.host.moving.find? fun m => m.1 == q with
  | some m => { s with host := { s.host with
      queueFunc := Sparse.set 0 s.host.queueFunc q m.2, moving := s.host.moving.filter fun m => m.1 != q } }
  | none => s

/-- QUEUE_DRAIN_END: a DRAINING queue that has posted the completions of its fetched packets becomes DISABLED (R290). A
PARTITION_DEFINE that waits for it moves its queues and elements, and completes. -/
def execQueueDrainEnd (q : Fin 32768) (s : State) : Res :=
  let src : Source := .queue q
  let o := s.openOf 0x1001
  let own := o.any fun o => o.packet.source == src
  if (s.queue src).qstate == .draining && (own || !s.inFlight src) then
    let s := if own then s else (s.setQState src .disabled).moved q.val
    match o with
    | some o =>
      if s.pdBusy o.packet then .next s else
      let s := (s.pdMove o.packet).note (s.cmdRec 1 0x1001 o.packet o.accept 0 (evRec 10 (pdPart o.packet).val))
      .next (s.finish o 0 none s.tick s.lastSeq 0)
    | none => .next s
  else .next s

/-! ## PARTITION_HOLD (R372, R373, Tables 15.4 and 15.5) -/

/-- Sequencers that a partition owns. -/
def State.seqsOf (s : State) (p : Nat) : List Nat := (List.range 256).filter fun q => (s.seqOwner q).val == p

/-- Sequencers still armed or running. -/
def State.liveSeqs (s : State) (p : Nat) : List Nat :=
  (s.seqsOf p).filter fun q => decide ((s.sq q).mode = .armed) || (s.sq q).inShot

/-- A hold halts one sequencer. The halt that waits for a shot boundary is the hold's own: a release cancels it and no other (R373). -/
def State.holdSeq (q : Nat) (abortMode : Bool) (acc : BitVec 32) (s : State) : State :=
  let old := (s.sq q).haltWait
  (s.haltSeq q abortMode acc).modSeq q fun c =>
    if c.haltWait = some acc then { c with haltWait := old, holdWait := some acc } else c

/-- A hold executes on one partition. -/
def State.hold (p : Nat) (abortMode : Bool) (timeout acc : Nat) (s : State) : State :=
  let halt (s : State) : State := (s.seqsOf p).foldl (fun s q => s.holdSeq q abortMode (BitVec.ofNat 32 acc)) s
  match (s.pt p).st with
  | .held => s
  | .holding => if abortMode then ((halt s).modPart p fun x => { x with abortMode := true }).partCheck p else s
  | .running =>
    let s := s.modPart p fun x => { x with
      st := .holding, abortMode := abortMode, timeoutAt := if timeout = 0 then none else some (s.now + 1000 * timeout) }
    (halt s).partCheck p

/-- A release: the partition is RUNNING, and its halts that are still pending are cancelled (R373). -/
def State.unhold (p : Nat) (s : State) : State :=
  if (s.pt p).st = .running then s else
  let s := s.modPart p fun x => { x with st := .running, abortMode := false, timeoutAt := none }
  (s.seqsOf p).foldl (fun s q => s.modSeq q fun c => { c with holdWait := none }) s

/-- A die patch waits on the partition (Table 15.5). -/
def State.patchWait (s : State) (p : Nat) : Bool := (List.range 4).any fun d => atN s.parts.patchWaits d false && s.ownsOnDie p d

/-- The reply word of a partition (Table 15.5). -/
def State.holdWord (s : State) (p : Nat) : Word :=
  orAll [put 63 62 (s.pt p).st.code, put 61 53 (s.liveSeqs p).length, putB 52 (s.patchWait p), put 31 0 (s.pt p).heldTick.toNat]

/-- Partitions that PARTMASK names. -/
def phParts (p : Packet) : List Nat := (List.range 8).filter fun i => (fld (wordAt p.payload 0) 60 53).testBit i

/-- PARTITION_HOLD. -/
def partitionHoldCmd : Command where
  opcode := 0x1002
  pf := true
  vf := true
  int := false
  dbg := none
  fmt _ p :=
    let w := wordAt p.payload 0
    firstRef [needLen p 1, needOk 0 (fld w 63 62 ≤ 2), needOk 0 (phParts p ≠ []), needZero p 0 (mask 28 0),
      needOk 0 (fld w 52 29 == 0 || (fld w 63 62 == 0 && !bitAt w 61))]
  maxReply p := (phParts p).length
  chk s p :=
    let fn := s.funcOf p.source
    need (fn == 0 || 9 ≤ fn || (phParts p).all fun i => i + 1 == fn) 0x0203
  waits _ _ := []
  eff s p :=
    let w := wordAt p.payload 0
    let l := phParts p
    let t := match fld w 63 62 with
      | 0 => l.foldl (fun s i => s.hold i (bitAt w 61) (fld w 52 29) s.host.accept.toNat) s
      | 1 => l.foldl (fun s i => s.unhold i) s
      | _ => s
    let changed := l.any fun i => match fld w 63 62 with
      | 0 => decide ((s.pt i).st = .running) || (decide ((s.pt i).st = .holding) && bitAt w 61)
      | 1 => decide ((s.pt i).st ≠ .running)
      | _ => false
    { st := t, changed := changed, reply := some (l.map t.holdWord), about := evRec 10 ((l.head?).getD 0) }

/-- HOLD_TIMEOUT: TIMEOUT µs after a boundary hold, every sequencer of the partition still running is aborted with code 8
(R373). -/
def execHoldTimeout (part : Fin 8) (s : State) : Res :=
  match (s.pt part.val).timeoutAt with
  | some t =>
    if (s.pt part.val).st ≠ .holding then .next s else
    let s := (s.runTo t).modPart part.val fun x => { x with timeoutAt := none }
    .next (((s.liveSeqs part.val).foldl (fun s q => s.haltSeq q true s.host.accept) s).partCheck part.val)
  | none => .next s

/-! ## ADMIT (R375, R376, Tables 15.6 and 15.7) -/

/-- Units of memory that a partition uses, rounded up. -/
def State.memUsed (s : State) (p : Nat) : Nat := ceilDiv (runsLen (s.shareRuns p)) 262144

/-- The sum of a share over all partitions but one. -/
def Parts.others (x : Parts) (p : Nat) (f : Partition → Nat) : Nat :=
  ((List.range 8).map fun i => if i = p then 0 else f (atN x.part i {})).sum

/-- The reply (Table 15.7). BULK_USE is measured traffic, whose amount the manual does not give. -/
def State.admitWords (s : State) (p : Nat) : Words :=
  let ps := if p = 15 then List.range 8 else [p]
  let x := s.parts
  let used (f : Partition → Nat) : Nat := x.others 8 f
  [put 63 32 (ps.map s.streamDemand).sum ||| put 31 0 (ps.map s.acqDemand).sum,
   put 63 32 (lo32 (Config.freeWord s.free)).toNat ||| put 31 16 (ps.map s.memUsed).sum,
   put 63 32 (x.streamTotal - used (·.stream)) ||| put 31 0 (x.acqTotal - used (·.acq)),
   put 63 32 (x.bulkTotal - used (·.bulk)) ||| put 31 16 (s.ident.units - used (·.memory))]

/-- ADMIT. -/
def admitSharesCmd : Command where
  opcode := 0x1003
  pf := true
  vf := false
  int := false
  dbg := none
  fmt _ p :=
    let w := wordAt p.payload
    let part := fld (w 0) 63 60
    let act := fld (w 0) 59 58
    firstRef [need (p.payload ≠ []) 0x0104 2, needOk 0 (part < 8 || part == 15), needOk 0 (act ≤ 1), needLen p (if act = 0 then 3 else 1),
      needZero p 0 (mask 57 0), needZero p 2 (mask 15 0),
      if act = 0 ∧ part = 15 then firstRef [needOk 1 (fld (w 1) 63 32 + fld (w 1) 31 0 + fld (w 2) 63 32 = 48000), needOk 2 (fld (w 2) 31 16 = 0)]
      else none]
  maxReply _ := 4
  chk s p :=
    let w := wordAt p.payload
    let part := fld (w 0) 63 60
    if fld (w 0) 59 58 = 1 then none else
    let st := fld (w 1) 63 32
    let aq := fld (w 1) 31 0
    let bk := fld (w 2) 63 32
    let me := fld (w 2) 31 16
    let x := s.parts
    let hot := decide (s.thermal.level = .throttle)
    if part = 15 then firstRef [
      need (x.others 8 (·.stream) ≤ st && x.others 8 (·.acq) ≤ aq && x.others 8 (·.bulk) ≤ bk) 0x0301,
      need (!(hot && (decide (x.streamTotal < st) || decide (x.acqTotal < aq) || decide (x.bulkTotal < bk)))) 0x0301]
    else firstRef [need (s.streamDemand part ≤ st && s.acqDemand part ≤ aq) 0x0301,
      need (x.others part (·.stream) + st ≤ x.streamTotal && x.others part (·.acq) + aq ≤ x.acqTotal
        && x.others part (·.bulk) + bk ≤ x.bulkTotal) 0x0301,
      need (!(hot && (decide ((s.pt part).stream < st) || decide ((s.pt part).acq < aq)))) 0x0301,
      need (s.memUsed part ≤ me && x.others part (·.memory) + me ≤ s.ident.units) 0x0306]
  waits _ _ := []
  eff s p :=
    let w := wordAt p.payload
    let part := fld (w 0) 63 60
    let set := fld (w 0) 59 58 == 0
    let t := if !set then s
      else if part = 15 then
        { s with parts := { s.parts with streamTotal := fld (w 1) 63 32, acqTotal := fld (w 1) 31 0, bulkTotal := fld (w 2) 63 32 } }
      else s.modPart part fun x => { x with
        stream := fld (w 1) 63 32, acq := fld (w 1) 31 0, bulk := fld (w 2) 63 32, memory := fld (w 2) 31 16 }
    { st := { t with free := t.free + 1 }, changed := set, reply := some (t.admitWords part), about := evRec 10 part }

/-! ## Die patches (R329, R374) -/

/-- Every partition that owns an element of the die is HELD, and the die is powered in HOLD or RUN (R374, R408). -/
def State.patchFree (s : State) (d : Nat) : Bool :=
  ((List.range 8).all fun p => !s.ownsOnDie p d || decide ((s.pt p).st = .held)) && decide (s.power.st = .run ∨ s.power.st = .hold)

/-- DIE_PATCH_APPLY: a pending die patch applies in the tick after the last such partition becomes HELD (R374). -/
def execDiePatchApply (die : Fin 4) (s : State) : Res :=
  if s.parts.patchWaits[die.val] ∧ s.patchFree die.val then
    let s := s.advance 1
    .next { s with parts := { s.parts with
      patchWaits := upd s.parts.patchWaits die fun _ => false, patchSince := upd s.parts.patchSince die fun _ => some s.now } }
  else .next s

/-- DIE_PATCH_END: the apply completes, the held converter writes may execute, and PATCH_LOAD ends (R374). A measurement of the
microengine, which stood still, goes on. -/
def execDiePatchEnd (die : Fin 4) (s : State) : Res :=
  match s.parts.patchSince[die.val] with
  | some t =>
    let s := { s with parts := { s.parts with patchSince := upd s.parts.patchSince die fun _ => none } }
    let s := s.modCal die.val fun x => { x with run := x.run.map fun r => { r with since := r.since + (s.now - max t r.since) } }
    match (atN s.units.stores (2 + die.val) {}).pendingPatch with
    | some img =>
      let s := s.patchApply img
      let s := { s with sec := { s.sec with patchSt := .ended, patchStatus := 0 } }
      match s.openOf 0x0E03 with
      | some o => .next (s.endLong o 0 14 (evRec 15 (2 + die.val) 0 die.val))
      | none => .next ((s.note (evRec 15 (2 + die.val) 0 die.val)).raise 14)
    | none => .next s
  | none => .next s

/-! ## Faults of the bridges and dies (R17, R361, R367) -/

/-- Every verdict of a line in this tick is Absent (R17): those of the discriminator words and of the estimator values that reach the hub
in it. -/
def State.tickAbsent (l : Fin 32) (s : State) : State :=
  let ws := (s.ln l.val).words.filter fun x => x.hub == s.now
  let vs := (s.es l.val).arriving.filter fun r => r.readable == s.now + 1
  let s := s.modLine l.val fun x => { x with words := x.words.filter fun y => y.hub != s.now }
  let s := s.modEst l.val fun e => { e with arriving := e.arriving.filter fun r => r.readable != s.now + 1 }
  let fast := ws.map fun (x : DiscWord) => (x.slot, x.win, s.now)
  let slow := vs.map fun (r : Request) => (r.val.slot, r.val.win, s.now)
  { s with readout := { s.readout with absent := s.readout.absent ++ fast ++ slow } }

/-- Die and direction of a bridge lane: cues go from the hub to the die, states and values the other way. -/
def laneSide : BridgeLane → Nat × Bool
  | .cue q => (dieOf (seqCluster q.val), false)
  | .state l => (dieOf (lineCluster l.val), true)
  | .value l => (dieOf (lineCluster l.val), true)

/-- A parity error of a lane is recorded: a second in another tick within 1 µs wears the lane out (R367). -/
def State.parityAt (lane : BridgeLane) (s : State) : State :=
  let again := s.parts.parity.any fun x => x.1 == lane && decide (x.2 < s.now) && decide (s.now ≤ x.2 + 1000)
  let l := (lane, s.now) :: s.parts.parity.filter fun x => x.1 != lane && decide (s.now ≤ x.2 + 1000)
  { s with parts := { s.parts with
    parity := l, worn := if again && !s.parts.worn.contains lane then s.parts.worn ++ [lane] else s.parts.worn } }

/-- BRIDGE_PARITY_ERROR (R17), in tick now: on a cue lane the slots bound to its sequencer are muted from the next tick to
the shot boundary, the shot is Tainted and SEQ_STATUS reads code 7 (Table 3.17); on a state or value lane every verdict of the line
in this tick is Absent. The bridge of a disabled die is down (R32). -/
def execBridgeParityError (lane : BridgeLane) (s : State) : Res :=
  match lane with
  | .cue q =>
    if !s.hasCluster (seqCluster q.val) then .next s else
    let s := if (s.sq q.val).inShot then
        let s := s.hearCluster (s.now + 1) (seqCluster q.val)
        let s := (s.sq q.val).active.toList.foldl (fun s b => s.modSlot b fun x => { x with parity := true }) s
        s.modSeq q.val fun c => { c with f := setFlag c.f flagTN true }
      else s
    let s := s.modSeq q.val fun c => { c with fault := 7, faultPc := c.pc }
    .next ((s.parityAt lane).troubleOwned (dieWord (dieOf (seqCluster q.val))) 0 (s.seqOwner q.val))
  | .state l | .value l =>
    if !s.hasCluster (lineCluster l.val) then .next s else
    .next (((s.tickAbsent l).parityAt lane).setTrouble (dieWord (dieOf (lineCluster l.val))) 0)

/-- Every output of a die is fault-muted until power-on reset, DIE_FAILED is set and a record written (Table 15.1). -/
def State.failDie (d : Fin 4) (s : State) : State :=
  let outs := (List.range 96).filter fun o => outDie o == d.val
  let s := outs.foldl (fun s o => s.muting o fun x => { x with faultMute := true, failed := true }) s
  let s := { s with parts := { s.parts with dieFailed := upd s.parts.dieFailed d fun _ => true } }
  ((s.setTrouble (dieWord d.val) 8).note (evRec 15 0 0x600 d.val)).raise 8

/-- A lane of a bridge is out of service; the third in one direction makes the bridge an uncovered fault (R367). -/
def State.retireLane (die : Fin 4) (toHub : Bool) (s : State) : State :=
  let n := (if toHub then s.parts.lanesUp[die.val] else s.parts.lanesDown[die.val]) + 1
  let s := if toHub then { s with parts := { s.parts with lanesUp := upd s.parts.lanesUp die fun _ => n } }
    else { s with parts := { s.parts with lanesDown := upd s.parts.lanesDown die fun _ => n } }
  let s := (s.setTrouble (dieWord die.val) 1).note (evRec 15 n 0x601 die.val)
  if n = 3 then s.failDie die else s

/-- BRIDGE_LANE_RETIRE (R367): the first lane of a die and direction that 2 parity errors within 1 µs have worn out is retired and
its traffic moves to a spare lane. -/
def execBridgeLaneRetire (die : Fin 4) (toHub : Bool) (s : State) : Res :=
  match s.parts.worn.find? fun x => laneSide x == (die.val, toHub) with
  | some x =>
    let s := { s with parts := { s.parts with
      worn := s.parts.worn.erase x, parity := s.parts.parity.filter fun y => y.1 != x } }
    .next (s.retireLane die toHub)
  | none => .next s

/-- UNCOVERED_DIE_FAULT (R361, Table 15.1). -/
def execUncoveredDieFault (die : Fin 4) (s : State) : Res :=
  if !s.hasDie die.val ∨ s.parts.dieFailed[die.val] then .next s else .next (s.failDie die)

end Sys2Proof.Machine
end

