-- ==== Sys2Proof/Machine/Views.lean ====
section
/-!
DEFINITION. Machine/Views.lean: what the outside reads without a command: the Keeper mailbox (Table 19.5), the status block
(Table 19.4), the version registers (Table 13.9), and BAR0 reads (R429, R430).
-/
namespace Sys2Proof.Machine

/-! ## Keeper mailbox (Table 19.5) -/

/-- Word K0. -/
def State.mailbox0 (s : State) : Word :=
  let u := s.units
  let tok := match u.token with
    | some .cua => 0
    | some .cub => 1
    | none => 2
  orAll [put 63 60 s.boot.phase, put 59 58 tok, putB 57 u.a.hbMissing, putB 56 u.b.hbMissing, putB 55 (u.a.st == .fenced),
    putB 54 (u.b.st == .fenced), putB 53 u.a.synced, putB 52 u.b.synced,
    orAll ((List.range 3).map fun v => putB (49 + v) (atN u.voters v false)), put 48 46 s.boot.resetCause,
    put 45 44 s.power.st.code, put 43 42 s.sec.lifecycle.code, put 31 0 u.decisions.toNat]

/-- Word K1. -/
def State.mailbox1 (s : State) : Word := put 63 32 s.units.refusedClaims.toNat ||| put 31 16 s.boot.failCause.toNat

/-- Word K3. -/
def State.mailbox3 (s : State) : Word :=
  orAll [put 63 48 0x0512, put 47 46 s.ident.tier.code, put 45 38 s.ident.stepping.toNat, put 37 32 s.boot.straps.toNat]

/-- Words K0 to K3. -/
def State.mailbox (s : State) : Words := [s.mailbox0, s.mailbox1, s.ident.serial, s.mailbox3]

/-- The identity block of the debug queue area (Table 17.13). -/
def State.identityBlock (s : State) : Words := [s.ident.serial, s.mailbox3, put 1 0 s.sec.lifecycle.code]

/-! ## Status block (Table 19.4) -/

/-- Word S0 of the physical function. -/
def State.status0 (s : State) : Word :=
  orAll [putB 63 true, put 62 61 s.power.st.code, put 60 59 s.sec.lifecycle.code, put 58 57 s.thermal.level.code, put 56 54 s.thermal.step,
    putB 53 (s.time.pll == .locked), putB 52 (s.time.pll == .holdover), putB 51 s.time.epochValid, put 50 50 (unitCode s.unit),
    putB 49 s.units.standbyOk, putB 48 (s.boot.phase == 8), put 31 0 s.time.epochCount.toNat]

/-- Words S0 to S3; until READY the block reads zero (R430). -/
def State.statusBlock (s : State) : Words :=
  if s.boot.phase = 8 then
    [s.status0, s.lastSeq, put 63 32 s.host.accept.toNat ||| put 31 0 s.time.markSeq.toNat,
      put 63 32 s.archive.inUse.seq.toNat ||| putB 31 s.boot.meminit]
  else [0, 0, 0, 0]

/-- Words S0 and S1 as a virtual function reads them: S0 carries the state of its partition (Table 19.3). -/
def State.statusVf (s : State) (f : Nat) : Words :=
  if s.boot.phase = 8 then [s.status0 ||| put 47 46 (s.pt (f - 1)).st.code, s.lastSeq] else [0, 0]

/-! ## Version registers (Tables 13.7 and 13.9) -/

/-- Version register `i`: a microstore, the boot slot in use at index 9, zero beyond. -/
def State.version (s : State) (i : Nat) : Word :=
  if i < 9 then
    let m := atN s.units.stores i {}
    let n := (m.map.toList.filter (·.valid)).length
    orAll [put 63 48 m.romRel.toNat, put 47 32 m.patchRel.toNat, put 31 25 n, putB 24 m.signed, putB 23 m.pendingPatch.isSome,
      put 15 0 m.digest16.toNat]
  else if i = 9 then put 63 48 s.activeUnit.release.toNat
  else 0

/-! ## Pins (R432, R435) -/

/-- The level that the device drives on a pin, TIO0–TIO7 then chassis trigger lines 0–7; `none` where its driver is off. A pulse drives
the active level; a TIO pin that is an output drives its inactive level at all other times (R432). EXTEST and CLAMP drive the preloaded
value, and HIGHZ none (R436). -/
def State.pinDrive (s : State) (i : Nat) : Option Bool :=
  let scan := s.boot.jtag.preload
  match s.boot.jtag.test with
  | .highz => none
  | .extest | .clamp => if bitAt scan (Config.scanCell i).2 then some (bitAt scan (Config.scanCell i).1) else none
  | .none =>
    let on := (atN s.synth.pulse i none).isSome
    let x : TrigIn := atN s.acq.input (if i < 8 then 11 + i else i - 8) {}
    if on || (decide (i < 8) && x.dir != 0) then some (on != x.actlow) else none

/-- What the JTAG instruction register captures: 0b0000_0r01 (R435). -/
def State.irCapture (s : State) : BitVec 8 := if s.boot.jtag.refused then 0x05 else 0x01

/-! ## The functions (R428) -/

/-- Device ID of a function; all carry class code 0x118000. -/
def deviceId (f : Nat) : BitVec 16 := if f = 0 then 0x0512 else 0x0513
/-- Bytes of a function's BAR0. -/
def bar0Bytes (f : Nat) : Nat := if f = 0 then 2 ^ 26 else 2 ^ 23

/-! ## BAR0 reads (R429, R430) -/

/-- Word `w` of the descriptor of a queue (Table 12.1). -/
def Queue.word (q : Queue) (w : Nat) : Word :=
  if w = 0 then q.d0 else if w = 1 then q.d1 else if w = 2 then q.d2
  else orAll [put 63 62 q.qstate.code, put 61 56 q.brk.toNat, put 55 44 q.sqHead.toNat, put 43 32 q.cqTail.toNat, put 31 16 q.refused.toNat]

/-- The `n` mask or pending bits from index `base` as one word. -/
def bitsWord (v : Vector Bool 2048) (base n : Nat) : Word := orAll ((List.range n).map fun i => putB i (atN v (base + i) false))

/-- The queues of a function in ascending order (R289). -/
def State.funcQueues (s : State) (f : Nat) : List Nat := (s.host.queueFunc.filter fun e => e.2 == f).map (·.1)

/-- The 64-bit word that a function reads at a byte offset of its BAR0 (Tables 19.2 and 19.3). An unmapped offset reads zero;
`none` where the function completes no access, in D3hot and without a link. The address and data words of the MSI-X table,
which configuration software writes, are not state of the manual and read as the vector's control word alone. -/
def State.bar0Read (s : State) (f off : Nat) : Option Word :=
  if !s.boot.linkUp || atN s.boot.d3hot f false || (f != 0 && !s.boot.vfEnable) then none else
  let q (n : Nat) : Queue := s.queue (.queue (Fin.ofNat 32768 n))
  let bell (n : Nat) : Word := put 43 32 (q n).cqHead.toNat ||| put 11 0 (q n).sqTail.toNat
  let i := off / 8
  if off % 8 ≠ 0 ∨ bar0Bytes f ≤ off then some 0 else
  if f = 0 then
    if off < 0x40000 then some (bell i)
    else if 0x400000 ≤ off ∧ off < 0x500000 then some ((q ((off - 0x400000) / 32)).word (i % 4))
    else if 0x800000 ≤ off ∧ off < 0x800020 then some (wordAt s.statusBlock (i % 4))
    else if 0x801000 ≤ off ∧ off < 0x801080 then some (atN s.trouble (i % 16) 0)
    else if 0x802000 ≤ off ∧ off < 0x802020 then some (wordAt s.mailbox (i % 4))
    else if 0x803000 ≤ off ∧ off < 0x803080 then some (s.version (i % 16))
    else if 0x1000000 ≤ off ∧ off < 0x1004000 then
      some (if i % 2 = 1 then putB 32 (atN s.host.msixMask ((off - 0x1000000) / 16) true) else 0)
    else if 0x1008000 ≤ off ∧ off < 0x1008080 then some (bitsWord s.host.msixPend (64 * ((off - 0x1008000) / 8)) 64)
    else some 0
  else
    let l := s.funcQueues f
    if off < 0x400000 then some (match l[i]? with
      | some n => bell n
      | none => 0)
    else if 0x400000 ≤ off ∧ off < 0x600000 then some (match l[(off - 0x400000) / 32]? with
      | some n => (q n).word (i % 4)
      | none => 0)
    else if 0x600000 ≤ off ∧ off < 0x600010 then some (wordAt (s.statusVf f) (i % 2))
    else if 0x700000 ≤ off ∧ off < 0x700800 then
      some (if i % 2 = 1 then putB 32 (atN s.host.msixMask (vecIndex f ((off - 0x700000) / 16)) true) else 0)
    else if 0x701000 ≤ off ∧ off < 0x701010 then some (bitsWord s.host.msixPend (vecIndex f (64 * ((off - 0x701000) / 8))) 64)
    else some 0

end Sys2Proof.Machine
end

