-- ==== Sys2Proof/Machine/ResetOps.lean ====
section
/-!
DEFINITION. Machine/ResetOps.lean: what a reset source restarts and keeps (R303, R437, Table 19.9), and entry to DORMANT
(R408).
-/
namespace Sys2Proof.Machine

/-! ## What is kept -/

/-- The Archive after a restart: a store that ran leaves the copy it was writing unreadable (R386), the staged profile is lost
(R383). -/
def Archive.rest (a : Archive) : Archive :=
  let toY := decide (a.y.seq.toNat < a.x.seq.toNat) || (a.x.seq == a.y.seq && !a.useY)
  let a := if a.st ≠ .running ∨ a.snapshot.isNone then a
    else if toY then { a with y := { a.y with valid := false } } else { a with x := { a.x with valid := false } }
  { a with staged := [], stagedLen := 0, st := .idle, snapshot := none }

/-- The copy in force at a start (R386): of those that verify, the one with the higher sequence number. -/
def Archive.choose (a : Archive) : Option Bool :=
  match a.x.valid, a.y.valid with
  | true, true => some (decide (a.x.seq.toNat < a.y.seq.toNat))
  | true, false => some false
  | false, true => some true
  | false, false => none

/-- The store image in force at a start; neither copy verifying, an empty one. -/
def Archive.atStart (a : Archive) : StoreImage :=
  match a.choose with
  | some true => a.y
  | some false => a.x
  | none => {}

/-- A spare core in service for a failed core stays so until power-on reset (R128). -/
def SpareUse.kept (u : SpareUse) : SpareUse :=
  match u with
  | .starting o _ => .serving o
  | .serving o => .serving o
  | _ => .free

/-- The output that a spare core serves. -/
def SpareUse.serves (u : SpareUse) (o : Nat) : Bool :=
  match u with
  | .serving n => n == o
  | _ => false

/-- An output after a restart: its failed core and its place on the spare are kept (R128). -/
def State.outKept (s : State) (o : Nat) (x : Output) : Output :=
  let z : Output := {}
  { z with
    coreFailed := x.coreFailed, failed := x.failed, faultMute := x.failed
    onSpare := ((atN s.synth.spare (outCluster o) .free).kept).serves o }

/-- A line after a restart (R128, R167). -/
def State.lineKept (s : State) (l : Nat) (x : Line) : Line :=
  let z : Line := {}
  { z with
    coreFailed := x.coreFailed, failed := x.failed, onSpare := ((atN s.readout.spare (lineCluster l) .free).kept).serves l }

/-- A sequencer after a restart: a retired pair, its place on the spare pair and a FAILED sequencer are kept (R94). -/
def Seq.kept (q : Seq) : Seq :=
  let z : Seq := {}
  { z with retired := q.retired, onSpare := q.onSpare, mode := if q.mode = .failed then .failed else .idle }

/-- A sensor after a restart: its reading is the die's temperature; a failed one stays failed where `r` holds (R415). -/
def Sensor.kept (r : Bool) (x : Sensor) : Sensor :=
  let z : Sensor := {}
  { z with reading := x.reading, raw := x.raw, failedAt := if r && x.failedAt.isSome then some 0 else none }

/-! ## Restart (Table 19.9) -/

/-- The device restarts. `keeper`: the Keeper kept its supply, so the trouble words and the voters are kept (R13, R437).
`soft`: not a power-on reset, so the Keeper's counts and the elements retired until power-on reset are kept as well. Start-up
begins at `phase`. Device ticks count from here. The Archive, the part's identity, the lifecycle state, and what the device has
written to host memory are always kept. -/
def State.restart (keeper soft : Bool) (cause phase : Nat) (s : State) : State :=
  let z : State := {}
  let img := s.archive.rest.atStart
  let pinned := soft && s.thermal.pinned
  { z with
    pending := s.pending
    ident := s.ident
    host := { z.host with posted := s.host.posted.filter (fun c => c.source != .debugPort), messages := s.host.messages }
    units := { z.units with
      voters := if keeper then s.units.voters else z.units.voters
      decisions := if soft then s.units.decisions else 0
      refusedClaims := if soft then s.units.refusedClaims else 0
      stores := s.units.stores.map fun (m : Microstore) => ({ romRel := m.romRel } : Microstore) }
    parts := { z.parts with
      part := upd z.parts.part 0 fun p => { p with memory := s.ident.units }
      lanesDown := if soft then s.parts.lanesDown else z.parts.lanesDown
      lanesUp := if soft then s.parts.lanesUp else z.parts.lanesUp
      dieFailed := if soft then s.parts.dieFailed else z.parts.dieFailed }
    archive := s.archive.rest
    pages := s.pages
    ledger := { z.ledger with checkpoints := s.ledger.checkpoints }
    trouble := if keeper then s.trouble else z.trouble
    sec := { z.sec with
      lifecycle := s.sec.lifecycle, purged := s.sec.purged, identity := s.sec.identity, keysErased := s.sec.keysErased
      owner := img.owner, floor := img.floor }
    boot := { z.boot with
      phase := phase, resetCause := cause, strapBalls := s.boot.strapBalls, straps := s.boot.straps, perst := s.boot.perst
      hot := decide (s.thermal.level = .shutdown ∧ 1520 ≤ s.hottest.2) }
    seqs := if soft then { z.seqs with seq := s.seqs.seq.map Seq.kept, spare := s.seqs.spare } else z.seqs
    synth := if soft then { z.synth with
        out := Vector.ofFn fun o => s.outKept o.val s.synth.out[o.val]
        spare := s.synth.spare.map SpareUse.kept, spareFailed := s.synth.spareFailed } else z.synth
    readout := if soft then { z.readout with
        line := Vector.ofFn fun l => s.lineKept l.val s.readout.line[l.val]
        spare := s.readout.spare.map SpareUse.kept, spareFailed := s.readout.spareFailed } else z.readout
    thermal := { z.thermal with
      sensor := s.thermal.sensor.map (Sensor.kept soft), pinned := pinned
      level := if pinned then .throttle else .normal, step := if pinned then 5 else 0 }
    free := s.free }

/-- Start-up after a DORMANT wake begins with the Keeper's start (Table 17.8, R411). -/
def State.wake (cause : Nat) (s : State) : State := s.restart true true cause 1

/-- Entry to DORMANT: every session is closed, and every block but the Keeper and the Archive interface loses its state (R406,
R408). -/
def State.sleep (s : State) : State :=
  let tick := s.tick
  let s := s.restart true true s.boot.resetCause 10
  { s with power := { s.power with st := .dormant, lastTick := tick }, boot := { s.boot with hot := false } }

/-! ## Function resets (R303) -/

/-- The reset of the functions that `f` names: their sessions are closed and their queues disabled; packets that have not been
accepted are gone; accepted commands run on without a completion (R296, R303). -/
def State.resetFuncs (f : Nat → Bool) (s : State) : State :=
  let mine (src : Source) : Bool := match src with
    | .queue _ => f (s.funcOf src)
    | _ => false
  let qs := (s.host.queues.map (·.1)).filter fun q => mine (queueSrc q)
  let s := s.closeSessions fun x => f x.func
  let h := { s.host with
    fetched := s.host.fetched.filter fun x => !mine x.packet.source
    waiting := s.host.waiting.filter fun x => !mine x.packet.source
    open_ := s.host.open_.map fun o => if mine o.packet.source then { o with silent := true } else o }
  let cur := match s.desk.cur with
    | some { job := .packet x, accept := a, checks := n, abandons := m } =>
      if !mine x.packet.source then s.desk.cur
      else if a.isNone then none else some { job := .packet { x with silent := true }, accept := a, checks := n, abandons := m }
    | c => c
  let d := { s.desk with cur := cur, mirror := s.desk.mirror.filter fun x => !mine x.packet.source }
  let s := qs.foldl (fun s q => s.setQState (queueSrc q) .disabled) { s with host := h, desk := d }
  { s with host := { s.host with queues := qs.foldl (fun m q => Sparse.set {} m q {}) s.host.queues } }

end Sys2Proof.Machine
end

