-- ==== Sys2Proof/Machine/PowerCmds.lean ====
section
/-!
DEFINITION. Machine/PowerCmds.lean: POWER_STATE and its steps (R408 to R411), and how it leaves a thermal shutdown (R424).
-/
namespace Sys2Proof.Machine

/-- The power state of a code (Table 17.9). -/
def powerOf (n : Nat) : Power := if n = 0 then .run else if n = 1 then .hold else if n = 2 then .standby else .dormant

/-- The next state of the chain toward a target (R409). -/
def Power.toward (p t : Power) : Power := if p.code < t.code then powerOf (p.code + 1) else powerOf (p.code - 1)

/-- Leaving a shutdown (R424): the level becomes WARN, or NORMAL below the WARN release threshold; the thermal mute clears. A
device held at step 5 by R416 returns to THROTTLE. -/
def State.leaveShutdown (s : State) : State :=
  if s.thermal.level ≠ .shutdown then s else
  let s := s.mutingAll fun x => { x with thermal := false }
  let s := { s with thermal := { s.thermal with shutAt := none, dieDown := Vector.replicate 4 false, fast := 0 } }
  if s.thermal.pinned then (s.setStep 5).levelLeave .throttle
  else (s.setStep 0).levelLeave (if s.hottest.2 < 16 * ((s.thermal.warn : Int) - 3) then .normal else .warn)

/-- A step begins (Table 17.8). It aborts a store and ends calibration runs (R356, R387). Out of RUN, every sequencer is halted
as PARTITION_HOLD halts it; toward DORMANT, every ON channel is set off. -/
def State.powerStep (acc : BitVec 32) (s : State) : State :=
  let next := s.power.st.toward s.power.target
  let s := (s.calStopAll 0x0703).abortStore
  let s := { s with power := { s.power with step := some next } }
  match s.power.st, next with
  | .run, _ => (List.range 256).foldl (fun s q => s.haltSeq q s.power.abortMode acc) s
  | .standby, .dormant => s.allChansOff
  | .standby, _ => s.leaveShutdown
  | _, _ => s

/-- POWER_STATE starts the steps toward its target (R409). -/
def State.powerGo (p : Packet) (s : State) : State :=
  let w := wordAt p.payload 0
  let t := fld w 58 35
  let s := { s with power := { s.power with
    target := powerOf (fld w 61 60), abortMode := bitAt w 59, timeout := t
    timeoutAt := if t = 0 ∨ bitAt w 59 then none else some (s.now + 1000 * t) } }
  s.powerStep s.host.accept

/-- The reply of POWER_STATE (Table 17.9). -/
def State.powerWords (s : State) : Words :=
  [orAll [put 63 62 s.power.st.code, putB 61 s.power.step.isSome, put 60 59 (if s.power.step.isSome then s.power.target.code else 0)],
   s.power.lastTick]

/-- What a thermal shutdown lets POWER_STATE do (R424): RUN once the device reads STANDBY and is below 95 °C, DORMANT from
STANDBY; a request for the present STANDBY changes nothing. -/
def State.shutdownAllows (s : State) (t : Power) : Bool :=
  if s.thermal.level ≠ .shutdown then true
  else decide (s.power.st = .standby) && (match t with
    | .run => decide (s.hottest.2 < 1520)
    | .hold => false
    | .standby => true
    | .dormant => true)

/-- POWER_STATE (R409, R410, Table 17.9). -/
def powerStateCmd : Command where
  opcode := 0x0F01
  pf := true
  vf := false
  int := true
  dbg := none
  fmt _ p :=
    let w := wordAt p.payload 0
    firstRef [needLen p 1, needOk 0 (fld w 63 62 ≤ 1), needZero p 0 (mask 34 0)]
  maxReply p := if fld (wordAt p.payload 0) 63 62 = 1 then 2 else 0
  chk s p :=
    let w := wordAt p.payload 0
    need (fld w 63 62 != 0 || s.shutdownAllows (powerOf (fld w 61 60))) 0x0403
  waits s p :=
    if fld (wordAt p.payload 0) 63 62 = 0 then [{ item := .power, detail := 3, busy := s.power.step.isSome }] else []
  eff s p :=
    let w := wordAt p.payload 0
    if fld w 63 62 = 1 then { st := s, changed := false, reply := some s.powerWords }
    else if powerOf (fld w 61 60) = s.power.st then { st := s, changed := false }
    else { st := s.powerGo p, long := true, about := evRec 15 0 0x510 }

/-- Some sequencer is armed or in a shot, or restores on its spare. -/
def State.seqsBusy (s : State) : Bool := s.anySeqLive || s.seqs.seq.toList.any fun c => c.restore.isSome

/-- Each recorded command-mute state of the outputs is restored (R408). -/
def State.unpark (s : State) : State :=
  (List.range 96).foldl (fun s o => s.modOut o fun x =>
    if atN s.power.parked o true then (if x.cmdMute then x else x.mute s.now false s.tick)
    else if x.core = .on then ({ x with cmdMute := false } : Output).release x.muted s.now else x) s.hearEvery

/-- The end of a POWER_STATE: its record, vectors 12 and 14 (R409). -/
def State.powerEnd (s : State) : State :=
  match s.openOf 0x0F01 with
  | some o => s.endLong o 0 14 (evRec 15 0 0x511)
  | none => s

/-- A step has ended in state `n`. The chain goes on, unless its target is reached or a POWER_STATE waits (R410). -/
def State.powerReached (n : Power) (s : State) : State :=
  let s := { s with power := { s.power with step := none, timeoutAt := none } }
  let s := s.powerAt n
  let waits := s.host.held.any fun h => h.items.contains .power
  let s := if n = s.power.target ∨ waits then s.powerEnd else s.powerStep s.host.accept
  if n = .run ∧ s.boot.phase = 14 then { s with boot := { s.boot with phase := 5, hot := false } } else s

/-- POWER_STEP_END: a step of Table 17.8 ends. Out of RUN, with sequencers still live, the TIMEOUT aborts them with code 8; the
step ends when every one is IDLE, and the outputs are parked and the bias queues stopped. Into DORMANT, it ends when every
channel is OFF: the records, the checkpoint, and the loss of state. -/
def execPowerStepEnd (s : State) : Res :=
  match s.power.step with
  | none => .next s
  | some n =>
    match s.power.st, n with
    | .run, _ =>
      if s.seqsBusy then
        match s.power.timeoutAt with
        | some t =>
          let s := s.runTo t
          let s := { s with power := { s.power with timeoutAt := none } }
          .next ((List.range 256).foldl (fun s q => s.haltSeq q true s.host.accept) s)
        | none => .next s
      else
        let s := s.park (List.range 96)
        let l := s.bias.chan.map fun (c : Chan) => ({ c with run := .idle } : Chan)
        let events := s.time.events.filter fun e => match e.what with
          | .biasQueue _ => false
          | _ => true
        let s := { s with bias := { s.bias with chan := l }, time := { s.time with events := events } }
        .next (s.powerReached n)
    | .standby, .dormant =>
      if s.bias.chan.toList.all (fun c => decide (c.st = .off)) then
        let s := { s with power := { s.power with step := none } }
        .next (((s.powerAt .dormant).powerEnd.checkpoint).sleep)
      else .next s
    | .standby, _ =>
      let s := { s with boot := { s.boot with calCores := 0 } }
      .next (s.powerReached n)
    | .hold, .run => .next (s.unpark.powerReached n)
    | _, _ => .next (s.powerReached n)

end Sys2Proof.Machine
end

