-- ==== Sys2Proof/Machine/SecCmds.lean ====
section
/-!
DEFINITION. Machine/SecCmds.lean: chapter 17: ATTEST, DEBUG_UNLOCK, PATCH_LOAD and LIFECYCLE_ADVANCE, with their ends, time-outs
and the configuration measurement (R395 to R405).
-/
namespace Sys2Proof.Machine

/-! ## ATTEST (R403, Table 17.5) -/

/-- M2: SM3 over version registers 0 to 8, each in 8 bytes (R403). -/
def State.m2 (s : State) : Nat := sm3 (wordsBytes ((List.range 9).map s.version))

/-- The boot release that a unit runs; 0 if FAILED (Table 17.5). -/
def CtlUnit.running (u : CtlUnit) : Nat := if u.st = .failed then 0 else u.release.toNat

/-- Words W0 to W30 of the report. -/
def State.reportBody (s : State) (nonce : Words) : Words :=
  let dbg := (s.sessionsOf 9).foldl (fun m x => max m x.level) 0
  [orAll [put 63 48 0x0512, put 47 46 s.ident.tier.code, put 45 44 s.sec.lifecycle.code, putB 43 s.sec.purged, put 42 41 s.power.st.code,
     put 40 39 dbg, put 38 38 (unitCode s.unit), putB 37 s.units.standbyOk], s.ident.serial] ++ nonce ++
  [s.tick, put 63 32 s.time.almanac.toNat ||| put 31 0 s.sec.floor.toNat, put 63 32 s.units.a.running ||| put 31 0 s.units.b.running] ++
  words32 s.activeUnit.digest.toNat ++ words32 s.sec.m1.toNat ++ words32 s.m2 ++ words32 s.sec.m3.toNat ++
  [s.sec.configTick, s.lastSeq] ++ words32 s.ledger.chain

/-- ATTEST (R403). The signature by the identity key, whose private half no one reads, is a pair of values the manual does not
state. -/
def attestCmd : Command where
  opcode := 0x0E01
  pf := true
  vf := true
  int := false
  dbg := some 0
  fmt _ p :=
    let m := fld (wordAt p.payload 0) 63 62
    firstRef [need (p.payload ≠ []) 0x0104 2, needOk 0 (m ≤ 1), needLen p (if m = 0 then 5 else 1), needZero p 0 (mask 61 0)]
  maxReply p := if fld (wordAt p.payload 0) 63 62 = 0 then 39 else 8
  chk _ _ := none
  waits _ _ := []
  eff s p :=
    if fld (wordAt p.payload 0) 63 62 = 1 then
      let k := s.sec.identity.getD {}
      { st := s, changed := false, reply := some (words32 k.x ++ words32 k.y) }
    else
      { st := { s with free := s.free + 2 }, changed := false
        reply := some (s.reportBody ((p.payload.drop 1).take 4) ++ words32 (Config.free256 s.free).toNat
          ++ words32 (Config.free256 (s.free + 1)).toNat) }

/-- CONFIGURATION_MEASUREMENT: every 60 s M3 is taken over the ACTIVE unit's configuration copy, whose layout the manual does
not give: a value it does not state, with its tick (R403). -/
def execConfigurationMeasurement (s : State) : Res :=
  if s.units.token.isSome ∧ 8 = s.boot.phase then
    let s := s.runTo (s.sec.configAt + 60000000000)
    .next { s with free := s.free + 1, sec := { s.sec with m3 := Config.free256 s.free, configTick := s.tick, configAt := s.now } }
  else .next s

/-! ## DEBUG_UNLOCK (R404, R405, Tables 17.6 and 17.10) -/

/-- The highest level that Table 17.10 lets a session hold; D0 where start-up has failed (R443). -/
def State.levelMax (s : State) : Nat :=
  if s.power.st = .dormant ∨ s.boot.phase = 15 then 0 else
  match s.sec.lifecycle with
  | .blank => 3
  | .provisioned => 2
  | .deployed => 2
  | .retired => if s.sec.purged then 3 else 1

/-- Table 17.10 calls for the owner key. -/
def State.ownerLevel (s : State) (n : Nat) : Bool :=
  n == 2 && (s.sec.lifecycle == .provisioned || s.sec.lifecycle == .deployed)

/-- Set the level of a session. -/
def State.setLevel (h : BitVec 32) (n : Nat) (s : State) : State :=
  let l := s.host.sessions.map fun (x : Session) => if handleOf x.func x.serial = h then { x with level := n } else x
  { s with host := { s.host with sessions := l } }

/-- The reply of DEBUG_UNLOCK (Table 17.6). -/
def State.unlockWords (s : State) (p : Packet) (c : Option (BitVec 256)) : Words :=
  orAll [put 63 62 (s.levelOf p), put 61 60 s.levelMax, putB 59 c.isSome, put 57 50 s.sec.fails] ::
    (match c with
     | some v => words32 v.toNat ++ [s.ident.serial]
     | none => [])

/-- The message that a response signs (R405). -/
def State.challengeMsg (s : State) (c : Challenge) : List Nat :=
  beBytes 32 c.value.toNat ++ leBytes 8 s.ident.serial.toNat ++ [c.level] ++ leBytes 4 c.handle.toNat

/-- A response answers the live challenge: its session, its level, and a signature by the owner key. -/
def State.responseOk (s : State) (p : Packet) : Bool :=
  match s.sec.challenge, s.sec.owner with
  | some c, some k =>
    c.handle == p.handle && c.level == fld (wordAt p.payload 0) 61 60 &&
      sm2Verify k.x k.y (num32 p.payload 1) (num32 p.payload 5) (s.challengeMsg c)
  | _, _ => false

/-- A failed response (R405): it is counted, and the third in a row starts the lock-out; a record of the refusal. -/
def State.unlockFail (p : Packet) (s : State) : State :=
  let n := s.sec.fails + 1
  let s := { s with sec := { s.sec with challenge := none, fails := n, lockoutAt := if 3 ≤ n then some s.now else s.sec.lockoutAt } }
  s.note (s.cmdRec 2 0x0E02 p s.host.accept 0x0604 {})

/-- DEBUG_UNLOCK (R405). With CHECK = 1 the signature of a response is one of the checks (R299), and no failure is counted. -/
def debugUnlockCmd : Command where
  opcode := 0x0E02
  pf := false
  vf := false
  int := false
  dbg := some 0
  fmt _ p :=
    let w := wordAt p.payload 0
    firstRef [need (p.payload ≠ []) 0x0104 2, needLen p (if fld w 63 62 = 1 then 9 else 1), needZero p 0 (mask 59 0),
      needOk 0 (fld w 63 62 != 3 || fld w 61 60 == 0)]
  maxReply _ := 6
  chk s p :=
    let w := wordAt p.payload 0
    let a := fld w 63 62
    let n := fld w 61 60
    firstRef [need (2 ≤ a || s.sec.lockoutAt.isNone) 0x0403, need (2 ≤ a || n ≤ s.levelMax) 0x0206,
      need (a != 2 || n ≤ s.levelOf p) 0x0403, if p.check && a == 1 then need (s.responseOk p) 0x0604 else none]
  waits _ _ := []
  eff s p :=
    let w := wordAt p.payload 0
    let n := fld w 61 60
    let grant (s : State) : Effect :=
      let t := (s.setLevel p.handle (max n (s.levelOf p))).raise 14
      { st := t, reply := some (t.unlockWords p none), about := evRec 15 0 (BitVec.ofNat 32 (0x520 + n)) }
    match fld w 63 62 with
    | 0 =>
      if s.ownerLevel n then
        let v := Config.free256 s.free
        let t := { s with free := s.free + 1, sec := { s.sec with
          challenge := some { value := v, handle := p.handle, level := n, issuedAt := s.now } } }
        { st := t, reply := some (t.unlockWords p (some v)), about := evRec 15 0 0x524 }
      else grant s
    | 1 =>
      if s.responseOk p then grant { s with sec := { s.sec with challenge := none, fails := 0 } }
      else { st := s.unlockFail p, status := 0x0604, changed := false }
    | 2 =>
      let t := s.setLevel p.handle n
      { st := t, reply := some (t.unlockWords p none), about := evRec 15 0 (BitVec.ofNat 32 (0x528 + n)) }
    | _ => { st := s, changed := false, reply := some (s.unlockWords p none) }

/-- DEBUG_CHALLENGE_EXPIRY: 60 s after its issue (R405). -/
def execDebugChallengeExpiry (s : State) : Res :=
  match s.sec.challenge with
  | some c =>
    let s := s.runTo (c.issuedAt + 60000000000)
    .next { s with sec := { s.sec with challenge := none } }
  | none => .next s

/-- DEBUG_LOCKOUT_END: 60 s after the third failure (R405). -/
def execDebugLockoutEnd (s : State) : Res :=
  match s.sec.lockoutAt with
  | some t =>
    let s := s.runTo (t + 60000000000)
    .next { s with sec := { s.sec with lockoutAt := none, fails := 0 } }
  | none => .next s

/-! ## Microstore images (Table 17.3, R315 to R317, R328) -/

/-- Field `[hi:lo]` of a microword. -/
def mw (w : BitVec 160) (hi lo : Nat) : Nat := (w.toNat >>> lo) % 2 ^ (hi + 1 - lo)

/-- The number of ones in bits `[lo + 39:lo]`. -/
def onesIn (w : BitVec 160) (lo : Nat) : Nat := ((List.range 40).filter fun i => w.toNat.testBit (lo + i)).length

/-- An operand code is defined (R316). -/
def operandOk (c : Nat) : Bool := c ≤ 42 || c == 63

/-- A Desk microword that PATCH_LOAD takes (R328): each quarter with odd parity, reserved fields zero, every code defined, and
NEXT with its low WAY bits zero (R315 to R317). -/
def deskWordOk (w : BitVec 160) : Bool :=
  let way := mw w 61 59
  let dest := mw w 85 80
  ([0, 40, 80, 120].all fun q => onesIn w q % 2 == 1)
    && mw w 38 36 == 0 && mw w 118 118 == 0 && mw w 158 132 == 0
    && mw w 35 34 != 3 && mw w 58 54 ≤ 13 && way ≤ 4 && mw w 66 62 ≤ 11 && mw w 88 86 ≤ 3 && mw w 105 103 ≤ 4 && mw w 123 120 ≤ 5
    && mw w 131 130 != 3
    && operandOk (mw w 72 67) && operandOk (mw w 78 73) && operandOk (mw w 96 91) && operandOk (mw w 102 97) && operandOk (mw w 111 106)
    && operandOk (mw w 117 112) && operandOk (mw w 129 124) && (dest ≤ 31 || dest == 63)
    && mw w 53 40 % 2 ^ way == 0

/-- Entries of a microstore that commands may load (Table 13.7). -/
def cmdEntries (i : Nat) : Nat := if i ≤ 1 then 56 else if i ≤ 5 then 16 else 8
/-- ROM blocks of a microstore (Table 13.7). -/
def romBlocks (i : Nat) : Nat := if i ≤ 1 then 256 else if i ≤ 5 then 128 else 64
/-- Image words of an entry's body. -/
def bodyWords (i : Nat) : Nat := if i ≤ 1 then 192 else 64

/-- The 64 microwords of an entry's body; the third word of a Desk microword holds its bits [159:128] in [31:0]. -/
def microwords (i : Nat) (l : Words) : List (BitVec 160) :=
  (List.range 64).map fun k =>
    if i ≤ 1 then BitVec.ofNat 160 ((wordAt l (3 * k)).toNat + (wordAt l (3 * k + 1)).toNat * 2 ^ 64 + (wordAt l (3 * k + 2)).toNat % 2 ^ 32 * 2 ^ 128)
    else BitVec.ofNat 160 (wordAt l k).toNat

/-- A kind-0 image: the refusal it meets first (R328), or the image. -/
def parsePatch (l : Words) (digest : Nat) : Except Nat PatchImage :=
  let h := wordAt l 0
  let i := fld h 47 44
  let n := fld h 43 37
  let b := bodyWords i
  let hdr (k : Nat) : Word := wordAt l (1 + k * (1 + b))
  let body (k : Nat) : Words := (l.drop (2 + k * (1 + b))).take b
  let es := (List.range n).map fun k => (fld (hdr k) 63 58, fld (hdr k) 57 50, microwords i (body k))
  let desk := decide (i ≤ 1)
  if l = [] then .error 0x0106
  else if i = 8 then .error 0x0202
  else if 8 < i ∨ fld h 36 0 ≠ 0 ∨ cmdEntries i < n ∨ l.length ≠ 1 + n * (1 + b) then .error 0x0106
  else if desk && es.any (fun e => 56 ≤ e.1 || 0xE0 ≤ e.2.1) then .error 0x0202
  else if es.any (fun e => decide (cmdEntries i ≤ e.1 ∨ romBlocks i ≤ e.2.1)) || (List.range n).any (fun k => fld (hdr k) 49 0 != 0) then .error 0x0106
  else if (es.map (·.1)).eraseDups.length ≠ n ∨ (es.map (·.2.1)).eraseDups.length ≠ n then .error 0x0106
  else if desk && (es.any (fun e => !e.2.2.all deskWordOk)
      || (List.range n).any fun k => (List.range 64).any fun j => fld (wordAt (body k) (3 * j + 2)) 63 32 != 0) then .error 0x0106
  else
    let bytes := beBytes 2 (digest / 2 ^ 240)
    .ok { index := i, release := BitVec.ofNat 16 (fld h 63 48), entries := es
          digest16 := BitVec.ofNat 16 (bytes.getD 0 0 + 256 * bytes.getD 1 0) }

/-! ## Signed images (Table 17.4, R402) -/

/-- A kind-1 or kind-2 image: the status it ends with, and the image where it passes. -/
def State.parseSigned (s : State) (kind : Nat) (l : Words) : Except Nat SignedImage :=
  let s0 := wordAt l 0
  let body := l.drop 14
  if l.length < 14 ∨ fld s0 31 30 ≠ kind ∨ fld s0 29 0 ≠ 0 ∨ fld (wordAt l 1) 31 0 ≠ 0 ∨ fld (wordAt l 1) 63 32 ≠ 8 * body.length then .error 0x0106
  else if sm3 (wordsBytes body) ≠ num32 l 2 then .error 0x0601
  else if !Config.firmwareSigned (l.take 14) then .error 0x0604
  else if s.sec.lifecycle = .deployed ∧ fld s0 63 48 < s.sec.floor.toNat then .error 0x0206
  else .ok { valid := true, release := BitVec.ofNat 16 (fld s0 63 48), compat := BitVec.ofNat 16 (fld s0 47 32), digest := num32 l 2 }

/-- Of two places, the second takes a new image: the first verifies, and the second does not or holds no higher release
(R402). -/
def second (a b : SignedImage) : Bool := a.valid && (!b.valid || decide (b.release.toNat ≤ a.release.toNat))

/-- A signed image is written: boot firmware to the slot that fails verification, else to the one with the lower release; a
privileged image to the older half (R402). -/
def Archive.writeSigned (kind : Nat) (img : SignedImage) (a : Archive) : Archive :=
  if kind = 1 then (if second a.slotA a.slotB then { a with slotB := img } else { a with slotA := img })
  else if second a.privA a.privB then { a with privB := img } else { a with privA := img }

/-! ## PATCH_LOAD (Table 17.2) -/

/-- STATE of the query. -/
def PatchState.code : PatchState → Nat
  | .idle => 0
  | .running => 1
  | .ended => 2
  | .refused => 3

/-- PATCH_LOAD (R402, Table 17.2). -/
def patchLoadCmd : Command where
  opcode := 0x0E03
  pf := true
  vf := false
  int := false
  dbg := none
  fmt _ p :=
    let w := wordAt p.payload 0
    let a := fld w 63 61
    let n := p.payload.length
    firstRef [need (p.payload ≠ []) 0x0104 2, needOk 0 (a ≤ 4),
      if a = 0 then need (2 ≤ n) 0x0104 3 else needLen p (if a = 1 then 6 else 1),
      needOk 0 (if a = 1 then fld w 60 59 ≤ 2 else fld w 60 59 == 0), needZero p 0 (mask 37 0),
      needOk 0 (a != 0 || 8 * (fld w 58 38 + (n - 1)) ≤ 2097152),
      if a = 1 then firstRef [needZero p 5 (mask 31 0), needOk 5 (fld (wordAt p.payload 5) 63 32 % 8 == 0 && fld (wordAt p.payload 5) 63 32 ≤ 2097152)]
      else none]
  maxReply p := if fld (wordAt p.payload 0) 63 61 = 3 then 3 else 0
  chk s p :=
    need (fld (wordAt p.payload 0) 63 61 != 4 ||
      (s.units.a.release == s.units.b.release && s.units.a.st != .failed && s.units.b.st != .failed)) 0x0403
  waits s p :=
    let a := fld (wordAt p.payload 0) 63 61
    if a = 1 ∨ a = 4 then [{ item := .image, detail := 2, busy := decide (s.sec.patchSt = .running) }] else []
  eff s p :=
    let w := wordAt p.payload 0
    let about := evRec 15 0 0x530
    match fld w 63 61 with
    | 0 =>
      let d := p.payload.drop 1
      { st := { s with sec := { s.sec with
          staging := Sparse.setList 0 s.sec.staging (fld w 58 38) d, stagedLen := max s.sec.stagedLen (fld w 58 38 + d.length) } }, about := about }
    | 1 => { st := { s with sec := { s.sec with patchSt := .running } }, long := true, about := about }
    | 2 => { st := { s with sec := { s.sec with staging := [], stagedLen := 0 } }, about := about }
    | 3 => { st := s, changed := false
             reply := some [orAll [put 63 62 s.sec.patchSt.code, put 61 41 s.sec.stagedLen, put 40 25 s.sec.patchStatus.toNat],
               put 63 32 s.archive.slotA.release.toNat ||| put 31 0 s.archive.slotB.release.toNat,
               put 63 32 ((s.archive.priv.map fun x => x.release.toNat).getD 0) ||| put 31 0 s.sec.floor.toNat] }
    | _ => { st := { s with sec := { s.sec with floor := s.units.a.release } }, about := about }

/-- A commit ends with a status. -/
def State.patchEnd (o : OpenCmd) (status : Nat) (s : State) : State :=
  let s := { s with sec := { s.sec with
    patchSt := if status = 0 then .ended else .refused, patchStatus := BitVec.ofNat 16 status } }
  s.endLong o status 14 (evRec 15 0 0x531)

/-- A microstore takes an image to apply later. -/
def State.patchPend (img : PatchImage) (s : State) : State :=
  { s with units := { s.units with stores := updN s.units.stores img.index fun m => { m with pendingPatch := some img } } }

/-- The commit of PATCH_LOAD runs to its end (R402): the digest, the checks of the kind, the write. A Desk patch is in force with
the last step; a die patch stays pending until its partitions are held, with status 0x0406 in the query while it must wait
(R329, R374); a training-engine patch stays pending until the next training. -/
def State.patchCommit (o : OpenCmd) (s : State) : State :=
  let p := o.packet.payload
  let l := Sparse.slice 0 s.sec.staging 0 (fld (wordAt p 5) 63 32 / 8)
  let kind := fld (wordAt p 0) 60 59
  if sm3 (wordsBytes l) ≠ num32 p 1 then s.patchEnd o 0x0601
  else if kind = 0 then
    match parsePatch l (num32 p 1) with
    | .error e => s.patchEnd o e
    | .ok img =>
      if img.index ≤ 1 then (s.patchApply img).patchEnd o 0
      else if img.index ≤ 5 then
        let d := img.index - 2
        let s := s.patchPend img
        { s with
          parts := { s.parts with patchWaits := updN s.parts.patchWaits d fun _ => true }
          sec := { s.sec with patchStatus := if s.patchFree d then 0 else 0x0406 } }
      else (s.patchPend img).patchEnd o 0
  else
    match s.parseSigned kind l with
    | .error e => s.patchEnd o e
    | .ok img =>
      let a := s.archive
      let first := if kind = 1 then (if second a.slotA a.slotB then 576 else 64) else if second a.privA a.privB then 1152 else 1088
      (({ s with archive := a.writeSigned kind img } : State).wroteDirect first (ceilDiv l.length 512)).patchEnd o 0

/-- A die patch of the commit waits or applies. -/
def State.diePatching (s : State) : Bool :=
  s.parts.patchWaits.toList.any (fun b => b) || s.parts.patchSince.toList.any fun t => t.isSome

/-! ## LIFECYCLE_ADVANCE (R396 to R398, Table 17.11) -/

/-- The transition that action 0 asks for is one of R396. -/
def State.transitionOk (s : State) (target : Nat) (purge : Bool) : Bool :=
  match s.sec.lifecycle with
  | .blank => target == 1 || (target == 3 && !purge)
  | .provisioned => target == 2 || (target == 3 && !purge)
  | .deployed => target == 3 && !purge
  | .retired => target == 3 && purge && !s.sec.purged

/-- The reply of LIFECYCLE_ADVANCE. -/
def State.lifecycleWords (s : State) : Words :=
  orAll [put 63 62 s.sec.lifecycle.code, putB 61 s.sec.purged, putB 60 s.sec.moving] ::
    (match s.sec.owner with
     | some k => words32 (sm3 (beBytes 32 k.x ++ beBytes 32 k.y))
     | none => [0, 0, 0, 0])

/-- The message that a replacement of the owner key signs (R398). -/
def State.replaceMsg (s : State) (p : Packet) : List Nat :=
  beBytes 32 (num32 p.payload 1) ++ beBytes 32 (num32 p.payload 5) ++ leBytes 8 s.ident.serial.toNat

/-- LIFECYCLE_ADVANCE (R398, Table 17.11). -/
def lifecycleAdvanceCmd : Command where
  opcode := 0x0E04
  pf := true
  vf := false
  int := false
  dbg := some 3
  fmt _ p :=
    let w := wordAt p.payload 0
    let a := fld w 63 62
    let t := fld w 61 60
    let key := a = 1 ∨ (a = 0 ∧ t = 1)
    firstRef [need (p.payload ≠ []) 0x0104 2, needOk 0 (a ≤ 2), needOk 0 (if a = 0 then t != 0 else t == 0),
      needOk 0 (!bitAt w 59 || (a == 0 && t == 3)), needLen p (if a = 1 then 17 else if key then 9 else 1), needZero p 0 (mask 58 0),
      if key then needOk 1 (sm2OnCurve (num32 p.payload 1) (num32 p.payload 5)) else none]
  maxReply p := if fld (wordAt p.payload 0) 63 62 = 2 then 5 else 0
  chk s p :=
    let w := wordAt p.payload 0
    let a := fld w 63 62
    if a = 2 then none else
    let owner := s.sec.owner.getD {}
    firstRef [need (a != 1 || s.sec.lifecycle == .provisioned) 0x0206,
      need (a != 0 || s.transitionOk (fld w 61 60) (bitAt w 59)) 0x0403, need (decide (s.power.st = .hold)) 0x0404,
      need (!s.sec.moving) 0x0403,
      need (a != 1 || sm2Verify owner.x owner.y (num32 p.payload 9) (num32 p.payload 13) (s.replaceMsg p)) 0x0604]
  waits _ _ := []
  eff s p :=
    if fld (wordAt p.payload 0) 63 62 = 2 then { st := s, changed := false, reply := some s.lifecycleWords }
    else { st := { s with sec := { s.sec with moving := true } }, long := true, about := evRec 15 0 0x540 }

/-- What the advance to RETIRED does to the outputs (R397). -/
def State.retireOutputs (s : State) : State :=
  let s := (List.range 96).foldl (fun s o => s.modOut o (Output.mute s.now false s.tick)) s.hearEvery
  let s := s.allChansOff
  let s := (List.range 256).foldl (fun s q => s.haltSeq q true s.host.accept) s
  let s := { s with power := { s.power with parked := Vector.replicate 96 true } }
  (List.range 32).foldl (fun s e => s.estStop e) s

/-- The purge erases the keys, the privileged images and both store copies (R397). -/
def State.purge (s : State) : State :=
  let sec := { s.sec with purged := true, identity := none, owner := none, keysErased := true }
  { s with sec := sec, archive := { s.archive with privA := {}, privB := {}, x := {}, y := {}, useY := false } }

/-- The first step of an advance or a replacement (R396, R398): the field of the advance record is written, keys are made or
installed, and debug sessions above the new highest level drop to it. Each field is written once: a transition that R396 does not
allow writes none. -/
def State.lifecycleStep (o : OpenCmd) (s : State) : State :=
  let p := o.packet.payload
  let w := wordAt p 0
  let key : PubKey := { x := num32 p 1, y := num32 p 5 }
  if fld w 63 62 = 1 then ({ s with sec := { s.sec with owner := some key } } : State).dropDebug 1 else
  if !s.transitionOk (fld w 61 60) (bitAt w 59) then s else
  let s := match fld w 61 60 with
    | 1 =>
      let id : PubKey := { x := (Config.free256 s.free).toNat, y := (Config.free256 (s.free + 1)).toNat }
      { s with free := s.free + 2, sec := { s.sec with lifecycle := .provisioned, owner := some key, identity := some id } }
    | 2 => { s with sec := { s.sec with lifecycle := .deployed } }
    | _ => if bitAt w 59 then s.purge else ({ s with sec := { s.sec with lifecycle := .retired } } : State).retireOutputs
  s.dropDebug s.levelMax

/-- Its end (R396): the store of every part, which a purged part has not, the record, vector 14. -/
def State.lifecycleEnd (o : OpenCmd) (s : State) : State :=
  let s := if s.sec.purged then s else (s.storeCopy (s.storeImage 7)).wroteDirect 63 1
  let s := { s with sec := { s.sec with moving := false } }
  s.endLong o 0 14 (evRec 15 0 0x541)

/-! ## Steps and ends of long commands (R309, R324) -/

/-- The long command of an acceptance number. -/
def State.longAny (s : State) (accept : BitVec 32) : Option OpenCmd := s.host.open_.find? fun o => o.long && o.accept == accept

/-- A long command whose whole work the Curator's steps are: ARCHIVE_STORE, PATCH_LOAD, LIFECYCLE_ADVANCE. -/
def State.longOf (s : State) (accept : BitVec 32) : Option OpenCmd :=
  s.host.open_.find? fun o => o.long && o.accept == accept && (o.opcode == 0x0D01 || o.opcode == 0x0E03 || o.opcode == 0x0E04)

/-- One step commits. -/
def State.longStep (o : OpenCmd) (s : State) : State :=
  if o.opcode = 0x0D01 then s.storeStep o
  else if o.opcode = 0x0E04 ∧ o.steps = 0 then s.lifecycleStep o
  else s

/-- The command has taken a step, which has its own COMMIT in the journal: a switch-over goes on with the next (R324). -/
def State.stepped (o : OpenCmd) (s : State) : State :=
  ({ s with host := { s.host with open_ := s.host.open_.map fun x => if x = o then { o with steps := o.steps + 1 } else x } } : State).journalCommit
    o.accept 0 1 2 none

/-- LONG_COMMAND_STEP: the Curator runs one step as a routine of internal origin with its own COMMIT (R324). The first step of a
store takes its snapshot (R385); the first step of a lifecycle advance writes its record (R396). What the steps of CAL_RUN, CONC_COMMIT,
POWER_STATE and UNIT_SWITCHOVER change is the effect of their own rows. -/
def execLongCommandStep (accept : BitVec 32) (s : State) : Res :=
  match s.longAny accept with
  | some o => if s.units.token.isNone || s.units.switching then .next s else .next ((s.longStep o).stepped o)
  | none => .next s

/-- LONG_COMMAND_END: the long command ends, after its first step where that has not run (R309). A commit that waits for a die
patch ends with DIE_PATCH_END. -/
def execLongCommandEnd (accept : BitVec 32) (s : State) : Res :=
  match s.longOf accept with
  | some o =>
    if s.units.token.isNone then .next s
    else if o.opcode = 0x0E03 then
      if s.diePatching then .next s else .next (s.patchCommit o)
    else
      let s := if o.steps = 0 then s.longStep o else s
      if o.opcode = 0x0D01 then .next (s.storeEnd o) else .next (s.lifecycleEnd o)
  | none => .next s

end Sys2Proof.Machine
end

