-- ==== Sys2Proof/Machine/DapCmds.lean ====
section
/-!
DEFINITION. Machine/DapCmds.lean: the debug access port (R407, Tables 17.12 and 17.13), the test access port (R435, R436) and the
SMBus target (R433, R434).
-/
namespace Sys2Proof.Machine

/-! ## The raw map (Table 17.13) -/

/-- Region and byte offset of a raw address. -/
def rawRegion (a : BitVec 48) : Nat := a.toNat / 2 ^ 40
/-- Byte offset of a raw address. -/
def rawOff (a : BitVec 48) : Nat := a.toNat % 2 ^ 40

/-- Bytes of a microstore's ROM, and of its patch RAM, in the raw map. -/
def storeBytes (i : Nat) : Nat × Nat :=
  if i ≤ 1 then (16384 * 32, 4096 * 32) else if i ≤ 5 then (8192 * 8, 1024 * 8) else if i ≤ 7 then (4096 * 8, 512 * 8) else (8192 * 8, 2048 * 8)

/-- Patch-map entries of a microstore (Table 13.7). -/
def mapEntries (i : Nat) : Nat := if i ≤ 1 then 64 else if i ≤ 5 then 16 else if i ≤ 7 then 8 else 32

/-- The debug level that a read of an address needs; `none` outside the regions. The size of the SRAM of the Desks and Curators is
not given: every offset lies in it. -/
def rawLevel (a : BitVec 48) : Option Nat :=
  let r := rawRegion a
  let o := rawOff a
  let within (n l : Nat) : Option Nat := if o < n then some l else none
  if r ≤ 3 then some 3
  else if 0x10 ≤ r ∧ r ≤ 0x13 then within (14 * 2 ^ 20) 3
  else if r = 0x20 ∨ r = 0x21 then within (2 ^ 24) 3
  else if r = 0x22 then within (24 * 2 ^ 20) 3
  else if r = 0x30 then within (2 ^ 23) 2
  else if r = 0x31 then within (256 * 512) 2
  else if r = 0x32 then within (32 * 2 ^ 16) 2
  else if r = 0x33 then within (32 * 2 ^ 17) 2
  else if 0x40 ≤ r ∧ r ≤ 0x48 then
    let (rom, ram) := storeBytes (r - 0x40)
    if o < rom ∨ (2 ^ 23 ≤ o ∧ o < 2 ^ 23 + ram) then some 3 else none
  else if 0x50 ≤ r ∧ r ≤ 0x58 then within (8 * mapEntries (r - 0x50)) 3
  else if r = 0x60 then within (2 ^ 24) 3
  else if r = 0x70 then within (0x20000 + 32 * 512) 1
  else if r = 0x71 then within 128 1
  else if r = 0xF0 then some 3
  else none

/-- The region takes writes at D3: not ROM, not the read-only rows. -/
def rawWritable (a : BitVec 48) : Bool :=
  let r := rawRegion a
  !(0x40 ≤ r && r ≤ 0x48 && rawOff a < 2 ^ 23) && r != 0x70 && r != 0x71

/-- The region lies on a converter die, which D2 and D3 do not reach in STANDBY (Table 17.10, hub). -/
def rawOnDie (a : BitVec 48) : Bool :=
  let r := rawRegion a
  (0x10 ≤ r && r ≤ 0x13) || (0x42 ≤ r && r ≤ 0x45) || (0x52 ≤ r && r ≤ 0x55)

/-- A patch-map entry as a word (Table 13.8). -/
def MapEntry.word (e : MapEntry) : Word := orAll [putB 15 e.valid, putB 14 e.priv, put 7 0 e.block.toNat]

/-- Word `j` of 8 bytes of a microword of a microstore. -/
def microPart (i j : Nat) (w : BitVec 160) : Word := if i ≤ 1 then (w >>> (64 * j)).setWidth 64 else w.setWidth 64

/-- A patch-RAM word of a microstore; under an entry with PRIV = 1 it reads zero (R399). -/
def Microstore.rawRam (m : Microstore) (i k : Nat) : Word :=
  let (n, j) := if i ≤ 1 then (k / 4, k % 4) else (k, 0)
  let e := atN m.map (n / 64) {}
  if e.valid && e.priv then 0 else microPart i j (Sparse.get 0 m.ram n)

/-- A patch-RAM word with one of its 8-byte parts written. -/
def Microstore.setRam (i k : Nat) (v : Word) (m : Microstore) : Microstore :=
  let (n, j) := if i ≤ 1 then (k / 4, k % 4) else (k, 0)
  let w := Sparse.get 0 m.ram n
  let keep : BitVec 160 := if i ≤ 1 then w &&& ~~~((BitVec.allOnes 64).setWidth 160 <<< (64 * j)) else 0
  { m with ram := Sparse.set 0 m.ram n (keep ||| ((v.setWidth 160 : BitVec 160) <<< (64 * j))) }

/-- Two samples as a word of the Shelf (Table 5.1). -/
def sampleWord (a b : Int × Int) : Word := orAll [putS 15 0 a.1, putS 31 16 a.2, putS 47 32 b.1, putS 63 48 b.2]

/-- Word `k` of the run of a window half: of a granule that has landed. -/
def State.windowWord (s : State) (q i : Nat) (r : ShelfRun) (k : Nat) : Option Word :=
  (s.streaming q i).bind fun (x, f, _) =>
    let w := (atN (s.plansOf q).wins i {}).at_ x.start
    let h := if (s.windowRuns q i).head? == some r then w.a else w.b
    if k / 32 < h.landed ∧ !h.bad.contains (k / 32) then some (sampleWord (f.sample (h.first + 2 * k)) (f.sample (h.first + 2 * k + 1)))
    else none

/-- The copies of a demodulation slot's settings that hold the kernel at granule `a`, with word `k` of it changed. -/
def DemodSlot.pokeKernel (a k : Nat) (v : Word) (d : DemodSlot) : DemodSlot :=
  let poke (x : DemodSet) : DemodSet := if x.kaddr = a then { x with kernel := x.kernel.mapIdx fun j w => if j = k then v else w } else x
  { d with shadow := poke d.shadow, active := poke d.active, sealed_ := d.sealed_.map poke }

/-- Word `k` of the kernel of a slot at granule `a`. -/
def DemodSlot.kernelWord (a k : Nat) (d : DemodSlot) : Option Word :=
  (d.shadow :: d.active :: d.sealed_.toList).findSome? fun x => if x.kernel ≠ [] ∧ x.kaddr = a then x.kernel[k]? else none

/-- The run of a Shelf that holds a word. -/
def Shelf.runAt (h : Shelf) (k : Nat) : Option ShelfRun :=
  h.runs.find? fun r => r.placed && decide (r.addr ≤ k / 32 ∧ k / 32 < r.addr + r.len)

/-- The word at a place of a Shelf: of a placed pin or head (R137, R142), a landed granule of a window, or a kernel (R157); a word that a
raw write has put there stands until it is copied again. -/
def State.shelfWord (s : State) (d k : Nat) : Option Word :=
  let h := s.shelfOf d
  let poked := Sparse.get none h.raw k
  match h.runAt k with
  | none => poked
  | some r =>
    let i := k - 32 * r.addr
    match r.use with
    | .kernel n => (s.dm n).kernelWord r.addr i
    | .pin f => some (poked.getD (Sparse.get 0 (s.folio f).data i))
    | .head f => some (poked.getD (Sparse.get 0 (s.folio f).data i))
    | .window q b _ => poked.orElse fun _ => s.windowWord q b r i

/-- A raw write of a word of a Shelf (R404): a word of a kernel changes it; any other word stands until it is copied again. -/
def State.pokeShelf (d k : Nat) (v : Word) (s : State) : State :=
  let s := s.hearDie d
  let stands (s : State) : State := s.modShelf d fun h => { h with raw := Sparse.set none h.raw k (some v) }
  match (s.shelfOf d).runAt k with
  | none => stands s
  | some r =>
    match r.use with
    | .kernel n => s.modDemod n (DemodSlot.pokeKernel r.addr (k - 32 * r.addr) v)
    | _ => stands s

/-- A trace: the last 64 PCs, newest first. -/
def traceWord (l : List Nat) (i : Nat) : Word := BitVec.ofNat 64 (l.getD i 0)

/-- What a raw read of a word returns. `v` stands for content that the manual does not give. -/
def State.rawRead (a : BitVec 48) (v : Word) (s : State) : Word :=
  let r := rawRegion a
  let k := rawOff a / 8
  let low : Word := v &&& 0xFF
  match Sparse.get none s.dap.raw (a.toNat / 8) with
  | some w => w
  | none =>
    if 0x10 ≤ r ∧ r ≤ 0x13 then (s.shelfWord (r - 0x10) k).getD v
    else if r = 0x20 then (Sparse.get 0 s.conc.cb0 k &&& ~~~0xFF) ||| low
    else if r = 0x21 then (Sparse.get 0 s.conc.cb1 k &&& ~~~0xFF) ||| low
    else if r = 0x30 then Sparse.get 0 (s.sq (k / 4096)).prog (k % 4096)
    else if r = 0x31 then
      let q := s.sq (k / 64)
      if k % 64 < 32 then q.reg (k % 64) else atN q.snap (k % 64 - 32) 0
    else if r = 0x32 then
      let p := (s.es (k / 8192)).prog
      put 31 0 (Sparse.get 0 p (2 * (k % 8192))).toNat ||| put 63 32 (Sparse.get 0 p (2 * (k % 8192) + 1)).toNat
    else if r = 0x33 then
      let e := s.es (k / 16384)
      let i := k % 16384
      if i < 0x3000 then Sparse.get 0 e.mem i
      else if i < 0x3800 then Sparse.get 0 e.bank0 (i - 0x3000)
      else Sparse.get 0 e.bank1 (i - 0x3800)
    else if 0x40 ≤ r ∧ r ≤ 0x48 then
      if rawOff a < 2 ^ 23 then Config.rom (a.toNat / 8)
      else (atN s.units.stores (r - 0x40) {}).rawRam (r - 0x40) (k - 2 ^ 20)
    else if 0x50 ≤ r ∧ r ≤ 0x58 then (atN (atN s.units.stores (r - 0x50) {}).map k {}).word
    else if r = 0x60 then (Sparse.get none s.archive.raw k).getD v
    else if r = 0x70 then
      if k < 0x4000 then traceWord (s.sq (k / 64)).trace (k % 64) else traceWord (s.es ((k - 0x4000) / 64)).trace (k % 64)
    else if r = 0x71 then s.version k
    else if r = 0xF0 then 0
    else v

/-- Change a microstore. -/
def State.modStore (i : Nat) (f : Microstore → Microstore) (s : State) : State :=
  { s with units := { s.units with stores := updN s.units.stores i f } }

/-- What a raw write of a word changes. The G0 of a sequencer stays zero. -/
def State.rawWrite (a : BitVec 48) (v : Word) (s : State) : State :=
  let r := rawRegion a
  let k := rawOff a / 8
  if 0x10 ≤ r ∧ r ≤ 0x13 then s.pokeShelf (r - 0x10) k v
  else if r = 0x20 then { s with conc := { s.conc with cb0 := Sparse.set 0 s.conc.cb0 k (v &&& ~~~0xFF) } }
  else if r = 0x21 then { s with conc := { s.conc with cb1 := Sparse.set 0 s.conc.cb1 k (v &&& ~~~0xFF) } }
  else if r = 0x30 then s.modSeq (k / 4096) fun q => { q with prog := Sparse.set 0 q.prog (k % 4096) v }
  else if r = 0x31 then
    s.modSeq (k / 64) fun q => if k % 64 < 32 then q.setReg (k % 64) v else { q with snap := updN q.snap (k % 64 - 32) fun _ => v }
  else if r = 0x32 then
    let i := 2 * (k % 8192)
    s.modEst (k / 8192) fun e => { e with prog := Sparse.set 0 (Sparse.set 0 e.prog i (lo32 v)) (i + 1) (hi32 v) }
  else if r = 0x33 then
    let i := k % 16384
    s.modEst (k / 16384) fun e =>
      if i < 0x3000 then { e with mem := Sparse.set 0 e.mem i v }
      else if i < 0x3800 then { e with bank0 := Sparse.set 0 e.bank0 (i - 0x3000) v }
      else { e with bank1 := Sparse.set 0 e.bank1 (i - 0x3800) v }
  else if 0x40 ≤ r ∧ r ≤ 0x48 then s.modStore (r - 0x40) (Microstore.setRam (r - 0x40) (k - 2 ^ 20) v)
  else if 0x50 ≤ r ∧ r ≤ 0x58 then
    let e : MapEntry := { valid := bitAt v 15, priv := bitAt v 14, block := BitVec.ofNat 8 (fld v 7 0) }
    s.modStore (r - 0x50) fun m => { m with map := updN m.map k fun _ => e }
  else if r = 0x60 then { s with archive := { s.archive with raw := Sparse.set none s.archive.raw k (some v) } }
  else { s with dap := { s.dap with raw := Sparse.set none s.dap.raw (a.toNat / 8) (some v) } }

/-! ## Operations (R407, Table 17.12) -/

/-- The port takes an operation: instruction DAP is in force, the supplies are good, and no operation is busy. -/
def State.dapReady (s : State) : Bool := s.boot.jtag.ir == 0x40 && s.boot.suppliesGood && !s.dap.busy

/-- The device is in DORMANT. -/
def State.dormant (s : State) : Bool := decide (s.power.st = .dormant)

/-- An operation begins: it is busy until its end, which leaves a status and the data read. -/
def State.dapBegin (addr : BitVec 48) (status : Nat) (data : Word) (s : State) : State :=
  { s with dap := { s.dap with busy := true, addr := addr, nextStatus := status, nextData := data } }

/-- The word of the completion slots at a word index: of the entry or reply posted last to that slot (R301, Table 17.13). -/
def State.debugSlot (s : State) (k : Nat) : Word :=
  let slot := k / 8
  let dist (c : Completion) : Nat := (slot + 16 - c.slot.toNat) % 16
  match s.host.posted.find? fun c => c.source == .debugPort && decide (dist c ≤ c.rslots.toNat) with
  | some c =>
    if dist c = 0 then wordAt c.words (k % 8) else wordAt (c.replyPacket.getD []) (8 * (dist c - 1) + k % 8)
  | none => 0

/-- Queue control (Table 17.13). -/
def State.debugCtl (s : State) : Word :=
  let q := s.host.debugQueue
  orAll [putB 0 q.enable, put 2 1 q.qstate.code, put 13 8 q.brk.toNat]

/-- A write of ENABLE (R290, Table 17.13). -/
def State.debugEnable (b : Bool) (s : State) : State :=
  let q := s.host.debugQueue
  if b then
    if q.qstate = .disabled ∨ q.qstate = .broken then (s.modQueue .debugPort Queue.restart).setQState .debugPort .enabled else s
  else if q.qstate = .enabled then (s.modQueue .debugPort (Queue.setEnable false)).setQState .debugPort .draining
  else s

/-- DAP_QUEUE_WRITE (OP 1). -/
def execDapQueueWrite (addr : BitVec 48) (data : Word) (s : State) : Res :=
  let a := addr.toNat
  if !s.dapReady then .next s
  else if s.dormant then .next (s.dapBegin addr 4 s.dap.data)
  else if a % 8 = 0 ∧ a < 0x400 then
    .next (({ s with dap := { s.dap with area := Sparse.set 0 s.dap.area (a / 8) data } } : State).dapBegin addr 0 s.dap.data)
  else if a = 0x800 then .next ((s.debugEnable (bitAt data 0)).dapBegin addr 0 s.dap.data)
  else .next (s.dapBegin addr 3 s.dap.data)

/-- DAP_QUEUE_READ (OP 2). In DORMANT only the identity block answers. -/
def execDapQueueRead (addr : BitVec 48) (s : State) : Res :=
  let a := addr.toNat
  if !s.dapReady then .next s
  else if a % 8 = 0 ∧ 0x900 ≤ a ∧ a ≤ 0x910 then .next (s.dapBegin addr 0 (wordAt s.identityBlock ((a - 0x900) / 8)))
  else if s.dormant then .next (s.dapBegin addr 4 s.dap.data)
  else if a % 8 = 0 ∧ 0x400 ≤ a ∧ a < 0x800 then .next (s.dapBegin addr 0 (s.debugSlot ((a - 0x400) / 8)))
  else if a = 0x800 then .next (s.dapBegin addr 0 s.debugCtl)
  else .next (s.dapBegin addr 3 s.dap.data)

/-- The two valid bits of a doorbell word act on the debug queue as on any (R291, R292, Table 12.2). -/
def State.debugBell (w : Word) (s : State) : State :=
  let src : Source := .debugPort
  let s :=
    let d := s.queue src
    let h := fld w 43 32
    if !bitAt w 63 then s
    else if !d.live then s.modQueue src fun d => { d with cqHead := BitVec.ofNat 12 h }
    else
      let freed := (h + 16 - d.cqHead.toNat) % 16
      if 16 ≤ h ∨ d.cqUsed < freed then s.breakQueue src 3
      else s.modQueue src fun d => { d with cqHead := BitVec.ofNat 12 h, cqUsed := d.cqUsed - freed }
  let d := s.queue src
  let t := fld w 11 0
  if !bitAt w 31 then s
  else if !d.live then s.modQueue src fun d => { d with sqTail := BitVec.ofNat 12 t }
  else
    let dist (t : Nat) : Nat := (t + 16 - d.sqHead.toNat) % 16
    if 16 ≤ t ∨ dist t < dist d.sqTail.toNat then s.breakQueue src 2
    else s.modQueue src fun d => { d with sqTail := BitVec.ofNat 12 t }

/-- DAP_DOORBELL (OP 3). -/
def execDapDoorbell (data : Word) (s : State) : Res :=
  if !s.dapReady then .next s
  else if s.dormant then .next (s.dapBegin 0 4 s.dap.data)
  else .next ((s.debugBell data).dapBegin 0 0 s.dap.data)

/-- The level of an access is held: an open debug session at it, and in STANDBY no converter die (Table 17.10). -/
def State.rawAllowed (s : State) (a : BitVec 48) (n : Nat) : Bool := s.debugLevel n && !(rawOnDie a && s.power.st == .standby)

/-- A record of a debug access (R399, R404): of the first session that holds D3, with the low half of the address. -/
def State.rawRec (s : State) (kind : Nat) (a : BitVec 48) : LedgerRec :=
  let x := (s.host.sessions.find? fun x => x.func == 9 && decide (3 ≤ x.level)).getD ⟨9, 0, 0, 0⟩
  { kind := kind, origin := 2, handle := handleOf x.func x.serial, label := x.label, element := 15, number := rawRegion a
    detail := a.setWidth 32 }

/-- DAP_RAW_READ (OP 4). -/
def execDapRawRead (addr : BitVec 48) (s : State) : Res :=
  if !s.dapReady then .next s
  else if s.dormant then .next (s.dapBegin addr 4 s.dap.data)
  else match (if addr.toNat % 8 = 0 then rawLevel addr else none) with
  | none => .next (s.dapBegin addr 3 s.dap.data)
  | some n =>
    if !s.rawAllowed addr n then .next (s.dapBegin addr 2 s.dap.data)
    else
      let v := s.rawRead addr (Config.freeWord s.free)
      let s := { s with free := s.free + 1 }
      let s := if rawRegion addr = 0xF0 then s.note (s.rawRec 6 addr) else s
      .next (s.dapBegin addr 0 v)

/-- DAP_RAW_WRITE (OP 5). Every raw write, and every access to the key store, writes a record. -/
def execDapRawWrite (addr : BitVec 48) (data : Word) (s : State) : Res :=
  if !s.dapReady then .next s
  else if s.dormant then .next (s.dapBegin addr 4 s.dap.data)
  else match (if addr.toNat % 8 = 0 then rawLevel addr else none) with
  | none => .next (s.dapBegin addr 3 s.dap.data)
  | some _ =>
    if !s.rawAllowed addr 3 then .next (s.dapBegin addr 2 s.dap.data)
    else if rawRegion addr = 0xF0 then .next ((s.note (s.rawRec 6 addr)).dapBegin addr 2 s.dap.data)
    else if !rawWritable addr then .next (s.dapBegin addr 3 s.dap.data)
    else .next (((s.rawWrite addr data).note (s.rawRec 1 addr)).dapBegin addr 0 s.dap.data)

/-- DAP_BAD_OPERATION: an operation code from 6 to 255 ends with STATUS 3; in DORMANT with STATUS 4. -/
def execDapBadOperation (s : State) : Res :=
  if !s.dapReady then .next s else .next (s.dapBegin 0 (if s.dormant then 4 else 3) s.dap.data)

/-- DAP_OPERATION_END: the operation ends; its status and data may be captured. A drained debug queue becomes DISABLED. -/
def execDapOperationEnd (s : State) : Res :=
  if !s.dap.busy then .next s else
  let s := { s with dap := { s.dap with busy := false, status := s.dap.nextStatus, data := s.dap.nextData } }
  if s.host.debugQueue.qstate = .draining ∧ !s.inFlight .debugPort then .next (s.setQState .debugPort .disabled) else .next s

/-- DAP_CAPTURE_DR: the data register takes the last operation's status, address and data; STATUS 1 while it is busy. -/
def execDapCaptureDr (s : State) : Res :=
  if s.boot.jtag.ir ≠ 0x40 then .next s else
  let d := s.dap
  let st := if d.busy then 1 else d.status
  .next { s with dap := { d with dr := BitVec.ofNat 120 (st * 2 ^ 112 + d.addr.toNat * 2 ^ 64 + d.data.toNat) } }

/-! ## The test access port (R435, R436) -/

/-- Every bias channel is OFF and every RF output muted (R436). -/
def State.pinsSafe (s : State) : Bool := s.bias.chan.toList.all (fun c => c.st == .off) && s.synth.out.toList.all Output.muted

/-- An instruction is loaded: a test instruction in force before it ends, and the pins return to their function (R436). -/
def State.jtagLoad (ir : BitVec 8) (dr : BitVec 120) (s : State) : State :=
  { s with boot := { s.boot with jtag := { s.boot.jtag with ir := ir, test := .none, dr := dr } } }

/-- The identification register (R435). -/
def State.idcode (s : State) : BitVec 120 :=
  BitVec.ofNat 120 (s.ident.stepping.toNat % 16 * 2 ^ 28 + 0x0512 * 2 ^ 12 + Config.jtagManufacturer.toNat * 2 + 1)

/-- A test instruction is loaded: it takes effect where the pins are safe; otherwise the port acts as BYPASS and sets r (R436). -/
def State.jtagTest (ir : BitVec 8) (t : JtagTest) (s : State) : State :=
  let safe := s.pinsSafe
  let s := s.jtagLoad ir 0
  { s with boot := { s.boot with jtag := { s.boot.jtag with test := if safe then t else .none, refused := !safe } } }

/-- JTAG_IDCODE. -/
def execJtagIdcode (s : State) : Res := .next (s.jtagLoad 0x01 s.idcode)

/-- JTAG_SAMPLE_PRELOAD: the register samples the pins, whose levels are the outside's, and takes a value to drive later. -/
def execJtagSamplePreload (v : Word) (s : State) : Res :=
  let s := ({ s with free := s.free + 1 } : State).jtagLoad 0x02 ((Config.freeWord s.free).setWidth 120)
  .next { s with boot := { s.boot with jtag := { s.boot.jtag with preload := v } } }

/-- JTAG_EXTEST. -/
def execJtagExtest (s : State) : Res := .next (s.jtagTest 0x03 .extest)
/-- JTAG_CLAMP. -/
def execJtagClamp (s : State) : Res := .next (s.jtagTest 0x04 .clamp)
/-- JTAG_HIGHZ. -/
def execJtagHighz (s : State) : Res := .next (s.jtagTest 0x05 .highz)
/-- JTAG_DAP. -/
def execJtagDap (s : State) : Res := .next (s.jtagLoad 0x40 0)
/-- JTAG_BYPASS: code 0xFF, and every other code. -/
def execJtagBypass (s : State) : Res := .next (s.jtagLoad 0xFF 0)
/-- JTAG_TEST_LOGIC_RESET: IDCODE is selected, and the pins return to their function. -/
def execJtagTestLogicReset (s : State) : Res := .next (s.jtagLoad 0x01 s.idcode)

/-! ## SMBus (R433, R434) -/

/-- The SMBus target answers from the end of phase 1 on. -/
def State.smbusUp (s : State) : Bool := s.boot.suppliesGood && decide (2 ≤ s.boot.phase)

/-- The answer of the target in bytes; none before it answers. -/
def State.smbusReply (l : List Nat) (s : State) : State :=
  { s with boot := { s.boot with smbus := if s.smbusUp then l else [] } }

/-- SMBUS_IDENTITY: words K2 and K3. -/
def execSmbusIdentity (s : State) : Res := .next (s.smbusReply (wordsBytes (s.mailbox.drop 2)))

/-- SMBUS_MAILBOX: words K0 to K3. -/
def execSmbusMailbox (s : State) : Res := .next (s.smbusReply (wordsBytes s.mailbox))

/-- The highest reading of some sensors as TEMPS carries it. -/
def State.temp16 (s : State) (l : List Nat) : List Nat :=
  leBytes 2 (match s.hottestOf l with
    | some (_, v) => (v % 65536).toNat
    | none => 0x8000)

/-- SMBUS_TEMPS: the hottest reading, then the highest of each die. -/
def execSmbusTemps (s : State) : Res :=
  .next (s.smbusReply (s.temp16 (List.range 72) ++ (List.range 5).flatMap fun d => s.temp16 (dieSensors d)))

/-- SMBUS_TROUBLE: trouble words 0 and 1. -/
def execSmbusTrouble (s : State) : Res := .next (s.smbusReply (wordsBytes [s.trouble[0], s.trouble[1]]))

/-- SMBUS_WAKE: 0x57 in DORMANT wakes the device; other data, or any other state, has no effect (R411). -/
def execSmbusWake (data : BitVec 8) (s : State) : Res :=
  if s.smbusUp ∧ s.dormant ∧ data = 0x57 then .next (s.wake 2) else .next s

/-- SMBUS_UNKNOWN_COMMAND: NACKed at its data byte. -/
def execSmbusUnknownCommand (_code : BitVec 8) (s : State) : Res := .next { s with boot := { s.boot with smbus := [] } }

/-- The device asserts SMB_ALERT_N while the thermal level is WARN or higher (R434). -/
def State.smbAlert (s : State) : Bool := s.thermal.level != .normal

/-- SMBUS_ALERT_RESPONSE: the device that holds SMB_ALERT_N low answers with its own address (R434). -/
def execSmbusAlertResponse (s : State) : Res :=
  .next (s.smbusReply (if !s.smbAlert then [] else [0x58 + s.ident.smbAddr.toNat]))

end Sys2Proof.Machine
end

