-- ==== Sys2Proof/Machine/Micro.lean ====
section
/-!
DEFINITION. Machine/Micro.lean: the Desk's microengine: its microstore, the fields of a microword, next-address formation, staging and
the commit rule (R315 to R322, R325, R326). The content of the ROM is not in the manual: it stands as constants of Config.
-/
namespace Sys2Proof.Machine

/-! ## The microstore (R326, R327, Tables 13.7 and 13.8) -/

/-- The microword at a byte offset of Desk `u`'s microstore that no command loads: ROM from offset 0, patch RAM from 0x80_0000. -/
def microGiven (u off : Nat) : BitVec 160 :=
  let i := ((0x40 + u) * 2 ^ 40 + off) / 8
  (Config.rom i).setWidth 160 ||| ((Config.rom (i + 1)).setWidth 160 <<< 64) ||| ((Config.rom (i + 2)).setWidth 160 <<< 128)

/-- The patch-map entry that overlays the block of a microword address. -/
def Microstore.entryOf (m : Microstore) (addr : Nat) : Option Nat :=
  (List.range 64).find? fun i => (atN m.map i {}).valid && (atN m.map i {}).block.toNat == addr / 64

/-- The microword at an address of Desk `u` under its patch map. -/
def Microstore.deskWord (m : Microstore) (u addr : Nat) : BitVec 160 :=
  match m.entryOf addr with
  | none => microGiven u (32 * addr)
  | some i =>
    let k := 64 * i + addr % 64
    if (atN m.map i {}).priv then microGiven u (2 ^ 23 + 32 * k) else Sparse.get 0 m.ram k

/-- The patch-RAM word at a microword address is written again from the image that the unit retains (R325). -/
def Microstore.rewrite (img : Option PatchImage) (addr : Nat) (m : Microstore) : Microstore :=
  match m.entryOf addr, img with
  | some i, some x =>
    match x.entries.find? fun e => e.1 == i with
    | some (_, _, ws) => { m with ram := Sparse.set 0 m.ram (64 * i + addr % 64) (ws.getD (addr % 64) 0) }
    | none => m
  | _, _ => m

/-! ## Operands and the ALU (R316) -/

/-- The value of an operand code. The layout of the origin descriptor is not in the manual. -/
def State.operand (s : State) (f : Fetched) (d : DeskCore) (w : BitVec 160) (c : Nat) : Word :=
  if c < 32 then atN d.sc c 0
  else match c with
    | 32 => (BitVec.ofNat 32 (mw w 31 0)).signExtend 64
    | 33 => d.alu
    | 34 => d.mem
    | 35 => d.cfg
    | 36 => wordAt f.packet.payload d.payload
    | 37 => pktW0 f.opcode.toNat f.packet
    | 38 => put 63 32 f.packet.handle.toNat ||| put 31 0 f.packet.crc.toNat
    | 39 => d.counter
    | 40 => s.tick
    | 41 => s.host.accept.setWidth 64
    | 42 => Config.originDescriptor (s.funcOf f.packet.source) f.packet.partition.toNat
    | _ => 0

/-- The ALU result of an operation (Table 13.3). A CRC step takes the CRC in the low half of A. -/
def deskAlu (op : Nat) (a b : Word) : Word :=
  match op with
  | 0 => a
  | 1 => a + b
  | 2 => a - b
  | 3 => a &&& b
  | 4 => a ||| b
  | 5 => a ^^^ b
  | 6 => a <<< (b.toNat % 64)
  | 7 => a >>> (b.toNat % 64)
  | 8 => a - b
  | 9 => if a.toNat < b.toNat then a else b
  | 10 => if a.toNat < b.toNat then b else a
  | _ => BitVec.ofNat 64 ((wordsBytes [b]).foldl crcByte (a.toNat % 2 ^ 32))

/-- The flags C and V of an operation. The manual defines them for no operation: the carry and the signed overflow of A + B, the signed
overflow of A − B (DEDUCED); the others are open. -/
def deskFlags (op : Nat) (a b : Word) : Bool × Bool :=
  let x := Config.deskFlags op a b
  match op with
  | 1 => (decide (2 ^ 64 ≤ a.toNat + b.toNat), a.msb == b.msb && (a + b).msb != a.msb)
  | 2 => (x.getLsbD 0, a.msb != b.msb && (a - b).msb != a.msb)
  | 8 => (x.getLsbD 0, a.msb != b.msb && (a - b).msb != a.msb)
  | _ => (x.getLsbD 0, x.getLsbD 1)

/-! ## Next-address formation (R317) -/

/-- The four bits of a condition group in the cycle of a microword (Table 13.5). What memories, buses, the security engine and the
element at hand answer is open. -/
def State.condition (s : State) (f : Fetched) (cycle : Nat) (d : DeskCore) (w : BitVec 160) : Nat :=
  let g := mw w 58 54
  let x (i : Nat) : Bool := (Config.deskInput cycle g).getLsbD i
  let op (i : Nat) : Bool := f.opcode.getLsbD i
  let bits (b3 b2 b1 b0 : Bool) : Nat := 8 * b3.toNat + 4 * b2.toNat + 2 * b1.toNat + b0.toNat
  let two (n m : Nat) : Nat := 4 * (n % 4) + m % 4
  let more := decide (d.payload < f.packet.payload.length)
  match g with
  | 0 => bits d.v d.c d.n d.z
  | 1 => bits (op 3) (op 2) (op 1) (op 0)
  | 2 => bits (op 11) (op 10) (op 9) (op 8)
  | 3 => bits f.packet.check (decide (f.opcode.toNat / 16 % 16 ≠ 0)) (decide (f.opcode.toNat / 8192 ≠ 0)) (op 12)
  | 6 => bits true (!more) more true
  | 7 => two (s.levelOf f.packet) (s.originCode f.packet.source)
  | 8 => two s.power.st.code s.sec.lifecycle.code
  | 9 => bits (decide ((s.pt f.packet.partition.toNat).st = .held)) (x 2) (!s.host.held.isEmpty) (x 0)
  | 10 => bits false (x 2) (d.timer == some 0) (d.counter == 0)
  | 11 => bits false s.standbyPresent (x 1) (s.desk.acked == s.desk.sent)
  | 12 => bits false (x 2) (x 1) (decide (0x3800 ≤ d.upc.toNat))
  | 13 => mw w 3 0
  | _ => bits (x 3) (x 2) (x 1) (x 0)

/-- The address of the next microword: NEXT OR the low WAY bits of the group (R317). -/
def State.nextAddr (s : State) (f : Fetched) (cycle : Nat) (d : DeskCore) (w : BitVec 160) : BitVec 14 :=
  BitVec.ofNat 14 (mw w 53 40 ||| s.condition f cycle d w % 2 ^ mw w 61 59)

/-! ## Staging and the commit rule (R319, R321) -/

/-- What a microword puts into the staging buffer. -/
def State.stages (s : State) (f : Fetched) (d : DeskCore) (w : BitVec 160) : List Staged :=
  let x (hi lo : Nat) : Word := s.operand f d w (mw w hi lo)
  (if mw w 88 86 = 2 then [.mem (mw w 90 89) (x 96 91) (x 102 97)] else []) ++
  (match mw w 105 103 with
    | 2 => [.hub (x 111 106) (x 117 112)]
    | 3 => [.converter (x 111 106) (x 117 112)]
    | _ => []) ++
  (match mw w 123 120 with
    | 2 => [.completion (x 129 124)]
    | 3 => [.reply (x 129 124)]
    | 4 => [.vector (BitVec.ofNat 4 (mw w 3 0))]
    | 5 => [.hold]
    | _ => []) ++
  if mw w 32 32 = 1 then [.trap (BitVec.ofNat 16 (mw w 15 0))] else []

/-- A bulk write to an address of a space (MEMSEL 0 to 3, 4 converter shadow) reaches a bulk target of R319. Which object an address
belongs to is open: a kind and an index. -/
def State.bulkTarget (s : State) (space : Nat) (addr : Word) : Bool :=
  match Config.bulkObject space addr with
  | (0, folio) => !s.pinnedAny folio && !s.planned folio && !(List.range 4).any fun d => (s.shelfOf d).runs.any fun r => r.use == .head folio
  | (1, _) => true
  | (2, est) => decide ((s.es est).mode = .stopped) || decide ((s.es est).mode = .faulted)
  | (3, est) => !(s.es est).pageBusy
  | (4, view) => decide ((s.vw view).st = .steady)
  | (5, _) => true
  | (6, _) => true
  | (7, _) => true
  | _ => false

/-- Why a microword raises a machine check when it issues (R325): parity, a malformed field, or the commit rule: a staged write, a bulk
write or a second COMMIT in the tail, a bulk write to no bulk target, or a staging buffer that overflows. -/
def State.issueFault (s : State) (f : Fetched) (d : DeskCore) (w : BitVec 160) : Option MachineCause :=
  let st := s.stages f d w
  let bulkMem := mw w 88 86 == 3
  let bulkCfg := mw w 105 103 == 4
  if !([0, 40, 80, 120].all fun q => onesIn w q % 2 == 1) then some .microwordParity
  else if !deskWordOk w then some .malformedField
  else if d.tail && (!st.isEmpty || bulkMem || bulkCfg || mw w 33 33 == 1) then some .commitRule
  else if bulkMem && !s.bulkTarget (mw w 90 89) (s.operand f d w (mw w 96 91)) then some .commitRule
  else if bulkCfg && !s.bulkTarget 4 (s.operand f d w (mw w 111 106)) then some .commitRule
  else if 8192 < d.staging.length + st.length then some .commitRule
  else none

/-! ## A routine (R318) -/

/-- One microword issues (Table 13.2). -/
def State.issue (s : State) (f : Fetched) (cycle : Nat) (d : DeskCore) (w : BitVec 160) : DeskCore :=
  let x (hi lo : Nat) : Word := s.operand f d w (mw w hi lo)
  let op := mw w 66 62
  let r := deskAlu op (x 72 67) (x 78 73)
  let res := if op = 8 then d.alu else r
  let fl := deskFlags op (x 72 67) (x 78 73)
  let dest := mw w 85 80
  { upc := s.nextAddr f cycle d w
    sc := if op ≠ 8 ∧ dest < 32 then updN d.sc dest fun _ => r else d.sc
    alu := res, z := r == 0, n := r.msb, c := fl.1, v := fl.2
    counter := match mw w 35 34 with
      | 1 => res
      | 2 => d.counter - 1
      | _ => d.counter
    mem := if mw w 88 86 = 1 then Config.deskRead cycle (mw w 90 89) (x 96 91) else d.mem
    cfg := if mw w 105 103 = 1 then Config.deskRead cycle 4 (x 111 106) else d.cfg
    timer := match mw w 131 130 with
      | 1 => some (mw w 31 0)
      | 2 => none
      | _ => d.timer.map (· - 1)
    payload := if mw w 123 120 = 1 then d.payload + 1 else d.payload
    staging := (s.stages f d w).reverse ++ d.staging
    tail := d.tail || mw w 33 33 == 1 }

/-- A routine runs until the next address is the dispatch point, or until a microword raises a machine check; `fuel` bounds its
cycles. -/
def State.microRun (s : State) (f : Fetched) : Nat → Nat → DeskCore → DeskCore × Option (MachineCause × BitVec 14)
  | 0, _, d => (d, none)
  | fuel + 1, cycle, d =>
    let w := (atN s.units.stores (unitCode s.unit) {}).deskWord (unitCode s.unit) d.upc.toNat
    match s.issueFault f d w with
    | some c => (d, some (c, d.upc))
    | none =>
      let e := s.issue f cycle d w
      if e.upc = 0 then (e, none) else s.microRun f fuel (cycle + 1) e

/-- The Desk at the dispatch point, with an empty staging buffer. -/
def DeskCore.dispatch (d : DeskCore) : DeskCore := { d with upc := 0, staging := [], tail := false, payload := 0 }

/-- The Desk runs the routine of a packet from the dispatch point to its end: within 30 µs to COMMIT and 2 µs of tail (R321, R323). The
command's effect is what its chapter gives; the routine leaves the Desk's registers, and the machine check it would meet. -/
def State.routine (f : Fetched) (s : State) : State :=
  let r := s.microRun f 25600 s.free s.desk.core.dispatch
  { s with desk := { s.desk with core := r.1.dispatch, found := r.2 } }

/-- A routine is abandoned (R322): the staging buffer is discarded, the timer stops, and the counter and the scratch registers become
undefined. -/
def State.abandon (s : State) : State :=
  { s with
    desk := { s.desk with core := { s.desk.core.dispatch with
      timer := none, counter := Config.freeWord s.free, sc := Vector.ofFn fun i => Config.freeWord (s.free + 1 + i.val) } }
    free := s.free + 33 }

end Sys2Proof.Machine
end

