-- ==== Sys2Proof/Machine/DeskRows.lean ====
section
/-!
DEFINITION. Machine/DeskRows.lean: the opcode catalogue (Table 12.6), the fetch of packets (R292, R295), the order in which the Desk
begins them (R306), the execution of held commands (R307), machine checks and repairs (R322 to R325), and the meaning of each packet.
-/
namespace Sys2Proof.Machine

open Host

/-- The commands of Table 12.6. -/
def catalogue : List Command :=
  [sessionOpenCmd, sessionCloseCmd, identifyCmd, echoCmd, timeServoFeedCmd, syncArmCmd, skewCalCmd, almanacReadCmd,
   seqLoadCmd, seqBindCmd, seqArmCmd, seqHaltCmd, seqStatusCmd, toneConfigCmd, xtalkMatrixCmd, outputEnableCmd,
   folioWriteCmd, shelfPinCmd, streamPlanCmd, readoutConfigCmd, kernelLoadCmd, discrimConfigCmd, estLoadCmd,
   estStartCmd, routeTableCmd, laneTrainCmd, collectionJoinCmd, laneTestCmd, concMapCmd, concWriteCmd, concCommitCmd,
   captureConfigCmd, patternConfigCmd, captureReadCmd, biasConfigCmd, biasSetCmd, monitorConfigCmd, calRunCmd,
   trimLoadCmd, trimReadCmd, archiveStoreCmd, ledgerReadCmd, troubleReadCmd, troubleClearCmd, attestCmd,
   debugUnlockCmd, patchLoadCmd, lifecycleAdvanceCmd, powerStateCmd, thermalConfigCmd, partitionDefineCmd,
   partitionHoldCmd, admitSharesCmd, unitSwitchoverCmd]

/-- The command of an opcode. -/
def commandOf (op : Nat) : Option Command := catalogue.find? fun c => c.opcode == op

/-! ## Fetch (R291 to R295) -/

/-- Words of a packet by its header word 0 (R293). -/
def headerLen (w : Word) : Nat := 8 * (fld w 31 16 - 1) + fld w 42 40 + 1

/-- SLOTS and LASTW frame a packet in a ring of `n` slots (R292). -/
def framed (w : Word) (n : Nat) : Bool :=
  let k := fld w 31 16
  1 ≤ k && k ≤ 1024 && k ≤ n - 1 && !(k == 1 && fld w 42 40 == 0)

/-- The packet that the words of a ring spell from its header on. -/
def packetOf (src : Source) (l : Words) : Packet :=
  let w := wordAt l 0
  let h := wordAt l 1
  { source := src, check := bitAt w 45, barrier := bitAt w 44, fence := bitAt w 43, partition := BitVec.ofNat 4 (fld w 39 36)
    rsv := BitVec.ofNat 6 (fld w 47 46 * 16 + fld w 35 32), tag := BitVec.ofNat 16 (fld w 15 0), handle := hi32 h, crc := lo32 h
    payload := (List.range (headerLen w - 2)).map fun i => wordAt l (2 + i) }

/-- Completion slots that a packet may take: its entry and its largest reply (R295). -/
def roomFor (op : Nat) (p : Packet) : Nat :=
  1 + match commandOf op with
    | some c => if c.maxReply p = 0 then 0 else slotsOf (c.maxReply p)
    | none => 0

/-- Slots that a ring of `n` slots must have free for a packet; a reply that the ring can never hold needs room for the entry alone
(R295). -/
def roomIn (n op : Nat) (p : Packet) : Nat := if n ≤ roomFor op p - 1 then 1 else roomFor op p

/-- Completion slots kept for the packets of a queue that are fetched and not completed. -/
def State.roomKept (s : State) (src : Source) : Nat :=
  let one (op : BitVec 16) (p : Packet) : Nat := if p.source = src then roomIn (2 ^ (s.queue src).cqLog) op.toNat p else 0
  ((s.host.fetched ++ s.host.waiting ++ s.running.toList).map fun f => one f.opcode f.packet).sum +
    ((s.host.open_.filter fun o => !o.long && !o.silent).map fun o => one o.opcode o.packet).sum

/-- The completion ring has room for a packet (R295). -/
def State.hasRoom (s : State) (src : Source) (op : Nat) (p : Packet) : Bool :=
  let n := 2 ^ (s.queue src).cqLog
  decide ((s.queue src).cqUsed + s.roomKept src + roomIn n op p ≤ n)

/-- Submission slots of a queue that are available and not fetched (R291). -/
def State.slotsReady (s : State) (src : Source) : Nat :=
  let q := s.queue src
  (q.sqTail.toNat + 2 ^ q.sqLog - q.sqHead.toNat) % 2 ^ q.sqLog

/-- The queue engine looks at a queue: it is ENABLED, slots are available, its function is not in D3hot, and no packet of it waits
under FENCE or BARRIER (R306). -/
def State.looksAt (s : State) (src : Source) : Bool :=
  s.deskUp src && (s.queue src).qstate == .enabled && s.slotsReady src != 0 && !atN s.boot.d3hot (s.funcOf src) false
    && !s.host.waiting.any fun w => w.packet.source == src

/-- The queues that the engine looks at. -/
def State.fetchable (s : State) : List Source :=
  ((s.host.queues.map fun (e : Nat × Queue) => queueSrc e.1) ++ [Source.debugPort]).filter s.looksAt

/-- How far a queue stands behind the one of its function that was served last. -/
def State.queueTurn (s : State) (src : Source) : Nat :=
  match src with
  | .queue q => (q.val + 65535 - atN s.desk.turnQueue (s.funcOf src) 0) % 32768
  | _ => 0

/-- The source whose turn it is: round robin over the physical function, VF1 to VF8 and the debug port, and within a function over its
queues, one packet per turn (R295). -/
def State.turn (s : State) : Option Source :=
  let rank (src : Source) : Nat := (s.funcOf src + 9 - s.desk.turnFunc) % 10 * 32768 + s.queueTurn src
  s.fetchable.foldl (fun b x => match b with
    | none => some x
    | some y => if rank x < rank y then some x else some y) none

/-- The turn passes on from a source. -/
def State.served (src : Source) (s : State) : State :=
  let f := s.funcOf src
  { s with desk := { s.desk with
    turnFunc := f
    turnQueue := match src with
      | .queue q => updN s.desk.turnQueue f fun _ => q.val
      | _ => s.desk.turnQueue } }

/-- The words of the submission ring from the fetch position on: of the debug port, from its on-die slots (R301); of a queue in
host memory, as a PCIe read brings them. -/
def State.ringWords (s : State) (src : Source) (ring : Words) : Words :=
  match src with
  | .debugPort => (List.range 128).map fun i => Sparse.get 0 s.dap.area (((s.queue src).sqHead.toNat * 8 + i) % 128)
  | _ => ring

/-- PACKET_FETCH (R292, R295): the engine serves the source whose turn it is. A PCIe error or a header that frames no packet breaks the
queue. A packet is fetched whole, when its slots are available and its completion has room; both control units receive it (R330). A queue
whose next packet cannot be fetched yet loses its turn. -/
def execPacketFetch (src : Source) (ring : Words) (pcieError : Bool) (s : State) : Res :=
  if s.turn ≠ some src then .next s else
  let s := s.served src
  let q := s.queue src
  let n := 2 ^ q.sqLog
  if pcieError ∧ src ≠ .debugPort then .next (s.breakQueue src 4)
  else
    let l := s.ringWords src ring
    let w := wordAt l 0
    let k := fld w 31 16
    if !framed w n then .next (s.breakQueue src 1)
    else
      let p := packetOf src l
      let op := fld w 63 48
      if s.slotsReady src < k ∨ !s.hasRoom src op p then .next s
      else
        let head := BitVec.ofNat 12 ((q.sqHead.toNat + k) % n)
        let f : Fetched := { opcode := BitVec.ofNat 16 op, packet := p, sqHead := head, at_ := s.now, handleOk := s.handleOk op p }
        .next (((s.modQueue src fun q => { q with sqHead := head }).enter_ f).sendRec (.queue src))

/-! ## Held commands (R307) -/

/-- A held command may execute: nothing holds its items, and no command before it waits on one of them. -/
def State.heldReady (s : State) (before : List Held) (h : Held) : Bool :=
  match commandOf h.opcode.toNat with
  | some c =>
    let l := c.waits s h.packet
    let items := h.items ++ l.map (·.item)
    !l.any (·.busy) && !before.any fun x => x.items.any fun i => items.contains i
  | none => true

/-- The first held command that may execute, in acceptance order. -/
def State.firstHeld (s : State) : List Held → List Held → Option Held
  | _, [] => none
  | before, h :: l => if s.heldReady before h then some h else s.firstHeld (before ++ [h]) l

/-- A held command as the packet of its routine. -/
def Held.fetched (h : Held) : Fetched :=
  { opcode := h.opcode, packet := h.packet, sqHead := h.sqHead, at_ := h.since, handleOk := true }

/-- A held command leaves its hold lists; the change is journaled (R331). -/
def State.unlist (h : Held) (s : State) : State :=
  ({ s with host := { s.host with held := s.host.held.erase h } } : State).sendRec .holds

/-- The held command executes: it is checked again; it makes its change and writes its record, or its deferred refusal is
reported. It posts no second completion. -/
def State.runHeld (h : Held) (s : State) : State :=
  let s := (s.routine h.fetched).unlist h
  match commandOf h.opcode.toNat with
  | none => s
  | some c =>
    match firstRef [need (!s.lifecycleBars c.opcode) 0x0206, c.chk s h.packet] with
    | some r => s.deferredRefusal h r.status
    | none =>
      let now := s.host.accept
      let e := c.eff { s with host := { s.host with accept := h.accept } } h.packet
      let s := { e.st with host := { e.st.host with accept := now } }
      let s := if e.changed then s.note (s.cmdRec 1 c.opcode h.packet h.accept (if e.long then 1 else e.status) e.about) else s
      let seq := if e.changed then s.lastSeq else 0
      let o : OpenCmd := {
        opcode := h.opcode, packet := h.packet, accept := h.accept, sqHead := h.sqHead, since := h.since, long := e.long, silent := true
        data := e.data, seq := seq }
      let s := s.journalCommit h.accept seq e.status e.detail none
      if e.long || e.later then { s with host := { s.host with open_ := s.host.open_ ++ [o] } } else s

/-- The first held command that may execute. -/
def State.heldNext (s : State) : Option Held := s.firstHeld [] s.host.held

/-! ## The Desk begins a command (R299, R305, R306, R318 to R320) -/

/-- The routine of a packet: its microcode runs, steps 1 to 5 of R299 are checked, and the command takes its acceptance number; a command
that was abandoned keeps the number it has (R322). -/
def Command.begin_ (c : Command) (f : Fetched) (accept : Option (BitVec 32)) (s : State) : State :=
  let s := s.routine f
  match accept with
  | some a => c.body f a s
  | none =>
    match c.front f s with
    | some r => s.refuse f 0 r
    | none => c.body f (s.host.accept + 1) (s.accepted f.packet)

/-- A packet enters the packet buffer, unless it stands there. -/
def State.enqueue (f : Fetched) (s : State) : State := if f ∈ s.host.fetched then s else s.enter_ f

/-- No routine is in progress. -/
def State.clearCur (s : State) : State := { s with desk := { s.desk with cur := none } }

/-- The Desk takes up a packet. A queue that is not enabled delivers none, unless the packet was fetched before. A command that was
abandoned goes first (R323), then a hold list whose item is released (R307), then the earlier packets of the queue (R306): behind any
of them the packet stands in the packet buffer. A packet that FENCE or BARRIER keeps starts to wait. -/
def Command.run (c : Command) (p : Packet) (s : State) : State :=
  let f := s.fetchedAs c.opcode p
  let known := p.source == .internal || (s.queue p.source).qstate == .enabled || decide (f ∈ s.host.fetched)
  if !s.deskUp p.source then s
  else match s.desk.cur with
    | some { job := .packet g, accept := a, .. } =>
      if g.opcode = BitVec.ofNat 16 c.opcode ∧ g.packet = p then c.begin_ g a s.clearCur
      else if known then s.enqueue f else s
    | some _ => if known then s.enqueue f else s
    | none =>
      if !known then s
      else if s.heldNext.isSome || s.behind f || (s.queueBusy p.source && !s.flagged p) then s.enqueue f
      else if s.queueBusy p.source || !s.mayBegin p then s.parkPacket f
      else c.begin_ f none (s.takeOut f)

/-- A packet whose opcode is unknown (R299): its CRC and header come first; its completion carries OPCODE 0. -/
def State.unknownOp (f : Fetched) (s : State) : State :=
  let p := f.packet
  let g := { f with opcode := 0 }
  match firstRef [need (p.crc = pktCrc f.opcode.toNat p) 0x0101 1, need (p.rsv = 0 && p.partition.toNat < 8) 0x0103 0] with
  | some r => s.refuse g 0 r
  | none => s.refuse g 0 ⟨0x0102, 0⟩

/-- The first waiting packet that may begin: no packet of its queue waits before it, none is open, and its flags let it (R306). -/
def State.firstWaiting (s : State) : List Source → List Fetched → Option Fetched
  | _, [] => none
  | seen, f :: l =>
    if s.deskUp f.packet.source && s.mayBegin f.packet && !seen.contains f.packet.source then some f
    else s.firstWaiting (f.packet.source :: seen) l

/-- The first packets of their queues that FENCE or BARRIER keeps start to wait (R306). -/
def State.parkDue (s : State) : State :=
  (s.host.fetched.filter fun f => !s.behind f && s.deskUp f.packet.source && s.flagged f.packet).foldl (fun s f => s.parkPacket f) s

/-- The routine that the Desk is in or begins next: that of the command that was abandoned (R323), of the first held command whose items
are released (R307), of the first packet that waits and may begin, else of the first packet in the packet buffer that is the first of its
queue (R306). -/
def State.nextJob (s : State) : Option Running :=
  match s.desk.cur with
  | some r => some r
  | none =>
    match s.heldNext with
    | some h => some { job := .held h, accept := some h.accept }
    | none =>
      match s.firstWaiting [] s.host.waiting with
      | some f => some { job := .packet f }
      | none =>
        (s.host.fetched.find? fun f =>
          !s.behind f && s.deskUp f.packet.source && !s.queueBusy f.packet.source && s.mayBegin f.packet).map fun f => { job := .packet f }

/-- The Desk takes a routine's packet out of the buffers; a held command stays in its hold lists until it executes. -/
def State.takeJob (r : Running) (s : State) : Running × State :=
  if s.desk.cur.isSome then (r, s.clearCur)
  else match r.job with
    | .held _ => (r, s)
    | .packet f =>
      if f ∈ s.host.waiting then ({ r with job := .packet (s.unparkPacket f).1 }, (s.unparkPacket f).2) else (r, s.takeOut f)

/-- A routine runs to the end of its commit sequence. `ringFault`: the write of its completion meets a PCIe error (R292). -/
def State.doJob (r : Running) (ringFault : Bool) (s : State) : State :=
  match r.job with
  | .held h => s.runHeld h
  | .packet f =>
    match commandOf f.opcode.toNat with
    | some c => c.begin_ { f with ringFault := ringFault } r.accept s
    | none => (s.routine f).unknownOp { f with ringFault := ringFault }

/-- HELD_COMMAND_EXECUTE: the first held command whose items are released executes, unless a command that was abandoned goes first
(R323). -/
def execHeldCommandExecute (s : State) : Res :=
  if !s.deskUp .internal ∨ s.desk.cur.isSome then .next s else
  match s.heldNext with
  | some h => .next (s.runHeld h)
  | none => .next s

/-- COMMIT_SEQUENCE: the routine in progress, or the next that the Desk begins, reaches its COMMIT, and the commit sequence runs to its
end (R320). -/
def execCommitSequence (pcieError : Bool) (s : State) : Res :=
  if !s.deskUp .internal then .next s else
  let s := s.parkDue
  match s.nextJob with
  | some r => .next ((s.takeJob r).2.doJob (s.takeJob r).1 pcieError)
  | none => .next s

/-! ## Machine checks and repairs (R322 to R325) -/

/-- A packet whose routine is interrupted before its COMMIT has its acceptance number, where steps 1 to 5 of R299 pass (DESIGN CHOICE:
the interrupt comes after them, as in Example 13.1). -/
def State.acceptJob (r : Running) (s : State) : Running × State :=
  match r.accept, r.job with
  | none, .packet f =>
    if (commandOf f.opcode.toNat).any fun c => (c.front f s).isNone then
      ({ r with accept := some (s.host.accept + 1) }, s.accepted f.packet)
    else (r, s)
  | _, _ => (r, s)

/-- The routine is abandoned; it restarts before any other command begins (R322, R323). -/
def State.abandonJob (r : Running) (s : State) : State :=
  let s := s.abandon
  { s with desk := { s.desk with cur := some r } }

/-- A command that no control unit can execute completes with 0x0701 (R310); a held one is reported as a deferred refusal (R307). -/
def State.jobFails (r : Running) (s : State) : State :=
  match r.job with
  | .packet f => s.refuse f (r.accept.getD 0) ⟨0x0701, noRecord⟩
  | .held h => (s.unlist h).deferredRefusal h 0x0701

/-- What every machine check records (R325): its cause and microword address, the machine-check trouble bit, a Ledger record. A faulty word
in patch RAM is written again from the image that the unit retains. -/
def State.checkRecord (cause : MachineCause) (addr : BitVec 14) (s : State) : State :=
  let s := s.modUnit s.unit fun c => { c with mcCause := some cause, mcAddr := addr }
  let img := s.units.loaded.find? fun x => decide (x.index ≤ 1)
  let s := if cause = .microwordParity then s.modStore (unitCode s.unit) (Microstore.rewrite img addr.toNat) else s
  (s.setTrouble 1 0).note (unitRec s.unit (BitVec.ofNat 32 (causeCode cause * 2 ^ 16 + addr.toNat)))

/-- MACHINE_CHECK (R325, Table 13.6). Before the COMMIT the routine is abandoned and retried once; a second machine check in the same
command makes the unit request a hand-over, and with no STANDBY unit the command completes with 0x0701. In the tail the tail ends, and
the commit sequence still completes. -/
def execMachineCheck (cause : MachineCause) (addr : BitVec 14) (tail : Bool) (s : State) : Res :=
  if s.units.token = none then .next s
  else if !s.deskUp .internal then .next (s.checkRecord cause addr)
  else
    let s := s.parkDue
    match s.nextJob with
    | none => .next (s.checkRecord cause addr)
    | some r =>
      let (r, s) := s.takeJob r
      if tail then .next ((s.doJob r false).checkRecord cause addr)
      else
        let (r, s) := s.acceptJob r
        let s := s.checkRecord cause addr
        let r := { r with checks := r.checks + 1, abandons := r.abandons + 1 }
        if r.checks ≤ 1 then .next (s.abandonJob r)
        else if s.standbyPresent then .next ((s.abandonJob r).modUnit s.unit fun c => { c with released := true })
        else .next (s.abandon.jobFails r)

/-- REPAIR_REQUEST (R322, R323): the current routine is abandoned and restarts after the repair routine, which rewrites the
oldest word that waits; a command abandoned 4 times in a row has the repair deferred, and each deferral is counted. -/
def execRepairRequest (s : State) : Res :=
  match s.units.repairs with
  | [] => .next s
  | x :: l =>
    if s.units.token = none then .next s else
    let heard (s : State) : State := match x with
      | .shelf d _ => s.hearDie d
      | _ => s
    let fix (s : State) : State := ((heard { s with units := { s.units with repairs := l } }).repair x).note (evRec 15 0 7)
    if !s.deskUp .internal then .next (fix s) else
    let s := s.parkDue
    match s.nextJob with
    | none => .next (fix s)
    | some r =>
      if 4 ≤ r.abandons then .next { s with units := { s.units with deferrals := s.units.deferrals + 1 } }
      else
        let (r, s) := s.takeJob r
        let (r, s) := s.acceptJob r
        .next (fix (s.abandonJob { r with abandons := r.abandons + 1 }))

/-! ## The packets of Table 12.6 -/

/-- ADMIT. -/
def execAdmitShares (p : Packet) (s : State) : Res := .next (admitSharesCmd.run p s)

/-- ALMANAC_READ. -/
def execAlmanacRead (p : Packet) (s : State) : Res := .next (almanacReadCmd.run p s)

/-- ARCHIVE_STORE. -/
def execArchiveStore (p : Packet) (s : State) : Res := .next (archiveStoreCmd.run p s)

/-- ATTEST. -/
def execAttest (p : Packet) (s : State) : Res := .next (attestCmd.run p s)

/-- BIAS_CONFIG. -/
def execBiasConfig (p : Packet) (s : State) : Res := .next (biasConfigCmd.run p s)

/-- BIAS_SET. -/
def execBiasSet (p : Packet) (s : State) : Res := .next (biasSetCmd.run p s)

/-- CAL_RUN. -/
def execCalRun (p : Packet) (s : State) : Res := .next (calRunCmd.run p s)

/-- CAPTURE_CONFIG. -/
def execCaptureConfig (p : Packet) (s : State) : Res := .next (captureConfigCmd.run p s)

/-- CAPTURE_READ. -/
def execCaptureRead (p : Packet) (s : State) : Res := .next (captureReadCmd.run p s)

/-- COLLECTION_JOIN. -/
def execCollectionJoin (p : Packet) (s : State) : Res := .next (collectionJoinCmd.run p s)

/-- CONC_COMMIT. -/
def execConcCommit (p : Packet) (s : State) : Res := .next (concCommitCmd.run p s)

/-- CONC_MAP. -/
def execConcMap (p : Packet) (s : State) : Res := .next (concMapCmd.run p s)

/-- CONC_WRITE. -/
def execConcWrite (p : Packet) (s : State) : Res := .next (concWriteCmd.run p s)

/-- DEBUG_UNLOCK. -/
def execDebugUnlock (p : Packet) (s : State) : Res := .next (debugUnlockCmd.run p s)

/-- DISCRIM_CONFIG. -/
def execDiscrimConfig (p : Packet) (s : State) : Res := .next (discrimConfigCmd.run p s)

/-- ECHO. -/
def execEcho (p : Packet) (s : State) : Res := .next (echoCmd.run p s)

/-- EST_LOAD. -/
def execEstLoad (p : Packet) (s : State) : Res := .next (estLoadCmd.run p s)

/-- EST_START. -/
def execEstStart (p : Packet) (s : State) : Res := .next (estStartCmd.run p s)

/-- FOLIO_WRITE. -/
def execFolioWrite (p : Packet) (s : State) : Res := .next (folioWriteCmd.run p s)

/-- IDENTIFY. -/
def execIdentify (p : Packet) (s : State) : Res := .next (identifyCmd.run p s)

/-- KERNEL_LOAD. -/
def execKernelLoad (p : Packet) (s : State) : Res := .next (kernelLoadCmd.run p s)

/-- LANE_TEST. -/
def execLaneTest (p : Packet) (s : State) : Res := .next (laneTestCmd.run p s)

/-- LANE_TRAIN. -/
def execLaneTrain (p : Packet) (s : State) : Res := .next (laneTrainCmd.run p s)

/-- LEDGER_READ. -/
def execLedgerRead (p : Packet) (s : State) : Res := .next (ledgerReadCmd.run p s)

/-- LIFECYCLE_ADVANCE. -/
def execLifecycleAdvance (p : Packet) (s : State) : Res := .next (lifecycleAdvanceCmd.run p s)

/-- MONITOR_CONFIG. -/
def execMonitorConfig (p : Packet) (s : State) : Res := .next (monitorConfigCmd.run p s)

/-- OUTPUT_ENABLE. -/
def execOutputEnable (p : Packet) (s : State) : Res := .next (outputEnableCmd.run p s)

/-- PARTITION_DEFINE. -/
def execPartitionDefine (p : Packet) (s : State) : Res := .next (partitionDefineCmd.run p s)

/-- PARTITION_HOLD. -/
def execPartitionHold (p : Packet) (s : State) : Res := .next (partitionHoldCmd.run p s)

/-- PATCH_LOAD. -/
def execPatchLoad (p : Packet) (s : State) : Res := .next (patchLoadCmd.run p s)

/-- PATTERN_CONFIG. -/
def execPatternConfig (p : Packet) (s : State) : Res := .next (patternConfigCmd.run p s)

/-- POWER_STATE. -/
def execPowerState (p : Packet) (s : State) : Res := .next (powerStateCmd.run p s)

/-- READOUT_CONFIG. -/
def execReadoutConfig (p : Packet) (s : State) : Res := .next (readoutConfigCmd.run p s)

/-- ROUTE_TABLE. -/
def execRouteTable (p : Packet) (s : State) : Res := .next (routeTableCmd.run p s)

/-- SEQ_ARM. -/
def execSeqArm (p : Packet) (s : State) : Res := .next (seqArmCmd.run p s)

/-- SEQ_BIND. -/
def execSeqBind (p : Packet) (s : State) : Res := .next (seqBindCmd.run p s)

/-- SEQ_HALT. -/
def execSeqHalt (p : Packet) (s : State) : Res := .next (seqHaltCmd.run p s)

/-- SEQ_LOAD. -/
def execSeqLoad (p : Packet) (s : State) : Res := .next (seqLoadCmd.run p s)

/-- SEQ_STATUS. -/
def execSeqStatus (p : Packet) (s : State) : Res := .next (seqStatusCmd.run p s)

/-- SESSION_CLOSE. -/
def execSessionClose (p : Packet) (s : State) : Res := .next (sessionCloseCmd.run p s)

/-- SESSION_OPEN. -/
def execSessionOpen (p : Packet) (s : State) : Res := .next (sessionOpenCmd.run p s)

/-- SHELF_PIN. -/
def execShelfPin (p : Packet) (s : State) : Res := .next (shelfPinCmd.run p s)

/-- SKEW_CAL. -/
def execSkewCal (p : Packet) (s : State) : Res := .next (skewCalCmd.run p s)

/-- STREAM_PLAN. -/
def execStreamPlan (p : Packet) (s : State) : Res := .next (streamPlanCmd.run p s)

/-- SYNC_ARM. -/
def execSyncArm (p : Packet) (s : State) : Res := .next (syncArmCmd.run p s)

/-- THERMAL_CONFIG. -/
def execThermalConfig (p : Packet) (s : State) : Res := .next (thermalConfigCmd.run p s)

/-- TIME_SERVO_FEED. -/
def execTimeServoFeed (p : Packet) (s : State) : Res := .next (timeServoFeedCmd.run p s)

/-- TONE_CONFIG. -/
def execToneConfig (p : Packet) (s : State) : Res := .next (toneConfigCmd.run p s)

/-- TRIM_LOAD. -/
def execTrimLoad (p : Packet) (s : State) : Res := .next (trimLoadCmd.run p s)

/-- TRIM_READ. -/
def execTrimRead (p : Packet) (s : State) : Res := .next (trimReadCmd.run p s)

/-- TROUBLE_CLEAR. -/
def execTroubleClear (p : Packet) (s : State) : Res := .next (troubleClearCmd.run p s)

/-- TROUBLE_READ. -/
def execTroubleRead (p : Packet) (s : State) : Res := .next (troubleReadCmd.run p s)

/-- UNIT_SWITCHOVER. -/
def execUnitSwitchover (p : Packet) (s : State) : Res := .next (unitSwitchoverCmd.run p s)

/-- XTALK_MATRIX. -/
def execXtalkMatrix (p : Packet) (s : State) : Res := .next (xtalkMatrixCmd.run p s)

end Sys2Proof.Machine
end

