-- ==== Sys2Proof/Machine/BootCmds.lean ====
section
/-!
DEFINITION. Machine/BootCmds.lean: the supplies and reset sources (R437 to R439, R453), the PCIe link and its functions (R427, R428),
and start-up (R440 to R443).
-/
namespace Sys2Proof.Machine

/-! ## Supplies -/

/-- RAIL_UNDERVOLTAGE: a rail falls below its threshold, VIO or another: power-on reset, every bias switch open, every core at
differential zero (R453). The trouble words and the voters are lost when VIO falls (R13). -/
def execRailUndervoltage (vio : Bool) (s : State) : Res :=
  let s := s.restart (!vio && s.boot.vioGood) false 0 0
  .next { s with boot := { s.boot with suppliesGood := false, vioGood := !vio && s.boot.vioGood } }

/-- POWER_ON_RESET: the supplies have been good for 2 ms, and start-up begins at phase 0 (R437). -/
def execPowerOnReset (s : State) : Res :=
  if s.boot.suppliesGood then .next s else
  .next { s with boot := { s.boot with suppliesGood := true, vioGood := true, phase := 0, resetCause := 0 } }

/-! ## Hard reset (R438) -/

/-- A mute in the tick of the event, with no ramp. -/
def State.muteNow (s : State) : State := s.mutingAll fun x => { x with cmdMute := true, ramping := none }

/-- HARD_RESET: in DORMANT a start-up with cause 1 (R439). Else fetch stops; accepted commands without a commit are discarded; every
sequencer is aborted with code 8, every output muted with no ramp, every channel set off; the phase reads HARD_RESET_RAMP. Further
edges during the ramp are ignored. -/
def execHardReset (s : State) : Res :=
  if !s.boot.suppliesGood ∨ s.boot.hardRamp then .next s
  else if s.power.st = .dormant then .next (s.restart true true 1 0)
  else
    let s := { s with
      boot := { s.boot with phase := 9, hardRamp := true }
      host := { s.host with fetched := [], waiting := [], held := [] }
      desk := { s.desk with cur := none, mirror := [] } }
    let s := (List.range 256).foldl (fun s q => s.haltSeq q true s.host.accept) s
    let s := s.muteNow
    .next s.allChansOff

/-- HARD_RESET_RAMP_END: the last channel has reached OFF, and the reset proper starts at phase 0. -/
def execHardResetRampEnd (s : State) : Res :=
  if s.boot.hardRamp ∧ s.bias.chan.toList.all (fun c => decide (c.st = .off)) then .next (s.restart true true 1 0) else .next s

/-! ## PERST and function resets (Table 19.9) -/

/-- PERST: in DORMANT it wakes the device (R411); else the endpoint, the sessions and queues of every function, and the MSI-X state
restart. -/
def execPerst (s : State) : Res :=
  if !s.boot.suppliesGood then .next s
  else if s.power.st = .dormant then
    let s := s.wake 3
    .next { s with boot := { s.boot with perst := true } }
  else
    let s := s.resetFuncs fun f => decide (f < 9)
    .next { s with
      host := { s.host with msixMask := Vector.replicate 2048 true, msixPend := Vector.replicate 2048 false }
      boot := { s.boot with perst := true, linkUp := false, vfEnable := false, d3hot := Vector.replicate 9 false } }

/-- PF_FLR: the sessions and queues of every function are reset, and VF Enable is cleared. A return from D3hot to D0 acts so. -/
def execPfFlr (s : State) : Res :=
  if !s.boot.linkUp then .next s else
  let s := s.resetFuncs fun f => decide (f < 9)
  .next { s with boot := { s.boot with vfEnable := false, d3hot := Vector.replicate 9 false } }

/-- VF_FLR on a virtual function. -/
def execVfFlr (f : Fin 8) (s : State) : Res :=
  if !s.boot.linkUp ∨ !s.boot.vfEnable then .next s else
  let s := s.resetFuncs fun g => g == f.val + 1
  .next { s with boot := { s.boot with d3hot := updN s.boot.d3hot (f.val + 1) fun _ => false } }

/-- PCIE_D3HOT_ENTRY: the function completes no BAR0 access (R427, R430). -/
def execPcieD3hotEntry (f : Fin 9) (s : State) : Res :=
  if !s.boot.linkUp ∨ (f.val ≠ 0 ∧ !s.boot.vfEnable) then .next s
  else .next { s with boot := { s.boot with d3hot := upd s.boot.d3hot f fun _ => true } }

/-- PCIE_LINK_UP: PERST# is deasserted, phase 1 has ended, and the link has trained (R440). -/
def execPcieLinkUp (s : State) : Res :=
  if !s.boot.suppliesGood ∨ s.boot.phase ≤ 1 ∨ s.power.st = .dormant ∨ s.boot.linkUp then .next s
  else .next { s with boot := { s.boot with linkUp := true, perst := false } }

/-! ## Self-tests and other faults of start-up -/

/-- The pair of a sequencer fails its self-test: the sequencer starts on the cluster's spare pair (R94). Where that serves another,
the sequencer is FAILED. -/
def State.seqSelfFail (q : Nat) (s : State) : State :=
  let k := seqCluster q
  if !s.hasCluster k ∨ (s.sq q).retired then s else
  let s := if (atN s.seqs.spare k none).isSome then s.modSeq q fun c => { c with retired := true, mode := .failed }
    else ({ s with seqs := { s.seqs with spare := updN s.seqs.spare k fun _ => some q } } : State).modSeq q fun c =>
      { c with retired := true, onSpare := true }
  s.note (seqRec q 0x700)

/-- A DAC core fails its self-test: the output starts on the spare (R128), or is FAILED without one (R127). -/
def State.dacSelfFail (o : Nat) (s : State) : State :=
  let k := outCluster o
  if !s.hasCluster k ∨ (s.out o).coreFailed then s else
  let s := if s.dacSpare k = .free ∧ !atN s.synth.spareFailed k false then
      (s.setDacSpare k (.serving o)).modOut o fun x => { x with coreFailed := true, onSpare := true }
    else s.modOut o fun x => { x with coreFailed := true, failed := true, faultMute := true }
  (s.setTrouble (dieWord (outDie o)) (16 + outIndex o)).note (outRec o 0x700)

/-- An ADC core fails its self-test: the line starts on the spare (R128, R167). -/
def State.adcSelfFail (l : Nat) (s : State) : State :=
  let k := lineCluster l
  if !s.hasCluster k ∨ (s.ln l).coreFailed then s else
  let s := if s.adcSpare k = .free ∧ !atN s.readout.spareFailed k false then
      (s.setAdcSpare k (.serving l)).modLine l fun x => { x with coreFailed := true, onSpare := true }
    else s.modLine l fun x => { x with coreFailed := true, failed := true }
  (s.setTrouble (dieWord (dieOf k)) (40 + l % 8)).note (lineRec l 0x700)

/-- A sensor fails its self-test and stays failed (R415). -/
def State.sensorSelfFail (i : Nat) (s : State) : State :=
  let s := s.modSensor i fun x => { x with failedAt := some s.now }
  let w := s.substitute i
  let s := ({ s with free := s.free + 1 } : State).modSensor i fun x => { x with reading := w }
  (((s.setTrouble 0 6).note (evRec 15 i 0x400 (sensorDie i))).raise 11).starved (sensorDie i)

/-- A fault that phase 1 or 2 finds. -/
def State.selfFail (f : StartFault) (s : State) : State :=
  match f with
  | .sequencer q => s.seqSelfFail q.val
  | .dacCore o => s.dacSelfFail o.val
  | .dacSpare k => { s with synth := { s.synth with spareFailed := upd s.synth.spareFailed k fun _ => true } }
  | .adcCore l => s.adcSelfFail l.val
  | .adcSpare k => { s with readout := { s.readout with spareFailed := upd s.readout.spareFailed k fun _ => true } }
  | .sensor i => if s.supervised i.val then s.sensorSelfFail i.val else s
  | .bridgeLane d up => if s.hasDie d.val then s.retireLane d up else s
  | _ => s

/-- A Keeper voter fails its self-test: it is out of service until power-on reset, and reported (R368, R380). -/
def State.voterFail (f : StartFault) (s : State) : State :=
  match f with
  | .voter v => (({ s with units := { s.units with voters := upd s.units.voters v fun _ => false } } : State).setTrouble 0 8).note (evRec 15 v.val 0x701)
  | _ => s

/-- Start-up ends in phase 15 (R443). -/
def State.startFails (cause : Nat) (s : State) : State :=
  { s with boot := { s.boot with phase := 15, failCause := BitVec.ofNat 16 cause } }

/-! ## Boot and trims (phases 3 and 4) -/

/-- The packets of a profile, each as its words. -/
def profilePackets : Nat → Words → List Words
  | 0, _ => []
  | _, [] => []
  | n + 1, w :: l => (w :: l).take (headerLen w) :: profilePackets n ((w :: l).drop (headerLen w))

/-- The store image of this start (R386): the copy in force, or, where neither verifies, factory trims, an empty profile and no
patches, with ARCHIVE_COPY and a record. -/
def State.storeAtStart (s : State) : State :=
  let a := s.archive
  match a.choose with
  | some y => { s with archive := { a with useY := y } }
  | none =>
    let empty (m : StoreImage) : StoreImage := { m with trims := [], profile := [], patches := [] }
    (({ s with archive := { a with x := empty a.x, y := empty a.y, useY := decide (a.x.seq.toNat < a.y.seq.toNat) } } : State).setTrouble 0 9).note
      (evRec 15 0 0x702)

/-- BOOT (R400, R329): the units that have passed their self-test run their boot image; the stored patches follow. Without an image
for the ACTIVE unit, both units are FAILED. -/
def State.bootUp (s : State) : State :=
  let s := s.storeAtStart
  let s := s.startUnit s.unit
  if s.activeUnit.st = .failed then
    let s := ([.cua, .cub] : List UnitId).foldl (fun s u => s.modUnit u fun c => { c with st := .failed }) s
    { s.startFails 1 with units := { (s.startFails 1).units with token := none } }
  else
    let o := otherUnit s.unit
    let s := if (s.getUnit o).st = .resync then s.startUnit o else s
    let s := s.archive.inUse.patches.foldl (fun s p => s.patchApply p) s
    { s with boot := { s.boot with phase := 4 } }

/-- The reference source that start-up selects (R441): of the first SYNC_ARM in the profile that names one, else by the factory rule
(R33). -/
def State.firstRef (s : State) (chassis : Bool) : RefSrc :=
  let l := s.archive.inUse.profile
  let arms := (profilePackets l.length l).filterMap fun p =>
    if fld (wordAt p 0) 63 48 = 0x0202 then refSrcOf (fld (wordAt p 2) 63 60) else none
  match arms with
  | r :: _ => r
  | [] => if chassis then .chassis else .refin100

/-- TRIMS begins: the stored trim set is active, every value in force at its target (R359); the reference is selected. -/
def State.trimsUp (chassis : Bool) (s : State) : State :=
  { s with
    cal := { s.cal with active := s.archive.inUse.trims, inForce := [] }
    time := { s.time with refSrc := s.firstRef chassis, sourceChangedAt := some s.now } }

/-! ## Converters and the Ledger (phase 5) -/

/-- The reset left a shutdown at 95 °C or more: start-up holds before the converter dies are powered (R424). -/
def State.holdHot (s : State) : State :=
  { s with
    boot := { s.boot with phase := 14 }
    thermal := { s.thermal with level := .shutdown, shutAt := some s.now, dieDown := Vector.replicate 4 true }
    power := { s.power with st := .standby } }

/-- The Ledger resumes from the newest checkpoint that verifies (R391): its kind-8 record, then the records that the Curator kept, in
order (R440). `bad` checkpoints fail verification. -/
def State.resume (bad : Nat) (s : State) : State :=
  let s := (List.range (min bad s.ledger.checkpoints.length)).foldl (fun (s : State) _ => s.setTrouble 0 11) s
  let good := s.ledger.checkpoints.drop bad
  let (seq, chain, detail) : BitVec 64 × Nat × BitVec 32 := match good with
    | [] => (1, 0, 0)
    | c :: _ => (c.anchor.seq + 4096, c.anchor.chain, c.anchor.seq.setWidth 32)
  let early := s.ledger.early.reverse
  let s := { s with ledger := { s.ledger with
    nextSeq := seq, chain := chain, baseChain := chain, records := [], early := [], resumed := true, checkpoints := good } }
  let first := s.dated { kind := 8, origin := 3, handle := 0xF0000000#32, element := 15, number := 16 * s.boot.resetCause, detail := detail }
  (first :: early).foldl (fun s r => s.noteDated r) s

/-- CONVERTERS ends: the enabled dies powered, their monitors enabled and tripped (R282), the device reserve initialized, the Ledger
resumed. A disabled die is held gated (R32): its service lane groups stay down. -/
def State.convertersUp (r : StartReport) (s : State) : State :=
  if r.faults.contains .dramTraining then s.startFails 2
  else if r.faults.contains .dramDensity then s.startFails 3
  else if r.faults.contains .diePower then s.startFails 4
  else
    let l := s.bias.mon.map fun (m : Monitor) => ({ m with blankAt := s.now } : Monitor)
    let gate (c : CtlUnit) : CtlUnit := { c with groups := c.groups.mapFinIdx fun d g _ => if s.hasDie d then g else { g with up := false } }
    let s := { s with bias := { s.bias with mon := l }, boot := { s.boot with phase := 6 }, units := { s.units with a := gate s.units.a, b := gate s.units.b } }
    let s := s.patchDue 6
    s.resume (r.faults.filter (· == .checkpoint)).length

/-! ## Power-up profile (phase 6) -/

/-- A packet of the profile that is refused is skipped, with a record of its index and status (R384). -/
def State.skipPacket (k : Nat) (r : Refused) (s : State) : State := s.note { evRec 15 k 0x703 with status := BitVec.ofNat 16 r.status }

/-- One packet of the profile is checked under R299 and executes as an internal command (R384). -/
def State.replayOne (s : State) (k : Nat) (l : Words) : State :=
  let op := fld (wordAt l 0) 63 48
  let p := packetOf .internal l
  let f : Fetched := { opcode := BitVec.ofNat 16 op, packet := p, sqHead := 0, at_ := s.now, handleOk := true }
  match need (p.crc = pktCrc op p) 0x0101 1, commandOf op with
  | some r, _ => s.skipPacket k r
  | none, none => s.skipPacket k ⟨0x0102, 0⟩
  | none, some c =>
    match c.front f s with
    | some r => s.skipPacket k r
    | none =>
      let s := s.accepted p
      let a := s.host.accept
      match c.check s p with
      | some r => s.skipPacket k r
      | none =>
        if p.check then s else
        let w := s.mustWait (c.waits s p)
        if w ≠ [] then s.holdCmd f a w else s.commit f a (c.eff s p)

/-- The profile is replayed in order. -/
def State.replay (s : State) : State :=
  let l := s.archive.inUse.profile
  let ps := profilePackets l.length l
  (ps.zipIdx).foldl (fun s x => s.replayOne x.2 x.1) s

/-! ## STARTUP_PHASE_END (Table 19.10) -/

/-- A lane is in a training attempt. -/
def State.training (s : State) : Bool :=
  s.fabric.lane.toList.any fun l => match l.st with
    | .detect => true
    | .equalize => true
    | .block => true
    | .identify => true
    | .lock => true
    | _ => false

/-- STARTUP_PHASE_END: the present phase ends with what the report found, and the next begins. -/
def execStartupPhaseEnd (r : StartReport) (s : State) : Res :=
  if !s.boot.suppliesGood ∨ s.boot.hardRamp then .next s else
  let go (n : Nat) (s : State) : State := { s with boot := { s.boot with phase := n } }
  match s.boot.phase with
  | 0 => .next { s with boot := { s.boot with phase := 1, straps := s.boot.strapBalls } }
  | 1 => .next (go 2 (r.faults.foldl (fun s f => s.voterFail f) s))
  | 2 => if s.units.token.isNone then .next s else .next (go 3 (r.faults.foldl (fun s f => s.selfFail f) s))
  | 3 =>
    if r.faults.contains .identity then .next (s.startFails 5)
    else
      let s := s.bootUp
      .next (if s.boot.phase = 4 then s.trimsUp r.chassisRef else s)
  | 4 =>
    if s.time.pll = .unlocked ∧ s.time.sourceChangedAt.isSome then .next s
    else if s.boot.hot ∧ 1520 ≤ s.hottest.2 then .next s.holdHot
    else .next (go 5 s)
  | 5 => .next (s.convertersUp r)
  | 6 => .next (go 7 s.replay)
  | 7 => if s.training then .next s else .next (go 8 s)
  | _ => .next s

end Sys2Proof.Machine
end

