-- ==== Sys2Proof/Machine/Dispatch.lean ====
section
/-!
DEFINITION. Machine/Dispatch.lean: the meaning of every command, one arm per constructor of `Instr`.
-/
namespace Sys2Proof.Machine

open Host

/-- The effect of one command on everything but the queue of waiting commands. -/
def exec (i : Instr) (s : State) : Host.Outcome State Fault Refusal :=
  match i with
  | .sessionOpen p => Sys2Proof.Machine.execSessionOpen p s
  | .sessionClose p => Sys2Proof.Machine.execSessionClose p s
  | .identify p => Sys2Proof.Machine.execIdentify p s
  | .echo p => Sys2Proof.Machine.execEcho p s
  | .timeServoFeed p => Sys2Proof.Machine.execTimeServoFeed p s
  | .syncArm p => Sys2Proof.Machine.execSyncArm p s
  | .skewCal p => Sys2Proof.Machine.execSkewCal p s
  | .almanacRead p => Sys2Proof.Machine.execAlmanacRead p s
  | .seqLoad p => Sys2Proof.Machine.execSeqLoad p s
  | .seqBind p => Sys2Proof.Machine.execSeqBind p s
  | .seqArm p => Sys2Proof.Machine.execSeqArm p s
  | .seqHalt p => Sys2Proof.Machine.execSeqHalt p s
  | .seqStatus p => Sys2Proof.Machine.execSeqStatus p s
  | .toneConfig p => Sys2Proof.Machine.execToneConfig p s
  | .xtalkMatrix p => Sys2Proof.Machine.execXtalkMatrix p s
  | .outputEnable p => Sys2Proof.Machine.execOutputEnable p s
  | .folioWrite p => Sys2Proof.Machine.execFolioWrite p s
  | .shelfPin p => Sys2Proof.Machine.execShelfPin p s
  | .shelfCopyEnd bad => Sys2Proof.Machine.execShelfCopyEnd bad s
  | .streamPlan p => Sys2Proof.Machine.execStreamPlan p s
  | .readoutConfig p => Sys2Proof.Machine.execReadoutConfig p s
  | .lineSettleEnd l => Sys2Proof.Machine.execLineSettleEnd l s
  | .kernelLoad p => Sys2Proof.Machine.execKernelLoad p s
  | .discrimConfig p => Sys2Proof.Machine.execDiscrimConfig p s
  | .estLoad p => Sys2Proof.Machine.execEstLoad p s
  | .estStart p => Sys2Proof.Machine.execEstStart p s
  | .routeTable p => Sys2Proof.Machine.execRouteTable p s
  | .laneTrain p => Sys2Proof.Machine.execLaneTrain p s
  | .collectionJoin p => Sys2Proof.Machine.execCollectionJoin p s
  | .laneTest p => Sys2Proof.Machine.execLaneTest p s
  | .concMap p => Sys2Proof.Machine.execConcMap p s
  | .concWrite p => Sys2Proof.Machine.execConcWrite p s
  | .concFillEnd => Sys2Proof.Machine.execConcFillEnd s
  | .concCommit p => Sys2Proof.Machine.execConcCommit p s
  | .captureConfig p => Sys2Proof.Machine.execCaptureConfig p s
  | .patternConfig p => Sys2Proof.Machine.execPatternConfig p s
  | .captureRead p => Sys2Proof.Machine.execCaptureRead p s
  | .biasConfig p => Sys2Proof.Machine.execBiasConfig p s
  | .biasSet p => Sys2Proof.Machine.execBiasSet p s
  | .monitorConfig p => Sys2Proof.Machine.execMonitorConfig p s
  | .housekeepingRequestEnd die value => Sys2Proof.Machine.execHousekeepingRequestEnd die value s
  | .calRun p => Sys2Proof.Machine.execCalRun p s
  | .trimLoad p => Sys2Proof.Machine.execTrimLoad p s
  | .trimRead p => Sys2Proof.Machine.execTrimRead p s
  | .archiveStore p => Sys2Proof.Machine.execArchiveStore p s
  | .ledgerRead p => Sys2Proof.Machine.execLedgerRead p s
  | .troubleRead p => Sys2Proof.Machine.execTroubleRead p s
  | .troubleClear p => Sys2Proof.Machine.execTroubleClear p s
  | .attest p => Sys2Proof.Machine.execAttest p s
  | .debugUnlock p => Sys2Proof.Machine.execDebugUnlock p s
  | .patchLoad p => Sys2Proof.Machine.execPatchLoad p s
  | .lifecycleAdvance p => Sys2Proof.Machine.execLifecycleAdvance p s
  | .powerState p => Sys2Proof.Machine.execPowerState p s
  | .thermalConfig p => Sys2Proof.Machine.execThermalConfig p s
  | .partitionDefine p => Sys2Proof.Machine.execPartitionDefine p s
  | .partitionHold p => Sys2Proof.Machine.execPartitionHold p s
  | .admitShares p => Sys2Proof.Machine.execAdmitShares p s
  | .unitSwitchover p => Sys2Proof.Machine.execUnitSwitchover p s
  | .doorbellSqTail q sqTail narrow => Sys2Proof.Machine.execDoorbellSqTail q sqTail narrow s
  | .doorbellCqHead q cqHead narrow => Sys2Proof.Machine.execDoorbellCqHead q cqHead narrow s
  | .queueEnable q => Sys2Proof.Machine.execQueueEnable q s
  | .queueDisable q => Sys2Proof.Machine.execQueueDisable q s
  | .queueDrainEnd q => Sys2Proof.Machine.execQueueDrainEnd q s
  | .bar0RegisterWrite r v => Sys2Proof.Machine.execBar0RegisterWrite r v s
  | .packetFetch src ring pcieError => Sys2Proof.Machine.execPacketFetch src ring pcieError s
  | .heldCommandExecute => Sys2Proof.Machine.execHeldCommandExecute s
  | .commitSequence pcieError => Sys2Proof.Machine.execCommitSequence pcieError s
  | .standbyAckTimeout => Sys2Proof.Machine.execStandbyAckTimeout s
  | .machineCheck cause addr tail => Sys2Proof.Machine.execMachineCheck cause addr tail s
  | .repairRequest => Sys2Proof.Machine.execRepairRequest s
  | .longCommandStep accept => Sys2Proof.Machine.execLongCommandStep accept s
  | .longCommandEnd accept => Sys2Proof.Machine.execLongCommandEnd accept s
  | .interruptCoalesceTimeout q => Sys2Proof.Machine.execInterruptCoalesceTimeout q s
  | .heartbeatToggle u watchdog stall => Sys2Proof.Machine.execHeartbeatToggle u watchdog stall s
  | .heartbeatMissing u => Sys2Proof.Machine.execHeartbeatMissing u s
  | .tokenClaim u => Sys2Proof.Machine.execTokenClaim u s
  | .keeperDecision => Sys2Proof.Machine.execKeeperDecision s
  | .switchover => Sys2Proof.Machine.execSwitchover s
  | .journalParityError => Sys2Proof.Machine.execJournalParityError s
  | .standbyProof passed => Sys2Proof.Machine.execStandbyProof passed s
  | .unitRestart u => Sys2Proof.Machine.execUnitRestart u s
  | .unitSelftestEnd u passed => Sys2Proof.Machine.execUnitSelftestEnd u passed s
  | .resyncEnd u => Sys2Proof.Machine.execResyncEnd u s
  | .keeperVoterFault v => Sys2Proof.Machine.execKeeperVoterFault v s
  | .serviceLaneFailure u die => Sys2Proof.Machine.execServiceLaneFailure u die s
  | .serviceLaneRetrain die up => Sys2Proof.Machine.execServiceLaneRetrain die up s
  | .serviceLaneUp u die => Sys2Proof.Machine.execServiceLaneUp u die s
  | .serviceLaneHoldTimeout die => Sys2Proof.Machine.execServiceLaneHoldTimeout die s
  | .referenceLoss => Sys2Proof.Machine.execReferenceLoss s
  | .referenceReturn => Sys2Proof.Machine.execReferenceReturn s
  | .referenceStable => Sys2Proof.Machine.execReferenceStable s
  | .relockComplete => Sys2Proof.Machine.execRelockComplete s
  | .pllLock => Sys2Proof.Machine.execPllLock s
  | .referenceTimeout => Sys2Proof.Machine.execReferenceTimeout s
  | .pllFault => Sys2Proof.Machine.execPllFault s
  | .syncEdge src ps => Sys2Proof.Machine.execSyncEdge src ps s
  | .epochSet => Sys2Proof.Machine.execEpochSet s
  | .almanacMark => Sys2Proof.Machine.execAlmanacMark s
  | .servoPhaseTermEnd => Sys2Proof.Machine.execServoPhaseTermEnd s
  | .almanacEventFire => Sys2Proof.Machine.execAlmanacEventFire s
  | .skewCalComplete => Sys2Proof.Machine.execSkewCalComplete s
  | .skewCalTimeout => Sys2Proof.Machine.execSkewCalTimeout s
  | .shotStart q => Sys2Proof.Machine.execShotStart q s
  | .shotBoundary q => Sys2Proof.Machine.execShotBoundary q s
  | .shotLengthLimit q => Sys2Proof.Machine.execShotLengthLimit q s
  | .nop q => Sys2Proof.Machine.execNop q s
  | .play q => Sys2Proof.Machine.execPlay q s
  | .setf q => Sys2Proof.Machine.execSetf q s
  | .setp q => Sys2Proof.Machine.execSetp q s
  | .frame q => Sys2Proof.Machine.execFrame q s
  | .measure q => Sys2Proof.Machine.execMeasure q s
  | .mark q => Sys2Proof.Machine.execMark q s
  | .wait q => Sys2Proof.Machine.execWait q s
  | .waitResolve q => Sys2Proof.Machine.execWaitResolve q s
  | .waitTimeout q => Sys2Proof.Machine.execWaitTimeout q s
  | .brv q => Sys2Proof.Machine.execBrv q s
  | .brvResolve q => Sys2Proof.Machine.execBrvResolve q s
  | .brvDeadline q => Sys2Proof.Machine.execBrvDeadline q s
  | .lookup q => Sys2Proof.Machine.execLookup q s
  | .lookupResolve q => Sys2Proof.Machine.execLookupResolve q s
  | .lookupResult q err => Sys2Proof.Machine.execLookupResult q err s
  | .br q => Sys2Proof.Machine.execBr q s
  | .loop q => Sys2Proof.Machine.execLoop q s
  | .call q => Sys2Proof.Machine.execCall q s
  | .ret q => Sys2Proof.Machine.execRet q s
  | .seqEnd q => Sys2Proof.Machine.execSeqEnd q s
  | .alu q => Sys2Proof.Machine.execAlu q s
  | .alui q => Sys2Proof.Machine.execAlui q s
  | .li q => Sys2Proof.Machine.execLi q s
  | .movs q => Sys2Proof.Machine.execMovs q s
  | .cueExecute q => Sys2Proof.Machine.execCueExecute q s
  | .markPulseEnd m => Sys2Proof.Machine.execMarkPulseEnd m s
  | .seqAbortCut q => Sys2Proof.Machine.execSeqAbortCut q s
  | .lockstepMiscompare q => Sys2Proof.Machine.execLockstepMiscompare q s
  | .sparePairRestoreEnd q => Sys2Proof.Machine.execSparePairRestoreEnd q s
  | .programMemoryError q addr corrected => Sys2Proof.Machine.execProgramMemoryError q addr corrected s
  | .bridgeParityError lane => Sys2Proof.Machine.execBridgeParityError lane s
  | .bridgeLaneRetire die toHub => Sys2Proof.Machine.execBridgeLaneRetire die toHub s
  | .debugSequencerHalt q => Sys2Proof.Machine.execDebugSequencerHalt q s
  | .debugSequencerStep q => Sys2Proof.Machine.execDebugSequencerStep q s
  | .refillRequest q b => Sys2Proof.Machine.execRefillRequest q b s
  | .refillLand q b n err => Sys2Proof.Machine.execRefillLand q b n err s
  | .shelfEccError q granule word corrected => Sys2Proof.Machine.execShelfEccError q granule word corrected s
  | .outputRampEnd o => Sys2Proof.Machine.execOutputRampEnd o s
  | .dacCoreSettled o => Sys2Proof.Machine.execDacCoreSettled o s
  | .dacCoreFault o => Sys2Proof.Machine.execDacCoreFault o s
  | .dacFaultSwapEnd o => Sys2Proof.Machine.execDacFaultSwapEnd o s
  | .sparePrepared k => Sys2Proof.Machine.execSparePrepared k s
  | .dacPlannedSwap o => Sys2Proof.Machine.execDacPlannedSwap o s
  | .dacPlannedSwapEnd o => Sys2Proof.Machine.execDacPlannedSwapEnd o s
  | .plannedSwapAbandon k => Sys2Proof.Machine.execPlannedSwapAbandon k s
  | .adcCoreFault l => Sys2Proof.Machine.execAdcCoreFault l s
  | .adcFaultSwapEnd l => Sys2Proof.Machine.execAdcFaultSwapEnd l s
  | .adcPlannedSwap l => Sys2Proof.Machine.execAdcPlannedSwap l s
  | .adcPlannedSwapEnd l => Sys2Proof.Machine.execAdcPlannedSwapEnd l s
  | .windowClose k codes samples => Sys2Proof.Machine.execWindowClose k codes samples s
  | .windowClosedNoResult k codes samples => Sys2Proof.Machine.execWindowClosedNoResult k codes samples s
  | .discriminatorWordArrival l => Sys2Proof.Machine.execDiscriminatorWordArrival l s
  | .absentVerdictFormation k d => Sys2Proof.Machine.execAbsentVerdictFormation k d s
  | .valueArrival l => Sys2Proof.Machine.execValueArrival l s
  | .verdictLatch => Sys2Proof.Machine.execVerdictLatch s
  | .estimatorRequest e => Sys2Proof.Machine.execEstimatorRequest e s
  | .estimatorDispatch e => Sys2Proof.Machine.execEstimatorDispatch e s
  | .estNop e => Sys2Proof.Machine.execEstNop e s
  | .vfma e => Sys2Proof.Machine.execVfma e s
  | .vfms e => Sys2Proof.Machine.execVfms e s
  | .vmul e => Sys2Proof.Machine.execVmul e s
  | .vadd e => Sys2Proof.Machine.execVadd e s
  | .vsub e => Sys2Proof.Machine.execVsub e s
  | .vmin e => Sys2Proof.Machine.execVmin e s
  | .vmax e => Sys2Proof.Machine.execVmax e s
  | .vminx e => Sys2Proof.Machine.execVminx e s
  | .vmaxx e => Sys2Proof.Machine.execVmaxx e s
  | .vsum e => Sys2Proof.Machine.execVsum e s
  | .vbc e => Sys2Proof.Machine.execVbc e s
  | .movx e => Sys2Proof.Machine.execMovx e s
  | .vmov e => Sys2Proof.Machine.execVmov e s
  | .xop e => Sys2Proof.Machine.execXop e s
  | .xopi e => Sys2Proof.Machine.execXopi e s
  | .liq e => Sys2Proof.Machine.execLiq e s
  | .aadd e => Sys2Proof.Machine.execAadd e s
  | .amov e => Sys2Proof.Machine.execAmov e s
  | .vld e => Sys2Proof.Machine.execVld e s
  | .vst e => Sys2Proof.Machine.execVst e s
  | .xld e => Sys2Proof.Machine.execXld e s
  | .xst e => Sys2Proof.Machine.execXst e s
  | .vldb e => Sys2Proof.Machine.execVldb e s
  | .estBr e => Sys2Proof.Machine.execEstBr e s
  | .brx e => Sys2Proof.Machine.execBrx e s
  | .repeatN e => Sys2Proof.Machine.execRepeatN e s
  | .repeatx e => Sys2Proof.Machine.execRepeatx e s
  | .post e => Sys2Proof.Machine.execPost e s
  | .estDone e => Sys2Proof.Machine.execEstDone e s
  | .idle e => Sys2Proof.Machine.execIdle e s
  | .halt e => Sys2Proof.Machine.execHalt e s
  | .estimatorStop e => Sys2Proof.Machine.execEstimatorStop e s
  | .estimatorProgramMemoryError e err => Sys2Proof.Machine.execEstimatorProgramMemoryError e err s
  | .estimatorAutorestart e => Sys2Proof.Machine.execEstimatorAutorestart e s
  | .pageSwap e => Sys2Proof.Machine.execPageSwap e s
  | .pageCopyEnd e => Sys2Proof.Machine.execPageCopyEnd e s
  | .debugEstimatorHalt e => Sys2Proof.Machine.execDebugEstimatorHalt e s
  | .debugEstimatorStep e => Sys2Proof.Machine.execDebugEstimatorStep e s
  | .laneVerdictLaunch n => Sys2Proof.Machine.execLaneVerdictLaunch n s
  | .laneVerdictReceive n packet launch => Sys2Proof.Machine.execLaneVerdictReceive n packet launch s
  | .checkBlockReceive n payloads content => Sys2Proof.Machine.execCheckBlockReceive n payloads content s
  | .serviceIdentity n cid member peerLane => Sys2Proof.Machine.execServiceIdentity n cid member peerLane s
  | .serviceMarker n stamp number => Sys2Proof.Machine.execServiceMarker n stamp number s
  | .serviceEcho n stamp turnaround => Sys2Proof.Machine.execServiceEcho n stamp turnaround s
  | .serviceSkew n stamp peerPhase t2 phase => Sys2Proof.Machine.execServiceSkew n stamp peerPhase t2 phase s
  | .testreq n ms => Sys2Proof.Machine.execTestreq n ms s
  | .testack n => Sys2Proof.Machine.execTestack n s
  | .testrefuse n => Sys2Proof.Machine.execTestrefuse n s
  | .laneFailure n cause => Sys2Proof.Machine.execLaneFailure n cause s
  | .laneDetectDone n => Sys2Proof.Machine.execLaneDetectDone n s
  | .laneEqualizeDone n peaking margin => Sys2Proof.Machine.execLaneEqualizeDone n peaking margin s
  | .laneBlockLock n => Sys2Proof.Machine.execLaneBlockLock n s
  | .laneIdentifyDone n => Sys2Proof.Machine.execLaneIdentifyDone n s
  | .laneLockDone n => Sys2Proof.Machine.execLaneLockDone n s
  | .laneAttemptTimeout n => Sys2Proof.Machine.execLaneAttemptTimeout n s
  | .laneAutoRetrain n => Sys2Proof.Machine.execLaneAutoRetrain n s
  | .laneMarginMeasure n margin => Sys2Proof.Machine.execLaneMarginMeasure n margin s
  | .laneRelock n => Sys2Proof.Machine.execLaneRelock n s
  | .laneWakeEnd n => Sys2Proof.Machine.execLaneWakeEnd n s
  | .laneTestEnd n bits errors => Sys2Proof.Machine.execLaneTestEnd n bits errors s
  | .verificationEnd v => Sys2Proof.Machine.execVerificationEnd v s
  | .memberLanding q => Sys2Proof.Machine.execMemberLanding q s
  | .copyingEnd v => Sys2Proof.Machine.execCopyingEnd v s
  | .concordanceScrub bank1 at_ err => Sys2Proof.Machine.execConcordanceScrub bank1 at_ err s
  | .triggerInputEdge input level delay => Sys2Proof.Machine.execTriggerInputEdge input level delay s
  | .triggerEvent input => Sys2Proof.Machine.execTriggerEvent input s
  | .inputStuck input => Sys2Proof.Machine.execInputStuck input s
  | .patternUnitFire u => Sys2Proof.Machine.execPatternUnitFire u s
  | .captureHoldoffEnd k => Sys2Proof.Machine.execCaptureHoldoffEnd k s
  | .rawRecordEnd k data => Sys2Proof.Machine.execRawRecordEnd k data s
  | .recordDrain k bad => Sys2Proof.Machine.execRecordDrain k bad s
  | .biasSlewStep b => Sys2Proof.Machine.execBiasSlewStep b s
  | .deglitchHoldEnd b => Sys2Proof.Machine.execDeglitchHoldEnd b s
  | .biasQueueStart b => Sys2Proof.Machine.execBiasQueueStart b s
  | .biasQueueUpdate b => Sys2Proof.Machine.execBiasQueueUpdate b s
  | .biasReachZero b => Sys2Proof.Machine.execBiasReachZero b s
  | .biasSwitchOpen b => Sys2Proof.Machine.execBiasSwitchOpen b s
  | .supervisionEvent b current => Sys2Proof.Machine.execSupervisionEvent b current s
  | .monitorTrip m x => Sys2Proof.Machine.execMonitorTrip m x s
  | .monitorRelease m above => Sys2Proof.Machine.execMonitorRelease m above s
  | .trimTargetUpdate => Sys2Proof.Machine.execTrimTargetUpdate s
  | .trimStep die cls index => Sys2Proof.Machine.execTrimStep die cls index s
  | .biasTrimStep b => Sys2Proof.Machine.execBiasTrimStep b s
  | .calElementEnd die result => Sys2Proof.Machine.execCalElementEnd die result s
  | .calRunEnd die => Sys2Proof.Machine.execCalRunEnd die s
  | .sensorPoll sensor reading => Sys2Proof.Machine.execSensorPoll sensor reading s
  | .thermalLevelEntry => Sys2Proof.Machine.execThermalLevelEntry s
  | .thermalLevelRelease => Sys2Proof.Machine.execThermalLevelRelease s
  | .throttleStep => Sys2Proof.Machine.execThrottleStep s
  | .thermalShutdown => Sys2Proof.Machine.execThermalShutdown s
  | .shutdownDieStandby die => Sys2Proof.Machine.execShutdownDieStandby die s
  | .dramTemperatureRead status => Sys2Proof.Machine.execDramTemperatureRead status s
  | .dramZqUpdate => Sys2Proof.Machine.execDramZqUpdate s
  | .dramPatrolScrub channel codeword uncorrectable => Sys2Proof.Machine.execDramPatrolScrub channel codeword uncorrectable s
  | .meminitComplete => Sys2Proof.Machine.execMeminitComplete s
  | .holdTimeout part => Sys2Proof.Machine.execHoldTimeout part s
  | .diePatchApply die => Sys2Proof.Machine.execDiePatchApply die s
  | .diePatchEnd die => Sys2Proof.Machine.execDiePatchEnd die s
  | .powerStepEnd => Sys2Proof.Machine.execPowerStepEnd s
  | .debugChallengeExpiry => Sys2Proof.Machine.execDebugChallengeExpiry s
  | .debugLockoutEnd => Sys2Proof.Machine.execDebugLockoutEnd s
  | .dapQueueWrite addr data => Sys2Proof.Machine.execDapQueueWrite addr data s
  | .dapQueueRead addr => Sys2Proof.Machine.execDapQueueRead addr s
  | .dapDoorbell data => Sys2Proof.Machine.execDapDoorbell data s
  | .dapRawRead addr => Sys2Proof.Machine.execDapRawRead addr s
  | .dapRawWrite addr data => Sys2Proof.Machine.execDapRawWrite addr data s
  | .dapBadOperation => Sys2Proof.Machine.execDapBadOperation s
  | .dapOperationEnd => Sys2Proof.Machine.execDapOperationEnd s
  | .dapCaptureDr => Sys2Proof.Machine.execDapCaptureDr s
  | .jtagIdcode => Sys2Proof.Machine.execJtagIdcode s
  | .jtagSamplePreload v => Sys2Proof.Machine.execJtagSamplePreload v s
  | .jtagExtest => Sys2Proof.Machine.execJtagExtest s
  | .jtagClamp => Sys2Proof.Machine.execJtagClamp s
  | .jtagHighz => Sys2Proof.Machine.execJtagHighz s
  | .jtagDap => Sys2Proof.Machine.execJtagDap s
  | .jtagBypass => Sys2Proof.Machine.execJtagBypass s
  | .jtagTestLogicReset => Sys2Proof.Machine.execJtagTestLogicReset s
  | .smbusIdentity => Sys2Proof.Machine.execSmbusIdentity s
  | .smbusMailbox => Sys2Proof.Machine.execSmbusMailbox s
  | .smbusTemps => Sys2Proof.Machine.execSmbusTemps s
  | .smbusTrouble => Sys2Proof.Machine.execSmbusTrouble s
  | .smbusWake data => Sys2Proof.Machine.execSmbusWake data s
  | .smbusUnknownCommand code => Sys2Proof.Machine.execSmbusUnknownCommand code s
  | .smbusAlertResponse => Sys2Proof.Machine.execSmbusAlertResponse s
  | .railUndervoltage vio => Sys2Proof.Machine.execRailUndervoltage vio s
  | .powerOnReset => Sys2Proof.Machine.execPowerOnReset s
  | .hardReset => Sys2Proof.Machine.execHardReset s
  | .hardResetRampEnd => Sys2Proof.Machine.execHardResetRampEnd s
  | .perst => Sys2Proof.Machine.execPerst s
  | .pfFlr => Sys2Proof.Machine.execPfFlr s
  | .vfFlr f => Sys2Proof.Machine.execVfFlr f s
  | .pcieD3hotEntry f => Sys2Proof.Machine.execPcieD3hotEntry f s
  | .pcieLinkUp => Sys2Proof.Machine.execPcieLinkUp s
  | .startupPhaseEnd r => Sys2Proof.Machine.execStartupPhaseEnd r s
  | .configurationMeasurement => Sys2Proof.Machine.execConfigurationMeasurement s
  | .outputRampUpEnd o => Sys2Proof.Machine.execOutputRampUpEnd o s
  | .stageLimitChange b limited => Sys2Proof.Machine.execStageLimitChange b limited s
  | .patternLockLoss n lost => Sys2Proof.Machine.execPatternLockLoss n lost s
  | .internalCalibrationEnd => Sys2Proof.Machine.execInternalCalibrationEnd s
  | .uncoveredDieFault die => Sys2Proof.Machine.execUncoveredDieFault die s
  | .msixVectorUnmask v => Sys2Proof.Machine.execMsixVectorUnmask v s
  | .vfEnable => Sys2Proof.Machine.execVfEnable s

end Sys2Proof.Machine
end

