-- ==== Sys2Proof/Machine/Step.lean ====
section
/-!
DEFINITION. Machine/Step.lean: one step takes the command at the front of the queue; on an empty queue one tick passes.
-/
namespace Sys2Proof.Machine

/-- One step of the device. DESIGN CHOICE: on an empty queue one tick of 1 ns passes, in which the tick counter counts and the Almanac
advances (R39, R48). -/
def step (s : State) : Host.Outcome State Fault Refusal :=
  match s.pending with
  | [] => .next (s.advance 1)
  | c :: l => exec c { s with pending := l }

/-- The command that a word spells, put at the front of the queue; no word spells one. -/
def State.withFetchWord (s : State) (nbits w : Nat) : State :=
  match decodeTableWord nbits w with
  | some c => { s with pending := c :: s.pending }
  | none => s

end Sys2Proof.Machine
end

