-- ==== Sys2Proof/WellFormed.lean ====
section
/-!
DEFINITION. WellFormed.lean: which commands can reach the device. The operands' types bound the element numbers; what is left is the
length of a packet (R293: at most 1,024 slots), what a fetch reads, the payloads of a frame (R206), and the width of a sensor reading
(Table 18.1).
-/
namespace Sys2Proof

/-- A packet has at most 1,024 slots of 8 words, two of them its header (R293). -/
def Packet.wf (p : Packet) : Bool := decide (p.payload.length ≤ 8190)

/-- A fetch reads the submission ring of a queue, never of the device itself, at most 1,024 slots (R292). -/
def fetchWf (src : Source) (ring : Words) : Bool := src != .internal && decide (ring.length ≤ 8192)

/-- A frame carries the payloads of 15 slots before its check block (R206). -/
def frameWf (l : Words) : Bool := l.length == 15

/-- A sensor reading has 16 bits, signed (Table 18.1). -/
def readingWf (v : Int) : Bool := decide (-32768 ≤ v ∧ v < 32768)

/-- The causes of a lane failure look at 64 consecutive blocks (R212). -/
def LaneCause.wf : LaneCause → Bool
  | .blocks _ run => decide (run.length ≤ 64)
  | _ => true

/-- The command can reach the device. -/
def Instr.wf : Instr → Bool
  | .sessionOpen p => p.wf
  | .sessionClose p => p.wf
  | .identify p => p.wf
  | .echo p => p.wf
  | .timeServoFeed p => p.wf
  | .syncArm p => p.wf
  | .skewCal p => p.wf
  | .almanacRead p => p.wf
  | .seqLoad p => p.wf
  | .seqBind p => p.wf
  | .seqArm p => p.wf
  | .seqHalt p => p.wf
  | .seqStatus p => p.wf
  | .toneConfig p => p.wf
  | .xtalkMatrix p => p.wf
  | .outputEnable p => p.wf
  | .folioWrite p => p.wf
  | .shelfPin p => p.wf
  | .shelfCopyEnd _ => true
  | .streamPlan p => p.wf
  | .readoutConfig p => p.wf
  | .lineSettleEnd _ => true
  | .kernelLoad p => p.wf
  | .discrimConfig p => p.wf
  | .estLoad p => p.wf
  | .estStart p => p.wf
  | .routeTable p => p.wf
  | .laneTrain p => p.wf
  | .collectionJoin p => p.wf
  | .laneTest p => p.wf
  | .concMap p => p.wf
  | .concWrite p => p.wf
  | .concFillEnd => true
  | .concCommit p => p.wf
  | .captureConfig p => p.wf
  | .patternConfig p => p.wf
  | .captureRead p => p.wf
  | .biasConfig p => p.wf
  | .biasSet p => p.wf
  | .monitorConfig p => p.wf
  | .housekeepingRequestEnd _ _ => true
  | .calRun p => p.wf
  | .trimLoad p => p.wf
  | .trimRead p => p.wf
  | .archiveStore p => p.wf
  | .ledgerRead p => p.wf
  | .troubleRead p => p.wf
  | .troubleClear p => p.wf
  | .attest p => p.wf
  | .debugUnlock p => p.wf
  | .patchLoad p => p.wf
  | .lifecycleAdvance p => p.wf
  | .powerState p => p.wf
  | .thermalConfig p => p.wf
  | .partitionDefine p => p.wf
  | .partitionHold p => p.wf
  | .admitShares p => p.wf
  | .unitSwitchover p => p.wf
  | .doorbellSqTail _ _ _ => true
  | .doorbellCqHead _ _ _ => true
  | .queueEnable _ => true
  | .queueDisable _ => true
  | .queueDrainEnd _ => true
  | .bar0RegisterWrite _ _ => true
  | .packetFetch src ring _ => fetchWf src ring
  | .heldCommandExecute => true
  | .commitSequence _ => true
  | .standbyAckTimeout => true
  | .machineCheck _ _ _ => true
  | .repairRequest => true
  | .longCommandStep _ => true
  | .longCommandEnd _ => true
  | .interruptCoalesceTimeout _ => true
  | .heartbeatToggle _ _ _ => true
  | .heartbeatMissing _ => true
  | .tokenClaim _ => true
  | .keeperDecision => true
  | .switchover => true
  | .journalParityError => true
  | .standbyProof _ => true
  | .unitRestart _ => true
  | .unitSelftestEnd _ _ => true
  | .resyncEnd _ => true
  | .keeperVoterFault _ => true
  | .serviceLaneFailure _ _ => true
  | .serviceLaneRetrain _ _ => true
  | .serviceLaneUp _ _ => true
  | .serviceLaneHoldTimeout _ => true
  | .referenceLoss => true
  | .referenceReturn => true
  | .referenceStable => true
  | .relockComplete => true
  | .pllLock => true
  | .referenceTimeout => true
  | .pllFault => true
  | .syncEdge _ _ => true
  | .epochSet => true
  | .almanacMark => true
  | .servoPhaseTermEnd => true
  | .almanacEventFire => true
  | .skewCalComplete => true
  | .skewCalTimeout => true
  | .shotStart _ => true
  | .shotBoundary _ => true
  | .shotLengthLimit _ => true
  | .nop _ => true
  | .play _ => true
  | .setf _ => true
  | .setp _ => true
  | .frame _ => true
  | .measure _ => true
  | .mark _ => true
  | .wait _ => true
  | .waitResolve _ => true
  | .waitTimeout _ => true
  | .brv _ => true
  | .brvResolve _ => true
  | .brvDeadline _ => true
  | .lookup _ => true
  | .lookupResolve _ => true
  | .lookupResult _ _ => true
  | .br _ => true
  | .loop _ => true
  | .call _ => true
  | .ret _ => true
  | .seqEnd _ => true
  | .alu _ => true
  | .alui _ => true
  | .li _ => true
  | .movs _ => true
  | .cueExecute _ => true
  | .markPulseEnd _ => true
  | .seqAbortCut _ => true
  | .lockstepMiscompare _ => true
  | .sparePairRestoreEnd _ => true
  | .programMemoryError _ _ _ => true
  | .bridgeParityError _ => true
  | .bridgeLaneRetire _ _ => true
  | .debugSequencerHalt _ => true
  | .debugSequencerStep _ => true
  | .refillRequest _ _ => true
  | .refillLand _ _ _ _ => true
  | .shelfEccError _ _ _ _ => true
  | .outputRampEnd _ => true
  | .dacCoreSettled _ => true
  | .dacCoreFault _ => true
  | .dacFaultSwapEnd _ => true
  | .sparePrepared _ => true
  | .dacPlannedSwap _ => true
  | .dacPlannedSwapEnd _ => true
  | .plannedSwapAbandon _ => true
  | .adcCoreFault _ => true
  | .adcFaultSwapEnd _ => true
  | .adcPlannedSwap _ => true
  | .adcPlannedSwapEnd _ => true
  | .windowClose _ _ _ => true
  | .windowClosedNoResult _ _ _ => true
  | .discriminatorWordArrival _ => true
  | .absentVerdictFormation _ _ => true
  | .valueArrival _ => true
  | .verdictLatch => true
  | .estimatorRequest _ => true
  | .estimatorDispatch _ => true
  | .estNop _ => true
  | .vfma _ => true
  | .vfms _ => true
  | .vmul _ => true
  | .vadd _ => true
  | .vsub _ => true
  | .vmin _ => true
  | .vmax _ => true
  | .vminx _ => true
  | .vmaxx _ => true
  | .vsum _ => true
  | .vbc _ => true
  | .movx _ => true
  | .vmov _ => true
  | .xop _ => true
  | .xopi _ => true
  | .liq _ => true
  | .aadd _ => true
  | .amov _ => true
  | .vld _ => true
  | .vst _ => true
  | .xld _ => true
  | .xst _ => true
  | .vldb _ => true
  | .estBr _ => true
  | .brx _ => true
  | .repeatN _ => true
  | .repeatx _ => true
  | .post _ => true
  | .estDone _ => true
  | .idle _ => true
  | .halt _ => true
  | .estimatorStop _ => true
  | .estimatorProgramMemoryError _ _ => true
  | .estimatorAutorestart _ => true
  | .pageSwap _ => true
  | .pageCopyEnd _ => true
  | .debugEstimatorHalt _ => true
  | .debugEstimatorStep _ => true
  | .laneVerdictLaunch _ => true
  | .laneVerdictReceive _ _ _ => true
  | .checkBlockReceive _ l _ => frameWf l
  | .serviceIdentity _ _ _ _ => true
  | .serviceMarker _ _ _ => true
  | .serviceEcho _ _ _ => true
  | .serviceSkew _ _ _ _ _ => true
  | .testreq _ _ => true
  | .testack _ => true
  | .testrefuse _ => true
  | .laneFailure _ cause => cause.wf
  | .laneDetectDone _ => true
  | .laneEqualizeDone _ _ _ => true
  | .laneBlockLock _ => true
  | .laneIdentifyDone _ => true
  | .laneLockDone _ => true
  | .laneAttemptTimeout _ => true
  | .laneAutoRetrain _ => true
  | .laneMarginMeasure _ _ => true
  | .laneRelock _ => true
  | .laneWakeEnd _ => true
  | .laneTestEnd _ _ _ => true
  | .verificationEnd _ => true
  | .memberLanding _ => true
  | .copyingEnd _ => true
  | .concordanceScrub _ _ _ => true
  | .triggerInputEdge _ _ _ => true
  | .triggerEvent _ => true
  | .inputStuck _ => true
  | .patternUnitFire _ => true
  | .captureHoldoffEnd _ => true
  | .rawRecordEnd _ _ => true
  | .recordDrain _ _ => true
  | .biasSlewStep _ => true
  | .deglitchHoldEnd _ => true
  | .biasQueueStart _ => true
  | .biasQueueUpdate _ => true
  | .biasReachZero _ => true
  | .biasSwitchOpen _ => true
  | .supervisionEvent _ _ => true
  | .monitorTrip _ _ => true
  | .monitorRelease _ _ => true
  | .trimTargetUpdate => true
  | .trimStep _ _ _ => true
  | .biasTrimStep _ => true
  | .calElementEnd _ _ => true
  | .calRunEnd _ => true
  | .sensorPoll _ v => readingWf v
  | .thermalLevelEntry => true
  | .thermalLevelRelease => true
  | .throttleStep => true
  | .thermalShutdown => true
  | .shutdownDieStandby _ => true
  | .dramTemperatureRead _ => true
  | .dramZqUpdate => true
  | .dramPatrolScrub _ _ _ => true
  | .meminitComplete => true
  | .holdTimeout _ => true
  | .diePatchApply _ => true
  | .diePatchEnd _ => true
  | .powerStepEnd => true
  | .debugChallengeExpiry => true
  | .debugLockoutEnd => true
  | .dapQueueWrite _ _ => true
  | .dapQueueRead _ => true
  | .dapDoorbell _ => true
  | .dapRawRead _ => true
  | .dapRawWrite _ _ => true
  | .dapBadOperation => true
  | .dapOperationEnd => true
  | .dapCaptureDr => true
  | .jtagIdcode => true
  | .jtagSamplePreload _ => true
  | .jtagExtest => true
  | .jtagClamp => true
  | .jtagHighz => true
  | .jtagDap => true
  | .jtagBypass => true
  | .jtagTestLogicReset => true
  | .smbusIdentity => true
  | .smbusMailbox => true
  | .smbusTemps => true
  | .smbusTrouble => true
  | .smbusWake _ => true
  | .smbusUnknownCommand _ => true
  | .smbusAlertResponse => true
  | .railUndervoltage _ => true
  | .powerOnReset => true
  | .hardReset => true
  | .hardResetRampEnd => true
  | .perst => true
  | .pfFlr => true
  | .vfFlr _ => true
  | .pcieD3hotEntry _ => true
  | .pcieLinkUp => true
  | .startupPhaseEnd _ => true
  | .configurationMeasurement => true
  | .outputRampUpEnd _ => true
  | .stageLimitChange _ _ => true
  | .patternLockLoss _ _ => true
  | .internalCalibrationEnd => true
  | .uncoveredDieFault _ => true
  | .msixVectorUnmask _ => true
  | .vfEnable => true

end Sys2Proof
end

