-- ==== Sys2Proof/Safety.lean ====
section
/-!
DEFINITION. Safety.lean: the terms in which statements speak of the machine: a command that completes, a packet that the Desk takes
up and executes at once, and what a safe step keeps.
-/
namespace Sys2Proof.Machine

/-- In every state with `pre`, the command completes in a next state with `post`. -/
def Completes (i : Instr) (pre : State → Prop) (post : State → State → Prop) : Prop :=
  ∀ s, pre s → ∃ t, exec i s = .next t ∧ post s t

/-- The state in which the Desk forms the effect of a packet: the packet is out of the packet buffer, the routine's microcode has run
(R318), and the command has its acceptance number (R305). -/
def Command.entry (c : Command) (p : Packet) (s : State) : State :=
  ((s.takeOut (s.fetchedAs c.opcode p)).routine (s.fetchedAs c.opcode p)).accepted p

/-- The Desk takes the packet up now, and the command executes at once: the Desk serves the queue (R440), no order rule keeps it
waiting (R306), no command that was abandoned and no released hold list goes first (R307, R323), CHECK is 0, every check of R299 passes,
and nothing holds it (R307). -/
def Command.takesIn (c : Command) (p : Packet) (s : State) : Bool :=
  let f := s.fetchedAs c.opcode p
  s.deskUp p.source && s.desk.cur.isNone && s.heldNext.isNone && !s.behind f && !s.queueBusy p.source && s.mayBegin p && !p.check
    && (c.front f ((s.takeOut f).routine f)).isNone && (c.check (c.entry p s) p).isNone
    && ((c.entry p s).mustWait (c.waits (c.entry p s) p)).isEmpty

/-- The packet comes from an enabled queue (R289) or from the device itself, and executes at once. -/
def Command.readyIn (c : Command) (p : Packet) (s : State) : Bool :=
  (p.source == .internal || (s.queue p.source).qstate == .enabled) && c.takesIn p s

/-- A packet command that is taken up and executes at once answers a next state, has the next acceptance number (R305), and makes
the change `post`. -/
def Answers (i : Instr) (c : Command) (p : Packet) (post : State → State → Prop) : Prop :=
  Completes i (fun s => c.readyIn p s = true) fun s t => t.host.accept = s.host.accept + 1 ∧ post s t

/-- The newest completion in host memory answers the packet, with a status and a reply (R296, R297). A packet of the device's own has no
completion ring. -/
def Posted (p : Packet) (accept : BitVec 32) (status : Nat) (reply : Option Words) (t : State) : Prop :=
  p.source = .internal ∨ ∃ c, t.host.posted.head? = some c ∧ c.source = p.source ∧ c.tag = p.tag ∧ c.handle = p.handle ∧
    c.accept = accept ∧ c.status = BitVec.ofNat 16 status ∧ c.reply = reply

/-- The parts of the state. -/
inductive Part where
  | pending
  | ident
  | time
  | host
  | units
  | desk
  | parts
  | archive
  | pages
  | ledger
  | trouble
  | sec
  | power
  | boot
  | dap
  | seqs
  | synth
  | wave
  | readout
  | est
  | fabric
  | conc
  | acq
  | bias
  | cal
  | thermal
  | free
deriving DecidableEq, Repr

/-- A part of the state is unchanged. -/
def Part.same (k : Part) (s t : State) : Prop :=
  match k with
  | .pending => t.pending = s.pending
  | .ident => t.ident = s.ident
  | .time => t.time = s.time
  | .host => t.host = s.host
  | .units => t.units = s.units
  | .desk => t.desk = s.desk
  | .parts => t.parts = s.parts
  | .archive => t.archive = s.archive
  | .pages => t.pages = s.pages
  | .ledger => t.ledger = s.ledger
  | .trouble => t.trouble = s.trouble
  | .sec => t.sec = s.sec
  | .power => t.power = s.power
  | .boot => t.boot = s.boot
  | .dap => t.dap = s.dap
  | .seqs => t.seqs = s.seqs
  | .synth => t.synth = s.synth
  | .wave => t.wave = s.wave
  | .readout => t.readout = s.readout
  | .est => t.est = s.est
  | .fabric => t.fabric = s.fabric
  | .conc => t.conc = s.conc
  | .acq => t.acq = s.acq
  | .bias => t.bias = s.bias
  | .cal => t.cal = s.cal
  | .thermal => t.thermal = s.thermal
  | .free => t.free = s.free

/-- Nothing but the parts of `l` has changed. -/
def Only (l : List Part) (s t : State) : Prop := ∀ k : Part, k ∉ l → k.same s t

/-- Where completions, messages, the Desk's registers and its journal, records, the Archive's pages, trouble bits and the count of free values
stand. -/
def report : List Part := [.host, .desk, .pages, .ledger, .trouble, .free]

/-- The parts that a clause names, and those that reporting a command touches. -/
def withReport (l : List Part) : List Part := l ++ report

/-- A command that answers a next state changes nothing but the parts of `l`. -/
def Frame (i : Instr) (l : List Part) : Prop := ∀ s t, exec i s = .next t → Only l s t

/-- A purged part is RETIRED, and only a purge erases the key store's secrets (R396, R397). -/
def LifecycleInv (s : State) : Prop :=
  (s.sec.purged = true → s.sec.lifecycle = .retired) ∧ (s.sec.keysErased = true → s.sec.purged = true)

/-- The queue map, the two Concordance buffers and the trim values in force stand in their canonical form. -/
def State.canonical (s : State) : Bool :=
  Sparse.wf {} s.host.queues && Sparse.wf 0 s.conc.cb0 && Sparse.wf 0 s.conc.cb1 && Sparse.wf none s.cal.inForce

/-- Sequencer `q` has issued an instruction in tick `i` and goes on at `pc` (R64): the instruction issues next in tick `i + 1`, and what
the instruction does not name is as it was: SST, the call stack, the ports, LV, the active bindings and the live range. -/
structure WentTo (q i pc : Nat) (s t : State) : Prop where
  pc : (t.sq q).pc = pc
  next : (t.sq q).nextIssue = i + 1
  sst : (t.sq q).sst = (s.sq q).sst
  ports : (t.sq q).ports = (s.sq q).ports
  active : (t.sq q).active = (s.sq q).active
  entry : (t.sq q).entry = (s.sq q).entry
  limit : (t.sq q).limit = (s.sq q).limit
  others : ∀ r, r ≠ q → t.sq r = s.sq r

/-- The PC after an instruction that does not branch (R64, R82). -/
def Seq.nextPc (c : Seq) : Nat := (loopNext c.calls.length c.pc c.loops).1

/-- A timed instruction with time fields `x` and a lead has put `act` into the cue queue of sequencer `q` (R67 to R69): sample time `n`
gives the stamp and the sub-tick, a stamp within the lead is late, T takes the stamp, and the sequencer goes on. -/
def Cued (q lead n : Nat) (act : CueAct) (s t : State) : Prop :=
  let i := roomTick (s.sq q).cues (s.issueTick q)
  let stamp := max (n / 16) (i + lead)
  (t.sq q).cues = (s.sq q).cues ++ [{ act := act, stamp := stamp, sub := n % 16 }] ∧
  (t.sq q).t = BitVec.ofNat 64 stamp ∧ (t.sq q).g = (s.sq q).g ∧ (t.sq q).lv = (s.sq q).lv ∧ (t.sq q).calls = (s.sq q).calls ∧
  (t.sq q).lateCues = (if n / 16 < i + lead then satAdd 16 (s.sq q).lateCues 1 else (s.sq q).lateCues) ∧
  WentTo q i (s.sq q).nextPc s t

/-- The sample time that a time mode other than AFTER resolves for the next instruction of sequencer `q` (Table 3.3). -/
def State.sampleTime (s : State) (q lead : Nat) (x : Timed) : Nat :=
  16 * (s.sq q).resolve x (roomTick (s.sq q).cues (s.issueTick q)) lead + x.sub

/-- Estimator `n` as the next instruction finds it: the results that are visible in its cycle have landed (R179). -/
def State.estAt (s : State) (n : Nat) : Est := (s.es n).land (s.estCycle n)

/-- The address of the instruction after one whose own successor is `pc`: behind the second delay slot of a branch it is the branch's
target (R180, R183). -/
def Est.goesTo (e : Est) (pc : Nat) : Nat :=
  match e.branch with
  | none => pc
  | some (t, k) => if 1 < k then pc else t.getD e.resume

/-- An address lies in the live range (R188). -/
def Est.inRange (e : Est) (pc : Nat) : Bool := decide (e.entry ≤ pc ∧ pc ≤ e.limit)

/-- The address after an instruction that does not branch (R180). -/
def Est.flowsTo (e : Est) : Nat := e.goesTo (estNext e.pc e.reps).1

/-- The next instruction of estimator `n` is `i`, and what follows it lies in the live range. -/
abbrev State.estIssues (s : State) (n : Nat) (i : EstIns) : Prop :=
  (s.es n).ready = some i ∧ (s.es n).inRange (s.es n).flowsTo = true

/-- Estimator `n` has executed one instruction, which does `f` to its registers and to the results in flight, and goes on. -/
structure EstDid (n : Nat) (f : Est → Est) (s t : State) : Prop where
  v : (t.es n).v = (f (s.estAt n)).v
  x : (t.es n).x = (f (s.estAt n)).x
  a : (t.es n).a = (f (s.estAt n)).a
  mem : (t.es n).mem = (f (s.estAt n)).mem
  flight : (t.es n).flight = (f (s.estAt n)).flight
  pc : (t.es n).pc = (s.es n).flowsTo
  pages : (t.es n).bank0 = (s.es n).bank0 ∧ (t.es n).bank1 = (s.es n).bank1 ∧ (t.es n).prog = (s.es n).prog
  queue : (t.es n).queue = (s.es n).queue
  others : ∀ m, m ≠ n → t.es m = s.es m

/-- Estimator `n` has faulted with a code at its PC (R188 to R190). -/
def EstFaulted (n code : Nat) (s t : State) : Prop :=
  (t.es n).mode = .faulted ∧ (t.es n).fault = code ∧ (t.es n).faultPc = (s.es n).pc ∧ (t.es n).queue = [] ∧ (t.es n).handler = none ∧
    ∀ m, m ≠ n → t.es m = s.es m

/-- An access that R178 makes a program fault: beyond 0x1_FFFF or below 0, in the hole, unaligned, or a store into the parameter window. -/
abbrev AccessFaults (e : Est) (m : Access) (size : Nat) (store : Bool) : Prop :=
  0x1FFFF < e.addr m ∨ e.addr m < 0 ∨ (0x18000 ≤ e.addr m ∧ e.addr m ≤ 0x1BFFF) ∨ e.addr m % (size : Int) ≠ 0 ∨
    (store = true ∧ 0x1C000 ≤ e.addr m ∧ e.addr m ≤ 0x1FFFF)

/-- Estimator `n` has faulted on a data access (R178): code 1, and A keeps its value, under AM = 1 too. -/
def EstAccessFaulted (n : Nat) (s t : State) : Prop :=
  EstFaulted n 1 s t ∧ (t.es n).a = (s.es n).a

/-- Estimator `n` has issued a branch whose target is `target`; the instruction after it is its first delay slot (R180, R183). -/
def EstBranched (n : Nat) (target : Option Nat) (s t : State) : Prop :=
  (t.es n).branch = some (target, 2) ∧ (t.es n).pc = ((s.es n).pc + 1) % 2 ^ 14 ∧ (t.es n).next = s.estCycle n + 1 ∧
    (t.es n).v = (s.estAt n).v ∧ (t.es n).x = (s.estAt n).x ∧ (t.es n).a = (s.estAt n).a ∧ ∀ m, m ≠ n → t.es m = s.es m

/-- The routine of command `c` on packet `p`, standing in `u`, executes at once: CHECK is 0, steps 6 and 7 of R299 pass, and nothing holds
it (R307). -/
def Command.executesIn (c : Command) (p : Packet) (u : State) : Bool :=
  !p.check && (c.check u p).isNone && (u.mustWait (c.waits u p)).isEmpty

/-- The routine of `c` on the packet of `f`, standing in `u`, has gone through its commit sequence with acceptance number `a` (R320): the
effect stands, and a command that completes at once has posted its completion. `fault`: its write meets a PCIe error. -/
def Committed (c : Command) (f : Fetched) (a : BitVec 32) (fault : Bool) (u t : State) : Prop :=
  (∀ k : Part, k ∉ report → k.same (c.eff u f.packet).st t) ∧
    ((c.eff u f.packet).later = false → f.silent = false → fault = false →
      f.packet.source = .internal ∨ ((c.eff u f.packet).st.queue f.packet.source).qstate ≠ .disabled →
      Posted f.packet a (if (c.eff u f.packet).long then 1 else (c.eff u f.packet).status)
        (if (c.eff u f.packet).long then none else (c.eff u f.packet).reply) t)

/-- A held command has executed in `u`, out of its hold lists, on its own acceptance number (R307): the effect stands, and no second completion
is posted. -/
def HeldRan (c : Command) (h : Held) (u t : State) : Prop :=
  (∀ k : Part, k ∉ report → k.same (c.eff { u with host := { u.host with accept := h.accept } } h.packet).st t) ∧
    t.host.accept = u.host.accept ∧
    t.host.posted = (c.eff { u with host := { u.host with accept := h.accept } } h.packet).st.host.posted

/-- The open command has completed (R296): it is open no more, and unless its function was reset or its queue is gone its completion
is posted. -/
def Finished (o : OpenCmd) (status : Nat) (reply : Option Words) (s t : State) : Prop :=
  t.host.open_ = s.host.open_.erase o ∧
    (o.silent = false → (s.queue o.packet.source).qstate ≠ .disabled → Posted o.packet o.accept status reply t)

/-- Every verdict of line `l` that would have formed from what its lanes carried in tick `s.now` is Absent (R17). -/
def TickAbsent (l : Nat) (s t : State) : Prop :=
  (t.ln l).words = (s.ln l).words.filter (fun y => y.hub != s.now) ∧
    (t.es l).arriving = (s.es l).arriving.filter (fun r => r.readable != s.now + 1) ∧
    t.readout.absent = s.readout.absent ++
      (((s.ln l).words.filter fun x => x.hub == s.now).map fun x => (x.slot, x.win, s.now)) ++
      (((s.es l).arriving.filter fun r => r.readable == s.now + 1).map fun r => (r.val.slot, r.val.win, s.now))

end Sys2Proof.Machine
end

