-- ==== Sys2Proof/Certificates/Slice0/Obligations.lean ====
section
/-!
DEFINITION. Certificates/Slice0/Obligations.lean: the statements for the provers. `Completes` says where a command completes and what
its next state holds; `Answers` says it of a packet that the Desk executes at once; `Frame` says what a command leaves unchanged.
-/
open Sys2Proof Sys2Proof.Machine

/-! ## The machine as a whole -/

/-- A step executes the command at the front of the queue on the rest; on an empty queue one tick of 1 ns passes (a design choice, log
entry 1). Every command answers a next state in every state: none faults and none is refused. -/
def Obligations.StepRunsFront : Prop :=
  (∀ c l s, s.pending = c :: l → step s = exec c { s with pending := l }) ∧ (∀ c s, ∃ t, exec c s = .next t) ∧
  ∀ s, s.pending = [] → ∃ t, step s = .next t ∧ t.now = s.now + 1 ∧ ∀ k : Part, k ≠ .time → k.same s t

/-- The state after power-on reset, by the rules of each chapter; the invariants of the model hold in it. -/
def Obligations.ResetStands : Prop :=
  let s := State.reset
  s.pending = [] ∧ s.trouble = Vector.replicate 16 0 ∧ s.boot.phase = 0 ∧ s.power.st = .run ∧ s.units.token = none ∧
  s.host.sessions = [] ∧ (∀ q, (s.queue (.queue q)).qstate = .disabled) ∧ s.host.debugQueue.qstate = .disabled ∧
  s.host.msixMask = Vector.replicate 2048 true ∧ s.time.pll = .unlocked ∧ s.time.epochValid = false ∧ s.tick = 0 ∧
  (∀ q < 256, (s.sq q).mode = .idle) ∧ (∀ o < 96, (s.out o).muted = true) ∧ (∀ b < 256, (s.ch b).st = .off) ∧
  (∀ m < 288, (s.monOf m).en = true ∧ (s.monOf m).tripped = true) ∧ (∀ n < 16, (s.lane n).st = .down) ∧
  s.thermal.level = .normal ∧ s.thermal.warn = 95 ∧ s.thermal.throttle = 105 ∧ (∀ q < 256, s.seqOwner q = 0) ∧
  s.parts.streamTotal + s.parts.acqTotal + s.parts.bulkTotal = 48000 ∧ LifecycleInv s ∧ s.canonical = true

/-- R395: a step moves the lifecycle state only forward, along the transitions that R396 lists; a purged part stays purged, and only a
RETIRED part is purged. A step keeps the part's identity and takes one command from the queue. -/
def Obligations.StepMovesForward : Prop :=
  ∀ s t, step s = .next t → t.ident = s.ident ∧ t.pending = s.pending.tail ∧
    (t.sec.lifecycle = s.sec.lifecycle ∨ (s.sec.lifecycle = .blank ∧ t.sec.lifecycle = .provisioned) ∨
      (s.sec.lifecycle = .provisioned ∧ t.sec.lifecycle = .deployed) ∨ (s.sec.lifecycle ≠ .retired ∧ t.sec.lifecycle = .retired)) ∧
    (s.sec.purged = true → t.sec.purged = true) ∧ (t.sec.purged = true → s.sec.purged = true ∨ s.sec.lifecycle = .retired)

/-- R396 and R397 over every state and every command: a purged part stays RETIRED, and secrets are erased by a purge alone. -/
def Obligations.LifecycleInvKept : Prop := ∀ s t, LifecycleInv s → step s = .next t → LifecycleInv t

/-- Every step keeps the canonical form of the queue map, the Concordance buffers and the trim values in force, so that equal contents
are equal data. -/
def Obligations.MemoriesStayCanonical : Prop := ∀ s t, s.canonical = true → step s = .next t → t.canonical = true

/-- R293 and Table 12.3: the words of a packet spell the packet again, with every field at every value, its opcode, and its length; what
follows it in the ring is not read. -/
def Obligations.PacketRoundTrip : Prop :=
  ∀ (op : Nat) (crc : BitVec 32) (p : Packet) (rest : Words), p.payload.length ≤ 8190 → op < 65536 →
    packetOf p.source (pktWords op crc p ++ rest) = { p with crc := crc } ∧
    fld (wordAt (pktWords op crc p ++ rest) 0) 63 48 = op ∧ headerLen (wordAt (pktWords op crc p ++ rest) 0) = 2 + p.payload.length

/-- R299, R300, R306, R307: a packet that is not executed at once (refused, held, waiting, only checked, or not taken up) changes nothing
but what the Desk reports and keeps of it: completions, messages, records, trouble bits. A packet whose routine was abandoned is the
one that restarts (R323). -/
def Obligations.UnreadyChangesNothing : Prop :=
  ∀ (c : Command) p s, c.takesIn p s = false → (∀ f, s.running = some f → f.packet ≠ p) → Only report s (c.run p s)

/-! ## Timebase (chapter 2) -/

/-- R31, R33 to R36, R44, R51, R60: the commands of group 0x02 execute and make their change.
Complete: timeServoFeed, syncArm, skewCal, almanacRead. -/
def Obligations.TimebaseCommandsComplete : Prop :=
  (∀ p, Answers (.timeServoFeed p) timeServoFeedCmd p fun s t =>
    (fld (wordAt p.payload 0) 63 60 = 0 → ∀ m, s.time.markNamed (lo32 (wordAt p.payload 0)) = some m →
      t.time = s.time.feed m (sfld (wordAt p.payload 1) 63 0)) ∧
    (fld (wordAt p.payload 0) 63 60 = 1 →
      t.time.slewLimit = fld (wordAt p.payload 2) 63 56 ∧ t.time.stepThreshold = fld (wordAt p.payload 2) 55 24 ∧
      t.time.tc = fld (wordAt p.payload 2) 23 8 ∧ t.time.kiShift = fld (wordAt p.payload 2) 7 1) ∧
    (fld (wordAt p.payload 0) 63 60 = 2 →
      t.time.almanac = lo32 (wordAt p.payload 1) ∧ t.time.secPhase = fld (wordAt p.payload 1) 61 32)) ∧
  (∀ p, Answers (.syncArm p) syncArmCmd p fun s t =>
    (bitAt (wordAt p.payload 0) 0 = true → t.time.capture = .none) ∧
    (bitAt (wordAt p.payload 0) 0 = false → fld (wordAt p.payload 0) 59 56 = 0 → t.time.capture = .armed .chassis) ∧
    (bitAt (wordAt p.payload 0) 0 = false → fld (wordAt p.payload 0) 59 56 = 1 → t.time.capture = .armed .syncin) ∧
    (bitAt (wordAt p.payload 0) 0 = false → fld (wordAt p.payload 0) 59 56 = 2 →
      t.time.capture = .fixed (s.now + ((wordAt p.payload 1).toNat - s.tick.toNat)) 0) ∧
    (bitAt (wordAt p.payload 0) 0 = false → ∀ r, refSrcOf (fld (wordAt p.payload 0) 63 60) = some r → r ≠ s.time.refSrc →
      t.time.refSrc = r ∧ t.time.pll = .unlocked ∧ t.time.epochValid = false)) ∧
  (∀ p, Answers (.skewCal p) skewCalCmd p fun s t =>
    (fld (wordAt p.payload 0) 63 60 = 2 → t.time.phaseCorr = sfld (wordAt p.payload 0) 31 0) ∧
    (fld (wordAt p.payload 0) 63 60 ≠ 2 → t.time = s.time ∧ ∃ o ∈ t.host.open_, o.packet = p ∧ o.accept = s.host.accept + 1)) ∧
  (∀ p, Answers (.almanacRead p) almanacReadCmd p fun s t =>
    t.time = s.time ∧ Posted p (s.host.accept + 1) 0 (some s.time.readWords) t)

/-- R34, R35, R39, R41, R44, R50, R51, R55, R58, R59, R369, R441: the events of the timebase.
Complete: skewCalComplete, skewCalTimeout, referenceLoss, referenceReturn, referenceStable, relockComplete, pllLock,
referenceTimeout, pllFault, syncEdge, epochSet, almanacMark, servoPhaseTermEnd, almanacEventFire. -/
def Obligations.TimebaseEventsComplete : Prop :=
  (∀ o, Completes .skewCalComplete (fun s => s.skewWith 0 (fun o => !o.data.isEmpty) = some o)
    fun s t => Finished o (if fld (wordAt o.data 0) 31 0 < 150 ∨ 850 < fld (wordAt o.data 0) 31 0 then 0x0502 else 0)
      (some [skewReply (fld (wordAt o.data 0) 31 0) 0]) s t) ∧
  (∀ o, Completes .skewCalComplete
    (fun s => s.skewWith 0 (fun o => !o.data.isEmpty) = none ∧ s.skewWith 1 (fun o => 8 ≤ o.data.length) = some o)
    fun s t => Finished o 0 (some [skewReply (skewResult (o.data.map fun w => sfld w 63 0)).1
      (skewResult (o.data.map fun w => sfld w 63 0)).2]) s t) ∧
  (∀ o, Completes .skewCalTimeout (fun s => s.skewWith 0 (fun o => o.data.isEmpty) = some o ∧ s.now ≤ o.since + 1000000000)
    fun s t => Finished o 0x0603 none s t ∧ t.now = o.since + 1000000000) ∧
  (∀ o n, Completes .skewCalTimeout
    (fun s => s.skewWith 0 (fun o => o.data.isEmpty) = none ∧ s.skewWith 1 (fun o => o.data.length < 8) = some o ∧ o.first = some n ∧
      s.now ≤ n + 1000000)
    fun s t => Finished o 0x0603 none s t ∧ t.now = n + 1000000) ∧
  Completes .referenceLoss (fun s => s.time.pll = .locked) (fun _ t => t.time.pll = .holdover ∧ bitAt t.trouble[0] 0 = true) ∧
  Completes .referenceReturn (fun s => s.time.pll = .holdover ∧ s.time.returnAt = none) (fun s t => t.time.returnAt = some s.now) ∧
  (∀ n, Completes .referenceStable (fun s => s.time.pll = .holdover ∧ s.time.returnAt = some n ∧ s.now ≤ n + 1000000)
    fun _ t => t.time.steering = true ∧ t.now = n + 1000000) ∧
  Completes .relockComplete (fun s => s.time.steering = true) (fun _ t => t.time.pll = .locked ∧ t.time.epochValid = false) ∧
  Completes .pllLock (fun s => s.time.pll = .unlocked ∧ 4 ≤ s.boot.phase ∧ s.power.st ≠ .dormant)
    (fun s t => t.time.pll = .locked ∧ t.time.epochValid = false ∧ t.time.counting = true ∧
      (s.time.counting = false → t.tick = 0) ∧ ∀ o < 96, (t.out o).unlock = false) ∧
  (∀ n, Completes .referenceTimeout (fun s => s.time.sourceChangedAt = some n ∧ s.time.pll = .unlocked ∧ s.now ≤ n + 10000000)
    fun _ t => t.time.sourceChangedAt = none ∧ t.now = n + 10000000 ∧ bitAt t.trouble[0] 0 = true) ∧
  Completes .pllFault (fun s => s.time.pll = .locked)
    (fun _ t => t.time.pll = .unlocked ∧ bitAt t.trouble[0] 1 = true ∧ ∀ o < 96, (t.out o).unlock = true) ∧
  (∀ src ps, Completes (.syncEdge src ps) (fun s => s.time.capture = .armed src)
    fun s t => t.time.capture = .fixed (s.now + s.time.epochDelay + (if ps.val = 0 then 0 else 1)) ps.val) ∧
  (∀ src ps, Completes (.syncEdge src ps) (fun s => s.tdcInput = src)
    fun s t => ∀ o ∈ s.host.open_, o.isSkew 0 = true → o.data = [] → { o with data := [put 31 0 ps.val] } ∈ t.host.open_) ∧
  (∀ n ps, Completes .epochSet (fun s => s.time.capture = .fixed n ps ∧ s.now ≤ n)
    fun s t => t.now = n ∧ t.tick = 0 ∧ t.time.epochValid = true ∧ t.time.epochCount = s.time.epochCount + 1 ∧ t.time.capture = .none) ∧
  (∀ m l, Completes .almanacMark (fun s => s.time.marksDue = m :: l)
    fun s t => t.time.marksDue = l ∧ t.time.markSeq = s.time.markSeq + 1 ∧ t.time.lastMark.now = m.now ∧ t.time.prevMark = s.time.lastMark) ∧
  (∀ n, Completes .servoPhaseTermEnd (fun s => s.time.psiEnd = some n ∧ s.now ≤ n)
    fun _ t => t.now = n ∧ t.time.psi = {} ∧ t.time.psiEnd = none) ∧
  (∀ b e, Completes .almanacEventFire
    (fun s => s.time.events = [⟨.biasQueue b, e, s.now⟩] ∧ e ≤ s.time.travel)
    fun s t => t.time.events = [] ∧ t.now = s.now)

/-- R33 to R60: what the commands and events of the timebase leave alone. Only a change of reference and a loss of lock reach the
outputs and the calibration runs (R35, R58); an epoch and a phase correction reach the lanes (R216). -/
def Obligations.TimebaseFrame : Prop :=
  (∀ p, Frame (.timeServoFeed p) (withReport [.time])) ∧
  (∀ p, Frame (.almanacRead p) report) ∧
  (∀ p, Frame (.skewCal p) (withReport [.time, .fabric])) ∧
  (∀ p, Frame (.syncArm p) (withReport [.time, .synth, .readout, .bias, .cal])) ∧
  (∀ i ∈ [Instr.skewCalComplete, .skewCalTimeout, .referenceLoss, .referenceReturn, .referenceStable, .relockComplete,
      .referenceTimeout, .servoPhaseTermEnd], Frame i (withReport [.time])) ∧
  (∀ src ps, Frame (.syncEdge src ps) [.time, .host]) ∧
  Frame .pllLock (withReport [.time, .synth]) ∧
  Frame .almanacMark ([.time, .synth, .host]) ∧
  Frame .epochSet (withReport [.time, .fabric]) ∧
  Frame .pllFault (withReport [.time, .synth, .readout, .bias, .cal])

/-! ## Command queues and host interface (chapters 12 and 19) -/

/-- R31, R297, R302, R303: the commands of group 0x01.
Complete: sessionOpen, sessionClose, identify, echo. -/
def Obligations.SessionCommandsComplete : Prop :=
  (∀ p, Answers (.sessionOpen p) sessionOpenCmd p fun s t =>
    let f := s.funcOf p.source
    let n := s.freeSerial f 65 (atN s.host.nextSerial f 1)
    t.host.sessions = s.host.sessions ++ [{ func := f, serial := n, label := hi32 (wordAt p.payload 0), level := 0 }] ∧
      Posted p (s.host.accept + 1) 0 (some [orAll [put 63 32 (handleOf f n).toNat, put 31 28 f,
        put 27 24 (if 1 ≤ f ∧ f ≤ 8 then f - 1 else 0), put 21 15 ((s.sessionsOf f).length + 1)]]) t) ∧
  (∀ p, Answers (.sessionClose p) sessionCloseCmd p fun s t =>
    t.host.sessions = s.host.sessions.filter fun x => handleOf x.func x.serial != hi32 (wordAt p.payload 0)) ∧
  (∀ p, Answers (.identify p) identifyCmd p fun s t =>
    t.host.sessions = s.host.sessions ∧ Posted p (s.host.accept + 1) 0 (some s.identifyWords) t) ∧
  (∀ p, Answers (.echo p) echoCmd p fun s t =>
    t.host.sessions = s.host.sessions ∧ Posted p (s.host.accept + 1) 0 (some p.payload) t)

/-- R290, R291, R292, R311, R312, R428, R430: the writes to BAR0 and what follows them. The premise on the queue map is its canonical
form, which every step keeps.
Complete: doorbellSqTail, doorbellCqHead, queueEnable, queueDisable, queueDrainEnd, bar0RegisterWrite, msixVectorUnmask,
interruptCoalesceTimeout, vfEnable. -/
def Obligations.QueueWritesComplete : Prop :=
  (∀ q v, Completes (.doorbellSqTail q v false)
    (fun s => s.bar0Open q = true ∧ (s.queue (.queue q)).live = true ∧ v.toNat < 2 ^ (s.queue (.queue q)).sqLog ∧
      ((s.queue (.queue q)).sqTail.toNat + 2 ^ (s.queue (.queue q)).sqLog - (s.queue (.queue q)).sqHead.toNat)
          % 2 ^ (s.queue (.queue q)).sqLog ≤
        (v.toNat + 2 ^ (s.queue (.queue q)).sqLog - (s.queue (.queue q)).sqHead.toNat) % 2 ^ (s.queue (.queue q)).sqLog)
    fun s t => t.host.queues = Sparse.set {} s.host.queues q.val { s.queue (.queue q) with sqTail := v }) ∧
  (∀ q v, Completes (.doorbellCqHead q v false)
    (fun s => s.bar0Open q = true ∧ (s.queue (.queue q)).live = true ∧ v.toNat < 2 ^ (s.queue (.queue q)).cqLog ∧
      (v.toNat + 2 ^ (s.queue (.queue q)).cqLog - (s.queue (.queue q)).cqHead.toNat) % 2 ^ (s.queue (.queue q)).cqLog
        ≤ (s.queue (.queue q)).cqUsed)
    fun s t => t.host.queues = Sparse.set {} s.host.queues q.val { s.queue (.queue q) with
      cqHead := v
      cqUsed := (s.queue (.queue q)).cqUsed -
        (v.toNat + 2 ^ (s.queue (.queue q)).cqLog - (s.queue (.queue q)).cqHead.toNat) % 2 ^ (s.queue (.queue q)).cqLog }) ∧
  (∀ q, Completes (.queueEnable q)
    (fun s => Sparse.wf {} s.host.queues = true ∧ s.bar0Open q = true ∧
      ((s.queue (.queue q)).qstate = .disabled ∨ (s.queue (.queue q)).qstate = .broken))
    fun _ t => (t.queue (.queue q)).qstate = .enabled ∧ (t.queue (.queue q)).sqHead = 0 ∧ (t.queue (.queue q)).cqTail = 0 ∧
      (t.queue (.queue q)).sqTail = 0 ∧ (t.queue (.queue q)).cqHead = 0 ∧ (t.queue (.queue q)).phase = true) ∧
  (∀ q, Completes (.queueDisable q)
    (fun s => Sparse.wf {} s.host.queues = true ∧ s.bar0Open q = true ∧ (s.queue (.queue q)).qstate = .enabled)
    fun _ t => (t.queue (.queue q)).qstate = .draining) ∧
  (∀ q, Completes (.queueDrainEnd q)
    (fun s => Sparse.wf {} s.host.queues = true ∧ (s.queue (.queue q)).qstate = .draining ∧ s.inFlight (.queue q) = false ∧
      s.host.open_ = [])
    fun _ t => (t.queue (.queue q)).qstate = .disabled) ∧
  (∀ q v, Completes (.bar0RegisterWrite (.descriptor q 0) v)
    (fun s => s.bar0Open q = true ∧ (s.queue (.queue q)).qstate = .disabled)
    fun s t => t.host.queues = Sparse.set {} s.host.queues q.val { s.queue (.queue q) with d0 := v }) ∧
  (∀ q v, Completes (.bar0RegisterWrite (.descriptor q 3) v)
    (fun s => Sparse.wf {} s.host.queues = true ∧ s.bar0Open q = true ∧ (s.queue (.queue q)).qstate = .disabled)
    fun s t => t.queue (.queue q) = s.queue (.queue q)) ∧
  (∀ i v, Completes (.bar0RegisterWrite (.msixMask i true) v) (fun _ => True) fun _ t => t.host.msixMask[i.val] = true) ∧
  (∀ v, Completes (.bar0RegisterWrite .readOnly v) (fun _ => True) fun s t => t = s) ∧
  (∀ v, Completes (.bar0RegisterWrite .unmapped v) (fun _ => True) fun s t => t = s) ∧
  (∀ v, Completes (.msixVectorUnmask v) (fun _ => True) fun s t =>
    t.host.msixMask[v.val] = false ∧ t.host.msixPend[v.val] = false ∧
      t.host.messages = (if s.host.msixPend[v.val] then vecOf v.val :: s.host.messages else s.host.messages)) ∧
  (∀ q n, Completes (.interruptCoalesceTimeout q) (fun s => (s.queue (.queue q)).firstUnsignaled = some n ∧ s.now ≤ n + 10000)
    fun s t => t.now = n + 10000 ∧
      t.host.queues = Sparse.set {} s.host.queues q.val { s.queue (.queue q) with unsignaled := 0, firstUnsignaled := none }) ∧
  Completes .vfEnable (fun s => s.boot.linkUp = true) fun _ t => t.boot.vfEnable = true

/-- R292: a doorbell that breaks the ring's rules breaks an ENABLED or a DRAINING queue, with the break code of Table 12.2 and the
queue-broken trouble bit. In a queue that is neither, a whole write is stored and breaks nothing (a design choice, log entry 176).
Complete: doorbellSqTail, doorbellCqHead. -/
def Obligations.DoorbellBreaks : Prop :=
  (∀ q v, Completes (.doorbellSqTail q v true) (fun s => Sparse.wf {} s.host.queues = true ∧ s.bar0Open q = true ∧ (s.queue (.queue q)).live = true)
    fun _ t => (t.queue (.queue q)).qstate = .broken ∧ (t.queue (.queue q)).brk = 5 ∧ bitAt t.trouble[1] 4 = true) ∧
  (∀ q v, Completes (.doorbellSqTail q v false)
    (fun s => Sparse.wf {} s.host.queues = true ∧ s.bar0Open q = true ∧ (s.queue (.queue q)).live = true ∧ 2 ^ (s.queue (.queue q)).sqLog ≤ v.toNat)
    fun _ t => (t.queue (.queue q)).qstate = .broken ∧ (t.queue (.queue q)).brk = 2 ∧ bitAt t.trouble[1] 4 = true) ∧
  (∀ q v, Completes (.doorbellCqHead q v false)
    (fun s => Sparse.wf {} s.host.queues = true ∧ s.bar0Open q = true ∧ (s.queue (.queue q)).live = true ∧ 2 ^ (s.queue (.queue q)).cqLog ≤ v.toNat)
    fun _ t => (t.queue (.queue q)).qstate = .broken ∧ (t.queue (.queue q)).brk = 3 ∧ bitAt t.trouble[1] 4 = true) ∧
  (∀ q v, Completes (.doorbellCqHead q v true) (fun s => Sparse.wf {} s.host.queues = true ∧ s.bar0Open q = true ∧ (s.queue (.queue q)).live = true)
    fun _ t => (t.queue (.queue q)).qstate = .broken ∧ (t.queue (.queue q)).brk = 5 ∧ bitAt t.trouble[1] 4 = true) ∧
  (∀ q v, Completes (.doorbellSqTail q v false) (fun s => s.bar0Open q = true ∧ (s.queue (.queue q)).live = false)
    fun s t => t.host.queues = Sparse.set {} s.host.queues q.val { s.queue (.queue q) with sqTail := v }) ∧
  (∀ q v, Completes (.doorbellCqHead q v false) (fun s => s.bar0Open q = true ∧ (s.queue (.queue q)).live = false)
    fun s t => t.host.queues = Sparse.set {} s.host.queues q.val { s.queue (.queue q) with cqHead := v })

/-- R292, R295, R306, R307, R310, R318 to R323: the engine fetches the packet of the queue whose turn it is whole, as soon as its slots and
room for its completion are there; a header that frames no packet, or a PCIe error, breaks the queue. The Desk executes the command that
was abandoned first, then the first held command whose items are released, then the first packet that may begin, to the end of its
commit sequence; a packet of an unknown opcode completes with 0x0102. PACKET_FETCH, HELD_COMMAND_EXECUTE and COMMIT_SEQUENCE complete.
Complete: packetFetch, heldCommandExecute, commitSequence. -/
def Obligations.DeskRowsComplete : Prop :=
  (∀ src ring, Completes (.packetFetch src ring false)
    (fun s => s.turn = some src ∧ framed (wordAt (s.ringWords src ring) 0) (2 ^ (s.queue src).sqLog) = true ∧
      fld (wordAt (s.ringWords src ring) 0) 31 16 ≤ s.slotsReady src ∧
      s.hasRoom src (fld (wordAt (s.ringWords src ring) 0) 63 48) (packetOf src (s.ringWords src ring)) = true)
    fun s t => ∃ f, t.host.fetched = s.host.fetched ++ [f] ∧ t.desk.mirror = s.desk.mirror ++ [f] ∧
      f.packet = packetOf src (s.ringWords src ring) ∧ f.opcode = BitVec.ofNat 16 (fld (wordAt (s.ringWords src ring) 0) 63 48) ∧
      f.sqHead = BitVec.ofNat 12 (((s.queue src).sqHead.toNat + fld (wordAt (s.ringWords src ring) 0) 31 16) % 2 ^ (s.queue src).sqLog) ∧
      t.desk.turnFunc = s.funcOf src) ∧
  (∀ q ring, Completes (.packetFetch (.queue q) ring false)
    (fun s => Sparse.wf {} s.host.queues = true ∧ s.turn = some (.queue q) ∧
      framed (wordAt ring 0) (2 ^ (s.queue (.queue q)).sqLog) = false)
    fun s t => (t.queue (.queue q)).qstate = .broken ∧ (t.queue (.queue q)).brk = 1 ∧ t.host.fetched = s.host.fetched) ∧
  (∀ q ring, Completes (.packetFetch (.queue q) ring true)
    (fun s => Sparse.wf {} s.host.queues = true ∧ s.turn = some (.queue q))
    fun s t => (t.queue (.queue q)).qstate = .broken ∧ (t.queue (.queue q)).brk = 4 ∧ t.host.fetched = s.host.fetched) ∧
  (∀ h c, Completes .heldCommandExecute
    (fun s => s.deskUp .internal = true ∧ s.desk.cur = none ∧ s.heldNext = some h ∧ commandOf h.opcode.toNat = some c ∧
      s.lifecycleBars c.opcode = false ∧ c.chk ((s.routine h.fetched).unlist h) h.packet = none)
    fun s t => HeldRan c h ((s.routine h.fetched).unlist h) t) ∧
  (∀ h c r, Completes .heldCommandExecute
    (fun s => s.deskUp .internal = true ∧ s.desk.cur = none ∧ s.heldNext = some h ∧ commandOf h.opcode.toNat = some c ∧
      c.chk ((s.routine h.fetched).unlist h) h.packet = some r)
    fun s t => Only report s t ∧ t.host.held = s.host.held.erase h ∧ t.host.posted = s.host.posted ∧ bitAt t.trouble[1] 5 = true) ∧
  (∀ f c a x y e, Completes (.commitSequence e)
    (fun s => s.deskUp .internal = true ∧ s.desk.cur = some ⟨.packet f, some a, x, y⟩ ∧ commandOf f.opcode.toNat = some c ∧
      c.executesIn f.packet (s.parkDue.clearCur.routine { f with ringFault := e }) = true)
    fun s t => Committed c f a e (s.parkDue.clearCur.routine { f with ringFault := e }) t) ∧
  (∀ h c e, Completes (.commitSequence e)
    (fun s => s.deskUp .internal = true ∧ s.desk.cur = none ∧ s.parkDue.heldNext = some h ∧ commandOf h.opcode.toNat = some c ∧
      s.lifecycleBars c.opcode = false ∧ c.chk ((s.parkDue.routine h.fetched).unlist h) h.packet = none)
    fun s t => HeldRan c h ((s.parkDue.routine h.fetched).unlist h) t) ∧
  (∀ f g u c e, Completes (.commitSequence e)
    (fun s => s.deskUp .internal = true ∧ s.desk.cur = none ∧ s.parkDue.heldNext = none ∧
      s.parkDue.firstWaiting [] s.parkDue.host.waiting = some f ∧ s.parkDue.unparkPacket f = (g, u) ∧
      commandOf g.opcode.toNat = some c ∧ c.front g (u.routine { g with ringFault := e }) = none ∧
      c.executesIn g.packet ((u.routine { g with ringFault := e }).accepted g.packet) = true)
    fun s t => Committed c g (s.host.accept + 1) e ((u.routine { g with ringFault := e }).accepted g.packet) t) ∧
  (∀ c f l e, Completes (.commitSequence e)
    (fun s => s.deskUp .internal = true ∧ s.desk.cur = none ∧ s.parkDue.heldNext = none ∧ s.parkDue.host.waiting = [] ∧
      s.parkDue.host.fetched = f :: l ∧ s.parkDue.deskUp f.packet.source = true ∧ s.parkDue.queueBusy f.packet.source = false ∧
      s.parkDue.mayBegin f.packet = true ∧ commandOf f.opcode.toNat = some c ∧
      c.front f ((s.parkDue.takeOut f).routine { f with ringFault := e }) = none ∧
      c.executesIn f.packet (((s.parkDue.takeOut f).routine { f with ringFault := e }).accepted f.packet) = true)
    fun s t => Committed c f (s.host.accept + 1) e (((s.parkDue.takeOut f).routine { f with ringFault := e }).accepted f.packet) t) ∧
  (∀ f l, Completes (.commitSequence false)
    (fun s => s.deskUp .internal = true ∧ s.desk.cur = none ∧ s.parkDue.heldNext = none ∧ s.parkDue.host.waiting = [] ∧
      s.parkDue.host.fetched = f :: l ∧ s.parkDue.deskUp f.packet.source = true ∧ s.parkDue.queueBusy f.packet.source = false ∧
      s.parkDue.mayBegin f.packet = true ∧ commandOf f.opcode.toNat = none ∧ f.packet.crc = pktCrc f.opcode.toNat f.packet ∧
      f.packet.rsv = 0 ∧ f.packet.partition.toNat < 8 ∧ f.silent = false ∧ (s.queue f.packet.source).qstate ≠ .disabled)
    fun s t => Posted f.packet 0 0x0102 none t ∧ t.host.accept = s.host.accept)

/-- R428, R290 to R312: what the commands of group 0x01 and the BAR0 writes leave alone. -/
def Obligations.HostFrame : Prop :=
  (∀ p, Frame (.sessionOpen p) report) ∧ (∀ p, Frame (.sessionClose p) report) ∧ (∀ p, Frame (.identify p) report) ∧
  (∀ p, Frame (.echo p) report) ∧
  (∀ q v b, Frame (.doorbellSqTail q v b) report) ∧ (∀ q v b, Frame (.doorbellCqHead q v b) report) ∧
  (∀ q, Frame (.queueEnable q) report) ∧ (∀ q, Frame (.queueDisable q) report) ∧
  (∀ r v, Frame (.bar0RegisterWrite r v) [.host]) ∧ (∀ v, Frame (.msixVectorUnmask v) [.host]) ∧
  (∀ q, Frame (.interruptCoalesceTimeout q) [.host, .time]) ∧ Frame .vfEnable [.boot] ∧
  (∀ src ring e, Frame (.packetFetch src ring e) report)

/-! ## Control units (chapter 13) -/

/-- R332 to R335: the heartbeat lines, and one cycle of the Keeper (Table 13.10). A unit that keeps its heartbeat keeps the token, and a claim against it is
refused and counted; a unit whose heartbeat is missing, or that has released the token, is fenced, and the token goes to the other unit
where that unit is eligible, and to none where it is not; a free token goes to CUA before CUB.
Complete: heartbeatToggle, heartbeatMissing, tokenClaim, keeperDecision, keeperVoterFault. -/
def Obligations.KeeperDecides : Prop :=
  (∀ u stall, Completes (.heartbeatToggle u true stall)
    (fun s => stall.toNat < 1600 ∧ ((s.getUnit u).st = .active ∨ (s.getUnit u).st = .standby ∨ (s.getUnit u).st = .resync) ∧
      (s.getUnit u).released = false ∧ s.now ≤ (s.getUnit u).hbAt + 2000)
    fun s t => t.now = (s.getUnit u).hbAt + 2000 ∧ (t.getUnit u).hbAt = t.now ∧ (t.getUnit u).hbMissing = false ∧
      (t.getUnit u).watchdogAt = t.now) ∧
  (∀ u watchdog stall, Completes (.heartbeatToggle u watchdog stall)
    (fun s => (watchdog = false ∨ 1600 ≤ stall.toNat) ∧ ((s.getUnit u).st = .active ∨ (s.getUnit u).st = .standby ∨ (s.getUnit u).st = .resync) ∧
      (s.getUnit u).released = false ∧ s.now ≤ (s.getUnit u).hbAt + 2000)
    fun s t => t.now = (s.getUnit u).hbAt + 2000 ∧ (t.getUnit u).hbAt = (s.getUnit u).hbAt ∧
      (t.getUnit u).hbMissing = (s.getUnit u).hbMissing) ∧
  (∀ u w stall, Completes (.heartbeatToggle u w stall) (fun s => (s.getUnit u).released = true) fun s t => t = s) ∧
  (∀ u, Completes (.heartbeatMissing u)
    (fun s => ((s.getUnit u).st = .active ∨ (s.getUnit u).st = .standby ∨ (s.getUnit u).st = .resync) ∧
      (s.getUnit u).hbMissing = false ∧ s.now ≤ (s.getUnit u).hbAt + 6000)
    fun s t => t.now = (s.getUnit u).hbAt + 6000 ∧ (t.getUnit u).hbMissing = true ∧
      ((s.getUnit u).st = .standby → (t.getUnit u).st = .failed ∧ t.units.standbyOk = false)) ∧
  (∀ u, Completes (.tokenClaim u) (fun _ => True) fun _ t => (t.getUnit u).claim = true) ∧
  (∀ h, Completes .keeperDecision
    (fun s => s.units.token = some h ∧ (s.getUnit h).hbMissing = false ∧ (s.getUnit h).released = false ∧
      (s.getUnit (otherUnit h)).eligible = true)
    fun s t => t.units.token = some h ∧ (t.getUnit (otherUnit h)).claim = false ∧ t.getUnit h = s.getUnit h ∧
      t.units.refusedClaims.toNat = satAdd 32 s.units.refusedClaims.toNat 1) ∧
  (∀ h, Completes .keeperDecision
    (fun s => s.units.token = some h ∧ ((s.getUnit h).hbMissing = true ∨ (s.getUnit h).released = true) ∧
      (s.getUnit (otherUnit h)).eligible = true)
    fun s t => t.units.token = some (otherUnit h) ∧ (t.getUnit h).st = .fenced ∧ (t.getUnit h).fencedAt = some s.now ∧
      (t.getUnit (otherUnit h)).st = .active ∧ t.units.switching = true ∧
      t.units.switchovers.toNat = satAdd 16 s.units.switchovers.toNat 1) ∧
  (∀ h, Completes .keeperDecision
    (fun s => s.units.token = some h ∧ ((s.getUnit h).hbMissing = true ∨ (s.getUnit h).released = true) ∧
      (s.getUnit (otherUnit h)).eligible = false)
    fun s t => t.units.token = none ∧ (t.getUnit h).st = .fenced ∧ t.getUnit (otherUnit h) = s.getUnit (otherUnit h)) ∧
  Completes .keeperDecision (fun s => s.units.token = none ∧ s.units.a.eligible = true)
    (fun s t => t.units.token = some .cua ∧ t.units.a.st = .active ∧ (s.units.b.eligible = true → t.units.b.st = .fenced)) ∧
  Completes .keeperDecision (fun s => s.units.token = none ∧ s.units.a.eligible = false ∧ s.units.b.eligible = true)
    (fun _ t => t.units.token = some .cub ∧ t.units.b.st = .active) ∧
  (∀ v, Completes (.keeperVoterFault v) (fun s => s.units.voters[v.val] = true)
    fun _ t => t.units.voters[v.val] = false ∧ bitAt t.trouble[0] 8 = true)

/-- R331, R336 to R338, R340, R341, R443 and Table 15.8: UNIT_SWITCHOVER; a switch-over ends, the standby unit is lost, proved, restarted and synchronized.
Complete: unitSwitchover, switchover, standbyAckTimeout, journalParityError, standbyProof, unitRestart, unitSelftestEnd,
resyncEnd. -/
def Obligations.UnitEventsComplete : Prop :=
  (∀ p, Answers (.unitSwitchover p) unitSwitchoverCmd p fun s t =>
    (fld (wordAt p.payload 0) 63 62 = 0 → (t.getUnit s.unit).released = true ∧ ∃ o ∈ t.host.open_, o.packet = p ∧ o.long = true) ∧
    (fld (wordAt p.payload 0) 63 62 = 1 → (t.getUnit s.spareUnit).st = .selftest ∧ ∃ o ∈ t.host.open_, o.packet = p ∧ o.long = true) ∧
    (fld (wordAt p.payload 0) 63 62 = 2 → t.units = s.units ∧ Posted p (s.host.accept + 1) 0 (some s.unitWords) t)) ∧
  Completes .switchover (fun s => s.units.switching = true ∧ s.now ≤ s.units.movedAt + 13500)
    (fun s t => t.now = s.units.movedAt + 13500 ∧ t.units.switching = false ∧ bitAt t.trouble[1] 1 = true ∧ t.desk.core = {} ∧
      t.desk.cur.map (·.job) = s.desk.cur.map (·.job) ∧ t.desk.cur.map (·.accept) = s.desk.cur.map (·.accept)) ∧
  Completes .standbyAckTimeout (fun s => s.standbyPresent = true)
    (fun s t => t.now = s.now + 1000 ∧ t.units.standbyOk = false ∧ (t.getUnit s.spareUnit).synced = false ∧ bitAt t.trouble[1] 2 = true) ∧
  Completes .journalParityError (fun s => s.standbyPresent = true)
    (fun s t => (t.getUnit s.spareUnit).st = .resync ∧ t.units.standbyOk = false ∧ bitAt t.trouble[1] 2 = true) ∧
  Completes (.standbyProof true) (fun s => s.standbyPresent = true ∧ s.now ≤ s.units.proofAt + 60000000000)
    (fun s t => t.now = s.units.proofAt + 60000000000 ∧ t.units.proofAt = t.now ∧ t.units.standbyOk = true) ∧
  Completes (.standbyProof false) (fun s => s.standbyPresent = true ∧ s.now ≤ s.units.proofAt + 60000000000)
    (fun s t => t.now = s.units.proofAt + 60000000000 ∧ t.units.standbyOk = false ∧ (t.getUnit s.spareUnit).st = .failed ∧
      bitAt t.trouble[1] 3 = true) ∧
  (∀ u n, Completes (.unitRestart u) (fun s => (s.getUnit u).st = .fenced ∧ (s.getUnit u).fencedAt = some n ∧ s.now ≤ n + 1000000)
    fun _ t => t.now = n + 1000000 ∧ (t.getUnit u).st = .selftest ∧ (t.getUnit u).fencedAt = none ∧ (t.getUnit u).synced = false) ∧
  (∀ u, Completes (.unitSelftestEnd u false) (fun s => (s.getUnit u).st = .selftest ∧ s.units.token = some (otherUnit u))
    fun s t => (t.getUnit u).st = .failed ∧ t.getUnit (otherUnit u) = s.getUnit (otherUnit u)) ∧
  (∀ u, Completes (.unitSelftestEnd u true)
    (fun s => (s.getUnit u).st = .selftest ∧ s.units.token = some (otherUnit u) ∧ s.boot.phase < 4)
    fun s t => (t.getUnit u).st = .resync ∧ t.getUnit (otherUnit u) = s.getUnit (otherUnit u)) ∧
  Completes (.unitSelftestEnd .cua true) (fun s => s.units.a.st = .selftest ∧ s.units.token = none ∧ s.boot.phase ≤ 2)
    (fun _ t => t.units.token = some .cua ∧ t.units.a.st = .active) ∧
  Completes (.unitSelftestEnd .cub true) (fun s => s.units.b.st = .selftest ∧ s.units.a.st = .failed ∧ s.units.token = none ∧ s.boot.phase ≤ 2)
    (fun _ t => t.units.token = some .cub ∧ t.units.b.st = .active) ∧
  Completes (.unitSelftestEnd .cub false) (fun s => s.units.b.st = .selftest ∧ s.units.a.st = .failed ∧ s.units.token = none ∧ s.boot.phase ≤ 2)
    (fun _ t => t.boot.phase = 15 ∧ t.boot.failCause = 1) ∧
  (∀ u b, Completes (.unitSelftestEnd u b) (fun s => (s.getUnit u).st = .selftest ∧ s.units.token = none ∧ 4 ≤ s.boot.phase)
    fun s t => t.units.token = none ∧ (b = false → (t.getUnit u).st = .failed) ∧ t.getUnit (otherUnit u) = s.getUnit (otherUnit u)) ∧
  (∀ u, Completes (.resyncEnd u) (fun s => (s.getUnit u).st = .resync ∧ s.units.token = some (otherUnit u) ∧ 4 ≤ s.boot.phase)
    fun s t => (t.getUnit u).st = .standby ∧ (t.getUnit u).synced = true ∧ t.units.standbyOk = true ∧ t.units.proofAt = s.now)

/-- R310, R321 to R323, R325: a machine check before the COMMIT abandons the routine, discards what it staged, and the command keeps its
acceptance number and is tried again; the second in one command hands over, or ends the command with 0x0701 where there is no STANDBY unit;
one in the tail leaves the commit sequence to complete. A memory word that waits is rewritten, unless the command was abandoned 4 times.
Complete: machineCheck, repairRequest. -/
def Obligations.MachineCheckCompletes : Prop :=
  (∀ cause addr tail u, Completes (.machineCheck cause addr tail)
    (fun s => s.units.token = some u ∧ (s.deskUp .internal = false ∨ s.parkDue.nextJob = none))
    fun s t => (t.getUnit u).mcCause = some cause ∧ (t.getUnit u).mcAddr = addr ∧ bitAt t.trouble[1] 0 = true ∧
      t.desk.cur = s.desk.cur) ∧
  (∀ cause addr u r, Completes (.machineCheck cause addr false)
    (fun s => s.units.token = some u ∧ s.deskUp .internal = true ∧ s.parkDue.nextJob = some r ∧ r.checks = 0)
    fun s t => ∃ q, t.desk.cur = some q ∧ q.job = (s.parkDue.takeJob r).1.job ∧ q.checks = 1 ∧ q.abandons = r.abandons + 1 ∧
      (r.accept.isSome = true → q.accept = r.accept) ∧ t.desk.core.upc = 0 ∧ t.desk.core.staging = [] ∧ t.desk.core.timer = none ∧
      (t.getUnit u).mcCause = some cause ∧ (t.getUnit u).mcAddr = addr ∧ bitAt t.trouble[1] 0 = true) ∧
  (∀ cause addr u r, Completes (.machineCheck cause addr false)
    (fun s => s.units.token = some u ∧ s.deskUp .internal = true ∧ s.parkDue.nextJob = some r ∧ r.checks ≠ 0 ∧ s.standbyPresent = true)
    fun s t => (t.getUnit u).released = true ∧ ∃ q, t.desk.cur = some q ∧ q.job = (s.parkDue.takeJob r).1.job ∧
      (r.accept.isSome = true → q.accept = r.accept) ∧ t.desk.core.staging = []) ∧
  (∀ cause addr u f a k n, Completes (.machineCheck cause addr false)
    (fun s => s.units.token = some u ∧ s.deskUp .internal = true ∧ k ≠ 0 ∧ s.standbyPresent = false ∧
      s.desk.cur = some { job := .packet f, accept := some a, checks := k, abandons := n } ∧
      f.silent = false ∧ f.ringFault = false ∧ (s.queue f.packet.source).qstate ≠ .disabled)
    fun _ t => t.desk.cur = none ∧ Posted f.packet a 0x0701 none t) ∧
  (∀ cause addr u r, Completes (.machineCheck cause addr true)
    (fun s => s.units.token = some u ∧ s.deskUp .internal = true ∧ s.parkDue.nextJob = some r)
    fun s t => ∃ m, exec (.commitSequence false) s = .next m ∧ t = m.checkRecord cause addr ∧ bitAt t.trouble[1] 0 = true) ∧
  (∀ r l u, Completes .repairRequest
    (fun s => s.units.repairs = r :: l ∧ s.units.token = some u ∧ (s.deskUp .internal = false ∨ s.parkDue.nextJob = none))
    fun s t => t.units.repairs = l ∧ t.desk.cur = s.desk.cur) ∧
  (∀ r l u j, Completes .repairRequest
    (fun s => s.units.repairs = r :: l ∧ s.units.token = some u ∧ s.deskUp .internal = true ∧ s.parkDue.nextJob = some j ∧ j.abandons < 4)
    fun s t => t.units.repairs = l ∧ t.desk.core.staging = [] ∧
      ∃ q, t.desk.cur = some q ∧ q.job = (s.parkDue.takeJob j).1.job ∧ q.abandons = j.abandons + 1 ∧ q.checks = j.checks) ∧
  (∀ r l u j, Completes .repairRequest
    (fun s => s.units.repairs = r :: l ∧ s.units.token = some u ∧ s.deskUp .internal = true ∧ s.parkDue.nextJob = some j ∧ 4 ≤ j.abandons)
    fun s t => t.units.repairs = s.units.repairs ∧ t.units.deferrals = s.units.deferrals + 1 ∧ t.desk.cur = s.desk.cur)

/-- R19: a service lane group that fails asks for a switch-over where the STANDBY unit has its group to the die, and is retrained every
1 ms where it has not; after 100 ms every command held for the die ends.
Complete: serviceLaneFailure, serviceLaneRetrain, serviceLaneUp, serviceLaneHoldTimeout. -/
def Obligations.ServiceLanesComplete : Prop :=
  (∀ u d, Completes (.serviceLaneFailure u d)
    (fun s => s.hasDie d.val = true ∧ (s.getUnit u).groups[d.val].up = true ∧ s.units.token = some u ∧ s.standbyPresent = true ∧
      (s.getUnit (otherUnit u)).groups[d.val].up = true)
    fun s t => (t.getUnit u).groups[d.val].up = false ∧ (t.getUnit u).groups[d.val].failedAt = some s.now ∧ (t.getUnit u).released = true) ∧
  (∀ u d, Completes (.serviceLaneFailure u d)
    (fun s => s.hasDie d.val = true ∧ (s.getUnit u).groups[d.val].up = true ∧ s.units.token = some u ∧ s.standbyPresent = false)
    fun s t => (t.getUnit u).groups[d.val].up = false ∧ (t.getUnit u).groups[d.val].failedAt = some s.now ∧ bitAt t.trouble[1] 7 = true) ∧
  (∀ d up, Completes (.serviceLaneRetrain d up) (fun s => s.hasDie d.val = true ∧ (s.group d).up = false ∧ s.now ≤ (s.group d).lastRetrain + 1000000)
    fun s t => t.now = (s.group d).lastRetrain + 1000000 ∧ (t.group d).up = up ∧ (t.group d).lastRetrain = t.now) ∧
  (∀ u d, Completes (.serviceLaneUp u d) (fun s => s.hasDie d.val = true ∧ (s.getUnit u).groups[d.val].up = false)
    fun _ t => (t.getUnit u).groups[d.val].up = true ∧ (t.getUnit u).groups[d.val].dead = false) ∧
  (∀ d n, Completes (.serviceLaneHoldTimeout d)
    (fun s => (s.group d).failedAt = some n ∧ (s.group d).dead = false ∧ s.now ≤ n + 100000000)
    fun s t => t.now = n + 100000000 ∧ (t.group d).dead = true ∧
      t.host.held = s.host.held.filter fun h => !h.items.contains (.dieLink d.val))

/-- R332 to R341, R19: the Keeper, the heartbeats and the service lanes reach no command queue but through a hand-over, and no element of
the signal chain. -/
def Obligations.UnitFrame : Prop :=
  (∀ p, Frame (.unitSwitchover p) (withReport [.units])) ∧
  (∀ u w n, Frame (.heartbeatToggle u w n) [.time, .units]) ∧
  (∀ u, Frame (.heartbeatMissing u) (withReport [.time, .units])) ∧
  (∀ u, Frame (.tokenClaim u) [.units]) ∧
  Frame .keeperDecision (withReport [.units]) ∧
  (∀ v, Frame (.keeperVoterFault v) (withReport [.units])) ∧
  Frame .switchover (withReport [.time, .units]) ∧
  Frame .standbyAckTimeout (withReport [.time, .units]) ∧
  Frame .journalParityError (withReport [.units]) ∧
  (∀ b, Frame (.standbyProof b) (withReport [.time, .units])) ∧
  (∀ u, Frame (.unitRestart u) [.time, .units]) ∧
  (∀ u b, Frame (.unitSelftestEnd u b) (withReport [.units, .boot, .sec])) ∧
  (∀ u, Frame (.resyncEnd u) (withReport [.units])) ∧
  (∀ c a, Frame (.machineCheck c a false) (withReport [.units])) ∧
  Frame .repairRequest (withReport [.units, .seqs, .conc, .wave, .synth]) ∧
  (∀ u d, Frame (.serviceLaneFailure u d) (withReport [.units])) ∧
  (∀ d b, Frame (.serviceLaneRetrain d b) [.time, .units]) ∧
  (∀ u d, Frame (.serviceLaneUp u d) [.units]) ∧
  (∀ d, Frame (.serviceLaneHoldTimeout d) (withReport [.time, .units]))

/-! ## Sequencers (chapter 3) -/

/-- R26, R65, R71, R88, R98 and Tables 3.13 to 3.17: the commands of group 0x03.
Complete: seqLoad, seqBind, seqArm, seqHalt, seqStatus. -/
def Obligations.SequencerCommandsComplete : Prop :=
  (∀ p, Answers (.seqLoad p) seqLoadCmd p fun s t =>
    let w := wordAt p.payload 0
    (t.sq (fld w 63 56)).prog = Sparse.setList 0 (s.sq (fld w 63 56)).prog (fld w 55 44) ((p.payload.drop 1).take (fld w 43 31)) ∧
      ∀ r, r ≠ fld w 63 56 → t.sq r = s.sq r) ∧
  (∀ p, Answers (.seqBind p) seqBindCmd p fun s t =>
    let q := fld (wordAt p.payload 0) 63 56
    (t.sq q).shadow = (s.sq q).rebind p ∧ (t.sq q).active = (s.sq q).active ∧ ∀ r, r ≠ q → t.sq r = s.sq r) ∧
  (∀ p, Answers (.seqArm p) seqArmCmd p fun s t =>
    (∀ q e l, armList p = [(q, e, l)] → bitAt (wordAt p.payload 0) 54 = false → (s.sq q).inShot = true →
      ∃ set, (t.sq q).sealed_ = some set ∧ set.binds = (s.sq q).shadow ∧ set.entry = e ∧ set.limit = l ∧
        set.shots = fld (wordAt p.payload 1) 63 32 ∧ set.maxlen = fld (wordAt p.payload 1) 31 0 ∧ set.accept = s.host.accept + 1) ∧
    (∀ q e l, armList p = [(q, e, l)] → bitAt (wordAt p.payload 0) 54 = false → (s.sq q).inShot = false → (s.sq q).mode = .idle →
      (s.sq q).restore = none → s.repairDue q = false → (s.sq q).lastHalt.toNat < (s.host.accept + 1).toNat →
      (t.sq q).mode = .armed ∧ (t.sq q).armedAt = s.now ∧ (t.sq q).active = (s.sq q).shadow ∧ (t.sq q).entry = e ∧
        (t.sq q).limit = l ∧ (t.sq q).shotsDone = 0 ∧ (t.sq q).sealed_ = none)) ∧
  (∀ p, Answers (.seqHalt p) seqHaltCmd p fun s t => ∀ q ∈ seqMaskList p 1, (s.sq q).stepping = false →
    ((s.sq q).mode = .armed → (t.sq q).mode = .idle ∧ (t.sq q).lastHalt = s.host.accept + 1) ∧
    ((s.sq q).mode = .running → fld (wordAt p.payload 0) 63 62 = 0 → (t.sq q).haltWait = some (s.host.accept + 1)) ∧
    ((s.sq q).mode = .running → fld (wordAt p.payload 0) 63 62 = 1 → (s.sq q).abort = none →
      (t.sq q).fault = 8 ∧ (t.sq q).faultPc = (s.sq q).pc ∧ (t.sq q).lastHalt = s.host.accept + 1)) ∧
  (∀ p, Answers (.seqStatus p) seqStatusCmd p fun s t =>
    let w := wordAt p.payload 0
    (bitAt w 54 = false → t.seqs = s.seqs) ∧
    (bitAt w 54 = true → (t.sq (fld w 63 56)).missed = 0 ∧ (t.sq (fld w 63 56)).lateCues = 0 ∧ (t.sq (fld w 63 56)).overruns = 0 ∧
      (t.sq (fld w 63 56)).g = (s.sq (fld w 63 56)).g) ∧
    Posted p (s.host.accept + 1) 0 (some (s.seqWords (fld w 63 56) (bitAt w 55))) t)

/-- R62, R64, R82 and Tables 3.8 and 3.9: an instruction that computes writes its register and no other, a write to G0 is discarded,
and the program goes on.
Complete: nop, alu, alui, li, movs. -/
def Obligations.SequencerScalarResults : Prop :=
  (∀ q, Completes (.nop q) (fun s => s.ready q.val = some .nop) fun s t =>
    (t.sq q.val).g = (s.sq q.val).g ∧ (t.sq q.val).t = (s.sq q.val).t ∧ (t.sq q.val).cues = (s.sq q.val).cues ∧
      WentTo q.val (s.issueTick q.val) (s.sq q.val).nextPc s t) ∧
  (∀ q gd ga gb fn, Completes (.alu q) (fun s => s.ready q.val = some (.alu gd ga gb fn)) fun s t =>
    (t.sq q.val).g = ((s.sq q.val).setReg gd (seqFn fn ((s.sq q.val).reg ga) ((s.sq q.val).reg gb))).g ∧
      (t.sq q.val).t = (s.sq q.val).t ∧ (t.sq q.val).cues = (s.sq q.val).cues ∧
      WentTo q.val (s.issueTick q.val) (s.sq q.val).nextPc s t) ∧
  (∀ q gd ga fn imm, Completes (.alui q) (fun s => s.ready q.val = some (.alui gd ga fn imm)) fun s t =>
    (t.sq q.val).g = ((s.sq q.val).setReg gd (seqFn fn ((s.sq q.val).reg ga) imm)).g ∧
      (t.sq q.val).t = (s.sq q.val).t ∧ (t.sq q.val).cues = (s.sq q.val).cues ∧
      WentTo q.val (s.issueTick q.val) (s.sq q.val).nextPc s t) ∧
  (∀ q gd hi imm, Completes (.li q) (fun s => s.ready q.val = some (.li gd hi imm)) fun s t =>
    (t.sq q.val).g = ((s.sq q.val).setReg gd (if hi then (imm.setWidth 64 <<< 32) ||| (((s.sq q.val).reg gd).setWidth 32).setWidth 64
        else imm.signExtend 64)).g ∧
      (t.sq q.val).t = (s.sq q.val).t ∧ (t.sq q.val).cues = (s.sq q.val).cues ∧
      WentTo q.val (s.issueTick q.val) (s.sq q.val).nextPc s t) ∧
  (∀ q gd sr, Completes (.movs q) (fun s => s.ready q.val = some (.movs gd sr)) fun s t =>
    (t.sq q.val).g = ((s.sq q.val).setReg gd ((s.issueAt q.val (s.issueTick q.val)).special q.val sr)).g ∧
      (t.sq q.val).t = (s.sq q.val).t ∧ (t.sq q.val).cues = (s.sq q.val).cues ∧
      WentTo q.val (s.issueTick q.val) (s.sq q.val).nextPc s t)

/-- R67 to R70, R79, R110 and Table 3.6: a timed instruction resolves its stamp and puts its cue into the queue, with the register value
that it reads at issue.
Complete: play, setf, setp, frame, measure, mark. -/
def Obligations.SequencerTimedResults : Prop :=
  (∀ q x rep folio, Completes (.play q) (fun s => s.ready q.val = some (.play x rep folio) ∧ (x.tm ≠ 3 ∨ (s.sq q.val).stepping = true)) fun s t =>
    Cued q.val 52 (s.sampleTime q.val 52 x) (.play x.bind folio rep) s t) ∧
  (∀ q x rep folio, Completes (.play q)
    (fun s => s.ready q.val = some (.play x rep folio) ∧ x.tm = 3 ∧ (s.sq q.val).stepping = false ∧
      atN (s.sq q.val).tails x.bind none = none)
    fun s t => Cued q.val 52 (16 * (roomTick (s.sq q.val).cues (s.issueTick q.val) + 52)) (.play x.bind folio rep) s t) ∧
  (∀ q x rep folio y, Completes (.play q)
    (fun s => s.ready q.val = some (.play x rep folio) ∧ x.tm = 3 ∧ (s.sq q.val).stepping = false ∧
      atN (s.sq q.val).tails x.bind none = some y)
    fun s t => Cued q.val 52 (y.start + (y.follows (roomTick (s.sq q.val).cues (s.issueTick q.val) + 52) + 1) * y.len)
      (.play x.bind folio rep) s t) ∧
  (∀ q x gs, Completes (.setf q) (fun s => s.ready q.val = some (.setf x gs)) fun s t =>
    Cued q.val 52 (s.sampleTime q.val 52 x) (.setf x.bind (((s.sq q.val).reg gs).setWidth 48)) s t) ∧
  (∀ q x gs, Completes (.setp q) (fun s => s.ready q.val = some (.setp x gs)) fun s t =>
    Cued q.val 52 (s.sampleTime q.val 52 x) (.setp x.bind (((s.sq q.val).reg gs).setWidth 32)) s t) ∧
  (∀ q x src imm gs, Completes (.frame q) (fun s => s.ready q.val = some (.frame x src imm gs)) fun s t =>
    Cued q.val 52 (s.sampleTime q.val 52 x)
      (.frame x.bind (if src then ((s.sq q.val).reg gs).setWidth 32 else BitVec.ofNat 32 (imm * 2 ^ 16))) s t) ∧
  (∀ q x len capt, Completes (.measure q) (fun s => s.ready q.val = some (.measure x len capt)) fun s t =>
    Cued q.val 8 (s.sampleTime q.val 8 x) (.measure x.bind len capt) s t) ∧
  (∀ q x tgt width, Completes (.mark q) (fun s => s.ready q.val = some (.mark x tgt width)) fun s t =>
    Cued q.val 2 (s.sampleTime q.val 2 x) (.mark tgt width) s t)

/-- R81 to R84, R77: branches, loops, calls and END. A branch goes to its target where its condition holds; LOOP opens a loop, skips its
body on a count of 0, and faults with code 9 on a count from G that is too large and with code 4 on a fifth open loop; a ninth CALL and
a RET on an empty stack fault with code 3.
Complete: br, loop, call, ret, seqEnd. -/
def Obligations.SequencerFlow : Prop :=
  (∀ q cond ga gb tgt, Completes (.br q) (fun s => s.ready q.val = some (.br cond ga gb tgt))
    fun s t => (t.sq q.val).g = (s.sq q.val).g ∧ (t.sq q.val).calls = (s.sq q.val).calls ∧
      WentTo q.val (s.issueTick q.val)
        (if seqCond cond gb ((s.sq q.val).reg ga) ((s.sq q.val).reg gb)
            ((s.issueAt q.val (s.issueTick q.val)).flagsAt q.val (s.dev (s.issueTick q.val))) then tgt else (s.sq q.val).nextPc) s t) ∧
  (∀ q gc stop, Completes (.loop q) (fun s => s.ready q.val = some (.loop false gc 0 stop)) fun s t =>
    (t.sq q.val).loops = (s.sq q.val).loops ∧ WentTo q.val (s.issueTick q.val) (pcNext stop) s t) ∧
  (∀ q gc count stop, Completes (.loop q)
    (fun s => s.ready q.val = some (.loop false gc count stop) ∧ count ≠ 0 ∧ (s.sq q.val).loops.length < 4) fun s t =>
    (t.sq q.val).loops = { start := pcNext (s.sq q.val).pc, stop := stop, left := count, depth := (s.sq q.val).calls.length }
        :: (s.sq q.val).loops ∧
      WentTo q.val (s.issueTick q.val) (pcNext (s.sq q.val).pc) s t) ∧
  (∀ q gc count stop, Completes (.loop q)
    (fun s => s.ready q.val = some (.loop true gc count stop) ∧ 1048575 < ((s.sq q.val).reg gc).toNat) fun s t =>
    (t.sq q.val).fault = 9 ∧ (t.sq q.val).faultPc = (s.sq q.val).pc ∧ (t.sq q.val).loops = (s.sq q.val).loops) ∧
  (∀ q gc count stop, Completes (.loop q)
    (fun s => s.ready q.val = some (.loop false gc count stop) ∧ count ≠ 0 ∧ 4 ≤ (s.sq q.val).loops.length) fun s t =>
    (t.sq q.val).fault = 4 ∧ (t.sq q.val).faultPc = (s.sq q.val).pc ∧ (t.sq q.val).loops = (s.sq q.val).loops) ∧
  (∀ q tgt, Completes (.call q) (fun s => s.ready q.val = some (.call tgt) ∧ (s.sq q.val).calls.length < 8) fun s t =>
    (t.sq q.val).calls = pcNext (s.sq q.val).pc :: (s.sq q.val).calls ∧ WentTo q.val (s.issueTick q.val) tgt s t) ∧
  (∀ q tgt, Completes (.call q) (fun s => s.ready q.val = some (.call tgt) ∧ 8 ≤ (s.sq q.val).calls.length) fun s t =>
    (t.sq q.val).fault = 3 ∧ (t.sq q.val).faultPc = (s.sq q.val).pc ∧ (t.sq q.val).calls = (s.sq q.val).calls) ∧
  (∀ q a l, Completes (.ret q) (fun s => s.ready q.val = some .ret ∧ (s.sq q.val).calls = a :: l) fun s t =>
    (t.sq q.val).calls = l ∧ WentTo q.val (s.issueTick q.val) a s t) ∧
  (∀ q, Completes (.ret q) (fun s => s.ready q.val = some .ret ∧ (s.sq q.val).calls = []) fun s t =>
    (t.sq q.val).fault = 3 ∧ (t.sq q.val).faultPc = (s.sq q.val).pc) ∧
  (∀ q last, Completes (.seqEnd q) (fun s => s.ready q.val = some (.end_ last)) fun s t =>
    (t.sq q.val).ended = some { at_ := s.issueTick q.val, last := last } ∧ (t.sq q.val).g = (s.sq q.val).g ∧
      (t.sq q.val).cues = (s.sq q.val).cues)

/-- R72 to R78, R226, R227, R231: WAIT, BRV and LOOKUP stall, and their resolutions write the register that the instruction names, the
flags and LV.
Complete: wait, waitResolve, waitTimeout, brv, brvResolve, brvDeadline, lookup, lookupResolve, lookupResult. -/
def Obligations.SequencerWaits : Prop :=
  (∀ q gm gr tmo tj tgt, Completes (.wait q) (fun s => s.ready q.val = some (.wait gm gr tmo tj tgt)) fun s t =>
    (t.sq q.val).g = (s.sq q.val).g ∧ (t.sq q.val).pc = (s.sq q.val).pc ∧
      ∃ m hit, (t.sq q.val).stall = .wait (s.issueTick q.val) (Sparse.get 0 (s.sq q.val).prog (s.sq q.val).pc) m hit) ∧
  (∀ q w word m x v gm gr tmo tj tgt, Completes (.waitResolve q)
    (fun s => s.stalled q.val = .wait w word m (some (x, v)) ∧ readSeq word = some (.wait gm gr tmo tj tgt) ∧
      (tmo = 0 ∨ x ≤ w + tmo))
    fun s t => (t.sq q.val).g = ((s.sq q.val).setReg gr v).g ∧ flagOf (t.sq q.val).f flagWT = false ∧
      WentTo q.val x (s.sq q.val).nextPc s t) ∧
  (∀ q w word m gm gr tmo tj tgt, Completes (.waitTimeout q)
    (fun s => s.stalled q.val = .wait w word m none ∧ readSeq word = some (.wait gm gr tmo tj tgt) ∧ tmo ≠ 0)
    fun s t => (t.sq q.val).g = ((s.sq q.val).setReg gr 0).g ∧ flagOf (t.sq q.val).f flagWT = true ∧
      (bitAt m 51 = true → flagOf (t.sq q.val).f flagCS = true) ∧
      WentTo q.val (w + tmo) (if tj then tgt else (s.sq q.val).nextPc) s t) ∧
  (∀ q port smask dflt drel dl tgt gr, Completes (.brv q)
    (fun s => s.ready q.val = some (.brv port smask 1 dflt drel dl tgt gr))
    fun s t => flagOf (t.sq q.val).f flagVL = false ∧ flagOf (t.sq q.val).f flagVA = false ∧
      WentTo q.val (s.issueTick q.val)
        (if flagOf ((s.issueAt q.val (s.issueTick q.val)).flagsAt q.val (s.dev (s.issueTick q.val))) flagTN then tgt
          else (s.sq q.val).nextPc) s t) ∧
  (∀ q port smask dflt drel dl tgt gr, Completes (.brv q)
    (fun s => s.ready q.val = some (.brv port smask 0 dflt drel dl tgt gr))
    fun s t => (t.sq q.val).pc = (s.sq q.val).pc ∧
      (t.sq q.val).stall = .brv (s.issueTick q.val) (Sparse.get 0 (s.sq q.val).prog (s.sq q.val).pc)) ∧
  (∀ q b word port smask mode dflt drel dl tgt gr v n, Completes (.brvResolve q)
    (fun s => s.stalled q.val = .brv b word ∧ readSeq word = some (.brv port smask mode dflt drel dl tgt gr) ∧ port < 16 ∧
      (atN (s.sq q.val).ports port {}).held = some (v, n) ∧ max b n + 1 ≤ (s.sq q.val).deadline drel dl ∧
      vValid v = true ∧ vAbsent v = false)
    fun s t => (t.sq q.val).g = ((s.sq q.val).setReg gr v).g ∧ (t.sq q.val).lv = v ∧
      (atN (t.sq q.val).ports port {}).held = none ∧ flagOf (t.sq q.val).f flagVL = false ∧ flagOf (t.sq q.val).f flagVA = false ∧
      (t.sq q.val).nextIssue = max b n + 2 ∧ (t.sq q.val).pc = (if smask.testBit (vState v) then tgt else (s.sq q.val).nextPc)) ∧
  (∀ q b word port smask mode dflt drel dl tgt gr, Completes (.brvDeadline q)
    (fun s => s.stalled q.val = .brv b word ∧ readSeq word = some (.brv port smask mode dflt drel dl tgt gr) ∧ port < 16 ∧
      (atN (s.sq q.val).ports port {}).held = none ∧ s.unreachable q.val port = false)
    fun s t => flagOf (t.sq q.val).f flagVL = true ∧ flagOf (t.sq q.val).f flagVA = false ∧
      (atN (t.sq q.val).ports port {}).discard = true ∧ vValid (t.sq q.val).lv = false ∧
      (t.sq q.val).g = ((s.sq q.val).setReg gr (t.sq q.val).lv).g ∧
      (t.sq q.val).nextIssue = max ((s.sq q.val).deadline drel dl) (b + 1) + 1 ∧
      (t.sq q.val).pc = (if dflt then tgt else (s.sq q.val).nextPc)) ∧
  (∀ q v gd a dj drel dl tgt, Completes (.lookup q) (fun s => s.ready q.val = some (.lookup v gd a dj drel dl tgt)) fun s t =>
    (t.sq q.val).pc = (s.sq q.val).pc ∧
      (t.sq q.val).stall = .lookup (s.issueTick q.val) (Sparse.get 0 (s.sq q.val).prog (s.sq q.val).pc)) ∧
  (∀ q b word v gd a dj drel dl tgt n, Completes (.lookupResolve q)
    (fun s => s.stalled q.val = .lookup b word ∧ readSeq word = some (.lookup v gd a dj drel dl tgt) ∧
      (s.mem q.val).active.view = some n)
    fun s t => ∃ x idx bank1 old d taint, (t.sq q.val).stall = .lookupRun x word idx bank1 old d taint ∧ bank1 = (s.mem q.val).bank1 ∧
      (t.mem q.val).inputs = Vector.replicate 21 none ∧ (t.vw n.val).lookups = (s.vw n.val).lookups + 1 ∧
      flagOf (t.sq q.val).f flagVL = ((s.mem q.val).active.gather.zipIdx.any fun (g, i) => (s.gatherBit g ((atN (s.mem q.val).inputs i none).filter fun h => decide (h.2 < x))).vl)) ∧
  (∀ q x word idx bank1 old taint v gd dj drel dl tgt n, Completes (.lookupResult q 0)
    (fun s => s.stalled q.val = .lookupRun x word idx bank1 old false taint ∧ readSeq word = some (.lookup v gd false dj drel dl tgt) ∧
      (s.mem q.val).active.view = some n ∧ s.conc.bad.contains (bank1, idx) = false ∧
      turnedAway (atN s.conc.reads (seqCluster q.val) []) q.val = false)
    fun s t => (t.sq q.val).g = ((s.sq q.val).setReg gd (((s.entry bank1 idx >>> 8) <<< 8) |||
        orAll [putB 3 old, putB 4 bank1, putB 5 taint])).g ∧
      WentTo q.val (x + 24) (s.sq q.val).nextPc s t)

/-- R25, R62, R67 to R70, R84 to R93, R421 and Tables 3.6 and 3.11: cues, starts, boundaries, aborts, restores and the debug port's halt and
step.
Complete: cueExecute, markPulseEnd, shotStart, shotBoundary, seqAbortCut, shotLengthLimit, lockstepMiscompare,
sparePairRestoreEnd, programMemoryError, debugSequencerHalt, debugSequencerStep. -/
def Obligations.SequencerEventsComplete : Prop :=
  (∀ q x b v i, Completes (.cueExecute q)
    (fun s => firstCue (s.sq q.val).liveCues = some x ∧ x.act = .setf b v ∧ atN (s.sq q.val).active b .none = .drive i ∧
      s.now ≤ s.dev x.stamp)
    fun s t => t.now = s.dev x.stamp ∧ (t.slotOf (.drive i)).ftw = v ∧ (t.slotOf (.drive i)).since = 16 * s.dev x.stamp + x.sub ∧
      (t.sq q.val).cues = (s.sq q.val).cues.erase x) ∧
  (∀ q x b v i, Completes (.cueExecute q)
    (fun s => firstCue (s.sq q.val).liveCues = some x ∧ x.act = .frame b v ∧ atN (s.sq q.val).active b .none = .probe i ∧
      s.now ≤ s.dev x.stamp)
    fun s t => t.now = s.dev x.stamp ∧ (t.slotOf (.probe i)).foff = (s.slotOf (.probe i)).foff + v ∧
      (t.slotOf (.probe i)).ftw = (s.slotOf (.probe i)).ftw ∧ (t.slotOf (.probe i)).since = 16 * s.dev x.stamp + x.sub) ∧
  (∀ q x b folio rep i, Completes (.cueExecute q)
    (fun s => firstCue (s.sq q.val).liveCues = some x ∧ x.act = .play b folio rep ∧ atN (s.sq q.val).active b .none = .drive i ∧
      s.now ≤ s.dev x.stamp)
    fun s t => ∃ y, (t.slotOf (.drive i)).playing = some y ∧ y.folio = folio ∧ y.start = 16 * s.dev x.stamp + x.sub ∧
      y.len = (s.folio folio).samples ∧ y.rep = rep) ∧
  (∀ q x tgt width, Completes (.cueExecute q)
    (fun s => firstCue (s.sq q.val).liveCues = some x ∧ x.act = .mark tgt width ∧ 8 ≤ tgt ∧ tgt < 16 ∧ s.now ≤ s.dev x.stamp)
    fun s t => t.now = s.dev x.stamp ∧ atN t.synth.pulse tgt none = some (max ((atN s.synth.pulse tgt none).getD 0) (t.now + width))) ∧
  (∀ p n, Completes (.markPulseEnd (.pin p)) (fun s => s.synth.pulse[p.val] = some n ∧ s.now ≤ n)
    fun _ t => t.now = n ∧ t.synth.pulse[p.val] = none) ∧
  (∀ q a n, Completes (.markPulseEnd (.marker q)) (fun s => s.acq.marker[q.val] = some (a, n) ∧ s.now ≤ n + 1)
    fun _ t => t.now = n + 1 ∧ t.acq.marker[q.val] = none) ∧
  (∀ q n, Completes (.shotStart q)
    (fun s => (s.sq q.val).mode = .armed ∧ s.startEvent q.val = some n ∧ s.skips (s.cnt n) = false ∧ s.now ≤ n)
    fun s t => t.now = n ∧ (t.sq q.val).mode = .running ∧ (t.sq q.val).pc = (s.sq q.val).entry ∧ (t.sq q.val).snap = (s.sq q.val).g ∧
      (t.sq q.val).g = (s.sq q.val).g ∧ (t.sq q.val).t = BitVec.ofNat 64 (s.cnt n) ∧ (t.sq q.val).sst = BitVec.ofNat 64 (s.cnt n) ∧
      (t.sq q.val).f = 0 ∧ (t.sq q.val).lv = 0 ∧ (t.sq q.val).ports = Vector.replicate 16 {} ∧ (t.sq q.val).calls = [] ∧ (t.sq q.val).loops = [] ∧ (t.sq q.val).cues = [] ∧
      (t.sq q.val).nextIssue = s.cnt n + 1 ∧ (t.sq q.val).shotsLeft = (s.sq q.val).shotsLeft.map (· - 1)) ∧
  (∀ q n src, Completes (.shotStart q)
    (fun s => (s.sq q.val).mode = .armed ∧ (s.sq q.val).start = some (.source src) ∧ s.startEvent q.val = some n ∧
      s.skips (s.cnt n) = true)
    fun s t => (t.sq q.val).mode = .armed ∧ (t.sq q.val).armedAt = n + 1 ∧ t.thermal.skipped = s.thermal.skipped + 1) ∧
  (∀ q e, Completes (.shotBoundary q)
    (fun s => (s.sq q.val).inShot = true ∧ (s.sq q.val).abort = none ∧ (s.sq q.val).ended = some e ∧ (s.sq q.val).cues = [] ∧
      (s.sq q.val).sealed_ = none ∧ (s.sq q.val).haltWait = none ∧ (s.sq q.val).holdWait = none ∧ (s.sq q.val).debugWait = false ∧ (s.sq q.val).stepping = false ∧
      s.now ≤ s.dev ((s.sq q.val).boundary e))
    fun s t => t.now = s.dev ((s.sq q.val).boundary e) ∧ (t.sq q.val).shotsDone = (s.sq q.val).shotsDone + 1 ∧
      (t.sq q.val).gBound = (s.sq q.val).g ∧ (t.sq q.val).shotsLeft = (s.sq q.val).shotsLeft ∧
      (t.sq q.val).mode = (if e.last ∨ (t.sq q.val).shotsLeft = some 0 then .idle else .armed)) ∧
  (∀ q a, Completes (.shotBoundary q)
    (fun s => (s.sq q.val).inShot = true ∧ (s.sq q.val).abort = some a ∧ a.cut = true ∧ a.code ≠ 1 ∧ a.code ≠ 2 ∧ a.rearm = false ∧
      (s.sq q.val).sealed_ = none ∧ (s.sq q.val).debugWait = false ∧ (s.sq q.val).stepping = false ∧ s.now ≤ s.dev (a.at_ + 6))
    fun s t => t.now = s.dev (a.at_ + 6) ∧ (t.sq q.val).mode = .idle ∧ (t.sq q.val).shotsDone = (s.sq q.val).shotsDone ∧
      (t.sq q.val).abort = none) ∧
  (∀ q a, Completes (.shotBoundary q)
    (fun s => (s.sq q.val).inShot = true ∧ (s.sq q.val).abort = some a ∧ a.cut = true ∧ a.code = 1 ∧ s.now ≤ s.dev (a.at_ + 6) ∧
      atN s.seqs.spare (seqCluster q.val) none = none)
    fun s t => t.now = s.dev (a.at_ + 6) ∧ atN t.seqs.spare (seqCluster q.val) none = some q.val ∧ (t.sq q.val).onSpare = true ∧
      (t.sq q.val).retired = true ∧ (t.sq q.val).restore.map (·.1) = some t.now) ∧
  (∀ q a k, Completes (.shotBoundary q)
    (fun s => (s.sq q.val).inShot = true ∧ (s.sq q.val).abort = some a ∧ a.cut = true ∧ a.code = 1 ∧ s.now ≤ s.dev (a.at_ + 6) ∧
      atN s.seqs.spare (seqCluster q.val) none = some k)
    fun s t => t.now = s.dev (a.at_ + 6) ∧ (t.sq q.val).mode = .failed) ∧
  (∀ q a i, Completes (.seqAbortCut q)
    (fun s => (s.sq q.val).abort = some a ∧ a.cut = false ∧ s.now ≤ s.dev (a.at_ + 5) ∧ Binding.drive i ∈ (s.sq q.val).active.toList)
    fun s t => t.now = s.dev (a.at_ + 5) ∧ (t.sq q.val).abort = some { a with cut := true } ∧ (t.sq q.val).cues = [] ∧
      (t.slotOf (.drive i)).hold = true ∧ (t.slotOf (.drive i)).playing = none) ∧
  (∀ q, Completes (.shotLengthLimit q)
    (fun s => (s.sq q.val).inShot = true ∧ (s.sq q.val).maxlen ≠ 0 ∧ (s.sq q.val).abort = none ∧ (s.sq q.val).ended = none ∧
      s.now ≤ s.dev ((s.sq q.val).sst.toNat + (s.sq q.val).maxlen))
    fun s t => t.now = s.dev ((s.sq q.val).sst.toNat + (s.sq q.val).maxlen) ∧ (t.sq q.val).fault = 6 ∧
      (t.sq q.val).faultPc = (s.sq q.val).pc ∧ ∃ a, (t.sq q.val).abort = some a ∧ a.at_ = (s.sq q.val).sst.toNat + (s.sq q.val).maxlen) ∧
  (∀ q, Completes (.lockstepMiscompare q) (fun s => (s.sq q.val).inShot = true ∧ (s.sq q.val).abort = none)
    fun s t => (t.sq q.val).fault = 1 ∧ (t.sq q.val).faultPc = (s.sq q.val).pc ∧ ∃ a, (t.sq q.val).abort = some a ∧ a.code = 1 ∧
      a.rearm = true) ∧
  (∀ q n arm, Completes (.sparePairRestoreEnd q) (fun s => (s.sq q.val).restore = some (n, arm) ∧ (s.sq q.val).debugWait = false ∧ s.now ≤ n + 32)
    fun s t => t.now = n + 32 ∧ (t.sq q.val).g = (s.sq q.val).snap ∧ (t.sq q.val).restore = none ∧
      (t.sq q.val).mode = (if arm then .armed else .idle)) ∧
  (∀ q addr, Completes (.programMemoryError q addr true) (fun _ => True)
    fun s t => (t.sq q.val).corrected = (s.sq q.val).corrected + 1 ∧ (t.sq q.val).mode = (s.sq q.val).mode) ∧
  (∀ q addr, Completes (.programMemoryError q addr false) (fun s => (s.sq q.val).inShot = true ∧ (s.sq q.val).abort = none)
    fun s t => (t.sq q.val).fault = 2 ∧ t.units.repairs = s.units.repairs ++ [.seqProgram q.val addr.val]) ∧
  (∀ q, Completes (.debugSequencerHalt q) (fun s => s.debugLevel 2 = true ∧ (s.sq q.val).mode = .running)
    fun _ t => (t.sq q.val).debugWait = true ∧ (t.sq q.val).mode = .running) ∧
  (∀ q, Completes (.debugSequencerHalt q) (fun s => s.debugLevel 2 = true ∧ (s.sq q.val).mode = .armed)
    fun _ t => (t.sq q.val).mode = .debugHalted ∧ (t.sq q.val).rearmDue = true) ∧
  (∀ q, Completes (.debugSequencerHalt q) (fun s => s.debugLevel 2 = false) fun s t => t = s) ∧
  (∀ q i, Completes (.debugSequencerStep q)
    (fun s => s.debugLevel 2 = true ∧ (s.sq q.val).mode = .debugHalted ∧ (s.sq q.val).stepping = true ∧ s.ready q.val = some i)
    fun s t => t = s.doIns q.val i) ∧
  (∀ q, Completes (.debugSequencerStep q)
    (fun s => s.debugLevel 2 = true ∧ (s.sq q.val).mode = .debugHalted ∧ (s.sq q.val).stepping = false ∧ (s.sq q.val).rearmDue = true)
    fun s t => (t.sq q.val).stepping = true ∧ (t.sq q.val).snap = (s.sq q.val).g ∧ (t.sq q.val).mode = .debugHalted)

/-- What the commands and events of the sequencers leave alone: an instruction reaches its sequencer, the clock and, by a program fault,
the trouble words; a cue reaches the slots; only a start, a boundary and SEQ_ARM reach the sets of the bound elements. -/
def Obligations.SequencerFrame : Prop :=
  (∀ p, Frame (.seqLoad p) (withReport [.seqs])) ∧
  (∀ p, Frame (.seqBind p) (withReport [.seqs])) ∧
  (∀ p, Frame (.seqHalt p) (withReport [.seqs, .time, .parts])) ∧
  (∀ p, Frame (.seqStatus p) (withReport [.seqs])) ∧
  (∀ q, ∀ i ∈ [Instr.nop q, .alu q, .alui q, .li q, .movs q, .play q, .setf q, .setp q, .frame q, .measure q, .mark q, .br q, .loop q,
      .call q, .ret q, .brv q, .lookup q, .waitResolve q, .waitTimeout q, .brvResolve q, .brvDeadline q],
    Frame i (withReport [.time, .seqs])) ∧
  (∀ q, Frame (.seqEnd q) [.time, .seqs, .synth]) ∧
  (∀ q, Frame (.wait q) (withReport [.time, .seqs, .conc])) ∧
  (∀ q, Frame (.lookupResolve q) [.time, .seqs, .conc]) ∧
  (∀ q e, Frame (.lookupResult q e) (withReport [.time, .seqs, .conc, .units])) ∧
  (∀ q, Frame (.cueExecute q) (withReport [.time, .seqs, .synth, .readout, .acq, .wave, .units])) ∧
  (∀ m, Frame (.markPulseEnd m) [.time, .synth, .acq, .seqs, .free]) ∧
  (∀ q, Frame (.shotStart q) (withReport [.time, .seqs, .synth, .conc, .thermal])) ∧
  (∀ q, Frame (.seqAbortCut q) (withReport [.time, .seqs, .synth, .readout, .wave])) ∧
  (∀ q, Frame (.shotLengthLimit q) (withReport [.time, .seqs])) ∧
  (∀ q, Frame (.lockstepMiscompare q) (withReport [.time, .seqs])) ∧
  (∀ q, Frame (.sparePairRestoreEnd q) (withReport [.time, .seqs, .parts])) ∧
  (∀ q a b, Frame (.programMemoryError q a b) (withReport [.time, .seqs, .units])) ∧
  (∀ q, Frame (.debugSequencerHalt q) [.seqs])

/-! ## Drive synthesis and the waveform memory (chapters 4 and 5) -/

/-- R115, R119 to R122, R129 and Tables 4.8 to 4.12: the commands of group 0x04.
Complete: toneConfig, xtalkMatrix, outputEnable. -/
def Obligations.SynthesisCommandsComplete : Prop :=
  (∀ p, Answers (.toneConfig p) toneConfigCmd p fun s t =>
    (∀ i o x, toneList p = [.slot (.drive i) o x] →
      (t.slotOf (.drive i)).shadow = x ∧ (t.slotOf (.drive i)).active = (s.slotOf (.drive i)).active ∧
        ∀ j, j ≠ i → t.slotOf (.drive j) = s.slotOf (.drive j)) ∧
    (∀ i o x, toneList p = [.slot (.probe i) o x] →
      (t.slotOf (.probe i)).shadow = x ∧ (t.slotOf (.probe i)).active = (s.slotOf (.probe i)).active ∧ t.synth.drive = s.synth.drive) ∧
    (∀ o g, toneList p = [.output o g] → o < 96 → (t.out o).shadow = g ∧ (t.out o).active = (s.out o).active ∧
      t.synth.drive = s.synth.drive ∧ t.synth.probe = s.synth.probe)) ∧
  (∀ p, Answers (.xtalkMatrix p) xtalkMatrixCmd p fun s t =>
    let k := fld (wordAt p.payload 0) 63 61
    atN t.synth.xtalk k [] = (xtalkList p).1.foldl (fun m g => Sparse.setList 0 m (128 * g.target + g.first) g.entries)
        (atN s.synth.xtalk k []) ∧
      ∀ j, j ≠ k → atN t.synth.xtalk j [] = atN s.synth.xtalk j []) ∧
  (∀ p, Answers (.outputEnable p) outputEnableCmd p fun s t => ∀ r, outList p = [r] → r.o < 96 →
    (t.out r.o).ramp = r.ramp ∧ (t.out r.o).tripLatch = r.latch ∧ (∀ o, o ≠ r.o → t.out o = (s.hearCluster s.now (outCluster r.o)).out o) ∧
    (r.action = 0 → (t.out r.o).cmdMute = true) ∧
    (r.action = 1 → (t.out r.o).latched = false ∧ (t.out r.o).baseband = r.baseband ∧
      ((s.out r.o).core = .on → (t.out r.o).cmdMute = false) ∧ ((s.out r.o).core = .off → (t.out r.o).core = .powering s.now)) ∧
    (r.action = 2 → (t.out r.o).cmdMute = true ∧ ((s.out r.o).core = .on → ∃ n, (t.out r.o).core = .dropping n)) ∧
    Posted p (s.host.accept + 1) 0 (some [t.outWord r.o]) t)

/-- R119 to R121, R125 to R128: ramps, the settling of a core, and the spare DAC core of a cluster.
Complete: outputRampEnd, outputRampUpEnd, dacCoreSettled, dacCoreFault, dacFaultSwapEnd, sparePrepared, dacPlannedSwap,
dacPlannedSwapEnd, plannedSwapAbandon. -/
def Obligations.SynthesisEventsComplete : Prop :=
  (∀ o r, Completes (.outputRampEnd o) (fun s => (s.out o.val).ramping = some r ∧ r.up = false ∧ s.now ≤ r.at_ + r.len)
    fun s t => t.now = r.at_ + r.len ∧ (t.out o.val).ramping = none ∧ (t.out o.val).cmdMute = (s.out o.val).cmdMute) ∧
  (∀ o n, Completes (.outputRampEnd o) (fun s => (s.out o.val).ramping = none ∧ (s.out o.val).core = .dropping n ∧ s.now ≤ n)
    fun _ t => t.now = n ∧ (t.out o.val).core = .off) ∧
  (∀ o r, Completes (.outputRampUpEnd o) (fun s => (s.out o.val).ramping = some r ∧ r.up = true ∧ s.now ≤ r.at_ + r.len)
    fun _ t => t.now = r.at_ + r.len ∧ (t.out o.val).ramping = none) ∧
  (∀ o n, Completes (.dacCoreSettled o) (fun s => (s.out o.val).core = .powering n)
    fun s t => (t.out o.val).core = .on ∧ (t.out o.val).cmdMute = false ∧ t.now = s.now) ∧
  (∀ o, Completes (.dacCoreFault o)
    (fun s => (s.out o.val).failed = false ∧ (s.out o.val).faultMute = false ∧ (s.out o.val).core ≠ .off ∧
      s.hasCluster (outCluster o.val) = true ∧ (s.out o.val).onSpare = false ∧ atN s.synth.spareFailed (outCluster o.val) false = false ∧
      s.dacSpare (outCluster o.val) = .free ∧ s.calHead (outDie o.val) = none)
    fun s t => (t.out o.val).faultMute = true ∧ (t.out o.val).coreFailed = true ∧ (t.out o.val).failed = false ∧
      t.dacSpare (outCluster o.val) = .starting o.val s.now ∧
      bitAt t.trouble[(dieWord (outDie o.val)).val] (16 + outIndex o.val) = true) ∧
  (∀ o, Completes (.dacCoreFault o)
    (fun s => (s.out o.val).failed = false ∧ (s.out o.val).faultMute = false ∧ (s.out o.val).core ≠ .off ∧
      s.hasCluster (outCluster o.val) = true ∧ (s.out o.val).onSpare = false ∧ atN s.synth.spareFailed (outCluster o.val) false = true)
    fun _ t => (t.out o.val).faultMute = true ∧ (t.out o.val).coreFailed = true ∧ (t.out o.val).failed = true) ∧
  (∀ o n, Completes (.dacFaultSwapEnd o) (fun s => s.dacSpare (outCluster o.val) = .starting o.val n ∧ s.now ≤ n + 10016)
    fun _ t => t.now = n + 10016 ∧ t.dacSpare (outCluster o.val) = .serving o.val ∧ (t.out o.val).onSpare = true ∧
      (t.out o.val).faultMute = false) ∧
  (∀ k o n, Completes (.sparePrepared k) (fun s => s.dacSpare k.val = .preparing o n ∧ s.now ≤ n + 100000)
    fun _ t => t.now = n + 100000 ∧ t.dacSpare k.val = .ready o t.now) ∧
  (∀ o n, Completes (.dacPlannedSwap o)
    (fun s => s.dacSpare (outCluster o.val) = .ready o.val n ∧
      (s.hearCluster s.now (outCluster o.val)).quietOut o.val s.now = true)
    fun s t => t.dacSpare (outCluster o.val) = .swapping o.val s.now false ∧ t.now = s.now) ∧
  (∀ o n, Completes (.dacPlannedSwap o)
    (fun s => s.dacSpare (outCluster o.val) = .ready o.val n ∧
      (s.hearCluster s.now (outCluster o.val)).quietOut o.val s.now = false)
    fun s t => t.dacSpare (outCluster o.val) = .ready o.val n ∧ t.now = s.now) ∧
  (∀ o n, Completes (.dacPlannedSwapEnd o)
    (fun s => s.dacSpare (outCluster o.val) = .swapping o.val n false ∧ s.now ≤ n + 16)
    fun _ t => t.now = n + 16 ∧ t.dacSpare (outCluster o.val) = .covering o.val ∧ (t.out o.val).onSpare = true) ∧
  (∀ k o n, Completes (.plannedSwapAbandon k)
    (fun s => s.dacSpare k.val = .ready o n ∧ s.now ≤ n + 100000000 ∧ (s.calOf (dieOf k.val)).run = none)
    fun s t => t.now = n + 100000000 ∧ t.dacSpare k.val = .free ∧
      (t.calOf (dieOf k.val)).skipped = (s.calOf (dieOf k.val)).skipped + 1)

/-- R135 to R146 and Tables 5.2 to 5.7: the commands of group 0x05.
Complete: folioWrite, shelfPin, streamPlan. -/
def Obligations.WaveformCommandsComplete : Prop :=
  (∀ p, Answers (.folioWrite p) folioWriteCmd p fun s t =>
    (fwMode p = 0 → t.wave.folios = Sparse.set {} s.wave.folios (fwFolio p)
      ((({ state := .open_, owner := Fin.ofNat 8 p.partition.toNat, rate := fwRate p, n := fwN p, crc := lo32 (wordAt p.payload 1)
           addr := (firstFit (s.shareRuns (Fin.ofNat 8 p.partition.toNat).val) (s.shareGranules (Fin.ofNat 8 p.partition.toNat).val)
             (ceilDiv (fwN p) 64)).getD 0 } : Folio).write p).check)) ∧
    (fwMode p = 1 → t.wave.folios = Sparse.set {} s.wave.folios (fwFolio p) (((s.folio (fwFolio p)).write p).check)) ∧
    (fwMode p = 2 → t.wave.folios = Sparse.set {} s.wave.folios (fwFolio p) {}) ∧
    t.wave.shelf = s.wave.shelf ∧ t.wave.plans = s.wave.plans) ∧
  (∀ p, Answers (.shelfPin p) shelfPinCmd p fun s t =>
    (pinAction p = 0 → t.shelfOf (pinDie p) = (Shelf.allocAll (s.pinRuns (pinList p)) 0 (s.shelfOf (pinDie p))).1 ∧
      ∃ o ∈ t.host.open_, o.packet = p ∧ o.accept = s.host.accept + 1) ∧
    (pinAction p = 1 → ∀ r ∈ (t.shelfOf (pinDie p)).runs, r ∈ (s.shelfOf (pinDie p)).runs ∧ ∀ f ∈ pinList p, r.use ≠ .pin f) ∧
    (pinAction p = 2 → t.wave = s.wave ∧ Posted p (s.host.accept + 1) 0 (some [(s.shelfOf (pinDie p)).word]) t) ∧
    t.wave.folios = s.wave.folios) ∧
  (∀ p, Answers (.streamPlan p) streamPlanCmd p fun s t =>
    (t.plansOf (planSeq p)).shadow.list = planPairs p ∧ (t.plansOf (planSeq p)).active = (s.plansOf (planSeq p)).active ∧
      t.wave.folios = s.wave.folios ∧ ∀ q, q ≠ planSeq p → t.plansOf q = s.plansOf q)

/-- R138, R141, R143, R146: copies to the Shelf end, refills are requested and land, and Shelf words fail.
Complete: shelfCopyEnd, refillRequest, refillLand, shelfEccError. -/
def Obligations.WaveformEventsComplete : Prop :=
  (∀ o, Completes (.shelfCopyEnd none)
    (fun s => s.host.open_.find? (fun o => o.opcode == 0x0502 || o.opcode == 0x0503) = some o ∧ o.opcode = 0x0502)
    fun s t => Finished o 0 (some [(t.shelfOf (pinDie o.packet)).word]) s t ∧ t.wave.folios = s.wave.folios ∧
      ∀ r ∈ (t.shelfOf (pinDie o.packet)).runs, ∀ f ∈ pinList o.packet, r.use = .pin f → r.placed = true) ∧
  (∀ o b, Completes (.shelfCopyEnd (some b))
    (fun s => s.host.open_.find? (fun o => o.opcode == 0x0502 || o.opcode == 0x0503) = some o ∧ o.opcode = 0x0502 ∧
      b.toNat ∈ pinList o.packet)
    fun s t => Finished o 0x0602 (some [(t.shelfOf (pinDie o.packet)).word]) s t ∧
      t.wave.folios = Sparse.set {} s.wave.folios b.toNat { s.folio b.toNat with state := .bad } ∧
      ∀ r ∈ (t.shelfOf (pinDie o.packet)).runs, r.use ≠ .pin b.toNat) ∧
  (∀ q b x f half k, Completes (.refillRequest q b)
    (fun s => s.streaming q.val b.val = some (x, f, half) ∧ x.stopAt = none ∧
      nextRequest ((atN (s.plansOf q.val).wins b.val {}).at_ x.start) f half x.rep =
        some (((atN (s.plansOf q.val).wins b.val {}).at_ x.start).rep, k) ∧
      s.now ≤ (x.start + ((atN (s.plansOf q.val).wins b.val {}).at_ x.start).rep * x.len + f.reach (requestAt f.head half k)) / 16)
    fun s t => (atN (t.plansOf q.val).wins b.val {}).requests = k + 1 ∧
      t.now = (x.start + ((atN (s.plansOf q.val).wins b.val {}).at_ x.start).rep * x.len + f.reach (requestAt f.head half k)) / 16 ∧
      (k % 2 = 0 → (atN (t.plansOf q.val).wins b.val {}).a.first = f.head + k * 64 * half ∧
        (atN (t.plansOf q.val).wins b.val {}).a.landed = 0)) ∧
  (∀ q b n x f half, Completes (.refillLand q b n none)
    (fun s => s.streaming q.val b.val = some (x, f, half) ∧ (atN (s.plansOf q.val).wins b.val {}).start = x.start ∧
      (atN (s.plansOf q.val).wins b.val {}).a.landed < (atN (s.plansOf q.val).wins b.val {}).a.asked ∧
      (atN (s.plansOf q.val).wins b.val {}).b.asked ≤ (atN (s.plansOf q.val).wins b.val {}).b.landed)
    fun s t => (atN (t.plansOf q.val).wins b.val {}).a.landed =
      min (atN (s.plansOf q.val).wins b.val {}).a.asked ((atN (s.plansOf q.val).wins b.val {}).a.landed + n.val)) ∧
  (∀ q g w, Completes (.shelfEccError q g w true) (fun _ => True)
    fun s t => (t.shelfOf (dieOf (seqCluster q.val))).corrected = (s.shelfOf (dieOf (seqCluster q.val))).corrected + 1 ∧
      t.seqs = s.seqs) ∧
  (∀ q g w, Completes (.shelfEccError q g w false) (fun s => (s.sq q.val).inShot = true)
    fun s t => (t.shelfOf (dieOf (seqCluster q.val))).uncorrectable = (s.shelfOf (dieOf (seqCluster q.val))).uncorrectable + 1 ∧
      (t.shelfOf (dieOf (seqCluster q.val))).bad.contains (g.val, w.val) = true ∧
      flagOf (t.sq q.val).f flagTN = true ∧ t.units.repairs = s.units.repairs ++ [.shelf (dieOf (seqCluster q.val)) g.val] ∧
      bitAt t.trouble[(dieWord (dieOf (seqCluster q.val))).val] 3 = true)

/-- What the commands and events of the drive outputs and of the waveform memory leave alone. -/
def Obligations.SynthesisFrame : Prop :=
  (∀ p, Frame (.toneConfig p) (withReport [.synth])) ∧ (∀ p, Frame (.xtalkMatrix p) (withReport [.synth])) ∧
  (∀ p, Frame (.outputEnable p) (withReport [.synth])) ∧
  (∀ o, Frame (.outputRampEnd o) [.time, .synth]) ∧ (∀ o, Frame (.outputRampUpEnd o) [.time, .synth]) ∧
  (∀ o, Frame (.dacCoreSettled o) [.synth]) ∧
  (∀ o, Frame (.dacCoreFault o) (withReport [.synth, .readout, .bias, .cal])) ∧
  (∀ o, Frame (.dacFaultSwapEnd o) (withReport [.time, .synth])) ∧
  (∀ k, Frame (.sparePrepared k) [.time, .synth, .readout]) ∧ (∀ o, Frame (.dacPlannedSwap o) [.synth]) ∧
  (∀ o, Frame (.dacPlannedSwapEnd o) [.time, .synth, .readout, .bias, .cal, .host]) ∧
  (∀ k, Frame (.plannedSwapAbandon k) [.time, .synth, .readout, .bias, .cal]) ∧
  (∀ p, Frame (.folioWrite p) (withReport [.wave])) ∧ (∀ p, Frame (.shelfPin p) (withReport [.wave])) ∧
  (∀ p, Frame (.streamPlan p) (withReport [.wave])) ∧ (∀ b, Frame (.shelfCopyEnd b) (withReport [.wave, .synth])) ∧
  (∀ q b, Frame (.refillRequest q b) (withReport [.time, .wave, .seqs, .synth])) ∧
  (∀ q b n e, Frame (.refillLand q b n e) (withReport [.wave, .seqs, .synth])) ∧
  (∀ q g w c, Frame (.shelfEccError q g w c) (withReport [.wave, .seqs, .units, .synth]))

/-! ## Readout (chapter 6) -/

/-- R150, R157, R159, R168 and Tables 6.6 to 6.9: the commands of group 0x06.
Complete: readoutConfig, kernelLoad, discrimConfig. -/
def Obligations.ReadoutCommandsComplete : Prop :=
  (∀ p, Answers (.readoutConfig p) readoutConfigCmd p fun s t => ∀ a b, rcList p = [(a, b)] →
    (rcQuery a = true → t.readout = s.readout ∧ Posted p (s.host.accept + 1) 0 (some [s.rcWord a]) t) ∧
    (rcQuery a = false → rcIsLine a = true → (t.ln (rcLine a)).zone = bitAt a 56 ∧ (t.ln (rcLine a)).power = bitAt a 55 ∧
      (t.ln (rcLine a)).values = (s.ln (rcLine a)).values ∧ t.readout.demod = s.readout.demod) ∧
    (rcQuery a = false → rcIsLine a = false → (t.dm (rcSlot a)).shadow.role = bitAt a 52 ∧ (t.dm (rcSlot a)).shadow.est = bitAt a 51 ∧
      (t.dm (rcSlot a)).shadow.ftw = a.setWidth 48 ∧ (t.dm (rcSlot a)).shadow.foff = hi32 b ∧
      (t.dm (rcSlot a)).shadow.kernel = (s.dm (rcSlot a)).shadow.kernel ∧ (t.dm (rcSlot a)).active = (s.dm (rcSlot a)).active ∧
      t.readout.line = s.readout.line)) ∧
  (∀ p, Answers (.kernelLoad p) kernelLoadCmd p fun s t =>
    let k := klSlot (wordAt p.payload 0)
    (t.dm k).shadow.kernel = p.payload.drop 1 ∧ (t.dm k).shadow.ftw = (s.dm k).shadow.ftw ∧ (t.dm k).active = (s.dm k).active ∧
      ∀ j, j ≠ k → t.dm j = s.dm j) ∧
  (∀ p, Answers (.discrimConfig p) discrimConfigCmd p fun s t => fld (wordAt p.payload 0) 63 54 = 1 →
    let k := klSlot (dcWord p 0 0)
    (t.dm k).shadow.disc = dcRead p 0 ∧ (t.dm k).shadow.kernel = (s.dm k).shadow.kernel ∧ (t.dm k).active = (s.dm k).active ∧
      ∀ j, j ≠ k → t.dm j = s.dm j)

/-- R150, R155 to R163, R165, R166, R198: a line settles, windows close with and without a result, words and values arrive, and the
spare ADC core of a cluster takes over.
Complete: lineSettleEnd, windowClose, windowClosedNoResult, absentVerdictFormation, discriminatorWordArrival, valueArrival,
adcCoreFault, adcFaultSwapEnd, adcPlannedSwap, adcPlannedSwapEnd. -/
def Obligations.ReadoutEventsComplete : Prop :=
  (∀ l n, Completes (.lineSettleEnd l) (fun s => (s.ln l.val).settleAt = some n)
    fun s t => (t.ln l.val).settleAt = none ∧ (t.ln l.val).zone = (s.ln l.val).zone) ∧
  (∀ k codes n w, Completes (.windowClose k codes n) (fun s => s.firstWindow k.val = some w ∧ s.now ≤ w.last)
    fun s t => t.now = w.last ∧ (t.dm k.val).windows = (s.dm k.val).windows.erase w ∧
      (t.dm k.val).closed = (s.dm k.val).closed + 1 ∧
      ∃ v, (t.ln (demodLine k.val)).values = (s.ln (demodLine k.val)).values ++ [v] ∧ v.slot = k.val ∧ v.close = w.last ∧
        v.outOfRange = s.overIn k.val w codes ∧ v.done_ = w.last + 31 ∧
        (t.dm k.val).outOfRange = (if s.overIn k.val w codes then satAdd 16 (s.dm k.val).outOfRange 1 else (s.dm k.val).outOfRange) ∧
        v.z = s.demodulate k.val w codes ∧ (v.yi, v.yq) = integrate (s.dm k.val).active.kernel (s.demodulate k.val w codes)) ∧
  (∀ k codes m w n, Completes (.windowClosedNoResult k codes m)
    (fun s => (s.dm k.val).windows.find? (fun w => ((s.ln (demodLine k.val)).noResult w).isSome) = some w ∧
      (s.ln (demodLine k.val)).noResult w = some n ∧ s.now ≤ n)
    fun s t => t.now = n ∧ (t.dm k.val).windows = (s.dm k.val).windows.erase w ∧
      t.readout.absent = s.readout.absent ++ [(k.val, { w with outOfRange := s.overIn k.val w codes }, n)] ∧
      (t.dm k.val).outOfRange = (if s.overIn k.val w codes then satAdd 16 (s.dm k.val).outOfRange 1 else (s.dm k.val).outOfRange) ∧ (t.ln (demodLine k.val)).values = (s.ln (demodLine k.val)).values) ∧
  (∀ k d w n, Completes (.absentVerdictFormation k d)
    (fun s => s.readout.absent.find? (fun e => e.1 == k.val) = some (k.val, w, n) ∧ s.now ≤ n + d.val)
    fun s t => t.now = n + d.val ∧ t.readout.absent = s.readout.absent.erase (k.val, w, n) ∧
      ∃ packet, vValid packet = false ∧ vAbsent packet = true ∧ t.fabric.flight = s.fabric.flight ++
        [⟨packet, n + d.val, .cluster⟩, ⟨packet, n + d.val + 12, .die⟩, ⟨packet, n + d.val + 24, .device⟩]) ∧
  (∀ l n, Completes (.discriminatorWordArrival l) (fun s => minTick ((s.ln l.val).words.map (·.hub)) = some n ∧ s.now ≤ n)
    fun s t => t.now = n ∧ (t.ln l.val).words = (s.ln l.val).words.filter fun y => y.hub != n) ∧
  (∀ l n, Completes (.valueArrival l) (fun s => (s.ln l.val).sendTick = some n ∧ s.now ≤ n + 4)
    fun s t => t.now = n + 4 ∧ (t.ln l.val).sentAt = some n ∧ (t.ln l.val).words = (s.ln l.val).words) ∧
  (∀ l, Completes (.adcCoreFault l)
    (fun s => (s.ln l.val).failed = false ∧ (s.ln l.val).power = true ∧ (s.ln l.val).onSpare = false ∧
      s.hasCluster (lineCluster l.val) = true ∧ atN s.readout.spareFailed (lineCluster l.val) false = false ∧
      s.adcSpare (lineCluster l.val) = .free ∧ s.calHead (dieOf (lineCluster l.val)) = none)
    fun s t => (t.ln l.val).coreFailed = true ∧ (t.ln l.val).faultAt = some s.now ∧ (t.ln l.val).failed = false ∧
      t.adcSpare (lineCluster l.val) = .starting l.val s.now ∧ (t.ln l.val).blank (s.now + 2) = true ∧ (t.ln l.val).faultEnd = s.now + 10028 ∧
      bitAt t.trouble[(dieWord (dieOf (lineCluster l.val))).val] (40 + l.val % 8) = true) ∧
  (∀ l n, Completes (.adcFaultSwapEnd l) (fun s => s.adcSpare (lineCluster l.val) = .starting l.val n ∧ s.now ≤ n + 10016)
    fun _ t => t.now = n + 10016 ∧ t.adcSpare (lineCluster l.val) = .serving l.val ∧ (t.ln l.val).onSpare = true) ∧
  (∀ l n, Completes (.adcPlannedSwap l)
    (fun s => s.adcSpare (lineCluster l.val) = .ready l.val n ∧ s.rawRuns l.val s.now = false)
    fun s t => t.adcSpare (lineCluster l.val) = .swapping l.val s.now false) ∧
  (∀ l n, Completes (.adcPlannedSwapEnd l) (fun s => s.adcSpare (lineCluster l.val) = .swapping l.val n false ∧ s.now ≤ n + 16)
    fun _ t => t.now = n + 16 ∧ t.adcSpare (lineCluster l.val) = .covering l.val ∧ (t.ln l.val).onSpare = true)

/-! ## Estimators (chapter 7) -/

/-- R187, R193 to R195 and Tables 7.8 to 7.10: EST_LOAD and EST_START.
Complete: estLoad, estStart. -/
def Obligations.EstimatorCommandsComplete : Prop :=
  (∀ p, Answers (.estLoad p) estLoadCmd p fun s t =>
    let w := wordAt p.payload 0
    let n := fld w 63 59
    (bitAt w 56 = false →
      t.es n = ((s.es n).land s.now).writeRegion (fld w 58 57) (fld w 55 39) (p.payload.drop 1) ∧ ∀ m, m ≠ n → t.es m = s.es m) ∧
    (bitAt w 56 = true → t.est = s.est ∧ Posted p (s.host.accept + 1) 0 (some ((List.range (fld w 38 25)).map fun i =>
      ((s.es n).land s.now).regionWord (fld w 58 57) (fld w 55 39 + i * (estRegion (fld w 58 57)).2))) t)) ∧
  (∀ p, Answers (.estStart p) estStartCmd p fun s t =>
    let w := wordAt p.payload 0
    let n := fld w 63 59
    (fld w 58 56 = 0 → (s.es n).badStart p = none →
      (t.es n).mode = .running ∧ (t.es n).pc = fld w 54 41 ∧ (t.es n).entry = fld w 54 41 ∧ (t.es n).limit = fld w 40 27 ∧
      (t.es n).dispatch = estDispatch p ∧ (t.es n).mem = (s.es n).mem ∧ (t.es n).prog = (s.es n).prog ∧
      (t.es n).x = Vector.replicate 16 0 ∧ (t.es n).next = s.now + 1) ∧
    (fld w 58 56 = 0 → ∀ a, (s.es n).badStart p = some a →
      (t.es n).badAddr = a ∧ (t.es n).mode = (s.es n).mode ∧ Posted p (s.host.accept + 1) 0x0403 none t) ∧
    (fld w 58 56 = 1 → (s.es n).live = true → (t.es n).stopWait = true ∧ (t.es n).mode = (s.es n).mode) ∧
    (fld w 58 56 = 2 → (t.es n).pageSealed = true) ∧
    (fld w 58 56 = 3 → t.est = s.est ∧ Posted p (s.host.accept + 1) 0 (some ((s.es n).reply n)) t) ∧
    (fld w 58 56 = 4 → (t.es n).handled = 0 ∧ (t.es n).drops = 0 ∧ (t.es n).unposted = 0 ∧ (t.es n).doubles = 0 ∧
      (t.es n).mode = (s.es n).mode) ∧
    ∀ m, m ≠ n → t.es m = s.es m)

/-- R174 to R177, R179 and Tables 7.2 to 7.4: an instruction that computes a vector or a scalar puts its result in flight, visible after
its latency: 4 cycles for the floating-point classes, 1 for the moves.
Complete: estNop, vfma, vfms, vmul, vadd, vsub, vmin, vmax, vminx, vmaxx, vsum, vbc, movx, vmov, xop, xopi, liq, aadd, amov. -/
def Obligations.EstimatorComputes : Prop :=
  (∀ n, Completes (.estNop n) (fun s => s.estIssues n.val .nop) (EstDid n.val id)) ∧
  (∀ n vd va vb vc, Completes (.vfma n) (fun s => s.estIssues n.val (.vfma vd va vb vc)) fun s t =>
    EstDid n.val (fun e => e.result (s.estCycle n.val + 4) (.v vd (lanes3 fFma (e.vr va) (e.vr vb) (e.vr vc)))) s t) ∧
  (∀ n vd va vb vc, Completes (.vfms n) (fun s => s.estIssues n.val (.vfms vd va vb vc)) fun s t =>
    EstDid n.val (fun e => e.result (s.estCycle n.val + 4) (.v vd (lanes3 fFms (e.vr va) (e.vr vb) (e.vr vc)))) s t) ∧
  (∀ n vd va vb, Completes (.vmul n) (fun s => s.estIssues n.val (.vmul vd va vb)) fun s t =>
    EstDid n.val (fun e => e.result (s.estCycle n.val + 4) (.v vd (lanes2 fMul (e.vr va) (e.vr vb)))) s t) ∧
  (∀ n vd va vb, Completes (.vadd n) (fun s => s.estIssues n.val (.vadd vd va vb)) fun s t =>
    EstDid n.val (fun e => e.result (s.estCycle n.val + 4) (.v vd (lanes2 fAdd (e.vr va) (e.vr vb)))) s t) ∧
  (∀ n vd va vb, Completes (.vsub n) (fun s => s.estIssues n.val (.vsub vd va vb)) fun s t =>
    EstDid n.val (fun e => e.result (s.estCycle n.val + 4) (.v vd (lanes2 fSub (e.vr va) (e.vr vb)))) s t) ∧
  (∀ n vd va vb, Completes (.vmin n) (fun s => s.estIssues n.val (.vmin vd va vb)) fun s t =>
    EstDid n.val (fun e => e.result (s.estCycle n.val + 4) (.v vd (lanes2 fMin (e.vr va) (e.vr vb)))) s t) ∧
  (∀ n vd va vb, Completes (.vmax n) (fun s => s.estIssues n.val (.vmax vd va vb)) fun s t =>
    EstDid n.val (fun e => e.result (s.estCycle n.val + 4) (.v vd (lanes2 fMax (e.vr va) (e.vr vb)))) s t) ∧
  (∀ n xd va xm, Completes (.vminx n) (fun s => s.estIssues n.val (.vminx xd va xm)) fun s t =>
    EstDid n.val (fun e => e.result (s.estCycle n.val + 4) (.x xd (redWord (redPick fLt (redLanes (e.vr va) (e.xr xm)))))) s t) ∧
  (∀ n xd va xm, Completes (.vmaxx n) (fun s => s.estIssues n.val (.vmaxx xd va xm)) fun s t =>
    EstDid n.val (fun e => e.result (s.estCycle n.val + 4)
      (.x xd (redWord (redPick (fun a b => fLt b a) (redLanes (e.vr va) (e.xr xm)))))) s t) ∧
  (∀ n xd va xm, Completes (.vsum n) (fun s => s.estIssues n.val (.vsum xd va xm)) fun s t =>
    EstDid n.val (fun e => e.result (s.estCycle n.val + 4) (.x xd (vsumWord (e.vr va) (e.xr xm)))) s t) ∧
  (∀ n vd xs half, Completes (.vbc n) (fun s => s.estIssues n.val (.vbc vd xs half)) fun s t =>
    EstDid n.val (fun e => e.result (s.estCycle n.val + 1)
      (.v vd (Vector.replicate 16 (if half then hi32 (e.xr xs) else lo32 (e.xr xs))))) s t) ∧
  (∀ n xd va lane, Completes (.movx n) (fun s => s.estIssues n.val (.movx xd va lane)) fun s t =>
    EstDid n.val (fun e => e.result (s.estCycle n.val + 1) (.x xd ((atN (e.vr va) lane 0).setWidth 64))) s t) ∧
  (∀ n vd va, Completes (.vmov n) (fun s => s.estIssues n.val (.vmov vd va)) fun s t =>
    EstDid n.val (fun e => e.result (s.estCycle n.val + 1) (.v vd (e.vr va))) s t) ∧
  (∀ n xd xa xb fn, Completes (.xop n) (fun s => s.estIssues n.val (.xop xd xa xb fn)) fun s t =>
    EstDid n.val (fun e => e.result (s.estCycle n.val + 1) (.x xd (scalarFn fn (e.xr xa) (e.xr xb)))) s t) ∧
  (∀ n xd xa fn imm, Completes (.xopi n) (fun s => s.estIssues n.val (.xopi xd xa fn imm)) fun s t =>
    EstDid n.val (fun e => e.result (s.estCycle n.val + 1) (.x xd (scalarFn fn (e.xr xa) imm))) s t) ∧
  (∀ n xd pos imm, Completes (.liq n) (fun s => s.estIssues n.val (.liq xd pos imm)) fun s t =>
    EstDid n.val (fun e => e.result (s.estCycle n.val + 1) (.x xd (setQuarter (e.xr xd) pos imm))) s t) ∧
  (∀ n ad as_ imm, Completes (.aadd n) (fun s => s.estIssues n.val (.aadd ad as_ imm))
    (EstDid n.val fun e => e.setA ad (e.ar as_ + BitVec.ofInt 17 (imm * 4)))) ∧
  (∀ n ad xs, Completes (.amov n) (fun s => s.estIssues n.val (.amov ad xs))
    (EstDid n.val fun e => e.setA ad ((e.xr xs).setWidth 17)))

/-- R173, R178, R179 and Table 7.3: a load or a store whose address is legal puts its result in flight, and AM = 1 writes the address back;
an address that is out of range, unaligned, in the hole or, for a store, in the page is a fault with code 1.
Complete: vld, vst, xld, xst, vldb. -/
def Obligations.EstimatorMemory : Prop :=
  (∀ n r m, Completes (.vld n)
    (fun s => s.estIssues n.val (.vld r m) ∧ accessOk ((s.estAt n.val).addr m) 64 false = true) fun s t =>
    EstDid n.val (fun e => (e.result (s.estCycle n.val + 3) (.v r (lanesOf (e.loadLine (e.addr m).toNat)))).amWrite m (e.addr m).toNat) s t) ∧
  (∀ n r m, Completes (.vst n)
    (fun s => s.estIssues n.val (.vst r m) ∧ accessOk ((s.estAt n.val).addr m) 64 true = true) fun s t =>
    EstDid n.val (fun e => (e.result (s.estCycle n.val + 2) (.mem (e.addr m).toNat (lanesWords (e.vr r)))).amWrite m (e.addr m).toNat) s t) ∧
  (∀ n r m, Completes (.xld n)
    (fun s => s.estIssues n.val (.xld r m) ∧ accessOk ((s.estAt n.val).addr m) 8 false = true) fun s t =>
    EstDid n.val (fun e => (e.result (s.estCycle n.val + 3) (.x r (e.load (e.addr m).toNat))).amWrite m (e.addr m).toNat) s t) ∧
  (∀ n r m, Completes (.xst n)
    (fun s => s.estIssues n.val (.xst r m) ∧ accessOk ((s.estAt n.val).addr m) 8 true = true) fun s t =>
    EstDid n.val (fun e => (e.result (s.estCycle n.val + 2) (.mem (e.addr m).toNat [e.xr r])).amWrite m (e.addr m).toNat) s t) ∧
  (∀ n r m, Completes (.vldb n)
    (fun s => s.estIssues n.val (.vldb r m) ∧ accessOk ((s.estAt n.val).addr m) 4 false = true) fun s t =>
    EstDid n.val (fun e => (e.result (s.estCycle n.val + 3)
      (.v r (Vector.replicate 16 (e.load4 (e.addr m).toNat)))).amWrite m (e.addr m).toNat) s t) ∧
  (∀ n r m, Completes (.vld n) (fun s => (s.es n.val).ready = some (.vld r m) ∧ AccessFaults (s.estAt n.val) m 64 false)
    (EstAccessFaulted n.val)) ∧
  (∀ n r m, Completes (.vst n) (fun s => (s.es n.val).ready = some (.vst r m) ∧ AccessFaults (s.estAt n.val) m 64 true)
    (EstAccessFaulted n.val)) ∧
  (∀ n r m, Completes (.xld n) (fun s => (s.es n.val).ready = some (.xld r m) ∧ AccessFaults (s.estAt n.val) m 8 false)
    (EstAccessFaulted n.val)) ∧
  (∀ n r m, Completes (.xst n) (fun s => (s.es n.val).ready = some (.xst r m) ∧ AccessFaults (s.estAt n.val) m 8 true)
    (EstAccessFaulted n.val)) ∧
  (∀ n r m, Completes (.vldb n) (fun s => (s.es n.val).ready = some (.vldb r m) ∧ AccessFaults (s.estAt n.val) m 4 false)
    (EstAccessFaulted n.val))

/-- R180, R183 to R186, R188, R191: branches with their two delay slots, repeats, POST, DONE, IDLE and HALT; an instruction behind which
nothing lies in the live range is a fault with code 5.
Complete: estBr, brx, estDone, repeatN, repeatx, post, idle, halt, estNop. -/
def Obligations.EstimatorFlow : Prop :=
  (∀ n xc cond tgt, Completes (.estBr n)
    (fun s => (s.es n.val).ready = some (.br xc cond tgt) ∧ (s.es n.val).inRange (((s.es n.val).pc + 1) % 2 ^ 14) = true) fun s t =>
    EstBranched n.val (some (if estCond cond ((s.estAt n.val).xr xc) then tgt else ((s.es n.val).pc + 3) % 2 ^ 14)) s t) ∧
  (∀ n xt, Completes (.brx n)
    (fun s => (s.es n.val).ready = some (.brx xt) ∧ (s.es n.val).inRange (((s.es n.val).pc + 1) % 2 ^ 14) = true) fun s t =>
    EstBranched n.val (some (fld ((s.estAt n.val).xr xt) 13 0)) s t) ∧
  (∀ n, Completes (.estDone n)
    (fun s => (s.es n.val).ready = some .done_ ∧ (s.es n.val).inRange (((s.es n.val).pc + 1) % 2 ^ 14) = true)
    (EstBranched n.val none)) ∧
  (∀ n len count, Completes (.repeatN n)
    (fun s => (s.es n.val).ready = some (.repeat_ len count) ∧ count ≠ 0 ∧ (s.es n.val).branch = none ∧
      (s.es n.val).inRange (((s.es n.val).pc + 1) % 2 ^ 14) = true) fun s t =>
    (t.es n.val).pc = ((s.es n.val).pc + 1) % 2 ^ 14 ∧ (t.es n.val).x = (s.estAt n.val).x ∧
      (t.es n.val).reps = { start := ((s.es n.val).pc + 1) % 2 ^ 14, stop := ((s.es n.val).pc + len) % 2 ^ 14, left := count }
        :: (s.es n.val).reps) ∧
  (∀ n len, Completes (.repeatN n)
    (fun s => (s.es n.val).ready = some (.repeat_ len 0) ∧ (s.es n.val).branch = none ∧
      (s.es n.val).inRange (estNext (((s.es n.val).pc + len) % 2 ^ 14) (s.es n.val).reps).1 = true) fun s t =>
    (t.es n.val).pc = (estNext (((s.es n.val).pc + len) % 2 ^ 14) (s.es n.val).reps).1 ∧
      (t.es n.val).reps = (estNext (((s.es n.val).pc + len) % 2 ^ 14) (s.es n.val).reps).2) ∧
  (∀ n len xc, Completes (.repeatx n)
    (fun s => (s.es n.val).ready = some (.repeatx len xc) ∧ fld ((s.estAt n.val).xr xc) 15 0 ≠ 0 ∧ (s.es n.val).branch = none ∧
      (s.es n.val).inRange (((s.es n.val).pc + 1) % 2 ^ 14) = true) fun s t =>
    (t.es n.val).pc = ((s.es n.val).pc + 1) % 2 ^ 14 ∧
      (t.es n.val).reps = { start := ((s.es n.val).pc + 1) % 2 ^ 14, stop := ((s.es n.val).pc + len) % 2 ^ 14
                            left := fld ((s.estAt n.val).xr xc) 15 0 } :: (s.es n.val).reps) ∧
  (∀ n xs h, Completes (.post n)
    (fun s => s.estIssues n.val (.post xs) ∧ (s.es n.val).branch = none ∧ (s.es n.val).handler = some h ∧ h.posted = false) fun s t =>
    (t.es n.val).handler = some { h with posted := true } ∧ (t.es n.val).pc = (s.es n.val).flowsTo ∧
      ∃ packet, vState packet = fld ((s.estAt n.val).xr xs) 1 0 ∧ vAbsent packet = false ∧
        t.fabric.flight = s.fabric.flight ++ [⟨packet, s.estCycle n.val + 2, .cluster⟩, ⟨packet, s.estCycle n.val + 2 + 12, .die⟩,
          ⟨packet, s.estCycle n.val + 2 + 24, .device⟩]) ∧
  (∀ n xs h, Completes (.post n)
    (fun s => s.estIssues n.val (.post xs) ∧ (s.es n.val).branch = none ∧ (s.es n.val).handler = some h ∧ h.posted = true) fun s t =>
    (t.es n.val).doubles = satAdd 16 (s.es n.val).doubles 1 ∧ t.fabric = s.fabric ∧ (t.es n.val).pc = (s.es n.val).flowsTo) ∧
  (∀ n, Completes (.idle n) (fun s => (s.es n.val).ready = some .idle) fun s t =>
    (t.es n.val).pc = (s.es n.val).pc ∧ (t.es n.val).next = s.estCycle n.val + 1 ∧ (t.es n.val).x = (s.estAt n.val).x) ∧
  (∀ n, Completes (.halt n) (fun s => (s.es n.val).ready = some .halt) fun s t =>
    t.now = max s.now (s.estCycle n.val) ∧ (t.es n.val).mode = .stopped ∧ (t.es n.val).queue = [] ∧ (t.es n.val).handler = none ∧
      (t.es n.val).mem = (s.estAt n.val).mem ∧ (t.es n.val).drops = satAdd 16 (s.es n.val).drops (s.es n.val).queue.length ∧
      ((s.es n.val).queue ≠ [] → bitAt t.trouble[(clusterWord (lineCluster n.val)).val] 5 = true)) ∧
  (∀ n, Completes (.estNop n)
    (fun s => (s.es n.val).ready = some .nop ∧ (s.es n.val).branch = none ∧ (s.es n.val).inRange (s.es n.val).flowsTo = false) fun s t =>
    (t.es n.val).mode = .faulted ∧ (t.es n.val).fault = 5 ∧ (t.es n.val).faultPc = (s.es n.val).flowsTo)

/-- R181 to R183, R189 to R193: requests, dispatch, stops, errors, restarts, page swaps and the debug port.
Complete: estimatorRequest, estimatorDispatch, estimatorStop, estimatorProgramMemoryError, estimatorAutorestart, pageSwap,
pageCopyEnd, debugEstimatorHalt, debugEstimatorStep. -/
def Obligations.EstimatorEventsComplete : Prop :=
  (∀ n r l, Completes (.estimatorRequest n)
    (fun s => (s.es n.val).arriving = r :: l ∧ (s.es n.val).mode = .running ∧ (s.es n.val).queue.length < 32 ∧
      (atN (s.es n.val).dispatch (demodSlotNo r.val.slot) none).isSome = true ∧ s.now ≤ r.readable - 1)
    fun s t => t.now = r.readable - 1 ∧ (t.es n.val).arriving = l ∧ (t.es n.val).queue = (s.es n.val).queue ++ [r] ∧
      (t.es n.val).drops = (s.es n.val).drops) ∧
  (∀ n r l, Completes (.estimatorRequest n)
    (fun s => (s.es n.val).arriving = r :: l ∧ (s.es n.val).mode = .stopped)
    fun s t => (t.es n.val).arriving = l ∧ (t.es n.val).queue = (s.es n.val).queue ∧
      (t.es n.val).drops = satAdd 16 (s.es n.val).drops 1 ∧ bitAt t.trouble[(clusterWord (lineCluster n.val)).val] 5 = true) ∧
  (∀ n r l a i, Completes (.estimatorDispatch n)
    (fun s => (s.es n.val).queue = r :: l ∧ (s.es n.val).mode = .running ∧ (s.es n.val).handover = false ∧
      (s.es n.val).boundary = true ∧ (s.es n.val).stopWait = false ∧ (s.es n.val).pageSealed = false ∧ (s.es n.val).haltWait = false ∧
      (s.es n.val).due = some i ∧ i ≠ .idle ∧ r.readable ≤ (s.es n.val).next ∧
      atN (s.es n.val).dispatch (demodSlotNo r.val.slot) none = some a)
    fun s t => (t.es n.val).pc = a ∧ (t.es n.val).resume = (s.es n.val).pc ∧ (t.es n.val).queue = l ∧
      (t.es n.val).next = (s.es n.val).next + 4 ∧ (t.es n.val).handled = (s.es n.val).handled + 1 ∧
      (t.es n.val).xr 15 = pairWord r.val.yi r.val.yq ∧ ∃ h, (t.es n.val).handler = some h ∧ h.req = r ∧ h.posted = false ∧
        h.ovrinv = (s.dm r.val.slot).active.ovrinv) ∧
  (∀ n, Completes (.estimatorStop n)
    (fun s => (s.es n.val).stopWait = true ∧ (s.es n.val).boundary = true ∧ (s.es n.val).handover = false ∧ (s.es n.val).mode = .running)
    fun _ t => (t.es n.val).mode = .stopped ∧ (t.es n.val).queue = [] ∧ (t.es n.val).stopWait = false) ∧
  (∀ n, Completes (.estimatorProgramMemoryError n .corrected) (fun _ => True)
    fun s t => (t.es n.val).corrected = (s.es n.val).corrected + 1 ∧ (t.es n.val).mode = (s.es n.val).mode) ∧
  (∀ n addr, Completes (.estimatorProgramMemoryError n (.program addr)) (fun s => (s.es n.val).live = true)
    fun s t => EstFaulted n.val 2 s t ∧ t.units.repairs = s.units.repairs ++ [.estProgram n.val addr.val] ∧
      bitAt t.trouble[(clusterWord (lineCluster n.val)).val] 4 = true) ∧
  (∀ n, Completes (.estimatorProgramMemoryError n .datapath) (fun s => (s.es n.val).live = true) (EstFaulted n.val 3)) ∧
  (∀ n, Completes (.estimatorAutorestart n)
    (fun s => (s.es n.val).mode = .faulted ∧ (s.es n.val).autorestart = true ∧ (s.es n.val).fault = 2 ∧ s.units.token.isSome = true)
    fun s t => (t.es n.val).mode = .running ∧ (t.es n.val).pc = (s.es n.val).entry ∧ (t.es n.val).mem = (s.es n.val).mem ∧
      (t.es n.val).x = Vector.replicate 16 0 ∧ (t.es n.val).next = s.now + 1) ∧
  (∀ n, Completes (.pageSwap n) (fun s => (s.es n.val).pageSealed = true ∧ (s.es n.val).mode = .stopped)
    fun s t => (t.es n.val).useBank1 = !(s.es n.val).useBank1 ∧ (t.es n.val).pageSealed = false ∧ (t.es n.val).copyAt = some s.now ∧
      (t.es n.val).page = (s.es n.val).shadowPage) ∧
  (∀ n c, Completes (.pageCopyEnd n) (fun s => (s.es n.val).copyAt = some c ∧ s.now ≤ c + 2048)
    fun s t => t.now = c + 2048 ∧ (t.es n.val).copyAt = none ∧ (t.es n.val).page = (s.es n.val).page ∧
      (t.es n.val).shadowPage = (s.es n.val).page) ∧
  (∀ n, Completes (.debugEstimatorHalt n)
    (fun s => s.debugLevel 2 = true ∧ (s.es n.val).mode = .running ∧ (s.es n.val).free = true ∧
      ((s.es n.val).ended = false ∨ ((s.es n.val).next ≤ s.now ∧ (s.es n.val).handover = false)))
    fun s t => (t.es n.val).mode = .debugHalted ∧ (t.es n.val).pc = (s.es n.val).pc) ∧
  (∀ n, Completes (.debugEstimatorHalt n)
    (fun s => s.debugLevel 2 = true ∧ (s.es n.val).mode = .running ∧
      ((s.es n.val).free = false ∨ ((s.es n.val).ended = true ∧ s.now < (s.es n.val).next)))
    fun _ t => (t.es n.val).mode = .running ∧ (t.es n.val).haltWait = true) ∧
  (∀ n, Completes (.estimatorDispatch n)
    (fun s => (s.es n.val).mode = .running ∧ (s.es n.val).haltWait = true ∧ (s.es n.val).free = true ∧ (s.es n.val).handover = false)
    fun s t => (t.es n.val).mode = .debugHalted ∧ (t.es n.val).pc = (s.es n.val).pc ∧ (t.es n.val).queue = (s.es n.val).queue) ∧
  (∀ n i, Completes (.debugEstimatorStep n)
    (fun s => s.debugLevel 2 = true ∧ (s.es n.val).mode = .debugHalted ∧ (s.es n.val).due = some i)
    fun s t => t = s.doEst n.val i)

/-- What the commands and events of the readout chain and of the estimators leave alone. An estimator reaches its own registers and
memory, the clock and, by a fault, the trouble words; a POST reaches the fabric and the captures. -/
def Obligations.ReadoutFrame : Prop :=
  (∀ p, Frame (.readoutConfig p) (withReport [.readout])) ∧
  (∀ p, Frame (.kernelLoad p) (withReport [.readout, .wave])) ∧ (∀ p, Frame (.discrimConfig p) (withReport [.readout])) ∧
  (∀ l, Frame (.lineSettleEnd l) (withReport [.readout])) ∧
  (∀ k z n, Frame (.windowClose k z n) (withReport [.time, .readout])) ∧
  (∀ k z n, Frame (.windowClosedNoResult k z n) (withReport [.time, .readout, .acq])) ∧
  (∀ k d, Frame (.absentVerdictFormation k d) (withReport [.time, .readout, .fabric, .acq])) ∧
  (∀ l, Frame (.discriminatorWordArrival l) (withReport [.time, .readout, .fabric, .acq])) ∧
  (∀ l, Frame (.valueArrival l) (withReport [.time, .readout, .est, .acq])) ∧
  (∀ l, Frame (.adcCoreFault l) (withReport [.readout, .acq, .synth, .bias, .cal])) ∧
  (∀ l, Frame (.adcFaultSwapEnd l) (withReport [.time, .readout])) ∧ (∀ l, Frame (.adcPlannedSwap l) [.readout]) ∧
  (∀ l, Frame (.adcPlannedSwapEnd l) [.time, .readout, .synth, .bias, .cal, .host]) ∧
  (∀ p, Frame (.estLoad p) (withReport [.est])) ∧ (∀ p, Frame (.estStart p) (withReport [.est])) ∧
  (∀ n, ∀ i ∈ [Instr.estNop n, .vfma n, .vfms n, .vmul n, .vadd n, .vsub n, .vmin n, .vmax n, .vminx n, .vmaxx n, .vsum n, .vbc n,
      .movx n, .vmov n, .xop n, .xopi n, .liq n, .aadd n, .amov n, .vld n, .vst n, .xld n, .xst n, .vldb n, .estBr n, .brx n,
      .repeatN n, .repeatx n, .estDone n, .halt n], Frame i (withReport [.time, .est])) ∧
  (∀ n, Frame (.idle n) [.time, .est]) ∧
  (∀ n, Frame (.post n) (withReport [.time, .est, .fabric, .acq])) ∧
  (∀ n, Frame (.estimatorRequest n) (withReport [.time, .est])) ∧ (∀ n, Frame (.estimatorDispatch n) [.time, .est]) ∧
  (∀ n, Frame (.estimatorStop n) (withReport [.time, .est])) ∧
  (∀ n e, Frame (.estimatorProgramMemoryError n e) (withReport [.time, .est, .units])) ∧
  (∀ n, Frame (.estimatorAutorestart n) (withReport [.est, .units])) ∧
  (∀ n, Frame (.pageSwap n) [.time, .est]) ∧ (∀ n, Frame (.pageCopyEnd n) [.time, .est]) ∧
  (∀ n, Frame (.debugEstimatorHalt n) [.time, .est])

/-! ## Verdict fabric (chapter 8) -/

/-- R201, R203, R215, R217, R218, R220 and Tables 8.7 to 8.12: the commands of group 0x08.
Complete: routeTable, laneTrain, collectionJoin, laneTest. -/
def Obligations.FabricCommandsComplete : Prop :=
  (∀ p, Answers (.routeTable p) routeTableCmd p fun s t => ∀ w, p.payload.drop 1 = [w] →
    (bitAt w 63 = true → atN (atN t.fabric.route (fld w 62 55) {}).shadow (fld w 54 52) {} = rtDeliv w ∧
      (atN t.fabric.route (fld w 62 55) {}).active = (atN s.fabric.route (fld w 62 55) {}).active ∧ t.fabric.send = s.fabric.send) ∧
    (bitAt w 63 = false → (atN t.fabric.send (rtSlot w) {}).shadow = BitVec.ofNat 16 (fld w 53 38) ∧
      (atN t.fabric.send (rtSlot w) {}).active = (atN s.fabric.send (rtSlot w) {}).active ∧ t.fabric.route = s.fabric.route)) ∧
  (∀ p, Answers (.laneTrain p) laneTrainCmd p fun s t =>
    let w := wordAt p.payload 0
    let n := fld w 63 60
    (fld w 59 57 = 0 → (t.lane n).st = .detect ∧ (t.lane n).attempts = 0 ∧ (t.lane n).auto = bitAt w 56 ∧
      (t.lane n).on.dfe = fld w 50 49 ∧ (t.lane n).on.thresh = fld w 48 42) ∧
    (fld w 59 57 = 1 → (t.lane n).st = .down ∧ (t.lane n).reason = 7) ∧
    (fld w 59 57 = 2 → (t.lane n).st = .idle) ∧
    (fld w 59 57 = 3 → (s.lane n).st = .idle → (t.lane n).waking = true ∧ (t.lane n).st = .idle) ∧
    (fld w 59 57 = 5 → t.fabric = s.fabric ∧ Posted p (s.host.accept + 1) 0 (some (s.lane n).reply) t) ∧
    (fld w 59 57 = 6 → (t.lane n).checkErrors = 0 ∧ (t.lane n).drops = 0 ∧ (t.lane n).retrains = 0 ∧ (t.lane n).st = (s.lane n).st ∧
      Posted p (s.host.accept + 1) 0 (some (s.lane n).reply) t)) ∧
  (∀ p, Answers (.collectionJoin p) collectionJoinCmd p fun _ t =>
    t.fabric.cid = hi32 (wordAt p.payload 0) ∧ t.fabric.member = fld (wordAt p.payload 0) 31 28 ∧
      t.fabric.members = BitVec.ofNat 16 (fld (wordAt p.payload 1) 63 48) ∧ ∀ k < 16, (t.lane k).ent = joinEntry p k) ∧
  (∀ p, Answers (.laneTest p) laneTestCmd p fun s t =>
    let w := wordAt p.payload 0
    let n := fld w 63 60
    (fld w 59 58 = 0 → (s.lane n).st = .up → (t.lane n).testAsked = true ∧ (t.lane n).st = .up) ∧
    (fld w 59 58 = 0 → (s.lane n).st = .down → (t.lane n).st = .test ∧ (t.lane n).tstate = 1 ∧
      (t.lane n).testLen = fld w 57 38 * 1000000 ∧ (t.lane n).testAt = s.now) ∧
    (fld w 59 58 = 1 → (s.lane n).st ≠ .test → t.fabric = s.fabric ∧ Posted p (s.host.accept + 1) 0 (some (s.lane n).testReply) t) ∧
    (fld w 59 58 = 2 → (s.lane n).st = .test → (s.lane n).testUp = false → (t.lane n).st = .down ∧ (t.lane n).tstate = 3))

/-- R206, R208 to R210, R215, R216, R220, R45 and Table 8.5: blocks and service words of a lane.
Complete: laneVerdictLaunch, laneVerdictReceive, checkBlockReceive, serviceIdentity, serviceMarker, serviceEcho, serviceSkew,
testreq, testack, testrefuse. -/
def Obligations.LaneWordsComplete : Prop :=
  (∀ n x l, Completes (.laneVerdictLaunch n)
    (fun s => (s.lane n.val).st = .up ∧ (s.lane n.val).relock = false ∧ (s.lane n.val).service = [] ∧ (s.lane n.val).queue = x :: l)
    fun s t => (t.lane n.val).queue = l ∧ (t.lane n.val).st = .up ∧ t.fabric.flight = s.fabric.flight ∧
      (t.lane n.val).slot = freeSlot (max (s.lane n.val).slot ((x.2 + 2) / 2)) + 1 ∧
      (t.lane n.val).sent.head? = some (freeSlot (max (s.lane n.val).slot ((x.2 + 2) / 2)), (Block.verdict x.1).payload)) ∧
  (∀ n, Completes (.laneVerdictLaunch n)
    (fun s => (s.lane n.val).st = .up ∧ (s.lane n.val).service = [] ∧ (s.lane n.val).queue = [] ∧
      (s.cnt s.now + 1) / 2 ≤ (s.lane n.val).slot)
    fun s t => (t.lane n.val).slot = (s.lane n.val).slot + 1 ∧ (t.lane n.val).sent.head? = some ((s.lane n.val).slot,
      (if (s.lane n.val).slot % 16 = 15 then (s.lane n.val).checkBlock ((s.lane n.val).slot / 16) else Block.idle).payload)) ∧
  (∀ n x l, Completes (.laneVerdictLaunch n)
    (fun s => (s.lane n.val).st = .up ∧ (s.lane n.val).queue = [] ∧ (s.lane n.val).service = x :: l)
    fun _ t => (t.lane n.val).service = l ∧ (t.lane n.val).queue = []) ∧
  (∀ n packet launch, Completes (.laneVerdictReceive n packet launch)
    (fun s => (s.lane n.val).st = .up ∧ vSrc packet < 16 ∧ vSrc packet ≠ s.fabric.member ∧
      s.fabric.members.toNat.testBit (vSrc packet) = true ∧ s.now ≤ s.dev (launch.toNat + (s.lane n.val).ll))
    fun s t => t.now = s.dev (launch.toNat + (s.lane n.val).ll) ∧
      t.fabric.flight = s.fabric.flight ++ [⟨packet, t.now + 2, .lane n⟩] ∧
      (t.lane n.val).frame = (s.lane n.val).frame ++ [packet] ∧ (t.lane n.val).misdelivered = (s.lane n.val).misdelivered) ∧
  (∀ n packet launch, Completes (.laneVerdictReceive n packet launch)
    (fun s => (s.lane n.val).st = .up ∧ vSrc packet = s.fabric.member)
    fun s t => t.fabric.flight = s.fabric.flight ∧ (t.lane n.val).misdelivered = satAdd 32 (s.lane n.val).misdelivered 1) ∧
  (∀ n l, Completes (.checkBlockReceive n l none) (fun s => (s.lane n.val).st = .up)
    fun s t => (t.lane n.val).checkErrors = satAdd 32 (s.lane n.val).checkErrors 1 ∧
      (t.lane n.val).badChecks = (s.lane n.val).badChecks + 1 ∧ (t.lane n.val).frame = [] ∧ (t.lane n.val).st = .up ∧
      bitAt t.trouble[3] (32 + n.val) = true) ∧
  (∀ n l x, Completes (.checkBlockReceive n l (some x))
    (fun s => (s.lane n.val).st = .up ∧ (s.lane n.val).waking = false ∧ (s.lane n.val).offset = none ∧ x.setWidth 32 = crcWords l)
    fun s t => (t.lane n.val).badChecks = 0 ∧ (t.lane n.val).badStamps = 0 ∧ (t.lane n.val).checkErrors = (s.lane n.val).checkErrors ∧
      t.seqs = s.seqs ∧ t.conc = s.conc) ∧
  (∀ n cid m k, Completes (.serviceIdentity n cid m k) (fun s => (s.lane n.val).st = .identify)
    fun s t => (t.lane n.val).peer = m.val ∧ (t.lane n.val).peerLane = k.val ∧
      ((t.lane n.val).identOk = true ↔ cid = s.fabric.cid ∧ (s.lane n.val).ent.used = true ∧ (s.lane n.val).ent.peer = m.val)) ∧
  (∀ n stamp k, Completes (.serviceMarker n stamp k) (fun s => (s.lane n.val).locking = true)
    fun s t => (t.lane n.val).service = (s.lane n.val).service ++ [(put 63 60 3 ||| put 59 24 stamp.toNat, s.cnt s.now)]) ∧
  (∀ n stamp turn, Completes (.serviceEcho n stamp turn) (fun s => (s.lane n.val).locking = true)
    fun s t => (t.lane n.val).pairs = (s.lane n.val).pairs + 1 ∧
      (t.lane n.val).nlat = ((s.cnt s.now % 2 ^ 36 + 2 ^ 36 - stamp.toNat) % 2 ^ 36 - turn.toNat + 1) / 2) ∧
  (∀ n stamp peer t2 phase t1 o, Completes (.serviceSkew n stamp peer t2 phase)
    (fun s => (s.lane n.val).st = .up ∧ (s.lane n.val).relock = false ∧ (s.lane n.val).skewAt = some t1 ∧ s.skewOver n.val = some o)
    fun s t => (t.lane n.val).skewAt = none ∧ ∃ o' ∈ t.host.open_, o'.packet = o.packet ∧
      o'.data = o.data ++ [BitVec.ofInt 64 (skewOffset t1 t2.toNat stamp peer.val (s.cnt s.now) phase.val)]) ∧
  (∀ n stamp peer t2 phase, Completes (.serviceSkew n stamp peer t2 phase)
    (fun s => (s.lane n.val).st = .up ∧ (s.lane n.val).relock = false ∧ (s.lane n.val).skewAt = none)
    fun s t => (t.lane n.val).service = ((s.lane n.val).askSkew (s.cnt s.now)).service ∧ t.host = s.host) ∧
  (∀ n ms, Completes (.testreq n ms) (fun s => (s.lane n.val).st = .up ∧ s.carries n.val = false)
    fun s t => (t.lane n.val).st = .test ∧ (t.lane n.val).testLen = ms.toNat * 1000000 ∧
      (t.lane n.val).service = (s.lane n.val).service ++ [(put 63 60 6, s.cnt s.now)]) ∧
  (∀ n ms, Completes (.testreq n ms) (fun s => (s.lane n.val).st = .up ∧ s.carries n.val = true)
    fun s t => (t.lane n.val).st = .up ∧ (t.lane n.val).service = (s.lane n.val).service ++ [(put 63 60 7, s.cnt s.now)]) ∧
  (∀ n, Completes (.testack n) (fun s => (s.lane n.val).testAsked = true)
    fun s t => (t.lane n.val).st = .test ∧ (t.lane n.val).testAsked = false ∧ (t.lane n.val).testAt = s.now) ∧
  (∀ n, Completes (.testrefuse n) (fun s => (s.lane n.val).testAsked = true)
    fun s t => (t.lane n.val).tstate = 3 ∧ (t.lane n.val).testAsked = false ∧ (t.lane n.val).st = (s.lane n.val).st)

/-- R212 to R217, R220 and Table 8.6: a lane trains, fails, is measured, wakes and is tested.
Complete: laneFailure, laneDetectDone, laneEqualizeDone, laneBlockLock, laneIdentifyDone, laneLockDone, laneAttemptTimeout,
laneAutoRetrain, laneMarginMeasure, laneRelock, laneWakeEnd, patternLockLoss, laneTestEnd. -/
def Obligations.LaneStatesComplete : Prop :=
  (∀ n cause, Completes (.laneFailure n cause)
    (fun s => (s.lane n.val).st = .up ∧ (s.lane n.val).fails cause = true ∧ (s.lane n.val).auto = false)
    fun _ t => (t.lane n.val).st = .down ∧ (t.lane n.val).reason = 6 ∧ bitAt t.trouble[3] n.val = true) ∧
  (∀ n, Completes (.laneDetectDone n) (fun s => (s.lane n.val).st = .detect)
    fun s t => (t.lane n.val).st = .equalize ∧ (t.lane n.val).since = s.now) ∧
  (∀ n pk m, Completes (.laneEqualizeDone n pk m) (fun s => (s.lane n.val).st = .equalize ∧ 15 ≤ m.toNat)
    fun _ t => (t.lane n.val).st = .block ∧ (t.lane n.val).margin = m.toNat) ∧
  (∀ n pk m, Completes (.laneEqualizeDone n pk m) (fun _ => m.toNat < 15) fun s t => t = s) ∧
  (∀ n, Completes (.laneBlockLock n) (fun s => (s.lane n.val).st = .block)
    fun _ t => (t.lane n.val).st = .identify ∧ (t.lane n.val).identOk = false) ∧
  (∀ n, Completes (.laneIdentifyDone n) (fun s => (s.lane n.val).st = .identify ∧ (s.lane n.val).identOk = true)
    fun _ t => (t.lane n.val).st = .lock ∧ (t.lane n.val).pairs = 0) ∧
  (∀ n, Completes (.laneLockDone n)
    (fun s => (s.lane n.val).st = .lock ∧ 8 ≤ (s.lane n.val).pairs ∧ holdOk (s.targetLl n.val) (s.lane n.val).nlat = true)
    fun s t => (t.lane n.val).st = .up ∧ (t.lane n.val).ll = s.targetLl n.val ∧ (t.lane n.val).badChecks = 0) ∧
  (∀ n, Completes (.laneLockDone n)
    (fun s => (s.lane n.val).st = .lock ∧ 8 ≤ (s.lane n.val).pairs ∧ holdOk (s.targetLl n.val) (s.lane n.val).nlat = false ∧
      (s.lane n.val).attempts = 2)
    fun _ t => (t.lane n.val).st = .down ∧ (t.lane n.val).reason = 5) ∧
  (∀ n k c, Completes (.laneAttemptTimeout n)
    (fun s => (s.lane n.val).st.limit = some (k, c) ∧ (s.lane n.val).attempts < 2 ∧
      s.now ≤ min ((s.lane n.val).since + k) ((s.lane n.val).attemptAt + 10000000))
    fun s t => t.now = min ((s.lane n.val).since + k) ((s.lane n.val).attemptAt + 10000000) ∧ (t.lane n.val).st = .detect ∧
      (t.lane n.val).attempts = (s.lane n.val).attempts + 1 ∧ (t.lane n.val).reason = c) ∧
  (∀ n k c, Completes (.laneAttemptTimeout n)
    (fun s => (s.lane n.val).st.limit = some (k, c) ∧ 2 ≤ (s.lane n.val).attempts)
    fun _ t => (t.lane n.val).st = .down ∧ (t.lane n.val).reason = c) ∧
  (∀ n, Completes (.laneAutoRetrain n)
    (fun s => (s.lane n.val).st = .down ∧ (s.lane n.val).auto = true ∧ (s.lane n.val).ent.used = true ∧ (s.lane n.val).reason = 6 ∧
      s.now ≤ (s.lane n.val).since + 1000000000)
    fun s t => t.now = (s.lane n.val).since + 1000000000 ∧ (t.lane n.val).st = .detect ∧ (t.lane n.val).attempts = 0) ∧
  (∀ n m, Completes (.laneMarginMeasure n m)
    (fun s => (s.lane n.val).st = .up ∧ s.now ≤ (s.lane n.val).marginAt + 1000000)
    fun s t => t.now = (s.lane n.val).marginAt + 1000000 ∧ (t.lane n.val).margin = m.toNat ∧ (t.lane n.val).st = .up ∧
      (m.toNat < 10 → bitAt t.trouble[3] (16 + n.val) = true)) ∧
  (∀ n, Completes (.laneRelock n)
    (fun s => (s.lane n.val).st = .up ∧ (s.lane n.val).relock = true ∧ 8 ≤ (s.lane n.val).pairs ∧
      holdOk (s.lane n.val).ll (s.lane n.val).nlat = true)
    fun s t => (t.lane n.val).st = .up ∧ (t.lane n.val).relock = false ∧ (t.lane n.val).ll = (s.lane n.val).ll) ∧
  (∀ n, Completes (.laneWakeEnd n)
    (fun s => (s.lane n.val).st = .idle ∧ (s.lane n.val).waking = true ∧ 2 ≤ (s.lane n.val).wakeChecks)
    fun s t => (t.lane n.val).st = .up ∧ (t.lane n.val).waking = false ∧ (t.lane n.val).ll = (s.lane n.val).ll) ∧
  (∀ n, Completes (.patternLockLoss n true) (fun s => (s.lane n.val).st = .test)
    fun s t => (t.lane n.val).tsync = satAdd 32 (s.lane n.val).tsync 1 ∧ (t.lane n.val).st = .test) ∧
  (∀ n bits e, Completes (.laneTestEnd n bits e)
    (fun s => (s.lane n.val).st = .test ∧ (s.lane n.val).testUp = false ∧ s.now ≤ (s.lane n.val).testAt + (s.lane n.val).testLen)
    fun s t => t.now = (s.lane n.val).testAt + (s.lane n.val).testLen ∧ (t.lane n.val).st = .down ∧ (t.lane n.val).tstate = 2 ∧
      (t.lane n.val).tbits = bits ∧ (t.lane n.val).terrors = e.toNat)

/-! ## Concordance (chapter 9) -/

/-- R223, R224, R234, R235, R238, R242 and Tables 9.5 to 9.8: the commands of group 0x09.
Complete: concMap, concWrite, concCommit. -/
def Obligations.ConcordanceCommandsComplete : Prop :=
  (∀ p, Answers (.concMap p) concMapCmd p fun s t =>
    let w0 := wordAt p.payload 0
    (fld w0 63 62 = 0 → bitAt w0 57 = false →
      (t.vw (viewFields p).1).defined = true ∧ (t.vw (viewFields p).1).w = (viewFields p).2.1 ∧
      (t.vw (viewFields p).1).base = (viewFields p).2.2.1 ∧ (t.vw (viewFields p).1).age = (viewFields p).2.2.2 ∧
      (t.vw (viewFields p).1).bank1 = (s.vw (viewFields p).1).bank1 ∧
      (t.vw (viewFields p).1).gather = (List.range (viewFields p).2.1).map fun i => gatherRead (gatherField p i)) ∧
    (fld w0 63 62 = 0 → bitAt w0 57 = true → t.vw (viewFields p).1 = {}) ∧
    (fld w0 63 62 = 0 → ∀ v, v ≠ (viewFields p).1 → t.vw v = s.vw v) ∧
    (fld w0 63 62 = 1 → fld w0 61 53 = 1 →
      let r := mrWord p 0 0
      (t.mem (fld r 63 56)).shadow.view = (if bitAt r 55 then some (Fin.ofNat 16 (fld r 54 51)) else none) ∧
      (t.mem (fld r 63 56)).shadow.terms = Vector.ofFn (fun j => mrWord p 0 (1 + j.val)) ∧
      (t.mem (fld r 63 56)).active = (s.mem (fld r 63 56)).active) ∧
    (fld w0 63 62 = 2 → t.conc = s.conc ∧ Posted p (s.host.accept + 1) 0 (some (s.viewWords (fld w0 61 58))) t)) ∧
  (∀ p, Answers (.concWrite p) concWriteCmd p fun s t =>
    let w := wordAt p.payload 0
    let x := s.vw (fld w 61 58)
    (fld w 63 62 = 0 → x.bank1 = false →
      t.conc.cb1 = Sparse.setList 0 s.conc.cb1 (x.base + fld w 57 37) (p.payload.drop 1) ∧ t.conc.cb0 = s.conc.cb0) ∧
    (fld w 63 62 = 0 → x.bank1 = true →
      t.conc.cb0 = Sparse.setList 0 s.conc.cb0 (x.base + fld w 57 37) (p.payload.drop 1) ∧ t.conc.cb1 = s.conc.cb1) ∧
    (fld w 63 62 = 1 → x.bank1 = false →
      t.conc.cb1 = Sparse.fill 0 s.conc.cb1 (x.base + fld w 57 37) (wordAt p.payload 1) (fld w 36 15) ∧ t.conc.cb0 = s.conc.cb0) ∧
    (fld w 63 62 = 1 → x.bank1 = true →
      t.conc.cb0 = Sparse.fill 0 s.conc.cb0 (x.base + fld w 57 37) (wordAt p.payload 1) (fld w 36 15) ∧ t.conc.cb1 = s.conc.cb1) ∧
    t.conc.view = s.conc.view ∧ t.conc.member = s.conc.member) ∧
  (∀ p, Answers (.concCommit p) concCommitCmd p fun s t =>
    let w := wordAt p.payload 0
    let v := fld w 61 58
    (fld w 63 62 = 0 → (t.vw v).st = .verifying ∧ (t.vw v).since = s.now ∧ (t.vw v).copyback = bitAt w 57 ∧
      (t.vw v).digest = num32 p.payload 1 ∧ (t.vw v).bank1 = (s.vw v).bank1 ∧ ∃ o ∈ t.host.open_, o.packet = p ∧ o.long = true) ∧
    (fld w 63 62 = 1 → (t.vw v).st = .steady ∧ (t.vw v).lastCommit = 3 ∧ (t.vw v).bank1 = (s.vw v).bank1) ∧
    t.conc.cb0 = s.conc.cb0 ∧ t.conc.cb1 = s.conc.cb1)

/-- R234 to R237, R239: a fill ends, a commit is verified, members land, the copy-back ends, and the scrub meets an error.
Complete: concFillEnd, verificationEnd, memberLanding, copyingEnd, concordanceScrub. -/
def Obligations.ConcordanceEventsComplete : Prop :=
  (∀ o, Completes .concFillEnd
    (fun s => s.openOf 0x0902 = some o) fun s t => t.now = s.now ∧ Finished o 0 none s t) ∧
  (∀ v, Completes (.verificationEnd v)
    (fun s => (s.vw v.val).st = .verifying ∧ sm3 (s.viewMessage v.val) ≠ (s.vw v.val).digest ∧
      s.now ≤ (s.vw v.val).since + (s.vw v.val).size)
    fun s t => t.now = (s.vw v.val).since + (s.vw v.val).size ∧ (t.vw v.val).st = .steady ∧ (t.vw v.val).lastCommit = 2 ∧
      (t.vw v.val).bank1 = (s.vw v.val).bank1) ∧
  (∀ v, Completes (.verificationEnd v)
    (fun s => (s.vw v.val).st = .verifying ∧ sm3 (s.viewMessage v.val) = (s.vw v.val).digest ∧ s.members v.val = [] ∧
      (s.vw v.val).copyback = false ∧ s.now ≤ (s.vw v.val).since + (s.vw v.val).size)
    fun s t => t.now = (s.vw v.val).since + (s.vw v.val).size + 1 ∧ (t.vw v.val).st = .steady ∧ (t.vw v.val).lastCommit = 1 ∧
      (t.vw v.val).bank1 = !(s.vw v.val).bank1) ∧
  (∀ v q, Completes (.verificationEnd v)
    (fun s => (s.vw v.val).st = .verifying ∧ sm3 (s.viewMessage v.val) = (s.vw v.val).digest ∧ q ∈ s.members v.val ∧
      (∀ r ∈ s.members v.val, (s.sq r).mayLand = false) ∧ s.now ≤ (s.vw v.val).since + (s.vw v.val).size)
    fun s t => (t.vw v.val).st = .swapping ∧ (t.vw v.val).bank1 = (s.vw v.val).bank1 ∧ (t.mem q).landed = false ∧
      (t.mem q).bank1 = (s.mem q).bank1) ∧
  (∀ q v, Completes (.memberLanding q)
    (fun s => (s.sq q.val).mayLand = true ∧ (s.mem q.val).active.view = some v ∧ (s.vw v.val).st = .swapping ∧
      (s.mem q.val).landed = false)
    fun s t => (t.mem q.val).landed = true ∧ (t.mem q.val).bank1 = !(s.vw v.val).bank1 ∧ (t.sq q.val).landedAt = some s.now) ∧
  (∀ v, Completes (.copyingEnd v)
    (fun s => (s.vw v.val).st = .copying ∧ (s.vw v.val).bank1 = true ∧ s.now ≤ (s.vw v.val).since + (s.vw v.val).size)
    fun s t => t.now = (s.vw v.val).since + (s.vw v.val).size ∧ (t.vw v.val).st = .steady ∧
      t.conc.cb0 = Sparse.copy s.conc.cb0 s.conc.cb1 (s.vw v.val).base (s.vw v.val).size ∧ t.conc.cb1 = s.conc.cb1) ∧
  (∀ b i, Completes (.concordanceScrub b i 0) (fun _ => True) fun s t => t = s) ∧
  (∀ b i v, Completes (.concordanceScrub b i 1)
    (fun s => (List.range 16).find? (fun v => (s.vw v).holds i.val) = some v)
    fun s t => (t.vw v).corrected = (s.vw v).corrected + 1 ∧ t.conc.cb0 = s.conc.cb0 ∧ t.conc.cb1 = s.conc.cb1) ∧
  (∀ b i, Completes (.concordanceScrub b i 2) (fun _ => True)
    fun s t => t.conc.bad.contains (b, i.val) = true ∧ bitAt t.trouble[2] 8 = true ∧
      t.units.repairs = s.units.repairs ++ [.concordance (if b then 1 else 0) i.val])

/-- What the commands and events of the fabric and of the Concordance leave alone. -/
def Obligations.FabricFrame : Prop :=
  (∀ p, Frame (.routeTable p) (withReport [.fabric])) ∧ (∀ p, Frame (.laneTrain p) (withReport [.fabric, .units])) ∧
  (∀ p, Frame (.collectionJoin p) (withReport [.fabric, .units])) ∧ (∀ p, Frame (.laneTest p) (withReport [.fabric, .units])) ∧
  (∀ n, Frame (.laneVerdictLaunch n) [.time, .fabric, .host, .free]) ∧ (∀ n p l, Frame (.laneVerdictReceive n p l) [.time, .fabric]) ∧
  (∀ n l c, Frame (.checkBlockReceive n l c) (withReport [.fabric, .seqs, .conc, .units])) ∧
  (∀ n c m k, Frame (.serviceIdentity n c m k) [.fabric]) ∧ (∀ n x k, Frame (.serviceMarker n x k) [.fabric]) ∧
  (∀ n x k, Frame (.serviceEcho n x k) [.fabric]) ∧ (∀ n a b c d, Frame (.serviceSkew n a b c d) [.host, .fabric]) ∧
  (∀ n m, Frame (.testreq n m) [.fabric, .host]) ∧ (∀ n, Frame (.testack n) (withReport [.fabric])) ∧
  (∀ n, Frame (.testrefuse n) (withReport [.fabric])) ∧ (∀ n c, Frame (.laneFailure n c) (withReport [.fabric, .units])) ∧
  (∀ n, Frame (.laneDetectDone n) [.fabric, .host]) ∧ (∀ n a b, Frame (.laneEqualizeDone n a b) [.fabric, .host]) ∧
  (∀ n, Frame (.laneBlockLock n) [.fabric, .host]) ∧ (∀ n, Frame (.laneIdentifyDone n) [.fabric, .host]) ∧
  (∀ n, Frame (.laneLockDone n) (withReport [.fabric])) ∧ (∀ n, Frame (.laneAttemptTimeout n) (withReport [.time, .fabric])) ∧
  (∀ n, Frame (.laneAutoRetrain n) (withReport [.time, .fabric, .units])) ∧
  (∀ n m, Frame (.laneMarginMeasure n m) (withReport [.time, .fabric])) ∧ (∀ n, Frame (.laneRelock n) (withReport [.fabric, .units])) ∧
  (∀ n, Frame (.laneWakeEnd n) (withReport [.fabric])) ∧ (∀ n b, Frame (.patternLockLoss n b) [.fabric]) ∧
  (∀ n b e, Frame (.laneTestEnd n b e) (withReport [.time, .fabric, .units])) ∧
  (∀ p, Frame (.concMap p) (withReport [.conc])) ∧ (∀ p, Frame (.concWrite p) (withReport [.conc])) ∧
  (∀ p, Frame (.concCommit p) (withReport [.conc])) ∧ Frame .concFillEnd (withReport []) ∧
  (∀ v, Frame (.verificationEnd v) (withReport [.time, .conc, .seqs])) ∧ (∀ q, Frame (.memberLanding q) (withReport [.conc, .seqs])) ∧
  (∀ v, Frame (.copyingEnd v) (withReport [.time, .conc])) ∧ (∀ b i e, Frame (.concordanceScrub b i e) (withReport [.conc, .units]))

/-! ## Triggers and acquisition (chapter 10) -/

/-- R250, R252, R254, R255, R263, R265 and Tables 10.6 to 10.11: the commands of group 0x0A.
Complete: patternConfig, captureConfig, captureRead. -/
def Obligations.AcquisitionCommandsComplete : Prop :=
  (∀ p, Answers (.patternConfig p) patternConfigCmd p fun s t =>
    let l := (List.range (fld (wordAt p.payload 0) 63 57)).map (patRead p)
    t.acq.select = (l.foldl State.patApply s).acq.select ∧ t.acq.cap = s.acq.cap ∧
    (l.length = 1 → ∀ i e, patRead p 0 = .select i false e → i < 42 → atN t.acq.select i {} = e) ∧
    (l.length = 1 → ∀ i al both dir fi st, patRead p 0 = .input i false al both dir fi st → i < 19 →
      (t.inp i).actlow = al ∧ (t.inp i).both = both ∧ (t.inp i).dir = dir ∧ (t.inp i).filter = fi ∧ (t.inp i).stuck = st ∧
      (t.inp i).events = (s.inp i).events) ∧
    (l.length = 1 → ∀ u en v m, patRead p 0 = .unit u false en v m → u < 32 →
      (atN t.acq.unit u {}).en = en ∧ (atN t.acq.unit u {}).value = v ∧ (atN t.acq.unit u {}).mask = m ∧
      (atN t.acq.unit u {}).fires = (atN s.acq.unit u {}).fires ∧ t.acq.input = s.acq.input) ∧
    (l.length = 1 → ∀ u en v m, patRead p 0 = .unit u true en v m →
      Posted p (s.host.accept + 1) 0 (some [put 63 32 (atN s.acq.unit u {}).fires.toNat]) t)) ∧
  (∀ p, Answers (.captureConfig p) captureConfigCmd p fun s t =>
    let k := capSlotOf p
    let plan := { capPlan p with raddr := (s.ringFor k (capPlan p)).getD 0 }
    let bound := s.liveBinder (demodBinding (demodLine k) (demodSlotNo k))
    (fld (wordAt p.payload 0) 63 62 = 0 → bound = none →
      (t.cap k).active = some plan ∧ (t.cap k).shadow = none ∧ (t.cap k).seqno = 0 ∧ (t.cap k).done_ = false ∧
      (t.cap k).holdUntil = none ∧ (t.cap k).histAt = s.now) ∧
    (fld (wordAt p.payload 0) 63 62 = 0 → bound ≠ none →
      (t.cap k).shadow = some (some plan) ∧ (t.cap k).active = (s.cap k).active ∧ (t.cap k).rings = (s.cap k).rings) ∧
    (fld (wordAt p.payload 0) 63 62 = 1 → bound = none → (t.cap k).active = none ∧ (t.cap k).shadow = none) ∧
    (fld (wordAt p.payload 0) 63 62 = 1 → bound ≠ none → (t.cap k).shadow = some none ∧ (t.cap k).active = (s.cap k).active) ∧
    (fld (wordAt p.payload 0) 63 62 = 2 → t.acq = s.acq ∧ Posted p (s.host.accept + 1) 0 (some (s.capWords k)) t) ∧
    ∀ j, j ≠ k → t.cap j = s.cap j) ∧
  (∀ p, Answers (.captureRead p) captureReadCmd p fun s t =>
    let k := capSlotOf p
    let n := fld (wordAt p.payload 0) 52 39
    (fld (wordAt p.payload 0) 63 62 = 0 →
      (t.cap k).stream = (s.cap k).stream.drop n ∧ (t.cap k).lostRead = 0 ∧ (t.cap k).droppedRead = 0 ∧ (t.cap k).resync = false ∧
      (t.cap k).ready = (s.cap k).ready) ∧
    (fld (wordAt p.payload 0) 63 62 = 1 → t.acq = s.acq ∧
      Posted p (s.host.accept + 1) 0 (some ([orAll [put 63 32 (s.cap k).lostRead, putB 31 (s.cap k).resync,
        put 30 17 ((s.cap k).stream.take n).length], put 63 32 (s.cap k).droppedRead |||
        put 31 0 (min (s.cap k).stream.length (2 ^ 32 - 1))] ++ (s.cap k).stream.take n)) t) ∧
    (fld (wordAt p.payload 0) 63 62 = 2 → (t.cap k).stream = [] ∧ (t.cap k).ready = (s.cap k).ready) ∧
    ∀ j, j ≠ k → t.cap j = s.cap j)

/-- R199, R200, R244 to R247, R250, R251, R253, R256 to R258, R260, R262, R263: trigger inputs, pattern units, captures, and verdicts that
reach their ports.
Complete: triggerInputEdge, triggerEvent, inputStuck, patternUnitFire, captureHoldoffEnd, rawRecordEnd, recordDrain, verdictLatch.
-/
def Obligations.AcquisitionEventsComplete : Prop :=
  (∀ i level d, Completes (.triggerInputEdge i level d)
    (fun s => (s.inp i.val).active = (s.inp i.val).level ∧ (s.inp i.val).ball ≠ s.lineHigh i.val level)
    fun s t => (t.inp i.val).ball = s.lineHigh i.val level ∧ (t.inp i.val).ext = level ∧ (t.inp i.val).ballAt = s.now + d.val ∧
      (t.inp i.val).level = (s.inp i.val).level ∧ (t.inp i.val).rejects = (s.inp i.val).rejects ∧ t.now = s.now) ∧
  (∀ i level d, Completes (.triggerInputEdge i level d)
    (fun s => (s.inp i.val).active = true ∧ (s.inp i.val).level = false ∧ (s.inp i.val).ball ≠ s.lineHigh i.val level ∧
      0 < (s.inp i.val).filter ∧ s.now + d.val ≤ (s.inp i.val).due)
    fun s t => (t.inp i.val).ball = s.lineHigh i.val level ∧ (t.inp i.val).level = false ∧ (t.inp i.val).events = (s.inp i.val).events ∧
      (t.inp i.val).rejects = satAdd 8 (s.inp i.val).rejects 1) ∧
  (∀ i level d, Completes (.triggerInputEdge i level d)
    (fun s => (s.inp i.val).active = (s.inp i.val).level ∧ (s.inp i.val).ball = s.lineHigh i.val level)
    fun s t => t.inp i.val = { s.inp i.val with ext := level } ∧ t.now = s.now) ∧
  (∀ i, Completes (.triggerEvent i)
    (fun s => (s.inp i.val).active = true ∧ (s.inp i.val).level = false ∧ (s.inp i.val).isInput i.val = true ∧
      (s.inp i.val).lastEvent = none ∧ s.now ≤ (s.inp i.val).due)
    fun s t => t.now = (s.inp i.val).due ∧ (t.inp i.val).level = true ∧ (t.inp i.val).levelAt = t.now ∧
      (t.inp i.val).events = (s.inp i.val).events + 1 ∧ (t.inp i.val).lastEvent = some t.now ∧
      atN t.seqs.events (32 + i.val) none = some t.now) ∧
  (∀ i e, Completes (.triggerEvent i)
    (fun s => (s.inp i.val).active = true ∧ (s.inp i.val).level = false ∧ (s.inp i.val).isInput i.val = true ∧
      (s.inp i.val).lastEvent = some e ∧ (s.inp i.val).due < e + 4)
    fun s t => (t.inp i.val).level = true ∧ (t.inp i.val).events = (s.inp i.val).events ∧
      (t.inp i.val).excess = satAdd 16 (s.inp i.val).excess 1 ∧ t.seqs = s.seqs) ∧
  (∀ i, Completes (.inputStuck i)
    (fun s => (s.inp i.val).level = true ∧ (s.inp i.val).stuck ≠ 0 ∧ (s.inp i.val).isStuck = false ∧
      s.now ≤ (s.inp i.val).levelAt + (s.inp i.val).stuck - 1)
    fun s t => t.now = (s.inp i.val).levelAt + (s.inp i.val).stuck - 1 ∧ (t.inp i.val).isStuck = true ∧
      (t.inp i.val).stucks = satAdd 8 (s.inp i.val).stucks 1 ∧ bitAt t.trouble[0] 12 = true) ∧
  (∀ u, Completes (.patternUnitFire u)
    (fun s => (s.svSync.acq.unit[u]).matches_ (s.sv s.now) = true ∧ (s.svSync.acq.unit[u]).prev = false ∧
      (s.acq.unit[u]).lastFire ≠ some s.now)
    fun s t => (t.acq.unit[u]).fires = (s.acq.unit[u]).fires + 1 ∧ (t.acq.unit[u]).lastFire = some s.now ∧
      atN t.seqs.events u.val none = some (s.now + 1) ∧
      ∀ k < 512, ∀ pl, (s.cap k).active = some pl → pl.start = 1 → pl.pt = u.val → (s.cap k).done_ = false →
        (s.cap k).holdUntil = none → s.captureOpen = true →
        (t.cap k).starts = (s.cap k).starts + 1 ∧ (t.cap k).holdUntil = some (s.now + pl.minPeriod) ∧
        (pl.raw.isSome = true → s.noHalf k 1 (s.cap k).raw.toList.length = true →
          (t.cap k).dropped = satAdd 32 (s.cap k).dropped 1 ∧
          bitAt (t.trouble[(clusterWord (lineCluster (demodLine k))).val]) 7 = true)) ∧
  (∀ k n, Completes (.captureHoldoffEnd k) (fun s => (s.cap k.val).holdUntil = some n ∧ s.now ≤ n)
    fun s t => t.now = n ∧ (t.cap k.val).holdUntil = none ∧ (t.cap k.val).active = (s.cap k.val).active) ∧
  (∀ k data r, Completes (.rawRecordEnd k data)
    (fun s => firstEnd (s.cap k.val).raws = some r ∧ (s.cap k.val).rawLate.contains r = false ∧ r.full = false ∧ s.now ≤ r.last)
    fun s t => t.now = r.last ∧ (t.cap k.val).raw = none ∧ (t.cap k.val).histAt = max (s.cap k.val).histAt (r.last + 1) ∧
      (t.cap k.val).seqno = (s.cap k.val).seqno + 1 ∧
      ∃ h, (t.cap k.val).ready = (s.cap k.val).ready ++
          [mkRecord k.val ((s.cap k.val).seqno % 2 ^ 26) h (r.data (s.ln (demodLine k.val)) data)] ∧
        h.kind = 1 ∧ h.start = r.start ∧ h.pt = r.pt ∧ h.short = r.short ∧ h.pre = r.pre ∧ h.context = r.context ∧ h.aux = r.units ∧
        h.outOfRange = rawOver (r.data (s.ln (demodLine k.val)) data) ∧ h.missing = r.missing (s.ln (demodLine k.val)) ∧
        h.tick = BitVec.ofNat 64 (t.cnt r.first)) ∧
  (∀ k data r, Completes (.rawRecordEnd k data)
    (fun s => firstEnd (s.cap k.val).raws = some r ∧ (s.cap k.val).rawLate.contains r = false ∧ r.full = true ∧ s.now ≤ r.last)
    fun s t => t.now = r.last ∧ (t.cap k.val).raw = none ∧ (t.cap k.val).histAt = max (s.cap k.val).histAt (r.last + 1) ∧
      (t.cap k.val).ready = (s.cap k.val).ready ∧ (t.cap k.val).dropped = (s.cap k.val).dropped ∧
      (t.cap k.val).seqno = (s.cap k.val).seqno) ∧
  (∀ k data r, Completes (.rawRecordEnd k data)
    (fun s => firstEnd (s.cap k.val).raws = some r ∧ (s.cap k.val).rawLate.contains r = true ∧ s.now ≤ r.last)
    fun s t => t.now = r.last ∧ (t.cap k.val).rawLate = (s.cap k.val).rawLate.erase r ∧ (t.cap k.val).raw = (s.cap k.val).raw ∧
      (t.cap k.val).histAt = max (s.cap k.val).histAt (r.last + 1) ∧ (t.cap k.val).ready = (s.cap k.val).ready ∧
      (t.cap k.val).seqno = (s.cap k.val).seqno ∧
      (t.cap k.val).prevSeq = if r.full then (s.cap k.val).prevSeq else (s.cap k.val).prevSeq + 1) ∧
  (∀ k r l g, Completes (.recordDrain k none)
    (fun s => (s.cap k.val).ready = r :: l ∧ (s.cap k.val).rings = [g] ∧
      (g.recs.map List.length).sum + r.length ≤ 8192 * g.size ∧ (s.cap k.val).lost < 2 ^ 32)
    fun s t => (t.cap k.val).ready = l ∧ (t.cap k.val).rings = [{ g with recs := g.recs ++ [r] }] ∧
      (t.cap k.val).lost = (s.cap k.val).lost) ∧
  (∀ k n r l, Completes (.recordDrain k (some n)) (fun s => (s.cap k.val).ready = r :: l ∧ (s.cap k.val).rings ≠ [])
    fun _ t => (t.cap k.val).ready = l ∧ bitAt (t.trouble[(clusterWord (lineCluster (demodLine k.val))).val]) 8 = true) ∧
  (∀ x, Completes .verdictLatch (fun s => earliest s.fabric.flight = some x ∧ s.now ≤ x.at_)
    fun s t => t.now = x.at_ ∧ t.fabric.flight = s.fabric.flight.erase x ∧
      (x.reach ≠ .cluster ∨ (atN s.fabric.send (16 * vLine x.packet + vSlot x.packet) {}).active = 0 → t.fabric.lane = s.fabric.lane) ∧
      (∀ m < 16, ∀ n, x.reach = .cluster →
        (atN s.fabric.send (16 * vLine x.packet + vSlot x.packet) {}).active = BitVec.ofNat 16 (2 ^ m) → s.sendLane m x.at_ = some n →
        (s.lane n).queue = [] → (t.lane n).queue = [(x.packet, s.cnt x.at_)]) ∧
      ∀ q < 256, ∀ i < 8, ∀ k, x.reach = .cluster → seqCluster q = lineCluster (vLine x.packet) →
        vSrc x.packet = s.fabric.member → atN (s.sq q).active i Binding.none = .demod k → k.val = 16 * vLine x.packet + vSlot x.packet →
        vTick x.packet = (s.sq q).sst.toNat % 2 ^ 38 → (atN (s.sq q).ports i {}).discard = false →
        (atN (t.sq q).ports i {}).held = some (x.packet, s.cnt x.at_))

/-! ## Bias and monitors (chapter 11) -/

/-- R269 to R275, R280 to R283, R285 and Tables 11.3 to 11.8: the commands of group 0x0B.
Complete: biasConfig, biasSet, monitorConfig. -/
def Obligations.BiasCommandsComplete : Prop :=
  (∀ p, Answers (.biasConfig p) biasConfigCmd p fun s t => fld (wordAt p.payload 0) 63 55 = 1 →
    let r := bcRead p 0
    let c := s.ch r.chan
    let d := t.ch r.chan
    (r.action ≤ 1 → d.step = r.step ∧ d.sper = r.sper ∧ d.uper = r.uper ∧ d.supv = r.supv) ∧
    (r.action = 0 → d.st = c.st ∧ d.code = c.code ∧ d.target = c.target) ∧
    (r.action = 1 → d.st = .on) ∧
    (r.action = 1 → c.st = .off → d.code = zeroCode ∧ d.target = zeroCode ∧ d.range = r.range ∧ d.frozen = c.frozen) ∧
    (r.action = 1 → c.st = .shutting → d.code = c.code ∧ d.target = c.code) ∧
    (r.action = 2 → d.frozen = false ∧ d.run = .idle) ∧
    (r.action = 2 → c.st = .on → d.st = .shutting ∧ d.target = zeroCode) ∧
    (r.action = 2 → c.st ≠ .on → d.st = c.st) ∧
    (r.action = 3 → t.bias = s.bias ∧ Posted p (s.host.accept + 1) 0 (some [c.word]) t) ∧
    ∀ b, b ≠ r.chan → t.ch b = s.ch b) ∧
  (∀ p, Answers (.biasSet p) biasSetCmd p fun s t =>
    let w := wordAt p.payload 0
    let b := fld w 63 56
    let d := t.ch b
    (fld w 55 53 = 0 → d.target = fld (wordAt p.payload 1) 17 0 ∧ d.frozen = false ∧ d.run = .idle ∧ d.episode = 0) ∧
    (fld w 55 53 = 1 → d.codes = bsCodes p ∧ d.loop = bitAt w 45 ∧ d.quper = (s.ch b).uper ∧ d.frozen = false ∧ d.episode = 0) ∧
    (fld w 55 53 = 1 → fld w 52 51 = 0 → ∀ v l, bsCodes p = v :: l → (s.ch b).st = .on → d.target = v ∧
      d.run = if l = [] ∧ bitAt w 45 = false then .idle else .running s.now 1) ∧
    (fld w 55 53 = 1 → fld w 52 51 = 1 → d.run = .waiting 1 0 s.now ∧ d.target = (s.ch b).target ∧
      ∃ e ∈ t.time.events, e.what = .biasQueue b ∧ e.earliest = s.now + 1) ∧
    (fld w 55 53 = 1 → fld w 52 51 = 2 → d.run = .waiting 2 (fld w 50 46) s.now ∧ d.target = (s.ch b).target) ∧
    (fld w 55 53 = 2 → d.run = .idle ∧ d.target = (s.ch b).target) ∧
    (fld w 55 53 = 3 → t.bias.chan = s.bias.chan ∧
      (atN t.bias.hk (chanDie b) {}).reqs =
        (atN s.bias.hk (chanDie b) {}).reqs ++ [{ ask := .measure b, accept := s.host.accept + 1, idx := 0 }] ∧
      ∃ o ∈ t.host.open_, o.packet = p ∧ o.accept = s.host.accept + 1) ∧
    t.bias.mon = s.bias.mon ∧ ∀ c, c ≠ b → t.ch c = s.ch c) ∧
  (∀ p, Answers (.monitorConfig p) monitorConfigCmd p fun s t => fld (wordAt p.payload 0) 63 55 = 1 → (mcRead p 0).mon < 288 →
    let r := mcRead p 0
    let x := s.monOf r.mon
    let y := t.monOf r.mon
    let new : Monitor := { x with en := r.en, frz := r.frz, code := r.code, hys := r.hys, blank := r.blank, dmap := r.dmap, pmap := r.pmap }
    let again := (s.monInput r.mon).any fun v => decide (s.threshold r.mon (r.code - r.hys) ≤ v)
    let trips := y.tripped = true ∧ y.blankAt = s.now ∧ y.trips = satAdd 14 x.trips 1 ∧
      y.lastTrip = BitVec.ofNat 32 (s.cnt s.now) ∧ (r.frz = false → t.bias.chan = s.bias.chan) ∧
      ∀ o ∈ mapOuts (monDie r.mon) r.dmap r.pmap, (t.out o).trip = true
    let rests := y.tripped = x.tripped ∧ y.trips = x.trips ∧ y.lastTrip = x.lastTrip ∧ t.bias.chan = s.bias.chan
    (r.action = 0 → y.en = r.en ∧ y.frz = r.frz ∧ y.code = r.code ∧ y.hys = r.hys ∧ y.blank = r.blank ∧ y.dmap = r.dmap ∧
      y.pmap = r.pmap) ∧
    (r.action = 0 → x.en = false → r.en = true → trips) ∧
    (r.action = 0 → x.en = true → r.en = true → x.tripped = false → x ≠ new → again = true → trips) ∧
    (r.action = 0 → x.en = true → r.en = true → x.tripped = true ∨ x = new ∨ again = false →
      rests ∧ (x ≠ new → y.blankAt = s.now)) ∧
    (r.action = 0 → x.en = true → r.en = false →
      y.tripped = false ∧ y.trips = x.trips ∧ y.lastTrip = x.lastTrip ∧ t.bias.chan = s.bias.chan) ∧
    (r.action = 0 → x.en = false → r.en = false → rests) ∧
    (r.action = 1 → t.bias = s.bias ∧ Posted p (s.host.accept + 1) 0 (some [x.word]) t) ∧
    (r.action = 2 → t.bias.mon = s.bias.mon ∧ (atN t.bias.hk (monDie r.mon) {}).reqs =
      (atN s.bias.hk (monDie r.mon) {}).reqs ++ [{ ask := .readback r.mon, accept := s.host.accept + 1, idx := 0 }]) ∧
    ∀ m, m ≠ r.mon → t.monOf m = s.monOf m)

/-- R268, R270, R272 to R275, R277, R279 to R285: levels and queues of bias channels, supervision, monitors, and the housekeeping ADCs.
Complete: housekeepingRequestEnd, biasSlewStep, deglitchHoldEnd, biasQueueStart, biasQueueUpdate, biasReachZero, biasSwitchOpen,
stageLimitChange, supervisionEvent, monitorTrip, monitorRelease. -/
def Obligations.BiasEventsComplete : Prop :=
  (∀ d v r l, Completes (.housekeepingRequestEnd d v) (fun s => (s.bias.hk[d]).reqs = r :: l)
    fun s t => (t.bias.hk[d]).reqs = l ∧ t.bias.chan = s.bias.chan ∧ t.bias.mon = s.bias.mon) ∧
  (∀ d v r l b o x y z, Completes (.housekeepingRequestEnd d v)
    (fun s => (s.bias.hk[d]).reqs = r :: l ∧ r.ask = .measure b ∧ r.idx = 0 ∧ o.data = [x, y, z] ∧ o.silent = false ∧
      s.host.open_.find? (fun o => o.accept == r.accept) = some o ∧
      (∀ e : Fin 4, ∀ q ∈ (if e = d then l else (s.bias.hk[e]).reqs), q.accept ≠ r.accept) ∧
      (s.queue o.packet.source).qstate ≠ .disabled)
    fun _ t => Posted o.packet o.accept 0 (some [v]) t) ∧
  (∀ b, Completes (.biasSlewStep b)
    (fun s => (s.ch b.val).st ≠ .off ∧ (s.ch b.val).frozen = false ∧ (s.ch b.val).range ≠ 1 ∧ (s.ch b.val).code ≠ (s.ch b.val).target ∧
      s.now ≤ (s.ch b.val).slewAt + 1000 * (s.ch b.val).sper)
    fun s t => t.now = (s.ch b.val).slewAt + 1000 * (s.ch b.val).sper ∧ (t.ch b.val).slewAt = t.now ∧
      ((s.ch b.val).code < (s.ch b.val).target →
        (t.ch b.val).code = min (s.ch b.val).target ((s.ch b.val).code + (s.ch b.val).step)) ∧
      ((s.ch b.val).target < (s.ch b.val).code →
        (t.ch b.val).code = max (s.ch b.val).target ((s.ch b.val).code - (s.ch b.val).step)) ∧
      (t.ch b.val).target = (s.ch b.val).target) ∧
  (∀ b e v, Completes (.deglitchHoldEnd b) (fun s => (s.ch b.val).hold = some (e, v) ∧ s.now ≤ e)
    fun _ t => t.now = e ∧ (t.ch b.val).code = v ∧ (t.ch b.val).hold = none) ∧
  (∀ b pt since e, Completes (.biasQueueStart b)
    (fun s => (s.ch b.val).run = .waiting 2 pt since ∧ atN s.seqs.events pt none = some e ∧ since ≤ e ∧ s.now ≤ e)
    fun s t => t.now = e ∧ ∀ v l, (s.ch b.val).codes = v :: l → (s.ch b.val).st = .on → (s.ch b.val).frozen = false →
      (t.ch b.val).target = v ∧ (t.ch b.val).run = if l = [] ∧ (s.ch b.val).loop = false then .idle else .running e 1) ∧
  (∀ b since j v, Completes (.biasQueueUpdate b)
    (fun s => (s.ch b.val).run = .running since j ∧ (s.ch b.val).frozen = false ∧ j < (s.ch b.val).codes.length ∧
      (s.ch b.val).codes.getD j 0 = v ∧ s.now ≤ since + j * (s.ch b.val).quper)
    fun s t => t.now = since + j * (s.ch b.val).quper ∧ (t.ch b.val).target = v ∧
      (t.ch b.val).run = if (s.ch b.val).loop = false ∧ (s.ch b.val).codes.length = j + 1 then .idle else .running since (j + 1)) ∧
  (∀ b, Completes (.biasReachZero b)
    (fun s => (s.ch b.val).st = .shutting ∧ (s.ch b.val).code = zeroCode ∧ (s.ch b.val).hold = none ∧ (s.ch b.val).zeroAt = none)
    fun s t => ((s.ch b.val).range ≠ 1 → (t.ch b.val).st = .off) ∧
      ((s.ch b.val).range = 1 → (t.ch b.val).st = .shutting ∧ (t.ch b.val).zeroAt = some s.now)) ∧
  (∀ b n, Completes (.biasSwitchOpen b) (fun s => (s.ch b.val).zeroAt = some n ∧ s.now ≤ n + 1000)
    fun _ t => t.now = n + 1000 ∧ (t.ch b.val).st = .off ∧ (t.ch b.val).zeroAt = none) ∧
  (∀ b, Completes (.stageLimitChange b true) (fun s => (s.ch b.val).st ≠ .off ∧ (s.ch b.val).limitAt = none)
    fun s t => (t.ch b.val).limitAt = some s.now ∧ (t.ch b.val).episode = (s.ch b.val).episode) ∧
  (∀ b, Completes (.stageLimitChange b false) (fun _ => True)
    fun s t => (t.ch b.val).limitAt = none ∧ (t.ch b.val).episode = 0 ∧ (t.ch b.val).code = (s.ch b.val).code) ∧
  (∀ b current n, Completes (.supervisionEvent b current)
    (fun s => (s.ch b.val).limitAt = some n ∧ (s.ch b.val).episode = 0 ∧ (s.ch b.val).st ≠ .off ∧ s.now ≤ n + 2000)
    fun s t => t.now = n + 2000 ∧ (t.ch b.val).events = satAdd 11 (s.ch b.val).events 1 ∧
      ((biasRange (s.ch b.val).range).quantity = .current → 100 * current.toNat < 3 * (biasRange (s.ch b.val).range).fs →
        (t.ch b.val).episode = 2 ∧ bitAt (t.trouble[(dieWord (chanDie b.val)).val]) 5 = true) ∧
      ((biasRange (s.ch b.val).range).quantity = .voltage ∨ 3 * (biasRange (s.ch b.val).range).fs ≤ 100 * current.toNat →
        (t.ch b.val).episode = 1 ∧ bitAt (t.trouble[(dieWord (chanDie b.val)).val]) 4 = true) ∧
      ((s.ch b.val).supv = 1 → (s.ch b.val).st = .on → (t.ch b.val).frozen = true ∧ (t.ch b.val).st = .on) ∧
      ((s.ch b.val).supv = 2 → (s.ch b.val).st = .on → (t.ch b.val).st = .shutting ∧ (t.ch b.val).target = zeroCode) ∧
      ((s.ch b.val).supv = 0 → (t.ch b.val).st = (s.ch b.val).st ∧ (t.ch b.val).frozen = (s.ch b.val).frozen)) ∧
  (∀ m x, Completes (.monitorTrip m x)
    (fun s => (s.monOf m.val).en = true ∧ (s.monOf m.val).tripped = false ∧ s.hasCluster (monCluster m.val) = true ∧
      s.tripsAt m.val ≤ s.atComparator m.val x)
    fun s t => (t.monOf m.val).tripped = true ∧ (t.monOf m.val).trips = satAdd 14 (s.monOf m.val).trips 1 ∧
      (t.monOf m.val).lastTrip = BitVec.ofNat 32 (s.cnt s.now) ∧ bitAt (t.trouble[(dieWord (monDie m.val)).val]) 6 = true ∧
      (∀ o ∈ mapOuts (monDie m.val) (s.monOf m.val).dmap (s.monOf m.val).pmap, (t.out o).trip = true) ∧
      ((s.monOf m.val).frz = true → m.val < 256 → (s.ch m.val).st ≠ .shutting →
        (t.ch m.val).frozen = true ∧ (t.ch m.val).run = .idle ∧ (t.ch m.val).hold = none ∧ (t.ch m.val).st = (s.ch m.val).st)) ∧
  (∀ m x, Completes (.monitorTrip m x) (fun s => s.atComparator m.val x < s.tripsAt m.val) fun s t => t = s) ∧
  (∀ m above, Completes (.monitorRelease m above)
    (fun s => (s.monOf m.val).tripped = true ∧ s.releaseLevel m.val ≠ 0 ∧ s.hasCluster (monCluster m.val) = true ∧
      s.now ≤ (s.monOf m.val).blankAt + above.toNat + 1000 * (s.monOf m.val).blank)
    fun s t => t.now = (s.monOf m.val).blankAt + above.toNat + 1000 * (s.monOf m.val).blank ∧ (t.monOf m.val).tripped = false ∧
      (∀ o ∈ s.monOuts m.val, s.otherTrip m.val o = false →
        (t.out o).trip = false ∧ ((s.out o).tripLatch = true → (t.out o).latched = true)) ∧
      ∀ o ∈ s.monOuts m.val, s.otherTrip m.val o = true → (t.out o).trip = (s.out o).trip) ∧
  (∀ m above, Completes (.monitorRelease m above) (fun s => s.releaseLevel m.val = 0) fun s t => t = s)

/-- What the commands and events of acquisition and bias leave alone. -/
def Obligations.BiasFrame : Prop :=
  (∀ p, Frame (.patternConfig p) (withReport [.acq])) ∧ (∀ p, Frame (.captureConfig p) (withReport [.acq, .time])) ∧
  (∀ p, Frame (.captureRead p) (withReport [.acq])) ∧ (∀ i l d, Frame (.triggerInputEdge i l d) [.acq, .seqs, .time]) ∧
  (∀ i, Frame (.triggerEvent i) [.acq, .seqs, .time]) ∧ (∀ i, Frame (.inputStuck i) (withReport [.acq, .time])) ∧
  (∀ u, Frame (.patternUnitFire u) (withReport [.acq, .seqs])) ∧ (∀ k, Frame (.captureHoldoffEnd k) [.acq, .time]) ∧
  (∀ k d, Frame (.rawRecordEnd k d) (withReport [.acq, .time])) ∧ (∀ k b, Frame (.recordDrain k b) (withReport [.acq])) ∧
  Frame .verdictLatch (withReport [.acq, .seqs, .fabric, .conc, .time]) ∧
  (∀ p, Frame (.biasConfig p) (withReport [.bias, .time, .cal])) ∧ (∀ p, Frame (.biasSet p) (withReport [.bias, .time])) ∧
  (∀ p, Frame (.monitorConfig p) (withReport [.bias, .acq, .synth, .time])) ∧
  (∀ d v, Frame (.housekeepingRequestEnd d v) (withReport [.bias])) ∧
  (∀ b, Frame (.biasSlewStep b) [.bias, .time]) ∧ (∀ b, Frame (.deglitchHoldEnd b) [.bias, .time]) ∧
  (∀ b, Frame (.biasQueueStart b) [.bias, .time]) ∧ (∀ b, Frame (.biasQueueUpdate b) [.bias, .time]) ∧
  (∀ b, Frame (.biasReachZero b) [.bias]) ∧ (∀ b, Frame (.biasSwitchOpen b) [.bias, .time]) ∧
  (∀ b l, Frame (.stageLimitChange b l) [.bias]) ∧ (∀ b o, Frame (.supervisionEvent b o) (withReport [.bias, .time])) ∧
  (∀ m x, Frame (.monitorTrip m x) (withReport [.bias, .acq, .synth, .time])) ∧
  (∀ m a, Frame (.monitorRelease m a) (withReport [.bias, .acq, .synth, .time]))

/-! ## Calibration (chapter 14) -/

/-- R345 to R358 and Tables 14.3 to 14.7: calibration runs, trim words, and how values come into force.
Complete: calRun, trimLoad, trimRead, trimTargetUpdate, trimStep, biasTrimStep, calElementEnd, calRunEnd, internalCalibrationEnd.
-/
def Obligations.CalibrationCompletes : Prop :=
  (∀ p, Answers (.calRun p) calRunCmd p fun s t =>
    let w := wordAt p.payload 0
    let d := fld w 57 56
    (fld w 63 61 = 0 → (t.calOf d).state = 1 ∧ (t.calOf d).done_ = 0 ∧ (t.calOf d).rejected = 0 ∧
      (∃ r, (t.calOf d).run = some r ∧ r.cls = fld w 60 58 ∧ r.shift = bitAt w 55 ∧ r.apply = bitAt w 54 ∧
        r.accept = s.host.accept + 1) ∧ ∃ o ∈ t.host.open_, o.packet = p ∧ o.long = true) ∧
    (fld w 63 61 = 1 → t.cal = s.cal ∧ Posted p (s.host.accept + 1) 0 (some (s.calOf d).words) t) ∧
    (fld w 63 61 = 2 → ∀ r, (s.calOf d).run = some r →
      (t.calOf d).run = some { r with left := [], measured := true, early := some 0 }) ∧
    (fld w 63 61 = 3 → (t.calOf d).cand = [] ∧
      t.cal.active = (s.cal.points ((s.calOf d).cand.filter fun e => decide (e.1 % 8 < 5))).active) ∧
    (fld w 63 61 = 4 → (t.calOf d).cand = [] ∧ t.cal.active = s.cal.active)) ∧
  (∀ p, Answers (.trimLoad p) trimLoadCmd p fun s t =>
    let a := trimAsk p
    (a.n = 1 → a.factory = false → t.cal.active =
      Sparse.set none s.cal.active (trimAddr a.die a.cls a.first a.range a.point) (some (wordAt p.payload 1))) ∧
    (a.n = 1 → a.factory = true → t.cal.active = Sparse.set none s.cal.active (trimAddr a.die a.cls a.first a.range a.point) none) ∧
    t.cal.active = (s.cal.points ((List.range a.n).map fun j =>
      (trimAddr a.die a.cls (a.first + j) a.range a.point, if a.factory then none else some (wordAt p.payload (1 + j))))).active) ∧
  (∀ p, Answers (.trimRead p) trimReadCmd p fun s t => t.cal = s.cal ∧
    Posted p (s.host.accept + 1) 0 (some ((List.range (trimAsk p).n).map fun j => s.trimWord (trimAsk p) ((trimAsk p).first + j))) t) ∧
  Completes .trimTargetUpdate (fun s => s.now ≤ s.cal.updatedAt + 1000000)
    (fun s t => t.now = s.cal.updatedAt + 1000000 ∧ t.cal.updatedAt = t.now ∧ t.cal.active = s.cal.active ∧
      ∀ d < 4, s.hasDie d = true → (t.calOf d).temp = s.dieTemp d) ∧
  (∀ d c i, Completes (.trimStep d c i)
    (fun s => i.val < classSize c.val ∧ s.hasDie d.val = true ∧ s.trimFree d.val c.val i.val = false ∧
      s.remains d.val c.val i.val = true ∧ s.nextStep d.val c.val i.val ≤ s.now ∧
      s.atBoundary (trimSlots d.val c.val i.val) = true ∧ s.swappedOut d.val c.val i.val = false)
    fun s t => t.cal.stepAt = Sparse.set 0 s.cal.stepAt (trimAddr d.val c.val i.val 0 5) (s.now + 16000) ∧
      t.cal.active = s.cal.active ∧ (Sparse.wf none s.cal.inForce = true →
        t.inForceOf d.val c.val i.val 0 = stepWord c.val (s.inForceOf d.val c.val i.val 0) (s.target d.val c.val i.val 0))) ∧
  (∀ b, Completes (.biasTrimStep b)
    (fun s => (s.ch b.val).st ≠ .off ∧ (s.ch b.val).frozen = false ∧ s.remains (b.val / 64) 4 (b.val % 64) = true ∧
      s.now ≤ s.nextStep (b.val / 64) 4 (b.val % 64))
    fun s t => t.now = s.nextStep (b.val / 64) 4 (b.val % 64) ∧
      t.cal.stepAt = Sparse.set 0 s.cal.stepAt (trimAddr (b.val / 64) 4 (b.val % 64) 0 5) (t.now + 1000000) ∧
      (Sparse.wf none s.cal.inForce = true → ∀ r < 3, t.inForceOf (b.val / 64) 4 (b.val % 64) r =
        stepWord 4 (s.inForceOf (b.val / 64) 4 (b.val % 64) r) (s.target (b.val / 64) 4 (b.val % 64) r))) ∧
  (∀ d result run i r, Completes (.calElementEnd d result)
    (fun s => (s.calOf d.val).run = some run ∧ s.calHead d.val = some (5, i, r) ∧ run.measured = false ∧ run.shift = true ∧
      s.microStopped d.val = false ∧ s.now ≤ run.since + 1000000)
    fun s t => t.now = run.since + 1000000 ∧
      (trimAbsolute 5 (result &&& ~~~(mask 15 0)) = true →
        (t.calOf d.val).done_ = (s.calOf d.val).done_ + 1 ∧ (t.calOf d.val).rejected = (s.calOf d.val).rejected) ∧
      (trimAbsolute 5 (result &&& ~~~(mask 15 0)) = false →
        (t.calOf d.val).rejected = (s.calOf d.val).rejected + 1 ∧ (t.calOf d.val).done_ = (s.calOf d.val).done_ ∧
        t.cal.active = s.cal.active ∧ bitAt (t.trouble[(dieWord d.val).val]) 7 = true)) ∧
  (∀ d r o, Completes (.calRunEnd d)
    (fun s => (s.calOf d.val).run = some r ∧ r.left = [] ∧
      (∀ k ∈ [2 * d.val, 2 * d.val + 1], (s.dacSpare k).settled = true ∧ (s.adcSpare k).settled = true) ∧
      (s.host.open_.find? fun o => o.opcode == 0x0C01#16 && o.accept == r.accept) = some o)
    fun s t => (t.calOf d.val).run = none ∧ (t.calOf d.val).state = (if r.early.isSome then 3 else 2) ∧
      t.host.open_ = s.host.open_.erase o) ∧
  Completes .internalCalibrationEnd (fun s => s.boot.phase = 8 ∧ s.boot.calCores < 16 * s.ident.tier.clusters)
    (fun s t => t.boot.calCores = s.boot.calCores + 1)

/-! ## Thermal supervision and main memory (chapter 18, R445 to R447) -/

/-- R415 to R425, R446, R447 and Tables 18.1, 18.4 to 18.7: sensors, levels, throttle steps, shutdown, THERMAL_CONFIG, memory upkeep.
Complete: thermalConfig, sensorPoll, thermalLevelEntry, thermalLevelRelease, throttleStep, thermalShutdown, shutdownDieStandby,
dramTemperatureRead, dramZqUpdate, dramPatrolScrub, meminitComplete. -/
def Obligations.ThermalCompletes : Prop :=
  (∀ p, Answers (.thermalConfig p) thermalConfigCmd p fun s t =>
    let w := wordAt p.payload 0
    (fld w 63 62 = 0 → t.thermal.warn = fld w 61 54 ∧ t.thermal.throttle = fld w 53 46 ∧ t.thermal.level = s.thermal.level) ∧
    (fld w 63 62 = 1 → t.thermal = s.thermal ∧ Posted p (s.host.accept + 1) 0 (some s.thermalWords) t) ∧
    (fld w 63 62 = 2 → t.thermal = s.thermal ∧ ∀ r, s.archive.thermal[fld w 45 37]? = some r →
      Posted p (s.host.accept + 1) 0 (some r.words) t) ∧
    (fld w 63 62 = 3 → t.thermal.skipped = 0 ∧ t.thermal.level = s.thermal.level)) ∧
  (∀ i v, Completes (.sensorPoll i v)
    (fun s => s.supervised i.val = true ∧ (s.sensor i.val).failedAt = none ∧ (s.sensor i.val).devs < 2 ∧
      s.now ≤ (s.sensor i.val).polledAt + s.pollGap i.val)
    fun s t => t.now = (s.sensor i.val).polledAt + s.pollGap i.val ∧ (t.sensor i.val).polledAt = t.now ∧
      (t.sensor i.val).raw = max (-640) (min 2400 v) ∧ (t.sensor i.val).reading = max (-640) (min 2400 v) ∧
      (t.sensor i.val).failedAt = none ∧ t.thermal.level = s.thermal.level) ∧
  (∀ i v n, Completes (.sensorPoll i v)
    (fun s => s.supervised i.val = true ∧ (s.sensor i.val).failedAt = some n)
    fun s t => (t.sensor i.val).raw = max (-640) (min 2400 v) ∧ (t.sensor i.val).reading = s.substitute i.val ∧
      (t.sensor i.val).failedAt = some n) ∧
  (∀ n, Completes .thermalLevelEntry
    (fun s => s.thermal.level = .normal ∧ s.thermal.aboveW = some n ∧ s.now ≤ n + 10000000)
    fun _ t => t.now = n + 10000000 ∧ t.thermal.level = .warn ∧ bitAt t.trouble[0] 3 = true) ∧
  (∀ n, Completes .thermalLevelEntry
    (fun s => s.thermal.level = .warn ∧ s.thermal.aboveT = some n ∧ s.now ≤ n + 10000000)
    fun _ t => t.now = n + 10000000 ∧ t.thermal.level = .throttle ∧ t.thermal.step = 1 ∧ bitAt t.trouble[0] 4 = true) ∧
  (∀ n, Completes .thermalLevelRelease
    (fun s => s.thermal.level = .warn ∧ s.thermal.belowW = some n ∧ s.now ≤ n + 100000000)
    fun s t => t.now = n + 100000000 ∧ t.thermal.level = .normal ∧ t.trouble = s.trouble) ∧
  (∀ n, Completes .thermalLevelRelease
    (fun s => s.thermal.level = .throttle ∧ s.thermal.belowT = some n ∧ s.thermal.pinned = false ∧ s.thermal.step = 1 ∧
      s.now ≤ max n s.thermal.stepAt + 100000000)
    fun s t => t.now = max n s.thermal.stepAt + 100000000 ∧ t.thermal.level = .warn ∧ t.thermal.step = 0) ∧
  (∀ n, Completes .throttleStep
    (fun s => s.thermal.level = .throttle ∧ s.thermal.pinned = false ∧ s.thermal.aboveT = some n ∧ s.thermal.step < 5 ∧
      s.now ≤ max n s.thermal.stepAt + 100000000)
    fun s t => t.now = max n s.thermal.stepAt + 100000000 ∧ t.thermal.step = s.thermal.step + 1 ∧ t.thermal.stepAt = t.now ∧
      t.thermal.level = .throttle) ∧
  (∀ n, Completes .throttleStep
    (fun s => s.thermal.level = .throttle ∧ s.thermal.pinned = false ∧ s.thermal.aboveT = none ∧ s.thermal.belowT = some n ∧
      1 < s.thermal.step ∧ s.now ≤ max n s.thermal.stepAt + 100000000)
    fun s t => t.now = max n s.thermal.stepAt + 100000000 ∧ t.thermal.step = s.thermal.step - 1 ∧ t.thermal.level = .throttle) ∧
  Completes .thermalShutdown (fun s => s.thermal.level ≠ .shutdown ∧ 3 ≤ s.thermal.fast)
    (fun s t => t.now = s.now + 2 ∧ t.thermal.level = .shutdown ∧ t.thermal.shutAt = some s.now ∧ bitAt t.trouble[0] 5 = true ∧
      (∀ o < 96, (t.out o).thermal = true) ∧ (∀ b < 256, (t.ch b).st ≠ .on) ∧
      ∃ r, t.archive.thermal = (r :: s.archive.thermal).take 512 ∧ wordAt r.words 1 = s.tick) ∧
  (∀ d n, Completes (.shutdownDieStandby d)
    (fun s => s.thermal.shutAt = some n ∧ s.hasDie d.val = true ∧ atN s.thermal.dieDown d.val false = false ∧
      (∀ i < 64, (s.ch (64 * d.val + i)).st = .off) ∧ s.now ≤ n + 2000000)
    fun s t => t.now = n + 2000000 ∧ atN t.thermal.dieDown d.val false = true ∧
      (∀ o < 96, outDie o = d.val → (t.out o).cmdMute = true ∧ atN t.power.parked o false = (s.out o).cmdMute) ∧
      ((∀ e < 4, s.hasDie e = true → e ≠ d.val → atN s.thermal.dieDown e false = true) → t.power.st = .standby)) ∧
  (∀ m, Completes (.dramTemperatureRead m)
    (fun s => s.memUp = true ∧ s.now ≤ s.boot.mr4At + 1000000)
    fun s t => t.now = s.boot.mr4At + 1000000 ∧ t.boot.mr4 = m ∧ t.boot.mr4At = t.now) ∧
  Completes .dramZqUpdate (fun s => s.memUp = true ∧ s.now ≤ s.boot.zqAt + 50000000)
    (fun s t => t.now = s.boot.zqAt + 50000000 ∧ t.boot.zqAt = t.now) ∧
  (∀ c a, Completes (.dramPatrolScrub c a false) (fun s => c.val * 2 ^ 26 + a.toNat ∉ s.boot.poison) fun s t => t = s) ∧
  (∀ c a, Completes (.dramPatrolScrub c a true) (fun s => s.memUp = true)
    fun _ t => c.val * 2 ^ 26 + a.toNat ∈ t.boot.poison ∧ bitAt t.trouble[2] c.val = true) ∧
  Completes .meminitComplete (fun s => s.memUp = true) (fun _ t => t.boot.meminit = true)

/-- What calibration, thermal supervision and the upkeep of main memory leave alone. -/
def Obligations.ThermalFrame : Prop :=
  (∀ p, Frame (.calRun p) (withReport [.cal, .bias, .synth, .readout])) ∧ (∀ p, Frame (.trimLoad p) (withReport [.cal])) ∧
  (∀ p, Frame (.trimRead p) report) ∧ Frame .trimTargetUpdate [.time, .cal, .host] ∧ (∀ d c i, Frame (.trimStep d c i) (withReport [.cal, .synth])) ∧
  (∀ b, Frame (.biasTrimStep b) [.time, .cal, .host]) ∧
  (∀ d r, Frame (.calElementEnd d r) (withReport [.time, .cal, .bias, .synth, .readout])) ∧
  (∀ d, Frame (.calRunEnd d) (withReport [.cal])) ∧ Frame .internalCalibrationEnd [.boot] ∧
  (∀ p, Frame (.thermalConfig p) (withReport [.thermal])) ∧ (∀ i v, Frame (.sensorPoll i v) (withReport [.time, .thermal])) ∧
  Frame .thermalLevelEntry (withReport [.time, .thermal]) ∧ Frame .thermalLevelRelease (withReport [.time, .thermal]) ∧
  Frame .throttleStep (withReport [.time, .thermal]) ∧
  (∀ d, Frame (.shutdownDieStandby d) (withReport [.time, .thermal, .power, .synth])) ∧
  (∀ m, Frame (.dramTemperatureRead m) [.time, .boot]) ∧ Frame .dramZqUpdate [.time, .boot] ∧
  (∀ c a u, Frame (.dramPatrolScrub c a u) (withReport [.boot])) ∧ Frame .meminitComplete [.boot] ∧
  ∀ s t, exec .thermalShutdown s = .next t → ∀ k ∈ [Part.pending, .ident, .sec, .boot, .dap], k.same s t

/-! ## Partitions and faults (chapter 15) -/

/-- R17, R361, R367, R370 to R376 and Tables 15.3 to 15.7: partitions, holds, shares, die patches, bridge and die faults.
Complete: partitionDefine, partitionHold, admitShares, holdTimeout, diePatchApply, diePatchEnd, bridgeParityError,
bridgeLaneRetire, uncoveredDieFault. -/
def Obligations.PartitionsComplete : Prop :=
  (∀ p, Answers (.partitionDefine p) partitionDefineCmd p fun s t =>
    (pdMode p = 1 → t.parts = s.parts ∧ Posted p (s.host.accept + 1) 0 (some (s.partWords (pdPart p))) t) ∧
    (pdMode p = 0 → s.pdMoved p = [] → t.parts = s.parts.assign p) ∧
    (pdMode p = 2 → t.parts = s.parts) ∧
    (pdMode p ≠ 1 → s.pdBusy p = true → t.parts = s.parts ∧ t.host.queueFunc = s.host.queueFunc ∧
      ∃ o ∈ t.host.open_, o.packet = p ∧ o.accept = s.host.accept + 1)) ∧
  (∀ p, Answers (.partitionHold p) partitionHoldCmd p fun s t =>
    (fld (wordAt p.payload 0) 63 62 = 0 → ∀ i ∈ phParts p, (t.pt i).st ≠ .running) ∧
    (fld (wordAt p.payload 0) 63 62 = 0 → ∀ i, phParts p = [i] → (s.pt i).st = .running → s.partIdle i = true →
      (∀ q < 256, (s.seqOwner q).val = i → (s.sq q).stepping = false) →
      (t.pt i).st = .held ∧ (t.pt i).heldTick = s.tick.setWidth 32 ∧ (t.pt i).timeoutAt = none) ∧
    (fld (wordAt p.payload 0) 63 62 = 1 → ∀ i ∈ phParts p, (t.pt i).st = .running ∧ (t.pt i).stream = (s.pt i).stream) ∧
    (fld (wordAt p.payload 0) 63 62 = 2 → t.parts = s.parts ∧ t.seqs = s.seqs ∧
      Posted p (s.host.accept + 1) 0 (some ((phParts p).map s.holdWord)) t)) ∧
  (∀ p, Answers (.admitShares p) admitSharesCmd p fun s t =>
    let w := wordAt p.payload
    let part := fld (w 0) 63 60
    (fld (w 0) 59 58 = 0 → part < 8 → (t.pt part).stream = fld (w 1) 63 32 ∧ (t.pt part).acq = fld (w 1) 31 0 ∧
      (t.pt part).bulk = fld (w 2) 63 32 ∧ (t.pt part).memory = fld (w 2) 31 16 ∧ (t.pt part).st = (s.pt part).st ∧
      ∀ q, q ≠ part → t.pt q = s.pt q) ∧
    (fld (w 0) 59 58 = 0 → part = 15 → t.parts.streamTotal = fld (w 1) 63 32 ∧ t.parts.acqTotal = fld (w 1) 31 0 ∧
      t.parts.bulkTotal = fld (w 2) 63 32 ∧ t.parts.part = s.parts.part) ∧
    (fld (w 0) 59 58 = 1 → t.parts = s.parts ∧ Posted p (s.host.accept + 1) 0 (some (s.admitWords part)) t)) ∧
  (∀ k n, Completes (.holdTimeout k) (fun s => (s.pt k.val).timeoutAt = some n ∧ (s.pt k.val).st = .holding ∧ s.now ≤ n)
    fun _ t => t.now = n ∧ (t.pt k.val).timeoutAt = none ∧ (t.pt k.val).st ≠ .running) ∧
  (∀ d, Completes (.diePatchApply d) (fun s => s.parts.patchWaits[d.val] = true ∧ s.patchFree d.val = true)
    fun s t => t.now = s.now + 1 ∧ t.parts.patchWaits[d.val] = false ∧ t.parts.patchSince[d.val] = some t.now) ∧
  (∀ d n, Completes (.diePatchEnd d)
    (fun s => s.parts.patchSince[d.val] = some n ∧ (atN s.units.stores (2 + d.val) {}).pendingPatch = none)
    fun s t => t.parts.patchSince[d.val] = none ∧ t.units = s.units ∧ (∀ r, (s.calOf d.val).run = some r →
      (t.calOf d.val).run = some { r with since := r.since + (s.now - max n r.since) })) ∧
  (∀ d n img, Completes (.diePatchEnd d)
    (fun s => s.parts.patchSince[d.val] = some n ∧ (atN s.units.stores (2 + d.val) {}).pendingPatch = some img)
    fun s t => t.parts.patchSince[d.val] = none ∧ t.units = (s.patchApply img).units ∧ t.sec.patchSt = .ended ∧ t.sec.patchStatus = 0) ∧
  (∀ q, Completes (.bridgeParityError (.cue q)) (fun s => (s.sq q.val).inShot = true ∧ s.hasCluster (seqCluster q.val) = true)
    fun s t => bitAt (t.trouble[(dieWord (dieOf (seqCluster q.val))).val]) 0 = true ∧ flagOf (t.sq q.val).f flagTN = true ∧
      (t.sq q.val).fault = 7 ∧ (t.sq q.val).faultPc = (s.sq q.val).pc ∧ (t.sq q.val).mode = (s.sq q.val).mode ∧
      (t.sq q.val).pc = (s.sq q.val).pc ∧ ∀ k, Binding.drive k ∈ (s.sq q.val).active.toList → (t.slotOf (.drive k)).parity = true) ∧
  (∀ l, Completes (.bridgeParityError (.state l)) (fun s => s.hasCluster (lineCluster l.val) = true)
    fun s t => bitAt (t.trouble[(dieWord (dieOf (lineCluster l.val))).val]) 0 = true ∧ TickAbsent l.val s t) ∧
  (∀ l, Completes (.bridgeParityError (.value l)) (fun s => s.hasCluster (lineCluster l.val) = true)
    fun s t => bitAt (t.trouble[(dieWord (dieOf (lineCluster l.val))).val]) 0 = true ∧ TickAbsent l.val s t) ∧
  (∀ lane e, Completes (.bridgeParityError lane) (fun s => s.hasDie (laneSide lane).1 = true ∧ s.parts.parity = [(lane, e)] ∧ e < s.now ∧
      s.now ≤ e + 1000 ∧ s.parts.worn.contains lane = false)
    fun s t => t.parts.worn = s.parts.worn ++ [lane]) ∧
  (∀ d x, Completes (.bridgeLaneRetire d true) (fun s => s.parts.worn.find? (fun x => laneSide x == (d.val, true)) = some x)
    fun s t => t.parts.worn = s.parts.worn.erase x ∧ t.parts.lanesUp[d.val] = s.parts.lanesUp[d.val] + 1 ∧ t.parts.lanesDown = s.parts.lanesDown ∧
      bitAt (t.trouble[(dieWord d.val).val]) 1 = true ∧ (s.parts.lanesUp[d.val] = 2 → t.parts.dieFailed[d.val] = true)) ∧
  (∀ d x, Completes (.bridgeLaneRetire d false) (fun s => s.parts.worn.find? (fun x => laneSide x == (d.val, false)) = some x)
    fun s t => t.parts.worn = s.parts.worn.erase x ∧ t.parts.lanesDown[d.val] = s.parts.lanesDown[d.val] + 1 ∧ t.parts.lanesUp = s.parts.lanesUp ∧
      bitAt (t.trouble[(dieWord d.val).val]) 1 = true ∧ (s.parts.lanesDown[d.val] = 2 → t.parts.dieFailed[d.val] = true)) ∧
  (∀ d up, Completes (.bridgeLaneRetire d up) (fun s => s.parts.worn.find? (fun x => laneSide x == (d.val, up)) = none)
    fun s t => t = s) ∧
  (∀ d, Completes (.uncoveredDieFault d) (fun s => s.hasDie d.val = true ∧ s.parts.dieFailed[d.val] = false)
    fun _ t => t.parts.dieFailed[d.val] = true ∧ bitAt (t.trouble[(dieWord d.val).val]) 8 = true ∧
      ∀ o < 96, outDie o = d.val → (t.out o).faultMute = true ∧ (t.out o).failed = true)

/-! ## Archive, Ledger and trouble words (chapter 16) -/

/-- R385, R389 to R393 and Tables 16.2, 16.5 and 16.7: the commands of group 0x0D.
Complete: archiveStore, ledgerRead, troubleRead, troubleClear. -/
def Obligations.RecordsComplete : Prop :=
  (∀ p, Answers (.archiveStore p) archiveStoreCmd p fun s t =>
    let w := wordAt p.payload 0
    (fld w 63 62 = 0 → t.archive = { s.archive with st := .running, snapshot := none } ∧
      ∃ o ∈ t.host.open_, o.packet = p ∧ o.long = true ∧ o.accept = s.host.accept + 1) ∧
    (fld w 63 62 = 1 → t.archive = { s.archive with
      staged := Sparse.setList 0 s.archive.staged (fld w 58 39 / 8) (p.payload.drop 1)
      stagedLen := max s.archive.stagedLen (fld w 58 39 / 8 + (p.payload.drop 1).length) }) ∧
    (fld w 63 62 = 2 → t.archive = { s.archive with staged := [], stagedLen := 0 }) ∧
    (fld w 63 62 = 3 → t.archive = s.archive ∧ ∃ a, fld a 60 29 = s.archive.inUse.seq.toNat ∧
      Posted p (s.host.accept + 1) 0 (some [a, orAll [put 63 32 (s.pages.top / 1000), put 31 16 s.pages.spares, put 15 0 s.pages.retired.length]]) t)) ∧
  (∀ p, Answers (.ledgerRead p) ledgerReadCmd p fun s t =>
    let w := wordAt p.payload
    (fld (w 0) 63 62 = 0 → Posted p (s.host.accept + 1) 0 (some (s.ledgerReply
      ((s.ledger.records.reverse.filter fun r => decide ((w 1).toNat ≤ r.seq.toNat)).take (fld (w 0) 61 53))
      (decide ((w 1).toNat < s.ledger.oldest.toNat)))) t) ∧
    (fld (w 0) 63 62 = 1 → ∀ c, s.ledger.checkpoints.find? (fun c => c.anchor.seq = w 1) = some c →
      Posted p (s.host.accept + 1) 0 (some (s.ledgerReply (c.before.reverse ++ [c.anchor]) false)) t) ∧
    (fld (w 0) 63 62 = 2 → ∀ c l, s.ledger.checkpoints = c :: l →
      Posted p (s.host.accept + 1) 0 (some (s.ledgerReply [c.anchor] false)) t)) ∧
  (∀ p, Answers (.troubleRead p) troubleReadCmd p fun s t =>
    let w := wordAt p.payload 0
    let seen := (troubleReadCmd.entry p s).hearAll
    Posted p (s.host.accept + 1) 0 (some (seen.ledger.lastTroubleSet ::
      (List.range (fld w 59 55)).map fun i => seen.troubleSeen (s.funcOf p.source) (fld w 63 60 + i))) t ∧
    ∀ (i : Fin 16) b, bitAt s.trouble[i.val] b = true → bitAt t.trouble[i.val] b = true) ∧
  (∀ p, Answers (.troubleClear p) troubleClearCmd p fun s t =>
    let i := fld (wordAt p.payload 0) 63 60
    let seen := (troubleClearCmd.entry p s).hearAll
    let fresh := seen.setThisTick (Fin.ofNat 16 i)
    Posted p (s.host.accept + 1) 0 (some [seen.ledger.lastTroubleSet, atN seen.trouble i 0]) t ∧
    (∀ b < 64, bitAt (wordAt p.payload 1) b = true → bitAt fresh b = false → ¬(i = 1 ∧ b = 6) → ¬(i = 0 ∧ b = 10) →
      bitAt (atN t.trouble i 0) b = false) ∧
    (∀ b < 64, bitAt fresh b = true → bitAt (atN seen.trouble i 0) b = true → bitAt (atN t.trouble i 0) b = true) ∧
    (∀ b < 64, bitAt (wordAt p.payload 1) b = false → bitAt (atN s.trouble i 0) b = true → bitAt (atN t.trouble i 0) b = true) ∧
    ∀ j < 16, j ≠ i → ∀ b < 64, bitAt (atN s.trouble j 0) b = true → bitAt (atN t.trouble j 0) b = true)

/-! ## Security (chapter 17) -/

/-- R396 to R398, R402, R403, R405 and Tables 17.2, 17.5, 17.6, 17.11: attestation, debug levels, patches, lifecycle; the steps and
ends of long commands (R309, R324, R385). The signature and the made keys are free values.
Complete: attest, configurationMeasurement, debugUnlock, debugChallengeExpiry, debugLockoutEnd, patchLoad, lifecycleAdvance,
longCommandStep, longCommandEnd. -/
def Obligations.SecurityCompletes : Prop :=
  (∀ p, Answers (.attest p) attestCmd p fun s t => t.sec = s.sec ∧
    (fld (wordAt p.payload 0) 63 62 = 0 → Posted p (s.host.accept + 1) 0 (some (s.reportBody ((p.payload.drop 1).take 4) ++
      words32 (Config.free256 s.free).toNat ++ words32 (Config.free256 (s.free + 1)).toNat)) t) ∧
    (fld (wordAt p.payload 0) 63 62 = 1 → ∀ k, s.sec.identity = some k →
      Posted p (s.host.accept + 1) 0 (some (words32 k.x ++ words32 k.y)) t)) ∧
  Completes .configurationMeasurement
    (fun s => s.units.token.isSome = true ∧ s.boot.phase = 8 ∧ s.now ≤ s.sec.configAt + 60000000000)
    (fun s t => t.now = s.sec.configAt + 60000000000 ∧ t.sec.m3 = Config.free256 s.free ∧ t.sec.configTick = t.tick ∧
      t.sec.configAt = t.now) ∧
  (∀ p, Answers (.debugUnlock p) debugUnlockCmd p fun s t =>
    let a := fld (wordAt p.payload 0) 63 62
    let n := fld (wordAt p.payload 0) 61 60
    (a = 0 → s.ownerLevel n = true → t.host.sessions = s.host.sessions ∧ t.sec.challenge =
      some { value := Config.free256 s.free, handle := p.handle, level := n, issuedAt := s.now }) ∧
    (a = 0 → s.ownerLevel n = false →
      t.host.sessions = (s.setLevel p.handle (max n (s.levelOf p))).host.sessions ∧ t.sec = s.sec) ∧
    (a = 1 → s.responseOk p = true → t.host.sessions = (s.setLevel p.handle (max n (s.levelOf p))).host.sessions ∧
      t.sec.challenge = none ∧ t.sec.fails = 0) ∧
    (a = 1 → s.responseOk p = false → t.host.sessions = s.host.sessions ∧ t.sec.challenge = none ∧ t.sec.fails = s.sec.fails + 1 ∧
      (3 ≤ s.sec.fails + 1 → t.sec.lockoutAt = some s.now) ∧ Posted p (s.host.accept + 1) 0x0604 none t) ∧
    (a = 2 → t.host.sessions = (s.setLevel p.handle n).host.sessions ∧ t.sec = s.sec) ∧
    (a = 3 → t.host.sessions = s.host.sessions ∧ t.sec = s.sec ∧ Posted p (s.host.accept + 1) 0 (some (s.unlockWords p none)) t)) ∧
  (∀ c, Completes .debugChallengeExpiry (fun s => s.sec.challenge = some c ∧ s.now ≤ c.issuedAt + 60000000000)
    fun s t => t.now = c.issuedAt + 60000000000 ∧ t.sec = { s.sec with challenge := none }) ∧
  (∀ n, Completes .debugLockoutEnd (fun s => s.sec.lockoutAt = some n ∧ s.now ≤ n + 60000000000)
    fun s t => t.now = n + 60000000000 ∧ t.sec = { s.sec with lockoutAt := none, fails := 0 }) ∧
  (∀ p, Answers (.patchLoad p) patchLoadCmd p fun s t =>
    let w := wordAt p.payload 0
    (fld w 63 61 = 0 → t.sec = { s.sec with
      staging := Sparse.setList 0 s.sec.staging (fld w 58 38) (p.payload.drop 1)
      stagedLen := max s.sec.stagedLen (fld w 58 38 + (p.payload.drop 1).length) }) ∧
    (fld w 63 61 = 1 → t.sec = { s.sec with patchSt := .running } ∧ ∃ o ∈ t.host.open_, o.packet = p ∧ o.long = true) ∧
    (fld w 63 61 = 2 → t.sec = { s.sec with staging := [], stagedLen := 0 }) ∧
    (fld w 63 61 = 3 → t.sec = s.sec) ∧
    (fld w 63 61 = 4 → t.sec = { s.sec with floor := s.units.a.release })) ∧
  (∀ p, Answers (.lifecycleAdvance p) lifecycleAdvanceCmd p fun s t =>
    (fld (wordAt p.payload 0) 63 62 = 2 → t.sec = s.sec ∧ Posted p (s.host.accept + 1) 0 (some s.lifecycleWords) t) ∧
    (fld (wordAt p.payload 0) 63 62 ≠ 2 → t.sec = { s.sec with moving := true } ∧
      ∃ o ∈ t.host.open_, o.packet = p ∧ o.long = true ∧ o.accept = s.host.accept + 1)) ∧
  (∀ a o, Completes (.longCommandStep a)
    (fun s => s.longAny a = some o ∧ s.units.token.isSome = true ∧ s.units.switching = false ∧ o.opcode = 0x0D01 ∧
      s.archive.snapshot = none)
    fun s t => t.archive = { s.archive with snapshot := some (fld (wordAt o.packet.payload 0) 61 59,
        s.storeImage (fld (wordAt o.packet.payload 0) 61 59)) } ∧
      t.host.open_ = s.host.open_.map fun x => if x = o then { o with steps := o.steps + 1 } else x) ∧
  (∀ a o, Completes (.longCommandStep a)
    (fun s => s.longAny a = some o ∧ s.units.token.isSome = true ∧ s.units.switching = false ∧ o.opcode ≠ 0x0D01 ∧ o.opcode ≠ 0x0E04)
    fun s t => t.host.open_ = (s.host.open_.map fun x => if x = o then { o with steps := o.steps + 1 } else x) ∧ t.archive = s.archive ∧
      t.sec = s.sec) ∧
  (∀ a o, Completes (.longCommandStep a)
    (fun s => s.longAny a = some o ∧ s.units.token.isSome = true ∧ s.units.switching = false ∧ o.opcode = 0x0E04 ∧ o.steps = 0)
    fun s t =>
      let w := wordAt o.packet.payload 0
      let key : PubKey := { x := num32 o.packet.payload 1, y := num32 o.packet.payload 5 }
      (fld w 63 62 = 1 → t.sec = { s.sec with owner := some key }) ∧
      (fld w 63 62 = 0 → fld w 61 60 = 1 → s.transitionOk 1 (bitAt w 59) = true → t.sec.lifecycle = .provisioned ∧ t.sec.owner = some key ∧ t.sec.identity.isSome = true) ∧
      (fld w 63 62 = 0 → fld w 61 60 = 2 → s.transitionOk 2 (bitAt w 59) = true → t.sec = { s.sec with lifecycle := .deployed }) ∧
      (fld w 63 62 = 0 → fld w 61 60 = 3 → bitAt w 59 = false → s.transitionOk 3 false = true → t.sec.lifecycle = .retired ∧ t.sec.purged = s.sec.purged ∧
        (∀ o < 96, (t.out o).cmdMute = true) ∧ ∀ b < 256, (t.ch b).st ≠ .on) ∧
      (fld w 63 62 = 0 → fld w 61 60 = 3 → bitAt w 59 = true → s.transitionOk 3 true = true → t.sec.purged = true ∧ t.sec.identity = none ∧ t.sec.owner = none ∧
        t.sec.keysErased = true ∧ t.archive.x = {} ∧ t.archive.y = {} ∧ t.archive.privA = {} ∧ t.archive.privB = {})) ∧
  (∀ a o k img, Completes (.longCommandEnd a)
    (fun s => s.longOf a = some o ∧ s.units.token.isSome = true ∧ o.opcode = 0x0D01 ∧ o.steps ≠ 0 ∧ s.archive.snapshot = some (k, img))
    fun s t => t.archive = { s.archive.store img with st := .ended, snapshot := none } ∧
      t.host.open_ = s.host.open_.erase o) ∧
  (∀ a o, Completes (.longCommandEnd a)
    (fun s => s.longOf a = some o ∧ s.units.token.isSome = true ∧ o.opcode = 0x0E04 ∧ o.steps ≠ 0)
    fun s t => t.sec = { s.sec with moving := false } ∧ t.host.open_ = s.host.open_.erase o ∧
      (s.sec.purged = false → t.archive = s.archive.store (s.storeImage 7)) ∧ (s.sec.purged = true → t.archive = s.archive)) ∧
  (∀ a o, Completes (.longCommandEnd a)
    (fun s => s.longOf a = some o ∧ s.units.token.isSome = true ∧ o.opcode = 0x0E03 ∧ s.diePatching = false ∧
      sm3 (wordsBytes (Sparse.slice 0 s.sec.staging 0 (fld (wordAt o.packet.payload 5) 63 32 / 8))) ≠ num32 o.packet.payload 1)
    fun s t => t.sec = { s.sec with patchSt := .refused, patchStatus := 0x0601 } ∧ t.archive = s.archive ∧
      t.host.open_ = s.host.open_.erase o)

/-! ## Power, resets and start-up (chapters 17, 19 and 20) -/

/-- R408 to R411, R427, R428, R437 to R443, R453 and Tables 17.8, 17.9, 19.9, 19.10: power states, reset sources, start-up.
Complete: powerState, powerStepEnd, railUndervoltage, powerOnReset, hardReset, hardResetRampEnd, perst, pfFlr, vfFlr,
pcieD3hotEntry, pcieLinkUp, startupPhaseEnd. -/
def Obligations.PowerCompletes : Prop :=
  (∀ p, Answers (.powerState p) powerStateCmd p fun s t =>
    let w := wordAt p.payload 0
    (fld w 63 62 = 1 → t.power = s.power ∧ Posted p (s.host.accept + 1) 0 (some s.powerWords) t) ∧
    (fld w 63 62 = 0 → powerOf (fld w 61 60) = s.power.st → t.power = s.power) ∧
    (fld w 63 62 = 0 → powerOf (fld w 61 60) ≠ s.power.st → t.power.st = s.power.st ∧ t.power.target = powerOf (fld w 61 60) ∧
      t.power.step = some (s.power.st.toward (powerOf (fld w 61 60))) ∧ ∃ o ∈ t.host.open_, o.packet = p ∧ o.long = true)) ∧
  (∀ n e, Completes .powerStepEnd
    (fun s => s.power.step = some n ∧ s.power.st = .run ∧ s.seqsBusy = true ∧ s.power.timeoutAt = some e ∧ s.now ≤ e)
    fun _ t => t.now = e ∧ t.power.timeoutAt = none ∧ t.power.st = .run ∧ t.power.step = some n) ∧
  (∀ n, Completes .powerStepEnd (fun s => s.power.step = some n ∧ s.power.st = .run ∧ s.seqsBusy = false)
    fun s t => t.power.st = n ∧ t.power.lastTick = s.tick ∧ (∀ b < 256, (t.ch b).run = .idle) ∧ ∀ o < 96, (t.out o).cmdMute = true) ∧
  (∀ n, Completes .powerStepEnd (fun s => s.power.step = some n ∧ s.power.st = .hold)
    fun s t => t.power.st = n ∧ t.power.lastTick = s.tick) ∧
  (∀ n, Completes .powerStepEnd (fun s => s.power.step = some n ∧ s.power.st = .standby ∧ n ≠ .dormant)
    fun s t => t.power.st = n ∧ t.power.lastTick = s.tick) ∧
  Completes .powerStepEnd (fun s => s.power.step = some .dormant ∧ s.power.st = .standby ∧ ∀ b < 256, (s.ch b).st = .off)
    (fun s t => t.power.st = .dormant ∧ t.host.sessions = [] ∧ t.boot.phase = 10 ∧ t.sec.lifecycle = s.sec.lifecycle ∧
      t.trouble = s.trouble) ∧
  (∀ vio, Completes (.railUndervoltage vio) (fun _ => True)
    fun s t => t.boot.suppliesGood = false ∧ t.boot.phase = 0 ∧ t.host.sessions = [] ∧ (∀ o < 96, t.out o = {}) ∧
      (∀ b < 256, (t.ch b).st = .off) ∧ t.sec.lifecycle = s.sec.lifecycle ∧ t.sec.purged = s.sec.purged ∧
      (vio = false → s.boot.vioGood = true → t.trouble = s.trouble) ∧ (vio = true → t.trouble = Vector.replicate 16 0)) ∧
  Completes .powerOnReset (fun s => s.boot.suppliesGood = false)
    (fun _ t => t.boot.suppliesGood = true ∧ t.boot.phase = 0 ∧ t.boot.resetCause = 0) ∧
  Completes .hardReset (fun s => s.boot.suppliesGood = true ∧ s.boot.hardRamp = false ∧ s.power.st ≠ .dormant)
    (fun _ t => t.boot.phase = 9 ∧ t.boot.hardRamp = true ∧ t.host.fetched = [] ∧ t.host.waiting = [] ∧ t.host.held = [] ∧
      (∀ o < 96, (t.out o).cmdMute = true) ∧ ∀ b < 256, (t.ch b).st ≠ .on) ∧
  Completes .hardReset (fun s => s.boot.suppliesGood = true ∧ s.boot.hardRamp = false ∧ s.power.st = .dormant)
    (fun s t => t.boot.phase = 0 ∧ t.boot.resetCause = 1 ∧ t.power.st = .run ∧ t.trouble = s.trouble) ∧
  Completes .hardResetRampEnd (fun s => s.boot.hardRamp = true ∧ ∀ b < 256, (s.ch b).st = .off)
    (fun s t => t.boot.phase = 0 ∧ t.boot.resetCause = 1 ∧ t.boot.hardRamp = false ∧ t.host.sessions = [] ∧ t.host.open_ = [] ∧
      t.trouble = s.trouble ∧ t.sec.lifecycle = s.sec.lifecycle ∧ ∀ q < 256, (t.sq q).mode = .idle ∨ (t.sq q).mode = .failed) ∧
  Completes .perst (fun s => s.boot.suppliesGood = true ∧ s.power.st ≠ .dormant)
    (fun s t => t.boot.perst = true ∧ t.boot.linkUp = false ∧ t.boot.vfEnable = false ∧ t.host.msixMask = Vector.replicate 2048 true ∧
      t.host.sessions = (s.host.sessions.filter fun x => !decide (x.func < 9)) ∧ t.seqs = s.seqs ∧ t.synth = s.synth) ∧
  Completes .perst (fun s => s.boot.suppliesGood = true ∧ s.power.st = .dormant)
    (fun _ t => t.boot.resetCause = 3 ∧ t.boot.phase = 1 ∧ t.power.st = .run ∧ t.boot.perst = true) ∧
  Completes .pfFlr (fun s => s.boot.linkUp = true)
    (fun s t => t.host.sessions = (s.host.sessions.filter fun x => !decide (x.func < 9)) ∧ t.boot.vfEnable = false ∧ t.seqs = s.seqs ∧
      ∀ o ∈ t.host.open_, ∀ q, o.packet.source = .queue q → s.funcOf o.packet.source < 9 → o.silent = true) ∧
  (∀ f, Completes (.vfFlr f) (fun s => s.boot.linkUp = true ∧ s.boot.vfEnable = true)
    fun s t => t.host.sessions = (s.host.sessions.filter fun x => !(x.func == f.val + 1)) ∧ t.boot.vfEnable = true ∧ t.seqs = s.seqs) ∧
  (∀ f, Completes (.pcieD3hotEntry f) (fun s => s.boot.linkUp = true ∧ (f.val = 0 ∨ s.boot.vfEnable = true))
    fun s t => t.boot.d3hot[f.val] = true ∧ t.host = s.host) ∧
  Completes .pcieLinkUp (fun s => s.boot.suppliesGood = true ∧ 1 < s.boot.phase ∧ s.power.st ≠ .dormant ∧ s.boot.linkUp = false)
    (fun _ t => t.boot.linkUp = true ∧ t.boot.perst = false) ∧
  (∀ r, Completes (.startupPhaseEnd r) (fun s => s.boot.suppliesGood = true ∧ s.boot.hardRamp = false ∧ s.boot.phase = 0)
    fun s t => t.boot.phase = 1 ∧ t.boot.straps = s.boot.strapBalls) ∧
  (∀ r, Completes (.startupPhaseEnd r) (fun s => s.boot.suppliesGood = true ∧ s.boot.hardRamp = false ∧ s.boot.phase = 1)
    fun _ t => t.boot.phase = 2) ∧
  (∀ r, Completes (.startupPhaseEnd r)
    (fun s => s.boot.suppliesGood = true ∧ s.boot.hardRamp = false ∧ s.boot.phase = 2 ∧ s.units.token.isSome = true)
    fun _ t => t.boot.phase = 3) ∧
  (∀ r, Completes (.startupPhaseEnd r)
    (fun s => s.boot.suppliesGood = true ∧ s.boot.hardRamp = false ∧ s.boot.phase = 3 ∧ r.faults.contains .identity = true)
    fun _ t => t.boot.phase = 15 ∧ t.boot.failCause = 5) ∧
  (∀ r, Completes (.startupPhaseEnd r)
    (fun s => s.boot.suppliesGood = true ∧ s.boot.hardRamp = false ∧ s.boot.phase = 4 ∧ s.time.pll ≠ .unlocked ∧ s.boot.hot = false)
    fun _ t => t.boot.phase = 5) ∧
  (∀ r, Completes (.startupPhaseEnd r) (fun s => s.boot.suppliesGood = true ∧ s.boot.hardRamp = false ∧ s.boot.phase = 5 ∧ r.faults = [])
    fun _ t => t.boot.phase = 6 ∧ t.ledger.resumed = true ∧ t.ledger.early = []) ∧
  (∀ r, Completes (.startupPhaseEnd r)
    (fun s => s.boot.suppliesGood = true ∧ s.boot.hardRamp = false ∧ s.boot.phase = 5 ∧ r.faults.contains .dramTraining = true)
    fun _ t => t.boot.phase = 15 ∧ t.boot.failCause = 2) ∧
  (∀ r, Completes (.startupPhaseEnd r) (fun s => s.boot.suppliesGood = true ∧ s.boot.hardRamp = false ∧ s.boot.phase = 6)
    fun _ t => t.boot.phase = 7) ∧
  (∀ r, Completes (.startupPhaseEnd r)
    (fun s => s.boot.suppliesGood = true ∧ s.boot.hardRamp = false ∧ s.boot.phase = 7 ∧ s.training = false)
    fun _ t => t.boot.phase = 8)

/-! ## Debug port, test access port and SMBus (chapters 17 and 19) -/

/-- R407, R433 to R436 and Tables 17.12 and 17.13: the debug access port, the test access port, the SMBus target.
Complete: dapQueueWrite, dapQueueRead, dapDoorbell, dapRawRead, dapRawWrite, dapBadOperation, dapOperationEnd, dapCaptureDr,
jtagIdcode, jtagSamplePreload, jtagExtest, jtagClamp, jtagHighz, jtagDap, jtagBypass, jtagTestLogicReset, smbusIdentity,
smbusMailbox, smbusTemps, smbusTrouble, smbusWake, smbusUnknownCommand, smbusAlertResponse. -/
def Obligations.DebugPortCompletes : Prop :=
  (∀ s : State, s.smbAlert = true ↔ s.thermal.level = .warn ∨ s.thermal.level = .throttle ∨ s.thermal.level = .shutdown) ∧
  (∀ a v, Completes (.dapQueueWrite a v) (fun s => s.dapReady = true ∧ s.dormant = false ∧ a.toNat % 8 = 0 ∧ a.toNat < 0x400)
    fun s t => t.dap.area = Sparse.set 0 s.dap.area (a.toNat / 8) v ∧ t.dap.busy = true ∧ t.dap.nextStatus = 0 ∧ t.dap.addr = a) ∧
  (∀ v, Completes (.dapQueueWrite 0x800 v)
    (fun s => s.dapReady = true ∧ s.dormant = false ∧ bitAt v 0 = true ∧ s.host.debugQueue.qstate = .disabled)
    fun _ t => t.host.debugQueue.qstate = .enabled ∧ t.host.debugQueue.sqHead = 0 ∧ t.dap.nextStatus = 0) ∧
  (∀ a v, Completes (.dapQueueWrite a v) (fun s => s.dapReady = true ∧ s.dormant = true)
    fun s t => t.dap = { s.dap with busy := true, addr := a, nextStatus := 4, nextData := s.dap.data } ∧ t.host = s.host) ∧
  (∀ a, Completes (.dapQueueRead a) (fun s => s.dapReady = true ∧ a.toNat % 8 = 0 ∧ 0x900 ≤ a.toNat ∧ a.toNat ≤ 0x910)
    fun s t => t.dap.nextStatus = 0 ∧ t.dap.nextData = wordAt s.identityBlock ((a.toNat - 0x900) / 8)) ∧
  (∀ a, Completes (.dapQueueRead a)
    (fun s => s.dapReady = true ∧ s.dormant = false ∧ a.toNat % 8 = 0 ∧ 0x400 ≤ a.toNat ∧ a.toNat < 0x800)
    fun s t => t.dap.nextStatus = 0 ∧ t.dap.nextData = s.debugSlot ((a.toNat - 0x400) / 8)) ∧
  (∀ v, Completes (.dapDoorbell v)
    (fun s => s.dapReady = true ∧ s.dormant = false ∧ bitAt v 63 = false ∧ bitAt v 31 = true ∧ s.host.debugQueue.qstate = .enabled ∧
      fld v 11 0 < 16 ∧ (s.host.debugQueue.sqTail.toNat + 16 - s.host.debugQueue.sqHead.toNat) % 16 ≤
        (fld v 11 0 + 16 - s.host.debugQueue.sqHead.toNat) % 16)
    fun s t => t.host.debugQueue = { s.host.debugQueue with sqTail := BitVec.ofNat 12 (fld v 11 0) } ∧ t.dap.nextStatus = 0) ∧
  (∀ v, Completes (.dapDoorbell v)
    (fun s => s.dapReady = true ∧ s.dormant = false ∧ bitAt v 63 = false ∧ bitAt v 31 = true ∧ s.host.debugQueue.live = false)
    fun s t => t.host.debugQueue = { s.host.debugQueue with sqTail := BitVec.ofNat 12 (fld v 11 0) } ∧ t.dap.nextStatus = 0) ∧
  (∀ a n, Completes (.dapRawRead a)
    (fun s => s.dapReady = true ∧ s.dormant = false ∧ a.toNat % 8 = 0 ∧ rawLevel a = some n ∧ s.rawAllowed a n = true)
    fun s t => t.dap.nextStatus = 0 ∧ t.dap.nextData = s.rawRead a (Config.freeWord s.free)) ∧
  (∀ a n, Completes (.dapRawRead a)
    (fun s => s.dapReady = true ∧ s.dormant = false ∧ a.toNat % 8 = 0 ∧ rawLevel a = some n ∧ s.rawAllowed a n = false)
    fun s t => t.dap.nextStatus = 2 ∧ t.dap.nextData = s.dap.data ∧ t.ledger = s.ledger) ∧
  (∀ a v n, Completes (.dapRawWrite a v)
    (fun s => s.dapReady = true ∧ s.dormant = false ∧ a.toNat % 8 = 0 ∧ rawLevel a = some n ∧ rawRegion a = 0x30 ∧ s.rawAllowed a 3 = true)
    fun s t => t.dap.nextStatus = 0 ∧ (t.sq (rawOff a / 8 / 4096)).prog =
      Sparse.set 0 (s.sq (rawOff a / 8 / 4096)).prog (rawOff a / 8 % 4096) v) ∧
  (∀ a v n, Completes (.dapRawWrite a v)
    (fun s => s.dapReady = true ∧ s.dormant = false ∧ a.toNat % 8 = 0 ∧ rawLevel a = some n ∧ s.rawAllowed a 3 = false)
    fun s t => t.dap.nextStatus = 2 ∧ t.seqs = s.seqs ∧ t.ledger = s.ledger) ∧
  Completes .dapBadOperation (fun s => s.dapReady = true ∧ s.dormant = false) (fun _ t => t.dap.busy = true ∧ t.dap.nextStatus = 3) ∧
  Completes .dapOperationEnd (fun s => s.dap.busy = true)
    (fun s t => t.dap = { s.dap with busy := false, status := s.dap.nextStatus, data := s.dap.nextData }) ∧
  Completes .dapCaptureDr (fun s => s.boot.jtag.ir = 0x40)
    (fun s t =>
      let v := (if s.dap.busy then 1 else s.dap.status) * 2 ^ 112 + s.dap.addr.toNat * 2 ^ 64 + s.dap.data.toNat
      t.dap = { s.dap with dr := BitVec.ofNat 120 v }) ∧
  Completes .jtagIdcode (fun _ => True)
    (fun s t => t.boot.jtag = { s.boot.jtag with ir := 0x01, test := .none, dr := s.idcode }) ∧
  (∀ v, Completes (.jtagSamplePreload v) (fun _ => True)
    fun _ t => t.boot.jtag.ir = 0x02 ∧ t.boot.jtag.preload = v ∧ t.boot.jtag.test = .none) ∧
  Completes .jtagExtest (fun s => s.pinsSafe = true) (fun _ t => t.boot.jtag.ir = 0x03 ∧ t.boot.jtag.test = .extest ∧ t.boot.jtag.refused = false) ∧
  Completes .jtagExtest (fun s => s.pinsSafe = false) (fun _ t => t.boot.jtag.test = .none ∧ t.boot.jtag.refused = true) ∧
  Completes .jtagClamp (fun s => s.pinsSafe = true) (fun _ t => t.boot.jtag.ir = 0x04 ∧ t.boot.jtag.test = .clamp ∧ t.boot.jtag.refused = false) ∧
  Completes .jtagHighz (fun s => s.pinsSafe = true) (fun _ t => t.boot.jtag.ir = 0x05 ∧ t.boot.jtag.test = .highz ∧ t.boot.jtag.refused = false) ∧
  Completes .jtagDap (fun _ => True) (fun _ t => t.boot.jtag.ir = 0x40 ∧ t.boot.jtag.test = .none) ∧
  Completes .jtagBypass (fun _ => True) (fun _ t => t.boot.jtag.ir = 0xFF ∧ t.boot.jtag.test = .none) ∧
  Completes .jtagTestLogicReset (fun _ => True) (fun s t => t.boot.jtag.ir = 0x01 ∧ t.boot.jtag.dr = s.idcode ∧ t.boot.jtag.test = .none) ∧
  Completes .smbusIdentity (fun s => s.smbusUp = true) (fun s t => t.boot.smbus = wordsBytes (s.mailbox.drop 2)) ∧
  Completes .smbusMailbox (fun s => s.smbusUp = true) (fun s t => t.boot.smbus = wordsBytes s.mailbox) ∧
  Completes .smbusTemps (fun s => s.smbusUp = true)
    (fun s t => t.boot.smbus = s.temp16 (List.range 72) ++ (List.range 5).flatMap fun d => s.temp16 (dieSensors d)) ∧
  Completes .smbusTrouble (fun s => s.smbusUp = true) (fun s t => t.boot.smbus = wordsBytes [s.trouble[0], s.trouble[1]]) ∧
  Completes (.smbusWake 0x57) (fun s => s.smbusUp = true ∧ s.dormant = true)
    (fun s t => t.boot.phase = 1 ∧ t.boot.resetCause = 2 ∧ t.power.st = .run ∧ t.sec.lifecycle = s.sec.lifecycle) ∧
  (∀ v, Completes (.smbusWake v) (fun s => v ≠ 0x57 ∨ s.dormant = false) fun s t => t = s) ∧
  (∀ c, Completes (.smbusUnknownCommand c) (fun _ => True) fun s t => t.boot = { s.boot with smbus := [] }) ∧
  Completes .smbusAlertResponse (fun s => s.smbusUp = true)
    (fun s t => (s.thermal.level ≠ .normal → t.boot.smbus = [0x58 + s.ident.smbAddr.toNat]) ∧ (s.thermal.level = .normal → t.boot.smbus = []))

/-- What partitions, records, security, and the debug, test and SMBus ports leave alone. -/
def Obligations.ServiceFrame : Prop :=
  (∀ p, Frame (.partitionDefine p) (withReport [.parts, .acq])) ∧ (∀ p, Frame (.admitShares p) (withReport [.parts])) ∧
  (∀ d, Frame (.diePatchApply d) [.time, .parts]) ∧ (∀ d, Frame (.diePatchEnd d) (withReport [.parts, .units, .sec, .cal])) ∧
  (∀ l, Frame (.bridgeParityError l) (withReport [.parts, .synth, .seqs, .readout, .est])) ∧
  (∀ d u, Frame (.bridgeLaneRetire d u) (withReport [.parts, .synth])) ∧ (∀ d, Frame (.uncoveredDieFault d) (withReport [.parts, .synth])) ∧
  (∀ p, Frame (.archiveStore p) (withReport [.archive])) ∧ (∀ p, Frame (.ledgerRead p) report) ∧ (∀ p, Frame (.troubleRead p) report) ∧
  (∀ p, Frame (.troubleClear p) (withReport [.synth])) ∧ (∀ p, Frame (.attest p) report) ∧ Frame .configurationMeasurement [.time, .sec, .free] ∧
  (∀ p, Frame (.debugUnlock p) (withReport [.sec])) ∧ Frame .debugChallengeExpiry [.time, .sec] ∧ Frame .debugLockoutEnd [.time, .sec] ∧
  (∀ p, Frame (.patchLoad p) (withReport [.sec])) ∧ (∀ p, Frame (.lifecycleAdvance p) (withReport [.sec])) ∧
  Frame .powerOnReset [.boot] ∧ (∀ s t, exec .perst s = .next t → s.power.st ≠ .dormant → Only (withReport [.boot]) s t) ∧
  Frame .pfFlr (withReport [.boot]) ∧ (∀ f, Frame (.vfFlr f) (withReport [.boot])) ∧ (∀ f, Frame (.pcieD3hotEntry f) [.boot]) ∧ Frame .pcieLinkUp [.boot] ∧
  (∀ a v, Frame (.dapQueueWrite a v) (withReport [.dap])) ∧ (∀ a, Frame (.dapQueueRead a) [.dap]) ∧ (∀ v, Frame (.dapDoorbell v) (withReport [.dap])) ∧
  (∀ a, Frame (.dapRawRead a) (withReport [.dap])) ∧
  (∀ a v, Frame (.dapRawWrite a v) (withReport [.dap, .conc, .seqs, .est, .units, .archive, .wave, .readout, .synth])) ∧
  Frame .dapBadOperation [.dap] ∧ Frame .dapOperationEnd (withReport [.dap]) ∧ Frame .dapCaptureDr [.dap] ∧
  (∀ v, Frame (.jtagSamplePreload v) [.boot, .free]) ∧
  (∀ i ∈ [Instr.jtagIdcode, .jtagExtest, .jtagClamp, .jtagHighz, .jtagDap, .jtagBypass, .jtagTestLogicReset, .smbusIdentity, .smbusMailbox,
    .smbusTemps, .smbusTrouble, .smbusAlertResponse], Frame i [.boot]) ∧
  ∀ c, Frame (.smbusUnknownCommand c) [.boot]
end

