-- ==== Sys2Proof/Laws/Bits.lean ====
section
/-!
SUPPORT. Laws/Bits.lean: reading after a change in a bank of elements, single bits of a word, and the on-die memories: a read after
a write, and the canonical form that every write keeps.
-/
namespace Sys2Proof.Machine

/-- Reading a bank after a change of one entry. -/
theorem atN_updN {α : Type} {n : Nat} (v : Vector α n) (i j : Nat) (f : α → α) (d : α) :
    atN (updN v i f) j d = if i = j ∧ j < n then f (atN v j d) else atN v j d := by
  unfold updN atN upd
  by_cases e : i = j
  · subst e
    by_cases hi : i < n <;> simp [hi]
  · by_cases hi : i < n <;> by_cases hj : j < n <;> simp [hi, hj, e]

/-- Reading the entry that has changed. -/
@[simp] theorem atN_updN_same {α : Type} {n : Nat} (v : Vector α n) (i : Nat) (f : α → α) (d : α) (h : i < n) :
    atN (updN v i f) i d = f (atN v i d) := by simp [atN_updN, h]

/-- Reading another entry. -/
theorem atN_updN_ne {α : Type} {n : Nat} (v : Vector α n) (i j : Nat) (f : α → α) (d : α) (h : i ≠ j) :
    atN (updN v i f) j d = atN v j d := by simp [atN_updN, h]

/-- Reading a bank after a change of one entry by its index in the bank. -/
theorem getElem_upd {α : Type} {n : Nat} (v : Vector α n) (i j : Fin n) (f : α → α) :
    (upd v i f)[j.val] = if i = j then f v[j.val] else v[j.val] := by
  unfold upd
  by_cases e : i = j
  · subst e; simp
  · simp [e, Fin.val_ne_of_ne e]

/-- A bit that is set in a word is set. -/
theorem bitAt_or_put (x : Word) (b : Nat) (h : b < 64) : bitAt (x ||| put b b 1) b = true := by
  have e : (2 : Nat) ^ b < 18446744073709551616 :=
    Nat.pow_lt_pow_right (a := 2) (n := 64) (by decide) h
  simp [bitAt, put, Nat.one_shiftLeft, Nat.mod_eq_of_lt e, Nat.testBit_two_pow_self]

/-- A bit of a word stays set when another is set. -/
theorem bitAt_or (x y : Word) (b : Nat) (h : bitAt x b = true) : bitAt (x ||| y) b = true := by
  simp only [bitAt, BitVec.toNat_or, Nat.testBit_or, Bool.or_eq_true] at *
  exact .inl h

/-! ## On-die memories -/

section
variable {α : Type} [DecidableEq α] (d : α)

/-- A memory in canonical form from `lo` on is so from below. -/
theorem Sparse.wfFrom_le : ∀ (m : Sparse α) (lo lo' : Nat), lo' ≤ lo → Sparse.wfFrom d lo m = true → Sparse.wfFrom d lo' m = true
  | [], _, _, _, _ => rfl
  | (k, v) :: m, lo, lo', h, w => by
    simp only [Sparse.wfFrom, Bool.and_eq_true, decide_eq_true_eq] at *
    exact ⟨Nat.le_trans h w.1, w.2⟩

/-- Every write keeps the canonical form. -/
theorem Sparse.wfFrom_set : ∀ (m : Sparse α) (lo a : Nat) (v : α), lo ≤ a → Sparse.wfFrom d lo m = true →
    Sparse.wfFrom d lo (Sparse.set d m a v) = true
  | [], lo, a, v, h, _ => by
    unfold Sparse.set
    split
    · rfl
    · simp_all [Sparse.wfFrom]
  | (k, w) :: m, lo, a, v, h, hw => by
    have hw' := hw
    simp only [Sparse.wfFrom, Bool.and_eq_true, decide_eq_true_eq] at hw
    unfold Sparse.set
    split
    · split
      · exact hw'
      · simp only [Sparse.wfFrom, Bool.and_eq_true, decide_eq_true_eq]
        exact ⟨h, ‹_›, by omega, hw.2⟩
    · split
      · split
        · exact Sparse.wfFrom_le d m (k + 1) lo (by omega) hw.2.2
        · simp only [Sparse.wfFrom, Bool.and_eq_true, decide_eq_true_eq]
          exact ⟨hw.1, ‹_›, hw.2.2⟩
      · simp only [Sparse.wfFrom, Bool.and_eq_true, decide_eq_true_eq]
        exact ⟨hw.1, hw.2.1, Sparse.wfFrom_set m (k + 1) a v (by omega) hw.2.2⟩

/-- Every write keeps the canonical form of a whole memory. -/
theorem Sparse.wf_set (m : Sparse α) (a : Nat) (v : α) (h : Sparse.wf d m = true) : Sparse.wf d (Sparse.set d m a v) = true :=
  Sparse.wfFrom_set d m 0 a v (Nat.zero_le a) h

/-- Writing consecutive values keeps it. -/
theorem Sparse.wf_setList : ∀ (l : List α) (m : Sparse α) (a : Nat), Sparse.wf d m = true → Sparse.wf d (Sparse.setList d m a l) = true
  | [], _, _, h => h
  | v :: l, m, a, h => Sparse.wf_setList l _ (a + 1) (Sparse.wf_set d m a v h)

/-- Filling a range keeps it. -/
theorem Sparse.wf_fill : ∀ (n : Nat) (m : Sparse α) (a : Nat) (v : α), Sparse.wf d m = true → Sparse.wf d (Sparse.fill d m a v n) = true
  | 0, _, _, _, h => h
  | n + 1, m, a, v, h => Sparse.wf_fill n _ (a + 1) v (Sparse.wf_set d m a v h)

/-- An address below a memory in canonical form reads as unlisted. -/
theorem Sparse.get_low : ∀ (m : Sparse α) (lo a : Nat), Sparse.wfFrom d lo m = true → a < lo → Sparse.get d m a = d
  | [], _, _, _, _ => rfl
  | (k, v) :: m, lo, a, w, h => by
    simp only [Sparse.wfFrom, Bool.and_eq_true, decide_eq_true_eq] at w
    have : a ≠ k := by omega
    simp only [Sparse.get, this, if_false]
    exact Sparse.get_low m (k + 1) a w.2.2 (by omega)

/-- A read after a write, in a memory in canonical form. -/
theorem Sparse.get_setFrom : ∀ (m : Sparse α) (lo a b : Nat) (v : α), Sparse.wfFrom d lo m = true →
    Sparse.get d (Sparse.set d m a v) b = if b = a then v else Sparse.get d m b
  | [], lo, a, b, v, _ => by
    unfold Sparse.set
    split <;> simp_all [Sparse.get]
  | (k, w) :: m, lo, a, b, v, hw => by
    simp only [Sparse.wfFrom, Bool.and_eq_true, decide_eq_true_eq] at hw
    unfold Sparse.set
    split
    · split
      · by_cases e : b = a
        · subst e
          have : b ≠ k := by omega
          simp only [Sparse.get, this, if_false, if_true]
          rw [Sparse.get_low d m (k + 1) b hw.2.2 (by omega)]
          exact (‹v = d›).symm
        · simp [e]
      · by_cases e : b = a <;> simp [Sparse.get, e]
    · split
      · rename_i h1 h2
        subst h2
        split
        · by_cases e : b = a
          · subst e
            simp only [if_true]
            rw [Sparse.get_low d m (b + 1) b hw.2.2 (by omega)]
            exact (‹v = d›).symm
          · simp [Sparse.get, e]
        · by_cases e : b = a <;> simp [Sparse.get, e]
      · simp only [Sparse.get, Sparse.get_setFrom m (k + 1) a b v hw.2.2]
        by_cases e : b = k
        · subst e
          have : b ≠ a := fun h => ‹¬a = b› h.symm
          simp [this]
        · simp [e]

/-- A read after a write, in a whole memory in canonical form. -/
theorem Sparse.get_set (m : Sparse α) (a b : Nat) (v : α) (h : Sparse.wf d m = true) :
    Sparse.get d (Sparse.set d m a v) b = if b = a then v else Sparse.get d m b := Sparse.get_setFrom d m 0 a b v h

/-- Leaving entries out keeps the canonical form. -/
theorem Sparse.wfFrom_filter (f : Nat × α → Bool) : ∀ (m : Sparse α) (lo : Nat), Sparse.wfFrom d lo m = true →
    Sparse.wfFrom d lo (m.filter f) = true
  | [], _, _ => rfl
  | (k, v) :: m, lo, w => by
    simp only [Sparse.wfFrom, Bool.and_eq_true, decide_eq_true_eq] at w
    rw [List.filter_cons]
    have ih := Sparse.wfFrom_filter f m (k + 1) w.2.2
    split
    · simp only [Sparse.wfFrom, Bool.and_eq_true, decide_eq_true_eq]; exact ⟨w.1, w.2.1, ih⟩
    · exact Sparse.wfFrom_le d _ (k + 1) lo (by omega) ih

/-- Every address of a memory in canonical form from `lo` on is at least `lo`. -/
theorem Sparse.wfFrom_low : ∀ (m : Sparse α) (lo : Nat), Sparse.wfFrom d lo m = true → ∀ e ∈ m, lo ≤ e.1
  | [], _, _, _, h => by simp at h
  | (k, v) :: m, lo, w, e, h => by
    simp only [Sparse.wfFrom, Bool.and_eq_true, decide_eq_true_eq] at w
    rcases List.mem_cons.1 h with rfl | h
    · exact w.1
    · have := Sparse.wfFrom_low m (k + 1) w.2.2 e h; omega

/-- Two memories in canonical form, one below `a` and one from `a` on, join to one. -/
theorem Sparse.wfFrom_append (a : Nat) (m' : Sparse α) : ∀ (m : Sparse α) (lo : Nat), lo ≤ a → Sparse.wfFrom d lo m = true →
    (∀ e ∈ m, e.1 < a) → Sparse.wfFrom d a m' = true → Sparse.wfFrom d lo (m ++ m') = true
  | [], lo, h, _, _, w' => Sparse.wfFrom_le d m' a lo h w'
  | (k, v) :: m, lo, h, w, b, w' => by
    simp only [Sparse.wfFrom, Bool.and_eq_true, decide_eq_true_eq, List.cons_append] at *
    refine ⟨w.1, w.2.1, Sparse.wfFrom_append a m' m (k + 1) ?_ w.2.2 ?_ w'⟩
    · exact b (k, v) (by simp)
    · exact fun e he => b e (by simp [he])

/-- The entries of a memory in canonical form that lie at `a` or above stand in canonical form from `a` on. -/
theorem Sparse.wfFrom_above (a : Nat) : ∀ (m : Sparse α) (lo : Nat), Sparse.wfFrom d lo m = true → (∀ e ∈ m, a ≤ e.1) →
    Sparse.wfFrom d a m = true
  | [], _, _, _ => rfl
  | (k, v) :: m, lo, w, h => by
    simp only [Sparse.wfFrom, Bool.and_eq_true, decide_eq_true_eq] at *
    exact ⟨h (k, v) (by simp), w.2.1, w.2.2⟩

/-- Erasing a range keeps the canonical form. -/
theorem Sparse.wf_erase (m : Sparse α) (a n : Nat) (h : Sparse.wf d m = true) : Sparse.wf d (Sparse.erase m a n) = true :=
  Sparse.wfFrom_filter d _ m 0 h

/-- Copying a range from one memory to another keeps the canonical form. -/
theorem Sparse.wf_copy (dst src : Sparse α) (a n : Nat) (h : Sparse.wf d dst = true) (h' : Sparse.wf d src = true) :
    Sparse.wf d (Sparse.copy dst src a n) = true := by
  unfold Sparse.copy Sparse.wf
  rw [List.append_assoc]
  refine Sparse.wfFrom_append d a _ _ 0 (Nat.zero_le a) (Sparse.wfFrom_filter d _ dst 0 h) ?_ ?_
  · intro e he; simpa using (List.mem_filter.1 he).2
  refine Sparse.wfFrom_append d (a + n) _ _ a (by omega) ?_ ?_ ?_
  · refine Sparse.wfFrom_above d a _ 0 (Sparse.wfFrom_filter d _ src 0 h') ?_
    intro e he; have := (List.mem_filter.1 he).2; simp at this; exact this.1
  · intro e he; have := (List.mem_filter.1 he).2; simp at this; exact this.2
  · refine Sparse.wfFrom_above d (a + n) _ 0 (Sparse.wfFrom_filter d _ dst 0 h) ?_
    intro e he; simpa using (List.mem_filter.1 he).2

end

end Sys2Proof.Machine
end

