-- ==== Sys2Proof/Laws/State.lean ====
section
/-!
SUPPORT. Laws/State.lean: what the shared operations leave as it was, one lemma an operation, so that no proof unfolds them.
-/
namespace Sys2Proof.Machine

/-- A fold of operations that keep a projection keeps it. -/
theorem foldl_keeps {α β : Type} (g : State → β) (f : State → α → State) (h : ∀ s x, g (f s x) = g s) (l : List α) (s : State) :
    g (l.foldl f s) = g s := by
  induction l generalizing s with
  | nil => rfl
  | cons x l ih => rw [List.foldl_cons, ih, h]


@[simp] theorem foldl_pending {α : Type} (f : State → α → State) (h : ∀ s x, (f s x).pending = s.pending) (l : List α) (s : State) :
    (l.foldl f s).pending = s.pending := foldl_keeps (·.pending) f h l s

@[simp] theorem foldl_ident {α : Type} (f : State → α → State) (h : ∀ s x, (f s x).ident = s.ident) (l : List α) (s : State) :
    (l.foldl f s).ident = s.ident := foldl_keeps (·.ident) f h l s

@[simp] theorem foldl_time {α : Type} (f : State → α → State) (h : ∀ s x, (f s x).time = s.time) (l : List α) (s : State) :
    (l.foldl f s).time = s.time := foldl_keeps (·.time) f h l s

@[simp] theorem foldl_host {α : Type} (f : State → α → State) (h : ∀ s x, (f s x).host = s.host) (l : List α) (s : State) :
    (l.foldl f s).host = s.host := foldl_keeps (·.host) f h l s

@[simp] theorem foldl_units {α : Type} (f : State → α → State) (h : ∀ s x, (f s x).units = s.units) (l : List α) (s : State) :
    (l.foldl f s).units = s.units := foldl_keeps (·.units) f h l s

@[simp] theorem foldl_desk {α : Type} (f : State → α → State) (h : ∀ s x, (f s x).desk = s.desk) (l : List α) (s : State) :
    (l.foldl f s).desk = s.desk := foldl_keeps (·.desk) f h l s

@[simp] theorem foldl_parts {α : Type} (f : State → α → State) (h : ∀ s x, (f s x).parts = s.parts) (l : List α) (s : State) :
    (l.foldl f s).parts = s.parts := foldl_keeps (·.parts) f h l s

@[simp] theorem foldl_archive {α : Type} (f : State → α → State) (h : ∀ s x, (f s x).archive = s.archive) (l : List α) (s : State) :
    (l.foldl f s).archive = s.archive := foldl_keeps (·.archive) f h l s

@[simp] theorem foldl_pages {α : Type} (f : State → α → State) (h : ∀ s x, (f s x).pages = s.pages) (l : List α) (s : State) :
    (l.foldl f s).pages = s.pages := foldl_keeps (·.pages) f h l s

@[simp] theorem foldl_ledger {α : Type} (f : State → α → State) (h : ∀ s x, (f s x).ledger = s.ledger) (l : List α) (s : State) :
    (l.foldl f s).ledger = s.ledger := foldl_keeps (·.ledger) f h l s

@[simp] theorem foldl_trouble {α : Type} (f : State → α → State) (h : ∀ s x, (f s x).trouble = s.trouble) (l : List α) (s : State) :
    (l.foldl f s).trouble = s.trouble := foldl_keeps (·.trouble) f h l s

@[simp] theorem foldl_sec {α : Type} (f : State → α → State) (h : ∀ s x, (f s x).sec = s.sec) (l : List α) (s : State) :
    (l.foldl f s).sec = s.sec := foldl_keeps (·.sec) f h l s

@[simp] theorem foldl_power {α : Type} (f : State → α → State) (h : ∀ s x, (f s x).power = s.power) (l : List α) (s : State) :
    (l.foldl f s).power = s.power := foldl_keeps (·.power) f h l s

@[simp] theorem foldl_boot {α : Type} (f : State → α → State) (h : ∀ s x, (f s x).boot = s.boot) (l : List α) (s : State) :
    (l.foldl f s).boot = s.boot := foldl_keeps (·.boot) f h l s

@[simp] theorem foldl_dap {α : Type} (f : State → α → State) (h : ∀ s x, (f s x).dap = s.dap) (l : List α) (s : State) :
    (l.foldl f s).dap = s.dap := foldl_keeps (·.dap) f h l s

@[simp] theorem foldl_seqs {α : Type} (f : State → α → State) (h : ∀ s x, (f s x).seqs = s.seqs) (l : List α) (s : State) :
    (l.foldl f s).seqs = s.seqs := foldl_keeps (·.seqs) f h l s

@[simp] theorem foldl_synth {α : Type} (f : State → α → State) (h : ∀ s x, (f s x).synth = s.synth) (l : List α) (s : State) :
    (l.foldl f s).synth = s.synth := foldl_keeps (·.synth) f h l s

@[simp] theorem foldl_wave {α : Type} (f : State → α → State) (h : ∀ s x, (f s x).wave = s.wave) (l : List α) (s : State) :
    (l.foldl f s).wave = s.wave := foldl_keeps (·.wave) f h l s

@[simp] theorem foldl_readout {α : Type} (f : State → α → State) (h : ∀ s x, (f s x).readout = s.readout) (l : List α) (s : State) :
    (l.foldl f s).readout = s.readout := foldl_keeps (·.readout) f h l s

@[simp] theorem foldl_est {α : Type} (f : State → α → State) (h : ∀ s x, (f s x).est = s.est) (l : List α) (s : State) :
    (l.foldl f s).est = s.est := foldl_keeps (·.est) f h l s

@[simp] theorem foldl_fabric {α : Type} (f : State → α → State) (h : ∀ s x, (f s x).fabric = s.fabric) (l : List α) (s : State) :
    (l.foldl f s).fabric = s.fabric := foldl_keeps (·.fabric) f h l s

@[simp] theorem foldl_conc {α : Type} (f : State → α → State) (h : ∀ s x, (f s x).conc = s.conc) (l : List α) (s : State) :
    (l.foldl f s).conc = s.conc := foldl_keeps (·.conc) f h l s

@[simp] theorem foldl_acq {α : Type} (f : State → α → State) (h : ∀ s x, (f s x).acq = s.acq) (l : List α) (s : State) :
    (l.foldl f s).acq = s.acq := foldl_keeps (·.acq) f h l s

@[simp] theorem foldl_bias {α : Type} (f : State → α → State) (h : ∀ s x, (f s x).bias = s.bias) (l : List α) (s : State) :
    (l.foldl f s).bias = s.bias := foldl_keeps (·.bias) f h l s

@[simp] theorem foldl_cal {α : Type} (f : State → α → State) (h : ∀ s x, (f s x).cal = s.cal) (l : List α) (s : State) :
    (l.foldl f s).cal = s.cal := foldl_keeps (·.cal) f h l s

@[simp] theorem foldl_thermal {α : Type} (f : State → α → State) (h : ∀ s x, (f s x).thermal = s.thermal) (l : List α) (s : State) :
    (l.foldl f s).thermal = s.thermal := foldl_keeps (·.thermal) f h l s

@[simp] theorem foldl_free {α : Type} (f : State → α → State) (h : ∀ s x, (f s x).free = s.free) (l : List α) (s : State) :
    (l.foldl f s).free = s.free := foldl_keeps (·.free) f h l s

@[simp] theorem vfoldl_pending {α : Type} {n : Nat} (f : State → α → State) (h : ∀ s x, (f s x).pending = s.pending) (l : Vector α n) (s : State) :
    (l.foldl f s).pending = s.pending := by
  rw [← Vector.foldl_toList]; exact foldl_keeps (·.pending) f h _ s

@[simp] theorem vfoldl_ident {α : Type} {n : Nat} (f : State → α → State) (h : ∀ s x, (f s x).ident = s.ident) (l : Vector α n) (s : State) :
    (l.foldl f s).ident = s.ident := by
  rw [← Vector.foldl_toList]; exact foldl_keeps (·.ident) f h _ s

@[simp] theorem vfoldl_time {α : Type} {n : Nat} (f : State → α → State) (h : ∀ s x, (f s x).time = s.time) (l : Vector α n) (s : State) :
    (l.foldl f s).time = s.time := by
  rw [← Vector.foldl_toList]; exact foldl_keeps (·.time) f h _ s

@[simp] theorem vfoldl_host {α : Type} {n : Nat} (f : State → α → State) (h : ∀ s x, (f s x).host = s.host) (l : Vector α n) (s : State) :
    (l.foldl f s).host = s.host := by
  rw [← Vector.foldl_toList]; exact foldl_keeps (·.host) f h _ s

@[simp] theorem vfoldl_units {α : Type} {n : Nat} (f : State → α → State) (h : ∀ s x, (f s x).units = s.units) (l : Vector α n) (s : State) :
    (l.foldl f s).units = s.units := by
  rw [← Vector.foldl_toList]; exact foldl_keeps (·.units) f h _ s

@[simp] theorem vfoldl_desk {α : Type} {n : Nat} (f : State → α → State) (h : ∀ s x, (f s x).desk = s.desk) (l : Vector α n) (s : State) :
    (l.foldl f s).desk = s.desk := by
  rw [← Vector.foldl_toList]; exact foldl_keeps (·.desk) f h _ s

@[simp] theorem vfoldl_parts {α : Type} {n : Nat} (f : State → α → State) (h : ∀ s x, (f s x).parts = s.parts) (l : Vector α n) (s : State) :
    (l.foldl f s).parts = s.parts := by
  rw [← Vector.foldl_toList]; exact foldl_keeps (·.parts) f h _ s

@[simp] theorem vfoldl_archive {α : Type} {n : Nat} (f : State → α → State) (h : ∀ s x, (f s x).archive = s.archive) (l : Vector α n) (s : State) :
    (l.foldl f s).archive = s.archive := by
  rw [← Vector.foldl_toList]; exact foldl_keeps (·.archive) f h _ s

@[simp] theorem vfoldl_pages {α : Type} {n : Nat} (f : State → α → State) (h : ∀ s x, (f s x).pages = s.pages) (l : Vector α n) (s : State) :
    (l.foldl f s).pages = s.pages := by
  rw [← Vector.foldl_toList]; exact foldl_keeps (·.pages) f h _ s

@[simp] theorem vfoldl_ledger {α : Type} {n : Nat} (f : State → α → State) (h : ∀ s x, (f s x).ledger = s.ledger) (l : Vector α n) (s : State) :
    (l.foldl f s).ledger = s.ledger := by
  rw [← Vector.foldl_toList]; exact foldl_keeps (·.ledger) f h _ s

@[simp] theorem vfoldl_trouble {α : Type} {n : Nat} (f : State → α → State) (h : ∀ s x, (f s x).trouble = s.trouble) (l : Vector α n) (s : State) :
    (l.foldl f s).trouble = s.trouble := by
  rw [← Vector.foldl_toList]; exact foldl_keeps (·.trouble) f h _ s

@[simp] theorem vfoldl_sec {α : Type} {n : Nat} (f : State → α → State) (h : ∀ s x, (f s x).sec = s.sec) (l : Vector α n) (s : State) :
    (l.foldl f s).sec = s.sec := by
  rw [← Vector.foldl_toList]; exact foldl_keeps (·.sec) f h _ s

@[simp] theorem vfoldl_power {α : Type} {n : Nat} (f : State → α → State) (h : ∀ s x, (f s x).power = s.power) (l : Vector α n) (s : State) :
    (l.foldl f s).power = s.power := by
  rw [← Vector.foldl_toList]; exact foldl_keeps (·.power) f h _ s

@[simp] theorem vfoldl_boot {α : Type} {n : Nat} (f : State → α → State) (h : ∀ s x, (f s x).boot = s.boot) (l : Vector α n) (s : State) :
    (l.foldl f s).boot = s.boot := by
  rw [← Vector.foldl_toList]; exact foldl_keeps (·.boot) f h _ s

@[simp] theorem vfoldl_dap {α : Type} {n : Nat} (f : State → α → State) (h : ∀ s x, (f s x).dap = s.dap) (l : Vector α n) (s : State) :
    (l.foldl f s).dap = s.dap := by
  rw [← Vector.foldl_toList]; exact foldl_keeps (·.dap) f h _ s

@[simp] theorem vfoldl_seqs {α : Type} {n : Nat} (f : State → α → State) (h : ∀ s x, (f s x).seqs = s.seqs) (l : Vector α n) (s : State) :
    (l.foldl f s).seqs = s.seqs := by
  rw [← Vector.foldl_toList]; exact foldl_keeps (·.seqs) f h _ s

@[simp] theorem vfoldl_synth {α : Type} {n : Nat} (f : State → α → State) (h : ∀ s x, (f s x).synth = s.synth) (l : Vector α n) (s : State) :
    (l.foldl f s).synth = s.synth := by
  rw [← Vector.foldl_toList]; exact foldl_keeps (·.synth) f h _ s

@[simp] theorem vfoldl_wave {α : Type} {n : Nat} (f : State → α → State) (h : ∀ s x, (f s x).wave = s.wave) (l : Vector α n) (s : State) :
    (l.foldl f s).wave = s.wave := by
  rw [← Vector.foldl_toList]; exact foldl_keeps (·.wave) f h _ s

@[simp] theorem vfoldl_readout {α : Type} {n : Nat} (f : State → α → State) (h : ∀ s x, (f s x).readout = s.readout) (l : Vector α n) (s : State) :
    (l.foldl f s).readout = s.readout := by
  rw [← Vector.foldl_toList]; exact foldl_keeps (·.readout) f h _ s

@[simp] theorem vfoldl_est {α : Type} {n : Nat} (f : State → α → State) (h : ∀ s x, (f s x).est = s.est) (l : Vector α n) (s : State) :
    (l.foldl f s).est = s.est := by
  rw [← Vector.foldl_toList]; exact foldl_keeps (·.est) f h _ s

@[simp] theorem vfoldl_fabric {α : Type} {n : Nat} (f : State → α → State) (h : ∀ s x, (f s x).fabric = s.fabric) (l : Vector α n) (s : State) :
    (l.foldl f s).fabric = s.fabric := by
  rw [← Vector.foldl_toList]; exact foldl_keeps (·.fabric) f h _ s

@[simp] theorem vfoldl_conc {α : Type} {n : Nat} (f : State → α → State) (h : ∀ s x, (f s x).conc = s.conc) (l : Vector α n) (s : State) :
    (l.foldl f s).conc = s.conc := by
  rw [← Vector.foldl_toList]; exact foldl_keeps (·.conc) f h _ s

@[simp] theorem vfoldl_acq {α : Type} {n : Nat} (f : State → α → State) (h : ∀ s x, (f s x).acq = s.acq) (l : Vector α n) (s : State) :
    (l.foldl f s).acq = s.acq := by
  rw [← Vector.foldl_toList]; exact foldl_keeps (·.acq) f h _ s

@[simp] theorem vfoldl_bias {α : Type} {n : Nat} (f : State → α → State) (h : ∀ s x, (f s x).bias = s.bias) (l : Vector α n) (s : State) :
    (l.foldl f s).bias = s.bias := by
  rw [← Vector.foldl_toList]; exact foldl_keeps (·.bias) f h _ s

@[simp] theorem vfoldl_cal {α : Type} {n : Nat} (f : State → α → State) (h : ∀ s x, (f s x).cal = s.cal) (l : Vector α n) (s : State) :
    (l.foldl f s).cal = s.cal := by
  rw [← Vector.foldl_toList]; exact foldl_keeps (·.cal) f h _ s

@[simp] theorem vfoldl_thermal {α : Type} {n : Nat} (f : State → α → State) (h : ∀ s x, (f s x).thermal = s.thermal) (l : Vector α n) (s : State) :
    (l.foldl f s).thermal = s.thermal := by
  rw [← Vector.foldl_toList]; exact foldl_keeps (·.thermal) f h _ s

@[simp] theorem vfoldl_free {α : Type} {n : Nat} (f : State → α → State) (h : ∀ s x, (f s x).free = s.free) (l : Vector α n) (s : State) :
    (l.foldl f s).free = s.free := by
  rw [← Vector.foldl_toList]; exact foldl_keeps (·.free) f h _ s

@[simp] theorem ite_pending (c : Prop) [Decidable c] (a b : State) : (if c then a else b).pending = if c then a.pending else b.pending := by
  split <;> rfl

@[simp] theorem ite_ident (c : Prop) [Decidable c] (a b : State) : (if c then a else b).ident = if c then a.ident else b.ident := by
  split <;> rfl

@[simp] theorem ite_time (c : Prop) [Decidable c] (a b : State) : (if c then a else b).time = if c then a.time else b.time := by
  split <;> rfl

@[simp] theorem ite_host (c : Prop) [Decidable c] (a b : State) : (if c then a else b).host = if c then a.host else b.host := by
  split <;> rfl

@[simp] theorem ite_units (c : Prop) [Decidable c] (a b : State) : (if c then a else b).units = if c then a.units else b.units := by
  split <;> rfl

@[simp] theorem ite_desk (c : Prop) [Decidable c] (a b : State) : (if c then a else b).desk = if c then a.desk else b.desk := by
  split <;> rfl

@[simp] theorem ite_parts (c : Prop) [Decidable c] (a b : State) : (if c then a else b).parts = if c then a.parts else b.parts := by
  split <;> rfl

@[simp] theorem ite_archive (c : Prop) [Decidable c] (a b : State) : (if c then a else b).archive = if c then a.archive else b.archive := by
  split <;> rfl

@[simp] theorem ite_pages (c : Prop) [Decidable c] (a b : State) : (if c then a else b).pages = if c then a.pages else b.pages := by
  split <;> rfl

@[simp] theorem ite_ledger (c : Prop) [Decidable c] (a b : State) : (if c then a else b).ledger = if c then a.ledger else b.ledger := by
  split <;> rfl

@[simp] theorem ite_trouble (c : Prop) [Decidable c] (a b : State) : (if c then a else b).trouble = if c then a.trouble else b.trouble := by
  split <;> rfl

@[simp] theorem ite_sec (c : Prop) [Decidable c] (a b : State) : (if c then a else b).sec = if c then a.sec else b.sec := by
  split <;> rfl

@[simp] theorem ite_power (c : Prop) [Decidable c] (a b : State) : (if c then a else b).power = if c then a.power else b.power := by
  split <;> rfl

@[simp] theorem ite_boot (c : Prop) [Decidable c] (a b : State) : (if c then a else b).boot = if c then a.boot else b.boot := by
  split <;> rfl

@[simp] theorem ite_dap (c : Prop) [Decidable c] (a b : State) : (if c then a else b).dap = if c then a.dap else b.dap := by
  split <;> rfl

@[simp] theorem ite_seqs (c : Prop) [Decidable c] (a b : State) : (if c then a else b).seqs = if c then a.seqs else b.seqs := by
  split <;> rfl

@[simp] theorem ite_synth (c : Prop) [Decidable c] (a b : State) : (if c then a else b).synth = if c then a.synth else b.synth := by
  split <;> rfl

@[simp] theorem ite_wave (c : Prop) [Decidable c] (a b : State) : (if c then a else b).wave = if c then a.wave else b.wave := by
  split <;> rfl

@[simp] theorem ite_readout (c : Prop) [Decidable c] (a b : State) : (if c then a else b).readout = if c then a.readout else b.readout := by
  split <;> rfl

@[simp] theorem ite_est (c : Prop) [Decidable c] (a b : State) : (if c then a else b).est = if c then a.est else b.est := by
  split <;> rfl

@[simp] theorem ite_fabric (c : Prop) [Decidable c] (a b : State) : (if c then a else b).fabric = if c then a.fabric else b.fabric := by
  split <;> rfl

@[simp] theorem ite_conc (c : Prop) [Decidable c] (a b : State) : (if c then a else b).conc = if c then a.conc else b.conc := by
  split <;> rfl

@[simp] theorem ite_acq (c : Prop) [Decidable c] (a b : State) : (if c then a else b).acq = if c then a.acq else b.acq := by
  split <;> rfl

@[simp] theorem ite_bias (c : Prop) [Decidable c] (a b : State) : (if c then a else b).bias = if c then a.bias else b.bias := by
  split <;> rfl

@[simp] theorem ite_cal (c : Prop) [Decidable c] (a b : State) : (if c then a else b).cal = if c then a.cal else b.cal := by
  split <;> rfl

@[simp] theorem ite_thermal (c : Prop) [Decidable c] (a b : State) : (if c then a else b).thermal = if c then a.thermal else b.thermal := by
  split <;> rfl

@[simp] theorem ite_free (c : Prop) [Decidable c] (a b : State) : (if c then a else b).free = if c then a.free else b.free := by
  split <;> rfl

/-- What `State.advance` keeps. -/
@[simp] theorem State.advance_frame (k : Nat) (s : State) :
    (s.advance k).pending = s.pending ∧ (s.advance k).ident = s.ident ∧ (s.advance k).host = s.host ∧ (s.advance k).units = s.units ∧
    (s.advance k).desk = s.desk ∧ (s.advance k).parts = s.parts ∧ (s.advance k).archive = s.archive ∧ (s.advance k).pages = s.pages ∧
    (s.advance k).ledger = s.ledger ∧ (s.advance k).trouble = s.trouble ∧ (s.advance k).sec = s.sec ∧ (s.advance k).power = s.power ∧
    (s.advance k).boot = s.boot ∧ (s.advance k).dap = s.dap ∧ (s.advance k).seqs = s.seqs ∧ (s.advance k).synth = s.synth ∧
    (s.advance k).wave = s.wave ∧ (s.advance k).readout = s.readout ∧ (s.advance k).est = s.est ∧ (s.advance k).fabric = s.fabric ∧
    (s.advance k).conc = s.conc ∧ (s.advance k).acq = s.acq ∧ (s.advance k).bias = s.bias ∧ (s.advance k).cal = s.cal ∧
    (s.advance k).thermal = s.thermal ∧ (s.advance k).free = s.free := ⟨rfl, rfl, rfl, rfl, rfl, rfl, rfl, rfl, rfl, rfl, rfl, rfl, rfl, rfl, rfl, rfl, rfl, rfl, rfl, rfl, rfl, rfl, rfl, rfl, rfl, rfl⟩

/-- What `State.runTo` keeps. -/
@[simp] theorem State.runTo_frame (n : Nat) (s : State) :
    (s.runTo n).pending = s.pending ∧ (s.runTo n).ident = s.ident ∧ (s.runTo n).host = s.host ∧ (s.runTo n).units = s.units ∧
    (s.runTo n).desk = s.desk ∧ (s.runTo n).parts = s.parts ∧ (s.runTo n).archive = s.archive ∧ (s.runTo n).pages = s.pages ∧
    (s.runTo n).ledger = s.ledger ∧ (s.runTo n).trouble = s.trouble ∧ (s.runTo n).sec = s.sec ∧ (s.runTo n).power = s.power ∧
    (s.runTo n).boot = s.boot ∧ (s.runTo n).dap = s.dap ∧ (s.runTo n).seqs = s.seqs ∧ (s.runTo n).synth = s.synth ∧ (s.runTo n).wave = s.wave ∧
    (s.runTo n).readout = s.readout ∧ (s.runTo n).est = s.est ∧ (s.runTo n).fabric = s.fabric ∧ (s.runTo n).conc = s.conc ∧ (s.runTo n).acq = s.acq ∧
    (s.runTo n).bias = s.bias ∧ (s.runTo n).cal = s.cal ∧ (s.runTo n).thermal = s.thermal ∧ (s.runTo n).free = s.free := ⟨rfl, rfl, rfl, rfl, rfl, rfl, rfl, rfl, rfl, rfl, rfl, rfl, rfl, rfl, rfl, rfl, rfl, rfl, rfl, rfl, rfl, rfl, rfl, rfl, rfl, rfl⟩

/-- What `State.runToCount` keeps. -/
@[simp] theorem State.runToCount_frame (n : Nat) (s : State) :
    (s.runToCount n).pending = s.pending ∧ (s.runToCount n).ident = s.ident ∧ (s.runToCount n).host = s.host ∧ (s.runToCount n).units = s.units ∧
    (s.runToCount n).desk = s.desk ∧ (s.runToCount n).parts = s.parts ∧ (s.runToCount n).archive = s.archive ∧ (s.runToCount n).pages = s.pages ∧
    (s.runToCount n).ledger = s.ledger ∧ (s.runToCount n).trouble = s.trouble ∧ (s.runToCount n).sec = s.sec ∧ (s.runToCount n).power = s.power ∧
    (s.runToCount n).boot = s.boot ∧ (s.runToCount n).dap = s.dap ∧ (s.runToCount n).seqs = s.seqs ∧ (s.runToCount n).synth = s.synth ∧
    (s.runToCount n).wave = s.wave ∧ (s.runToCount n).readout = s.readout ∧ (s.runToCount n).est = s.est ∧ (s.runToCount n).fabric = s.fabric ∧
    (s.runToCount n).conc = s.conc ∧ (s.runToCount n).acq = s.acq ∧ (s.runToCount n).bias = s.bias ∧ (s.runToCount n).cal = s.cal ∧
    (s.runToCount n).thermal = s.thermal ∧ (s.runToCount n).free = s.free := ⟨rfl, rfl, rfl, rfl, rfl, rfl, rfl, rfl, rfl, rfl, rfl, rfl, rfl, rfl, rfl, rfl, rfl, rfl, rfl, rfl, rfl, rfl, rfl, rfl, rfl, rfl⟩

/-- What `State.raiseFn` keeps. -/
@[simp] theorem State.raiseFn_frame (f v : Nat) (s : State) :
    (s.raiseFn f v).pending = s.pending ∧ (s.raiseFn f v).ident = s.ident ∧ (s.raiseFn f v).time = s.time ∧ (s.raiseFn f v).units = s.units ∧
    (s.raiseFn f v).desk = s.desk ∧ (s.raiseFn f v).parts = s.parts ∧ (s.raiseFn f v).archive = s.archive ∧ (s.raiseFn f v).pages = s.pages ∧
    (s.raiseFn f v).ledger = s.ledger ∧ (s.raiseFn f v).trouble = s.trouble ∧ (s.raiseFn f v).sec = s.sec ∧ (s.raiseFn f v).power = s.power ∧
    (s.raiseFn f v).boot = s.boot ∧ (s.raiseFn f v).dap = s.dap ∧ (s.raiseFn f v).seqs = s.seqs ∧ (s.raiseFn f v).synth = s.synth ∧
    (s.raiseFn f v).wave = s.wave ∧ (s.raiseFn f v).readout = s.readout ∧ (s.raiseFn f v).est = s.est ∧ (s.raiseFn f v).fabric = s.fabric ∧
    (s.raiseFn f v).conc = s.conc ∧ (s.raiseFn f v).acq = s.acq ∧ (s.raiseFn f v).bias = s.bias ∧ (s.raiseFn f v).cal = s.cal ∧
    (s.raiseFn f v).thermal = s.thermal ∧ (s.raiseFn f v).free = s.free := by
  unfold State.raiseFn; (try dsimp only); split <;> simp

/-- What `State.raise` keeps. -/
@[simp] theorem State.raise_frame (v : Nat) (s : State) :
    (s.raise v).pending = s.pending ∧ (s.raise v).ident = s.ident ∧ (s.raise v).time = s.time ∧ (s.raise v).units = s.units ∧
    (s.raise v).desk = s.desk ∧ (s.raise v).parts = s.parts ∧ (s.raise v).archive = s.archive ∧ (s.raise v).pages = s.pages ∧
    (s.raise v).ledger = s.ledger ∧ (s.raise v).trouble = s.trouble ∧ (s.raise v).sec = s.sec ∧ (s.raise v).power = s.power ∧
    (s.raise v).boot = s.boot ∧ (s.raise v).dap = s.dap ∧ (s.raise v).seqs = s.seqs ∧ (s.raise v).synth = s.synth ∧ (s.raise v).wave = s.wave ∧
    (s.raise v).readout = s.readout ∧ (s.raise v).est = s.est ∧ (s.raise v).fabric = s.fabric ∧ (s.raise v).conc = s.conc ∧ (s.raise v).acq = s.acq ∧
    (s.raise v).bias = s.bias ∧ (s.raise v).cal = s.cal ∧ (s.raise v).thermal = s.thermal ∧ (s.raise v).free = s.free := by
  simp [State.raise]

/-- What `State.raiseVf` keeps. -/
@[simp] theorem State.raiseVf_frame (f v : Nat) (s : State) :
    (s.raiseVf f v).pending = s.pending ∧ (s.raiseVf f v).ident = s.ident ∧ (s.raiseVf f v).time = s.time ∧ (s.raiseVf f v).units = s.units ∧
    (s.raiseVf f v).desk = s.desk ∧ (s.raiseVf f v).parts = s.parts ∧ (s.raiseVf f v).archive = s.archive ∧ (s.raiseVf f v).pages = s.pages ∧
    (s.raiseVf f v).ledger = s.ledger ∧ (s.raiseVf f v).trouble = s.trouble ∧ (s.raiseVf f v).sec = s.sec ∧ (s.raiseVf f v).power = s.power ∧
    (s.raiseVf f v).boot = s.boot ∧ (s.raiseVf f v).dap = s.dap ∧ (s.raiseVf f v).seqs = s.seqs ∧ (s.raiseVf f v).synth = s.synth ∧
    (s.raiseVf f v).wave = s.wave ∧ (s.raiseVf f v).readout = s.readout ∧ (s.raiseVf f v).est = s.est ∧ (s.raiseVf f v).fabric = s.fabric ∧
    (s.raiseVf f v).conc = s.conc ∧ (s.raiseVf f v).acq = s.acq ∧ (s.raiseVf f v).bias = s.bias ∧ (s.raiseVf f v).cal = s.cal ∧
    (s.raiseVf f v).thermal = s.thermal ∧ (s.raiseVf f v).free = s.free := by
  unfold State.raiseVf; (try dsimp only); split <;> simp

/-- What `State.raiseOwned` keeps. -/
@[simp] theorem State.raiseOwned_frame (v : Nat) (o : Fin 8) (s : State) :
    (s.raiseOwned v o).pending = s.pending ∧ (s.raiseOwned v o).ident = s.ident ∧ (s.raiseOwned v o).time = s.time ∧
    (s.raiseOwned v o).units = s.units ∧ (s.raiseOwned v o).desk = s.desk ∧ (s.raiseOwned v o).parts = s.parts ∧
    (s.raiseOwned v o).archive = s.archive ∧ (s.raiseOwned v o).pages = s.pages ∧ (s.raiseOwned v o).ledger = s.ledger ∧
    (s.raiseOwned v o).trouble = s.trouble ∧ (s.raiseOwned v o).sec = s.sec ∧ (s.raiseOwned v o).power = s.power ∧ (s.raiseOwned v o).boot = s.boot ∧
    (s.raiseOwned v o).dap = s.dap ∧ (s.raiseOwned v o).seqs = s.seqs ∧ (s.raiseOwned v o).synth = s.synth ∧ (s.raiseOwned v o).wave = s.wave ∧
    (s.raiseOwned v o).readout = s.readout ∧ (s.raiseOwned v o).est = s.est ∧ (s.raiseOwned v o).fabric = s.fabric ∧
    (s.raiseOwned v o).conc = s.conc ∧ (s.raiseOwned v o).acq = s.acq ∧ (s.raiseOwned v o).bias = s.bias ∧ (s.raiseOwned v o).cal = s.cal ∧
    (s.raiseOwned v o).thermal = s.thermal ∧ (s.raiseOwned v o).free = s.free := by
  simp [State.raiseOwned]

/-- What `State.raiseEvery` keeps. -/
@[simp] theorem State.raiseEvery_frame (v : Nat) (s : State) :
    (s.raiseEvery v).pending = s.pending ∧ (s.raiseEvery v).ident = s.ident ∧ (s.raiseEvery v).time = s.time ∧ (s.raiseEvery v).units = s.units ∧
    (s.raiseEvery v).desk = s.desk ∧ (s.raiseEvery v).parts = s.parts ∧ (s.raiseEvery v).archive = s.archive ∧ (s.raiseEvery v).pages = s.pages ∧
    (s.raiseEvery v).ledger = s.ledger ∧ (s.raiseEvery v).trouble = s.trouble ∧ (s.raiseEvery v).sec = s.sec ∧ (s.raiseEvery v).power = s.power ∧
    (s.raiseEvery v).boot = s.boot ∧ (s.raiseEvery v).dap = s.dap ∧ (s.raiseEvery v).seqs = s.seqs ∧ (s.raiseEvery v).synth = s.synth ∧
    (s.raiseEvery v).wave = s.wave ∧ (s.raiseEvery v).readout = s.readout ∧ (s.raiseEvery v).est = s.est ∧ (s.raiseEvery v).fabric = s.fabric ∧
    (s.raiseEvery v).conc = s.conc ∧ (s.raiseEvery v).acq = s.acq ∧ (s.raiseEvery v).bias = s.bias ∧ (s.raiseEvery v).cal = s.cal ∧
    (s.raiseEvery v).thermal = s.thermal ∧ (s.raiseEvery v).free = s.free := by
  simp [State.raiseEvery]

/-- What `State.raiseFor` keeps. -/
@[simp] theorem State.raiseFor_frame (src : Source) (v : Nat) (s : State) :
    (s.raiseFor src v).pending = s.pending ∧ (s.raiseFor src v).ident = s.ident ∧ (s.raiseFor src v).time = s.time ∧
    (s.raiseFor src v).units = s.units ∧ (s.raiseFor src v).desk = s.desk ∧ (s.raiseFor src v).parts = s.parts ∧
    (s.raiseFor src v).archive = s.archive ∧ (s.raiseFor src v).pages = s.pages ∧ (s.raiseFor src v).ledger = s.ledger ∧
    (s.raiseFor src v).trouble = s.trouble ∧ (s.raiseFor src v).sec = s.sec ∧ (s.raiseFor src v).power = s.power ∧ (s.raiseFor src v).boot = s.boot ∧
    (s.raiseFor src v).dap = s.dap ∧ (s.raiseFor src v).seqs = s.seqs ∧ (s.raiseFor src v).synth = s.synth ∧ (s.raiseFor src v).wave = s.wave ∧
    (s.raiseFor src v).readout = s.readout ∧ (s.raiseFor src v).est = s.est ∧ (s.raiseFor src v).fabric = s.fabric ∧
    (s.raiseFor src v).conc = s.conc ∧ (s.raiseFor src v).acq = s.acq ∧ (s.raiseFor src v).bias = s.bias ∧ (s.raiseFor src v).cal = s.cal ∧
    (s.raiseFor src v).thermal = s.thermal ∧ (s.raiseFor src v).free = s.free := by
  unfold State.raiseFor; (try dsimp only); split <;> (try split) <;> simp

/-- What `State.appendDated` keeps. -/
@[simp] theorem State.appendDated_frame (r : LedgerRec) (s : State) :
    (s.appendDated r).pending = s.pending ∧ (s.appendDated r).ident = s.ident ∧ (s.appendDated r).time = s.time ∧ (s.appendDated r).host = s.host ∧
    (s.appendDated r).units = s.units ∧ (s.appendDated r).desk = s.desk ∧ (s.appendDated r).parts = s.parts ∧ (s.appendDated r).archive = s.archive ∧
    (s.appendDated r).pages = s.pages ∧ (s.appendDated r).trouble = s.trouble ∧ (s.appendDated r).sec = s.sec ∧ (s.appendDated r).power = s.power ∧
    (s.appendDated r).boot = s.boot ∧ (s.appendDated r).dap = s.dap ∧ (s.appendDated r).seqs = s.seqs ∧ (s.appendDated r).synth = s.synth ∧
    (s.appendDated r).wave = s.wave ∧ (s.appendDated r).readout = s.readout ∧ (s.appendDated r).est = s.est ∧ (s.appendDated r).fabric = s.fabric ∧
    (s.appendDated r).conc = s.conc ∧ (s.appendDated r).acq = s.acq ∧ (s.appendDated r).bias = s.bias ∧ (s.appendDated r).cal = s.cal ∧
    (s.appendDated r).thermal = s.thermal := ⟨rfl, rfl, rfl, rfl, rfl, rfl, rfl, rfl, rfl, rfl, rfl, rfl, rfl, rfl, rfl, rfl, rfl, rfl, rfl, rfl, rfl, rfl, rfl, rfl, rfl⟩

/-- What `State.appendRec` keeps. -/
@[simp] theorem State.appendRec_frame (r : LedgerRec) (s : State) :
    (s.appendRec r).pending = s.pending ∧ (s.appendRec r).ident = s.ident ∧ (s.appendRec r).time = s.time ∧ (s.appendRec r).host = s.host ∧
    (s.appendRec r).units = s.units ∧ (s.appendRec r).desk = s.desk ∧ (s.appendRec r).parts = s.parts ∧ (s.appendRec r).archive = s.archive ∧
    (s.appendRec r).pages = s.pages ∧ (s.appendRec r).trouble = s.trouble ∧ (s.appendRec r).sec = s.sec ∧ (s.appendRec r).power = s.power ∧
    (s.appendRec r).boot = s.boot ∧ (s.appendRec r).dap = s.dap ∧ (s.appendRec r).seqs = s.seqs ∧ (s.appendRec r).synth = s.synth ∧
    (s.appendRec r).wave = s.wave ∧ (s.appendRec r).readout = s.readout ∧ (s.appendRec r).est = s.est ∧ (s.appendRec r).fabric = s.fabric ∧
    (s.appendRec r).conc = s.conc ∧ (s.appendRec r).acq = s.acq ∧ (s.appendRec r).bias = s.bias ∧ (s.appendRec r).cal = s.cal ∧
    (s.appendRec r).thermal = s.thermal := ⟨rfl, rfl, rfl, rfl, rfl, rfl, rfl, rfl, rfl, rfl, rfl, rfl, rfl, rfl, rfl, rfl, rfl, rfl, rfl, rfl, rfl, rfl, rfl, rfl, rfl⟩

/-- What `State.wrote` keeps. -/
@[simp] theorem State.wrote_frame (p : Pages) (s : State) :
    (s.wrote p).pending = s.pending ∧ (s.wrote p).ident = s.ident ∧ (s.wrote p).time = s.time ∧ (s.wrote p).units = s.units ∧
    (s.wrote p).desk = s.desk ∧ (s.wrote p).parts = s.parts ∧ (s.wrote p).archive = s.archive ∧ (s.wrote p).sec = s.sec ∧
    (s.wrote p).power = s.power ∧ (s.wrote p).boot = s.boot ∧ (s.wrote p).dap = s.dap ∧ (s.wrote p).seqs = s.seqs ∧ (s.wrote p).synth = s.synth ∧
    (s.wrote p).wave = s.wave ∧ (s.wrote p).readout = s.readout ∧ (s.wrote p).est = s.est ∧ (s.wrote p).fabric = s.fabric ∧
    (s.wrote p).conc = s.conc ∧ (s.wrote p).acq = s.acq ∧ (s.wrote p).bias = s.bias ∧ (s.wrote p).cal = s.cal ∧ (s.wrote p).thermal = s.thermal := by
  unfold State.wrote; (try dsimp only); split <;> (try split) <;> simp

/-- What `State.wroteDirect` keeps. -/
@[simp] theorem State.wroteDirect_frame (a n : Nat) (s : State) :
    (s.wroteDirect a n).pending = s.pending ∧ (s.wroteDirect a n).ident = s.ident ∧ (s.wroteDirect a n).time = s.time ∧
    (s.wroteDirect a n).units = s.units ∧ (s.wroteDirect a n).desk = s.desk ∧ (s.wroteDirect a n).parts = s.parts ∧
    (s.wroteDirect a n).archive = s.archive ∧ (s.wroteDirect a n).sec = s.sec ∧ (s.wroteDirect a n).power = s.power ∧
    (s.wroteDirect a n).boot = s.boot ∧ (s.wroteDirect a n).dap = s.dap ∧ (s.wroteDirect a n).seqs = s.seqs ∧ (s.wroteDirect a n).synth = s.synth ∧
    (s.wroteDirect a n).wave = s.wave ∧ (s.wroteDirect a n).readout = s.readout ∧ (s.wroteDirect a n).est = s.est ∧
    (s.wroteDirect a n).fabric = s.fabric ∧ (s.wroteDirect a n).conc = s.conc ∧ (s.wroteDirect a n).acq = s.acq ∧ (s.wroteDirect a n).bias = s.bias ∧
    (s.wroteDirect a n).cal = s.cal ∧ (s.wroteDirect a n).thermal = s.thermal := by
  simp [State.wroteDirect]

/-- What `State.checkpointOnce` keeps. -/
@[simp] theorem State.checkpointOnce_frame (s : State) :
    (s.checkpointOnce).pending = s.pending ∧ (s.checkpointOnce).ident = s.ident ∧ (s.checkpointOnce).time = s.time ∧
    (s.checkpointOnce).units = s.units ∧ (s.checkpointOnce).desk = s.desk ∧ (s.checkpointOnce).parts = s.parts ∧
    (s.checkpointOnce).archive = s.archive ∧ (s.checkpointOnce).sec = s.sec ∧ (s.checkpointOnce).power = s.power ∧ (s.checkpointOnce).boot = s.boot ∧
    (s.checkpointOnce).dap = s.dap ∧ (s.checkpointOnce).seqs = s.seqs ∧ (s.checkpointOnce).synth = s.synth ∧ (s.checkpointOnce).wave = s.wave ∧
    (s.checkpointOnce).readout = s.readout ∧ (s.checkpointOnce).est = s.est ∧ (s.checkpointOnce).fabric = s.fabric ∧
    (s.checkpointOnce).conc = s.conc ∧ (s.checkpointOnce).acq = s.acq ∧ (s.checkpointOnce).bias = s.bias ∧ (s.checkpointOnce).cal = s.cal ∧
    (s.checkpointOnce).thermal = s.thermal := by
  unfold State.checkpointOnce; (try dsimp only); split <;> simp

/-- What `State.checkpoint` keeps. -/
@[simp] theorem State.checkpoint_frame (s : State) :
    (s.checkpoint).pending = s.pending ∧ (s.checkpoint).ident = s.ident ∧ (s.checkpoint).time = s.time ∧ (s.checkpoint).units = s.units ∧
    (s.checkpoint).desk = s.desk ∧ (s.checkpoint).parts = s.parts ∧ (s.checkpoint).archive = s.archive ∧ (s.checkpoint).sec = s.sec ∧
    (s.checkpoint).power = s.power ∧ (s.checkpoint).boot = s.boot ∧ (s.checkpoint).dap = s.dap ∧ (s.checkpoint).seqs = s.seqs ∧
    (s.checkpoint).synth = s.synth ∧ (s.checkpoint).wave = s.wave ∧ (s.checkpoint).readout = s.readout ∧ (s.checkpoint).est = s.est ∧
    (s.checkpoint).fabric = s.fabric ∧ (s.checkpoint).conc = s.conc ∧ (s.checkpoint).acq = s.acq ∧ (s.checkpoint).bias = s.bias ∧
    (s.checkpoint).cal = s.cal ∧ (s.checkpoint).thermal = s.thermal := by
  unfold State.checkpoint; (try dsimp only); split <;> simp

/-- What `State.noteDated` keeps. -/
@[simp] theorem State.noteDated_frame (r : LedgerRec) (s : State) :
    (s.noteDated r).pending = s.pending ∧ (s.noteDated r).ident = s.ident ∧ (s.noteDated r).time = s.time ∧ (s.noteDated r).units = s.units ∧
    (s.noteDated r).desk = s.desk ∧ (s.noteDated r).parts = s.parts ∧ (s.noteDated r).archive = s.archive ∧ (s.noteDated r).sec = s.sec ∧
    (s.noteDated r).power = s.power ∧ (s.noteDated r).boot = s.boot ∧ (s.noteDated r).dap = s.dap ∧ (s.noteDated r).seqs = s.seqs ∧
    (s.noteDated r).synth = s.synth ∧ (s.noteDated r).wave = s.wave ∧ (s.noteDated r).readout = s.readout ∧ (s.noteDated r).est = s.est ∧
    (s.noteDated r).fabric = s.fabric ∧ (s.noteDated r).conc = s.conc ∧ (s.noteDated r).acq = s.acq ∧ (s.noteDated r).bias = s.bias ∧
    (s.noteDated r).cal = s.cal ∧ (s.noteDated r).thermal = s.thermal := by
  unfold State.noteDated; (try dsimp only); split <;> (try split) <;> simp

/-- What `State.note` keeps. -/
@[simp] theorem State.note_frame (r : LedgerRec) (s : State) :
    (s.note r).pending = s.pending ∧ (s.note r).ident = s.ident ∧ (s.note r).time = s.time ∧ (s.note r).units = s.units ∧ (s.note r).desk = s.desk ∧
    (s.note r).parts = s.parts ∧ (s.note r).archive = s.archive ∧ (s.note r).sec = s.sec ∧ (s.note r).power = s.power ∧ (s.note r).boot = s.boot ∧
    (s.note r).dap = s.dap ∧ (s.note r).seqs = s.seqs ∧ (s.note r).synth = s.synth ∧ (s.note r).wave = s.wave ∧ (s.note r).readout = s.readout ∧
    (s.note r).est = s.est ∧ (s.note r).fabric = s.fabric ∧ (s.note r).conc = s.conc ∧ (s.note r).acq = s.acq ∧ (s.note r).bias = s.bias ∧
    (s.note r).cal = s.cal ∧ (s.note r).thermal = s.thermal := by
  simp [State.note]

/-- What `State.yields` keeps. -/
@[simp] theorem State.yields_frame (k l : Nat) (s : State) :
    (s.yields k l).pending = s.pending ∧ (s.yields k l).ident = s.ident ∧ (s.yields k l).time = s.time ∧ (s.yields k l).units = s.units ∧
    (s.yields k l).desk = s.desk ∧ (s.yields k l).parts = s.parts ∧ (s.yields k l).archive = s.archive ∧ (s.yields k l).sec = s.sec ∧
    (s.yields k l).power = s.power ∧ (s.yields k l).boot = s.boot ∧ (s.yields k l).dap = s.dap ∧ (s.yields k l).seqs = s.seqs ∧
    (s.yields k l).synth = s.synth ∧ (s.yields k l).wave = s.wave ∧ (s.yields k l).readout = s.readout ∧ (s.yields k l).est = s.est ∧
    (s.yields k l).fabric = s.fabric ∧ (s.yields k l).conc = s.conc ∧ (s.yields k l).acq = s.acq ∧ (s.yields k l).bias = s.bias ∧
    (s.yields k l).cal = s.cal ∧ (s.yields k l).thermal = s.thermal := by
  simp [State.yields]

/-- What `State.sendRec` keeps. -/
@[simp] theorem State.sendRec_frame (r : JRec) (s : State) :
    (s.sendRec r).pending = s.pending ∧ (s.sendRec r).ident = s.ident ∧ (s.sendRec r).time = s.time ∧ (s.sendRec r).host = s.host ∧
    (s.sendRec r).units = s.units ∧ (s.sendRec r).parts = s.parts ∧ (s.sendRec r).archive = s.archive ∧ (s.sendRec r).pages = s.pages ∧
    (s.sendRec r).ledger = s.ledger ∧ (s.sendRec r).trouble = s.trouble ∧ (s.sendRec r).sec = s.sec ∧ (s.sendRec r).power = s.power ∧
    (s.sendRec r).boot = s.boot ∧ (s.sendRec r).dap = s.dap ∧ (s.sendRec r).seqs = s.seqs ∧ (s.sendRec r).synth = s.synth ∧
    (s.sendRec r).wave = s.wave ∧ (s.sendRec r).readout = s.readout ∧ (s.sendRec r).est = s.est ∧ (s.sendRec r).fabric = s.fabric ∧
    (s.sendRec r).conc = s.conc ∧ (s.sendRec r).acq = s.acq ∧ (s.sendRec r).bias = s.bias ∧ (s.sendRec r).cal = s.cal ∧
    (s.sendRec r).thermal = s.thermal ∧ (s.sendRec r).free = s.free := ⟨rfl, rfl, rfl, rfl, rfl, rfl, rfl, rfl, rfl, rfl, rfl, rfl, rfl, rfl, rfl, rfl, rfl, rfl, rfl, rfl, rfl, rfl, rfl, rfl, rfl, rfl⟩

/-- What `State.setTrouble` keeps. -/
@[simp] theorem State.setTrouble_frame (w : Fin 16) (b : Nat) (s : State) :
    (s.setTrouble w b).pending = s.pending ∧ (s.setTrouble w b).ident = s.ident ∧ (s.setTrouble w b).time = s.time ∧
    (s.setTrouble w b).units = s.units ∧ (s.setTrouble w b).desk = s.desk ∧ (s.setTrouble w b).parts = s.parts ∧
    (s.setTrouble w b).archive = s.archive ∧ (s.setTrouble w b).sec = s.sec ∧ (s.setTrouble w b).power = s.power ∧ (s.setTrouble w b).boot = s.boot ∧
    (s.setTrouble w b).dap = s.dap ∧ (s.setTrouble w b).seqs = s.seqs ∧ (s.setTrouble w b).synth = s.synth ∧ (s.setTrouble w b).wave = s.wave ∧
    (s.setTrouble w b).readout = s.readout ∧ (s.setTrouble w b).est = s.est ∧ (s.setTrouble w b).fabric = s.fabric ∧
    (s.setTrouble w b).conc = s.conc ∧ (s.setTrouble w b).acq = s.acq ∧ (s.setTrouble w b).bias = s.bias ∧ (s.setTrouble w b).cal = s.cal ∧
    (s.setTrouble w b).thermal = s.thermal := by
  unfold State.setTrouble; (try dsimp only); split <;> simp

/-- What `State.troubleOwned` keeps. -/
@[simp] theorem State.troubleOwned_frame (w : Fin 16) (b : Nat) (o : Fin 8) (s : State) :
    (s.troubleOwned w b o).pending = s.pending ∧ (s.troubleOwned w b o).ident = s.ident ∧ (s.troubleOwned w b o).time = s.time ∧
    (s.troubleOwned w b o).units = s.units ∧ (s.troubleOwned w b o).desk = s.desk ∧ (s.troubleOwned w b o).parts = s.parts ∧
    (s.troubleOwned w b o).archive = s.archive ∧ (s.troubleOwned w b o).sec = s.sec ∧ (s.troubleOwned w b o).power = s.power ∧
    (s.troubleOwned w b o).boot = s.boot ∧ (s.troubleOwned w b o).dap = s.dap ∧ (s.troubleOwned w b o).seqs = s.seqs ∧
    (s.troubleOwned w b o).synth = s.synth ∧ (s.troubleOwned w b o).wave = s.wave ∧ (s.troubleOwned w b o).readout = s.readout ∧
    (s.troubleOwned w b o).est = s.est ∧ (s.troubleOwned w b o).fabric = s.fabric ∧ (s.troubleOwned w b o).conc = s.conc ∧
    (s.troubleOwned w b o).acq = s.acq ∧ (s.troubleOwned w b o).bias = s.bias ∧ (s.troubleOwned w b o).cal = s.cal ∧
    (s.troubleOwned w b o).thermal = s.thermal := by
  unfold State.troubleOwned; (try dsimp only); split <;> simp

/-- What `State.dramFault` keeps. -/
@[simp] theorem State.dramFault_frame (c : Fin 8) (a : BitVec 32) (s : State) :
    (s.dramFault c a).pending = s.pending ∧ (s.dramFault c a).ident = s.ident ∧ (s.dramFault c a).time = s.time ∧ (s.dramFault c a).units = s.units ∧
    (s.dramFault c a).desk = s.desk ∧ (s.dramFault c a).parts = s.parts ∧ (s.dramFault c a).archive = s.archive ∧ (s.dramFault c a).sec = s.sec ∧
    (s.dramFault c a).power = s.power ∧ (s.dramFault c a).boot = s.boot ∧ (s.dramFault c a).dap = s.dap ∧ (s.dramFault c a).seqs = s.seqs ∧
    (s.dramFault c a).synth = s.synth ∧ (s.dramFault c a).wave = s.wave ∧ (s.dramFault c a).readout = s.readout ∧ (s.dramFault c a).est = s.est ∧
    (s.dramFault c a).fabric = s.fabric ∧ (s.dramFault c a).conc = s.conc ∧ (s.dramFault c a).acq = s.acq ∧ (s.dramFault c a).bias = s.bias ∧
    (s.dramFault c a).cal = s.cal ∧ (s.dramFault c a).thermal = s.thermal := by
  simp [State.dramFault]

/-- What `State.modQueue` keeps. -/
@[simp] theorem State.modQueue_frame (src : Source) (f : Queue → Queue) (s : State) :
    (s.modQueue src f).pending = s.pending ∧ (s.modQueue src f).ident = s.ident ∧ (s.modQueue src f).time = s.time ∧
    (s.modQueue src f).units = s.units ∧ (s.modQueue src f).desk = s.desk ∧ (s.modQueue src f).parts = s.parts ∧
    (s.modQueue src f).archive = s.archive ∧ (s.modQueue src f).pages = s.pages ∧ (s.modQueue src f).ledger = s.ledger ∧
    (s.modQueue src f).trouble = s.trouble ∧ (s.modQueue src f).sec = s.sec ∧ (s.modQueue src f).power = s.power ∧ (s.modQueue src f).boot = s.boot ∧
    (s.modQueue src f).dap = s.dap ∧ (s.modQueue src f).seqs = s.seqs ∧ (s.modQueue src f).synth = s.synth ∧ (s.modQueue src f).wave = s.wave ∧
    (s.modQueue src f).readout = s.readout ∧ (s.modQueue src f).est = s.est ∧ (s.modQueue src f).fabric = s.fabric ∧
    (s.modQueue src f).conc = s.conc ∧ (s.modQueue src f).acq = s.acq ∧ (s.modQueue src f).bias = s.bias ∧ (s.modQueue src f).cal = s.cal ∧
    (s.modQueue src f).thermal = s.thermal ∧ (s.modQueue src f).free = s.free := by
  cases src <;> simp [State.modQueue]

/-- What `State.setQState` keeps. -/
@[simp] theorem State.setQState_frame (src : Source) (q : QState) (s : State) :
    (s.setQState src q).pending = s.pending ∧ (s.setQState src q).ident = s.ident ∧ (s.setQState src q).time = s.time ∧
    (s.setQState src q).units = s.units ∧ (s.setQState src q).parts = s.parts ∧ (s.setQState src q).archive = s.archive ∧
    (s.setQState src q).sec = s.sec ∧ (s.setQState src q).power = s.power ∧ (s.setQState src q).boot = s.boot ∧ (s.setQState src q).dap = s.dap ∧
    (s.setQState src q).seqs = s.seqs ∧ (s.setQState src q).synth = s.synth ∧ (s.setQState src q).wave = s.wave ∧
    (s.setQState src q).readout = s.readout ∧ (s.setQState src q).est = s.est ∧ (s.setQState src q).fabric = s.fabric ∧
    (s.setQState src q).conc = s.conc ∧ (s.setQState src q).acq = s.acq ∧ (s.setQState src q).bias = s.bias ∧ (s.setQState src q).cal = s.cal ∧
    (s.setQState src q).thermal = s.thermal := by
  unfold State.setQState; (try dsimp only); split <;> simp

/-- What `State.breakQueue` keeps. -/
@[simp] theorem State.breakQueue_frame (src : Source) (c : Nat) (s : State) :
    (s.breakQueue src c).pending = s.pending ∧ (s.breakQueue src c).ident = s.ident ∧ (s.breakQueue src c).time = s.time ∧
    (s.breakQueue src c).units = s.units ∧ (s.breakQueue src c).parts = s.parts ∧ (s.breakQueue src c).archive = s.archive ∧
    (s.breakQueue src c).sec = s.sec ∧ (s.breakQueue src c).power = s.power ∧ (s.breakQueue src c).boot = s.boot ∧ (s.breakQueue src c).dap = s.dap ∧
    (s.breakQueue src c).seqs = s.seqs ∧ (s.breakQueue src c).synth = s.synth ∧ (s.breakQueue src c).wave = s.wave ∧
    (s.breakQueue src c).readout = s.readout ∧ (s.breakQueue src c).est = s.est ∧ (s.breakQueue src c).fabric = s.fabric ∧
    (s.breakQueue src c).conc = s.conc ∧ (s.breakQueue src c).acq = s.acq ∧ (s.breakQueue src c).bias = s.bias ∧ (s.breakQueue src c).cal = s.cal ∧
    (s.breakQueue src c).thermal = s.thermal := by
  simp [State.breakQueue]

/-- What `State.slowReport` keeps. -/
@[simp] theorem State.slowReport_frame (b : Bool) (s : State) :
    (s.slowReport b).pending = s.pending ∧ (s.slowReport b).ident = s.ident ∧ (s.slowReport b).time = s.time ∧ (s.slowReport b).units = s.units ∧
    (s.slowReport b).desk = s.desk ∧ (s.slowReport b).parts = s.parts ∧ (s.slowReport b).archive = s.archive ∧ (s.slowReport b).sec = s.sec ∧
    (s.slowReport b).power = s.power ∧ (s.slowReport b).boot = s.boot ∧ (s.slowReport b).dap = s.dap ∧ (s.slowReport b).seqs = s.seqs ∧
    (s.slowReport b).synth = s.synth ∧ (s.slowReport b).wave = s.wave ∧ (s.slowReport b).readout = s.readout ∧ (s.slowReport b).est = s.est ∧
    (s.slowReport b).fabric = s.fabric ∧ (s.slowReport b).conc = s.conc ∧ (s.slowReport b).acq = s.acq ∧ (s.slowReport b).bias = s.bias ∧
    (s.slowReport b).cal = s.cal ∧ (s.slowReport b).thermal = s.thermal := by
  unfold State.slowReport; (try dsimp only); split <;> (try split) <;> (try split) <;> simp

/-- What `State.signal` keeps. -/
@[simp] theorem State.signal_frame (src : Source) (s : State) :
    (s.signal src).pending = s.pending ∧ (s.signal src).ident = s.ident ∧ (s.signal src).time = s.time ∧ (s.signal src).units = s.units ∧
    (s.signal src).desk = s.desk ∧ (s.signal src).parts = s.parts ∧ (s.signal src).archive = s.archive ∧ (s.signal src).pages = s.pages ∧
    (s.signal src).ledger = s.ledger ∧ (s.signal src).trouble = s.trouble ∧ (s.signal src).sec = s.sec ∧ (s.signal src).power = s.power ∧
    (s.signal src).boot = s.boot ∧ (s.signal src).dap = s.dap ∧ (s.signal src).seqs = s.seqs ∧ (s.signal src).synth = s.synth ∧
    (s.signal src).wave = s.wave ∧ (s.signal src).readout = s.readout ∧ (s.signal src).est = s.est ∧ (s.signal src).fabric = s.fabric ∧
    (s.signal src).conc = s.conc ∧ (s.signal src).acq = s.acq ∧ (s.signal src).bias = s.bias ∧ (s.signal src).cal = s.cal ∧
    (s.signal src).thermal = s.thermal ∧ (s.signal src).free = s.free := by
  unfold State.signal; (try dsimp only); split <;> (try split) <;> simp

/-- What `State.mirrorDone` keeps. -/
@[simp] theorem State.mirrorDone_frame (src : Source) (h : BitVec 12) (t : BitVec 16) (s : State) :
    (s.mirrorDone src h t).pending = s.pending ∧ (s.mirrorDone src h t).ident = s.ident ∧ (s.mirrorDone src h t).time = s.time ∧
    (s.mirrorDone src h t).host = s.host ∧ (s.mirrorDone src h t).units = s.units ∧ (s.mirrorDone src h t).parts = s.parts ∧
    (s.mirrorDone src h t).archive = s.archive ∧ (s.mirrorDone src h t).pages = s.pages ∧ (s.mirrorDone src h t).ledger = s.ledger ∧
    (s.mirrorDone src h t).trouble = s.trouble ∧ (s.mirrorDone src h t).sec = s.sec ∧ (s.mirrorDone src h t).power = s.power ∧
    (s.mirrorDone src h t).boot = s.boot ∧ (s.mirrorDone src h t).dap = s.dap ∧ (s.mirrorDone src h t).seqs = s.seqs ∧
    (s.mirrorDone src h t).synth = s.synth ∧ (s.mirrorDone src h t).wave = s.wave ∧ (s.mirrorDone src h t).readout = s.readout ∧
    (s.mirrorDone src h t).est = s.est ∧ (s.mirrorDone src h t).fabric = s.fabric ∧ (s.mirrorDone src h t).conc = s.conc ∧
    (s.mirrorDone src h t).acq = s.acq ∧ (s.mirrorDone src h t).bias = s.bias ∧ (s.mirrorDone src h t).cal = s.cal ∧
    (s.mirrorDone src h t).thermal = s.thermal ∧ (s.mirrorDone src h t).free = s.free := ⟨rfl, rfl, rfl, rfl, rfl, rfl, rfl, rfl, rfl, rfl, rfl, rfl, rfl, rfl, rfl, rfl, rfl, rfl, rfl, rfl, rfl, rfl, rfl, rfl, rfl, rfl⟩

/-- What `State.journalCommit` keeps. -/
@[simp] theorem State.journalCommit_frame (a : BitVec 32) (q : BitVec 64) (st d : Nat) (r : Option Words) (s : State) :
    (s.journalCommit a q st d r).pending = s.pending ∧ (s.journalCommit a q st d r).ident = s.ident ∧ (s.journalCommit a q st d r).time = s.time ∧
    (s.journalCommit a q st d r).host = s.host ∧ (s.journalCommit a q st d r).units = s.units ∧ (s.journalCommit a q st d r).parts = s.parts ∧
    (s.journalCommit a q st d r).archive = s.archive ∧ (s.journalCommit a q st d r).pages = s.pages ∧
    (s.journalCommit a q st d r).ledger = s.ledger ∧ (s.journalCommit a q st d r).trouble = s.trouble ∧ (s.journalCommit a q st d r).sec = s.sec ∧
    (s.journalCommit a q st d r).power = s.power ∧ (s.journalCommit a q st d r).boot = s.boot ∧ (s.journalCommit a q st d r).dap = s.dap ∧
    (s.journalCommit a q st d r).seqs = s.seqs ∧ (s.journalCommit a q st d r).synth = s.synth ∧ (s.journalCommit a q st d r).wave = s.wave ∧
    (s.journalCommit a q st d r).readout = s.readout ∧ (s.journalCommit a q st d r).est = s.est ∧ (s.journalCommit a q st d r).fabric = s.fabric ∧
    (s.journalCommit a q st d r).conc = s.conc ∧ (s.journalCommit a q st d r).acq = s.acq ∧ (s.journalCommit a q st d r).bias = s.bias ∧
    (s.journalCommit a q st d r).cal = s.cal ∧ (s.journalCommit a q st d r).thermal = s.thermal ∧ (s.journalCommit a q st d r).free = s.free := by
  simp [State.journalCommit]

/-- What `State.vectorsLast` keeps. -/
@[simp] theorem State.vectorsLast_frame (n m : Nat) (s : State) :
    (s.vectorsLast n m).pending = s.pending ∧ (s.vectorsLast n m).ident = s.ident ∧ (s.vectorsLast n m).time = s.time ∧
    (s.vectorsLast n m).units = s.units ∧ (s.vectorsLast n m).desk = s.desk ∧ (s.vectorsLast n m).parts = s.parts ∧
    (s.vectorsLast n m).archive = s.archive ∧ (s.vectorsLast n m).pages = s.pages ∧ (s.vectorsLast n m).ledger = s.ledger ∧
    (s.vectorsLast n m).trouble = s.trouble ∧ (s.vectorsLast n m).sec = s.sec ∧ (s.vectorsLast n m).power = s.power ∧
    (s.vectorsLast n m).boot = s.boot ∧ (s.vectorsLast n m).dap = s.dap ∧ (s.vectorsLast n m).seqs = s.seqs ∧ (s.vectorsLast n m).synth = s.synth ∧
    (s.vectorsLast n m).wave = s.wave ∧ (s.vectorsLast n m).readout = s.readout ∧ (s.vectorsLast n m).est = s.est ∧
    (s.vectorsLast n m).fabric = s.fabric ∧ (s.vectorsLast n m).conc = s.conc ∧ (s.vectorsLast n m).acq = s.acq ∧ (s.vectorsLast n m).bias = s.bias ∧
    (s.vectorsLast n m).cal = s.cal ∧ (s.vectorsLast n m).thermal = s.thermal ∧ (s.vectorsLast n m).free = s.free := ⟨rfl, rfl, rfl, rfl, rfl, rfl, rfl, rfl, rfl, rfl, rfl, rfl, rfl, rfl, rfl, rfl, rfl, rfl, rfl, rfl, rfl, rfl, rfl, rfl, rfl, rfl⟩

/-- What `State.post` keeps. -/
@[simp] theorem State.post_frame (c : Post) (s : State) :
    (s.post c).pending = s.pending ∧ (s.post c).ident = s.ident ∧ (s.post c).time = s.time ∧ (s.post c).units = s.units ∧
    (s.post c).parts = s.parts ∧ (s.post c).archive = s.archive ∧ (s.post c).sec = s.sec ∧ (s.post c).power = s.power ∧ (s.post c).boot = s.boot ∧
    (s.post c).dap = s.dap ∧ (s.post c).seqs = s.seqs ∧ (s.post c).synth = s.synth ∧ (s.post c).wave = s.wave ∧ (s.post c).readout = s.readout ∧
    (s.post c).est = s.est ∧ (s.post c).fabric = s.fabric ∧ (s.post c).conc = s.conc ∧ (s.post c).acq = s.acq ∧ (s.post c).bias = s.bias ∧
    (s.post c).cal = s.cal ∧ (s.post c).thermal = s.thermal := by
  unfold State.post; (try dsimp only); split <;> (try split) <;> (try split) <;> simp

/-- What `State.refuse` keeps. -/
@[simp] theorem State.refuse_frame (f : Fetched) (a : BitVec 32) (r : Refused) (s : State) :
    (s.refuse f a r).pending = s.pending ∧ (s.refuse f a r).ident = s.ident ∧ (s.refuse f a r).time = s.time ∧ (s.refuse f a r).units = s.units ∧
    (s.refuse f a r).parts = s.parts ∧ (s.refuse f a r).archive = s.archive ∧ (s.refuse f a r).sec = s.sec ∧ (s.refuse f a r).power = s.power ∧
    (s.refuse f a r).boot = s.boot ∧ (s.refuse f a r).dap = s.dap ∧ (s.refuse f a r).seqs = s.seqs ∧ (s.refuse f a r).synth = s.synth ∧
    (s.refuse f a r).wave = s.wave ∧ (s.refuse f a r).readout = s.readout ∧ (s.refuse f a r).est = s.est ∧ (s.refuse f a r).fabric = s.fabric ∧
    (s.refuse f a r).conc = s.conc ∧ (s.refuse f a r).acq = s.acq ∧ (s.refuse f a r).bias = s.bias ∧ (s.refuse f a r).cal = s.cal ∧
    (s.refuse f a r).thermal = s.thermal := by
  unfold State.refuse; (try dsimp only); split <;> (try split) <;> simp

/-- What `State.holdCmd` keeps. -/
@[simp] theorem State.holdCmd_frame (f : Fetched) (a : BitVec 32) (l : List Wait) (s : State) :
    (s.holdCmd f a l).pending = s.pending ∧ (s.holdCmd f a l).ident = s.ident ∧ (s.holdCmd f a l).time = s.time ∧ (s.holdCmd f a l).units = s.units ∧
    (s.holdCmd f a l).parts = s.parts ∧ (s.holdCmd f a l).archive = s.archive ∧ (s.holdCmd f a l).sec = s.sec ∧ (s.holdCmd f a l).power = s.power ∧
    (s.holdCmd f a l).boot = s.boot ∧ (s.holdCmd f a l).dap = s.dap ∧ (s.holdCmd f a l).seqs = s.seqs ∧ (s.holdCmd f a l).synth = s.synth ∧
    (s.holdCmd f a l).wave = s.wave ∧ (s.holdCmd f a l).readout = s.readout ∧ (s.holdCmd f a l).est = s.est ∧ (s.holdCmd f a l).fabric = s.fabric ∧
    (s.holdCmd f a l).conc = s.conc ∧ (s.holdCmd f a l).acq = s.acq ∧ (s.holdCmd f a l).bias = s.bias ∧ (s.holdCmd f a l).cal = s.cal ∧
    (s.holdCmd f a l).thermal = s.thermal := by
  simp [State.holdCmd]

/-- What `State.accepted` keeps. -/
@[simp] theorem State.accepted_frame (p : Packet) (s : State) :
    (s.accepted p).pending = s.pending ∧ (s.accepted p).ident = s.ident ∧ (s.accepted p).time = s.time ∧ (s.accepted p).units = s.units ∧
    (s.accepted p).parts = s.parts ∧ (s.accepted p).archive = s.archive ∧ (s.accepted p).pages = s.pages ∧ (s.accepted p).ledger = s.ledger ∧
    (s.accepted p).trouble = s.trouble ∧ (s.accepted p).sec = s.sec ∧ (s.accepted p).power = s.power ∧ (s.accepted p).boot = s.boot ∧
    (s.accepted p).dap = s.dap ∧ (s.accepted p).seqs = s.seqs ∧ (s.accepted p).synth = s.synth ∧ (s.accepted p).wave = s.wave ∧
    (s.accepted p).readout = s.readout ∧ (s.accepted p).est = s.est ∧ (s.accepted p).fabric = s.fabric ∧ (s.accepted p).conc = s.conc ∧
    (s.accepted p).acq = s.acq ∧ (s.accepted p).bias = s.bias ∧ (s.accepted p).cal = s.cal ∧ (s.accepted p).thermal = s.thermal ∧
    (s.accepted p).free = s.free := by
  simp [State.accepted]

/-- What `State.checked` keeps. -/
@[simp] theorem State.checked_frame (f : Fetched) (a : BitVec 32) (e : Effect) (s : State) :
    (s.checked f a e).pending = s.pending ∧ (s.checked f a e).ident = s.ident ∧ (s.checked f a e).time = s.time ∧ (s.checked f a e).units = s.units ∧
    (s.checked f a e).parts = s.parts ∧ (s.checked f a e).archive = s.archive ∧ (s.checked f a e).sec = s.sec ∧ (s.checked f a e).power = s.power ∧
    (s.checked f a e).boot = s.boot ∧ (s.checked f a e).dap = s.dap ∧ (s.checked f a e).seqs = s.seqs ∧ (s.checked f a e).synth = s.synth ∧
    (s.checked f a e).wave = s.wave ∧ (s.checked f a e).readout = s.readout ∧ (s.checked f a e).est = s.est ∧ (s.checked f a e).fabric = s.fabric ∧
    (s.checked f a e).conc = s.conc ∧ (s.checked f a e).acq = s.acq ∧ (s.checked f a e).bias = s.bias ∧ (s.checked f a e).cal = s.cal ∧
    (s.checked f a e).thermal = s.thermal := by
  simp [State.checked]

/-- What `State.enter_` keeps. -/
@[simp] theorem State.enter__frame (f : Fetched) (s : State) :
    (s.enter_ f).pending = s.pending ∧ (s.enter_ f).ident = s.ident ∧ (s.enter_ f).time = s.time ∧ (s.enter_ f).units = s.units ∧
    (s.enter_ f).parts = s.parts ∧ (s.enter_ f).archive = s.archive ∧ (s.enter_ f).pages = s.pages ∧ (s.enter_ f).ledger = s.ledger ∧
    (s.enter_ f).trouble = s.trouble ∧ (s.enter_ f).sec = s.sec ∧ (s.enter_ f).power = s.power ∧ (s.enter_ f).boot = s.boot ∧
    (s.enter_ f).dap = s.dap ∧ (s.enter_ f).seqs = s.seqs ∧ (s.enter_ f).synth = s.synth ∧ (s.enter_ f).wave = s.wave ∧
    (s.enter_ f).readout = s.readout ∧ (s.enter_ f).est = s.est ∧ (s.enter_ f).fabric = s.fabric ∧ (s.enter_ f).conc = s.conc ∧
    (s.enter_ f).acq = s.acq ∧ (s.enter_ f).bias = s.bias ∧ (s.enter_ f).cal = s.cal ∧ (s.enter_ f).thermal = s.thermal ∧ (s.enter_ f).free = s.free := ⟨rfl, rfl, rfl, rfl, rfl, rfl, rfl, rfl, rfl, rfl, rfl, rfl, rfl, rfl, rfl, rfl, rfl, rfl, rfl, rfl, rfl, rfl, rfl, rfl, rfl⟩

/-- What `State.parkPacket` keeps. -/
@[simp] theorem State.parkPacket_frame (f : Fetched) (s : State) :
    (s.parkPacket f).pending = s.pending ∧ (s.parkPacket f).ident = s.ident ∧ (s.parkPacket f).time = s.time ∧ (s.parkPacket f).units = s.units ∧
    (s.parkPacket f).desk = s.desk ∧ (s.parkPacket f).parts = s.parts ∧ (s.parkPacket f).archive = s.archive ∧ (s.parkPacket f).pages = s.pages ∧
    (s.parkPacket f).ledger = s.ledger ∧ (s.parkPacket f).trouble = s.trouble ∧ (s.parkPacket f).sec = s.sec ∧ (s.parkPacket f).power = s.power ∧
    (s.parkPacket f).boot = s.boot ∧ (s.parkPacket f).dap = s.dap ∧ (s.parkPacket f).seqs = s.seqs ∧ (s.parkPacket f).synth = s.synth ∧
    (s.parkPacket f).wave = s.wave ∧ (s.parkPacket f).readout = s.readout ∧ (s.parkPacket f).est = s.est ∧ (s.parkPacket f).fabric = s.fabric ∧
    (s.parkPacket f).conc = s.conc ∧ (s.parkPacket f).acq = s.acq ∧ (s.parkPacket f).bias = s.bias ∧ (s.parkPacket f).cal = s.cal ∧
    (s.parkPacket f).thermal = s.thermal ∧ (s.parkPacket f).free = s.free := ⟨rfl, rfl, rfl, rfl, rfl, rfl, rfl, rfl, rfl, rfl, rfl, rfl, rfl, rfl, rfl, rfl, rfl, rfl, rfl, rfl, rfl, rfl, rfl, rfl, rfl, rfl⟩

/-- What `State.takeOut` keeps. -/
@[simp] theorem State.takeOut_frame (f : Fetched) (s : State) :
    (s.takeOut f).pending = s.pending ∧ (s.takeOut f).ident = s.ident ∧ (s.takeOut f).time = s.time ∧ (s.takeOut f).units = s.units ∧
    (s.takeOut f).desk = s.desk ∧ (s.takeOut f).parts = s.parts ∧ (s.takeOut f).archive = s.archive ∧ (s.takeOut f).pages = s.pages ∧
    (s.takeOut f).ledger = s.ledger ∧ (s.takeOut f).trouble = s.trouble ∧ (s.takeOut f).sec = s.sec ∧ (s.takeOut f).power = s.power ∧
    (s.takeOut f).boot = s.boot ∧ (s.takeOut f).dap = s.dap ∧ (s.takeOut f).seqs = s.seqs ∧ (s.takeOut f).synth = s.synth ∧
    (s.takeOut f).wave = s.wave ∧ (s.takeOut f).readout = s.readout ∧ (s.takeOut f).est = s.est ∧ (s.takeOut f).fabric = s.fabric ∧
    (s.takeOut f).conc = s.conc ∧ (s.takeOut f).acq = s.acq ∧ (s.takeOut f).bias = s.bias ∧ (s.takeOut f).cal = s.cal ∧
    (s.takeOut f).thermal = s.thermal ∧ (s.takeOut f).free = s.free := ⟨rfl, rfl, rfl, rfl, rfl, rfl, rfl, rfl, rfl, rfl, rfl, rfl, rfl, rfl, rfl, rfl, rfl, rfl, rfl, rfl, rfl, rfl, rfl, rfl, rfl, rfl⟩

/-- What `State.finish` keeps. -/
@[simp] theorem State.finish_frame (o : OpenCmd) (st : Nat) (r : Option Words) (t q : BitVec 64) (b : Nat) (s : State) (d : Nat) :
    (s.finish o st r t q b d).pending = s.pending ∧ (s.finish o st r t q b d).ident = s.ident ∧ (s.finish o st r t q b d).time = s.time ∧
    (s.finish o st r t q b d).units = s.units ∧ (s.finish o st r t q b d).parts = s.parts ∧ (s.finish o st r t q b d).archive = s.archive ∧
    (s.finish o st r t q b d).sec = s.sec ∧ (s.finish o st r t q b d).power = s.power ∧ (s.finish o st r t q b d).boot = s.boot ∧
    (s.finish o st r t q b d).dap = s.dap ∧ (s.finish o st r t q b d).seqs = s.seqs ∧ (s.finish o st r t q b d).synth = s.synth ∧
    (s.finish o st r t q b d).wave = s.wave ∧ (s.finish o st r t q b d).readout = s.readout ∧ (s.finish o st r t q b d).est = s.est ∧
    (s.finish o st r t q b d).fabric = s.fabric ∧ (s.finish o st r t q b d).conc = s.conc ∧ (s.finish o st r t q b d).acq = s.acq ∧
    (s.finish o st r t q b d).bias = s.bias ∧ (s.finish o st r t q b d).cal = s.cal ∧ (s.finish o st r t q b d).thermal = s.thermal := by
  simp [State.finish]

/-- What `State.endLong` keeps. -/
@[simp] theorem State.endLong_frame (o : OpenCmd) (st c : Nat) (r : LedgerRec) (s : State) :
    (s.endLong o st c r).pending = s.pending ∧ (s.endLong o st c r).ident = s.ident ∧ (s.endLong o st c r).time = s.time ∧
    (s.endLong o st c r).units = s.units ∧ (s.endLong o st c r).desk = s.desk ∧ (s.endLong o st c r).parts = s.parts ∧
    (s.endLong o st c r).archive = s.archive ∧ (s.endLong o st c r).sec = s.sec ∧ (s.endLong o st c r).power = s.power ∧
    (s.endLong o st c r).boot = s.boot ∧ (s.endLong o st c r).dap = s.dap ∧ (s.endLong o st c r).seqs = s.seqs ∧
    (s.endLong o st c r).synth = s.synth ∧ (s.endLong o st c r).wave = s.wave ∧ (s.endLong o st c r).readout = s.readout ∧
    (s.endLong o st c r).est = s.est ∧ (s.endLong o st c r).fabric = s.fabric ∧ (s.endLong o st c r).conc = s.conc ∧
    (s.endLong o st c r).acq = s.acq ∧ (s.endLong o st c r).bias = s.bias ∧ (s.endLong o st c r).cal = s.cal ∧
    (s.endLong o st c r).thermal = s.thermal := by
  unfold State.endLong; (try dsimp only); split <;> (try split) <;> simp

/-- What `State.modSeq` keeps. -/
@[simp] theorem State.modSeq_frame (q : Nat) (f : Seq → Seq) (s : State) :
    (s.modSeq q f).pending = s.pending ∧ (s.modSeq q f).ident = s.ident ∧ (s.modSeq q f).time = s.time ∧ (s.modSeq q f).host = s.host ∧
    (s.modSeq q f).units = s.units ∧ (s.modSeq q f).desk = s.desk ∧ (s.modSeq q f).parts = s.parts ∧ (s.modSeq q f).archive = s.archive ∧
    (s.modSeq q f).pages = s.pages ∧ (s.modSeq q f).ledger = s.ledger ∧ (s.modSeq q f).trouble = s.trouble ∧ (s.modSeq q f).sec = s.sec ∧
    (s.modSeq q f).power = s.power ∧ (s.modSeq q f).boot = s.boot ∧ (s.modSeq q f).dap = s.dap ∧ (s.modSeq q f).synth = s.synth ∧
    (s.modSeq q f).wave = s.wave ∧ (s.modSeq q f).readout = s.readout ∧ (s.modSeq q f).est = s.est ∧ (s.modSeq q f).fabric = s.fabric ∧
    (s.modSeq q f).conc = s.conc ∧ (s.modSeq q f).acq = s.acq ∧ (s.modSeq q f).bias = s.bias ∧ (s.modSeq q f).cal = s.cal ∧
    (s.modSeq q f).thermal = s.thermal ∧ (s.modSeq q f).free = s.free := ⟨rfl, rfl, rfl, rfl, rfl, rfl, rfl, rfl, rfl, rfl, rfl, rfl, rfl, rfl, rfl, rfl, rfl, rfl, rfl, rfl, rfl, rfl, rfl, rfl, rfl, rfl⟩

/-- What `State.modOut` keeps. -/
@[simp] theorem State.modOut_frame (o : Nat) (f : Output → Output) (s : State) :
    (s.modOut o f).pending = s.pending ∧ (s.modOut o f).ident = s.ident ∧ (s.modOut o f).time = s.time ∧ (s.modOut o f).host = s.host ∧
    (s.modOut o f).units = s.units ∧ (s.modOut o f).desk = s.desk ∧ (s.modOut o f).parts = s.parts ∧ (s.modOut o f).archive = s.archive ∧
    (s.modOut o f).pages = s.pages ∧ (s.modOut o f).ledger = s.ledger ∧ (s.modOut o f).trouble = s.trouble ∧ (s.modOut o f).sec = s.sec ∧
    (s.modOut o f).power = s.power ∧ (s.modOut o f).boot = s.boot ∧ (s.modOut o f).dap = s.dap ∧ (s.modOut o f).seqs = s.seqs ∧
    (s.modOut o f).wave = s.wave ∧ (s.modOut o f).readout = s.readout ∧ (s.modOut o f).est = s.est ∧ (s.modOut o f).fabric = s.fabric ∧
    (s.modOut o f).conc = s.conc ∧ (s.modOut o f).acq = s.acq ∧ (s.modOut o f).bias = s.bias ∧ (s.modOut o f).cal = s.cal ∧
    (s.modOut o f).thermal = s.thermal ∧ (s.modOut o f).free = s.free := ⟨rfl, rfl, rfl, rfl, rfl, rfl, rfl, rfl, rfl, rfl, rfl, rfl, rfl, rfl, rfl, rfl, rfl, rfl, rfl, rfl, rfl, rfl, rfl, rfl, rfl, rfl⟩

/-- What `State.modSlot` keeps. -/
@[simp] theorem State.modSlot_frame (b : Binding) (f : Slot → Slot) (s : State) :
    (s.modSlot b f).pending = s.pending ∧ (s.modSlot b f).ident = s.ident ∧ (s.modSlot b f).time = s.time ∧ (s.modSlot b f).host = s.host ∧
    (s.modSlot b f).units = s.units ∧ (s.modSlot b f).desk = s.desk ∧ (s.modSlot b f).parts = s.parts ∧ (s.modSlot b f).archive = s.archive ∧
    (s.modSlot b f).pages = s.pages ∧ (s.modSlot b f).ledger = s.ledger ∧ (s.modSlot b f).trouble = s.trouble ∧ (s.modSlot b f).sec = s.sec ∧
    (s.modSlot b f).power = s.power ∧ (s.modSlot b f).boot = s.boot ∧ (s.modSlot b f).dap = s.dap ∧ (s.modSlot b f).seqs = s.seqs ∧
    (s.modSlot b f).wave = s.wave ∧ (s.modSlot b f).readout = s.readout ∧ (s.modSlot b f).est = s.est ∧ (s.modSlot b f).fabric = s.fabric ∧
    (s.modSlot b f).conc = s.conc ∧ (s.modSlot b f).acq = s.acq ∧ (s.modSlot b f).bias = s.bias ∧ (s.modSlot b f).cal = s.cal ∧
    (s.modSlot b f).thermal = s.thermal ∧ (s.modSlot b f).free = s.free := by
  cases b <;> simp [State.modSlot]

/-- What `State.muteBy` keeps. -/
@[simp] theorem State.muteBy_frame (o : Nat) (f : Output → Output) (s : State) :
    (s.muteBy o f).pending = s.pending ∧ (s.muteBy o f).ident = s.ident ∧ (s.muteBy o f).time = s.time ∧ (s.muteBy o f).host = s.host ∧
    (s.muteBy o f).units = s.units ∧ (s.muteBy o f).desk = s.desk ∧ (s.muteBy o f).parts = s.parts ∧ (s.muteBy o f).archive = s.archive ∧
    (s.muteBy o f).pages = s.pages ∧ (s.muteBy o f).ledger = s.ledger ∧ (s.muteBy o f).trouble = s.trouble ∧ (s.muteBy o f).sec = s.sec ∧
    (s.muteBy o f).power = s.power ∧ (s.muteBy o f).boot = s.boot ∧ (s.muteBy o f).dap = s.dap ∧ (s.muteBy o f).seqs = s.seqs ∧
    (s.muteBy o f).wave = s.wave ∧ (s.muteBy o f).readout = s.readout ∧ (s.muteBy o f).est = s.est ∧ (s.muteBy o f).fabric = s.fabric ∧
    (s.muteBy o f).conc = s.conc ∧ (s.muteBy o f).acq = s.acq ∧ (s.muteBy o f).bias = s.bias ∧ (s.muteBy o f).cal = s.cal ∧
    (s.muteBy o f).thermal = s.thermal ∧ (s.muteBy o f).free = s.free := ⟨rfl, rfl, rfl, rfl, rfl, rfl, rfl, rfl, rfl, rfl, rfl, rfl, rfl, rfl, rfl, rfl, rfl, rfl, rfl, rfl, rfl, rfl, rfl, rfl, rfl, rfl⟩

/-- What `State.hear` keeps. -/
@[simp] theorem State.hear_frame (n o : Nat) (s : State) :
    (s.hear n o).pending = s.pending ∧ (s.hear n o).ident = s.ident ∧ (s.hear n o).time = s.time ∧ (s.hear n o).host = s.host ∧
    (s.hear n o).units = s.units ∧ (s.hear n o).desk = s.desk ∧ (s.hear n o).parts = s.parts ∧ (s.hear n o).archive = s.archive ∧
    (s.hear n o).pages = s.pages ∧ (s.hear n o).ledger = s.ledger ∧ (s.hear n o).trouble = s.trouble ∧ (s.hear n o).sec = s.sec ∧
    (s.hear n o).power = s.power ∧ (s.hear n o).boot = s.boot ∧ (s.hear n o).dap = s.dap ∧ (s.hear n o).seqs = s.seqs ∧ (s.hear n o).wave = s.wave ∧
    (s.hear n o).readout = s.readout ∧ (s.hear n o).est = s.est ∧ (s.hear n o).fabric = s.fabric ∧ (s.hear n o).conc = s.conc ∧
    (s.hear n o).acq = s.acq ∧ (s.hear n o).bias = s.bias ∧ (s.hear n o).cal = s.cal ∧ (s.hear n o).thermal = s.thermal ∧ (s.hear n o).free = s.free := by
  unfold State.hear; (try dsimp only); split <;> (try split) <;> (try split) <;> simp

/-- What `State.hearCluster` keeps. -/
@[simp] theorem State.hearCluster_frame (t k : Nat) (s : State) :
    (s.hearCluster t k).pending = s.pending ∧ (s.hearCluster t k).ident = s.ident ∧ (s.hearCluster t k).time = s.time ∧
    (s.hearCluster t k).host = s.host ∧ (s.hearCluster t k).units = s.units ∧ (s.hearCluster t k).desk = s.desk ∧
    (s.hearCluster t k).parts = s.parts ∧ (s.hearCluster t k).archive = s.archive ∧ (s.hearCluster t k).pages = s.pages ∧
    (s.hearCluster t k).ledger = s.ledger ∧ (s.hearCluster t k).trouble = s.trouble ∧ (s.hearCluster t k).sec = s.sec ∧
    (s.hearCluster t k).power = s.power ∧ (s.hearCluster t k).boot = s.boot ∧ (s.hearCluster t k).dap = s.dap ∧ (s.hearCluster t k).seqs = s.seqs ∧
    (s.hearCluster t k).wave = s.wave ∧ (s.hearCluster t k).readout = s.readout ∧ (s.hearCluster t k).est = s.est ∧
    (s.hearCluster t k).fabric = s.fabric ∧ (s.hearCluster t k).conc = s.conc ∧ (s.hearCluster t k).acq = s.acq ∧ (s.hearCluster t k).bias = s.bias ∧
    (s.hearCluster t k).cal = s.cal ∧ (s.hearCluster t k).thermal = s.thermal ∧ (s.hearCluster t k).free = s.free := by
  simp [State.hearCluster]

/-- What `State.hearDie` keeps. -/
@[simp] theorem State.hearDie_frame (d : Nat) (s : State) :
    (State.hearDie d s).pending = s.pending ∧ (State.hearDie d s).ident = s.ident ∧ (State.hearDie d s).time = s.time ∧ (State.hearDie d s).host = s.host ∧
    (State.hearDie d s).units = s.units ∧ (State.hearDie d s).desk = s.desk ∧ (State.hearDie d s).parts = s.parts ∧ (State.hearDie d s).archive = s.archive ∧
    (State.hearDie d s).pages = s.pages ∧ (State.hearDie d s).ledger = s.ledger ∧ (State.hearDie d s).trouble = s.trouble ∧ (State.hearDie d s).sec = s.sec ∧
    (State.hearDie d s).power = s.power ∧ (State.hearDie d s).boot = s.boot ∧ (State.hearDie d s).dap = s.dap ∧ (State.hearDie d s).seqs = s.seqs ∧
    (State.hearDie d s).wave = s.wave ∧ (State.hearDie d s).readout = s.readout ∧ (State.hearDie d s).est = s.est ∧ (State.hearDie d s).fabric = s.fabric ∧
    (State.hearDie d s).conc = s.conc ∧ (State.hearDie d s).acq = s.acq ∧ (State.hearDie d s).bias = s.bias ∧ (State.hearDie d s).cal = s.cal ∧
    (State.hearDie d s).thermal = s.thermal ∧ (State.hearDie d s).free = s.free := by
  unfold State.hearDie; simp


/-- What `State.hearEvery` keeps. -/
@[simp] theorem State.hearEvery_frame (s : State) :
    (s.hearEvery).pending = s.pending ∧ (s.hearEvery).ident = s.ident ∧ (s.hearEvery).time = s.time ∧ (s.hearEvery).host = s.host ∧
    (s.hearEvery).units = s.units ∧ (s.hearEvery).desk = s.desk ∧ (s.hearEvery).parts = s.parts ∧ (s.hearEvery).archive = s.archive ∧
    (s.hearEvery).pages = s.pages ∧ (s.hearEvery).ledger = s.ledger ∧ (s.hearEvery).trouble = s.trouble ∧ (s.hearEvery).sec = s.sec ∧
    (s.hearEvery).power = s.power ∧ (s.hearEvery).boot = s.boot ∧ (s.hearEvery).dap = s.dap ∧ (s.hearEvery).seqs = s.seqs ∧
    (s.hearEvery).wave = s.wave ∧ (s.hearEvery).readout = s.readout ∧ (s.hearEvery).est = s.est ∧ (s.hearEvery).fabric = s.fabric ∧
    (s.hearEvery).conc = s.conc ∧ (s.hearEvery).acq = s.acq ∧ (s.hearEvery).bias = s.bias ∧ (s.hearEvery).cal = s.cal ∧
    (s.hearEvery).thermal = s.thermal ∧ (s.hearEvery).free = s.free := by
  simp [State.hearEvery]

/-- What `State.muting` keeps. -/
@[simp] theorem State.muting_frame (o : Nat) (f : Output → Output) (s : State) :
    (s.muting o f).pending = s.pending ∧ (s.muting o f).ident = s.ident ∧ (s.muting o f).time = s.time ∧ (s.muting o f).host = s.host ∧
    (s.muting o f).units = s.units ∧ (s.muting o f).desk = s.desk ∧ (s.muting o f).parts = s.parts ∧ (s.muting o f).archive = s.archive ∧
    (s.muting o f).pages = s.pages ∧ (s.muting o f).ledger = s.ledger ∧ (s.muting o f).trouble = s.trouble ∧ (s.muting o f).sec = s.sec ∧
    (s.muting o f).power = s.power ∧ (s.muting o f).boot = s.boot ∧ (s.muting o f).dap = s.dap ∧ (s.muting o f).seqs = s.seqs ∧
    (s.muting o f).wave = s.wave ∧ (s.muting o f).readout = s.readout ∧ (s.muting o f).est = s.est ∧ (s.muting o f).fabric = s.fabric ∧
    (s.muting o f).conc = s.conc ∧ (s.muting o f).acq = s.acq ∧ (s.muting o f).bias = s.bias ∧ (s.muting o f).cal = s.cal ∧
    (s.muting o f).thermal = s.thermal ∧ (s.muting o f).free = s.free := by
  simp [State.muting]

/-- What `State.mutingAll` keeps. -/
@[simp] theorem State.mutingAll_frame (f : Output → Output) (s : State) :
    (s.mutingAll f).pending = s.pending ∧ (s.mutingAll f).ident = s.ident ∧ (s.mutingAll f).time = s.time ∧ (s.mutingAll f).host = s.host ∧
    (s.mutingAll f).units = s.units ∧ (s.mutingAll f).desk = s.desk ∧ (s.mutingAll f).parts = s.parts ∧ (s.mutingAll f).archive = s.archive ∧
    (s.mutingAll f).pages = s.pages ∧ (s.mutingAll f).ledger = s.ledger ∧ (s.mutingAll f).trouble = s.trouble ∧ (s.mutingAll f).sec = s.sec ∧
    (s.mutingAll f).power = s.power ∧ (s.mutingAll f).boot = s.boot ∧ (s.mutingAll f).dap = s.dap ∧ (s.mutingAll f).seqs = s.seqs ∧
    (s.mutingAll f).wave = s.wave ∧ (s.mutingAll f).readout = s.readout ∧ (s.mutingAll f).est = s.est ∧ (s.mutingAll f).fabric = s.fabric ∧
    (s.mutingAll f).conc = s.conc ∧ (s.mutingAll f).acq = s.acq ∧ (s.mutingAll f).bias = s.bias ∧ (s.mutingAll f).cal = s.cal ∧
    (s.mutingAll f).thermal = s.thermal ∧ (s.mutingAll f).free = s.free := by
  simp [State.mutingAll]

/-- What `State.unlockAll` keeps. -/
@[simp] theorem State.unlockAll_frame (b : Bool) (s : State) :
    (s.unlockAll b).pending = s.pending ∧ (s.unlockAll b).ident = s.ident ∧ (s.unlockAll b).time = s.time ∧ (s.unlockAll b).host = s.host ∧
    (s.unlockAll b).units = s.units ∧ (s.unlockAll b).desk = s.desk ∧ (s.unlockAll b).parts = s.parts ∧ (s.unlockAll b).archive = s.archive ∧
    (s.unlockAll b).pages = s.pages ∧ (s.unlockAll b).ledger = s.ledger ∧ (s.unlockAll b).trouble = s.trouble ∧ (s.unlockAll b).sec = s.sec ∧
    (s.unlockAll b).power = s.power ∧ (s.unlockAll b).boot = s.boot ∧ (s.unlockAll b).dap = s.dap ∧ (s.unlockAll b).seqs = s.seqs ∧
    (s.unlockAll b).wave = s.wave ∧ (s.unlockAll b).readout = s.readout ∧ (s.unlockAll b).est = s.est ∧ (s.unlockAll b).fabric = s.fabric ∧
    (s.unlockAll b).conc = s.conc ∧ (s.unlockAll b).acq = s.acq ∧ (s.unlockAll b).bias = s.bias ∧ (s.unlockAll b).cal = s.cal ∧
    (s.unlockAll b).thermal = s.thermal ∧ (s.unlockAll b).free = s.free := by
  simp [State.unlockAll]

/-- What `State.modDemod` keeps. -/
@[simp] theorem State.modDemod_frame (k : Nat) (f : DemodSlot → DemodSlot) (s : State) :
    (s.modDemod k f).pending = s.pending ∧ (s.modDemod k f).ident = s.ident ∧ (s.modDemod k f).time = s.time ∧ (s.modDemod k f).host = s.host ∧
    (s.modDemod k f).units = s.units ∧ (s.modDemod k f).desk = s.desk ∧ (s.modDemod k f).parts = s.parts ∧ (s.modDemod k f).archive = s.archive ∧
    (s.modDemod k f).pages = s.pages ∧ (s.modDemod k f).ledger = s.ledger ∧ (s.modDemod k f).trouble = s.trouble ∧ (s.modDemod k f).sec = s.sec ∧
    (s.modDemod k f).power = s.power ∧ (s.modDemod k f).boot = s.boot ∧ (s.modDemod k f).dap = s.dap ∧ (s.modDemod k f).seqs = s.seqs ∧
    (s.modDemod k f).synth = s.synth ∧ (s.modDemod k f).wave = s.wave ∧ (s.modDemod k f).est = s.est ∧ (s.modDemod k f).fabric = s.fabric ∧
    (s.modDemod k f).conc = s.conc ∧ (s.modDemod k f).acq = s.acq ∧ (s.modDemod k f).bias = s.bias ∧ (s.modDemod k f).cal = s.cal ∧
    (s.modDemod k f).thermal = s.thermal ∧ (s.modDemod k f).free = s.free := ⟨rfl, rfl, rfl, rfl, rfl, rfl, rfl, rfl, rfl, rfl, rfl, rfl, rfl, rfl, rfl, rfl, rfl, rfl, rfl, rfl, rfl, rfl, rfl, rfl, rfl, rfl⟩

/-- What `State.modLine` keeps. -/
@[simp] theorem State.modLine_frame (l : Nat) (f : Line → Line) (s : State) :
    (s.modLine l f).pending = s.pending ∧ (s.modLine l f).ident = s.ident ∧ (s.modLine l f).time = s.time ∧ (s.modLine l f).host = s.host ∧
    (s.modLine l f).units = s.units ∧ (s.modLine l f).desk = s.desk ∧ (s.modLine l f).parts = s.parts ∧ (s.modLine l f).archive = s.archive ∧
    (s.modLine l f).pages = s.pages ∧ (s.modLine l f).ledger = s.ledger ∧ (s.modLine l f).trouble = s.trouble ∧ (s.modLine l f).sec = s.sec ∧
    (s.modLine l f).power = s.power ∧ (s.modLine l f).boot = s.boot ∧ (s.modLine l f).dap = s.dap ∧ (s.modLine l f).seqs = s.seqs ∧
    (s.modLine l f).synth = s.synth ∧ (s.modLine l f).wave = s.wave ∧ (s.modLine l f).est = s.est ∧ (s.modLine l f).fabric = s.fabric ∧
    (s.modLine l f).conc = s.conc ∧ (s.modLine l f).acq = s.acq ∧ (s.modLine l f).bias = s.bias ∧ (s.modLine l f).cal = s.cal ∧
    (s.modLine l f).thermal = s.thermal ∧ (s.modLine l f).free = s.free := ⟨rfl, rfl, rfl, rfl, rfl, rfl, rfl, rfl, rfl, rfl, rfl, rfl, rfl, rfl, rfl, rfl, rfl, rfl, rfl, rfl, rfl, rfl, rfl, rfl, rfl, rfl⟩

/-- What `State.modEst` keeps. -/
@[simp] theorem State.modEst_frame (e : Nat) (f : Est → Est) (s : State) :
    (s.modEst e f).pending = s.pending ∧ (s.modEst e f).ident = s.ident ∧ (s.modEst e f).time = s.time ∧ (s.modEst e f).host = s.host ∧
    (s.modEst e f).units = s.units ∧ (s.modEst e f).desk = s.desk ∧ (s.modEst e f).parts = s.parts ∧ (s.modEst e f).archive = s.archive ∧
    (s.modEst e f).pages = s.pages ∧ (s.modEst e f).ledger = s.ledger ∧ (s.modEst e f).trouble = s.trouble ∧ (s.modEst e f).sec = s.sec ∧
    (s.modEst e f).power = s.power ∧ (s.modEst e f).boot = s.boot ∧ (s.modEst e f).dap = s.dap ∧ (s.modEst e f).seqs = s.seqs ∧
    (s.modEst e f).synth = s.synth ∧ (s.modEst e f).wave = s.wave ∧ (s.modEst e f).readout = s.readout ∧ (s.modEst e f).fabric = s.fabric ∧
    (s.modEst e f).conc = s.conc ∧ (s.modEst e f).acq = s.acq ∧ (s.modEst e f).bias = s.bias ∧ (s.modEst e f).cal = s.cal ∧
    (s.modEst e f).thermal = s.thermal ∧ (s.modEst e f).free = s.free := ⟨rfl, rfl, rfl, rfl, rfl, rfl, rfl, rfl, rfl, rfl, rfl, rfl, rfl, rfl, rfl, rfl, rfl, rfl, rfl, rfl, rfl, rfl, rfl, rfl, rfl, rfl⟩

/-- What `State.modLane` keeps. -/
@[simp] theorem State.modLane_frame (n : Nat) (f : Lane → Lane) (s : State) :
    (s.modLane n f).pending = s.pending ∧ (s.modLane n f).ident = s.ident ∧ (s.modLane n f).time = s.time ∧ (s.modLane n f).host = s.host ∧
    (s.modLane n f).units = s.units ∧ (s.modLane n f).desk = s.desk ∧ (s.modLane n f).parts = s.parts ∧ (s.modLane n f).archive = s.archive ∧
    (s.modLane n f).pages = s.pages ∧ (s.modLane n f).ledger = s.ledger ∧ (s.modLane n f).trouble = s.trouble ∧ (s.modLane n f).sec = s.sec ∧
    (s.modLane n f).power = s.power ∧ (s.modLane n f).boot = s.boot ∧ (s.modLane n f).dap = s.dap ∧ (s.modLane n f).seqs = s.seqs ∧
    (s.modLane n f).synth = s.synth ∧ (s.modLane n f).wave = s.wave ∧ (s.modLane n f).readout = s.readout ∧ (s.modLane n f).est = s.est ∧
    (s.modLane n f).conc = s.conc ∧ (s.modLane n f).acq = s.acq ∧ (s.modLane n f).bias = s.bias ∧ (s.modLane n f).cal = s.cal ∧
    (s.modLane n f).thermal = s.thermal ∧ (s.modLane n f).free = s.free := ⟨rfl, rfl, rfl, rfl, rfl, rfl, rfl, rfl, rfl, rfl, rfl, rfl, rfl, rfl, rfl, rfl, rfl, rfl, rfl, rfl, rfl, rfl, rfl, rfl, rfl, rfl⟩

/-- What `State.modRoute` keeps. -/
@[simp] theorem State.modRoute_frame (q : Nat) (f : RouteSeq → RouteSeq) (s : State) :
    (s.modRoute q f).pending = s.pending ∧ (s.modRoute q f).ident = s.ident ∧ (s.modRoute q f).time = s.time ∧ (s.modRoute q f).host = s.host ∧
    (s.modRoute q f).units = s.units ∧ (s.modRoute q f).desk = s.desk ∧ (s.modRoute q f).parts = s.parts ∧ (s.modRoute q f).archive = s.archive ∧
    (s.modRoute q f).pages = s.pages ∧ (s.modRoute q f).ledger = s.ledger ∧ (s.modRoute q f).trouble = s.trouble ∧ (s.modRoute q f).sec = s.sec ∧
    (s.modRoute q f).power = s.power ∧ (s.modRoute q f).boot = s.boot ∧ (s.modRoute q f).dap = s.dap ∧ (s.modRoute q f).seqs = s.seqs ∧
    (s.modRoute q f).synth = s.synth ∧ (s.modRoute q f).wave = s.wave ∧ (s.modRoute q f).readout = s.readout ∧ (s.modRoute q f).est = s.est ∧
    (s.modRoute q f).conc = s.conc ∧ (s.modRoute q f).acq = s.acq ∧ (s.modRoute q f).bias = s.bias ∧ (s.modRoute q f).cal = s.cal ∧
    (s.modRoute q f).thermal = s.thermal ∧ (s.modRoute q f).free = s.free := ⟨rfl, rfl, rfl, rfl, rfl, rfl, rfl, rfl, rfl, rfl, rfl, rfl, rfl, rfl, rfl, rfl, rfl, rfl, rfl, rfl, rfl, rfl, rfl, rfl, rfl, rfl⟩

/-- What `State.modSend` keeps. -/
@[simp] theorem State.modSend_frame (k : Nat) (f : SendEnt → SendEnt) (s : State) :
    (s.modSend k f).pending = s.pending ∧ (s.modSend k f).ident = s.ident ∧ (s.modSend k f).time = s.time ∧ (s.modSend k f).host = s.host ∧
    (s.modSend k f).units = s.units ∧ (s.modSend k f).desk = s.desk ∧ (s.modSend k f).parts = s.parts ∧ (s.modSend k f).archive = s.archive ∧
    (s.modSend k f).pages = s.pages ∧ (s.modSend k f).ledger = s.ledger ∧ (s.modSend k f).trouble = s.trouble ∧ (s.modSend k f).sec = s.sec ∧
    (s.modSend k f).power = s.power ∧ (s.modSend k f).boot = s.boot ∧ (s.modSend k f).dap = s.dap ∧ (s.modSend k f).seqs = s.seqs ∧
    (s.modSend k f).synth = s.synth ∧ (s.modSend k f).wave = s.wave ∧ (s.modSend k f).readout = s.readout ∧ (s.modSend k f).est = s.est ∧
    (s.modSend k f).conc = s.conc ∧ (s.modSend k f).acq = s.acq ∧ (s.modSend k f).bias = s.bias ∧ (s.modSend k f).cal = s.cal ∧
    (s.modSend k f).thermal = s.thermal ∧ (s.modSend k f).free = s.free := ⟨rfl, rfl, rfl, rfl, rfl, rfl, rfl, rfl, rfl, rfl, rfl, rfl, rfl, rfl, rfl, rfl, rfl, rfl, rfl, rfl, rfl, rfl, rfl, rfl, rfl, rfl⟩

/-- What `State.modView` keeps. -/
@[simp] theorem State.modView_frame (v : Nat) (f : View → View) (s : State) :
    (s.modView v f).pending = s.pending ∧ (s.modView v f).ident = s.ident ∧ (s.modView v f).time = s.time ∧ (s.modView v f).host = s.host ∧
    (s.modView v f).units = s.units ∧ (s.modView v f).desk = s.desk ∧ (s.modView v f).parts = s.parts ∧ (s.modView v f).archive = s.archive ∧
    (s.modView v f).pages = s.pages ∧ (s.modView v f).ledger = s.ledger ∧ (s.modView v f).trouble = s.trouble ∧ (s.modView v f).sec = s.sec ∧
    (s.modView v f).power = s.power ∧ (s.modView v f).boot = s.boot ∧ (s.modView v f).dap = s.dap ∧ (s.modView v f).seqs = s.seqs ∧
    (s.modView v f).synth = s.synth ∧ (s.modView v f).wave = s.wave ∧ (s.modView v f).readout = s.readout ∧ (s.modView v f).est = s.est ∧
    (s.modView v f).fabric = s.fabric ∧ (s.modView v f).acq = s.acq ∧ (s.modView v f).bias = s.bias ∧ (s.modView v f).cal = s.cal ∧
    (s.modView v f).thermal = s.thermal ∧ (s.modView v f).free = s.free := ⟨rfl, rfl, rfl, rfl, rfl, rfl, rfl, rfl, rfl, rfl, rfl, rfl, rfl, rfl, rfl, rfl, rfl, rfl, rfl, rfl, rfl, rfl, rfl, rfl, rfl, rfl⟩

/-- What `State.modMember` keeps. -/
@[simp] theorem State.modMember_frame (q : Nat) (f : Member → Member) (s : State) :
    (s.modMember q f).pending = s.pending ∧ (s.modMember q f).ident = s.ident ∧ (s.modMember q f).time = s.time ∧ (s.modMember q f).host = s.host ∧
    (s.modMember q f).units = s.units ∧ (s.modMember q f).desk = s.desk ∧ (s.modMember q f).parts = s.parts ∧ (s.modMember q f).archive = s.archive ∧
    (s.modMember q f).pages = s.pages ∧ (s.modMember q f).ledger = s.ledger ∧ (s.modMember q f).trouble = s.trouble ∧ (s.modMember q f).sec = s.sec ∧
    (s.modMember q f).power = s.power ∧ (s.modMember q f).boot = s.boot ∧ (s.modMember q f).dap = s.dap ∧ (s.modMember q f).seqs = s.seqs ∧
    (s.modMember q f).synth = s.synth ∧ (s.modMember q f).wave = s.wave ∧ (s.modMember q f).readout = s.readout ∧ (s.modMember q f).est = s.est ∧
    (s.modMember q f).fabric = s.fabric ∧ (s.modMember q f).acq = s.acq ∧ (s.modMember q f).bias = s.bias ∧ (s.modMember q f).cal = s.cal ∧
    (s.modMember q f).thermal = s.thermal ∧ (s.modMember q f).free = s.free := ⟨rfl, rfl, rfl, rfl, rfl, rfl, rfl, rfl, rfl, rfl, rfl, rfl, rfl, rfl, rfl, rfl, rfl, rfl, rfl, rfl, rfl, rfl, rfl, rfl, rfl, rfl⟩

/-- What `State.modCap` keeps. -/
@[simp] theorem State.modCap_frame (k : Nat) (f : CapSlot → CapSlot) (s : State) :
    (s.modCap k f).pending = s.pending ∧ (s.modCap k f).ident = s.ident ∧ (s.modCap k f).time = s.time ∧ (s.modCap k f).host = s.host ∧
    (s.modCap k f).units = s.units ∧ (s.modCap k f).desk = s.desk ∧ (s.modCap k f).parts = s.parts ∧ (s.modCap k f).archive = s.archive ∧
    (s.modCap k f).pages = s.pages ∧ (s.modCap k f).ledger = s.ledger ∧ (s.modCap k f).trouble = s.trouble ∧ (s.modCap k f).sec = s.sec ∧
    (s.modCap k f).power = s.power ∧ (s.modCap k f).boot = s.boot ∧ (s.modCap k f).dap = s.dap ∧ (s.modCap k f).seqs = s.seqs ∧
    (s.modCap k f).synth = s.synth ∧ (s.modCap k f).wave = s.wave ∧ (s.modCap k f).readout = s.readout ∧ (s.modCap k f).est = s.est ∧
    (s.modCap k f).fabric = s.fabric ∧ (s.modCap k f).conc = s.conc ∧ (s.modCap k f).bias = s.bias ∧ (s.modCap k f).cal = s.cal ∧
    (s.modCap k f).thermal = s.thermal ∧ (s.modCap k f).free = s.free := ⟨rfl, rfl, rfl, rfl, rfl, rfl, rfl, rfl, rfl, rfl, rfl, rfl, rfl, rfl, rfl, rfl, rfl, rfl, rfl, rfl, rfl, rfl, rfl, rfl, rfl, rfl⟩

/-- What `State.modPlans` keeps. -/
@[simp] theorem State.modPlans_frame (q : Nat) (f : Plans → Plans) (s : State) :
    (s.modPlans q f).pending = s.pending ∧ (s.modPlans q f).ident = s.ident ∧ (s.modPlans q f).time = s.time ∧ (s.modPlans q f).host = s.host ∧
    (s.modPlans q f).units = s.units ∧ (s.modPlans q f).desk = s.desk ∧ (s.modPlans q f).parts = s.parts ∧ (s.modPlans q f).archive = s.archive ∧
    (s.modPlans q f).pages = s.pages ∧ (s.modPlans q f).ledger = s.ledger ∧ (s.modPlans q f).trouble = s.trouble ∧ (s.modPlans q f).sec = s.sec ∧
    (s.modPlans q f).power = s.power ∧ (s.modPlans q f).boot = s.boot ∧ (s.modPlans q f).dap = s.dap ∧ (s.modPlans q f).seqs = s.seqs ∧
    (s.modPlans q f).synth = s.synth ∧ (s.modPlans q f).readout = s.readout ∧ (s.modPlans q f).est = s.est ∧ (s.modPlans q f).fabric = s.fabric ∧
    (s.modPlans q f).conc = s.conc ∧ (s.modPlans q f).acq = s.acq ∧ (s.modPlans q f).bias = s.bias ∧ (s.modPlans q f).cal = s.cal ∧
    (s.modPlans q f).thermal = s.thermal ∧ (s.modPlans q f).free = s.free := ⟨rfl, rfl, rfl, rfl, rfl, rfl, rfl, rfl, rfl, rfl, rfl, rfl, rfl, rfl, rfl, rfl, rfl, rfl, rfl, rfl, rfl, rfl, rfl, rfl, rfl, rfl⟩

/-- A granule copied again keeps the allocation of the Shelf. -/
@[simp] theorem Shelf.recopied_runs (a n : Nat) (h : Shelf) : (h.recopied a n).runs = h.runs := rfl
/-- So do several. -/
@[simp] theorem Shelf.recopied_all_runs (l : List ShelfRun) (h : Shelf) :
    (l.foldl (fun h r => h.recopied r.addr r.len) h).runs = h.runs := by
  induction l generalizing h with
  | nil => rfl
  | cons r l ih => simp [ih]

/-- What `State.modShelf` keeps. -/
@[simp] theorem State.modShelf_frame (d : Nat) (f : Shelf → Shelf) (s : State) :
    (s.modShelf d f).pending = s.pending ∧ (s.modShelf d f).ident = s.ident ∧ (s.modShelf d f).time = s.time ∧ (s.modShelf d f).host = s.host ∧
    (s.modShelf d f).units = s.units ∧ (s.modShelf d f).desk = s.desk ∧ (s.modShelf d f).parts = s.parts ∧ (s.modShelf d f).archive = s.archive ∧
    (s.modShelf d f).pages = s.pages ∧ (s.modShelf d f).ledger = s.ledger ∧ (s.modShelf d f).trouble = s.trouble ∧ (s.modShelf d f).sec = s.sec ∧
    (s.modShelf d f).power = s.power ∧ (s.modShelf d f).boot = s.boot ∧ (s.modShelf d f).dap = s.dap ∧ (s.modShelf d f).seqs = s.seqs ∧
    (s.modShelf d f).synth = s.synth ∧ (s.modShelf d f).readout = s.readout ∧ (s.modShelf d f).est = s.est ∧ (s.modShelf d f).fabric = s.fabric ∧
    (s.modShelf d f).conc = s.conc ∧ (s.modShelf d f).acq = s.acq ∧ (s.modShelf d f).bias = s.bias ∧ (s.modShelf d f).cal = s.cal ∧
    (s.modShelf d f).thermal = s.thermal ∧ (s.modShelf d f).free = s.free := ⟨rfl, rfl, rfl, rfl, rfl, rfl, rfl, rfl, rfl, rfl, rfl, rfl, rfl, rfl, rfl, rfl, rfl, rfl, rfl, rfl, rfl, rfl, rfl, rfl, rfl, rfl⟩

/-- What `State.modFolio` keeps. -/
@[simp] theorem State.modFolio_frame (n : Nat) (f : Folio → Folio) (s : State) :
    (s.modFolio n f).pending = s.pending ∧ (s.modFolio n f).ident = s.ident ∧ (s.modFolio n f).time = s.time ∧ (s.modFolio n f).host = s.host ∧
    (s.modFolio n f).units = s.units ∧ (s.modFolio n f).desk = s.desk ∧ (s.modFolio n f).parts = s.parts ∧ (s.modFolio n f).archive = s.archive ∧
    (s.modFolio n f).pages = s.pages ∧ (s.modFolio n f).ledger = s.ledger ∧ (s.modFolio n f).trouble = s.trouble ∧ (s.modFolio n f).sec = s.sec ∧
    (s.modFolio n f).power = s.power ∧ (s.modFolio n f).boot = s.boot ∧ (s.modFolio n f).dap = s.dap ∧ (s.modFolio n f).seqs = s.seqs ∧
    (s.modFolio n f).synth = s.synth ∧ (s.modFolio n f).readout = s.readout ∧ (s.modFolio n f).est = s.est ∧ (s.modFolio n f).fabric = s.fabric ∧
    (s.modFolio n f).conc = s.conc ∧ (s.modFolio n f).acq = s.acq ∧ (s.modFolio n f).bias = s.bias ∧ (s.modFolio n f).cal = s.cal ∧
    (s.modFolio n f).thermal = s.thermal ∧ (s.modFolio n f).free = s.free := ⟨rfl, rfl, rfl, rfl, rfl, rfl, rfl, rfl, rfl, rfl, rfl, rfl, rfl, rfl, rfl, rfl, rfl, rfl, rfl, rfl, rfl, rfl, rfl, rfl, rfl, rfl⟩

/-- What `State.modChan` keeps. -/
@[simp] theorem State.modChan_frame (b : Nat) (f : Chan → Chan) (s : State) :
    (s.modChan b f).pending = s.pending ∧ (s.modChan b f).ident = s.ident ∧ (s.modChan b f).time = s.time ∧ (s.modChan b f).host = s.host ∧
    (s.modChan b f).units = s.units ∧ (s.modChan b f).desk = s.desk ∧ (s.modChan b f).parts = s.parts ∧ (s.modChan b f).archive = s.archive ∧
    (s.modChan b f).pages = s.pages ∧ (s.modChan b f).ledger = s.ledger ∧ (s.modChan b f).trouble = s.trouble ∧ (s.modChan b f).sec = s.sec ∧
    (s.modChan b f).power = s.power ∧ (s.modChan b f).boot = s.boot ∧ (s.modChan b f).dap = s.dap ∧ (s.modChan b f).seqs = s.seqs ∧
    (s.modChan b f).synth = s.synth ∧ (s.modChan b f).wave = s.wave ∧ (s.modChan b f).readout = s.readout ∧ (s.modChan b f).est = s.est ∧
    (s.modChan b f).fabric = s.fabric ∧ (s.modChan b f).conc = s.conc ∧ (s.modChan b f).acq = s.acq ∧ (s.modChan b f).cal = s.cal ∧
    (s.modChan b f).thermal = s.thermal ∧ (s.modChan b f).free = s.free := ⟨rfl, rfl, rfl, rfl, rfl, rfl, rfl, rfl, rfl, rfl, rfl, rfl, rfl, rfl, rfl, rfl, rfl, rfl, rfl, rfl, rfl, rfl, rfl, rfl, rfl, rfl⟩

/-- What `State.modMon` keeps. -/
@[simp] theorem State.modMon_frame (m : Nat) (f : Monitor → Monitor) (s : State) :
    (s.modMon m f).pending = s.pending ∧ (s.modMon m f).ident = s.ident ∧ (s.modMon m f).time = s.time ∧ (s.modMon m f).host = s.host ∧
    (s.modMon m f).units = s.units ∧ (s.modMon m f).desk = s.desk ∧ (s.modMon m f).parts = s.parts ∧ (s.modMon m f).archive = s.archive ∧
    (s.modMon m f).pages = s.pages ∧ (s.modMon m f).ledger = s.ledger ∧ (s.modMon m f).trouble = s.trouble ∧ (s.modMon m f).sec = s.sec ∧
    (s.modMon m f).power = s.power ∧ (s.modMon m f).boot = s.boot ∧ (s.modMon m f).dap = s.dap ∧ (s.modMon m f).seqs = s.seqs ∧
    (s.modMon m f).synth = s.synth ∧ (s.modMon m f).wave = s.wave ∧ (s.modMon m f).readout = s.readout ∧ (s.modMon m f).est = s.est ∧
    (s.modMon m f).fabric = s.fabric ∧ (s.modMon m f).conc = s.conc ∧ (s.modMon m f).acq = s.acq ∧ (s.modMon m f).cal = s.cal ∧
    (s.modMon m f).thermal = s.thermal ∧ (s.modMon m f).free = s.free := ⟨rfl, rfl, rfl, rfl, rfl, rfl, rfl, rfl, rfl, rfl, rfl, rfl, rfl, rfl, rfl, rfl, rfl, rfl, rfl, rfl, rfl, rfl, rfl, rfl, rfl, rfl⟩

/-- What `State.svSync` keeps. -/
@[simp] theorem State.svSync_frame (s : State) :
    (s.svSync).pending = s.pending ∧ (s.svSync).ident = s.ident ∧ (s.svSync).time = s.time ∧ (s.svSync).host = s.host ∧ (s.svSync).units = s.units ∧
    (s.svSync).desk = s.desk ∧ (s.svSync).parts = s.parts ∧ (s.svSync).archive = s.archive ∧ (s.svSync).pages = s.pages ∧
    (s.svSync).ledger = s.ledger ∧ (s.svSync).trouble = s.trouble ∧ (s.svSync).sec = s.sec ∧ (s.svSync).power = s.power ∧ (s.svSync).boot = s.boot ∧
    (s.svSync).dap = s.dap ∧ (s.svSync).seqs = s.seqs ∧ (s.svSync).synth = s.synth ∧ (s.svSync).wave = s.wave ∧ (s.svSync).readout = s.readout ∧
    (s.svSync).est = s.est ∧ (s.svSync).fabric = s.fabric ∧ (s.svSync).conc = s.conc ∧ (s.svSync).bias = s.bias ∧ (s.svSync).cal = s.cal ∧
    (s.svSync).thermal = s.thermal ∧ (s.svSync).free = s.free := by
  unfold State.svSync; (try dsimp only); split <;> simp

/-- What `State.armAlm` keeps. -/
@[simp] theorem State.armAlm_frame (w : AlmWhat) (T : BitVec 32) (s : State) :
    ((s.armAlm w T).2).pending = s.pending ∧ ((s.armAlm w T).2).ident = s.ident ∧ ((s.armAlm w T).2).host = s.host ∧
    ((s.armAlm w T).2).units = s.units ∧ ((s.armAlm w T).2).desk = s.desk ∧ ((s.armAlm w T).2).parts = s.parts ∧
    ((s.armAlm w T).2).archive = s.archive ∧ ((s.armAlm w T).2).pages = s.pages ∧ ((s.armAlm w T).2).ledger = s.ledger ∧
    ((s.armAlm w T).2).trouble = s.trouble ∧ ((s.armAlm w T).2).sec = s.sec ∧ ((s.armAlm w T).2).power = s.power ∧ ((s.armAlm w T).2).boot = s.boot ∧
    ((s.armAlm w T).2).dap = s.dap ∧ ((s.armAlm w T).2).seqs = s.seqs ∧ ((s.armAlm w T).2).synth = s.synth ∧ ((s.armAlm w T).2).wave = s.wave ∧
    ((s.armAlm w T).2).readout = s.readout ∧ ((s.armAlm w T).2).est = s.est ∧ ((s.armAlm w T).2).fabric = s.fabric ∧
    ((s.armAlm w T).2).conc = s.conc ∧ ((s.armAlm w T).2).acq = s.acq ∧ ((s.armAlm w T).2).bias = s.bias ∧ ((s.armAlm w T).2).cal = s.cal ∧
    ((s.armAlm w T).2).thermal = s.thermal ∧ ((s.armAlm w T).2).free = s.free := ⟨rfl, rfl, rfl, rfl, rfl, rfl, rfl, rfl, rfl, rfl, rfl, rfl, rfl, rfl, rfl, rfl, rfl, rfl, rfl, rfl, rfl, rfl, rfl, rfl, rfl, rfl⟩

/-- What `State.drawWord` keeps. -/
@[simp] theorem State.drawWord_frame (s : State) :
    (s.drawWord.2).pending = s.pending ∧ (s.drawWord.2).ident = s.ident ∧ (s.drawWord.2).time = s.time ∧ (s.drawWord.2).host = s.host ∧
    (s.drawWord.2).units = s.units ∧ (s.drawWord.2).desk = s.desk ∧ (s.drawWord.2).parts = s.parts ∧ (s.drawWord.2).archive = s.archive ∧
    (s.drawWord.2).pages = s.pages ∧ (s.drawWord.2).ledger = s.ledger ∧ (s.drawWord.2).trouble = s.trouble ∧ (s.drawWord.2).sec = s.sec ∧
    (s.drawWord.2).power = s.power ∧ (s.drawWord.2).boot = s.boot ∧ (s.drawWord.2).dap = s.dap ∧ (s.drawWord.2).seqs = s.seqs ∧
    (s.drawWord.2).synth = s.synth ∧ (s.drawWord.2).wave = s.wave ∧ (s.drawWord.2).readout = s.readout ∧ (s.drawWord.2).est = s.est ∧
    (s.drawWord.2).fabric = s.fabric ∧ (s.drawWord.2).conc = s.conc ∧ (s.drawWord.2).acq = s.acq ∧ (s.drawWord.2).bias = s.bias ∧
    (s.drawWord.2).cal = s.cal ∧ (s.drawWord.2).thermal = s.thermal := ⟨rfl, rfl, rfl, rfl, rfl, rfl, rfl, rfl, rfl, rfl, rfl, rfl, rfl, rfl, rfl, rfl, rfl, rfl, rfl, rfl, rfl, rfl, rfl, rfl, rfl, rfl⟩

/-- What `State.draw256` keeps. -/
@[simp] theorem State.draw256_frame (s : State) :
    (s.draw256.2).pending = s.pending ∧ (s.draw256.2).ident = s.ident ∧ (s.draw256.2).time = s.time ∧ (s.draw256.2).host = s.host ∧
    (s.draw256.2).units = s.units ∧ (s.draw256.2).desk = s.desk ∧ (s.draw256.2).parts = s.parts ∧ (s.draw256.2).archive = s.archive ∧
    (s.draw256.2).pages = s.pages ∧ (s.draw256.2).ledger = s.ledger ∧ (s.draw256.2).trouble = s.trouble ∧ (s.draw256.2).sec = s.sec ∧
    (s.draw256.2).power = s.power ∧ (s.draw256.2).boot = s.boot ∧ (s.draw256.2).dap = s.dap ∧ (s.draw256.2).seqs = s.seqs ∧
    (s.draw256.2).synth = s.synth ∧ (s.draw256.2).wave = s.wave ∧ (s.draw256.2).readout = s.readout ∧ (s.draw256.2).est = s.est ∧
    (s.draw256.2).fabric = s.fabric ∧ (s.draw256.2).conc = s.conc ∧ (s.draw256.2).acq = s.acq ∧ (s.draw256.2).bias = s.bias ∧
    (s.draw256.2).cal = s.cal ∧ (s.draw256.2).thermal = s.thermal := ⟨rfl, rfl, rfl, rfl, rfl, rfl, rfl, rfl, rfl, rfl, rfl, rfl, rfl, rfl, rfl, rfl, rfl, rfl, rfl, rfl, rfl, rfl, rfl, rfl, rfl, rfl⟩

/-- What `State.event` keeps. -/
@[simp] theorem State.event_frame (n t : Nat) (s : State) :
    (s.event n t).pending = s.pending ∧ (s.event n t).ident = s.ident ∧ (s.event n t).time = s.time ∧ (s.event n t).host = s.host ∧
    (s.event n t).units = s.units ∧ (s.event n t).desk = s.desk ∧ (s.event n t).parts = s.parts ∧ (s.event n t).archive = s.archive ∧
    (s.event n t).pages = s.pages ∧ (s.event n t).ledger = s.ledger ∧ (s.event n t).trouble = s.trouble ∧ (s.event n t).sec = s.sec ∧
    (s.event n t).power = s.power ∧ (s.event n t).boot = s.boot ∧ (s.event n t).dap = s.dap ∧ (s.event n t).synth = s.synth ∧
    (s.event n t).wave = s.wave ∧ (s.event n t).readout = s.readout ∧ (s.event n t).est = s.est ∧ (s.event n t).fabric = s.fabric ∧
    (s.event n t).conc = s.conc ∧ (s.event n t).acq = s.acq ∧ (s.event n t).bias = s.bias ∧ (s.event n t).cal = s.cal ∧
    (s.event n t).thermal = s.thermal ∧ (s.event n t).free = s.free := ⟨rfl, rfl, rfl, rfl, rfl, rfl, rfl, rfl, rfl, rfl, rfl, rfl, rfl, rfl, rfl, rfl, rfl, rfl, rfl, rfl, rfl, rfl, rfl, rfl, rfl, rfl⟩

@[simp] theorem foldl_host_accept {α : Type} (f : State → α → State) (h : ∀ s x, (f s x).host.accept = s.host.accept) (l : List α) (s : State) :
    (l.foldl f s).host.accept = s.host.accept := foldl_keeps (·.host.accept) f h l s

@[simp] theorem foldl_host_sessions {α : Type} (f : State → α → State) (h : ∀ s x, (f s x).host.sessions = s.host.sessions) (l : List α) (s : State) :
    (l.foldl f s).host.sessions = s.host.sessions := foldl_keeps (·.host.sessions) f h l s

@[simp] theorem foldl_host_nextSerial {α : Type} (f : State → α → State) (h : ∀ s x, (f s x).host.nextSerial = s.host.nextSerial) (l : List α) (s : State) :
    (l.foldl f s).host.nextSerial = s.host.nextSerial := foldl_keeps (·.host.nextSerial) f h l s

@[simp] theorem foldl_host_queueFunc {α : Type} (f : State → α → State) (h : ∀ s x, (f s x).host.queueFunc = s.host.queueFunc) (l : List α) (s : State) :
    (l.foldl f s).host.queueFunc = s.host.queueFunc := foldl_keeps (·.host.queueFunc) f h l s

@[simp] theorem foldl_host_fetched {α : Type} (f : State → α → State) (h : ∀ s x, (f s x).host.fetched = s.host.fetched) (l : List α) (s : State) :
    (l.foldl f s).host.fetched = s.host.fetched := foldl_keeps (·.host.fetched) f h l s

@[simp] theorem foldl_host_waiting {α : Type} (f : State → α → State) (h : ∀ s x, (f s x).host.waiting = s.host.waiting) (l : List α) (s : State) :
    (l.foldl f s).host.waiting = s.host.waiting := foldl_keeps (·.host.waiting) f h l s

@[simp] theorem foldl_host_held {α : Type} (f : State → α → State) (h : ∀ s x, (f s x).host.held = s.host.held) (l : List α) (s : State) :
    (l.foldl f s).host.held = s.host.held := foldl_keeps (·.host.held) f h l s

@[simp] theorem foldl_host_open_ {α : Type} (f : State → α → State) (h : ∀ s x, (f s x).host.open_ = s.host.open_) (l : List α) (s : State) :
    (l.foldl f s).host.open_ = s.host.open_ := foldl_keeps (·.host.open_) f h l s

@[simp] theorem foldl_host_queues {α : Type} (f : State → α → State) (h : ∀ s x, (f s x).host.queues = s.host.queues) (l : List α) (s : State) :
    (l.foldl f s).host.queues = s.host.queues := foldl_keeps (·.host.queues) f h l s

@[simp] theorem foldl_host_debugQueue {α : Type} (f : State → α → State) (h : ∀ s x, (f s x).host.debugQueue = s.host.debugQueue) (l : List α) (s : State) :
    (l.foldl f s).host.debugQueue = s.host.debugQueue := foldl_keeps (·.host.debugQueue) f h l s

@[simp] theorem foldl_host_posted {α : Type} (f : State → α → State) (h : ∀ s x, (f s x).host.posted = s.host.posted) (l : List α) (s : State) :
    (l.foldl f s).host.posted = s.host.posted := foldl_keeps (·.host.posted) f h l s

/-- What `State.raiseFn` keeps of the command state. -/
@[simp] theorem State.raiseFn_host (f v : Nat) (s : State) :
    (s.raiseFn f v).host.accept = s.host.accept ∧ (s.raiseFn f v).host.sessions = s.host.sessions ∧
    (s.raiseFn f v).host.nextSerial = s.host.nextSerial ∧ (s.raiseFn f v).host.queueFunc = s.host.queueFunc ∧
    (s.raiseFn f v).host.fetched = s.host.fetched ∧ (s.raiseFn f v).host.waiting = s.host.waiting ∧ (s.raiseFn f v).host.held = s.host.held ∧
    (s.raiseFn f v).host.open_ = s.host.open_ ∧ (s.raiseFn f v).host.queues = s.host.queues ∧ (s.raiseFn f v).host.debugQueue = s.host.debugQueue ∧
    (s.raiseFn f v).host.posted = s.host.posted := by
  unfold State.raiseFn; (try dsimp only); (repeat' split) <;> simp

/-- What `State.raise` keeps of the command state. -/
@[simp] theorem State.raise_host (v : Nat) (s : State) :
    (s.raise v).host.accept = s.host.accept ∧ (s.raise v).host.sessions = s.host.sessions ∧ (s.raise v).host.nextSerial = s.host.nextSerial ∧
    (s.raise v).host.queueFunc = s.host.queueFunc ∧ (s.raise v).host.fetched = s.host.fetched ∧ (s.raise v).host.waiting = s.host.waiting ∧
    (s.raise v).host.held = s.host.held ∧ (s.raise v).host.open_ = s.host.open_ ∧ (s.raise v).host.queues = s.host.queues ∧
    (s.raise v).host.debugQueue = s.host.debugQueue ∧ (s.raise v).host.posted = s.host.posted := by
  unfold State.raise; (try dsimp only); (repeat' split) <;> simp

/-- What `State.raiseVf` keeps of the command state. -/
@[simp] theorem State.raiseVf_host (f v : Nat) (s : State) :
    (s.raiseVf f v).host.accept = s.host.accept ∧ (s.raiseVf f v).host.sessions = s.host.sessions ∧
    (s.raiseVf f v).host.nextSerial = s.host.nextSerial ∧ (s.raiseVf f v).host.queueFunc = s.host.queueFunc ∧
    (s.raiseVf f v).host.fetched = s.host.fetched ∧ (s.raiseVf f v).host.waiting = s.host.waiting ∧ (s.raiseVf f v).host.held = s.host.held ∧
    (s.raiseVf f v).host.open_ = s.host.open_ ∧ (s.raiseVf f v).host.queues = s.host.queues ∧ (s.raiseVf f v).host.debugQueue = s.host.debugQueue ∧
    (s.raiseVf f v).host.posted = s.host.posted := by
  unfold State.raiseVf; (try dsimp only); (repeat' split) <;> simp

/-- What `State.raiseOwned` keeps of the command state. -/
@[simp] theorem State.raiseOwned_host (v : Nat) (o : Fin 8) (s : State) :
    (s.raiseOwned v o).host.accept = s.host.accept ∧ (s.raiseOwned v o).host.sessions = s.host.sessions ∧
    (s.raiseOwned v o).host.nextSerial = s.host.nextSerial ∧ (s.raiseOwned v o).host.queueFunc = s.host.queueFunc ∧
    (s.raiseOwned v o).host.fetched = s.host.fetched ∧ (s.raiseOwned v o).host.waiting = s.host.waiting ∧
    (s.raiseOwned v o).host.held = s.host.held ∧ (s.raiseOwned v o).host.open_ = s.host.open_ ∧ (s.raiseOwned v o).host.queues = s.host.queues ∧
    (s.raiseOwned v o).host.debugQueue = s.host.debugQueue ∧ (s.raiseOwned v o).host.posted = s.host.posted := by
  unfold State.raiseOwned; (try dsimp only); (repeat' split) <;> simp

/-- What `State.raiseEvery` keeps of the command state. -/
@[simp] theorem State.raiseEvery_host (v : Nat) (s : State) :
    (s.raiseEvery v).host.accept = s.host.accept ∧ (s.raiseEvery v).host.sessions = s.host.sessions ∧
    (s.raiseEvery v).host.nextSerial = s.host.nextSerial ∧ (s.raiseEvery v).host.queueFunc = s.host.queueFunc ∧
    (s.raiseEvery v).host.fetched = s.host.fetched ∧ (s.raiseEvery v).host.waiting = s.host.waiting ∧ (s.raiseEvery v).host.held = s.host.held ∧
    (s.raiseEvery v).host.open_ = s.host.open_ ∧ (s.raiseEvery v).host.queues = s.host.queues ∧
    (s.raiseEvery v).host.debugQueue = s.host.debugQueue ∧ (s.raiseEvery v).host.posted = s.host.posted := by
  unfold State.raiseEvery; (try dsimp only); (repeat' split) <;> simp

/-- What `State.raiseFor` keeps of the command state. -/
@[simp] theorem State.raiseFor_host (src : Source) (v : Nat) (s : State) :
    (s.raiseFor src v).host.accept = s.host.accept ∧ (s.raiseFor src v).host.sessions = s.host.sessions ∧
    (s.raiseFor src v).host.nextSerial = s.host.nextSerial ∧ (s.raiseFor src v).host.queueFunc = s.host.queueFunc ∧
    (s.raiseFor src v).host.fetched = s.host.fetched ∧ (s.raiseFor src v).host.waiting = s.host.waiting ∧
    (s.raiseFor src v).host.held = s.host.held ∧ (s.raiseFor src v).host.open_ = s.host.open_ ∧ (s.raiseFor src v).host.queues = s.host.queues ∧
    (s.raiseFor src v).host.debugQueue = s.host.debugQueue ∧ (s.raiseFor src v).host.posted = s.host.posted := by
  unfold State.raiseFor; (try dsimp only); (repeat' split) <;> simp

/-- What `State.wrote` keeps of the command state. -/
@[simp] theorem State.wrote_host (p : Pages) (s : State) :
    (s.wrote p).host.accept = s.host.accept ∧ (s.wrote p).host.sessions = s.host.sessions ∧ (s.wrote p).host.nextSerial = s.host.nextSerial ∧
    (s.wrote p).host.queueFunc = s.host.queueFunc ∧ (s.wrote p).host.fetched = s.host.fetched ∧ (s.wrote p).host.waiting = s.host.waiting ∧
    (s.wrote p).host.held = s.host.held ∧ (s.wrote p).host.open_ = s.host.open_ ∧ (s.wrote p).host.queues = s.host.queues ∧
    (s.wrote p).host.debugQueue = s.host.debugQueue ∧ (s.wrote p).host.posted = s.host.posted := by
  unfold State.wrote; (try dsimp only); (repeat' split) <;> simp

/-- What `State.wroteDirect` keeps of the command state. -/
@[simp] theorem State.wroteDirect_host (a n : Nat) (s : State) :
    (s.wroteDirect a n).host.accept = s.host.accept ∧ (s.wroteDirect a n).host.sessions = s.host.sessions ∧
    (s.wroteDirect a n).host.nextSerial = s.host.nextSerial ∧ (s.wroteDirect a n).host.queueFunc = s.host.queueFunc ∧
    (s.wroteDirect a n).host.fetched = s.host.fetched ∧ (s.wroteDirect a n).host.waiting = s.host.waiting ∧
    (s.wroteDirect a n).host.held = s.host.held ∧ (s.wroteDirect a n).host.open_ = s.host.open_ ∧ (s.wroteDirect a n).host.queues = s.host.queues ∧
    (s.wroteDirect a n).host.debugQueue = s.host.debugQueue ∧ (s.wroteDirect a n).host.posted = s.host.posted := by
  unfold State.wroteDirect; (try dsimp only); (repeat' split) <;> simp

/-- What `State.checkpointOnce` keeps of the command state. -/
@[simp] theorem State.checkpointOnce_host (s : State) :
    (s.checkpointOnce).host.accept = s.host.accept ∧ (s.checkpointOnce).host.sessions = s.host.sessions ∧
    (s.checkpointOnce).host.nextSerial = s.host.nextSerial ∧ (s.checkpointOnce).host.queueFunc = s.host.queueFunc ∧
    (s.checkpointOnce).host.fetched = s.host.fetched ∧ (s.checkpointOnce).host.waiting = s.host.waiting ∧
    (s.checkpointOnce).host.held = s.host.held ∧ (s.checkpointOnce).host.open_ = s.host.open_ ∧ (s.checkpointOnce).host.queues = s.host.queues ∧
    (s.checkpointOnce).host.debugQueue = s.host.debugQueue ∧ (s.checkpointOnce).host.posted = s.host.posted := by
  unfold State.checkpointOnce; (try dsimp only); (repeat' split) <;> simp

/-- What `State.checkpoint` keeps of the command state. -/
@[simp] theorem State.checkpoint_host (s : State) :
    (s.checkpoint).host.accept = s.host.accept ∧ (s.checkpoint).host.sessions = s.host.sessions ∧
    (s.checkpoint).host.nextSerial = s.host.nextSerial ∧ (s.checkpoint).host.queueFunc = s.host.queueFunc ∧
    (s.checkpoint).host.fetched = s.host.fetched ∧ (s.checkpoint).host.waiting = s.host.waiting ∧ (s.checkpoint).host.held = s.host.held ∧
    (s.checkpoint).host.open_ = s.host.open_ ∧ (s.checkpoint).host.queues = s.host.queues ∧ (s.checkpoint).host.debugQueue = s.host.debugQueue ∧
    (s.checkpoint).host.posted = s.host.posted := by
  unfold State.checkpoint; (try dsimp only); (repeat' split) <;> simp

/-- What `State.noteDated` keeps of the command state. -/
@[simp] theorem State.noteDated_host (r : LedgerRec) (s : State) :
    (s.noteDated r).host.accept = s.host.accept ∧ (s.noteDated r).host.sessions = s.host.sessions ∧
    (s.noteDated r).host.nextSerial = s.host.nextSerial ∧ (s.noteDated r).host.queueFunc = s.host.queueFunc ∧
    (s.noteDated r).host.fetched = s.host.fetched ∧ (s.noteDated r).host.waiting = s.host.waiting ∧ (s.noteDated r).host.held = s.host.held ∧
    (s.noteDated r).host.open_ = s.host.open_ ∧ (s.noteDated r).host.queues = s.host.queues ∧ (s.noteDated r).host.debugQueue = s.host.debugQueue ∧
    (s.noteDated r).host.posted = s.host.posted := by
  unfold State.noteDated; (try dsimp only); (repeat' split) <;> simp

/-- What `State.note` keeps of the command state. -/
@[simp] theorem State.note_host (r : LedgerRec) (s : State) :
    (s.note r).host.accept = s.host.accept ∧ (s.note r).host.sessions = s.host.sessions ∧ (s.note r).host.nextSerial = s.host.nextSerial ∧
    (s.note r).host.queueFunc = s.host.queueFunc ∧ (s.note r).host.fetched = s.host.fetched ∧ (s.note r).host.waiting = s.host.waiting ∧
    (s.note r).host.held = s.host.held ∧ (s.note r).host.open_ = s.host.open_ ∧ (s.note r).host.queues = s.host.queues ∧
    (s.note r).host.debugQueue = s.host.debugQueue ∧ (s.note r).host.posted = s.host.posted := by
  unfold State.note; (try dsimp only); (repeat' split) <;> simp

/-- What `State.yields` keeps of the command state. -/
@[simp] theorem State.yields_host (k l : Nat) (s : State) :
    (s.yields k l).host.accept = s.host.accept ∧ (s.yields k l).host.sessions = s.host.sessions ∧
    (s.yields k l).host.nextSerial = s.host.nextSerial ∧ (s.yields k l).host.queueFunc = s.host.queueFunc ∧
    (s.yields k l).host.fetched = s.host.fetched ∧ (s.yields k l).host.waiting = s.host.waiting ∧ (s.yields k l).host.held = s.host.held ∧
    (s.yields k l).host.open_ = s.host.open_ ∧ (s.yields k l).host.queues = s.host.queues ∧ (s.yields k l).host.debugQueue = s.host.debugQueue ∧
    (s.yields k l).host.posted = s.host.posted := by
  unfold State.yields; (try dsimp only); (repeat' split) <;> simp

/-- What `State.setTrouble` keeps of the command state. -/
@[simp] theorem State.setTrouble_host (w : Fin 16) (b : Nat) (s : State) :
    (s.setTrouble w b).host.accept = s.host.accept ∧ (s.setTrouble w b).host.sessions = s.host.sessions ∧
    (s.setTrouble w b).host.nextSerial = s.host.nextSerial ∧ (s.setTrouble w b).host.queueFunc = s.host.queueFunc ∧
    (s.setTrouble w b).host.fetched = s.host.fetched ∧ (s.setTrouble w b).host.waiting = s.host.waiting ∧
    (s.setTrouble w b).host.held = s.host.held ∧ (s.setTrouble w b).host.open_ = s.host.open_ ∧ (s.setTrouble w b).host.queues = s.host.queues ∧
    (s.setTrouble w b).host.debugQueue = s.host.debugQueue ∧ (s.setTrouble w b).host.posted = s.host.posted := by
  unfold State.setTrouble; (try dsimp only); (repeat' split) <;> simp

/-- What `State.troubleOwned` keeps of the command state. -/
@[simp] theorem State.troubleOwned_host (w : Fin 16) (b : Nat) (o : Fin 8) (s : State) :
    (s.troubleOwned w b o).host.accept = s.host.accept ∧ (s.troubleOwned w b o).host.sessions = s.host.sessions ∧
    (s.troubleOwned w b o).host.nextSerial = s.host.nextSerial ∧ (s.troubleOwned w b o).host.queueFunc = s.host.queueFunc ∧
    (s.troubleOwned w b o).host.fetched = s.host.fetched ∧ (s.troubleOwned w b o).host.waiting = s.host.waiting ∧
    (s.troubleOwned w b o).host.held = s.host.held ∧ (s.troubleOwned w b o).host.open_ = s.host.open_ ∧
    (s.troubleOwned w b o).host.queues = s.host.queues ∧ (s.troubleOwned w b o).host.debugQueue = s.host.debugQueue ∧
    (s.troubleOwned w b o).host.posted = s.host.posted := by
  unfold State.troubleOwned; (try dsimp only); (repeat' split) <;> simp

/-- What `State.dramFault` keeps of the command state. -/
@[simp] theorem State.dramFault_host (c : Fin 8) (a : BitVec 32) (s : State) :
    (s.dramFault c a).host.accept = s.host.accept ∧ (s.dramFault c a).host.sessions = s.host.sessions ∧
    (s.dramFault c a).host.nextSerial = s.host.nextSerial ∧ (s.dramFault c a).host.queueFunc = s.host.queueFunc ∧
    (s.dramFault c a).host.fetched = s.host.fetched ∧ (s.dramFault c a).host.waiting = s.host.waiting ∧ (s.dramFault c a).host.held = s.host.held ∧
    (s.dramFault c a).host.open_ = s.host.open_ ∧ (s.dramFault c a).host.queues = s.host.queues ∧
    (s.dramFault c a).host.debugQueue = s.host.debugQueue ∧ (s.dramFault c a).host.posted = s.host.posted := by
  unfold State.dramFault; (try dsimp only); (repeat' split) <;> simp

/-- What `State.modQueue` keeps of the command state. -/
@[simp] theorem State.modQueue_host (src : Source) (f : Queue → Queue) (s : State) :
    (s.modQueue src f).host.accept = s.host.accept ∧ (s.modQueue src f).host.sessions = s.host.sessions ∧
    (s.modQueue src f).host.nextSerial = s.host.nextSerial ∧ (s.modQueue src f).host.queueFunc = s.host.queueFunc ∧
    (s.modQueue src f).host.fetched = s.host.fetched ∧ (s.modQueue src f).host.waiting = s.host.waiting ∧
    (s.modQueue src f).host.held = s.host.held ∧ (s.modQueue src f).host.open_ = s.host.open_ ∧ (s.modQueue src f).host.posted = s.host.posted := by
  cases src <;> simp [State.modQueue]

/-- What `State.setQState` keeps of the command state. -/
@[simp] theorem State.setQState_host (src : Source) (q : QState) (s : State) :
    (s.setQState src q).host.accept = s.host.accept ∧ (s.setQState src q).host.sessions = s.host.sessions ∧
    (s.setQState src q).host.nextSerial = s.host.nextSerial ∧ (s.setQState src q).host.queueFunc = s.host.queueFunc ∧
    (s.setQState src q).host.fetched = s.host.fetched ∧ (s.setQState src q).host.waiting = s.host.waiting ∧
    (s.setQState src q).host.held = s.host.held ∧ (s.setQState src q).host.open_ = s.host.open_ ∧ (s.setQState src q).host.posted = s.host.posted := by
  unfold State.setQState; (try dsimp only); (repeat' split) <;> simp

/-- What `State.breakQueue` keeps of the command state. -/
@[simp] theorem State.breakQueue_host (src : Source) (c : Nat) (s : State) :
    (s.breakQueue src c).host.accept = s.host.accept ∧ (s.breakQueue src c).host.sessions = s.host.sessions ∧
    (s.breakQueue src c).host.nextSerial = s.host.nextSerial ∧ (s.breakQueue src c).host.queueFunc = s.host.queueFunc ∧
    (s.breakQueue src c).host.fetched = s.host.fetched ∧ (s.breakQueue src c).host.waiting = s.host.waiting ∧
    (s.breakQueue src c).host.held = s.host.held ∧ (s.breakQueue src c).host.open_ = s.host.open_ ∧ (s.breakQueue src c).host.posted = s.host.posted := by
  unfold State.breakQueue; (try dsimp only); (repeat' split) <;> simp

/-- What `State.slowReport` keeps of the command state. -/
@[simp] theorem State.slowReport_host (b : Bool) (s : State) :
    (s.slowReport b).host.accept = s.host.accept ∧ (s.slowReport b).host.sessions = s.host.sessions ∧
    (s.slowReport b).host.nextSerial = s.host.nextSerial ∧ (s.slowReport b).host.queueFunc = s.host.queueFunc ∧
    (s.slowReport b).host.fetched = s.host.fetched ∧ (s.slowReport b).host.waiting = s.host.waiting ∧ (s.slowReport b).host.held = s.host.held ∧
    (s.slowReport b).host.open_ = s.host.open_ ∧ (s.slowReport b).host.queues = s.host.queues ∧
    (s.slowReport b).host.debugQueue = s.host.debugQueue ∧ (s.slowReport b).host.posted = s.host.posted := by
  unfold State.slowReport; (try dsimp only); (repeat' split) <;> simp

/-- What `State.signal` keeps of the command state. -/
@[simp] theorem State.signal_host (src : Source) (s : State) :
    (s.signal src).host.accept = s.host.accept ∧ (s.signal src).host.sessions = s.host.sessions ∧
    (s.signal src).host.nextSerial = s.host.nextSerial ∧ (s.signal src).host.queueFunc = s.host.queueFunc ∧
    (s.signal src).host.fetched = s.host.fetched ∧ (s.signal src).host.waiting = s.host.waiting ∧ (s.signal src).host.held = s.host.held ∧
    (s.signal src).host.open_ = s.host.open_ ∧ (s.signal src).host.posted = s.host.posted := by
  unfold State.signal; (try dsimp only); (repeat' split) <;> simp

/-- What `State.vectorsLast` keeps of the command state. -/
@[simp] theorem State.vectorsLast_host (n m : Nat) (s : State) :
    (s.vectorsLast n m).host.accept = s.host.accept ∧ (s.vectorsLast n m).host.sessions = s.host.sessions ∧
    (s.vectorsLast n m).host.nextSerial = s.host.nextSerial ∧ (s.vectorsLast n m).host.queueFunc = s.host.queueFunc ∧
    (s.vectorsLast n m).host.fetched = s.host.fetched ∧ (s.vectorsLast n m).host.waiting = s.host.waiting ∧
    (s.vectorsLast n m).host.held = s.host.held ∧ (s.vectorsLast n m).host.open_ = s.host.open_ ∧ (s.vectorsLast n m).host.queues = s.host.queues ∧
    (s.vectorsLast n m).host.debugQueue = s.host.debugQueue ∧ (s.vectorsLast n m).host.posted = s.host.posted := ⟨rfl, rfl, rfl, rfl, rfl, rfl, rfl, rfl, rfl, rfl, rfl⟩

/-- What `State.post` keeps of the command state. -/
@[simp] theorem State.post_host (c : Post) (s : State) :
    (s.post c).host.accept = s.host.accept ∧ (s.post c).host.sessions = s.host.sessions ∧ (s.post c).host.nextSerial = s.host.nextSerial ∧
    (s.post c).host.queueFunc = s.host.queueFunc ∧ (s.post c).host.fetched = s.host.fetched ∧ (s.post c).host.waiting = s.host.waiting ∧
    (s.post c).host.held = s.host.held ∧ (s.post c).host.open_ = s.host.open_ := by
  unfold State.post; (try dsimp only); (repeat' split) <;> simp

/-- What `State.refuse` keeps of the command state. -/
@[simp] theorem State.refuse_host (f : Fetched) (a : BitVec 32) (r : Refused) (s : State) :
    (s.refuse f a r).host.accept = s.host.accept ∧ (s.refuse f a r).host.sessions = s.host.sessions ∧
    (s.refuse f a r).host.nextSerial = s.host.nextSerial ∧ (s.refuse f a r).host.queueFunc = s.host.queueFunc ∧
    (s.refuse f a r).host.fetched = s.host.fetched ∧ (s.refuse f a r).host.waiting = s.host.waiting ∧ (s.refuse f a r).host.held = s.host.held ∧
    (s.refuse f a r).host.open_ = s.host.open_ := by
  unfold State.refuse; (try dsimp only); (repeat' split) <;> simp

/-- What `State.holdCmd` keeps of the command state. -/
@[simp] theorem State.holdCmd_host (f : Fetched) (a : BitVec 32) (l : List Wait) (s : State) :
    (s.holdCmd f a l).host.accept = s.host.accept ∧ (s.holdCmd f a l).host.sessions = s.host.sessions ∧
    (s.holdCmd f a l).host.nextSerial = s.host.nextSerial ∧ (s.holdCmd f a l).host.queueFunc = s.host.queueFunc ∧
    (s.holdCmd f a l).host.fetched = s.host.fetched ∧ (s.holdCmd f a l).host.waiting = s.host.waiting ∧ (s.holdCmd f a l).host.open_ = s.host.open_ := by
  unfold State.holdCmd; (try dsimp only); (repeat' split) <;> simp

/-- What `State.accepted` keeps of the command state. -/
@[simp] theorem State.accepted_host (p : Packet) (s : State) :
    (s.accepted p).host.sessions = s.host.sessions ∧ (s.accepted p).host.nextSerial = s.host.nextSerial ∧
    (s.accepted p).host.queueFunc = s.host.queueFunc ∧ (s.accepted p).host.fetched = s.host.fetched ∧ (s.accepted p).host.waiting = s.host.waiting ∧
    (s.accepted p).host.held = s.host.held ∧ (s.accepted p).host.open_ = s.host.open_ ∧ (s.accepted p).host.queues = s.host.queues ∧
    (s.accepted p).host.debugQueue = s.host.debugQueue ∧ (s.accepted p).host.posted = s.host.posted := by
  unfold State.accepted; (try dsimp only); (repeat' split) <;> simp

/-- What `State.checked` keeps of the command state. -/
@[simp] theorem State.checked_host (f : Fetched) (a : BitVec 32) (e : Effect) (s : State) :
    (s.checked f a e).host.accept = s.host.accept ∧ (s.checked f a e).host.sessions = s.host.sessions ∧
    (s.checked f a e).host.nextSerial = s.host.nextSerial ∧ (s.checked f a e).host.queueFunc = s.host.queueFunc ∧
    (s.checked f a e).host.fetched = s.host.fetched ∧ (s.checked f a e).host.waiting = s.host.waiting ∧ (s.checked f a e).host.held = s.host.held ∧
    (s.checked f a e).host.open_ = s.host.open_ := by
  unfold State.checked; (try dsimp only); (repeat' split) <;> simp

/-- What `State.enter_` keeps of the command state. -/
@[simp] theorem State.enter__host (f : Fetched) (s : State) :
    (s.enter_ f).host.accept = s.host.accept ∧ (s.enter_ f).host.sessions = s.host.sessions ∧ (s.enter_ f).host.nextSerial = s.host.nextSerial ∧
    (s.enter_ f).host.queueFunc = s.host.queueFunc ∧ (s.enter_ f).host.waiting = s.host.waiting ∧ (s.enter_ f).host.held = s.host.held ∧
    (s.enter_ f).host.open_ = s.host.open_ ∧ (s.enter_ f).host.queues = s.host.queues ∧ (s.enter_ f).host.debugQueue = s.host.debugQueue ∧
    (s.enter_ f).host.posted = s.host.posted := ⟨rfl, rfl, rfl, rfl, rfl, rfl, rfl, rfl, rfl, rfl⟩

/-- What `State.parkPacket` keeps of the command state. -/
@[simp] theorem State.parkPacket_host (f : Fetched) (s : State) :
    (s.parkPacket f).host.accept = s.host.accept ∧ (s.parkPacket f).host.sessions = s.host.sessions ∧
    (s.parkPacket f).host.nextSerial = s.host.nextSerial ∧ (s.parkPacket f).host.queueFunc = s.host.queueFunc ∧
    (s.parkPacket f).host.held = s.host.held ∧ (s.parkPacket f).host.open_ = s.host.open_ ∧ (s.parkPacket f).host.queues = s.host.queues ∧
    (s.parkPacket f).host.debugQueue = s.host.debugQueue ∧ (s.parkPacket f).host.posted = s.host.posted := ⟨rfl, rfl, rfl, rfl, rfl, rfl, rfl, rfl, rfl⟩

/-- What `State.takeOut` keeps of the command state. -/
@[simp] theorem State.takeOut_host (f : Fetched) (s : State) :
    (s.takeOut f).host.accept = s.host.accept ∧ (s.takeOut f).host.sessions = s.host.sessions ∧ (s.takeOut f).host.nextSerial = s.host.nextSerial ∧
    (s.takeOut f).host.queueFunc = s.host.queueFunc ∧ (s.takeOut f).host.waiting = s.host.waiting ∧ (s.takeOut f).host.held = s.host.held ∧
    (s.takeOut f).host.open_ = s.host.open_ ∧ (s.takeOut f).host.queues = s.host.queues ∧ (s.takeOut f).host.debugQueue = s.host.debugQueue ∧
    (s.takeOut f).host.posted = s.host.posted := ⟨rfl, rfl, rfl, rfl, rfl, rfl, rfl, rfl, rfl, rfl⟩

/-- What `State.finish` keeps of the command state. -/
@[simp] theorem State.finish_host (o : OpenCmd) (st : Nat) (r : Option Words) (t q : BitVec 64) (b : Nat) (s : State) (d : Nat) :
    (s.finish o st r t q b d).host.accept = s.host.accept ∧ (s.finish o st r t q b d).host.sessions = s.host.sessions ∧
    (s.finish o st r t q b d).host.nextSerial = s.host.nextSerial ∧ (s.finish o st r t q b d).host.queueFunc = s.host.queueFunc ∧
    (s.finish o st r t q b d).host.fetched = s.host.fetched ∧ (s.finish o st r t q b d).host.waiting = s.host.waiting ∧
    (s.finish o st r t q b d).host.held = s.host.held := by
  unfold State.finish; (try dsimp only); (repeat' split) <;> simp

/-- What `State.endLong` keeps of the command state. -/
@[simp] theorem State.endLong_host (o : OpenCmd) (st c : Nat) (r : LedgerRec) (s : State) :
    (s.endLong o st c r).host.accept = s.host.accept ∧ (s.endLong o st c r).host.sessions = s.host.sessions ∧
    (s.endLong o st c r).host.nextSerial = s.host.nextSerial ∧ (s.endLong o st c r).host.queueFunc = s.host.queueFunc ∧
    (s.endLong o st c r).host.fetched = s.host.fetched ∧ (s.endLong o st c r).host.waiting = s.host.waiting ∧
    (s.endLong o st c r).host.held = s.host.held ∧ (s.endLong o st c r).host.queues = s.host.queues ∧
    (s.endLong o st c r).host.debugQueue = s.host.debugQueue ∧ (s.endLong o st c r).host.posted = s.host.posted := by
  unfold State.endLong; (try dsimp only); (repeat' split) <;> simp

end Sys2Proof.Machine
end

