-- ==== Sys2Proof/Laws/Frames.lean ====
section
/-!
SUPPORT. Laws/Frames.lean: for every operation of the commands' files, the parts of the state that it leaves as they were.
-/
namespace Sys2Proof.Machine

/-- What `State.unparkPacket` keeps. -/
@[simp] theorem State.unparkPacket_frame (f : Fetched) (s : State) :
    (State.unparkPacket f s).2.pending = s.pending ∧ (State.unparkPacket f s).2.ident = s.ident ∧ (State.unparkPacket f s).2.time = s.time ∧
    (State.unparkPacket f s).2.units = s.units ∧ (State.unparkPacket f s).2.desk = s.desk ∧ (State.unparkPacket f s).2.parts = s.parts ∧
    (State.unparkPacket f s).2.archive = s.archive ∧ (State.unparkPacket f s).2.pages = s.pages ∧ (State.unparkPacket f s).2.ledger = s.ledger ∧
    (State.unparkPacket f s).2.trouble = s.trouble ∧ (State.unparkPacket f s).2.sec = s.sec ∧ (State.unparkPacket f s).2.power = s.power ∧
    (State.unparkPacket f s).2.boot = s.boot ∧ (State.unparkPacket f s).2.dap = s.dap ∧ (State.unparkPacket f s).2.seqs = s.seqs ∧
    (State.unparkPacket f s).2.synth = s.synth ∧ (State.unparkPacket f s).2.wave = s.wave ∧ (State.unparkPacket f s).2.readout = s.readout ∧
    (State.unparkPacket f s).2.est = s.est ∧ (State.unparkPacket f s).2.fabric = s.fabric ∧ (State.unparkPacket f s).2.conc = s.conc ∧
    (State.unparkPacket f s).2.acq = s.acq ∧ (State.unparkPacket f s).2.bias = s.bias ∧ (State.unparkPacket f s).2.cal = s.cal ∧
    (State.unparkPacket f s).2.thermal = s.thermal ∧ (State.unparkPacket f s).2.free = s.free := by
  unfold State.unparkPacket; (try dsimp only)
  all_goals (first | done | simp)

/-- What `State.settle` keeps. -/
@[simp] theorem State.settle_frame (q b t : Nat) (s : State) :
    (State.settle q b t s).pending = s.pending ∧ (State.settle q b t s).ident = s.ident ∧ (State.settle q b t s).time = s.time ∧
    (State.settle q b t s).units = s.units ∧ (State.settle q b t s).desk = s.desk ∧ (State.settle q b t s).parts = s.parts ∧
    (State.settle q b t s).archive = s.archive ∧ (State.settle q b t s).sec = s.sec ∧ (State.settle q b t s).power = s.power ∧
    (State.settle q b t s).boot = s.boot ∧ (State.settle q b t s).dap = s.dap ∧ (State.settle q b t s).readout = s.readout ∧
    (State.settle q b t s).est = s.est ∧ (State.settle q b t s).fabric = s.fabric ∧ (State.settle q b t s).conc = s.conc ∧ (State.settle q b t s).acq = s.acq ∧
    (State.settle q b t s).bias = s.bias ∧ (State.settle q b t s).cal = s.cal ∧ (State.settle q b t s).thermal = s.thermal := by
  unfold State.settle; (try dsimp only)
  repeat' split
  all_goals (first | done | simp)

/-- What `State.settleAll` keeps. -/
@[simp] theorem State.settleAll_frame (q t : Nat) (s : State) :
    (State.settleAll q t s).pending = s.pending ∧ (State.settleAll q t s).ident = s.ident ∧ (State.settleAll q t s).time = s.time ∧
    (State.settleAll q t s).units = s.units ∧ (State.settleAll q t s).desk = s.desk ∧ (State.settleAll q t s).parts = s.parts ∧
    (State.settleAll q t s).archive = s.archive ∧ (State.settleAll q t s).sec = s.sec ∧ (State.settleAll q t s).power = s.power ∧
    (State.settleAll q t s).boot = s.boot ∧ (State.settleAll q t s).dap = s.dap ∧ (State.settleAll q t s).readout = s.readout ∧
    (State.settleAll q t s).est = s.est ∧ (State.settleAll q t s).fabric = s.fabric ∧ (State.settleAll q t s).conc = s.conc ∧
    (State.settleAll q t s).acq = s.acq ∧ (State.settleAll q t s).bias = s.bias ∧ (State.settleAll q t s).cal = s.cal ∧
    (State.settleAll q t s).thermal = s.thermal := by
  unfold State.settleAll
  all_goals (first | done | simp)

/-- What `State.modIn` keeps. -/
@[simp] theorem State.modIn_frame (i : Nat) (f : TrigIn → TrigIn) (s : State) :
    (State.modIn i f s).pending = s.pending ∧ (State.modIn i f s).ident = s.ident ∧ (State.modIn i f s).time = s.time ∧ (State.modIn i f s).host = s.host ∧
    (State.modIn i f s).units = s.units ∧ (State.modIn i f s).desk = s.desk ∧ (State.modIn i f s).parts = s.parts ∧ (State.modIn i f s).archive = s.archive ∧
    (State.modIn i f s).pages = s.pages ∧ (State.modIn i f s).ledger = s.ledger ∧ (State.modIn i f s).trouble = s.trouble ∧ (State.modIn i f s).sec = s.sec ∧
    (State.modIn i f s).power = s.power ∧ (State.modIn i f s).boot = s.boot ∧ (State.modIn i f s).dap = s.dap ∧ (State.modIn i f s).seqs = s.seqs ∧
    (State.modIn i f s).synth = s.synth ∧ (State.modIn i f s).wave = s.wave ∧ (State.modIn i f s).readout = s.readout ∧ (State.modIn i f s).est = s.est ∧
    (State.modIn i f s).fabric = s.fabric ∧ (State.modIn i f s).conc = s.conc ∧ (State.modIn i f s).bias = s.bias ∧ (State.modIn i f s).cal = s.cal ∧
    (State.modIn i f s).thermal = s.thermal ∧ (State.modIn i f s).free = s.free := by
  unfold State.modIn; (try dsimp only)
  all_goals (first | done | simp)

/-- What `State.trigEvent` keeps. -/
@[simp] theorem State.trigEvent_frame (i : Nat) (s : State) :
    (State.trigEvent i s).pending = s.pending ∧ (State.trigEvent i s).ident = s.ident ∧ (State.trigEvent i s).host = s.host ∧
    (State.trigEvent i s).units = s.units ∧ (State.trigEvent i s).desk = s.desk ∧ (State.trigEvent i s).parts = s.parts ∧
    (State.trigEvent i s).archive = s.archive ∧ (State.trigEvent i s).pages = s.pages ∧ (State.trigEvent i s).ledger = s.ledger ∧
    (State.trigEvent i s).trouble = s.trouble ∧ (State.trigEvent i s).sec = s.sec ∧ (State.trigEvent i s).power = s.power ∧
    (State.trigEvent i s).boot = s.boot ∧ (State.trigEvent i s).dap = s.dap ∧ (State.trigEvent i s).synth = s.synth ∧ (State.trigEvent i s).wave = s.wave ∧
    (State.trigEvent i s).readout = s.readout ∧ (State.trigEvent i s).est = s.est ∧ (State.trigEvent i s).fabric = s.fabric ∧
    (State.trigEvent i s).conc = s.conc ∧ (State.trigEvent i s).bias = s.bias ∧ (State.trigEvent i s).cal = s.cal ∧ (State.trigEvent i s).thermal = s.thermal ∧
    (State.trigEvent i s).free = s.free := by
  unfold State.trigEvent; (try dsimp only)
  repeat' split
  all_goals (first | done | simp)

/-- What `State.lineEdge` keeps. -/
@[simp] theorem State.lineEdge_frame (i y : Nat) (ext : Bool) (s : State) :
    (State.lineEdge i y ext s).pending = s.pending ∧ (State.lineEdge i y ext s).ident = s.ident ∧ (State.lineEdge i y ext s).host = s.host ∧
    (State.lineEdge i y ext s).units = s.units ∧ (State.lineEdge i y ext s).desk = s.desk ∧ (State.lineEdge i y ext s).parts = s.parts ∧
    (State.lineEdge i y ext s).archive = s.archive ∧ (State.lineEdge i y ext s).pages = s.pages ∧ (State.lineEdge i y ext s).ledger = s.ledger ∧
    (State.lineEdge i y ext s).trouble = s.trouble ∧ (State.lineEdge i y ext s).sec = s.sec ∧ (State.lineEdge i y ext s).power = s.power ∧
    (State.lineEdge i y ext s).boot = s.boot ∧ (State.lineEdge i y ext s).dap = s.dap ∧ (State.lineEdge i y ext s).synth = s.synth ∧
    (State.lineEdge i y ext s).wave = s.wave ∧ (State.lineEdge i y ext s).readout = s.readout ∧ (State.lineEdge i y ext s).est = s.est ∧
    (State.lineEdge i y ext s).fabric = s.fabric ∧ (State.lineEdge i y ext s).conc = s.conc ∧ (State.lineEdge i y ext s).bias = s.bias ∧
    (State.lineEdge i y ext s).cal = s.cal ∧ (State.lineEdge i y ext s).thermal = s.thermal ∧ (State.lineEdge i y ext s).free = s.free := by
  unfold State.lineEdge; (try dsimp only)
  repeat' split
  all_goals (first | done | simp)

/-- What `State.ownEdge` keeps. -/
@[simp] theorem State.ownEdge_frame (i t : Nat) (s : State) :
    (State.ownEdge i t s).pending = s.pending ∧ (State.ownEdge i t s).ident = s.ident ∧ (State.ownEdge i t s).host = s.host ∧
    (State.ownEdge i t s).units = s.units ∧ (State.ownEdge i t s).desk = s.desk ∧ (State.ownEdge i t s).parts = s.parts ∧
    (State.ownEdge i t s).archive = s.archive ∧ (State.ownEdge i t s).pages = s.pages ∧ (State.ownEdge i t s).ledger = s.ledger ∧
    (State.ownEdge i t s).trouble = s.trouble ∧ (State.ownEdge i t s).sec = s.sec ∧ (State.ownEdge i t s).power = s.power ∧
    (State.ownEdge i t s).boot = s.boot ∧ (State.ownEdge i t s).dap = s.dap ∧ (State.ownEdge i t s).synth = s.synth ∧ (State.ownEdge i t s).wave = s.wave ∧
    (State.ownEdge i t s).readout = s.readout ∧ (State.ownEdge i t s).est = s.est ∧ (State.ownEdge i t s).fabric = s.fabric ∧
    (State.ownEdge i t s).conc = s.conc ∧ (State.ownEdge i t s).bias = s.bias ∧ (State.ownEdge i t s).cal = s.cal ∧ (State.ownEdge i t s).thermal = s.thermal := by
  unfold State.ownEdge; (try dsimp only)
  all_goals (first | done | simp)

/-- What `State.acqTrouble` keeps. -/
@[simp] theorem State.acqTrouble_frame (k bit : Nat) (s : State) :
    (State.acqTrouble k bit s).pending = s.pending ∧ (State.acqTrouble k bit s).ident = s.ident ∧ (State.acqTrouble k bit s).time = s.time ∧
    (State.acqTrouble k bit s).units = s.units ∧ (State.acqTrouble k bit s).desk = s.desk ∧ (State.acqTrouble k bit s).parts = s.parts ∧
    (State.acqTrouble k bit s).archive = s.archive ∧ (State.acqTrouble k bit s).sec = s.sec ∧ (State.acqTrouble k bit s).power = s.power ∧
    (State.acqTrouble k bit s).boot = s.boot ∧ (State.acqTrouble k bit s).dap = s.dap ∧ (State.acqTrouble k bit s).seqs = s.seqs ∧
    (State.acqTrouble k bit s).synth = s.synth ∧ (State.acqTrouble k bit s).wave = s.wave ∧ (State.acqTrouble k bit s).readout = s.readout ∧
    (State.acqTrouble k bit s).est = s.est ∧ (State.acqTrouble k bit s).fabric = s.fabric ∧ (State.acqTrouble k bit s).conc = s.conc ∧
    (State.acqTrouble k bit s).acq = s.acq ∧ (State.acqTrouble k bit s).bias = s.bias ∧ (State.acqTrouble k bit s).cal = s.cal ∧
    (State.acqTrouble k bit s).thermal = s.thermal := by
  unfold State.acqTrouble
  all_goals (first | done | simp)

/-- What `State.dropRecord` keeps. -/
@[simp] theorem State.dropRecord_frame (k : Nat) (full : Bool) (s : State) :
    (State.dropRecord k full s).pending = s.pending ∧ (State.dropRecord k full s).ident = s.ident ∧ (State.dropRecord k full s).time = s.time ∧
    (State.dropRecord k full s).units = s.units ∧ (State.dropRecord k full s).desk = s.desk ∧ (State.dropRecord k full s).parts = s.parts ∧
    (State.dropRecord k full s).archive = s.archive ∧ (State.dropRecord k full s).sec = s.sec ∧ (State.dropRecord k full s).power = s.power ∧
    (State.dropRecord k full s).boot = s.boot ∧ (State.dropRecord k full s).dap = s.dap ∧ (State.dropRecord k full s).seqs = s.seqs ∧
    (State.dropRecord k full s).synth = s.synth ∧ (State.dropRecord k full s).wave = s.wave ∧ (State.dropRecord k full s).readout = s.readout ∧
    (State.dropRecord k full s).est = s.est ∧ (State.dropRecord k full s).fabric = s.fabric ∧ (State.dropRecord k full s).conc = s.conc ∧
    (State.dropRecord k full s).bias = s.bias ∧ (State.dropRecord k full s).cal = s.cal ∧ (State.dropRecord k full s).thermal = s.thermal := by
  unfold State.dropRecord
  repeat' split
  all_goals (first | done | simp)

/-- What `State.emit` keeps. -/
@[simp] theorem State.emit_frame (k : Nat) (full : Bool) (h : Header) (data : Words) (s : State) :
    (State.emit k full h data s).pending = s.pending ∧ (State.emit k full h data s).ident = s.ident ∧ (State.emit k full h data s).time = s.time ∧
    (State.emit k full h data s).host = s.host ∧ (State.emit k full h data s).units = s.units ∧ (State.emit k full h data s).desk = s.desk ∧
    (State.emit k full h data s).parts = s.parts ∧ (State.emit k full h data s).archive = s.archive ∧ (State.emit k full h data s).pages = s.pages ∧
    (State.emit k full h data s).ledger = s.ledger ∧ (State.emit k full h data s).trouble = s.trouble ∧ (State.emit k full h data s).sec = s.sec ∧
    (State.emit k full h data s).power = s.power ∧ (State.emit k full h data s).boot = s.boot ∧ (State.emit k full h data s).dap = s.dap ∧
    (State.emit k full h data s).seqs = s.seqs ∧ (State.emit k full h data s).synth = s.synth ∧ (State.emit k full h data s).wave = s.wave ∧
    (State.emit k full h data s).readout = s.readout ∧ (State.emit k full h data s).est = s.est ∧ (State.emit k full h data s).fabric = s.fabric ∧
    (State.emit k full h data s).conc = s.conc ∧ (State.emit k full h data s).bias = s.bias ∧ (State.emit k full h data s).cal = s.cal ∧
    (State.emit k full h data s).thermal = s.thermal ∧ (State.emit k full h data s).free = s.free := by
  unfold State.emit; (try dsimp only)
  repeat' split
  all_goals (first | done | simp)

/-- What `State.startCapture` keeps. -/
@[simp] theorem State.startCapture_frame (k kind t : Nat) (context : Word) (units : Nat) (shot : Option (Nat × Nat)) (s : State) :
    (State.startCapture k kind t context units shot s).2.pending = s.pending ∧ (State.startCapture k kind t context units shot s).2.ident = s.ident ∧
    (State.startCapture k kind t context units shot s).2.time = s.time ∧ (State.startCapture k kind t context units shot s).2.units = s.units ∧
    (State.startCapture k kind t context units shot s).2.desk = s.desk ∧ (State.startCapture k kind t context units shot s).2.parts = s.parts ∧
    (State.startCapture k kind t context units shot s).2.archive = s.archive ∧ (State.startCapture k kind t context units shot s).2.sec = s.sec ∧
    (State.startCapture k kind t context units shot s).2.power = s.power ∧ (State.startCapture k kind t context units shot s).2.boot = s.boot ∧
    (State.startCapture k kind t context units shot s).2.dap = s.dap ∧ (State.startCapture k kind t context units shot s).2.seqs = s.seqs ∧
    (State.startCapture k kind t context units shot s).2.synth = s.synth ∧ (State.startCapture k kind t context units shot s).2.wave = s.wave ∧
    (State.startCapture k kind t context units shot s).2.readout = s.readout ∧ (State.startCapture k kind t context units shot s).2.est = s.est ∧
    (State.startCapture k kind t context units shot s).2.fabric = s.fabric ∧ (State.startCapture k kind t context units shot s).2.conc = s.conc ∧
    (State.startCapture k kind t context units shot s).2.bias = s.bias ∧ (State.startCapture k kind t context units shot s).2.cal = s.cal ∧
    (State.startCapture k kind t context units shot s).2.thermal = s.thermal := by
  unfold State.startCapture; (try dsimp only)
  repeat' split
  all_goals (first | done | simp)

/-- What `State.flush` keeps. -/
@[simp] theorem State.flush_frame (k i : Nat) (p : Plan) (r : Reduction) (s : State) :
    (State.flush k i p r s).pending = s.pending ∧ (State.flush k i p r s).ident = s.ident ∧ (State.flush k i p r s).time = s.time ∧
    (State.flush k i p r s).host = s.host ∧ (State.flush k i p r s).units = s.units ∧ (State.flush k i p r s).desk = s.desk ∧
    (State.flush k i p r s).parts = s.parts ∧ (State.flush k i p r s).archive = s.archive ∧ (State.flush k i p r s).pages = s.pages ∧
    (State.flush k i p r s).ledger = s.ledger ∧ (State.flush k i p r s).trouble = s.trouble ∧ (State.flush k i p r s).sec = s.sec ∧
    (State.flush k i p r s).power = s.power ∧ (State.flush k i p r s).boot = s.boot ∧ (State.flush k i p r s).dap = s.dap ∧
    (State.flush k i p r s).seqs = s.seqs ∧ (State.flush k i p r s).synth = s.synth ∧ (State.flush k i p r s).wave = s.wave ∧
    (State.flush k i p r s).readout = s.readout ∧ (State.flush k i p r s).est = s.est ∧ (State.flush k i p r s).fabric = s.fabric ∧
    (State.flush k i p r s).conc = s.conc ∧ (State.flush k i p r s).bias = s.bias ∧ (State.flush k i p r s).cal = s.cal ∧
    (State.flush k i p r s).thermal = s.thermal ∧ (State.flush k i p r s).free = s.free := by
  unfold State.flush; (try dsimp only)
  repeat' split
  all_goals (first | done | simp)

/-- What `State.reduce` keeps. -/
@[simp] theorem State.reduce_frame (k : Nat) (p : Plan) (x : Datum) (i : Nat) (r : Reduction) (s : State) :
    (State.reduce k p x i r s).pending = s.pending ∧ (State.reduce k p x i r s).ident = s.ident ∧ (State.reduce k p x i r s).time = s.time ∧
    (State.reduce k p x i r s).units = s.units ∧ (State.reduce k p x i r s).desk = s.desk ∧ (State.reduce k p x i r s).parts = s.parts ∧
    (State.reduce k p x i r s).archive = s.archive ∧ (State.reduce k p x i r s).sec = s.sec ∧ (State.reduce k p x i r s).power = s.power ∧
    (State.reduce k p x i r s).boot = s.boot ∧ (State.reduce k p x i r s).dap = s.dap ∧ (State.reduce k p x i r s).seqs = s.seqs ∧
    (State.reduce k p x i r s).synth = s.synth ∧ (State.reduce k p x i r s).wave = s.wave ∧ (State.reduce k p x i r s).readout = s.readout ∧
    (State.reduce k p x i r s).est = s.est ∧ (State.reduce k p x i r s).fabric = s.fabric ∧ (State.reduce k p x i r s).conc = s.conc ∧
    (State.reduce k p x i r s).bias = s.bias ∧ (State.reduce k p x i r s).cal = s.cal ∧ (State.reduce k p x i r s).thermal = s.thermal := by
  unfold State.reduce; (try dsimp only)
  repeat' split
  all_goals (first | done | simp)

/-- What `State.reduceLate` keeps. -/
@[simp] theorem State.reduceLate_frame (k : Nat) (p : Plan) (x : Datum) (r : Reduction) (s : State) :
    (State.reduceLate k p x r s).pending = s.pending ∧ (State.reduceLate k p x r s).ident = s.ident ∧ (State.reduceLate k p x r s).time = s.time ∧
    (State.reduceLate k p x r s).host = s.host ∧ (State.reduceLate k p x r s).units = s.units ∧ (State.reduceLate k p x r s).desk = s.desk ∧
    (State.reduceLate k p x r s).parts = s.parts ∧ (State.reduceLate k p x r s).archive = s.archive ∧ (State.reduceLate k p x r s).pages = s.pages ∧
    (State.reduceLate k p x r s).ledger = s.ledger ∧ (State.reduceLate k p x r s).trouble = s.trouble ∧ (State.reduceLate k p x r s).sec = s.sec ∧
    (State.reduceLate k p x r s).power = s.power ∧ (State.reduceLate k p x r s).boot = s.boot ∧ (State.reduceLate k p x r s).dap = s.dap ∧
    (State.reduceLate k p x r s).seqs = s.seqs ∧ (State.reduceLate k p x r s).synth = s.synth ∧ (State.reduceLate k p x r s).wave = s.wave ∧
    (State.reduceLate k p x r s).readout = s.readout ∧ (State.reduceLate k p x r s).est = s.est ∧ (State.reduceLate k p x r s).fabric = s.fabric ∧
    (State.reduceLate k p x r s).conc = s.conc ∧ (State.reduceLate k p x r s).bias = s.bias ∧ (State.reduceLate k p x r s).cal = s.cal ∧
    (State.reduceLate k p x r s).thermal = s.thermal ∧ (State.reduceLate k p x r s).free = s.free := by
  unfold State.reduceLate; (try dsimp only)
  repeat' split
  all_goals (first | done | simp)

/-- What `State.enter` keeps. -/
@[simp] theorem State.enter_frame (k : Nat) (f : Reduction → Bool) (x : Datum) (s : State) :
    (State.enter k f x s).pending = s.pending ∧ (State.enter k f x s).ident = s.ident ∧ (State.enter k f x s).time = s.time ∧
    (State.enter k f x s).units = s.units ∧ (State.enter k f x s).desk = s.desk ∧ (State.enter k f x s).parts = s.parts ∧
    (State.enter k f x s).archive = s.archive ∧ (State.enter k f x s).sec = s.sec ∧ (State.enter k f x s).power = s.power ∧
    (State.enter k f x s).boot = s.boot ∧ (State.enter k f x s).dap = s.dap ∧ (State.enter k f x s).seqs = s.seqs ∧ (State.enter k f x s).synth = s.synth ∧
    (State.enter k f x s).wave = s.wave ∧ (State.enter k f x s).readout = s.readout ∧ (State.enter k f x s).est = s.est ∧
    (State.enter k f x s).fabric = s.fabric ∧ (State.enter k f x s).conc = s.conc ∧ (State.enter k f x s).bias = s.bias ∧ (State.enter k f x s).cal = s.cal ∧
    (State.enter k f x s).thermal = s.thermal := by
  unfold State.enter; (try dsimp only)
  repeat' split
  all_goals (first | done | simp)

/-- What `State.captureWindow` keeps. -/
@[simp] theorem State.captureWindow_frame (k : Nat) (x : Datum) (s : State) :
    (State.captureWindow k x s).pending = s.pending ∧ (State.captureWindow k x s).ident = s.ident ∧ (State.captureWindow k x s).time = s.time ∧
    (State.captureWindow k x s).units = s.units ∧ (State.captureWindow k x s).desk = s.desk ∧ (State.captureWindow k x s).parts = s.parts ∧
    (State.captureWindow k x s).archive = s.archive ∧ (State.captureWindow k x s).sec = s.sec ∧ (State.captureWindow k x s).power = s.power ∧
    (State.captureWindow k x s).boot = s.boot ∧ (State.captureWindow k x s).dap = s.dap ∧ (State.captureWindow k x s).seqs = s.seqs ∧
    (State.captureWindow k x s).synth = s.synth ∧ (State.captureWindow k x s).wave = s.wave ∧ (State.captureWindow k x s).readout = s.readout ∧
    (State.captureWindow k x s).est = s.est ∧ (State.captureWindow k x s).fabric = s.fabric ∧ (State.captureWindow k x s).conc = s.conc ∧
    (State.captureWindow k x s).bias = s.bias ∧ (State.captureWindow k x s).cal = s.cal ∧ (State.captureWindow k x s).thermal = s.thermal := by
  unfold State.captureWindow; (try dsimp only)
  repeat' split
  all_goals (first | done | simp)

/-- What `State.captureVerdict` keeps. -/
@[simp] theorem State.captureVerdict_frame (k : Nat) (x : Datum) (s : State) :
    (State.captureVerdict k x s).pending = s.pending ∧ (State.captureVerdict k x s).ident = s.ident ∧ (State.captureVerdict k x s).time = s.time ∧
    (State.captureVerdict k x s).units = s.units ∧ (State.captureVerdict k x s).desk = s.desk ∧ (State.captureVerdict k x s).parts = s.parts ∧
    (State.captureVerdict k x s).archive = s.archive ∧ (State.captureVerdict k x s).sec = s.sec ∧ (State.captureVerdict k x s).power = s.power ∧
    (State.captureVerdict k x s).boot = s.boot ∧ (State.captureVerdict k x s).dap = s.dap ∧ (State.captureVerdict k x s).seqs = s.seqs ∧
    (State.captureVerdict k x s).synth = s.synth ∧ (State.captureVerdict k x s).wave = s.wave ∧ (State.captureVerdict k x s).readout = s.readout ∧
    (State.captureVerdict k x s).est = s.est ∧ (State.captureVerdict k x s).fabric = s.fabric ∧ (State.captureVerdict k x s).conc = s.conc ∧
    (State.captureVerdict k x s).bias = s.bias ∧ (State.captureVerdict k x s).cal = s.cal ∧ (State.captureVerdict k x s).thermal = s.thermal := by
  unfold State.captureVerdict; (try dsimp only)
  repeat' split
  all_goals (first | done | simp)

/-- What `State.applyPlan` keeps. -/
@[simp] theorem State.applyPlan_frame (k t : Nat) (new : Option Plan) (s : State) :
    (State.applyPlan k t new s).pending = s.pending ∧ (State.applyPlan k t new s).ident = s.ident ∧ (State.applyPlan k t new s).host = s.host ∧
    (State.applyPlan k t new s).units = s.units ∧ (State.applyPlan k t new s).desk = s.desk ∧ (State.applyPlan k t new s).parts = s.parts ∧
    (State.applyPlan k t new s).archive = s.archive ∧ (State.applyPlan k t new s).pages = s.pages ∧ (State.applyPlan k t new s).ledger = s.ledger ∧
    (State.applyPlan k t new s).trouble = s.trouble ∧ (State.applyPlan k t new s).sec = s.sec ∧ (State.applyPlan k t new s).power = s.power ∧
    (State.applyPlan k t new s).boot = s.boot ∧ (State.applyPlan k t new s).dap = s.dap ∧ (State.applyPlan k t new s).seqs = s.seqs ∧
    (State.applyPlan k t new s).synth = s.synth ∧ (State.applyPlan k t new s).wave = s.wave ∧ (State.applyPlan k t new s).readout = s.readout ∧
    (State.applyPlan k t new s).est = s.est ∧ (State.applyPlan k t new s).fabric = s.fabric ∧ (State.applyPlan k t new s).conc = s.conc ∧
    (State.applyPlan k t new s).bias = s.bias ∧ (State.applyPlan k t new s).cal = s.cal ∧ (State.applyPlan k t new s).thermal = s.thermal ∧
    (State.applyPlan k t new s).free = s.free := by
  unfold State.applyPlan; (try dsimp only)
  repeat' split
  all_goals (first | done | simp)

/-- What `State.laneSend` keeps. -/
@[simp] theorem State.laneSend_frame (n : Nat) (packet : Word) (f : Nat) (s : State) :
    (State.laneSend n packet f s).pending = s.pending ∧ (State.laneSend n packet f s).ident = s.ident ∧ (State.laneSend n packet f s).time = s.time ∧
    (State.laneSend n packet f s).units = s.units ∧ (State.laneSend n packet f s).desk = s.desk ∧ (State.laneSend n packet f s).parts = s.parts ∧
    (State.laneSend n packet f s).archive = s.archive ∧ (State.laneSend n packet f s).sec = s.sec ∧ (State.laneSend n packet f s).power = s.power ∧
    (State.laneSend n packet f s).boot = s.boot ∧ (State.laneSend n packet f s).dap = s.dap ∧ (State.laneSend n packet f s).seqs = s.seqs ∧
    (State.laneSend n packet f s).synth = s.synth ∧ (State.laneSend n packet f s).wave = s.wave ∧ (State.laneSend n packet f s).readout = s.readout ∧
    (State.laneSend n packet f s).est = s.est ∧ (State.laneSend n packet f s).conc = s.conc ∧ (State.laneSend n packet f s).acq = s.acq ∧
    (State.laneSend n packet f s).bias = s.bias ∧ (State.laneSend n packet f s).cal = s.cal ∧ (State.laneSend n packet f s).thermal = s.thermal := by
  unfold State.laneSend; (try dsimp only)
  repeat' split
  all_goals (first | done | simp)

/-- What `State.sendTo` keeps. -/
@[simp] theorem State.sendTo_frame (m F : Nat) (packet : Word) (s : State) :
    (State.sendTo m F packet s).pending = s.pending ∧ (State.sendTo m F packet s).ident = s.ident ∧ (State.sendTo m F packet s).time = s.time ∧
    (State.sendTo m F packet s).units = s.units ∧ (State.sendTo m F packet s).desk = s.desk ∧ (State.sendTo m F packet s).parts = s.parts ∧
    (State.sendTo m F packet s).archive = s.archive ∧ (State.sendTo m F packet s).sec = s.sec ∧ (State.sendTo m F packet s).power = s.power ∧
    (State.sendTo m F packet s).boot = s.boot ∧ (State.sendTo m F packet s).dap = s.dap ∧ (State.sendTo m F packet s).seqs = s.seqs ∧
    (State.sendTo m F packet s).synth = s.synth ∧ (State.sendTo m F packet s).wave = s.wave ∧ (State.sendTo m F packet s).readout = s.readout ∧
    (State.sendTo m F packet s).est = s.est ∧ (State.sendTo m F packet s).conc = s.conc ∧ (State.sendTo m F packet s).acq = s.acq ∧
    (State.sendTo m F packet s).bias = s.bias ∧ (State.sendTo m F packet s).cal = s.cal ∧ (State.sendTo m F packet s).thermal = s.thermal := by
  unfold State.sendTo
  repeat' split
  all_goals (first | done | simp)

/-- What `State.formVerdict` keeps. -/
@[simp] theorem State.formVerdict_frame (k F : Nat) (w : Window) (packet : Word) (s : State) :
    (State.formVerdict k F w packet s).pending = s.pending ∧ (State.formVerdict k F w packet s).ident = s.ident ∧
    (State.formVerdict k F w packet s).time = s.time ∧ (State.formVerdict k F w packet s).units = s.units ∧ (State.formVerdict k F w packet s).desk = s.desk ∧
    (State.formVerdict k F w packet s).parts = s.parts ∧ (State.formVerdict k F w packet s).archive = s.archive ∧
    (State.formVerdict k F w packet s).sec = s.sec ∧ (State.formVerdict k F w packet s).power = s.power ∧ (State.formVerdict k F w packet s).boot = s.boot ∧
    (State.formVerdict k F w packet s).dap = s.dap ∧ (State.formVerdict k F w packet s).seqs = s.seqs ∧ (State.formVerdict k F w packet s).synth = s.synth ∧
    (State.formVerdict k F w packet s).wave = s.wave ∧ (State.formVerdict k F w packet s).readout = s.readout ∧
    (State.formVerdict k F w packet s).est = s.est ∧ (State.formVerdict k F w packet s).conc = s.conc ∧ (State.formVerdict k F w packet s).bias = s.bias ∧
    (State.formVerdict k F w packet s).cal = s.cal ∧ (State.formVerdict k F w packet s).thermal = s.thermal := by
  unfold State.formVerdict; (try dsimp only)
  all_goals (first | done | simp)

/-- What `State.latchSeq` keeps. -/
@[simp] theorem State.latchSeq_frame (x : Flight) (t q : Nat) (s : State) :
    (State.latchSeq x t q s).pending = s.pending ∧ (State.latchSeq x t q s).ident = s.ident ∧ (State.latchSeq x t q s).time = s.time ∧
    (State.latchSeq x t q s).host = s.host ∧ (State.latchSeq x t q s).units = s.units ∧ (State.latchSeq x t q s).desk = s.desk ∧
    (State.latchSeq x t q s).parts = s.parts ∧ (State.latchSeq x t q s).archive = s.archive ∧ (State.latchSeq x t q s).pages = s.pages ∧
    (State.latchSeq x t q s).ledger = s.ledger ∧ (State.latchSeq x t q s).trouble = s.trouble ∧ (State.latchSeq x t q s).sec = s.sec ∧
    (State.latchSeq x t q s).power = s.power ∧ (State.latchSeq x t q s).boot = s.boot ∧ (State.latchSeq x t q s).dap = s.dap ∧
    (State.latchSeq x t q s).synth = s.synth ∧ (State.latchSeq x t q s).wave = s.wave ∧ (State.latchSeq x t q s).readout = s.readout ∧
    (State.latchSeq x t q s).est = s.est ∧ (State.latchSeq x t q s).acq = s.acq ∧ (State.latchSeq x t q s).bias = s.bias ∧
    (State.latchSeq x t q s).cal = s.cal ∧ (State.latchSeq x t q s).thermal = s.thermal ∧ (State.latchSeq x t q s).free = s.free := by
  unfold State.latchSeq; (try dsimp only)
  repeat' split
  all_goals (first | done | simp)

/-- What `State.latchSelects` keeps. -/
@[simp] theorem State.latchSelects_frame (x : Flight) (s : State) :
    (State.latchSelects x s).pending = s.pending ∧ (State.latchSelects x s).ident = s.ident ∧ (State.latchSelects x s).time = s.time ∧
    (State.latchSelects x s).host = s.host ∧ (State.latchSelects x s).units = s.units ∧ (State.latchSelects x s).desk = s.desk ∧
    (State.latchSelects x s).parts = s.parts ∧ (State.latchSelects x s).archive = s.archive ∧ (State.latchSelects x s).pages = s.pages ∧
    (State.latchSelects x s).ledger = s.ledger ∧ (State.latchSelects x s).trouble = s.trouble ∧ (State.latchSelects x s).sec = s.sec ∧
    (State.latchSelects x s).power = s.power ∧ (State.latchSelects x s).boot = s.boot ∧ (State.latchSelects x s).dap = s.dap ∧
    (State.latchSelects x s).seqs = s.seqs ∧ (State.latchSelects x s).synth = s.synth ∧ (State.latchSelects x s).wave = s.wave ∧
    (State.latchSelects x s).readout = s.readout ∧ (State.latchSelects x s).est = s.est ∧ (State.latchSelects x s).fabric = s.fabric ∧
    (State.latchSelects x s).conc = s.conc ∧ (State.latchSelects x s).bias = s.bias ∧ (State.latchSelects x s).cal = s.cal ∧
    (State.latchSelects x s).thermal = s.thermal ∧ (State.latchSelects x s).free = s.free := by
  unfold State.latchSelects; (try dsimp only)
  repeat' split
  all_goals (first | done | simp)

/-- What `State.sendOut` keeps. -/
@[simp] theorem State.sendOut_frame (x : Flight) (s : State) :
    (State.sendOut x s).pending = s.pending ∧ (State.sendOut x s).ident = s.ident ∧ (State.sendOut x s).time = s.time ∧ (State.sendOut x s).units = s.units ∧
    (State.sendOut x s).desk = s.desk ∧ (State.sendOut x s).parts = s.parts ∧ (State.sendOut x s).archive = s.archive ∧ (State.sendOut x s).sec = s.sec ∧
    (State.sendOut x s).power = s.power ∧ (State.sendOut x s).boot = s.boot ∧ (State.sendOut x s).dap = s.dap ∧ (State.sendOut x s).seqs = s.seqs ∧
    (State.sendOut x s).synth = s.synth ∧ (State.sendOut x s).wave = s.wave ∧ (State.sendOut x s).readout = s.readout ∧ (State.sendOut x s).est = s.est ∧
    (State.sendOut x s).conc = s.conc ∧ (State.sendOut x s).acq = s.acq ∧ (State.sendOut x s).bias = s.bias ∧ (State.sendOut x s).cal = s.cal ∧
    (State.sendOut x s).thermal = s.thermal := by
  unfold State.sendOut; (try dsimp only)
  repeat' split
  all_goals (first | done | simp)

/-- What `State.modCal` keeps. -/
@[simp] theorem State.modCal_frame (d : Nat) (f : CalDie → CalDie) (s : State) :
    (State.modCal d f s).pending = s.pending ∧ (State.modCal d f s).ident = s.ident ∧ (State.modCal d f s).time = s.time ∧ (State.modCal d f s).host = s.host ∧
    (State.modCal d f s).units = s.units ∧ (State.modCal d f s).desk = s.desk ∧ (State.modCal d f s).parts = s.parts ∧
    (State.modCal d f s).archive = s.archive ∧ (State.modCal d f s).pages = s.pages ∧ (State.modCal d f s).ledger = s.ledger ∧
    (State.modCal d f s).trouble = s.trouble ∧ (State.modCal d f s).sec = s.sec ∧ (State.modCal d f s).power = s.power ∧ (State.modCal d f s).boot = s.boot ∧
    (State.modCal d f s).dap = s.dap ∧ (State.modCal d f s).seqs = s.seqs ∧ (State.modCal d f s).synth = s.synth ∧ (State.modCal d f s).wave = s.wave ∧
    (State.modCal d f s).readout = s.readout ∧ (State.modCal d f s).est = s.est ∧ (State.modCal d f s).fabric = s.fabric ∧ (State.modCal d f s).conc = s.conc ∧
    (State.modCal d f s).acq = s.acq ∧ (State.modCal d f s).bias = s.bias ∧ (State.modCal d f s).thermal = s.thermal ∧ (State.modCal d f s).free = s.free := by
  unfold State.modCal; (try dsimp only)
  all_goals (first | done | simp)

/-- What `State.setDacSpare` keeps. -/
@[simp] theorem State.setDacSpare_frame (k : Nat) (u : SpareUse) (s : State) :
    (State.setDacSpare k u s).pending = s.pending ∧ (State.setDacSpare k u s).ident = s.ident ∧ (State.setDacSpare k u s).time = s.time ∧
    (State.setDacSpare k u s).host = s.host ∧ (State.setDacSpare k u s).units = s.units ∧ (State.setDacSpare k u s).desk = s.desk ∧
    (State.setDacSpare k u s).parts = s.parts ∧ (State.setDacSpare k u s).archive = s.archive ∧ (State.setDacSpare k u s).pages = s.pages ∧
    (State.setDacSpare k u s).ledger = s.ledger ∧ (State.setDacSpare k u s).trouble = s.trouble ∧ (State.setDacSpare k u s).sec = s.sec ∧
    (State.setDacSpare k u s).power = s.power ∧ (State.setDacSpare k u s).boot = s.boot ∧ (State.setDacSpare k u s).dap = s.dap ∧
    (State.setDacSpare k u s).seqs = s.seqs ∧ (State.setDacSpare k u s).wave = s.wave ∧ (State.setDacSpare k u s).readout = s.readout ∧
    (State.setDacSpare k u s).est = s.est ∧ (State.setDacSpare k u s).fabric = s.fabric ∧ (State.setDacSpare k u s).conc = s.conc ∧
    (State.setDacSpare k u s).acq = s.acq ∧ (State.setDacSpare k u s).bias = s.bias ∧ (State.setDacSpare k u s).cal = s.cal ∧
    (State.setDacSpare k u s).thermal = s.thermal ∧ (State.setDacSpare k u s).free = s.free := by
  unfold State.setDacSpare; (try dsimp only)
  all_goals (first | done | simp)

/-- What `State.setAdcSpare` keeps. -/
@[simp] theorem State.setAdcSpare_frame (k : Nat) (u : SpareUse) (s : State) :
    (State.setAdcSpare k u s).pending = s.pending ∧ (State.setAdcSpare k u s).ident = s.ident ∧ (State.setAdcSpare k u s).time = s.time ∧
    (State.setAdcSpare k u s).host = s.host ∧ (State.setAdcSpare k u s).units = s.units ∧ (State.setAdcSpare k u s).desk = s.desk ∧
    (State.setAdcSpare k u s).parts = s.parts ∧ (State.setAdcSpare k u s).archive = s.archive ∧ (State.setAdcSpare k u s).pages = s.pages ∧
    (State.setAdcSpare k u s).ledger = s.ledger ∧ (State.setAdcSpare k u s).trouble = s.trouble ∧ (State.setAdcSpare k u s).sec = s.sec ∧
    (State.setAdcSpare k u s).power = s.power ∧ (State.setAdcSpare k u s).boot = s.boot ∧ (State.setAdcSpare k u s).dap = s.dap ∧
    (State.setAdcSpare k u s).seqs = s.seqs ∧ (State.setAdcSpare k u s).synth = s.synth ∧ (State.setAdcSpare k u s).wave = s.wave ∧
    (State.setAdcSpare k u s).est = s.est ∧ (State.setAdcSpare k u s).fabric = s.fabric ∧ (State.setAdcSpare k u s).conc = s.conc ∧
    (State.setAdcSpare k u s).acq = s.acq ∧ (State.setAdcSpare k u s).bias = s.bias ∧ (State.setAdcSpare k u s).cal = s.cal ∧
    (State.setAdcSpare k u s).thermal = s.thermal ∧ (State.setAdcSpare k u s).free = s.free := by
  unfold State.setAdcSpare; (try dsimp only)
  all_goals (first | done | simp)

/-- What `State.settleTrims` keeps. -/
@[simp] theorem State.settleTrims_frame (s : State) :
    (State.settleTrims s).pending = s.pending ∧ (State.settleTrims s).ident = s.ident ∧ (State.settleTrims s).time = s.time ∧
    (State.settleTrims s).host = s.host ∧ (State.settleTrims s).units = s.units ∧ (State.settleTrims s).desk = s.desk ∧ (State.settleTrims s).parts = s.parts ∧
    (State.settleTrims s).archive = s.archive ∧ (State.settleTrims s).pages = s.pages ∧ (State.settleTrims s).ledger = s.ledger ∧
    (State.settleTrims s).trouble = s.trouble ∧ (State.settleTrims s).sec = s.sec ∧ (State.settleTrims s).power = s.power ∧
    (State.settleTrims s).boot = s.boot ∧ (State.settleTrims s).dap = s.dap ∧ (State.settleTrims s).seqs = s.seqs ∧ (State.settleTrims s).synth = s.synth ∧
    (State.settleTrims s).wave = s.wave ∧ (State.settleTrims s).readout = s.readout ∧ (State.settleTrims s).est = s.est ∧
    (State.settleTrims s).fabric = s.fabric ∧ (State.settleTrims s).conc = s.conc ∧ (State.settleTrims s).acq = s.acq ∧ (State.settleTrims s).bias = s.bias ∧
    (State.settleTrims s).thermal = s.thermal ∧ (State.settleTrims s).free = s.free := by
  unfold State.settleTrims; (try dsimp only)
  all_goals (first | done | simp)

/-- What `State.calStop` keeps. -/
@[simp] theorem State.calStop_frame (d status : Nat) (s : State) :
    (State.calStop d status s).pending = s.pending ∧ (State.calStop d status s).ident = s.ident ∧ (State.calStop d status s).time = s.time ∧
    (State.calStop d status s).host = s.host ∧ (State.calStop d status s).units = s.units ∧ (State.calStop d status s).desk = s.desk ∧
    (State.calStop d status s).parts = s.parts ∧ (State.calStop d status s).archive = s.archive ∧ (State.calStop d status s).pages = s.pages ∧
    (State.calStop d status s).ledger = s.ledger ∧ (State.calStop d status s).trouble = s.trouble ∧ (State.calStop d status s).sec = s.sec ∧
    (State.calStop d status s).power = s.power ∧ (State.calStop d status s).boot = s.boot ∧ (State.calStop d status s).dap = s.dap ∧
    (State.calStop d status s).seqs = s.seqs ∧ (State.calStop d status s).wave = s.wave ∧ (State.calStop d status s).est = s.est ∧
    (State.calStop d status s).fabric = s.fabric ∧ (State.calStop d status s).conc = s.conc ∧ (State.calStop d status s).acq = s.acq ∧
    (State.calStop d status s).thermal = s.thermal ∧ (State.calStop d status s).free = s.free := by
  unfold State.calStop; (try dsimp only)
  repeat' split
  all_goals (first | done | simp)

/-- What `State.calStopAll` keeps. -/
@[simp] theorem State.calStopAll_frame (status : Nat) (s : State) :
    (State.calStopAll status s).pending = s.pending ∧ (State.calStopAll status s).ident = s.ident ∧ (State.calStopAll status s).time = s.time ∧
    (State.calStopAll status s).host = s.host ∧ (State.calStopAll status s).units = s.units ∧ (State.calStopAll status s).desk = s.desk ∧
    (State.calStopAll status s).parts = s.parts ∧ (State.calStopAll status s).archive = s.archive ∧ (State.calStopAll status s).pages = s.pages ∧
    (State.calStopAll status s).ledger = s.ledger ∧ (State.calStopAll status s).trouble = s.trouble ∧ (State.calStopAll status s).sec = s.sec ∧
    (State.calStopAll status s).power = s.power ∧ (State.calStopAll status s).boot = s.boot ∧ (State.calStopAll status s).dap = s.dap ∧
    (State.calStopAll status s).seqs = s.seqs ∧ (State.calStopAll status s).wave = s.wave ∧ (State.calStopAll status s).est = s.est ∧
    (State.calStopAll status s).fabric = s.fabric ∧ (State.calStopAll status s).conc = s.conc ∧ (State.calStopAll status s).acq = s.acq ∧
    (State.calStopAll status s).thermal = s.thermal ∧ (State.calStopAll status s).free = s.free := by
  unfold State.calStopAll
  all_goals (first | done | simp)

/-- What `State.clipReport` keeps. -/
@[simp] theorem State.clipReport_frame (o : Nat) (s : State) :
    (State.clipReport o s).pending = s.pending ∧ (State.clipReport o s).ident = s.ident ∧ (State.clipReport o s).time = s.time ∧
    (State.clipReport o s).units = s.units ∧ (State.clipReport o s).desk = s.desk ∧ (State.clipReport o s).parts = s.parts ∧
    (State.clipReport o s).archive = s.archive ∧ (State.clipReport o s).sec = s.sec ∧ (State.clipReport o s).power = s.power ∧
    (State.clipReport o s).boot = s.boot ∧ (State.clipReport o s).dap = s.dap ∧ (State.clipReport o s).seqs = s.seqs ∧ (State.clipReport o s).wave = s.wave ∧
    (State.clipReport o s).readout = s.readout ∧ (State.clipReport o s).est = s.est ∧ (State.clipReport o s).fabric = s.fabric ∧
    (State.clipReport o s).conc = s.conc ∧ (State.clipReport o s).acq = s.acq ∧ (State.clipReport o s).bias = s.bias ∧ (State.clipReport o s).cal = s.cal ∧
    (State.clipReport o s).thermal = s.thermal := by
  unfold State.clipReport; (try dsimp only)
  repeat' split
  all_goals (first | done | simp)

/-- What `State.clipReports` keeps. -/
@[simp] theorem State.clipReports_frame (k : Nat) (s : State) :
    (State.clipReports k s).pending = s.pending ∧ (State.clipReports k s).ident = s.ident ∧ (State.clipReports k s).time = s.time ∧
    (State.clipReports k s).units = s.units ∧ (State.clipReports k s).desk = s.desk ∧ (State.clipReports k s).parts = s.parts ∧
    (State.clipReports k s).archive = s.archive ∧ (State.clipReports k s).sec = s.sec ∧ (State.clipReports k s).power = s.power ∧
    (State.clipReports k s).boot = s.boot ∧ (State.clipReports k s).dap = s.dap ∧ (State.clipReports k s).seqs = s.seqs ∧
    (State.clipReports k s).wave = s.wave ∧ (State.clipReports k s).readout = s.readout ∧ (State.clipReports k s).est = s.est ∧
    (State.clipReports k s).fabric = s.fabric ∧ (State.clipReports k s).conc = s.conc ∧ (State.clipReports k s).acq = s.acq ∧
    (State.clipReports k s).bias = s.bias ∧ (State.clipReports k s).cal = s.cal ∧ (State.clipReports k s).thermal = s.thermal := by
  unfold State.clipReports
  all_goals (first | done | simp)

/-- What `State.hearAll` keeps. -/
@[simp] theorem State.hearAll_frame (s : State) :
    (State.hearAll s).pending = s.pending ∧ (State.hearAll s).ident = s.ident ∧ (State.hearAll s).time = s.time ∧ (State.hearAll s).units = s.units ∧
    (State.hearAll s).desk = s.desk ∧ (State.hearAll s).parts = s.parts ∧ (State.hearAll s).archive = s.archive ∧ (State.hearAll s).sec = s.sec ∧
    (State.hearAll s).power = s.power ∧ (State.hearAll s).boot = s.boot ∧ (State.hearAll s).dap = s.dap ∧ (State.hearAll s).seqs = s.seqs ∧
    (State.hearAll s).wave = s.wave ∧ (State.hearAll s).readout = s.readout ∧ (State.hearAll s).est = s.est ∧ (State.hearAll s).fabric = s.fabric ∧
    (State.hearAll s).conc = s.conc ∧ (State.hearAll s).acq = s.acq ∧ (State.hearAll s).bias = s.bias ∧ (State.hearAll s).cal = s.cal ∧
    (State.hearAll s).thermal = s.thermal := by
  unfold State.hearAll
  all_goals (first | done | simp)

/-- What `State.seqTrouble` keeps. -/
@[simp] theorem State.seqTrouble_frame (q b : Nat) (code : Nat) (s : State) :
    (State.seqTrouble q b code s).pending = s.pending ∧ (State.seqTrouble q b code s).ident = s.ident ∧ (State.seqTrouble q b code s).time = s.time ∧
    (State.seqTrouble q b code s).units = s.units ∧ (State.seqTrouble q b code s).desk = s.desk ∧ (State.seqTrouble q b code s).parts = s.parts ∧
    (State.seqTrouble q b code s).archive = s.archive ∧ (State.seqTrouble q b code s).sec = s.sec ∧ (State.seqTrouble q b code s).power = s.power ∧
    (State.seqTrouble q b code s).boot = s.boot ∧ (State.seqTrouble q b code s).dap = s.dap ∧ (State.seqTrouble q b code s).seqs = s.seqs ∧
    (State.seqTrouble q b code s).synth = s.synth ∧ (State.seqTrouble q b code s).wave = s.wave ∧ (State.seqTrouble q b code s).readout = s.readout ∧
    (State.seqTrouble q b code s).est = s.est ∧ (State.seqTrouble q b code s).fabric = s.fabric ∧ (State.seqTrouble q b code s).conc = s.conc ∧
    (State.seqTrouble q b code s).acq = s.acq ∧ (State.seqTrouble q b code s).bias = s.bias ∧ (State.seqTrouble q b code s).cal = s.cal ∧
    (State.seqTrouble q b code s).thermal = s.thermal := by
  unfold State.seqTrouble; (try dsimp only)
  all_goals (first | done | simp)

/-- What `State.abortSeq` keeps. -/
@[simp] theorem State.abortSeq_frame (q a code : Nat) (rearm : Bool) (s : State) :
    (State.abortSeq q a code rearm s).pending = s.pending ∧ (State.abortSeq q a code rearm s).ident = s.ident ∧
    (State.abortSeq q a code rearm s).units = s.units ∧ (State.abortSeq q a code rearm s).desk = s.desk ∧ (State.abortSeq q a code rearm s).parts = s.parts ∧
    (State.abortSeq q a code rearm s).archive = s.archive ∧ (State.abortSeq q a code rearm s).sec = s.sec ∧ (State.abortSeq q a code rearm s).power = s.power ∧
    (State.abortSeq q a code rearm s).boot = s.boot ∧ (State.abortSeq q a code rearm s).dap = s.dap ∧ (State.abortSeq q a code rearm s).synth = s.synth ∧
    (State.abortSeq q a code rearm s).wave = s.wave ∧ (State.abortSeq q a code rearm s).readout = s.readout ∧ (State.abortSeq q a code rearm s).est = s.est ∧
    (State.abortSeq q a code rearm s).fabric = s.fabric ∧ (State.abortSeq q a code rearm s).conc = s.conc ∧ (State.abortSeq q a code rearm s).acq = s.acq ∧
    (State.abortSeq q a code rearm s).bias = s.bias ∧ (State.abortSeq q a code rearm s).cal = s.cal ∧ (State.abortSeq q a code rearm s).thermal = s.thermal := by
  unfold State.abortSeq; (try dsimp only)
  repeat' split
  all_goals (first | done | simp)

/-- What `State.goto` keeps. -/
@[simp] theorem State.goto_frame (q i pc : Nat) (loops : List LoopEnt) (s : State) :
    (State.goto q i pc loops s).pending = s.pending ∧ (State.goto q i pc loops s).ident = s.ident ∧ (State.goto q i pc loops s).units = s.units ∧
    (State.goto q i pc loops s).desk = s.desk ∧ (State.goto q i pc loops s).parts = s.parts ∧ (State.goto q i pc loops s).archive = s.archive ∧
    (State.goto q i pc loops s).sec = s.sec ∧ (State.goto q i pc loops s).power = s.power ∧ (State.goto q i pc loops s).boot = s.boot ∧
    (State.goto q i pc loops s).dap = s.dap ∧ (State.goto q i pc loops s).synth = s.synth ∧ (State.goto q i pc loops s).wave = s.wave ∧
    (State.goto q i pc loops s).readout = s.readout ∧ (State.goto q i pc loops s).est = s.est ∧ (State.goto q i pc loops s).fabric = s.fabric ∧
    (State.goto q i pc loops s).conc = s.conc ∧ (State.goto q i pc loops s).acq = s.acq ∧ (State.goto q i pc loops s).bias = s.bias ∧
    (State.goto q i pc loops s).cal = s.cal ∧ (State.goto q i pc loops s).thermal = s.thermal := by
  unfold State.goto; (try dsimp only)
  repeat' split
  all_goals (first | done | simp)

/-- What `State.fall` keeps. -/
@[simp] theorem State.fall_frame (q i : Nat) (s : State) :
    (State.fall q i s).pending = s.pending ∧ (State.fall q i s).ident = s.ident ∧ (State.fall q i s).units = s.units ∧ (State.fall q i s).desk = s.desk ∧
    (State.fall q i s).parts = s.parts ∧ (State.fall q i s).archive = s.archive ∧ (State.fall q i s).sec = s.sec ∧ (State.fall q i s).power = s.power ∧
    (State.fall q i s).boot = s.boot ∧ (State.fall q i s).dap = s.dap ∧ (State.fall q i s).synth = s.synth ∧ (State.fall q i s).wave = s.wave ∧
    (State.fall q i s).readout = s.readout ∧ (State.fall q i s).est = s.est ∧ (State.fall q i s).fabric = s.fabric ∧ (State.fall q i s).conc = s.conc ∧
    (State.fall q i s).acq = s.acq ∧ (State.fall q i s).bias = s.bias ∧ (State.fall q i s).cal = s.cal ∧ (State.fall q i s).thermal = s.thermal := by
  unfold State.fall; (try dsimp only)
  all_goals (first | done | simp)

/-- What `State.jump` keeps. -/
@[simp] theorem State.jump_frame (q i target : Nat) (s : State) :
    (State.jump q i target s).pending = s.pending ∧ (State.jump q i target s).ident = s.ident ∧ (State.jump q i target s).units = s.units ∧
    (State.jump q i target s).desk = s.desk ∧ (State.jump q i target s).parts = s.parts ∧ (State.jump q i target s).archive = s.archive ∧
    (State.jump q i target s).sec = s.sec ∧ (State.jump q i target s).power = s.power ∧ (State.jump q i target s).boot = s.boot ∧
    (State.jump q i target s).dap = s.dap ∧ (State.jump q i target s).synth = s.synth ∧ (State.jump q i target s).wave = s.wave ∧
    (State.jump q i target s).readout = s.readout ∧ (State.jump q i target s).est = s.est ∧ (State.jump q i target s).fabric = s.fabric ∧
    (State.jump q i target s).conc = s.conc ∧ (State.jump q i target s).acq = s.acq ∧ (State.jump q i target s).bias = s.bias ∧
    (State.jump q i target s).cal = s.cal ∧ (State.jump q i target s).thermal = s.thermal := by
  unfold State.jump; (try dsimp only)
  all_goals (first | done | simp)

/-- What `State.freeKernels` keeps. -/
@[simp] theorem State.freeKernels_frame (k : Nat) (s : State) :
    (State.freeKernels k s).pending = s.pending ∧ (State.freeKernels k s).ident = s.ident ∧ (State.freeKernels k s).time = s.time ∧
    (State.freeKernels k s).host = s.host ∧ (State.freeKernels k s).units = s.units ∧ (State.freeKernels k s).desk = s.desk ∧
    (State.freeKernels k s).parts = s.parts ∧ (State.freeKernels k s).archive = s.archive ∧ (State.freeKernels k s).pages = s.pages ∧
    (State.freeKernels k s).ledger = s.ledger ∧ (State.freeKernels k s).trouble = s.trouble ∧ (State.freeKernels k s).sec = s.sec ∧
    (State.freeKernels k s).power = s.power ∧ (State.freeKernels k s).boot = s.boot ∧ (State.freeKernels k s).dap = s.dap ∧
    (State.freeKernels k s).seqs = s.seqs ∧ (State.freeKernels k s).synth = s.synth ∧ (State.freeKernels k s).readout = s.readout ∧
    (State.freeKernels k s).est = s.est ∧ (State.freeKernels k s).fabric = s.fabric ∧ (State.freeKernels k s).conc = s.conc ∧
    (State.freeKernels k s).acq = s.acq ∧ (State.freeKernels k s).bias = s.bias ∧ (State.freeKernels k s).cal = s.cal ∧
    (State.freeKernels k s).thermal = s.thermal ∧ (State.freeKernels k s).free = s.free := by
  unfold State.freeKernels; (try dsimp only)
  all_goals (first | done | simp)

/-- What `State.freeStreams` keeps. -/
@[simp] theorem State.freeStreams_frame (q : Nat) (s : State) :
    (State.freeStreams q s).pending = s.pending ∧ (State.freeStreams q s).ident = s.ident ∧ (State.freeStreams q s).time = s.time ∧
    (State.freeStreams q s).host = s.host ∧ (State.freeStreams q s).units = s.units ∧ (State.freeStreams q s).desk = s.desk ∧
    (State.freeStreams q s).parts = s.parts ∧ (State.freeStreams q s).archive = s.archive ∧ (State.freeStreams q s).pages = s.pages ∧
    (State.freeStreams q s).ledger = s.ledger ∧ (State.freeStreams q s).trouble = s.trouble ∧ (State.freeStreams q s).sec = s.sec ∧
    (State.freeStreams q s).power = s.power ∧ (State.freeStreams q s).boot = s.boot ∧ (State.freeStreams q s).dap = s.dap ∧
    (State.freeStreams q s).seqs = s.seqs ∧ (State.freeStreams q s).synth = s.synth ∧ (State.freeStreams q s).readout = s.readout ∧
    (State.freeStreams q s).est = s.est ∧ (State.freeStreams q s).fabric = s.fabric ∧ (State.freeStreams q s).conc = s.conc ∧
    (State.freeStreams q s).acq = s.acq ∧ (State.freeStreams q s).bias = s.bias ∧ (State.freeStreams q s).cal = s.cal ∧
    (State.freeStreams q s).thermal = s.thermal ∧ (State.freeStreams q s).free = s.free := by
  unfold State.freeStreams; (try dsimp only)
  all_goals (first | done | simp)

/-- What `State.mapSlots` keeps. -/
@[simp] theorem State.mapSlots_frame (f : Slot → Slot) (s : State) :
    (State.mapSlots f s).pending = s.pending ∧ (State.mapSlots f s).ident = s.ident ∧ (State.mapSlots f s).time = s.time ∧ (State.mapSlots f s).host = s.host ∧
    (State.mapSlots f s).units = s.units ∧ (State.mapSlots f s).desk = s.desk ∧ (State.mapSlots f s).parts = s.parts ∧
    (State.mapSlots f s).archive = s.archive ∧ (State.mapSlots f s).pages = s.pages ∧ (State.mapSlots f s).ledger = s.ledger ∧
    (State.mapSlots f s).trouble = s.trouble ∧ (State.mapSlots f s).sec = s.sec ∧ (State.mapSlots f s).power = s.power ∧ (State.mapSlots f s).boot = s.boot ∧
    (State.mapSlots f s).dap = s.dap ∧ (State.mapSlots f s).seqs = s.seqs ∧ (State.mapSlots f s).wave = s.wave ∧ (State.mapSlots f s).readout = s.readout ∧
    (State.mapSlots f s).est = s.est ∧ (State.mapSlots f s).fabric = s.fabric ∧ (State.mapSlots f s).conc = s.conc ∧ (State.mapSlots f s).acq = s.acq ∧
    (State.mapSlots f s).bias = s.bias ∧ (State.mapSlots f s).cal = s.cal ∧ (State.mapSlots f s).thermal = s.thermal ∧ (State.mapSlots f s).free = s.free := by
  unfold State.mapSlots; (try dsimp only)
  all_goals (first | done | simp)

/-- What `State.sealSlot` keeps. -/
@[simp] theorem State.sealSlot_frame (q : Nat) (b : Binding) (s : State) :
    (State.sealSlot q b s).pending = s.pending ∧ (State.sealSlot q b s).ident = s.ident ∧ (State.sealSlot q b s).time = s.time ∧
    (State.sealSlot q b s).host = s.host ∧ (State.sealSlot q b s).units = s.units ∧ (State.sealSlot q b s).desk = s.desk ∧
    (State.sealSlot q b s).parts = s.parts ∧ (State.sealSlot q b s).archive = s.archive ∧ (State.sealSlot q b s).pages = s.pages ∧
    (State.sealSlot q b s).ledger = s.ledger ∧ (State.sealSlot q b s).trouble = s.trouble ∧ (State.sealSlot q b s).sec = s.sec ∧
    (State.sealSlot q b s).power = s.power ∧ (State.sealSlot q b s).boot = s.boot ∧ (State.sealSlot q b s).dap = s.dap ∧ (State.sealSlot q b s).seqs = s.seqs ∧
    (State.sealSlot q b s).wave = s.wave ∧ (State.sealSlot q b s).est = s.est ∧ (State.sealSlot q b s).conc = s.conc ∧ (State.sealSlot q b s).bias = s.bias ∧
    (State.sealSlot q b s).cal = s.cal ∧ (State.sealSlot q b s).thermal = s.thermal ∧ (State.sealSlot q b s).free = s.free := by
  rcases b with _ | i | i | i <;> exact ⟨rfl, rfl, rfl, rfl, rfl, rfl, rfl, rfl, rfl, rfl, rfl, rfl, rfl, rfl, rfl, rfl, rfl, rfl, rfl, rfl, rfl, rfl, rfl⟩

/-- What `State.applySlot` keeps. -/
@[simp] theorem State.applySlot_frame (q t : Nat) (b : Binding) (s : State) :
    (State.applySlot q t b s).pending = s.pending ∧ (State.applySlot q t b s).ident = s.ident ∧ (State.applySlot q t b s).host = s.host ∧
    (State.applySlot q t b s).units = s.units ∧ (State.applySlot q t b s).desk = s.desk ∧ (State.applySlot q t b s).parts = s.parts ∧
    (State.applySlot q t b s).archive = s.archive ∧ (State.applySlot q t b s).pages = s.pages ∧ (State.applySlot q t b s).ledger = s.ledger ∧
    (State.applySlot q t b s).trouble = s.trouble ∧ (State.applySlot q t b s).sec = s.sec ∧ (State.applySlot q t b s).power = s.power ∧
    (State.applySlot q t b s).boot = s.boot ∧ (State.applySlot q t b s).dap = s.dap ∧ (State.applySlot q t b s).seqs = s.seqs ∧
    (State.applySlot q t b s).est = s.est ∧ (State.applySlot q t b s).conc = s.conc ∧ (State.applySlot q t b s).bias = s.bias ∧
    (State.applySlot q t b s).cal = s.cal ∧ (State.applySlot q t b s).thermal = s.thermal ∧ (State.applySlot q t b s).free = s.free := by
  rcases b with _ | i | i | k
  · exact ⟨rfl, rfl, rfl, rfl, rfl, rfl, rfl, rfl, rfl, rfl, rfl, rfl, rfl, rfl, rfl, rfl, rfl, rfl, rfl, rfl, rfl⟩
  · exact ⟨rfl, rfl, rfl, rfl, rfl, rfl, rfl, rfl, rfl, rfl, rfl, rfl, rfl, rfl, rfl, rfl, rfl, rfl, rfl, rfl, rfl⟩
  · exact ⟨rfl, rfl, rfl, rfl, rfl, rfl, rfl, rfl, rfl, rfl, rfl, rfl, rfl, rfl, rfl, rfl, rfl, rfl, rfl, rfl, rfl⟩
  · unfold State.applySlot; dsimp only
    split <;> simp

/-- What `State.unbindSlot` keeps. -/
@[simp] theorem State.unbindSlot_frame (b : Binding) (s : State) :
    (State.unbindSlot b s).pending = s.pending ∧ (State.unbindSlot b s).ident = s.ident ∧ (State.unbindSlot b s).time = s.time ∧
    (State.unbindSlot b s).host = s.host ∧ (State.unbindSlot b s).units = s.units ∧ (State.unbindSlot b s).desk = s.desk ∧
    (State.unbindSlot b s).parts = s.parts ∧ (State.unbindSlot b s).archive = s.archive ∧ (State.unbindSlot b s).pages = s.pages ∧
    (State.unbindSlot b s).ledger = s.ledger ∧ (State.unbindSlot b s).trouble = s.trouble ∧ (State.unbindSlot b s).sec = s.sec ∧
    (State.unbindSlot b s).power = s.power ∧ (State.unbindSlot b s).boot = s.boot ∧ (State.unbindSlot b s).dap = s.dap ∧ (State.unbindSlot b s).seqs = s.seqs ∧
    (State.unbindSlot b s).est = s.est ∧ (State.unbindSlot b s).conc = s.conc ∧ (State.unbindSlot b s).acq = s.acq ∧ (State.unbindSlot b s).bias = s.bias ∧
    (State.unbindSlot b s).cal = s.cal ∧ (State.unbindSlot b s).thermal = s.thermal ∧ (State.unbindSlot b s).free = s.free := by
  unfold State.unbindSlot; (try dsimp only)
  repeat' split
  all_goals (first | done | simp)

/-- What `State.commitEnd` keeps. -/
@[simp] theorem State.commitEnd_frame (v status : Nat) (s : State) :
    (State.commitEnd v status s).pending = s.pending ∧ (State.commitEnd v status s).ident = s.ident ∧ (State.commitEnd v status s).time = s.time ∧
    (State.commitEnd v status s).units = s.units ∧ (State.commitEnd v status s).desk = s.desk ∧ (State.commitEnd v status s).parts = s.parts ∧
    (State.commitEnd v status s).archive = s.archive ∧ (State.commitEnd v status s).sec = s.sec ∧ (State.commitEnd v status s).power = s.power ∧
    (State.commitEnd v status s).boot = s.boot ∧ (State.commitEnd v status s).dap = s.dap ∧ (State.commitEnd v status s).seqs = s.seqs ∧
    (State.commitEnd v status s).synth = s.synth ∧ (State.commitEnd v status s).wave = s.wave ∧ (State.commitEnd v status s).readout = s.readout ∧
    (State.commitEnd v status s).est = s.est ∧ (State.commitEnd v status s).fabric = s.fabric ∧ (State.commitEnd v status s).conc = s.conc ∧
    (State.commitEnd v status s).acq = s.acq ∧ (State.commitEnd v status s).bias = s.bias ∧ (State.commitEnd v status s).cal = s.cal ∧
    (State.commitEnd v status s).thermal = s.thermal := by
  unfold State.commitEnd
  repeat' split
  all_goals (first | done | simp)

/-- What `State.checkLanded` keeps. -/
@[simp] theorem State.checkLanded_frame (v : Nat) (t : Nat) (s : State) :
    (State.checkLanded v t s).pending = s.pending ∧ (State.checkLanded v t s).ident = s.ident ∧ (State.checkLanded v t s).time = s.time ∧
    (State.checkLanded v t s).units = s.units ∧ (State.checkLanded v t s).desk = s.desk ∧ (State.checkLanded v t s).parts = s.parts ∧
    (State.checkLanded v t s).archive = s.archive ∧ (State.checkLanded v t s).sec = s.sec ∧ (State.checkLanded v t s).power = s.power ∧
    (State.checkLanded v t s).boot = s.boot ∧ (State.checkLanded v t s).dap = s.dap ∧ (State.checkLanded v t s).seqs = s.seqs ∧
    (State.checkLanded v t s).synth = s.synth ∧ (State.checkLanded v t s).wave = s.wave ∧ (State.checkLanded v t s).readout = s.readout ∧
    (State.checkLanded v t s).est = s.est ∧ (State.checkLanded v t s).fabric = s.fabric ∧ (State.checkLanded v t s).acq = s.acq ∧
    (State.checkLanded v t s).bias = s.bias ∧ (State.checkLanded v t s).cal = s.cal ∧ (State.checkLanded v t s).thermal = s.thermal := by
  unfold State.checkLanded; (try dsimp only)
  repeat' split
  all_goals (first | done | simp)

/-- What `State.land` keeps. -/
@[simp] theorem State.land_frame (q t : Nat) (s : State) :
    (State.land q t s).pending = s.pending ∧ (State.land q t s).ident = s.ident ∧ (State.land q t s).time = s.time ∧ (State.land q t s).units = s.units ∧
    (State.land q t s).desk = s.desk ∧ (State.land q t s).parts = s.parts ∧ (State.land q t s).archive = s.archive ∧ (State.land q t s).sec = s.sec ∧
    (State.land q t s).power = s.power ∧ (State.land q t s).boot = s.boot ∧ (State.land q t s).dap = s.dap ∧ (State.land q t s).synth = s.synth ∧
    (State.land q t s).wave = s.wave ∧ (State.land q t s).readout = s.readout ∧ (State.land q t s).est = s.est ∧ (State.land q t s).fabric = s.fabric ∧
    (State.land q t s).acq = s.acq ∧ (State.land q t s).bias = s.bias ∧ (State.land q t s).cal = s.cal ∧ (State.land q t s).thermal = s.thermal := by
  unfold State.land; (try dsimp only)
  repeat' split
  all_goals (first | done | simp)

/-- What `State.applyMember` keeps. -/
@[simp] theorem State.applyMember_frame (q t : Nat) (s : State) :
    (State.applyMember q t s).pending = s.pending ∧ (State.applyMember q t s).ident = s.ident ∧ (State.applyMember q t s).time = s.time ∧
    (State.applyMember q t s).units = s.units ∧ (State.applyMember q t s).desk = s.desk ∧ (State.applyMember q t s).parts = s.parts ∧
    (State.applyMember q t s).archive = s.archive ∧ (State.applyMember q t s).sec = s.sec ∧ (State.applyMember q t s).power = s.power ∧
    (State.applyMember q t s).boot = s.boot ∧ (State.applyMember q t s).dap = s.dap ∧ (State.applyMember q t s).seqs = s.seqs ∧
    (State.applyMember q t s).synth = s.synth ∧ (State.applyMember q t s).wave = s.wave ∧ (State.applyMember q t s).readout = s.readout ∧
    (State.applyMember q t s).est = s.est ∧ (State.applyMember q t s).fabric = s.fabric ∧ (State.applyMember q t s).acq = s.acq ∧
    (State.applyMember q t s).bias = s.bias ∧ (State.applyMember q t s).cal = s.cal ∧ (State.applyMember q t s).thermal = s.thermal := by
  unfold State.applyMember; (try dsimp only)
  repeat' split
  all_goals (first | done | simp)

/-- What `State.applySet` keeps. -/
@[simp] theorem State.applySet_frame (q t : Nat) (s : State) :
    (State.applySet q t s).pending = s.pending ∧ (State.applySet q t s).ident = s.ident ∧ (State.applySet q t s).units = s.units ∧
    (State.applySet q t s).desk = s.desk ∧ (State.applySet q t s).parts = s.parts ∧ (State.applySet q t s).archive = s.archive ∧
    (State.applySet q t s).sec = s.sec ∧ (State.applySet q t s).power = s.power ∧ (State.applySet q t s).boot = s.boot ∧ (State.applySet q t s).dap = s.dap ∧
    (State.applySet q t s).est = s.est ∧ (State.applySet q t s).bias = s.bias ∧ (State.applySet q t s).cal = s.cal ∧ (State.applySet q t s).thermal = s.thermal := by
  unfold State.applySet; (try dsimp only)
  repeat' split
  all_goals (first | done | simp)

/-- What `State.partCheck` keeps. -/
@[simp] theorem State.partCheck_frame (p : Nat) (s : State) :
    (State.partCheck p s).pending = s.pending ∧ (State.partCheck p s).ident = s.ident ∧ (State.partCheck p s).time = s.time ∧
    (State.partCheck p s).units = s.units ∧ (State.partCheck p s).desk = s.desk ∧ (State.partCheck p s).archive = s.archive ∧
    (State.partCheck p s).sec = s.sec ∧ (State.partCheck p s).power = s.power ∧ (State.partCheck p s).boot = s.boot ∧ (State.partCheck p s).dap = s.dap ∧
    (State.partCheck p s).seqs = s.seqs ∧ (State.partCheck p s).synth = s.synth ∧ (State.partCheck p s).wave = s.wave ∧
    (State.partCheck p s).readout = s.readout ∧ (State.partCheck p s).est = s.est ∧ (State.partCheck p s).fabric = s.fabric ∧
    (State.partCheck p s).conc = s.conc ∧ (State.partCheck p s).acq = s.acq ∧ (State.partCheck p s).bias = s.bias ∧ (State.partCheck p s).cal = s.cal ∧
    (State.partCheck p s).thermal = s.thermal := by
  unfold State.partCheck; (try dsimp only)
  repeat' split
  all_goals (first | done | simp)

/-- What `State.setIdle` keeps. -/
@[simp] theorem State.setIdle_frame (q : Nat) (m : SeqMode) (s : State) :
    (State.setIdle q m s).pending = s.pending ∧ (State.setIdle q m s).ident = s.ident ∧ (State.setIdle q m s).time = s.time ∧
    (State.setIdle q m s).units = s.units ∧ (State.setIdle q m s).desk = s.desk ∧ (State.setIdle q m s).archive = s.archive ∧
    (State.setIdle q m s).sec = s.sec ∧ (State.setIdle q m s).power = s.power ∧ (State.setIdle q m s).boot = s.boot ∧ (State.setIdle q m s).dap = s.dap ∧
    (State.setIdle q m s).synth = s.synth ∧ (State.setIdle q m s).wave = s.wave ∧ (State.setIdle q m s).readout = s.readout ∧
    (State.setIdle q m s).est = s.est ∧ (State.setIdle q m s).fabric = s.fabric ∧ (State.setIdle q m s).conc = s.conc ∧ (State.setIdle q m s).acq = s.acq ∧
    (State.setIdle q m s).bias = s.bias ∧ (State.setIdle q m s).cal = s.cal ∧ (State.setIdle q m s).thermal = s.thermal := by
  unfold State.setIdle
  all_goals (first | done | simp)

/-- What `State.startShot` keeps. -/
@[simp] theorem State.startShot_frame (q e : Nat) (step : Bool) (s : State) :
    (State.startShot q e step s).pending = s.pending ∧ (State.startShot q e step s).ident = s.ident ∧ (State.startShot q e step s).time = s.time ∧
    (State.startShot q e step s).host = s.host ∧ (State.startShot q e step s).units = s.units ∧ (State.startShot q e step s).desk = s.desk ∧
    (State.startShot q e step s).parts = s.parts ∧ (State.startShot q e step s).archive = s.archive ∧ (State.startShot q e step s).pages = s.pages ∧
    (State.startShot q e step s).ledger = s.ledger ∧ (State.startShot q e step s).trouble = s.trouble ∧ (State.startShot q e step s).sec = s.sec ∧
    (State.startShot q e step s).power = s.power ∧ (State.startShot q e step s).boot = s.boot ∧ (State.startShot q e step s).dap = s.dap ∧
    (State.startShot q e step s).wave = s.wave ∧ (State.startShot q e step s).readout = s.readout ∧ (State.startShot q e step s).est = s.est ∧
    (State.startShot q e step s).fabric = s.fabric ∧ (State.startShot q e step s).acq = s.acq ∧ (State.startShot q e step s).bias = s.bias ∧
    (State.startShot q e step s).cal = s.cal ∧ (State.startShot q e step s).thermal = s.thermal ∧ (State.startShot q e step s).free = s.free := by
  unfold State.startShot; (try dsimp only)
  repeat' split
  all_goals (first | done | simp)

/-- What `State.clearParity` keeps. -/
@[simp] theorem State.clearParity_frame (q : Nat) (s : State) :
    (State.clearParity q s).pending = s.pending ∧ (State.clearParity q s).ident = s.ident ∧ (State.clearParity q s).time = s.time ∧
    (State.clearParity q s).host = s.host ∧ (State.clearParity q s).units = s.units ∧ (State.clearParity q s).desk = s.desk ∧
    (State.clearParity q s).parts = s.parts ∧ (State.clearParity q s).archive = s.archive ∧ (State.clearParity q s).pages = s.pages ∧
    (State.clearParity q s).ledger = s.ledger ∧ (State.clearParity q s).trouble = s.trouble ∧ (State.clearParity q s).sec = s.sec ∧
    (State.clearParity q s).power = s.power ∧ (State.clearParity q s).boot = s.boot ∧ (State.clearParity q s).dap = s.dap ∧
    (State.clearParity q s).seqs = s.seqs ∧ (State.clearParity q s).wave = s.wave ∧ (State.clearParity q s).readout = s.readout ∧
    (State.clearParity q s).est = s.est ∧ (State.clearParity q s).fabric = s.fabric ∧ (State.clearParity q s).conc = s.conc ∧
    (State.clearParity q s).acq = s.acq ∧ (State.clearParity q s).bias = s.bias ∧ (State.clearParity q s).cal = s.cal ∧
    (State.clearParity q s).thermal = s.thermal ∧ (State.clearParity q s).free = s.free := by
  unfold State.clearParity
  all_goals (first | done | simp)

/-- What `State.endShot` keeps. -/
@[simp] theorem State.endShot_frame (q t : Nat) (ab : Option Abort) (s : State) :
    (State.endShot q t ab s).pending = s.pending ∧ (State.endShot q t ab s).ident = s.ident ∧ (State.endShot q t ab s).units = s.units ∧
    (State.endShot q t ab s).desk = s.desk ∧ (State.endShot q t ab s).archive = s.archive ∧ (State.endShot q t ab s).sec = s.sec ∧
    (State.endShot q t ab s).power = s.power ∧ (State.endShot q t ab s).boot = s.boot ∧ (State.endShot q t ab s).dap = s.dap ∧
    (State.endShot q t ab s).est = s.est ∧ (State.endShot q t ab s).bias = s.bias ∧ (State.endShot q t ab s).cal = s.cal ∧
    (State.endShot q t ab s).thermal = s.thermal := by
  unfold State.endShot; (try dsimp only)
  all_goals (first | done | simp)

/-- What `State.haltSeq` keeps. -/
@[simp] theorem State.haltSeq_frame (q : Nat) (abortMode : Bool) (acc : BitVec 32) (s : State) :
    (State.haltSeq q abortMode acc s).pending = s.pending ∧ (State.haltSeq q abortMode acc s).ident = s.ident ∧
    (State.haltSeq q abortMode acc s).units = s.units ∧ (State.haltSeq q abortMode acc s).desk = s.desk ∧
    (State.haltSeq q abortMode acc s).archive = s.archive ∧ (State.haltSeq q abortMode acc s).sec = s.sec ∧ (State.haltSeq q abortMode acc s).power = s.power ∧
    (State.haltSeq q abortMode acc s).boot = s.boot ∧ (State.haltSeq q abortMode acc s).dap = s.dap ∧ (State.haltSeq q abortMode acc s).synth = s.synth ∧
    (State.haltSeq q abortMode acc s).wave = s.wave ∧ (State.haltSeq q abortMode acc s).readout = s.readout ∧ (State.haltSeq q abortMode acc s).est = s.est ∧
    (State.haltSeq q abortMode acc s).fabric = s.fabric ∧ (State.haltSeq q abortMode acc s).conc = s.conc ∧ (State.haltSeq q abortMode acc s).acq = s.acq ∧
    (State.haltSeq q abortMode acc s).bias = s.bias ∧ (State.haltSeq q abortMode acc s).cal = s.cal ∧ (State.haltSeq q abortMode acc s).thermal = s.thermal := by
  unfold State.haltSeq; (try dsimp only)
  repeat' split
  all_goals (first | done | simp)

/-- What `State.applyIdle` keeps. -/
@[simp] theorem State.applyIdle_frame (q : Nat) (s : State) :
    (State.applyIdle q s).pending = s.pending ∧ (State.applyIdle q s).ident = s.ident ∧ (State.applyIdle q s).units = s.units ∧
    (State.applyIdle q s).desk = s.desk ∧ (State.applyIdle q s).archive = s.archive ∧ (State.applyIdle q s).sec = s.sec ∧
    (State.applyIdle q s).power = s.power ∧ (State.applyIdle q s).boot = s.boot ∧ (State.applyIdle q s).dap = s.dap ∧ (State.applyIdle q s).est = s.est ∧
    (State.applyIdle q s).bias = s.bias ∧ (State.applyIdle q s).cal = s.cal ∧ (State.applyIdle q s).thermal = s.thermal := by
  unfold State.applyIdle; (try dsimp only)
  repeat' split
  all_goals (first | done | simp)

/-- What `State.startTripped` keeps. -/
@[simp] theorem State.startTripped_frame (m t : Nat) (s : State) :
    (State.startTripped m t s).pending = s.pending ∧ (State.startTripped m t s).ident = s.ident ∧ (State.startTripped m t s).time = s.time ∧
    (State.startTripped m t s).host = s.host ∧ (State.startTripped m t s).units = s.units ∧ (State.startTripped m t s).desk = s.desk ∧
    (State.startTripped m t s).parts = s.parts ∧ (State.startTripped m t s).archive = s.archive ∧ (State.startTripped m t s).pages = s.pages ∧
    (State.startTripped m t s).ledger = s.ledger ∧ (State.startTripped m t s).trouble = s.trouble ∧ (State.startTripped m t s).sec = s.sec ∧
    (State.startTripped m t s).power = s.power ∧ (State.startTripped m t s).boot = s.boot ∧ (State.startTripped m t s).dap = s.dap ∧
    (State.startTripped m t s).seqs = s.seqs ∧ (State.startTripped m t s).wave = s.wave ∧ (State.startTripped m t s).readout = s.readout ∧
    (State.startTripped m t s).est = s.est ∧ (State.startTripped m t s).fabric = s.fabric ∧ (State.startTripped m t s).conc = s.conc ∧
    (State.startTripped m t s).acq = s.acq ∧ (State.startTripped m t s).cal = s.cal ∧ (State.startTripped m t s).thermal = s.thermal ∧
    (State.startTripped m t s).free = s.free := by
  unfold State.startTripped; (try dsimp only)
  all_goals (first | done | simp)

/-- What `State.raiseMaybe` keeps. -/
@[simp] theorem State.raiseMaybe_frame (v : Nat) (o : Option (Fin 8)) (s : State) :
    (State.raiseMaybe v o s).pending = s.pending ∧ (State.raiseMaybe v o s).ident = s.ident ∧ (State.raiseMaybe v o s).time = s.time ∧
    (State.raiseMaybe v o s).units = s.units ∧ (State.raiseMaybe v o s).desk = s.desk ∧ (State.raiseMaybe v o s).parts = s.parts ∧
    (State.raiseMaybe v o s).archive = s.archive ∧ (State.raiseMaybe v o s).pages = s.pages ∧ (State.raiseMaybe v o s).ledger = s.ledger ∧
    (State.raiseMaybe v o s).trouble = s.trouble ∧ (State.raiseMaybe v o s).sec = s.sec ∧ (State.raiseMaybe v o s).power = s.power ∧
    (State.raiseMaybe v o s).boot = s.boot ∧ (State.raiseMaybe v o s).dap = s.dap ∧ (State.raiseMaybe v o s).seqs = s.seqs ∧
    (State.raiseMaybe v o s).synth = s.synth ∧ (State.raiseMaybe v o s).wave = s.wave ∧ (State.raiseMaybe v o s).readout = s.readout ∧
    (State.raiseMaybe v o s).est = s.est ∧ (State.raiseMaybe v o s).fabric = s.fabric ∧ (State.raiseMaybe v o s).conc = s.conc ∧
    (State.raiseMaybe v o s).acq = s.acq ∧ (State.raiseMaybe v o s).bias = s.bias ∧ (State.raiseMaybe v o s).cal = s.cal ∧
    (State.raiseMaybe v o s).thermal = s.thermal ∧ (State.raiseMaybe v o s).free = s.free := by
  unfold State.raiseMaybe
  repeat' split
  all_goals (first | done | simp)

/-- What `State.dropQueueStart` keeps. -/
@[simp] theorem State.dropQueueStart_frame (b : Nat) (s : State) :
    (State.dropQueueStart b s).pending = s.pending ∧ (State.dropQueueStart b s).ident = s.ident ∧ (State.dropQueueStart b s).host = s.host ∧
    (State.dropQueueStart b s).units = s.units ∧ (State.dropQueueStart b s).desk = s.desk ∧ (State.dropQueueStart b s).parts = s.parts ∧
    (State.dropQueueStart b s).archive = s.archive ∧ (State.dropQueueStart b s).pages = s.pages ∧ (State.dropQueueStart b s).ledger = s.ledger ∧
    (State.dropQueueStart b s).trouble = s.trouble ∧ (State.dropQueueStart b s).sec = s.sec ∧ (State.dropQueueStart b s).power = s.power ∧
    (State.dropQueueStart b s).boot = s.boot ∧ (State.dropQueueStart b s).dap = s.dap ∧ (State.dropQueueStart b s).seqs = s.seqs ∧
    (State.dropQueueStart b s).synth = s.synth ∧ (State.dropQueueStart b s).wave = s.wave ∧ (State.dropQueueStart b s).readout = s.readout ∧
    (State.dropQueueStart b s).est = s.est ∧ (State.dropQueueStart b s).fabric = s.fabric ∧ (State.dropQueueStart b s).conc = s.conc ∧
    (State.dropQueueStart b s).acq = s.acq ∧ (State.dropQueueStart b s).bias = s.bias ∧ (State.dropQueueStart b s).cal = s.cal ∧
    (State.dropQueueStart b s).thermal = s.thermal ∧ (State.dropQueueStart b s).free = s.free := by
  unfold State.dropQueueStart; (try dsimp only)
  all_goals (first | done | simp)

/-- What `State.allChansOff` keeps. -/
@[simp] theorem State.allChansOff_frame (s : State) :
    (State.allChansOff s).pending = s.pending ∧ (State.allChansOff s).ident = s.ident ∧ (State.allChansOff s).host = s.host ∧
    (State.allChansOff s).units = s.units ∧ (State.allChansOff s).desk = s.desk ∧ (State.allChansOff s).parts = s.parts ∧
    (State.allChansOff s).archive = s.archive ∧ (State.allChansOff s).pages = s.pages ∧ (State.allChansOff s).ledger = s.ledger ∧
    (State.allChansOff s).trouble = s.trouble ∧ (State.allChansOff s).sec = s.sec ∧ (State.allChansOff s).power = s.power ∧
    (State.allChansOff s).boot = s.boot ∧ (State.allChansOff s).dap = s.dap ∧ (State.allChansOff s).seqs = s.seqs ∧ (State.allChansOff s).synth = s.synth ∧
    (State.allChansOff s).wave = s.wave ∧ (State.allChansOff s).readout = s.readout ∧ (State.allChansOff s).est = s.est ∧
    (State.allChansOff s).fabric = s.fabric ∧ (State.allChansOff s).conc = s.conc ∧ (State.allChansOff s).acq = s.acq ∧ (State.allChansOff s).cal = s.cal ∧
    (State.allChansOff s).thermal = s.thermal ∧ (State.allChansOff s).free = s.free := by
  unfold State.allChansOff; (try dsimp only)
  all_goals (first | done | simp)

/-- What `State.freezeChan` keeps. -/
@[simp] theorem State.freezeChan_frame (b : Nat) (s : State) :
    (State.freezeChan b s).pending = s.pending ∧ (State.freezeChan b s).ident = s.ident ∧ (State.freezeChan b s).host = s.host ∧
    (State.freezeChan b s).units = s.units ∧ (State.freezeChan b s).desk = s.desk ∧ (State.freezeChan b s).parts = s.parts ∧
    (State.freezeChan b s).archive = s.archive ∧ (State.freezeChan b s).pages = s.pages ∧ (State.freezeChan b s).ledger = s.ledger ∧
    (State.freezeChan b s).trouble = s.trouble ∧ (State.freezeChan b s).sec = s.sec ∧ (State.freezeChan b s).power = s.power ∧
    (State.freezeChan b s).boot = s.boot ∧ (State.freezeChan b s).dap = s.dap ∧ (State.freezeChan b s).seqs = s.seqs ∧ (State.freezeChan b s).synth = s.synth ∧
    (State.freezeChan b s).wave = s.wave ∧ (State.freezeChan b s).readout = s.readout ∧ (State.freezeChan b s).est = s.est ∧
    (State.freezeChan b s).fabric = s.fabric ∧ (State.freezeChan b s).conc = s.conc ∧ (State.freezeChan b s).acq = s.acq ∧ (State.freezeChan b s).cal = s.cal ∧
    (State.freezeChan b s).thermal = s.thermal ∧ (State.freezeChan b s).free = s.free := by
  unfold State.freezeChan; (try dsimp only)
  repeat' split
  all_goals (first | done | simp)

/-- What `State.copyTrip` keeps. -/
@[simp] theorem State.copyTrip_frame (m t : Nat) (was : Bool) (s : State) :
    (State.copyTrip m t was s).2.pending = s.pending ∧ (State.copyTrip m t was s).2.ident = s.ident ∧ (State.copyTrip m t was s).2.time = s.time ∧
    (State.copyTrip m t was s).2.host = s.host ∧ (State.copyTrip m t was s).2.units = s.units ∧ (State.copyTrip m t was s).2.desk = s.desk ∧
    (State.copyTrip m t was s).2.parts = s.parts ∧ (State.copyTrip m t was s).2.archive = s.archive ∧ (State.copyTrip m t was s).2.pages = s.pages ∧
    (State.copyTrip m t was s).2.ledger = s.ledger ∧ (State.copyTrip m t was s).2.trouble = s.trouble ∧ (State.copyTrip m t was s).2.sec = s.sec ∧
    (State.copyTrip m t was s).2.power = s.power ∧ (State.copyTrip m t was s).2.boot = s.boot ∧ (State.copyTrip m t was s).2.dap = s.dap ∧
    (State.copyTrip m t was s).2.seqs = s.seqs ∧ (State.copyTrip m t was s).2.synth = s.synth ∧ (State.copyTrip m t was s).2.wave = s.wave ∧
    (State.copyTrip m t was s).2.readout = s.readout ∧ (State.copyTrip m t was s).2.est = s.est ∧ (State.copyTrip m t was s).2.fabric = s.fabric ∧
    (State.copyTrip m t was s).2.conc = s.conc ∧ (State.copyTrip m t was s).2.acq = s.acq ∧ (State.copyTrip m t was s).2.cal = s.cal ∧
    (State.copyTrip m t was s).2.thermal = s.thermal := by
  unfold State.copyTrip; (try dsimp only)
  all_goals (first | done | simp)

/-- What `State.trip` keeps. -/
@[simp] theorem State.trip_frame (m t : Nat) (s : State) :
    (State.trip m t s).pending = s.pending ∧ (State.trip m t s).ident = s.ident ∧ (State.trip m t s).units = s.units ∧ (State.trip m t s).desk = s.desk ∧
    (State.trip m t s).parts = s.parts ∧ (State.trip m t s).archive = s.archive ∧ (State.trip m t s).sec = s.sec ∧ (State.trip m t s).power = s.power ∧
    (State.trip m t s).boot = s.boot ∧ (State.trip m t s).dap = s.dap ∧ (State.trip m t s).seqs = s.seqs ∧ (State.trip m t s).wave = s.wave ∧
    (State.trip m t s).readout = s.readout ∧ (State.trip m t s).est = s.est ∧ (State.trip m t s).fabric = s.fabric ∧ (State.trip m t s).conc = s.conc ∧
    (State.trip m t s).cal = s.cal ∧ (State.trip m t s).thermal = s.thermal := by
  unfold State.trip; (try dsimp only)
  repeat' split
  all_goals (first | done | simp)

/-- What `State.untrip` keeps. -/
@[simp] theorem State.untrip_frame (m : Nat) (s : State) :
    (State.untrip m s).pending = s.pending ∧ (State.untrip m s).ident = s.ident ∧ (State.untrip m s).time = s.time ∧ (State.untrip m s).host = s.host ∧
    (State.untrip m s).units = s.units ∧ (State.untrip m s).desk = s.desk ∧ (State.untrip m s).parts = s.parts ∧ (State.untrip m s).archive = s.archive ∧
    (State.untrip m s).pages = s.pages ∧ (State.untrip m s).ledger = s.ledger ∧ (State.untrip m s).trouble = s.trouble ∧ (State.untrip m s).sec = s.sec ∧
    (State.untrip m s).power = s.power ∧ (State.untrip m s).boot = s.boot ∧ (State.untrip m s).dap = s.dap ∧ (State.untrip m s).seqs = s.seqs ∧
    (State.untrip m s).wave = s.wave ∧ (State.untrip m s).readout = s.readout ∧ (State.untrip m s).est = s.est ∧ (State.untrip m s).fabric = s.fabric ∧
    (State.untrip m s).conc = s.conc ∧ (State.untrip m s).cal = s.cal ∧ (State.untrip m s).thermal = s.thermal := by
  unfold State.untrip; (try dsimp only)
  all_goals (first | done | simp)

/-- What `State.unlockMute` keeps. -/
@[simp] theorem State.unlockMute_frame (s : State) :
    (State.unlockMute s).pending = s.pending ∧ (State.unlockMute s).ident = s.ident ∧ (State.unlockMute s).time = s.time ∧ (State.unlockMute s).host = s.host ∧
    (State.unlockMute s).units = s.units ∧ (State.unlockMute s).desk = s.desk ∧ (State.unlockMute s).parts = s.parts ∧
    (State.unlockMute s).archive = s.archive ∧ (State.unlockMute s).pages = s.pages ∧ (State.unlockMute s).ledger = s.ledger ∧
    (State.unlockMute s).trouble = s.trouble ∧ (State.unlockMute s).sec = s.sec ∧ (State.unlockMute s).power = s.power ∧ (State.unlockMute s).boot = s.boot ∧
    (State.unlockMute s).dap = s.dap ∧ (State.unlockMute s).seqs = s.seqs ∧ (State.unlockMute s).wave = s.wave ∧ (State.unlockMute s).est = s.est ∧
    (State.unlockMute s).fabric = s.fabric ∧ (State.unlockMute s).conc = s.conc ∧ (State.unlockMute s).acq = s.acq ∧ (State.unlockMute s).thermal = s.thermal ∧
    (State.unlockMute s).free = s.free := by
  unfold State.unlockMute
  all_goals (first | done | simp)

/-- What `State.unlockRelease` keeps. -/
@[simp] theorem State.unlockRelease_frame (s : State) :
    (State.unlockRelease s).pending = s.pending ∧ (State.unlockRelease s).ident = s.ident ∧ (State.unlockRelease s).time = s.time ∧
    (State.unlockRelease s).host = s.host ∧ (State.unlockRelease s).units = s.units ∧ (State.unlockRelease s).desk = s.desk ∧
    (State.unlockRelease s).parts = s.parts ∧ (State.unlockRelease s).archive = s.archive ∧ (State.unlockRelease s).pages = s.pages ∧
    (State.unlockRelease s).ledger = s.ledger ∧ (State.unlockRelease s).trouble = s.trouble ∧ (State.unlockRelease s).sec = s.sec ∧
    (State.unlockRelease s).power = s.power ∧ (State.unlockRelease s).boot = s.boot ∧ (State.unlockRelease s).dap = s.dap ∧
    (State.unlockRelease s).seqs = s.seqs ∧ (State.unlockRelease s).wave = s.wave ∧ (State.unlockRelease s).readout = s.readout ∧
    (State.unlockRelease s).est = s.est ∧ (State.unlockRelease s).fabric = s.fabric ∧ (State.unlockRelease s).conc = s.conc ∧
    (State.unlockRelease s).acq = s.acq ∧ (State.unlockRelease s).bias = s.bias ∧ (State.unlockRelease s).cal = s.cal ∧
    (State.unlockRelease s).thermal = s.thermal ∧ (State.unlockRelease s).free = s.free := by
  unfold State.unlockRelease
  all_goals (first | done | simp)

/-- What `State.driveMark` keeps. -/
@[simp] theorem State.driveMark_frame (t : Nat) (s : State) :
    (State.driveMark t s).pending = s.pending ∧ (State.driveMark t s).ident = s.ident ∧ (State.driveMark t s).time = s.time ∧
    (State.driveMark t s).host = s.host ∧ (State.driveMark t s).units = s.units ∧ (State.driveMark t s).desk = s.desk ∧ (State.driveMark t s).parts = s.parts ∧
    (State.driveMark t s).archive = s.archive ∧ (State.driveMark t s).pages = s.pages ∧ (State.driveMark t s).ledger = s.ledger ∧
    (State.driveMark t s).trouble = s.trouble ∧ (State.driveMark t s).sec = s.sec ∧ (State.driveMark t s).power = s.power ∧
    (State.driveMark t s).boot = s.boot ∧ (State.driveMark t s).dap = s.dap ∧ (State.driveMark t s).seqs = s.seqs ∧ (State.driveMark t s).wave = s.wave ∧
    (State.driveMark t s).readout = s.readout ∧ (State.driveMark t s).est = s.est ∧ (State.driveMark t s).fabric = s.fabric ∧
    (State.driveMark t s).conc = s.conc ∧ (State.driveMark t s).acq = s.acq ∧ (State.driveMark t s).bias = s.bias ∧ (State.driveMark t s).cal = s.cal ∧
    (State.driveMark t s).thermal = s.thermal ∧ (State.driveMark t s).free = s.free := by
  unfold State.driveMark; (try dsimp only)
  all_goals (first | done | simp)

/-- What `State.fireAlm` keeps. -/
@[simp] theorem State.fireAlm_frame (w : AlmWhat) (s : State) :
    (State.fireAlm w s).pending = s.pending ∧ (State.fireAlm w s).ident = s.ident ∧ (State.fireAlm w s).units = s.units ∧ (State.fireAlm w s).desk = s.desk ∧
    (State.fireAlm w s).archive = s.archive ∧ (State.fireAlm w s).sec = s.sec ∧ (State.fireAlm w s).power = s.power ∧ (State.fireAlm w s).boot = s.boot ∧
    (State.fireAlm w s).dap = s.dap ∧ (State.fireAlm w s).est = s.est ∧ (State.fireAlm w s).cal = s.cal ∧ (State.fireAlm w s).thermal = s.thermal := by
  unfold State.fireAlm; (try dsimp only)
  repeat' split
  all_goals (first | done | simp)

/-- What `State.lanesRelockDue` keeps. -/
@[simp] theorem State.lanesRelockDue_frame (s : State) :
    (State.lanesRelockDue s).pending = s.pending ∧ (State.lanesRelockDue s).ident = s.ident ∧ (State.lanesRelockDue s).time = s.time ∧
    (State.lanesRelockDue s).host = s.host ∧ (State.lanesRelockDue s).units = s.units ∧ (State.lanesRelockDue s).desk = s.desk ∧
    (State.lanesRelockDue s).parts = s.parts ∧ (State.lanesRelockDue s).archive = s.archive ∧ (State.lanesRelockDue s).pages = s.pages ∧
    (State.lanesRelockDue s).ledger = s.ledger ∧ (State.lanesRelockDue s).trouble = s.trouble ∧ (State.lanesRelockDue s).sec = s.sec ∧
    (State.lanesRelockDue s).power = s.power ∧ (State.lanesRelockDue s).boot = s.boot ∧ (State.lanesRelockDue s).dap = s.dap ∧
    (State.lanesRelockDue s).seqs = s.seqs ∧ (State.lanesRelockDue s).synth = s.synth ∧ (State.lanesRelockDue s).wave = s.wave ∧
    (State.lanesRelockDue s).readout = s.readout ∧ (State.lanesRelockDue s).est = s.est ∧ (State.lanesRelockDue s).conc = s.conc ∧
    (State.lanesRelockDue s).acq = s.acq ∧ (State.lanesRelockDue s).bias = s.bias ∧ (State.lanesRelockDue s).cal = s.cal ∧
    (State.lanesRelockDue s).thermal = s.thermal ∧ (State.lanesRelockDue s).free = s.free := by
  unfold State.lanesRelockDue; (try dsimp only)
  all_goals (first | done | simp)

/-- What `State.askSkew` keeps. -/
@[simp] theorem State.askSkew_frame (peer : Nat) (s : State) :
    (State.askSkew peer s).pending = s.pending ∧ (State.askSkew peer s).ident = s.ident ∧ (State.askSkew peer s).time = s.time ∧
    (State.askSkew peer s).host = s.host ∧ (State.askSkew peer s).units = s.units ∧ (State.askSkew peer s).desk = s.desk ∧
    (State.askSkew peer s).parts = s.parts ∧ (State.askSkew peer s).archive = s.archive ∧ (State.askSkew peer s).pages = s.pages ∧
    (State.askSkew peer s).ledger = s.ledger ∧ (State.askSkew peer s).trouble = s.trouble ∧ (State.askSkew peer s).sec = s.sec ∧
    (State.askSkew peer s).power = s.power ∧ (State.askSkew peer s).boot = s.boot ∧ (State.askSkew peer s).dap = s.dap ∧ (State.askSkew peer s).seqs = s.seqs ∧
    (State.askSkew peer s).synth = s.synth ∧ (State.askSkew peer s).wave = s.wave ∧ (State.askSkew peer s).readout = s.readout ∧
    (State.askSkew peer s).est = s.est ∧ (State.askSkew peer s).conc = s.conc ∧ (State.askSkew peer s).acq = s.acq ∧ (State.askSkew peer s).bias = s.bias ∧
    (State.askSkew peer s).cal = s.cal ∧ (State.askSkew peer s).thermal = s.thermal ∧ (State.askSkew peer s).free = s.free := by
  unfold State.askSkew
  repeat' split
  all_goals (first | done | simp)

/-- What `State.openSession` keeps. -/
@[simp] theorem State.openSession_frame (f : Nat) (label : BitVec 32) (s : State) :
    (State.openSession f label s).2.pending = s.pending ∧ (State.openSession f label s).2.ident = s.ident ∧ (State.openSession f label s).2.time = s.time ∧
    (State.openSession f label s).2.units = s.units ∧ (State.openSession f label s).2.parts = s.parts ∧ (State.openSession f label s).2.archive = s.archive ∧
    (State.openSession f label s).2.pages = s.pages ∧ (State.openSession f label s).2.ledger = s.ledger ∧ (State.openSession f label s).2.trouble = s.trouble ∧
    (State.openSession f label s).2.sec = s.sec ∧ (State.openSession f label s).2.power = s.power ∧ (State.openSession f label s).2.boot = s.boot ∧
    (State.openSession f label s).2.dap = s.dap ∧ (State.openSession f label s).2.seqs = s.seqs ∧ (State.openSession f label s).2.synth = s.synth ∧
    (State.openSession f label s).2.wave = s.wave ∧ (State.openSession f label s).2.readout = s.readout ∧ (State.openSession f label s).2.est = s.est ∧
    (State.openSession f label s).2.fabric = s.fabric ∧ (State.openSession f label s).2.conc = s.conc ∧ (State.openSession f label s).2.acq = s.acq ∧
    (State.openSession f label s).2.bias = s.bias ∧ (State.openSession f label s).2.cal = s.cal ∧ (State.openSession f label s).2.thermal = s.thermal ∧
    (State.openSession f label s).2.free = s.free := by
  unfold State.openSession; (try dsimp only)
  all_goals (first | done | simp)

/-- What `State.closeSessions` keeps. -/
@[simp] theorem State.closeSessions_frame (f : Session → Bool) (s : State) :
    (State.closeSessions f s).pending = s.pending ∧ (State.closeSessions f s).ident = s.ident ∧ (State.closeSessions f s).time = s.time ∧
    (State.closeSessions f s).units = s.units ∧ (State.closeSessions f s).parts = s.parts ∧ (State.closeSessions f s).archive = s.archive ∧
    (State.closeSessions f s).pages = s.pages ∧ (State.closeSessions f s).ledger = s.ledger ∧ (State.closeSessions f s).trouble = s.trouble ∧
    (State.closeSessions f s).sec = s.sec ∧ (State.closeSessions f s).power = s.power ∧ (State.closeSessions f s).boot = s.boot ∧
    (State.closeSessions f s).dap = s.dap ∧ (State.closeSessions f s).seqs = s.seqs ∧ (State.closeSessions f s).synth = s.synth ∧
    (State.closeSessions f s).wave = s.wave ∧ (State.closeSessions f s).readout = s.readout ∧ (State.closeSessions f s).est = s.est ∧
    (State.closeSessions f s).fabric = s.fabric ∧ (State.closeSessions f s).conc = s.conc ∧ (State.closeSessions f s).acq = s.acq ∧
    (State.closeSessions f s).bias = s.bias ∧ (State.closeSessions f s).cal = s.cal ∧ (State.closeSessions f s).thermal = s.thermal ∧
    (State.closeSessions f s).free = s.free := by
  unfold State.closeSessions; (try dsimp only)
  all_goals (first | done | simp)

/-- What `State.closeSession` keeps. -/
@[simp] theorem State.closeSession_frame (h : BitVec 32) (s : State) :
    (State.closeSession h s).pending = s.pending ∧ (State.closeSession h s).ident = s.ident ∧ (State.closeSession h s).time = s.time ∧
    (State.closeSession h s).units = s.units ∧ (State.closeSession h s).parts = s.parts ∧ (State.closeSession h s).archive = s.archive ∧
    (State.closeSession h s).pages = s.pages ∧ (State.closeSession h s).ledger = s.ledger ∧ (State.closeSession h s).trouble = s.trouble ∧
    (State.closeSession h s).sec = s.sec ∧ (State.closeSession h s).power = s.power ∧ (State.closeSession h s).boot = s.boot ∧
    (State.closeSession h s).dap = s.dap ∧ (State.closeSession h s).seqs = s.seqs ∧ (State.closeSession h s).synth = s.synth ∧
    (State.closeSession h s).wave = s.wave ∧ (State.closeSession h s).readout = s.readout ∧ (State.closeSession h s).est = s.est ∧
    (State.closeSession h s).fabric = s.fabric ∧ (State.closeSession h s).conc = s.conc ∧ (State.closeSession h s).acq = s.acq ∧
    (State.closeSession h s).bias = s.bias ∧ (State.closeSession h s).cal = s.cal ∧ (State.closeSession h s).thermal = s.thermal ∧
    (State.closeSession h s).free = s.free := by
  unfold State.closeSession
  all_goals (first | done | simp)

/-- What `State.unmask` keeps. -/
@[simp] theorem State.unmask_frame (v : Fin 2048) (s : State) :
    (State.unmask v s).pending = s.pending ∧ (State.unmask v s).ident = s.ident ∧ (State.unmask v s).time = s.time ∧ (State.unmask v s).units = s.units ∧
    (State.unmask v s).desk = s.desk ∧ (State.unmask v s).parts = s.parts ∧ (State.unmask v s).archive = s.archive ∧ (State.unmask v s).pages = s.pages ∧
    (State.unmask v s).ledger = s.ledger ∧ (State.unmask v s).trouble = s.trouble ∧ (State.unmask v s).sec = s.sec ∧ (State.unmask v s).power = s.power ∧
    (State.unmask v s).boot = s.boot ∧ (State.unmask v s).dap = s.dap ∧ (State.unmask v s).seqs = s.seqs ∧ (State.unmask v s).synth = s.synth ∧
    (State.unmask v s).wave = s.wave ∧ (State.unmask v s).readout = s.readout ∧ (State.unmask v s).est = s.est ∧ (State.unmask v s).fabric = s.fabric ∧
    (State.unmask v s).conc = s.conc ∧ (State.unmask v s).acq = s.acq ∧ (State.unmask v s).bias = s.bias ∧ (State.unmask v s).cal = s.cal ∧
    (State.unmask v s).thermal = s.thermal ∧ (State.unmask v s).free = s.free := by
  unfold State.unmask; (try dsimp only)
  repeat' split
  all_goals (first | done | simp)

/-- What `State.modUnit` keeps. -/
@[simp] theorem State.modUnit_frame (u : UnitId) (f : CtlUnit → CtlUnit) (s : State) :
    (State.modUnit u f s).pending = s.pending ∧ (State.modUnit u f s).ident = s.ident ∧ (State.modUnit u f s).time = s.time ∧
    (State.modUnit u f s).host = s.host ∧ (State.modUnit u f s).desk = s.desk ∧ (State.modUnit u f s).parts = s.parts ∧
    (State.modUnit u f s).archive = s.archive ∧ (State.modUnit u f s).pages = s.pages ∧ (State.modUnit u f s).ledger = s.ledger ∧
    (State.modUnit u f s).trouble = s.trouble ∧ (State.modUnit u f s).sec = s.sec ∧ (State.modUnit u f s).power = s.power ∧
    (State.modUnit u f s).boot = s.boot ∧ (State.modUnit u f s).dap = s.dap ∧ (State.modUnit u f s).seqs = s.seqs ∧ (State.modUnit u f s).synth = s.synth ∧
    (State.modUnit u f s).wave = s.wave ∧ (State.modUnit u f s).readout = s.readout ∧ (State.modUnit u f s).est = s.est ∧
    (State.modUnit u f s).fabric = s.fabric ∧ (State.modUnit u f s).conc = s.conc ∧ (State.modUnit u f s).acq = s.acq ∧ (State.modUnit u f s).bias = s.bias ∧
    (State.modUnit u f s).cal = s.cal ∧ (State.modUnit u f s).thermal = s.thermal ∧ (State.modUnit u f s).free = s.free := by
  unfold State.modUnit; (try dsimp only)
  repeat' split
  all_goals (first | done | simp)

/-- What `State.fence` keeps. -/
@[simp] theorem State.fence_frame (u : UnitId) (s : State) :
    (State.fence u s).pending = s.pending ∧ (State.fence u s).ident = s.ident ∧ (State.fence u s).time = s.time ∧ (State.fence u s).host = s.host ∧
    (State.fence u s).desk = s.desk ∧ (State.fence u s).parts = s.parts ∧ (State.fence u s).archive = s.archive ∧ (State.fence u s).pages = s.pages ∧
    (State.fence u s).ledger = s.ledger ∧ (State.fence u s).trouble = s.trouble ∧ (State.fence u s).sec = s.sec ∧ (State.fence u s).power = s.power ∧
    (State.fence u s).boot = s.boot ∧ (State.fence u s).dap = s.dap ∧ (State.fence u s).seqs = s.seqs ∧ (State.fence u s).synth = s.synth ∧
    (State.fence u s).wave = s.wave ∧ (State.fence u s).readout = s.readout ∧ (State.fence u s).est = s.est ∧ (State.fence u s).fabric = s.fabric ∧
    (State.fence u s).conc = s.conc ∧ (State.fence u s).acq = s.acq ∧ (State.fence u s).bias = s.bias ∧ (State.fence u s).cal = s.cal ∧
    (State.fence u s).thermal = s.thermal ∧ (State.fence u s).free = s.free := by
  unfold State.fence
  all_goals (first | done | simp)

/-- What `State.moveToken` keeps. -/
@[simp] theorem State.moveToken_frame (u : UnitId) (s : State) :
    (State.moveToken u s).pending = s.pending ∧ (State.moveToken u s).ident = s.ident ∧ (State.moveToken u s).time = s.time ∧
    (State.moveToken u s).host = s.host ∧ (State.moveToken u s).desk = s.desk ∧ (State.moveToken u s).parts = s.parts ∧
    (State.moveToken u s).archive = s.archive ∧ (State.moveToken u s).pages = s.pages ∧ (State.moveToken u s).ledger = s.ledger ∧
    (State.moveToken u s).trouble = s.trouble ∧ (State.moveToken u s).sec = s.sec ∧ (State.moveToken u s).power = s.power ∧
    (State.moveToken u s).boot = s.boot ∧ (State.moveToken u s).dap = s.dap ∧ (State.moveToken u s).seqs = s.seqs ∧ (State.moveToken u s).synth = s.synth ∧
    (State.moveToken u s).wave = s.wave ∧ (State.moveToken u s).readout = s.readout ∧ (State.moveToken u s).est = s.est ∧
    (State.moveToken u s).fabric = s.fabric ∧ (State.moveToken u s).conc = s.conc ∧ (State.moveToken u s).acq = s.acq ∧ (State.moveToken u s).bias = s.bias ∧
    (State.moveToken u s).cal = s.cal ∧ (State.moveToken u s).thermal = s.thermal ∧ (State.moveToken u s).free = s.free := by
  unfold State.moveToken; (try dsimp only)
  all_goals (first | done | simp)

/-- What `State.decided` keeps. -/
@[simp] theorem State.decided_frame (detail : BitVec 32) (s : State) :
    (State.decided detail s).pending = s.pending ∧ (State.decided detail s).ident = s.ident ∧ (State.decided detail s).time = s.time ∧
    (State.decided detail s).desk = s.desk ∧ (State.decided detail s).parts = s.parts ∧ (State.decided detail s).archive = s.archive ∧
    (State.decided detail s).sec = s.sec ∧ (State.decided detail s).power = s.power ∧ (State.decided detail s).boot = s.boot ∧
    (State.decided detail s).dap = s.dap ∧ (State.decided detail s).seqs = s.seqs ∧ (State.decided detail s).synth = s.synth ∧
    (State.decided detail s).wave = s.wave ∧ (State.decided detail s).readout = s.readout ∧ (State.decided detail s).est = s.est ∧
    (State.decided detail s).fabric = s.fabric ∧ (State.decided detail s).conc = s.conc ∧ (State.decided detail s).acq = s.acq ∧
    (State.decided detail s).bias = s.bias ∧ (State.decided detail s).cal = s.cal ∧ (State.decided detail s).thermal = s.thermal := by
  unfold State.decided; (try dsimp only)
  repeat' split
  all_goals (first | done | simp)

/-- What `State.refuseClaim` keeps. -/
@[simp] theorem State.refuseClaim_frame (u : UnitId) (s : State) :
    (State.refuseClaim u s).pending = s.pending ∧ (State.refuseClaim u s).ident = s.ident ∧ (State.refuseClaim u s).time = s.time ∧
    (State.refuseClaim u s).host = s.host ∧ (State.refuseClaim u s).desk = s.desk ∧ (State.refuseClaim u s).parts = s.parts ∧
    (State.refuseClaim u s).archive = s.archive ∧ (State.refuseClaim u s).pages = s.pages ∧ (State.refuseClaim u s).ledger = s.ledger ∧
    (State.refuseClaim u s).trouble = s.trouble ∧ (State.refuseClaim u s).sec = s.sec ∧ (State.refuseClaim u s).power = s.power ∧
    (State.refuseClaim u s).boot = s.boot ∧ (State.refuseClaim u s).dap = s.dap ∧ (State.refuseClaim u s).seqs = s.seqs ∧
    (State.refuseClaim u s).synth = s.synth ∧ (State.refuseClaim u s).wave = s.wave ∧ (State.refuseClaim u s).readout = s.readout ∧
    (State.refuseClaim u s).est = s.est ∧ (State.refuseClaim u s).fabric = s.fabric ∧ (State.refuseClaim u s).conc = s.conc ∧
    (State.refuseClaim u s).acq = s.acq ∧ (State.refuseClaim u s).bias = s.bias ∧ (State.refuseClaim u s).cal = s.cal ∧
    (State.refuseClaim u s).thermal = s.thermal ∧ (State.refuseClaim u s).free = s.free := by
  unfold State.refuseClaim; (try dsimp only)
  all_goals (first | done | simp)

/-- What `State.keeper` keeps. -/
@[simp] theorem State.keeper_frame (s : State) :
    (State.keeper s).pending = s.pending ∧ (State.keeper s).ident = s.ident ∧ (State.keeper s).time = s.time ∧ (State.keeper s).desk = s.desk ∧
    (State.keeper s).parts = s.parts ∧ (State.keeper s).archive = s.archive ∧ (State.keeper s).sec = s.sec ∧ (State.keeper s).power = s.power ∧
    (State.keeper s).boot = s.boot ∧ (State.keeper s).dap = s.dap ∧ (State.keeper s).seqs = s.seqs ∧ (State.keeper s).synth = s.synth ∧
    (State.keeper s).wave = s.wave ∧ (State.keeper s).readout = s.readout ∧ (State.keeper s).est = s.est ∧ (State.keeper s).fabric = s.fabric ∧
    (State.keeper s).conc = s.conc ∧ (State.keeper s).acq = s.acq ∧ (State.keeper s).bias = s.bias ∧ (State.keeper s).cal = s.cal ∧
    (State.keeper s).thermal = s.thermal := by
  unfold State.keeper; (try dsimp only)
  repeat' split
  all_goals (first | done | simp)

/-- What `State.startUnit` keeps. -/
@[simp] theorem State.startUnit_frame (u : UnitId) (s : State) :
    (State.startUnit u s).pending = s.pending ∧ (State.startUnit u s).ident = s.ident ∧ (State.startUnit u s).time = s.time ∧
    (State.startUnit u s).desk = s.desk ∧ (State.startUnit u s).parts = s.parts ∧ (State.startUnit u s).archive = s.archive ∧
    (State.startUnit u s).power = s.power ∧ (State.startUnit u s).boot = s.boot ∧ (State.startUnit u s).dap = s.dap ∧ (State.startUnit u s).seqs = s.seqs ∧
    (State.startUnit u s).synth = s.synth ∧ (State.startUnit u s).wave = s.wave ∧ (State.startUnit u s).readout = s.readout ∧
    (State.startUnit u s).est = s.est ∧ (State.startUnit u s).fabric = s.fabric ∧ (State.startUnit u s).conc = s.conc ∧ (State.startUnit u s).acq = s.acq ∧
    (State.startUnit u s).bias = s.bias ∧ (State.startUnit u s).cal = s.cal ∧ (State.startUnit u s).thermal = s.thermal := by
  unfold State.startUnit; (try dsimp only)
  repeat' split
  all_goals (first | done | simp)

/-- What `State.firstToken` keeps. -/
@[simp] theorem State.firstToken_frame (u : UnitId) (s : State) :
    (State.firstToken u s).pending = s.pending ∧ (State.firstToken u s).ident = s.ident ∧ (State.firstToken u s).time = s.time ∧
    (State.firstToken u s).desk = s.desk ∧ (State.firstToken u s).parts = s.parts ∧ (State.firstToken u s).archive = s.archive ∧
    (State.firstToken u s).sec = s.sec ∧ (State.firstToken u s).power = s.power ∧ (State.firstToken u s).boot = s.boot ∧ (State.firstToken u s).dap = s.dap ∧
    (State.firstToken u s).seqs = s.seqs ∧ (State.firstToken u s).synth = s.synth ∧ (State.firstToken u s).wave = s.wave ∧
    (State.firstToken u s).readout = s.readout ∧ (State.firstToken u s).est = s.est ∧ (State.firstToken u s).fabric = s.fabric ∧
    (State.firstToken u s).conc = s.conc ∧ (State.firstToken u s).acq = s.acq ∧ (State.firstToken u s).bias = s.bias ∧ (State.firstToken u s).cal = s.cal ∧
    (State.firstToken u s).thermal = s.thermal := by
  unfold State.firstToken; (try dsimp only)
  all_goals (first | done | simp)

/-- What `State.rejoin` keeps. -/
@[simp] theorem State.rejoin_frame (u : UnitId) (s : State) :
    (State.rejoin u s).pending = s.pending ∧ (State.rejoin u s).ident = s.ident ∧ (State.rejoin u s).time = s.time ∧ (State.rejoin u s).desk = s.desk ∧
    (State.rejoin u s).parts = s.parts ∧ (State.rejoin u s).archive = s.archive ∧ (State.rejoin u s).power = s.power ∧ (State.rejoin u s).boot = s.boot ∧
    (State.rejoin u s).dap = s.dap ∧ (State.rejoin u s).seqs = s.seqs ∧ (State.rejoin u s).synth = s.synth ∧ (State.rejoin u s).wave = s.wave ∧
    (State.rejoin u s).readout = s.readout ∧ (State.rejoin u s).est = s.est ∧ (State.rejoin u s).fabric = s.fabric ∧ (State.rejoin u s).conc = s.conc ∧
    (State.rejoin u s).acq = s.acq ∧ (State.rejoin u s).bias = s.bias ∧ (State.rejoin u s).cal = s.cal ∧ (State.rejoin u s).thermal = s.thermal := by
  unfold State.rejoin; (try dsimp only)
  repeat' split
  all_goals (first | done | simp)

/-- What `State.patchApply` keeps. -/
@[simp] theorem State.patchApply_frame (img : PatchImage) (s : State) :
    (State.patchApply img s).pending = s.pending ∧ (State.patchApply img s).ident = s.ident ∧ (State.patchApply img s).time = s.time ∧
    (State.patchApply img s).host = s.host ∧ (State.patchApply img s).desk = s.desk ∧ (State.patchApply img s).parts = s.parts ∧
    (State.patchApply img s).archive = s.archive ∧ (State.patchApply img s).pages = s.pages ∧ (State.patchApply img s).ledger = s.ledger ∧
    (State.patchApply img s).trouble = s.trouble ∧ (State.patchApply img s).sec = s.sec ∧ (State.patchApply img s).power = s.power ∧
    (State.patchApply img s).boot = s.boot ∧ (State.patchApply img s).dap = s.dap ∧ (State.patchApply img s).seqs = s.seqs ∧
    (State.patchApply img s).synth = s.synth ∧ (State.patchApply img s).wave = s.wave ∧ (State.patchApply img s).readout = s.readout ∧
    (State.patchApply img s).est = s.est ∧ (State.patchApply img s).fabric = s.fabric ∧ (State.patchApply img s).conc = s.conc ∧
    (State.patchApply img s).acq = s.acq ∧ (State.patchApply img s).bias = s.bias ∧ (State.patchApply img s).cal = s.cal ∧
    (State.patchApply img s).thermal = s.thermal ∧ (State.patchApply img s).free = s.free := by
  unfold State.patchApply; (try dsimp only)
  all_goals (first | done | simp)

/-- What `State.patchDue` keeps. -/
@[simp] theorem State.patchDue_frame (i : Nat) (s : State) :
    (State.patchDue i s).pending = s.pending ∧ (State.patchDue i s).ident = s.ident ∧ (State.patchDue i s).time = s.time ∧ (State.patchDue i s).host = s.host ∧
    (State.patchDue i s).desk = s.desk ∧ (State.patchDue i s).parts = s.parts ∧ (State.patchDue i s).archive = s.archive ∧
    (State.patchDue i s).pages = s.pages ∧ (State.patchDue i s).ledger = s.ledger ∧ (State.patchDue i s).trouble = s.trouble ∧
    (State.patchDue i s).sec = s.sec ∧ (State.patchDue i s).power = s.power ∧ (State.patchDue i s).boot = s.boot ∧ (State.patchDue i s).dap = s.dap ∧
    (State.patchDue i s).seqs = s.seqs ∧ (State.patchDue i s).synth = s.synth ∧ (State.patchDue i s).wave = s.wave ∧ (State.patchDue i s).readout = s.readout ∧
    (State.patchDue i s).est = s.est ∧ (State.patchDue i s).fabric = s.fabric ∧ (State.patchDue i s).conc = s.conc ∧ (State.patchDue i s).acq = s.acq ∧
    (State.patchDue i s).bias = s.bias ∧ (State.patchDue i s).cal = s.cal ∧ (State.patchDue i s).thermal = s.thermal ∧ (State.patchDue i s).free = s.free := by
  unfold State.patchDue
  repeat' split
  all_goals (first | done | simp)

/-- What `State.repair` keeps. -/
@[simp] theorem State.repair_frame (r : Repair) (s : State) :
    (State.repair r s).pending = s.pending ∧ (State.repair r s).ident = s.ident ∧ (State.repair r s).time = s.time ∧ (State.repair r s).host = s.host ∧
    (State.repair r s).units = s.units ∧ (State.repair r s).desk = s.desk ∧ (State.repair r s).parts = s.parts ∧ (State.repair r s).archive = s.archive ∧
    (State.repair r s).pages = s.pages ∧ (State.repair r s).ledger = s.ledger ∧ (State.repair r s).trouble = s.trouble ∧ (State.repair r s).sec = s.sec ∧
    (State.repair r s).power = s.power ∧ (State.repair r s).boot = s.boot ∧ (State.repair r s).dap = s.dap ∧ (State.repair r s).synth = s.synth ∧
    (State.repair r s).readout = s.readout ∧ (State.repair r s).est = s.est ∧ (State.repair r s).fabric = s.fabric ∧ (State.repair r s).acq = s.acq ∧
    (State.repair r s).bias = s.bias ∧ (State.repair r s).cal = s.cal ∧ (State.repair r s).thermal = s.thermal ∧ (State.repair r s).free = s.free := by
  unfold State.repair; (try dsimp only)
  repeat' split
  all_goals (first | done | simp)

/-- What `State.modGroup` keeps. -/
@[simp] theorem State.modGroup_frame (u : UnitId) (d : Fin 4) (f : LaneGroup → LaneGroup) (s : State) :
    (State.modGroup u d f s).pending = s.pending ∧ (State.modGroup u d f s).ident = s.ident ∧ (State.modGroup u d f s).time = s.time ∧
    (State.modGroup u d f s).host = s.host ∧ (State.modGroup u d f s).desk = s.desk ∧ (State.modGroup u d f s).parts = s.parts ∧
    (State.modGroup u d f s).archive = s.archive ∧ (State.modGroup u d f s).pages = s.pages ∧ (State.modGroup u d f s).ledger = s.ledger ∧
    (State.modGroup u d f s).trouble = s.trouble ∧ (State.modGroup u d f s).sec = s.sec ∧ (State.modGroup u d f s).power = s.power ∧
    (State.modGroup u d f s).boot = s.boot ∧ (State.modGroup u d f s).dap = s.dap ∧ (State.modGroup u d f s).seqs = s.seqs ∧
    (State.modGroup u d f s).synth = s.synth ∧ (State.modGroup u d f s).wave = s.wave ∧ (State.modGroup u d f s).readout = s.readout ∧
    (State.modGroup u d f s).est = s.est ∧ (State.modGroup u d f s).fabric = s.fabric ∧ (State.modGroup u d f s).conc = s.conc ∧
    (State.modGroup u d f s).acq = s.acq ∧ (State.modGroup u d f s).bias = s.bias ∧ (State.modGroup u d f s).cal = s.cal ∧
    (State.modGroup u d f s).thermal = s.thermal ∧ (State.modGroup u d f s).free = s.free := by
  unfold State.modGroup
  all_goals (first | done | simp)

/-- What `State.groupUp` keeps. -/
@[simp] theorem State.groupUp_frame (u : UnitId) (die : Fin 4) (s : State) :
    (State.groupUp u die s).pending = s.pending ∧ (State.groupUp u die s).ident = s.ident ∧ (State.groupUp u die s).time = s.time ∧
    (State.groupUp u die s).host = s.host ∧ (State.groupUp u die s).desk = s.desk ∧ (State.groupUp u die s).parts = s.parts ∧
    (State.groupUp u die s).archive = s.archive ∧ (State.groupUp u die s).pages = s.pages ∧ (State.groupUp u die s).ledger = s.ledger ∧
    (State.groupUp u die s).trouble = s.trouble ∧ (State.groupUp u die s).sec = s.sec ∧ (State.groupUp u die s).power = s.power ∧
    (State.groupUp u die s).boot = s.boot ∧ (State.groupUp u die s).dap = s.dap ∧ (State.groupUp u die s).seqs = s.seqs ∧
    (State.groupUp u die s).synth = s.synth ∧ (State.groupUp u die s).wave = s.wave ∧ (State.groupUp u die s).readout = s.readout ∧
    (State.groupUp u die s).est = s.est ∧ (State.groupUp u die s).fabric = s.fabric ∧ (State.groupUp u die s).conc = s.conc ∧
    (State.groupUp u die s).acq = s.acq ∧ (State.groupUp u die s).bias = s.bias ∧ (State.groupUp u die s).cal = s.cal ∧
    (State.groupUp u die s).thermal = s.thermal ∧ (State.groupUp u die s).free = s.free := by
  unfold State.groupUp
  all_goals (first | done | simp)

/-- What `State.deferredRefusal` keeps. -/
@[simp] theorem State.deferredRefusal_frame (h : Held) (status : Nat) (s : State) :
    (State.deferredRefusal h status s).pending = s.pending ∧ (State.deferredRefusal h status s).ident = s.ident ∧
    (State.deferredRefusal h status s).time = s.time ∧ (State.deferredRefusal h status s).units = s.units ∧ (State.deferredRefusal h status s).desk = s.desk ∧
    (State.deferredRefusal h status s).parts = s.parts ∧ (State.deferredRefusal h status s).archive = s.archive ∧
    (State.deferredRefusal h status s).sec = s.sec ∧ (State.deferredRefusal h status s).power = s.power ∧ (State.deferredRefusal h status s).boot = s.boot ∧
    (State.deferredRefusal h status s).dap = s.dap ∧ (State.deferredRefusal h status s).seqs = s.seqs ∧ (State.deferredRefusal h status s).synth = s.synth ∧
    (State.deferredRefusal h status s).wave = s.wave ∧ (State.deferredRefusal h status s).readout = s.readout ∧
    (State.deferredRefusal h status s).est = s.est ∧ (State.deferredRefusal h status s).fabric = s.fabric ∧ (State.deferredRefusal h status s).conc = s.conc ∧
    (State.deferredRefusal h status s).acq = s.acq ∧ (State.deferredRefusal h status s).bias = s.bias ∧ (State.deferredRefusal h status s).cal = s.cal ∧
    (State.deferredRefusal h status s).thermal = s.thermal := by
  unfold State.deferredRefusal; (try dsimp only)
  all_goals (first | done | simp)

/-- What `State.issueAt` keeps. -/
@[simp] theorem State.issueAt_frame (q i : Nat) (s : State) :
    (State.issueAt q i s).pending = s.pending ∧ (State.issueAt q i s).ident = s.ident ∧ (State.issueAt q i s).host = s.host ∧
    (State.issueAt q i s).units = s.units ∧ (State.issueAt q i s).desk = s.desk ∧ (State.issueAt q i s).parts = s.parts ∧
    (State.issueAt q i s).archive = s.archive ∧ (State.issueAt q i s).pages = s.pages ∧ (State.issueAt q i s).ledger = s.ledger ∧
    (State.issueAt q i s).trouble = s.trouble ∧ (State.issueAt q i s).sec = s.sec ∧ (State.issueAt q i s).power = s.power ∧
    (State.issueAt q i s).boot = s.boot ∧ (State.issueAt q i s).dap = s.dap ∧ (State.issueAt q i s).synth = s.synth ∧ (State.issueAt q i s).wave = s.wave ∧
    (State.issueAt q i s).readout = s.readout ∧ (State.issueAt q i s).est = s.est ∧ (State.issueAt q i s).fabric = s.fabric ∧
    (State.issueAt q i s).conc = s.conc ∧ (State.issueAt q i s).acq = s.acq ∧ (State.issueAt q i s).bias = s.bias ∧ (State.issueAt q i s).cal = s.cal ∧
    (State.issueAt q i s).thermal = s.thermal ∧ (State.issueAt q i s).free = s.free := by
  unfold State.issueAt; (try dsimp only)
  all_goals (first | done | simp)

/-- What `State.cueIssue` keeps. -/
@[simp] theorem State.cueIssue_frame (q lead : Nat) (t : Timed) (after : Option Nat) (act : CueAct) (s : State) :
    (State.cueIssue q lead t after act s).pending = s.pending ∧ (State.cueIssue q lead t after act s).ident = s.ident ∧
    (State.cueIssue q lead t after act s).units = s.units ∧ (State.cueIssue q lead t after act s).desk = s.desk ∧
    (State.cueIssue q lead t after act s).parts = s.parts ∧ (State.cueIssue q lead t after act s).archive = s.archive ∧
    (State.cueIssue q lead t after act s).sec = s.sec ∧ (State.cueIssue q lead t after act s).power = s.power ∧
    (State.cueIssue q lead t after act s).boot = s.boot ∧ (State.cueIssue q lead t after act s).dap = s.dap ∧
    (State.cueIssue q lead t after act s).synth = s.synth ∧ (State.cueIssue q lead t after act s).wave = s.wave ∧
    (State.cueIssue q lead t after act s).readout = s.readout ∧ (State.cueIssue q lead t after act s).est = s.est ∧
    (State.cueIssue q lead t after act s).fabric = s.fabric ∧ (State.cueIssue q lead t after act s).conc = s.conc ∧
    (State.cueIssue q lead t after act s).acq = s.acq ∧ (State.cueIssue q lead t after act s).bias = s.bias ∧
    (State.cueIssue q lead t after act s).cal = s.cal ∧ (State.cueIssue q lead t after act s).thermal = s.thermal := by
  unfold State.cueIssue; (try dsimp only)
  repeat' split
  all_goals (first | done | simp)

/-- What `State.doPlay` keeps. -/
@[simp] theorem State.doPlay_frame (q : Nat) (t : Timed) (rep : Bool) (folio : Nat) (s : State) :
    (State.doPlay q t rep folio s).pending = s.pending ∧ (State.doPlay q t rep folio s).ident = s.ident ∧ (State.doPlay q t rep folio s).units = s.units ∧
    (State.doPlay q t rep folio s).desk = s.desk ∧ (State.doPlay q t rep folio s).parts = s.parts ∧ (State.doPlay q t rep folio s).archive = s.archive ∧
    (State.doPlay q t rep folio s).sec = s.sec ∧ (State.doPlay q t rep folio s).power = s.power ∧ (State.doPlay q t rep folio s).boot = s.boot ∧
    (State.doPlay q t rep folio s).dap = s.dap ∧ (State.doPlay q t rep folio s).synth = s.synth ∧ (State.doPlay q t rep folio s).wave = s.wave ∧
    (State.doPlay q t rep folio s).readout = s.readout ∧ (State.doPlay q t rep folio s).est = s.est ∧ (State.doPlay q t rep folio s).fabric = s.fabric ∧
    (State.doPlay q t rep folio s).conc = s.conc ∧ (State.doPlay q t rep folio s).acq = s.acq ∧ (State.doPlay q t rep folio s).bias = s.bias ∧
    (State.doPlay q t rep folio s).cal = s.cal ∧ (State.doPlay q t rep folio s).thermal = s.thermal := by
  unfold State.doPlay; (try dsimp only)
  repeat' split
  all_goals (first | done | simp)

/-- What `State.doSetf` keeps. -/
@[simp] theorem State.doSetf_frame (q : Nat) (t : Timed) (gs : Nat) (s : State) :
    (State.doSetf q t gs s).pending = s.pending ∧ (State.doSetf q t gs s).ident = s.ident ∧ (State.doSetf q t gs s).units = s.units ∧
    (State.doSetf q t gs s).desk = s.desk ∧ (State.doSetf q t gs s).parts = s.parts ∧ (State.doSetf q t gs s).archive = s.archive ∧
    (State.doSetf q t gs s).sec = s.sec ∧ (State.doSetf q t gs s).power = s.power ∧ (State.doSetf q t gs s).boot = s.boot ∧
    (State.doSetf q t gs s).dap = s.dap ∧ (State.doSetf q t gs s).synth = s.synth ∧ (State.doSetf q t gs s).wave = s.wave ∧
    (State.doSetf q t gs s).readout = s.readout ∧ (State.doSetf q t gs s).est = s.est ∧ (State.doSetf q t gs s).fabric = s.fabric ∧
    (State.doSetf q t gs s).conc = s.conc ∧ (State.doSetf q t gs s).acq = s.acq ∧ (State.doSetf q t gs s).bias = s.bias ∧ (State.doSetf q t gs s).cal = s.cal ∧
    (State.doSetf q t gs s).thermal = s.thermal := by
  unfold State.doSetf
  all_goals (first | done | simp)

/-- What `State.doSetp` keeps. -/
@[simp] theorem State.doSetp_frame (q : Nat) (t : Timed) (gs : Nat) (s : State) :
    (State.doSetp q t gs s).pending = s.pending ∧ (State.doSetp q t gs s).ident = s.ident ∧ (State.doSetp q t gs s).units = s.units ∧
    (State.doSetp q t gs s).desk = s.desk ∧ (State.doSetp q t gs s).parts = s.parts ∧ (State.doSetp q t gs s).archive = s.archive ∧
    (State.doSetp q t gs s).sec = s.sec ∧ (State.doSetp q t gs s).power = s.power ∧ (State.doSetp q t gs s).boot = s.boot ∧
    (State.doSetp q t gs s).dap = s.dap ∧ (State.doSetp q t gs s).synth = s.synth ∧ (State.doSetp q t gs s).wave = s.wave ∧
    (State.doSetp q t gs s).readout = s.readout ∧ (State.doSetp q t gs s).est = s.est ∧ (State.doSetp q t gs s).fabric = s.fabric ∧
    (State.doSetp q t gs s).conc = s.conc ∧ (State.doSetp q t gs s).acq = s.acq ∧ (State.doSetp q t gs s).bias = s.bias ∧ (State.doSetp q t gs s).cal = s.cal ∧
    (State.doSetp q t gs s).thermal = s.thermal := by
  unfold State.doSetp
  all_goals (first | done | simp)

/-- What `State.doFrame` keeps. -/
@[simp] theorem State.doFrame_frame (q : Nat) (t : Timed) (src : Bool) (imm gs : Nat) (s : State) :
    (State.doFrame q t src imm gs s).pending = s.pending ∧ (State.doFrame q t src imm gs s).ident = s.ident ∧
    (State.doFrame q t src imm gs s).units = s.units ∧ (State.doFrame q t src imm gs s).desk = s.desk ∧ (State.doFrame q t src imm gs s).parts = s.parts ∧
    (State.doFrame q t src imm gs s).archive = s.archive ∧ (State.doFrame q t src imm gs s).sec = s.sec ∧ (State.doFrame q t src imm gs s).power = s.power ∧
    (State.doFrame q t src imm gs s).boot = s.boot ∧ (State.doFrame q t src imm gs s).dap = s.dap ∧ (State.doFrame q t src imm gs s).synth = s.synth ∧
    (State.doFrame q t src imm gs s).wave = s.wave ∧ (State.doFrame q t src imm gs s).readout = s.readout ∧ (State.doFrame q t src imm gs s).est = s.est ∧
    (State.doFrame q t src imm gs s).fabric = s.fabric ∧ (State.doFrame q t src imm gs s).conc = s.conc ∧ (State.doFrame q t src imm gs s).acq = s.acq ∧
    (State.doFrame q t src imm gs s).bias = s.bias ∧ (State.doFrame q t src imm gs s).cal = s.cal ∧ (State.doFrame q t src imm gs s).thermal = s.thermal := by
  unfold State.doFrame
  repeat' split
  all_goals (first | done | simp)

/-- What `State.doMeasure` keeps. -/
@[simp] theorem State.doMeasure_frame (q : Nat) (t : Timed) (len : Nat) (capt : Bool) (s : State) :
    (State.doMeasure q t len capt s).pending = s.pending ∧ (State.doMeasure q t len capt s).ident = s.ident ∧
    (State.doMeasure q t len capt s).units = s.units ∧ (State.doMeasure q t len capt s).desk = s.desk ∧ (State.doMeasure q t len capt s).parts = s.parts ∧
    (State.doMeasure q t len capt s).archive = s.archive ∧ (State.doMeasure q t len capt s).sec = s.sec ∧ (State.doMeasure q t len capt s).power = s.power ∧
    (State.doMeasure q t len capt s).boot = s.boot ∧ (State.doMeasure q t len capt s).dap = s.dap ∧ (State.doMeasure q t len capt s).synth = s.synth ∧
    (State.doMeasure q t len capt s).wave = s.wave ∧ (State.doMeasure q t len capt s).readout = s.readout ∧ (State.doMeasure q t len capt s).est = s.est ∧
    (State.doMeasure q t len capt s).fabric = s.fabric ∧ (State.doMeasure q t len capt s).conc = s.conc ∧ (State.doMeasure q t len capt s).acq = s.acq ∧
    (State.doMeasure q t len capt s).bias = s.bias ∧ (State.doMeasure q t len capt s).cal = s.cal ∧ (State.doMeasure q t len capt s).thermal = s.thermal := by
  unfold State.doMeasure
  all_goals (first | done | simp)

/-- What `State.doMark` keeps. -/
@[simp] theorem State.doMark_frame (q : Nat) (t : Timed) (tgt width : Nat) (s : State) :
    (State.doMark q t tgt width s).pending = s.pending ∧ (State.doMark q t tgt width s).ident = s.ident ∧ (State.doMark q t tgt width s).units = s.units ∧
    (State.doMark q t tgt width s).desk = s.desk ∧ (State.doMark q t tgt width s).parts = s.parts ∧ (State.doMark q t tgt width s).archive = s.archive ∧
    (State.doMark q t tgt width s).sec = s.sec ∧ (State.doMark q t tgt width s).power = s.power ∧ (State.doMark q t tgt width s).boot = s.boot ∧
    (State.doMark q t tgt width s).dap = s.dap ∧ (State.doMark q t tgt width s).synth = s.synth ∧ (State.doMark q t tgt width s).wave = s.wave ∧
    (State.doMark q t tgt width s).readout = s.readout ∧ (State.doMark q t tgt width s).est = s.est ∧ (State.doMark q t tgt width s).fabric = s.fabric ∧
    (State.doMark q t tgt width s).conc = s.conc ∧ (State.doMark q t tgt width s).acq = s.acq ∧ (State.doMark q t tgt width s).bias = s.bias ∧
    (State.doMark q t tgt width s).cal = s.cal ∧ (State.doMark q t tgt width s).thermal = s.thermal := by
  unfold State.doMark
  all_goals (first | done | simp)

/-- What `State.doNop` keeps. -/
@[simp] theorem State.doNop_frame (q : Nat) (s : State) :
    (State.doNop q s).pending = s.pending ∧ (State.doNop q s).ident = s.ident ∧ (State.doNop q s).units = s.units ∧ (State.doNop q s).desk = s.desk ∧
    (State.doNop q s).parts = s.parts ∧ (State.doNop q s).archive = s.archive ∧ (State.doNop q s).sec = s.sec ∧ (State.doNop q s).power = s.power ∧
    (State.doNop q s).boot = s.boot ∧ (State.doNop q s).dap = s.dap ∧ (State.doNop q s).synth = s.synth ∧ (State.doNop q s).wave = s.wave ∧
    (State.doNop q s).readout = s.readout ∧ (State.doNop q s).est = s.est ∧ (State.doNop q s).fabric = s.fabric ∧ (State.doNop q s).conc = s.conc ∧
    (State.doNop q s).acq = s.acq ∧ (State.doNop q s).bias = s.bias ∧ (State.doNop q s).cal = s.cal ∧ (State.doNop q s).thermal = s.thermal := by
  unfold State.doNop; (try dsimp only)
  all_goals (first | done | simp)

/-- What `State.doWrite` keeps. -/
@[simp] theorem State.doWrite_frame (q gd : Nat) (v : State → Word) (s : State) :
    (State.doWrite q gd v s).pending = s.pending ∧ (State.doWrite q gd v s).ident = s.ident ∧ (State.doWrite q gd v s).units = s.units ∧
    (State.doWrite q gd v s).desk = s.desk ∧ (State.doWrite q gd v s).parts = s.parts ∧ (State.doWrite q gd v s).archive = s.archive ∧
    (State.doWrite q gd v s).sec = s.sec ∧ (State.doWrite q gd v s).power = s.power ∧ (State.doWrite q gd v s).boot = s.boot ∧
    (State.doWrite q gd v s).dap = s.dap ∧ (State.doWrite q gd v s).synth = s.synth ∧ (State.doWrite q gd v s).wave = s.wave ∧
    (State.doWrite q gd v s).readout = s.readout ∧ (State.doWrite q gd v s).est = s.est ∧ (State.doWrite q gd v s).fabric = s.fabric ∧
    (State.doWrite q gd v s).conc = s.conc ∧ (State.doWrite q gd v s).acq = s.acq ∧ (State.doWrite q gd v s).bias = s.bias ∧
    (State.doWrite q gd v s).cal = s.cal ∧ (State.doWrite q gd v s).thermal = s.thermal := by
  unfold State.doWrite; (try dsimp only)
  all_goals (first | done | simp)

/-- What `State.doAlu` keeps. -/
@[simp] theorem State.doAlu_frame (q gd ga gb fn : Nat) (s : State) :
    (State.doAlu q gd ga gb fn s).pending = s.pending ∧ (State.doAlu q gd ga gb fn s).ident = s.ident ∧ (State.doAlu q gd ga gb fn s).units = s.units ∧
    (State.doAlu q gd ga gb fn s).desk = s.desk ∧ (State.doAlu q gd ga gb fn s).parts = s.parts ∧ (State.doAlu q gd ga gb fn s).archive = s.archive ∧
    (State.doAlu q gd ga gb fn s).sec = s.sec ∧ (State.doAlu q gd ga gb fn s).power = s.power ∧ (State.doAlu q gd ga gb fn s).boot = s.boot ∧
    (State.doAlu q gd ga gb fn s).dap = s.dap ∧ (State.doAlu q gd ga gb fn s).synth = s.synth ∧ (State.doAlu q gd ga gb fn s).wave = s.wave ∧
    (State.doAlu q gd ga gb fn s).readout = s.readout ∧ (State.doAlu q gd ga gb fn s).est = s.est ∧ (State.doAlu q gd ga gb fn s).fabric = s.fabric ∧
    (State.doAlu q gd ga gb fn s).conc = s.conc ∧ (State.doAlu q gd ga gb fn s).acq = s.acq ∧ (State.doAlu q gd ga gb fn s).bias = s.bias ∧
    (State.doAlu q gd ga gb fn s).cal = s.cal ∧ (State.doAlu q gd ga gb fn s).thermal = s.thermal := by
  unfold State.doAlu
  all_goals (first | done | simp)

/-- What `State.doAlui` keeps. -/
@[simp] theorem State.doAlui_frame (q gd ga fn : Nat) (imm : Word) (s : State) :
    (State.doAlui q gd ga fn imm s).pending = s.pending ∧ (State.doAlui q gd ga fn imm s).ident = s.ident ∧ (State.doAlui q gd ga fn imm s).units = s.units ∧
    (State.doAlui q gd ga fn imm s).desk = s.desk ∧ (State.doAlui q gd ga fn imm s).parts = s.parts ∧ (State.doAlui q gd ga fn imm s).archive = s.archive ∧
    (State.doAlui q gd ga fn imm s).sec = s.sec ∧ (State.doAlui q gd ga fn imm s).power = s.power ∧ (State.doAlui q gd ga fn imm s).boot = s.boot ∧
    (State.doAlui q gd ga fn imm s).dap = s.dap ∧ (State.doAlui q gd ga fn imm s).synth = s.synth ∧ (State.doAlui q gd ga fn imm s).wave = s.wave ∧
    (State.doAlui q gd ga fn imm s).readout = s.readout ∧ (State.doAlui q gd ga fn imm s).est = s.est ∧ (State.doAlui q gd ga fn imm s).fabric = s.fabric ∧
    (State.doAlui q gd ga fn imm s).conc = s.conc ∧ (State.doAlui q gd ga fn imm s).acq = s.acq ∧ (State.doAlui q gd ga fn imm s).bias = s.bias ∧
    (State.doAlui q gd ga fn imm s).cal = s.cal ∧ (State.doAlui q gd ga fn imm s).thermal = s.thermal := by
  unfold State.doAlui
  all_goals (first | done | simp)

/-- What `State.doLi` keeps. -/
@[simp] theorem State.doLi_frame (q gd : Nat) (hi : Bool) (imm : BitVec 32) (s : State) :
    (State.doLi q gd hi imm s).pending = s.pending ∧ (State.doLi q gd hi imm s).ident = s.ident ∧ (State.doLi q gd hi imm s).units = s.units ∧
    (State.doLi q gd hi imm s).desk = s.desk ∧ (State.doLi q gd hi imm s).parts = s.parts ∧ (State.doLi q gd hi imm s).archive = s.archive ∧
    (State.doLi q gd hi imm s).sec = s.sec ∧ (State.doLi q gd hi imm s).power = s.power ∧ (State.doLi q gd hi imm s).boot = s.boot ∧
    (State.doLi q gd hi imm s).dap = s.dap ∧ (State.doLi q gd hi imm s).synth = s.synth ∧ (State.doLi q gd hi imm s).wave = s.wave ∧
    (State.doLi q gd hi imm s).readout = s.readout ∧ (State.doLi q gd hi imm s).est = s.est ∧ (State.doLi q gd hi imm s).fabric = s.fabric ∧
    (State.doLi q gd hi imm s).conc = s.conc ∧ (State.doLi q gd hi imm s).acq = s.acq ∧ (State.doLi q gd hi imm s).bias = s.bias ∧
    (State.doLi q gd hi imm s).cal = s.cal ∧ (State.doLi q gd hi imm s).thermal = s.thermal := by
  unfold State.doLi
  repeat' split
  all_goals (first | done | simp)

/-- What `State.doMovs` keeps. -/
@[simp] theorem State.doMovs_frame (q gd sr : Nat) (s : State) :
    (State.doMovs q gd sr s).pending = s.pending ∧ (State.doMovs q gd sr s).ident = s.ident ∧ (State.doMovs q gd sr s).units = s.units ∧
    (State.doMovs q gd sr s).desk = s.desk ∧ (State.doMovs q gd sr s).parts = s.parts ∧ (State.doMovs q gd sr s).archive = s.archive ∧
    (State.doMovs q gd sr s).sec = s.sec ∧ (State.doMovs q gd sr s).power = s.power ∧ (State.doMovs q gd sr s).boot = s.boot ∧
    (State.doMovs q gd sr s).dap = s.dap ∧ (State.doMovs q gd sr s).synth = s.synth ∧ (State.doMovs q gd sr s).wave = s.wave ∧
    (State.doMovs q gd sr s).readout = s.readout ∧ (State.doMovs q gd sr s).est = s.est ∧ (State.doMovs q gd sr s).fabric = s.fabric ∧
    (State.doMovs q gd sr s).conc = s.conc ∧ (State.doMovs q gd sr s).acq = s.acq ∧ (State.doMovs q gd sr s).bias = s.bias ∧
    (State.doMovs q gd sr s).cal = s.cal ∧ (State.doMovs q gd sr s).thermal = s.thermal := by
  unfold State.doMovs
  all_goals (first | done | simp)

/-- What `State.doBr` keeps. -/
@[simp] theorem State.doBr_frame (q cond ga gb tgt : Nat) (s : State) :
    (State.doBr q cond ga gb tgt s).pending = s.pending ∧ (State.doBr q cond ga gb tgt s).ident = s.ident ∧ (State.doBr q cond ga gb tgt s).units = s.units ∧
    (State.doBr q cond ga gb tgt s).desk = s.desk ∧ (State.doBr q cond ga gb tgt s).parts = s.parts ∧ (State.doBr q cond ga gb tgt s).archive = s.archive ∧
    (State.doBr q cond ga gb tgt s).sec = s.sec ∧ (State.doBr q cond ga gb tgt s).power = s.power ∧ (State.doBr q cond ga gb tgt s).boot = s.boot ∧
    (State.doBr q cond ga gb tgt s).dap = s.dap ∧ (State.doBr q cond ga gb tgt s).synth = s.synth ∧ (State.doBr q cond ga gb tgt s).wave = s.wave ∧
    (State.doBr q cond ga gb tgt s).readout = s.readout ∧ (State.doBr q cond ga gb tgt s).est = s.est ∧ (State.doBr q cond ga gb tgt s).fabric = s.fabric ∧
    (State.doBr q cond ga gb tgt s).conc = s.conc ∧ (State.doBr q cond ga gb tgt s).acq = s.acq ∧ (State.doBr q cond ga gb tgt s).bias = s.bias ∧
    (State.doBr q cond ga gb tgt s).cal = s.cal ∧ (State.doBr q cond ga gb tgt s).thermal = s.thermal := by
  unfold State.doBr; (try dsimp only)
  repeat' split
  all_goals (first | done | simp)

/-- What `State.doLoop` keeps. -/
@[simp] theorem State.doLoop_frame (q : Nat) (creg : Bool) (gc count stop : Nat) (s : State) :
    (State.doLoop q creg gc count stop s).pending = s.pending ∧ (State.doLoop q creg gc count stop s).ident = s.ident ∧
    (State.doLoop q creg gc count stop s).units = s.units ∧ (State.doLoop q creg gc count stop s).desk = s.desk ∧
    (State.doLoop q creg gc count stop s).parts = s.parts ∧ (State.doLoop q creg gc count stop s).archive = s.archive ∧
    (State.doLoop q creg gc count stop s).sec = s.sec ∧ (State.doLoop q creg gc count stop s).power = s.power ∧
    (State.doLoop q creg gc count stop s).boot = s.boot ∧ (State.doLoop q creg gc count stop s).dap = s.dap ∧
    (State.doLoop q creg gc count stop s).synth = s.synth ∧ (State.doLoop q creg gc count stop s).wave = s.wave ∧
    (State.doLoop q creg gc count stop s).readout = s.readout ∧ (State.doLoop q creg gc count stop s).est = s.est ∧
    (State.doLoop q creg gc count stop s).fabric = s.fabric ∧ (State.doLoop q creg gc count stop s).conc = s.conc ∧
    (State.doLoop q creg gc count stop s).acq = s.acq ∧ (State.doLoop q creg gc count stop s).bias = s.bias ∧
    (State.doLoop q creg gc count stop s).cal = s.cal ∧ (State.doLoop q creg gc count stop s).thermal = s.thermal := by
  unfold State.doLoop; (try dsimp only)
  repeat' split
  all_goals (first | done | simp)

/-- What `State.doCall` keeps. -/
@[simp] theorem State.doCall_frame (q tgt : Nat) (s : State) :
    (State.doCall q tgt s).pending = s.pending ∧ (State.doCall q tgt s).ident = s.ident ∧ (State.doCall q tgt s).units = s.units ∧
    (State.doCall q tgt s).desk = s.desk ∧ (State.doCall q tgt s).parts = s.parts ∧ (State.doCall q tgt s).archive = s.archive ∧
    (State.doCall q tgt s).sec = s.sec ∧ (State.doCall q tgt s).power = s.power ∧ (State.doCall q tgt s).boot = s.boot ∧ (State.doCall q tgt s).dap = s.dap ∧
    (State.doCall q tgt s).synth = s.synth ∧ (State.doCall q tgt s).wave = s.wave ∧ (State.doCall q tgt s).readout = s.readout ∧
    (State.doCall q tgt s).est = s.est ∧ (State.doCall q tgt s).fabric = s.fabric ∧ (State.doCall q tgt s).conc = s.conc ∧ (State.doCall q tgt s).acq = s.acq ∧
    (State.doCall q tgt s).bias = s.bias ∧ (State.doCall q tgt s).cal = s.cal ∧ (State.doCall q tgt s).thermal = s.thermal := by
  unfold State.doCall; (try dsimp only)
  repeat' split
  all_goals (first | done | simp)

/-- What `State.doRet` keeps. -/
@[simp] theorem State.doRet_frame (q : Nat) (s : State) :
    (State.doRet q s).pending = s.pending ∧ (State.doRet q s).ident = s.ident ∧ (State.doRet q s).units = s.units ∧ (State.doRet q s).desk = s.desk ∧
    (State.doRet q s).parts = s.parts ∧ (State.doRet q s).archive = s.archive ∧ (State.doRet q s).sec = s.sec ∧ (State.doRet q s).power = s.power ∧
    (State.doRet q s).boot = s.boot ∧ (State.doRet q s).dap = s.dap ∧ (State.doRet q s).synth = s.synth ∧ (State.doRet q s).wave = s.wave ∧
    (State.doRet q s).readout = s.readout ∧ (State.doRet q s).est = s.est ∧ (State.doRet q s).fabric = s.fabric ∧ (State.doRet q s).conc = s.conc ∧
    (State.doRet q s).acq = s.acq ∧ (State.doRet q s).bias = s.bias ∧ (State.doRet q s).cal = s.cal ∧ (State.doRet q s).thermal = s.thermal := by
  unfold State.doRet; (try dsimp only)
  repeat' split
  all_goals (first | done | simp)

/-- What `State.doEnd` keeps. -/
@[simp] theorem State.doEnd_frame (q : Nat) (last : Bool) (s : State) :
    (State.doEnd q last s).pending = s.pending ∧ (State.doEnd q last s).ident = s.ident ∧ (State.doEnd q last s).host = s.host ∧
    (State.doEnd q last s).units = s.units ∧ (State.doEnd q last s).desk = s.desk ∧ (State.doEnd q last s).parts = s.parts ∧
    (State.doEnd q last s).archive = s.archive ∧ (State.doEnd q last s).pages = s.pages ∧ (State.doEnd q last s).ledger = s.ledger ∧
    (State.doEnd q last s).trouble = s.trouble ∧ (State.doEnd q last s).sec = s.sec ∧ (State.doEnd q last s).power = s.power ∧
    (State.doEnd q last s).boot = s.boot ∧ (State.doEnd q last s).dap = s.dap ∧ (State.doEnd q last s).wave = s.wave ∧
    (State.doEnd q last s).readout = s.readout ∧ (State.doEnd q last s).est = s.est ∧ (State.doEnd q last s).fabric = s.fabric ∧
    (State.doEnd q last s).conc = s.conc ∧ (State.doEnd q last s).acq = s.acq ∧ (State.doEnd q last s).bias = s.bias ∧ (State.doEnd q last s).cal = s.cal ∧
    (State.doEnd q last s).thermal = s.thermal ∧ (State.doEnd q last s).free = s.free := by
  unfold State.doEnd; (try dsimp only)
  all_goals (first | done | simp)

/-- What `State.doWait` keeps. -/
@[simp] theorem State.doWait_frame (q gm : Nat) (s : State) :
    (State.doWait q gm s).pending = s.pending ∧ (State.doWait q gm s).ident = s.ident ∧ (State.doWait q gm s).units = s.units ∧
    (State.doWait q gm s).desk = s.desk ∧ (State.doWait q gm s).parts = s.parts ∧ (State.doWait q gm s).archive = s.archive ∧
    (State.doWait q gm s).sec = s.sec ∧ (State.doWait q gm s).power = s.power ∧ (State.doWait q gm s).boot = s.boot ∧ (State.doWait q gm s).dap = s.dap ∧
    (State.doWait q gm s).synth = s.synth ∧ (State.doWait q gm s).wave = s.wave ∧ (State.doWait q gm s).readout = s.readout ∧
    (State.doWait q gm s).est = s.est ∧ (State.doWait q gm s).fabric = s.fabric ∧ (State.doWait q gm s).acq = s.acq ∧ (State.doWait q gm s).bias = s.bias ∧
    (State.doWait q gm s).cal = s.cal ∧ (State.doWait q gm s).thermal = s.thermal := by
  unfold State.doWait; (try dsimp only)
  repeat' split
  all_goals (first | done | simp)

/-- What `State.doBrv` keeps. -/
@[simp] theorem State.doBrv_frame (q mode tgt : Nat) (s : State) :
    (State.doBrv q mode tgt s).pending = s.pending ∧ (State.doBrv q mode tgt s).ident = s.ident ∧ (State.doBrv q mode tgt s).units = s.units ∧
    (State.doBrv q mode tgt s).desk = s.desk ∧ (State.doBrv q mode tgt s).parts = s.parts ∧ (State.doBrv q mode tgt s).archive = s.archive ∧
    (State.doBrv q mode tgt s).sec = s.sec ∧ (State.doBrv q mode tgt s).power = s.power ∧ (State.doBrv q mode tgt s).boot = s.boot ∧
    (State.doBrv q mode tgt s).dap = s.dap ∧ (State.doBrv q mode tgt s).synth = s.synth ∧ (State.doBrv q mode tgt s).wave = s.wave ∧
    (State.doBrv q mode tgt s).readout = s.readout ∧ (State.doBrv q mode tgt s).est = s.est ∧ (State.doBrv q mode tgt s).fabric = s.fabric ∧
    (State.doBrv q mode tgt s).conc = s.conc ∧ (State.doBrv q mode tgt s).acq = s.acq ∧ (State.doBrv q mode tgt s).bias = s.bias ∧
    (State.doBrv q mode tgt s).cal = s.cal ∧ (State.doBrv q mode tgt s).thermal = s.thermal := by
  unfold State.doBrv; (try dsimp only)
  repeat' split
  all_goals (first | done | simp)

/-- What `State.brvPath` keeps. -/
@[simp] theorem State.brvPath_frame (q x : Nat) (taken : Bool) (tgt : Nat) (s : State) :
    (State.brvPath q x taken tgt s).pending = s.pending ∧ (State.brvPath q x taken tgt s).ident = s.ident ∧ (State.brvPath q x taken tgt s).units = s.units ∧
    (State.brvPath q x taken tgt s).desk = s.desk ∧ (State.brvPath q x taken tgt s).parts = s.parts ∧ (State.brvPath q x taken tgt s).archive = s.archive ∧
    (State.brvPath q x taken tgt s).sec = s.sec ∧ (State.brvPath q x taken tgt s).power = s.power ∧ (State.brvPath q x taken tgt s).boot = s.boot ∧
    (State.brvPath q x taken tgt s).dap = s.dap ∧ (State.brvPath q x taken tgt s).synth = s.synth ∧ (State.brvPath q x taken tgt s).wave = s.wave ∧
    (State.brvPath q x taken tgt s).readout = s.readout ∧ (State.brvPath q x taken tgt s).est = s.est ∧ (State.brvPath q x taken tgt s).fabric = s.fabric ∧
    (State.brvPath q x taken tgt s).conc = s.conc ∧ (State.brvPath q x taken tgt s).acq = s.acq ∧ (State.brvPath q x taken tgt s).bias = s.bias ∧
    (State.brvPath q x taken tgt s).cal = s.cal ∧ (State.brvPath q x taken tgt s).thermal = s.thermal := by
  unfold State.brvPath
  repeat' split
  all_goals (first | done | simp)

/-- What `State.doLookup` keeps. -/
@[simp] theorem State.doLookup_frame (q : Nat) (s : State) :
    (State.doLookup q s).pending = s.pending ∧ (State.doLookup q s).ident = s.ident ∧ (State.doLookup q s).host = s.host ∧
    (State.doLookup q s).units = s.units ∧ (State.doLookup q s).desk = s.desk ∧ (State.doLookup q s).parts = s.parts ∧
    (State.doLookup q s).archive = s.archive ∧ (State.doLookup q s).pages = s.pages ∧ (State.doLookup q s).ledger = s.ledger ∧
    (State.doLookup q s).trouble = s.trouble ∧ (State.doLookup q s).sec = s.sec ∧ (State.doLookup q s).power = s.power ∧ (State.doLookup q s).boot = s.boot ∧
    (State.doLookup q s).dap = s.dap ∧ (State.doLookup q s).synth = s.synth ∧ (State.doLookup q s).wave = s.wave ∧ (State.doLookup q s).readout = s.readout ∧
    (State.doLookup q s).est = s.est ∧ (State.doLookup q s).fabric = s.fabric ∧ (State.doLookup q s).conc = s.conc ∧ (State.doLookup q s).acq = s.acq ∧
    (State.doLookup q s).bias = s.bias ∧ (State.doLookup q s).cal = s.cal ∧ (State.doLookup q s).thermal = s.thermal ∧ (State.doLookup q s).free = s.free := by
  unfold State.doLookup; (try dsimp only)
  all_goals (first | done | simp)

/-- What `State.entryLost` keeps. -/
@[simp] theorem State.entryLost_frame (v : Nat) (bank1 : Bool) (idx : Nat) (s : State) :
    (State.entryLost v bank1 idx s).pending = s.pending ∧ (State.entryLost v bank1 idx s).ident = s.ident ∧ (State.entryLost v bank1 idx s).time = s.time ∧
    (State.entryLost v bank1 idx s).desk = s.desk ∧ (State.entryLost v bank1 idx s).parts = s.parts ∧ (State.entryLost v bank1 idx s).archive = s.archive ∧
    (State.entryLost v bank1 idx s).sec = s.sec ∧ (State.entryLost v bank1 idx s).power = s.power ∧ (State.entryLost v bank1 idx s).boot = s.boot ∧
    (State.entryLost v bank1 idx s).dap = s.dap ∧ (State.entryLost v bank1 idx s).seqs = s.seqs ∧ (State.entryLost v bank1 idx s).synth = s.synth ∧
    (State.entryLost v bank1 idx s).wave = s.wave ∧ (State.entryLost v bank1 idx s).readout = s.readout ∧ (State.entryLost v bank1 idx s).est = s.est ∧
    (State.entryLost v bank1 idx s).fabric = s.fabric ∧ (State.entryLost v bank1 idx s).acq = s.acq ∧ (State.entryLost v bank1 idx s).bias = s.bias ∧
    (State.entryLost v bank1 idx s).cal = s.cal ∧ (State.entryLost v bank1 idx s).thermal = s.thermal := by
  unfold State.entryLost; (try dsimp only)
  repeat' split
  all_goals (first | done | simp)

/-- What `State.frameCue` keeps. -/
@[simp] theorem State.frameCue_frame (q i : Nat) (e : Word) (s : State) :
    (State.frameCue q i e s).pending = s.pending ∧ (State.frameCue q i e s).ident = s.ident ∧ (State.frameCue q i e s).host = s.host ∧
    (State.frameCue q i e s).units = s.units ∧ (State.frameCue q i e s).desk = s.desk ∧ (State.frameCue q i e s).parts = s.parts ∧
    (State.frameCue q i e s).archive = s.archive ∧ (State.frameCue q i e s).pages = s.pages ∧ (State.frameCue q i e s).ledger = s.ledger ∧
    (State.frameCue q i e s).trouble = s.trouble ∧ (State.frameCue q i e s).sec = s.sec ∧ (State.frameCue q i e s).power = s.power ∧
    (State.frameCue q i e s).boot = s.boot ∧ (State.frameCue q i e s).dap = s.dap ∧ (State.frameCue q i e s).synth = s.synth ∧
    (State.frameCue q i e s).wave = s.wave ∧ (State.frameCue q i e s).readout = s.readout ∧ (State.frameCue q i e s).est = s.est ∧
    (State.frameCue q i e s).fabric = s.fabric ∧ (State.frameCue q i e s).conc = s.conc ∧ (State.frameCue q i e s).acq = s.acq ∧
    (State.frameCue q i e s).bias = s.bias ∧ (State.frameCue q i e s).cal = s.cal ∧ (State.frameCue q i e s).thermal = s.thermal ∧
    (State.frameCue q i e s).free = s.free := by
  unfold State.frameCue; (try dsimp only)
  all_goals (first | done | simp)

/-- What `State.runCue` keeps. -/
@[simp] theorem State.runCue_frame (q t : Nat) (x : Cue) (s : State) :
    (State.runCue q t x s).pending = s.pending ∧ (State.runCue q t x s).ident = s.ident ∧ (State.runCue q t x s).units = s.units ∧
    (State.runCue q t x s).desk = s.desk ∧ (State.runCue q t x s).parts = s.parts ∧ (State.runCue q t x s).archive = s.archive ∧
    (State.runCue q t x s).sec = s.sec ∧ (State.runCue q t x s).power = s.power ∧ (State.runCue q t x s).boot = s.boot ∧ (State.runCue q t x s).dap = s.dap ∧
    (State.runCue q t x s).est = s.est ∧ (State.runCue q t x s).fabric = s.fabric ∧ (State.runCue q t x s).conc = s.conc ∧
    (State.runCue q t x s).bias = s.bias ∧ (State.runCue q t x s).cal = s.cal ∧ (State.runCue q t x s).thermal = s.thermal := by
  unfold State.runCue; (try dsimp only)
  repeat' split
  all_goals (first | done | simp)

/-- What `State.skipped` keeps. -/
@[simp] theorem State.skipped_frame (n : Nat) (s : State) :
    (State.skipped n s).pending = s.pending ∧ (State.skipped n s).ident = s.ident ∧ (State.skipped n s).time = s.time ∧ (State.skipped n s).units = s.units ∧
    (State.skipped n s).desk = s.desk ∧ (State.skipped n s).parts = s.parts ∧ (State.skipped n s).archive = s.archive ∧ (State.skipped n s).sec = s.sec ∧
    (State.skipped n s).power = s.power ∧ (State.skipped n s).boot = s.boot ∧ (State.skipped n s).dap = s.dap ∧ (State.skipped n s).seqs = s.seqs ∧
    (State.skipped n s).synth = s.synth ∧ (State.skipped n s).wave = s.wave ∧ (State.skipped n s).readout = s.readout ∧ (State.skipped n s).est = s.est ∧
    (State.skipped n s).fabric = s.fabric ∧ (State.skipped n s).conc = s.conc ∧ (State.skipped n s).acq = s.acq ∧ (State.skipped n s).bias = s.bias ∧
    (State.skipped n s).cal = s.cal := by
  unfold State.skipped; (try dsimp only)
  repeat' split
  all_goals (first | done | simp)

/-- What `State.cutSlot` keeps. -/
@[simp] theorem State.cutSlot_frame (q t : Nat) (b : Binding) (s : State) :
    (State.cutSlot q t b s).pending = s.pending ∧ (State.cutSlot q t b s).ident = s.ident ∧ (State.cutSlot q t b s).time = s.time ∧
    (State.cutSlot q t b s).host = s.host ∧ (State.cutSlot q t b s).units = s.units ∧ (State.cutSlot q t b s).desk = s.desk ∧
    (State.cutSlot q t b s).parts = s.parts ∧ (State.cutSlot q t b s).archive = s.archive ∧ (State.cutSlot q t b s).pages = s.pages ∧
    (State.cutSlot q t b s).ledger = s.ledger ∧ (State.cutSlot q t b s).trouble = s.trouble ∧ (State.cutSlot q t b s).sec = s.sec ∧
    (State.cutSlot q t b s).power = s.power ∧ (State.cutSlot q t b s).boot = s.boot ∧ (State.cutSlot q t b s).dap = s.dap ∧
    (State.cutSlot q t b s).seqs = s.seqs ∧ (State.cutSlot q t b s).wave = s.wave ∧ (State.cutSlot q t b s).est = s.est ∧
    (State.cutSlot q t b s).fabric = s.fabric ∧ (State.cutSlot q t b s).conc = s.conc ∧ (State.cutSlot q t b s).acq = s.acq ∧
    (State.cutSlot q t b s).bias = s.bias ∧ (State.cutSlot q t b s).cal = s.cal ∧ (State.cutSlot q t b s).thermal = s.thermal ∧
    (State.cutSlot q t b s).free = s.free := by
  unfold State.cutSlot
  repeat' split
  all_goals (first | done | simp)

/-- What `State.doIns` keeps. -/
@[simp] theorem State.doIns_frame (q : Nat) (i : SeqIns) (s : State) :
    (State.doIns q i s).pending = s.pending ∧ (State.doIns q i s).ident = s.ident ∧ (State.doIns q i s).units = s.units ∧ (State.doIns q i s).desk = s.desk ∧
    (State.doIns q i s).parts = s.parts ∧ (State.doIns q i s).archive = s.archive ∧ (State.doIns q i s).sec = s.sec ∧ (State.doIns q i s).power = s.power ∧
    (State.doIns q i s).boot = s.boot ∧ (State.doIns q i s).dap = s.dap ∧ (State.doIns q i s).wave = s.wave ∧ (State.doIns q i s).readout = s.readout ∧
    (State.doIns q i s).est = s.est ∧ (State.doIns q i s).fabric = s.fabric ∧ (State.doIns q i s).acq = s.acq ∧ (State.doIns q i s).bias = s.bias ∧
    (State.doIns q i s).cal = s.cal ∧ (State.doIns q i s).thermal = s.thermal := by
  unfold State.doIns
  repeat' split
  all_goals (first | done | simp)

/-- What `State.sealCopies` keeps. -/
@[simp] theorem State.sealCopies_frame (new old : List Nat) (s : State) :
    (State.sealCopies new old s).pending = s.pending ∧ (State.sealCopies new old s).ident = s.ident ∧ (State.sealCopies new old s).time = s.time ∧
    (State.sealCopies new old s).host = s.host ∧ (State.sealCopies new old s).units = s.units ∧ (State.sealCopies new old s).desk = s.desk ∧
    (State.sealCopies new old s).parts = s.parts ∧ (State.sealCopies new old s).archive = s.archive ∧ (State.sealCopies new old s).pages = s.pages ∧
    (State.sealCopies new old s).ledger = s.ledger ∧ (State.sealCopies new old s).trouble = s.trouble ∧ (State.sealCopies new old s).sec = s.sec ∧
    (State.sealCopies new old s).power = s.power ∧ (State.sealCopies new old s).boot = s.boot ∧ (State.sealCopies new old s).dap = s.dap ∧
    (State.sealCopies new old s).seqs = s.seqs ∧ (State.sealCopies new old s).wave = s.wave ∧ (State.sealCopies new old s).readout = s.readout ∧
    (State.sealCopies new old s).est = s.est ∧ (State.sealCopies new old s).fabric = s.fabric ∧ (State.sealCopies new old s).conc = s.conc ∧
    (State.sealCopies new old s).acq = s.acq ∧ (State.sealCopies new old s).bias = s.bias ∧ (State.sealCopies new old s).cal = s.cal ∧
    (State.sealCopies new old s).thermal = s.thermal ∧ (State.sealCopies new old s).free = s.free := by
  unfold State.sealCopies; (try dsimp only)
  all_goals (first | done | simp)

/-- What `State.sealSeq` keeps. -/
@[simp] theorem State.sealSeq_frame (q : Nat) (set : SealedSet) (s : State) :
    (State.sealSeq q set s).pending = s.pending ∧ (State.sealSeq q set s).ident = s.ident ∧ (State.sealSeq q set s).time = s.time ∧
    (State.sealSeq q set s).host = s.host ∧ (State.sealSeq q set s).units = s.units ∧ (State.sealSeq q set s).desk = s.desk ∧
    (State.sealSeq q set s).parts = s.parts ∧ (State.sealSeq q set s).archive = s.archive ∧ (State.sealSeq q set s).pages = s.pages ∧
    (State.sealSeq q set s).ledger = s.ledger ∧ (State.sealSeq q set s).trouble = s.trouble ∧ (State.sealSeq q set s).sec = s.sec ∧
    (State.sealSeq q set s).power = s.power ∧ (State.sealSeq q set s).boot = s.boot ∧ (State.sealSeq q set s).dap = s.dap ∧
    (State.sealSeq q set s).est = s.est ∧ (State.sealSeq q set s).bias = s.bias ∧ (State.sealSeq q set s).cal = s.cal ∧
    (State.sealSeq q set s).thermal = s.thermal ∧ (State.sealSeq q set s).free = s.free := by
  unfold State.sealSeq; (try dsimp only)
  repeat' split
  all_goals (first | done | simp)

/-- What `State.calBegin` keeps. -/
theorem State.calBegin_frame (d cls i freq : Nat) (s t : State) (h : s.calBegin d cls i freq = some t) :
    t.pending = s.pending ∧ t.ident = s.ident ∧ t.time = s.time ∧ t.host = s.host ∧ t.units = s.units ∧ t.desk = s.desk ∧ t.parts = s.parts ∧
    t.archive = s.archive ∧ t.pages = s.pages ∧ t.ledger = s.ledger ∧ t.trouble = s.trouble ∧ t.sec = s.sec ∧ t.power = s.power ∧ t.boot = s.boot ∧
    t.dap = s.dap ∧ t.seqs = s.seqs ∧ t.wave = s.wave ∧ t.est = s.est ∧ t.fabric = s.fabric ∧ t.conc = s.conc ∧ t.acq = s.acq ∧ t.cal = s.cal ∧
    t.thermal = s.thermal ∧ t.free = s.free := by
  unfold State.calBegin at h; (try dsimp only at h)
  repeat' split at h
  all_goals cases h
  all_goals simp [State.setDacSpare, State.setAdcSpare]

/-- What `State.calStart` keeps. -/
@[simp] theorem State.calStart_frame (d n : Nat) (s : State) :
    (State.calStart d n s).pending = s.pending ∧ (State.calStart d n s).ident = s.ident ∧ (State.calStart d n s).time = s.time ∧
    (State.calStart d n s).host = s.host ∧ (State.calStart d n s).units = s.units ∧ (State.calStart d n s).desk = s.desk ∧
    (State.calStart d n s).parts = s.parts ∧ (State.calStart d n s).archive = s.archive ∧ (State.calStart d n s).pages = s.pages ∧
    (State.calStart d n s).ledger = s.ledger ∧ (State.calStart d n s).trouble = s.trouble ∧ (State.calStart d n s).sec = s.sec ∧
    (State.calStart d n s).power = s.power ∧ (State.calStart d n s).boot = s.boot ∧ (State.calStart d n s).dap = s.dap ∧ (State.calStart d n s).seqs = s.seqs ∧
    (State.calStart d n s).wave = s.wave ∧ (State.calStart d n s).est = s.est ∧ (State.calStart d n s).fabric = s.fabric ∧
    (State.calStart d n s).conc = s.conc ∧ (State.calStart d n s).acq = s.acq ∧ (State.calStart d n s).thermal = s.thermal ∧
    (State.calStart d n s).free = s.free := by
  induction n generalizing s with
  | zero => simp [State.calStart]
  | succ n ih =>
    unfold State.calStart
    repeat' split
    any_goals simp
    · rename_i h; have := State.calBegin_frame _ _ _ _ _ _ h; simp [this]
    · simp [ih]

/-- What `State.calNext` keeps. -/
@[simp] theorem State.calNext_frame (d : Nat) (s : State) :
    (State.calNext d s).pending = s.pending ∧ (State.calNext d s).ident = s.ident ∧ (State.calNext d s).time = s.time ∧ (State.calNext d s).host = s.host ∧
    (State.calNext d s).units = s.units ∧ (State.calNext d s).desk = s.desk ∧ (State.calNext d s).parts = s.parts ∧ (State.calNext d s).archive = s.archive ∧
    (State.calNext d s).pages = s.pages ∧ (State.calNext d s).ledger = s.ledger ∧ (State.calNext d s).trouble = s.trouble ∧ (State.calNext d s).sec = s.sec ∧
    (State.calNext d s).power = s.power ∧ (State.calNext d s).boot = s.boot ∧ (State.calNext d s).dap = s.dap ∧ (State.calNext d s).seqs = s.seqs ∧
    (State.calNext d s).wave = s.wave ∧ (State.calNext d s).est = s.est ∧ (State.calNext d s).fabric = s.fabric ∧ (State.calNext d s).conc = s.conc ∧
    (State.calNext d s).acq = s.acq ∧ (State.calNext d s).thermal = s.thermal ∧ (State.calNext d s).free = s.free := by
  unfold State.calNext; (try dsimp only)
  repeat' split
  all_goals (first | done | simp)

/-- What `State.calSkip` keeps. -/
@[simp] theorem State.calSkip_frame (d : Nat) (s : State) :
    (State.calSkip d s).pending = s.pending ∧ (State.calSkip d s).ident = s.ident ∧ (State.calSkip d s).time = s.time ∧ (State.calSkip d s).host = s.host ∧
    (State.calSkip d s).units = s.units ∧ (State.calSkip d s).desk = s.desk ∧ (State.calSkip d s).parts = s.parts ∧ (State.calSkip d s).archive = s.archive ∧
    (State.calSkip d s).pages = s.pages ∧ (State.calSkip d s).ledger = s.ledger ∧ (State.calSkip d s).trouble = s.trouble ∧ (State.calSkip d s).sec = s.sec ∧
    (State.calSkip d s).power = s.power ∧ (State.calSkip d s).boot = s.boot ∧ (State.calSkip d s).dap = s.dap ∧ (State.calSkip d s).seqs = s.seqs ∧
    (State.calSkip d s).wave = s.wave ∧ (State.calSkip d s).est = s.est ∧ (State.calSkip d s).fabric = s.fabric ∧ (State.calSkip d s).conc = s.conc ∧
    (State.calSkip d s).acq = s.acq ∧ (State.calSkip d s).thermal = s.thermal ∧ (State.calSkip d s).free = s.free := by
  unfold State.calSkip
  all_goals (first | done | simp)

/-- What `State.calAbandon` keeps. -/
@[simp] theorem State.calAbandon_frame (d k : Nat) (dac : Bool) (s : State) :
    (State.calAbandon d k dac s).pending = s.pending ∧ (State.calAbandon d k dac s).ident = s.ident ∧ (State.calAbandon d k dac s).time = s.time ∧
    (State.calAbandon d k dac s).host = s.host ∧ (State.calAbandon d k dac s).units = s.units ∧ (State.calAbandon d k dac s).desk = s.desk ∧
    (State.calAbandon d k dac s).parts = s.parts ∧ (State.calAbandon d k dac s).archive = s.archive ∧ (State.calAbandon d k dac s).pages = s.pages ∧
    (State.calAbandon d k dac s).ledger = s.ledger ∧ (State.calAbandon d k dac s).trouble = s.trouble ∧ (State.calAbandon d k dac s).sec = s.sec ∧
    (State.calAbandon d k dac s).power = s.power ∧ (State.calAbandon d k dac s).boot = s.boot ∧ (State.calAbandon d k dac s).dap = s.dap ∧
    (State.calAbandon d k dac s).seqs = s.seqs ∧ (State.calAbandon d k dac s).wave = s.wave ∧ (State.calAbandon d k dac s).est = s.est ∧
    (State.calAbandon d k dac s).fabric = s.fabric ∧ (State.calAbandon d k dac s).conc = s.conc ∧ (State.calAbandon d k dac s).acq = s.acq ∧
    (State.calAbandon d k dac s).thermal = s.thermal ∧ (State.calAbandon d k dac s).free = s.free := by
  unfold State.calAbandon
  repeat' split
  all_goals (first | done | simp)

/-- What `State.toneApply` keeps. -/
@[simp] theorem State.toneApply_frame (s : State) (r : ToneRec) :
    (State.toneApply s r).pending = s.pending ∧ (State.toneApply s r).ident = s.ident ∧ (State.toneApply s r).time = s.time ∧
    (State.toneApply s r).host = s.host ∧ (State.toneApply s r).units = s.units ∧ (State.toneApply s r).desk = s.desk ∧ (State.toneApply s r).parts = s.parts ∧
    (State.toneApply s r).archive = s.archive ∧ (State.toneApply s r).pages = s.pages ∧ (State.toneApply s r).ledger = s.ledger ∧
    (State.toneApply s r).trouble = s.trouble ∧ (State.toneApply s r).sec = s.sec ∧ (State.toneApply s r).power = s.power ∧
    (State.toneApply s r).boot = s.boot ∧ (State.toneApply s r).dap = s.dap ∧ (State.toneApply s r).seqs = s.seqs ∧ (State.toneApply s r).wave = s.wave ∧
    (State.toneApply s r).readout = s.readout ∧ (State.toneApply s r).est = s.est ∧ (State.toneApply s r).fabric = s.fabric ∧
    (State.toneApply s r).conc = s.conc ∧ (State.toneApply s r).acq = s.acq ∧ (State.toneApply s r).bias = s.bias ∧ (State.toneApply s r).cal = s.cal ∧
    (State.toneApply s r).thermal = s.thermal ∧ (State.toneApply s r).free = s.free := by
  unfold State.toneApply
  repeat' split
  all_goals (first | done | simp)

/-- What `State.outAct` keeps. -/
@[simp] theorem State.outAct_frame (r : OutRecd) (s : State) :
    (State.outAct r s).pending = s.pending ∧ (State.outAct r s).ident = s.ident ∧ (State.outAct r s).time = s.time ∧ (State.outAct r s).host = s.host ∧
    (State.outAct r s).units = s.units ∧ (State.outAct r s).desk = s.desk ∧ (State.outAct r s).parts = s.parts ∧ (State.outAct r s).archive = s.archive ∧
    (State.outAct r s).pages = s.pages ∧ (State.outAct r s).ledger = s.ledger ∧ (State.outAct r s).trouble = s.trouble ∧ (State.outAct r s).sec = s.sec ∧
    (State.outAct r s).power = s.power ∧ (State.outAct r s).boot = s.boot ∧ (State.outAct r s).dap = s.dap ∧ (State.outAct r s).seqs = s.seqs ∧
    (State.outAct r s).wave = s.wave ∧ (State.outAct r s).readout = s.readout ∧ (State.outAct r s).est = s.est ∧ (State.outAct r s).fabric = s.fabric ∧
    (State.outAct r s).conc = s.conc ∧ (State.outAct r s).acq = s.acq ∧ (State.outAct r s).bias = s.bias ∧ (State.outAct r s).cal = s.cal ∧
    (State.outAct r s).thermal = s.thermal := by
  unfold State.outAct; (try dsimp only)
  repeat' split
  all_goals (first | done | simp)

/-- What `State.raiseOut` keeps. -/
@[simp] theorem State.raiseOut_frame (v o : Nat) (s : State) :
    (State.raiseOut v o s).pending = s.pending ∧ (State.raiseOut v o s).ident = s.ident ∧ (State.raiseOut v o s).time = s.time ∧
    (State.raiseOut v o s).units = s.units ∧ (State.raiseOut v o s).desk = s.desk ∧ (State.raiseOut v o s).parts = s.parts ∧
    (State.raiseOut v o s).archive = s.archive ∧ (State.raiseOut v o s).pages = s.pages ∧ (State.raiseOut v o s).ledger = s.ledger ∧
    (State.raiseOut v o s).trouble = s.trouble ∧ (State.raiseOut v o s).sec = s.sec ∧ (State.raiseOut v o s).power = s.power ∧
    (State.raiseOut v o s).boot = s.boot ∧ (State.raiseOut v o s).dap = s.dap ∧ (State.raiseOut v o s).seqs = s.seqs ∧ (State.raiseOut v o s).synth = s.synth ∧
    (State.raiseOut v o s).wave = s.wave ∧ (State.raiseOut v o s).readout = s.readout ∧ (State.raiseOut v o s).est = s.est ∧
    (State.raiseOut v o s).fabric = s.fabric ∧ (State.raiseOut v o s).conc = s.conc ∧ (State.raiseOut v o s).acq = s.acq ∧
    (State.raiseOut v o s).bias = s.bias ∧ (State.raiseOut v o s).cal = s.cal ∧ (State.raiseOut v o s).thermal = s.thermal ∧
    (State.raiseOut v o s).free = s.free := by
  unfold State.raiseOut
  all_goals (first | done | simp)

/-- What `State.faultMuteOut` keeps. -/
@[simp] theorem State.faultMuteOut_frame (o : Nat) (s : State) :
    (State.faultMuteOut o s).pending = s.pending ∧ (State.faultMuteOut o s).ident = s.ident ∧ (State.faultMuteOut o s).time = s.time ∧
    (State.faultMuteOut o s).units = s.units ∧ (State.faultMuteOut o s).desk = s.desk ∧ (State.faultMuteOut o s).parts = s.parts ∧
    (State.faultMuteOut o s).archive = s.archive ∧ (State.faultMuteOut o s).sec = s.sec ∧ (State.faultMuteOut o s).power = s.power ∧
    (State.faultMuteOut o s).boot = s.boot ∧ (State.faultMuteOut o s).dap = s.dap ∧ (State.faultMuteOut o s).seqs = s.seqs ∧
    (State.faultMuteOut o s).wave = s.wave ∧ (State.faultMuteOut o s).readout = s.readout ∧ (State.faultMuteOut o s).est = s.est ∧
    (State.faultMuteOut o s).fabric = s.fabric ∧ (State.faultMuteOut o s).conc = s.conc ∧ (State.faultMuteOut o s).acq = s.acq ∧
    (State.faultMuteOut o s).bias = s.bias ∧ (State.faultMuteOut o s).cal = s.cal ∧ (State.faultMuteOut o s).thermal = s.thermal := by
  unfold State.faultMuteOut; (try dsimp only)
  all_goals (first | done | simp)

/-- What `State.failOut` keeps. -/
@[simp] theorem State.failOut_frame (o : Nat) (s : State) :
    (State.failOut o s).pending = s.pending ∧ (State.failOut o s).ident = s.ident ∧ (State.failOut o s).time = s.time ∧ (State.failOut o s).host = s.host ∧
    (State.failOut o s).units = s.units ∧ (State.failOut o s).desk = s.desk ∧ (State.failOut o s).parts = s.parts ∧ (State.failOut o s).archive = s.archive ∧
    (State.failOut o s).pages = s.pages ∧ (State.failOut o s).ledger = s.ledger ∧ (State.failOut o s).trouble = s.trouble ∧ (State.failOut o s).sec = s.sec ∧
    (State.failOut o s).power = s.power ∧ (State.failOut o s).boot = s.boot ∧ (State.failOut o s).dap = s.dap ∧ (State.failOut o s).seqs = s.seqs ∧
    (State.failOut o s).wave = s.wave ∧ (State.failOut o s).readout = s.readout ∧ (State.failOut o s).est = s.est ∧ (State.failOut o s).fabric = s.fabric ∧
    (State.failOut o s).conc = s.conc ∧ (State.failOut o s).acq = s.acq ∧ (State.failOut o s).bias = s.bias ∧ (State.failOut o s).cal = s.cal ∧
    (State.failOut o s).thermal = s.thermal ∧ (State.failOut o s).free = s.free := by
  unfold State.failOut
  all_goals (first | done | simp)

/-- What `State.troubleClear` keeps. -/
@[simp] theorem State.troubleClear_frame (w : Fin 16) (b : Nat) (r : LedgerRec) (s : State) :
    (State.troubleClear w b r s).pending = s.pending ∧ (State.troubleClear w b r s).ident = s.ident ∧ (State.troubleClear w b r s).time = s.time ∧
    (State.troubleClear w b r s).units = s.units ∧ (State.troubleClear w b r s).desk = s.desk ∧ (State.troubleClear w b r s).parts = s.parts ∧
    (State.troubleClear w b r s).archive = s.archive ∧ (State.troubleClear w b r s).sec = s.sec ∧ (State.troubleClear w b r s).power = s.power ∧
    (State.troubleClear w b r s).boot = s.boot ∧ (State.troubleClear w b r s).dap = s.dap ∧ (State.troubleClear w b r s).seqs = s.seqs ∧
    (State.troubleClear w b r s).synth = s.synth ∧ (State.troubleClear w b r s).wave = s.wave ∧ (State.troubleClear w b r s).readout = s.readout ∧
    (State.troubleClear w b r s).est = s.est ∧ (State.troubleClear w b r s).fabric = s.fabric ∧ (State.troubleClear w b r s).conc = s.conc ∧
    (State.troubleClear w b r s).acq = s.acq ∧ (State.troubleClear w b r s).bias = s.bias ∧ (State.troubleClear w b r s).cal = s.cal ∧
    (State.troubleClear w b r s).thermal = s.thermal := by
  unfold State.troubleClear
  all_goals (first | done | simp)

/-- What `State.storeCopy` keeps. -/
@[simp] theorem State.storeCopy_frame (img : StoreImage) (s : State) :
    (State.storeCopy img s).pending = s.pending ∧ (State.storeCopy img s).ident = s.ident ∧ (State.storeCopy img s).time = s.time ∧
    (State.storeCopy img s).units = s.units ∧ (State.storeCopy img s).desk = s.desk ∧ (State.storeCopy img s).parts = s.parts ∧
    (State.storeCopy img s).sec = s.sec ∧ (State.storeCopy img s).power = s.power ∧ (State.storeCopy img s).boot = s.boot ∧
    (State.storeCopy img s).dap = s.dap ∧ (State.storeCopy img s).seqs = s.seqs ∧ (State.storeCopy img s).synth = s.synth ∧
    (State.storeCopy img s).wave = s.wave ∧ (State.storeCopy img s).readout = s.readout ∧ (State.storeCopy img s).est = s.est ∧
    (State.storeCopy img s).fabric = s.fabric ∧ (State.storeCopy img s).conc = s.conc ∧ (State.storeCopy img s).acq = s.acq ∧
    (State.storeCopy img s).bias = s.bias ∧ (State.storeCopy img s).cal = s.cal ∧ (State.storeCopy img s).thermal = s.thermal := by
  unfold State.storeCopy; (try dsimp only)
  repeat' split
  all_goals (first | done | simp)

/-- What `State.storeStep` keeps. -/
@[simp] theorem State.storeStep_frame (o : OpenCmd) (s : State) :
    (State.storeStep o s).pending = s.pending ∧ (State.storeStep o s).ident = s.ident ∧ (State.storeStep o s).time = s.time ∧
    (State.storeStep o s).host = s.host ∧ (State.storeStep o s).units = s.units ∧ (State.storeStep o s).desk = s.desk ∧ (State.storeStep o s).pages = s.pages ∧
    (State.storeStep o s).ledger = s.ledger ∧ (State.storeStep o s).trouble = s.trouble ∧ (State.storeStep o s).sec = s.sec ∧
    (State.storeStep o s).power = s.power ∧ (State.storeStep o s).boot = s.boot ∧ (State.storeStep o s).dap = s.dap ∧ (State.storeStep o s).seqs = s.seqs ∧
    (State.storeStep o s).synth = s.synth ∧ (State.storeStep o s).wave = s.wave ∧ (State.storeStep o s).readout = s.readout ∧
    (State.storeStep o s).est = s.est ∧ (State.storeStep o s).fabric = s.fabric ∧ (State.storeStep o s).conc = s.conc ∧ (State.storeStep o s).acq = s.acq ∧
    (State.storeStep o s).bias = s.bias ∧ (State.storeStep o s).cal = s.cal ∧ (State.storeStep o s).thermal = s.thermal ∧ (State.storeStep o s).free = s.free := by
  unfold State.storeStep; (try dsimp only)
  repeat' split
  all_goals (first | done | simp)

/-- What `State.storeEnd` keeps. -/
@[simp] theorem State.storeEnd_frame (o : OpenCmd) (s : State) :
    (State.storeEnd o s).pending = s.pending ∧ (State.storeEnd o s).ident = s.ident ∧ (State.storeEnd o s).time = s.time ∧
    (State.storeEnd o s).units = s.units ∧ (State.storeEnd o s).desk = s.desk ∧ (State.storeEnd o s).sec = s.sec ∧ (State.storeEnd o s).power = s.power ∧
    (State.storeEnd o s).boot = s.boot ∧ (State.storeEnd o s).dap = s.dap ∧ (State.storeEnd o s).seqs = s.seqs ∧ (State.storeEnd o s).synth = s.synth ∧
    (State.storeEnd o s).wave = s.wave ∧ (State.storeEnd o s).readout = s.readout ∧ (State.storeEnd o s).est = s.est ∧ (State.storeEnd o s).fabric = s.fabric ∧
    (State.storeEnd o s).conc = s.conc ∧ (State.storeEnd o s).acq = s.acq ∧ (State.storeEnd o s).bias = s.bias ∧ (State.storeEnd o s).cal = s.cal ∧
    (State.storeEnd o s).thermal = s.thermal := by
  unfold State.storeEnd; (try dsimp only)
  repeat' split
  all_goals (first | done | simp)

/-- What `State.abortStore` keeps. -/
@[simp] theorem State.abortStore_frame (s : State) :
    (State.abortStore s).pending = s.pending ∧ (State.abortStore s).ident = s.ident ∧ (State.abortStore s).time = s.time ∧
    (State.abortStore s).units = s.units ∧ (State.abortStore s).desk = s.desk ∧ (State.abortStore s).parts = s.parts ∧ (State.abortStore s).sec = s.sec ∧
    (State.abortStore s).power = s.power ∧ (State.abortStore s).boot = s.boot ∧ (State.abortStore s).dap = s.dap ∧ (State.abortStore s).seqs = s.seqs ∧
    (State.abortStore s).synth = s.synth ∧ (State.abortStore s).wave = s.wave ∧ (State.abortStore s).readout = s.readout ∧ (State.abortStore s).est = s.est ∧
    (State.abortStore s).fabric = s.fabric ∧ (State.abortStore s).conc = s.conc ∧ (State.abortStore s).acq = s.acq ∧ (State.abortStore s).bias = s.bias ∧
    (State.abortStore s).cal = s.cal ∧ (State.abortStore s).thermal = s.thermal := by
  unfold State.abortStore; (try dsimp only)
  repeat' split
  all_goals (first | done | simp)

/-- What `State.rehome` keeps. -/
@[simp] theorem State.rehome_frame (k : Nat) (s : State) :
    (State.rehome k s).pending = s.pending ∧ (State.rehome k s).ident = s.ident ∧ (State.rehome k s).time = s.time ∧ (State.rehome k s).host = s.host ∧
    (State.rehome k s).units = s.units ∧ (State.rehome k s).desk = s.desk ∧ (State.rehome k s).parts = s.parts ∧ (State.rehome k s).archive = s.archive ∧
    (State.rehome k s).pages = s.pages ∧ (State.rehome k s).ledger = s.ledger ∧ (State.rehome k s).trouble = s.trouble ∧ (State.rehome k s).sec = s.sec ∧
    (State.rehome k s).power = s.power ∧ (State.rehome k s).boot = s.boot ∧ (State.rehome k s).dap = s.dap ∧ (State.rehome k s).seqs = s.seqs ∧
    (State.rehome k s).synth = s.synth ∧ (State.rehome k s).wave = s.wave ∧ (State.rehome k s).readout = s.readout ∧ (State.rehome k s).est = s.est ∧
    (State.rehome k s).fabric = s.fabric ∧ (State.rehome k s).conc = s.conc ∧ (State.rehome k s).bias = s.bias ∧ (State.rehome k s).cal = s.cal ∧
    (State.rehome k s).thermal = s.thermal ∧ (State.rehome k s).free = s.free := by
  unfold State.rehome; (try dsimp only)
  all_goals (first | done | simp)

/-- What `State.withPlan` keeps. -/
@[simp] theorem State.withPlan_frame (s : State) (p : Packet) :
    (State.withPlan s p).pending = s.pending ∧ (State.withPlan s p).ident = s.ident ∧ (State.withPlan s p).time = s.time ∧ (State.withPlan s p).host = s.host ∧
    (State.withPlan s p).units = s.units ∧ (State.withPlan s p).desk = s.desk ∧ (State.withPlan s p).parts = s.parts ∧
    (State.withPlan s p).archive = s.archive ∧ (State.withPlan s p).pages = s.pages ∧ (State.withPlan s p).ledger = s.ledger ∧
    (State.withPlan s p).trouble = s.trouble ∧ (State.withPlan s p).sec = s.sec ∧ (State.withPlan s p).power = s.power ∧ (State.withPlan s p).boot = s.boot ∧
    (State.withPlan s p).dap = s.dap ∧ (State.withPlan s p).seqs = s.seqs ∧ (State.withPlan s p).synth = s.synth ∧ (State.withPlan s p).readout = s.readout ∧
    (State.withPlan s p).est = s.est ∧ (State.withPlan s p).fabric = s.fabric ∧ (State.withPlan s p).conc = s.conc ∧ (State.withPlan s p).acq = s.acq ∧
    (State.withPlan s p).bias = s.bias ∧ (State.withPlan s p).cal = s.cal ∧ (State.withPlan s p).thermal = s.thermal ∧ (State.withPlan s p).free = s.free := by
  unfold State.withPlan
  all_goals (first | done | simp)

/-- What `State.dramError` keeps. -/
@[simp] theorem State.dramError_frame (c : Fin 8) (s : State) :
    (State.dramError c s).pending = s.pending ∧ (State.dramError c s).ident = s.ident ∧ (State.dramError c s).time = s.time ∧
    (State.dramError c s).units = s.units ∧ (State.dramError c s).desk = s.desk ∧ (State.dramError c s).parts = s.parts ∧
    (State.dramError c s).archive = s.archive ∧ (State.dramError c s).sec = s.sec ∧ (State.dramError c s).power = s.power ∧
    (State.dramError c s).boot = s.boot ∧ (State.dramError c s).dap = s.dap ∧ (State.dramError c s).seqs = s.seqs ∧ (State.dramError c s).synth = s.synth ∧
    (State.dramError c s).wave = s.wave ∧ (State.dramError c s).readout = s.readout ∧ (State.dramError c s).est = s.est ∧
    (State.dramError c s).fabric = s.fabric ∧ (State.dramError c s).conc = s.conc ∧ (State.dramError c s).acq = s.acq ∧ (State.dramError c s).bias = s.bias ∧
    (State.dramError c s).cal = s.cal ∧ (State.dramError c s).thermal = s.thermal := by
  unfold State.dramError; (try dsimp only)
  all_goals (first | done | simp)

/-- What `State.rcApply` keeps. -/
@[simp] theorem State.rcApply_frame (s : State) (r : Word × Word) :
    (State.rcApply s r).pending = s.pending ∧ (State.rcApply s r).ident = s.ident ∧ (State.rcApply s r).time = s.time ∧ (State.rcApply s r).host = s.host ∧
    (State.rcApply s r).units = s.units ∧ (State.rcApply s r).desk = s.desk ∧ (State.rcApply s r).parts = s.parts ∧ (State.rcApply s r).archive = s.archive ∧
    (State.rcApply s r).pages = s.pages ∧ (State.rcApply s r).ledger = s.ledger ∧ (State.rcApply s r).trouble = s.trouble ∧ (State.rcApply s r).sec = s.sec ∧
    (State.rcApply s r).power = s.power ∧ (State.rcApply s r).boot = s.boot ∧ (State.rcApply s r).dap = s.dap ∧ (State.rcApply s r).seqs = s.seqs ∧
    (State.rcApply s r).synth = s.synth ∧ (State.rcApply s r).wave = s.wave ∧ (State.rcApply s r).est = s.est ∧ (State.rcApply s r).fabric = s.fabric ∧
    (State.rcApply s r).conc = s.conc ∧ (State.rcApply s r).acq = s.acq ∧ (State.rcApply s r).bias = s.bias ∧ (State.rcApply s r).cal = s.cal ∧
    (State.rcApply s r).thermal = s.thermal ∧ (State.rcApply s r).free = s.free := by
  unfold State.rcApply; (try dsimp only)
  repeat' split
  all_goals (first | done | simp)

/-- What `State.shut` keeps. -/
@[simp] theorem State.shut_frame (k : Nat) (w : Window) (s : State) :
    (State.shut k w s).pending = s.pending ∧ (State.shut k w s).ident = s.ident ∧ (State.shut k w s).time = s.time ∧ (State.shut k w s).host = s.host ∧
    (State.shut k w s).units = s.units ∧ (State.shut k w s).desk = s.desk ∧ (State.shut k w s).parts = s.parts ∧ (State.shut k w s).archive = s.archive ∧
    (State.shut k w s).pages = s.pages ∧ (State.shut k w s).ledger = s.ledger ∧ (State.shut k w s).trouble = s.trouble ∧ (State.shut k w s).sec = s.sec ∧
    (State.shut k w s).power = s.power ∧ (State.shut k w s).boot = s.boot ∧ (State.shut k w s).dap = s.dap ∧ (State.shut k w s).seqs = s.seqs ∧
    (State.shut k w s).synth = s.synth ∧ (State.shut k w s).wave = s.wave ∧ (State.shut k w s).est = s.est ∧ (State.shut k w s).fabric = s.fabric ∧
    (State.shut k w s).conc = s.conc ∧ (State.shut k w s).acq = s.acq ∧ (State.shut k w s).bias = s.bias ∧ (State.shut k w s).cal = s.cal ∧
    (State.shut k w s).thermal = s.thermal ∧ (State.shut k w s).free = s.free := by
  unfold State.shut
  all_goals (first | done | simp)

/-- What `State.overRange` keeps. -/
@[simp] theorem State.overRange_frame (k : Nat) (outOfRange : Bool) (samples : BitVec 32) (s : State) :
    (State.overRange k outOfRange samples s).pending = s.pending ∧ (State.overRange k outOfRange samples s).ident = s.ident ∧
    (State.overRange k outOfRange samples s).time = s.time ∧ (State.overRange k outOfRange samples s).units = s.units ∧
    (State.overRange k outOfRange samples s).desk = s.desk ∧ (State.overRange k outOfRange samples s).parts = s.parts ∧
    (State.overRange k outOfRange samples s).archive = s.archive ∧ (State.overRange k outOfRange samples s).sec = s.sec ∧
    (State.overRange k outOfRange samples s).power = s.power ∧ (State.overRange k outOfRange samples s).boot = s.boot ∧
    (State.overRange k outOfRange samples s).dap = s.dap ∧ (State.overRange k outOfRange samples s).seqs = s.seqs ∧
    (State.overRange k outOfRange samples s).synth = s.synth ∧ (State.overRange k outOfRange samples s).wave = s.wave ∧
    (State.overRange k outOfRange samples s).est = s.est ∧ (State.overRange k outOfRange samples s).fabric = s.fabric ∧
    (State.overRange k outOfRange samples s).conc = s.conc ∧ (State.overRange k outOfRange samples s).acq = s.acq ∧
    (State.overRange k outOfRange samples s).bias = s.bias ∧ (State.overRange k outOfRange samples s).cal = s.cal ∧
    (State.overRange k outOfRange samples s).thermal = s.thermal := by
  unfold State.overRange; (try dsimp only)
  repeat' split
  all_goals (first | done | simp)

/-- What `State.closeAbsent` keeps. -/
@[simp] theorem State.closeAbsent_frame (k : Nat) (w : Window) (t : Nat) (z : Words) (s : State) :
    (State.closeAbsent k w t z s).pending = s.pending ∧ (State.closeAbsent k w t z s).ident = s.ident ∧ (State.closeAbsent k w t z s).time = s.time ∧
    (State.closeAbsent k w t z s).units = s.units ∧ (State.closeAbsent k w t z s).desk = s.desk ∧ (State.closeAbsent k w t z s).parts = s.parts ∧
    (State.closeAbsent k w t z s).archive = s.archive ∧ (State.closeAbsent k w t z s).sec = s.sec ∧ (State.closeAbsent k w t z s).power = s.power ∧
    (State.closeAbsent k w t z s).boot = s.boot ∧ (State.closeAbsent k w t z s).dap = s.dap ∧ (State.closeAbsent k w t z s).seqs = s.seqs ∧
    (State.closeAbsent k w t z s).synth = s.synth ∧ (State.closeAbsent k w t z s).wave = s.wave ∧ (State.closeAbsent k w t z s).est = s.est ∧
    (State.closeAbsent k w t z s).fabric = s.fabric ∧ (State.closeAbsent k w t z s).conc = s.conc ∧ (State.closeAbsent k w t z s).bias = s.bias ∧
    (State.closeAbsent k w t z s).cal = s.cal ∧ (State.closeAbsent k w t z s).thermal = s.thermal := by
  unfold State.closeAbsent; (try dsimp only)
  all_goals (first | done | simp)

/-- What `State.dropValue` keeps. -/
@[simp] theorem State.dropValue_frame (v : Value) (s : State) :
    (State.dropValue v s).pending = s.pending ∧ (State.dropValue v s).ident = s.ident ∧ (State.dropValue v s).time = s.time ∧
    (State.dropValue v s).units = s.units ∧ (State.dropValue v s).desk = s.desk ∧ (State.dropValue v s).parts = s.parts ∧
    (State.dropValue v s).archive = s.archive ∧ (State.dropValue v s).sec = s.sec ∧ (State.dropValue v s).power = s.power ∧
    (State.dropValue v s).boot = s.boot ∧ (State.dropValue v s).dap = s.dap ∧ (State.dropValue v s).seqs = s.seqs ∧ (State.dropValue v s).synth = s.synth ∧
    (State.dropValue v s).wave = s.wave ∧ (State.dropValue v s).est = s.est ∧ (State.dropValue v s).fabric = s.fabric ∧ (State.dropValue v s).conc = s.conc ∧
    (State.dropValue v s).bias = s.bias ∧ (State.dropValue v s).cal = s.cal ∧ (State.dropValue v s).thermal = s.thermal := by
  unfold State.dropValue; (try dsimp only)
  all_goals (first | done | simp)

/-- What `State.valueCapture` keeps. -/
@[simp] theorem State.valueCapture_frame (v : Value) (s : State) :
    (State.valueCapture v s).pending = s.pending ∧ (State.valueCapture v s).ident = s.ident ∧ (State.valueCapture v s).time = s.time ∧
    (State.valueCapture v s).units = s.units ∧ (State.valueCapture v s).desk = s.desk ∧ (State.valueCapture v s).parts = s.parts ∧
    (State.valueCapture v s).archive = s.archive ∧ (State.valueCapture v s).sec = s.sec ∧ (State.valueCapture v s).power = s.power ∧
    (State.valueCapture v s).boot = s.boot ∧ (State.valueCapture v s).dap = s.dap ∧ (State.valueCapture v s).seqs = s.seqs ∧
    (State.valueCapture v s).synth = s.synth ∧ (State.valueCapture v s).wave = s.wave ∧ (State.valueCapture v s).readout = s.readout ∧
    (State.valueCapture v s).est = s.est ∧ (State.valueCapture v s).fabric = s.fabric ∧ (State.valueCapture v s).conc = s.conc ∧
    (State.valueCapture v s).bias = s.bias ∧ (State.valueCapture v s).cal = s.cal ∧ (State.valueCapture v s).thermal = s.thermal := by
  unfold State.valueCapture
  all_goals (first | done | simp)

/-- What `State.raiseLine` keeps. -/
@[simp] theorem State.raiseLine_frame (v l : Nat) (s : State) :
    (State.raiseLine v l s).pending = s.pending ∧ (State.raiseLine v l s).ident = s.ident ∧ (State.raiseLine v l s).time = s.time ∧
    (State.raiseLine v l s).units = s.units ∧ (State.raiseLine v l s).desk = s.desk ∧ (State.raiseLine v l s).parts = s.parts ∧
    (State.raiseLine v l s).archive = s.archive ∧ (State.raiseLine v l s).pages = s.pages ∧ (State.raiseLine v l s).ledger = s.ledger ∧
    (State.raiseLine v l s).trouble = s.trouble ∧ (State.raiseLine v l s).sec = s.sec ∧ (State.raiseLine v l s).power = s.power ∧
    (State.raiseLine v l s).boot = s.boot ∧ (State.raiseLine v l s).dap = s.dap ∧ (State.raiseLine v l s).seqs = s.seqs ∧
    (State.raiseLine v l s).synth = s.synth ∧ (State.raiseLine v l s).wave = s.wave ∧ (State.raiseLine v l s).readout = s.readout ∧
    (State.raiseLine v l s).est = s.est ∧ (State.raiseLine v l s).fabric = s.fabric ∧ (State.raiseLine v l s).conc = s.conc ∧
    (State.raiseLine v l s).acq = s.acq ∧ (State.raiseLine v l s).bias = s.bias ∧ (State.raiseLine v l s).cal = s.cal ∧
    (State.raiseLine v l s).thermal = s.thermal ∧ (State.raiseLine v l s).free = s.free := by
  unfold State.raiseLine
  all_goals (first | done | simp)

/-- What `State.faultWindows` keeps. -/
@[simp] theorem State.faultWindows_frame (l t : Nat) (s : State) :
    (State.faultWindows l t s).pending = s.pending ∧ (State.faultWindows l t s).ident = s.ident ∧ (State.faultWindows l t s).time = s.time ∧
    (State.faultWindows l t s).units = s.units ∧ (State.faultWindows l t s).desk = s.desk ∧ (State.faultWindows l t s).parts = s.parts ∧
    (State.faultWindows l t s).archive = s.archive ∧ (State.faultWindows l t s).sec = s.sec ∧ (State.faultWindows l t s).power = s.power ∧
    (State.faultWindows l t s).boot = s.boot ∧ (State.faultWindows l t s).dap = s.dap ∧ (State.faultWindows l t s).seqs = s.seqs ∧
    (State.faultWindows l t s).synth = s.synth ∧ (State.faultWindows l t s).wave = s.wave ∧ (State.faultWindows l t s).est = s.est ∧
    (State.faultWindows l t s).fabric = s.fabric ∧ (State.faultWindows l t s).conc = s.conc ∧ (State.faultWindows l t s).bias = s.bias ∧
    (State.faultWindows l t s).cal = s.cal ∧ (State.faultWindows l t s).thermal = s.thermal := by
  unfold State.faultWindows; (try dsimp only)
  all_goals (first | done | simp)

/-- What `State.estTrouble` keeps. -/
@[simp] theorem State.estTrouble_frame (n bit : Nat) (s : State) :
    (State.estTrouble n bit s).pending = s.pending ∧ (State.estTrouble n bit s).ident = s.ident ∧ (State.estTrouble n bit s).time = s.time ∧
    (State.estTrouble n bit s).units = s.units ∧ (State.estTrouble n bit s).desk = s.desk ∧ (State.estTrouble n bit s).parts = s.parts ∧
    (State.estTrouble n bit s).archive = s.archive ∧ (State.estTrouble n bit s).sec = s.sec ∧ (State.estTrouble n bit s).power = s.power ∧
    (State.estTrouble n bit s).boot = s.boot ∧ (State.estTrouble n bit s).dap = s.dap ∧ (State.estTrouble n bit s).seqs = s.seqs ∧
    (State.estTrouble n bit s).synth = s.synth ∧ (State.estTrouble n bit s).wave = s.wave ∧ (State.estTrouble n bit s).readout = s.readout ∧
    (State.estTrouble n bit s).est = s.est ∧ (State.estTrouble n bit s).fabric = s.fabric ∧ (State.estTrouble n bit s).conc = s.conc ∧
    (State.estTrouble n bit s).acq = s.acq ∧ (State.estTrouble n bit s).bias = s.bias ∧ (State.estTrouble n bit s).cal = s.cal ∧
    (State.estTrouble n bit s).thermal = s.thermal := by
  unfold State.estTrouble
  repeat' split
  all_goals (first | done | simp)

/-- What `State.estDrop` keeps. -/
@[simp] theorem State.estDrop_frame (n k : Nat) (s : State) :
    (State.estDrop n k s).pending = s.pending ∧ (State.estDrop n k s).ident = s.ident ∧ (State.estDrop n k s).time = s.time ∧
    (State.estDrop n k s).units = s.units ∧ (State.estDrop n k s).desk = s.desk ∧ (State.estDrop n k s).parts = s.parts ∧
    (State.estDrop n k s).archive = s.archive ∧ (State.estDrop n k s).sec = s.sec ∧ (State.estDrop n k s).power = s.power ∧
    (State.estDrop n k s).boot = s.boot ∧ (State.estDrop n k s).dap = s.dap ∧ (State.estDrop n k s).seqs = s.seqs ∧ (State.estDrop n k s).synth = s.synth ∧
    (State.estDrop n k s).wave = s.wave ∧ (State.estDrop n k s).readout = s.readout ∧ (State.estDrop n k s).fabric = s.fabric ∧
    (State.estDrop n k s).conc = s.conc ∧ (State.estDrop n k s).acq = s.acq ∧ (State.estDrop n k s).bias = s.bias ∧ (State.estDrop n k s).cal = s.cal ∧
    (State.estDrop n k s).thermal = s.thermal := by
  unfold State.estDrop
  repeat' split
  all_goals (first | done | simp)

/-- What `State.estFlush` keeps. -/
@[simp] theorem State.estFlush_frame (n : Nat) (s : State) :
    (State.estFlush n s).pending = s.pending ∧ (State.estFlush n s).ident = s.ident ∧ (State.estFlush n s).time = s.time ∧
    (State.estFlush n s).units = s.units ∧ (State.estFlush n s).desk = s.desk ∧ (State.estFlush n s).parts = s.parts ∧
    (State.estFlush n s).archive = s.archive ∧ (State.estFlush n s).sec = s.sec ∧ (State.estFlush n s).power = s.power ∧ (State.estFlush n s).boot = s.boot ∧
    (State.estFlush n s).dap = s.dap ∧ (State.estFlush n s).seqs = s.seqs ∧ (State.estFlush n s).synth = s.synth ∧ (State.estFlush n s).wave = s.wave ∧
    (State.estFlush n s).readout = s.readout ∧ (State.estFlush n s).fabric = s.fabric ∧ (State.estFlush n s).conc = s.conc ∧ (State.estFlush n s).acq = s.acq ∧
    (State.estFlush n s).bias = s.bias ∧ (State.estFlush n s).cal = s.cal ∧ (State.estFlush n s).thermal = s.thermal := by
  unfold State.estFlush; (try dsimp only)
  all_goals (first | done | simp)

/-- What `State.estHalt` keeps. -/
@[simp] theorem State.estHalt_frame (n : Nat) (s : State) :
    (State.estHalt n s).pending = s.pending ∧ (State.estHalt n s).ident = s.ident ∧ (State.estHalt n s).time = s.time ∧ (State.estHalt n s).units = s.units ∧
    (State.estHalt n s).desk = s.desk ∧ (State.estHalt n s).parts = s.parts ∧ (State.estHalt n s).archive = s.archive ∧ (State.estHalt n s).sec = s.sec ∧
    (State.estHalt n s).power = s.power ∧ (State.estHalt n s).boot = s.boot ∧ (State.estHalt n s).dap = s.dap ∧ (State.estHalt n s).seqs = s.seqs ∧
    (State.estHalt n s).synth = s.synth ∧ (State.estHalt n s).wave = s.wave ∧ (State.estHalt n s).readout = s.readout ∧ (State.estHalt n s).fabric = s.fabric ∧
    (State.estHalt n s).conc = s.conc ∧ (State.estHalt n s).acq = s.acq ∧ (State.estHalt n s).bias = s.bias ∧ (State.estHalt n s).cal = s.cal ∧
    (State.estHalt n s).thermal = s.thermal := by
  unfold State.estHalt
  all_goals (first | done | simp)

/-- What `State.estFault` keeps. -/
@[simp] theorem State.estFault_frame (n c code : Nat) (s : State) :
    (State.estFault n c code s).pending = s.pending ∧ (State.estFault n c code s).ident = s.ident ∧ (State.estFault n c code s).units = s.units ∧
    (State.estFault n c code s).desk = s.desk ∧ (State.estFault n c code s).parts = s.parts ∧ (State.estFault n c code s).archive = s.archive ∧
    (State.estFault n c code s).sec = s.sec ∧ (State.estFault n c code s).power = s.power ∧ (State.estFault n c code s).boot = s.boot ∧
    (State.estFault n c code s).dap = s.dap ∧ (State.estFault n c code s).seqs = s.seqs ∧ (State.estFault n c code s).synth = s.synth ∧
    (State.estFault n c code s).wave = s.wave ∧ (State.estFault n c code s).readout = s.readout ∧ (State.estFault n c code s).fabric = s.fabric ∧
    (State.estFault n c code s).conc = s.conc ∧ (State.estFault n c code s).acq = s.acq ∧ (State.estFault n c code s).bias = s.bias ∧
    (State.estFault n c code s).cal = s.cal ∧ (State.estFault n c code s).thermal = s.thermal := by
  unfold State.estFault; (try dsimp only)
  all_goals (first | done | simp)

/-- What `State.estAdvance` keeps. -/
@[simp] theorem State.estAdvance_frame (n c pc : Nat) (reps : List Rep) (s : State) :
    (State.estAdvance n c pc reps s).pending = s.pending ∧ (State.estAdvance n c pc reps s).ident = s.ident ∧
    (State.estAdvance n c pc reps s).units = s.units ∧ (State.estAdvance n c pc reps s).desk = s.desk ∧ (State.estAdvance n c pc reps s).parts = s.parts ∧
    (State.estAdvance n c pc reps s).archive = s.archive ∧ (State.estAdvance n c pc reps s).sec = s.sec ∧ (State.estAdvance n c pc reps s).power = s.power ∧
    (State.estAdvance n c pc reps s).boot = s.boot ∧ (State.estAdvance n c pc reps s).dap = s.dap ∧ (State.estAdvance n c pc reps s).seqs = s.seqs ∧
    (State.estAdvance n c pc reps s).synth = s.synth ∧ (State.estAdvance n c pc reps s).wave = s.wave ∧ (State.estAdvance n c pc reps s).readout = s.readout ∧
    (State.estAdvance n c pc reps s).fabric = s.fabric ∧ (State.estAdvance n c pc reps s).conc = s.conc ∧ (State.estAdvance n c pc reps s).acq = s.acq ∧
    (State.estAdvance n c pc reps s).bias = s.bias ∧ (State.estAdvance n c pc reps s).cal = s.cal ∧ (State.estAdvance n c pc reps s).thermal = s.thermal := by
  unfold State.estAdvance; (try dsimp only)
  repeat' split
  all_goals (first | done | simp)

/-- What `State.estFall` keeps. -/
@[simp] theorem State.estFall_frame (n c : Nat) (s : State) :
    (State.estFall n c s).pending = s.pending ∧ (State.estFall n c s).ident = s.ident ∧ (State.estFall n c s).units = s.units ∧
    (State.estFall n c s).desk = s.desk ∧ (State.estFall n c s).parts = s.parts ∧ (State.estFall n c s).archive = s.archive ∧
    (State.estFall n c s).sec = s.sec ∧ (State.estFall n c s).power = s.power ∧ (State.estFall n c s).boot = s.boot ∧ (State.estFall n c s).dap = s.dap ∧
    (State.estFall n c s).seqs = s.seqs ∧ (State.estFall n c s).synth = s.synth ∧ (State.estFall n c s).wave = s.wave ∧
    (State.estFall n c s).readout = s.readout ∧ (State.estFall n c s).fabric = s.fabric ∧ (State.estFall n c s).conc = s.conc ∧
    (State.estFall n c s).acq = s.acq ∧ (State.estFall n c s).bias = s.bias ∧ (State.estFall n c s).cal = s.cal ∧ (State.estFall n c s).thermal = s.thermal := by
  unfold State.estFall; (try dsimp only)
  all_goals (first | done | simp)

/-- What `State.estBranch` keeps. -/
@[simp] theorem State.estBranch_frame (n c : Nat) (target : Option Nat) (s : State) :
    (State.estBranch n c target s).pending = s.pending ∧ (State.estBranch n c target s).ident = s.ident ∧ (State.estBranch n c target s).units = s.units ∧
    (State.estBranch n c target s).desk = s.desk ∧ (State.estBranch n c target s).parts = s.parts ∧ (State.estBranch n c target s).archive = s.archive ∧
    (State.estBranch n c target s).sec = s.sec ∧ (State.estBranch n c target s).power = s.power ∧ (State.estBranch n c target s).boot = s.boot ∧
    (State.estBranch n c target s).dap = s.dap ∧ (State.estBranch n c target s).seqs = s.seqs ∧ (State.estBranch n c target s).synth = s.synth ∧
    (State.estBranch n c target s).wave = s.wave ∧ (State.estBranch n c target s).readout = s.readout ∧ (State.estBranch n c target s).fabric = s.fabric ∧
    (State.estBranch n c target s).conc = s.conc ∧ (State.estBranch n c target s).acq = s.acq ∧ (State.estBranch n c target s).bias = s.bias ∧
    (State.estBranch n c target s).cal = s.cal ∧ (State.estBranch n c target s).thermal = s.thermal := by
  unfold State.estBranch; (try dsimp only)
  all_goals (first | done | simp)

/-- What `State.estIssue` keeps. -/
@[simp] theorem State.estIssue_frame (n c : Nat) (s : State) :
    (State.estIssue n c s).pending = s.pending ∧ (State.estIssue n c s).ident = s.ident ∧ (State.estIssue n c s).host = s.host ∧
    (State.estIssue n c s).units = s.units ∧ (State.estIssue n c s).desk = s.desk ∧ (State.estIssue n c s).parts = s.parts ∧
    (State.estIssue n c s).archive = s.archive ∧ (State.estIssue n c s).pages = s.pages ∧ (State.estIssue n c s).ledger = s.ledger ∧
    (State.estIssue n c s).trouble = s.trouble ∧ (State.estIssue n c s).sec = s.sec ∧ (State.estIssue n c s).power = s.power ∧
    (State.estIssue n c s).boot = s.boot ∧ (State.estIssue n c s).dap = s.dap ∧ (State.estIssue n c s).seqs = s.seqs ∧ (State.estIssue n c s).synth = s.synth ∧
    (State.estIssue n c s).wave = s.wave ∧ (State.estIssue n c s).readout = s.readout ∧ (State.estIssue n c s).fabric = s.fabric ∧
    (State.estIssue n c s).conc = s.conc ∧ (State.estIssue n c s).acq = s.acq ∧ (State.estIssue n c s).bias = s.bias ∧ (State.estIssue n c s).cal = s.cal ∧
    (State.estIssue n c s).thermal = s.thermal ∧ (State.estIssue n c s).free = s.free := by
  unfold State.estIssue; (try dsimp only)
  all_goals (first | done | simp)

/-- What `State.estV` keeps. -/
@[simp] theorem State.estV_frame (n r k : Nat) (f : Est → Vector (BitVec 32) 16) (s : State) :
    (State.estV n r k f s).pending = s.pending ∧ (State.estV n r k f s).ident = s.ident ∧ (State.estV n r k f s).units = s.units ∧
    (State.estV n r k f s).desk = s.desk ∧ (State.estV n r k f s).parts = s.parts ∧ (State.estV n r k f s).archive = s.archive ∧
    (State.estV n r k f s).sec = s.sec ∧ (State.estV n r k f s).power = s.power ∧ (State.estV n r k f s).boot = s.boot ∧ (State.estV n r k f s).dap = s.dap ∧
    (State.estV n r k f s).seqs = s.seqs ∧ (State.estV n r k f s).synth = s.synth ∧ (State.estV n r k f s).wave = s.wave ∧
    (State.estV n r k f s).readout = s.readout ∧ (State.estV n r k f s).fabric = s.fabric ∧ (State.estV n r k f s).conc = s.conc ∧
    (State.estV n r k f s).acq = s.acq ∧ (State.estV n r k f s).bias = s.bias ∧ (State.estV n r k f s).cal = s.cal ∧ (State.estV n r k f s).thermal = s.thermal := by
  unfold State.estV; (try dsimp only)
  all_goals (first | done | simp)

/-- What `State.estX` keeps. -/
@[simp] theorem State.estX_frame (n r k : Nat) (f : Est → Word) (s : State) :
    (State.estX n r k f s).pending = s.pending ∧ (State.estX n r k f s).ident = s.ident ∧ (State.estX n r k f s).units = s.units ∧
    (State.estX n r k f s).desk = s.desk ∧ (State.estX n r k f s).parts = s.parts ∧ (State.estX n r k f s).archive = s.archive ∧
    (State.estX n r k f s).sec = s.sec ∧ (State.estX n r k f s).power = s.power ∧ (State.estX n r k f s).boot = s.boot ∧ (State.estX n r k f s).dap = s.dap ∧
    (State.estX n r k f s).seqs = s.seqs ∧ (State.estX n r k f s).synth = s.synth ∧ (State.estX n r k f s).wave = s.wave ∧
    (State.estX n r k f s).readout = s.readout ∧ (State.estX n r k f s).fabric = s.fabric ∧ (State.estX n r k f s).conc = s.conc ∧
    (State.estX n r k f s).acq = s.acq ∧ (State.estX n r k f s).bias = s.bias ∧ (State.estX n r k f s).cal = s.cal ∧ (State.estX n r k f s).thermal = s.thermal := by
  unfold State.estX; (try dsimp only)
  all_goals (first | done | simp)

/-- What `State.estAccess` keeps. -/
@[simp] theorem State.estAccess_frame (n : Nat) (m : Access) (align : Nat) (store : Bool) (f : Nat → Nat → Est → Est) (s : State) :
    (State.estAccess n m align store f s).pending = s.pending ∧ (State.estAccess n m align store f s).ident = s.ident ∧
    (State.estAccess n m align store f s).units = s.units ∧ (State.estAccess n m align store f s).desk = s.desk ∧
    (State.estAccess n m align store f s).parts = s.parts ∧ (State.estAccess n m align store f s).archive = s.archive ∧
    (State.estAccess n m align store f s).sec = s.sec ∧ (State.estAccess n m align store f s).power = s.power ∧
    (State.estAccess n m align store f s).boot = s.boot ∧ (State.estAccess n m align store f s).dap = s.dap ∧
    (State.estAccess n m align store f s).seqs = s.seqs ∧ (State.estAccess n m align store f s).synth = s.synth ∧
    (State.estAccess n m align store f s).wave = s.wave ∧ (State.estAccess n m align store f s).readout = s.readout ∧
    (State.estAccess n m align store f s).fabric = s.fabric ∧ (State.estAccess n m align store f s).conc = s.conc ∧
    (State.estAccess n m align store f s).acq = s.acq ∧ (State.estAccess n m align store f s).bias = s.bias ∧
    (State.estAccess n m align store f s).cal = s.cal ∧ (State.estAccess n m align store f s).thermal = s.thermal := by
  unfold State.estAccess; (try dsimp only)
  repeat' split
  all_goals (first | done | simp)

/-- What `State.estTake` keeps. -/
@[simp] theorem State.estTake_frame (n b c : Nat) (save : Bool) (s : State) :
    (State.estTake n b c save s).pending = s.pending ∧ (State.estTake n b c save s).ident = s.ident ∧ (State.estTake n b c save s).host = s.host ∧
    (State.estTake n b c save s).units = s.units ∧ (State.estTake n b c save s).desk = s.desk ∧ (State.estTake n b c save s).parts = s.parts ∧
    (State.estTake n b c save s).archive = s.archive ∧ (State.estTake n b c save s).pages = s.pages ∧ (State.estTake n b c save s).ledger = s.ledger ∧
    (State.estTake n b c save s).trouble = s.trouble ∧ (State.estTake n b c save s).sec = s.sec ∧ (State.estTake n b c save s).power = s.power ∧
    (State.estTake n b c save s).boot = s.boot ∧ (State.estTake n b c save s).dap = s.dap ∧ (State.estTake n b c save s).seqs = s.seqs ∧
    (State.estTake n b c save s).synth = s.synth ∧ (State.estTake n b c save s).wave = s.wave ∧ (State.estTake n b c save s).readout = s.readout ∧
    (State.estTake n b c save s).fabric = s.fabric ∧ (State.estTake n b c save s).conc = s.conc ∧ (State.estTake n b c save s).acq = s.acq ∧
    (State.estTake n b c save s).bias = s.bias ∧ (State.estTake n b c save s).cal = s.cal ∧ (State.estTake n b c save s).thermal = s.thermal ∧
    (State.estTake n b c save s).free = s.free := by
  unfold State.estTake; (try dsimp only)
  repeat' split
  all_goals (first | done | simp)

/-- What `State.estPost` keeps. -/
@[simp] theorem State.estPost_frame (n p xs : Nat) (s : State) :
    (State.estPost n p xs s).pending = s.pending ∧ (State.estPost n p xs s).ident = s.ident ∧ (State.estPost n p xs s).time = s.time ∧
    (State.estPost n p xs s).units = s.units ∧ (State.estPost n p xs s).desk = s.desk ∧ (State.estPost n p xs s).parts = s.parts ∧
    (State.estPost n p xs s).archive = s.archive ∧ (State.estPost n p xs s).sec = s.sec ∧ (State.estPost n p xs s).power = s.power ∧
    (State.estPost n p xs s).boot = s.boot ∧ (State.estPost n p xs s).dap = s.dap ∧ (State.estPost n p xs s).seqs = s.seqs ∧
    (State.estPost n p xs s).synth = s.synth ∧ (State.estPost n p xs s).wave = s.wave ∧ (State.estPost n p xs s).readout = s.readout ∧
    (State.estPost n p xs s).conc = s.conc ∧ (State.estPost n p xs s).bias = s.bias ∧ (State.estPost n p xs s).cal = s.cal ∧
    (State.estPost n p xs s).thermal = s.thermal := by
  unfold State.estPost; (try dsimp only)
  repeat' split
  all_goals (first | done | simp)

/-- What `State.doEstNop` keeps. -/
@[simp] theorem State.doEstNop_frame (n : Nat) (s : State) :
    (State.doEstNop n s).pending = s.pending ∧ (State.doEstNop n s).ident = s.ident ∧ (State.doEstNop n s).units = s.units ∧
    (State.doEstNop n s).desk = s.desk ∧ (State.doEstNop n s).parts = s.parts ∧ (State.doEstNop n s).archive = s.archive ∧ (State.doEstNop n s).sec = s.sec ∧
    (State.doEstNop n s).power = s.power ∧ (State.doEstNop n s).boot = s.boot ∧ (State.doEstNop n s).dap = s.dap ∧ (State.doEstNop n s).seqs = s.seqs ∧
    (State.doEstNop n s).synth = s.synth ∧ (State.doEstNop n s).wave = s.wave ∧ (State.doEstNop n s).readout = s.readout ∧
    (State.doEstNop n s).fabric = s.fabric ∧ (State.doEstNop n s).conc = s.conc ∧ (State.doEstNop n s).acq = s.acq ∧ (State.doEstNop n s).bias = s.bias ∧
    (State.doEstNop n s).cal = s.cal ∧ (State.doEstNop n s).thermal = s.thermal := by
  unfold State.doEstNop; (try dsimp only)
  all_goals (first | done | simp)

/-- What `State.doLanes2` keeps. -/
@[simp] theorem State.doLanes2_frame (n vd va vb : Nat) (f : F32 → F32 → F32) (s : State) :
    (State.doLanes2 n vd va vb f s).pending = s.pending ∧ (State.doLanes2 n vd va vb f s).ident = s.ident ∧ (State.doLanes2 n vd va vb f s).units = s.units ∧
    (State.doLanes2 n vd va vb f s).desk = s.desk ∧ (State.doLanes2 n vd va vb f s).parts = s.parts ∧ (State.doLanes2 n vd va vb f s).archive = s.archive ∧
    (State.doLanes2 n vd va vb f s).sec = s.sec ∧ (State.doLanes2 n vd va vb f s).power = s.power ∧ (State.doLanes2 n vd va vb f s).boot = s.boot ∧
    (State.doLanes2 n vd va vb f s).dap = s.dap ∧ (State.doLanes2 n vd va vb f s).seqs = s.seqs ∧ (State.doLanes2 n vd va vb f s).synth = s.synth ∧
    (State.doLanes2 n vd va vb f s).wave = s.wave ∧ (State.doLanes2 n vd va vb f s).readout = s.readout ∧ (State.doLanes2 n vd va vb f s).fabric = s.fabric ∧
    (State.doLanes2 n vd va vb f s).conc = s.conc ∧ (State.doLanes2 n vd va vb f s).acq = s.acq ∧ (State.doLanes2 n vd va vb f s).bias = s.bias ∧
    (State.doLanes2 n vd va vb f s).cal = s.cal ∧ (State.doLanes2 n vd va vb f s).thermal = s.thermal := by
  unfold State.doLanes2
  all_goals (first | done | simp)

/-- What `State.doLanes3` keeps. -/
@[simp] theorem State.doLanes3_frame (n vd va vb vc : Nat) (f : F32 → F32 → F32 → F32) (s : State) :
    (State.doLanes3 n vd va vb vc f s).pending = s.pending ∧ (State.doLanes3 n vd va vb vc f s).ident = s.ident ∧
    (State.doLanes3 n vd va vb vc f s).units = s.units ∧ (State.doLanes3 n vd va vb vc f s).desk = s.desk ∧
    (State.doLanes3 n vd va vb vc f s).parts = s.parts ∧ (State.doLanes3 n vd va vb vc f s).archive = s.archive ∧
    (State.doLanes3 n vd va vb vc f s).sec = s.sec ∧ (State.doLanes3 n vd va vb vc f s).power = s.power ∧ (State.doLanes3 n vd va vb vc f s).boot = s.boot ∧
    (State.doLanes3 n vd va vb vc f s).dap = s.dap ∧ (State.doLanes3 n vd va vb vc f s).seqs = s.seqs ∧ (State.doLanes3 n vd va vb vc f s).synth = s.synth ∧
    (State.doLanes3 n vd va vb vc f s).wave = s.wave ∧ (State.doLanes3 n vd va vb vc f s).readout = s.readout ∧
    (State.doLanes3 n vd va vb vc f s).fabric = s.fabric ∧ (State.doLanes3 n vd va vb vc f s).conc = s.conc ∧ (State.doLanes3 n vd va vb vc f s).acq = s.acq ∧
    (State.doLanes3 n vd va vb vc f s).bias = s.bias ∧ (State.doLanes3 n vd va vb vc f s).cal = s.cal ∧ (State.doLanes3 n vd va vb vc f s).thermal = s.thermal := by
  unfold State.doLanes3
  all_goals (first | done | simp)

/-- What `State.doRed` keeps. -/
@[simp] theorem State.doRed_frame (n xd va xm : Nat) (better : F32 → F32 → Bool) (s : State) :
    (State.doRed n xd va xm better s).pending = s.pending ∧ (State.doRed n xd va xm better s).ident = s.ident ∧
    (State.doRed n xd va xm better s).units = s.units ∧ (State.doRed n xd va xm better s).desk = s.desk ∧ (State.doRed n xd va xm better s).parts = s.parts ∧
    (State.doRed n xd va xm better s).archive = s.archive ∧ (State.doRed n xd va xm better s).sec = s.sec ∧ (State.doRed n xd va xm better s).power = s.power ∧
    (State.doRed n xd va xm better s).boot = s.boot ∧ (State.doRed n xd va xm better s).dap = s.dap ∧ (State.doRed n xd va xm better s).seqs = s.seqs ∧
    (State.doRed n xd va xm better s).synth = s.synth ∧ (State.doRed n xd va xm better s).wave = s.wave ∧
    (State.doRed n xd va xm better s).readout = s.readout ∧ (State.doRed n xd va xm better s).fabric = s.fabric ∧
    (State.doRed n xd va xm better s).conc = s.conc ∧ (State.doRed n xd va xm better s).acq = s.acq ∧ (State.doRed n xd va xm better s).bias = s.bias ∧
    (State.doRed n xd va xm better s).cal = s.cal ∧ (State.doRed n xd va xm better s).thermal = s.thermal := by
  unfold State.doRed
  all_goals (first | done | simp)

/-- What `State.doVsum` keeps. -/
@[simp] theorem State.doVsum_frame (n xd va xm : Nat) (s : State) :
    (State.doVsum n xd va xm s).pending = s.pending ∧ (State.doVsum n xd va xm s).ident = s.ident ∧ (State.doVsum n xd va xm s).units = s.units ∧
    (State.doVsum n xd va xm s).desk = s.desk ∧ (State.doVsum n xd va xm s).parts = s.parts ∧ (State.doVsum n xd va xm s).archive = s.archive ∧
    (State.doVsum n xd va xm s).sec = s.sec ∧ (State.doVsum n xd va xm s).power = s.power ∧ (State.doVsum n xd va xm s).boot = s.boot ∧
    (State.doVsum n xd va xm s).dap = s.dap ∧ (State.doVsum n xd va xm s).seqs = s.seqs ∧ (State.doVsum n xd va xm s).synth = s.synth ∧
    (State.doVsum n xd va xm s).wave = s.wave ∧ (State.doVsum n xd va xm s).readout = s.readout ∧ (State.doVsum n xd va xm s).fabric = s.fabric ∧
    (State.doVsum n xd va xm s).conc = s.conc ∧ (State.doVsum n xd va xm s).acq = s.acq ∧ (State.doVsum n xd va xm s).bias = s.bias ∧
    (State.doVsum n xd va xm s).cal = s.cal ∧ (State.doVsum n xd va xm s).thermal = s.thermal := by
  unfold State.doVsum
  all_goals (first | done | simp)

/-- What `State.doVbc` keeps. -/
@[simp] theorem State.doVbc_frame (n vd xs : Nat) (half : Bool) (s : State) :
    (State.doVbc n vd xs half s).pending = s.pending ∧ (State.doVbc n vd xs half s).ident = s.ident ∧ (State.doVbc n vd xs half s).units = s.units ∧
    (State.doVbc n vd xs half s).desk = s.desk ∧ (State.doVbc n vd xs half s).parts = s.parts ∧ (State.doVbc n vd xs half s).archive = s.archive ∧
    (State.doVbc n vd xs half s).sec = s.sec ∧ (State.doVbc n vd xs half s).power = s.power ∧ (State.doVbc n vd xs half s).boot = s.boot ∧
    (State.doVbc n vd xs half s).dap = s.dap ∧ (State.doVbc n vd xs half s).seqs = s.seqs ∧ (State.doVbc n vd xs half s).synth = s.synth ∧
    (State.doVbc n vd xs half s).wave = s.wave ∧ (State.doVbc n vd xs half s).readout = s.readout ∧ (State.doVbc n vd xs half s).fabric = s.fabric ∧
    (State.doVbc n vd xs half s).conc = s.conc ∧ (State.doVbc n vd xs half s).acq = s.acq ∧ (State.doVbc n vd xs half s).bias = s.bias ∧
    (State.doVbc n vd xs half s).cal = s.cal ∧ (State.doVbc n vd xs half s).thermal = s.thermal := by
  unfold State.doVbc
  repeat' split
  all_goals (first | done | simp)

/-- What `State.doMovx` keeps. -/
@[simp] theorem State.doMovx_frame (n xd va lane : Nat) (s : State) :
    (State.doMovx n xd va lane s).pending = s.pending ∧ (State.doMovx n xd va lane s).ident = s.ident ∧ (State.doMovx n xd va lane s).units = s.units ∧
    (State.doMovx n xd va lane s).desk = s.desk ∧ (State.doMovx n xd va lane s).parts = s.parts ∧ (State.doMovx n xd va lane s).archive = s.archive ∧
    (State.doMovx n xd va lane s).sec = s.sec ∧ (State.doMovx n xd va lane s).power = s.power ∧ (State.doMovx n xd va lane s).boot = s.boot ∧
    (State.doMovx n xd va lane s).dap = s.dap ∧ (State.doMovx n xd va lane s).seqs = s.seqs ∧ (State.doMovx n xd va lane s).synth = s.synth ∧
    (State.doMovx n xd va lane s).wave = s.wave ∧ (State.doMovx n xd va lane s).readout = s.readout ∧ (State.doMovx n xd va lane s).fabric = s.fabric ∧
    (State.doMovx n xd va lane s).conc = s.conc ∧ (State.doMovx n xd va lane s).acq = s.acq ∧ (State.doMovx n xd va lane s).bias = s.bias ∧
    (State.doMovx n xd va lane s).cal = s.cal ∧ (State.doMovx n xd va lane s).thermal = s.thermal := by
  unfold State.doMovx
  all_goals (first | done | simp)

/-- What `State.doVmov` keeps. -/
@[simp] theorem State.doVmov_frame (n vd va : Nat) (s : State) :
    (State.doVmov n vd va s).pending = s.pending ∧ (State.doVmov n vd va s).ident = s.ident ∧ (State.doVmov n vd va s).units = s.units ∧
    (State.doVmov n vd va s).desk = s.desk ∧ (State.doVmov n vd va s).parts = s.parts ∧ (State.doVmov n vd va s).archive = s.archive ∧
    (State.doVmov n vd va s).sec = s.sec ∧ (State.doVmov n vd va s).power = s.power ∧ (State.doVmov n vd va s).boot = s.boot ∧
    (State.doVmov n vd va s).dap = s.dap ∧ (State.doVmov n vd va s).seqs = s.seqs ∧ (State.doVmov n vd va s).synth = s.synth ∧
    (State.doVmov n vd va s).wave = s.wave ∧ (State.doVmov n vd va s).readout = s.readout ∧ (State.doVmov n vd va s).fabric = s.fabric ∧
    (State.doVmov n vd va s).conc = s.conc ∧ (State.doVmov n vd va s).acq = s.acq ∧ (State.doVmov n vd va s).bias = s.bias ∧
    (State.doVmov n vd va s).cal = s.cal ∧ (State.doVmov n vd va s).thermal = s.thermal := by
  unfold State.doVmov
  all_goals (first | done | simp)

/-- What `State.doXop` keeps. -/
@[simp] theorem State.doXop_frame (n xd xa xb fn : Nat) (s : State) :
    (State.doXop n xd xa xb fn s).pending = s.pending ∧ (State.doXop n xd xa xb fn s).ident = s.ident ∧ (State.doXop n xd xa xb fn s).units = s.units ∧
    (State.doXop n xd xa xb fn s).desk = s.desk ∧ (State.doXop n xd xa xb fn s).parts = s.parts ∧ (State.doXop n xd xa xb fn s).archive = s.archive ∧
    (State.doXop n xd xa xb fn s).sec = s.sec ∧ (State.doXop n xd xa xb fn s).power = s.power ∧ (State.doXop n xd xa xb fn s).boot = s.boot ∧
    (State.doXop n xd xa xb fn s).dap = s.dap ∧ (State.doXop n xd xa xb fn s).seqs = s.seqs ∧ (State.doXop n xd xa xb fn s).synth = s.synth ∧
    (State.doXop n xd xa xb fn s).wave = s.wave ∧ (State.doXop n xd xa xb fn s).readout = s.readout ∧ (State.doXop n xd xa xb fn s).fabric = s.fabric ∧
    (State.doXop n xd xa xb fn s).conc = s.conc ∧ (State.doXop n xd xa xb fn s).acq = s.acq ∧ (State.doXop n xd xa xb fn s).bias = s.bias ∧
    (State.doXop n xd xa xb fn s).cal = s.cal ∧ (State.doXop n xd xa xb fn s).thermal = s.thermal := by
  unfold State.doXop
  all_goals (first | done | simp)

/-- What `State.doXopi` keeps. -/
@[simp] theorem State.doXopi_frame (n xd xa fn : Nat) (imm : Word) (s : State) :
    (State.doXopi n xd xa fn imm s).pending = s.pending ∧ (State.doXopi n xd xa fn imm s).ident = s.ident ∧ (State.doXopi n xd xa fn imm s).units = s.units ∧
    (State.doXopi n xd xa fn imm s).desk = s.desk ∧ (State.doXopi n xd xa fn imm s).parts = s.parts ∧ (State.doXopi n xd xa fn imm s).archive = s.archive ∧
    (State.doXopi n xd xa fn imm s).sec = s.sec ∧ (State.doXopi n xd xa fn imm s).power = s.power ∧ (State.doXopi n xd xa fn imm s).boot = s.boot ∧
    (State.doXopi n xd xa fn imm s).dap = s.dap ∧ (State.doXopi n xd xa fn imm s).seqs = s.seqs ∧ (State.doXopi n xd xa fn imm s).synth = s.synth ∧
    (State.doXopi n xd xa fn imm s).wave = s.wave ∧ (State.doXopi n xd xa fn imm s).readout = s.readout ∧ (State.doXopi n xd xa fn imm s).fabric = s.fabric ∧
    (State.doXopi n xd xa fn imm s).conc = s.conc ∧ (State.doXopi n xd xa fn imm s).acq = s.acq ∧ (State.doXopi n xd xa fn imm s).bias = s.bias ∧
    (State.doXopi n xd xa fn imm s).cal = s.cal ∧ (State.doXopi n xd xa fn imm s).thermal = s.thermal := by
  unfold State.doXopi
  all_goals (first | done | simp)

/-- What `State.doLiq` keeps. -/
@[simp] theorem State.doLiq_frame (n xd pos imm : Nat) (s : State) :
    (State.doLiq n xd pos imm s).pending = s.pending ∧ (State.doLiq n xd pos imm s).ident = s.ident ∧ (State.doLiq n xd pos imm s).units = s.units ∧
    (State.doLiq n xd pos imm s).desk = s.desk ∧ (State.doLiq n xd pos imm s).parts = s.parts ∧ (State.doLiq n xd pos imm s).archive = s.archive ∧
    (State.doLiq n xd pos imm s).sec = s.sec ∧ (State.doLiq n xd pos imm s).power = s.power ∧ (State.doLiq n xd pos imm s).boot = s.boot ∧
    (State.doLiq n xd pos imm s).dap = s.dap ∧ (State.doLiq n xd pos imm s).seqs = s.seqs ∧ (State.doLiq n xd pos imm s).synth = s.synth ∧
    (State.doLiq n xd pos imm s).wave = s.wave ∧ (State.doLiq n xd pos imm s).readout = s.readout ∧ (State.doLiq n xd pos imm s).fabric = s.fabric ∧
    (State.doLiq n xd pos imm s).conc = s.conc ∧ (State.doLiq n xd pos imm s).acq = s.acq ∧ (State.doLiq n xd pos imm s).bias = s.bias ∧
    (State.doLiq n xd pos imm s).cal = s.cal ∧ (State.doLiq n xd pos imm s).thermal = s.thermal := by
  unfold State.doLiq
  all_goals (first | done | simp)

/-- What `State.estA` keeps. -/
@[simp] theorem State.estA_frame (n ad : Nat) (f : Est → BitVec 17) (s : State) :
    (State.estA n ad f s).pending = s.pending ∧ (State.estA n ad f s).ident = s.ident ∧ (State.estA n ad f s).units = s.units ∧
    (State.estA n ad f s).desk = s.desk ∧ (State.estA n ad f s).parts = s.parts ∧ (State.estA n ad f s).archive = s.archive ∧
    (State.estA n ad f s).sec = s.sec ∧ (State.estA n ad f s).power = s.power ∧ (State.estA n ad f s).boot = s.boot ∧ (State.estA n ad f s).dap = s.dap ∧
    (State.estA n ad f s).seqs = s.seqs ∧ (State.estA n ad f s).synth = s.synth ∧ (State.estA n ad f s).wave = s.wave ∧
    (State.estA n ad f s).readout = s.readout ∧ (State.estA n ad f s).fabric = s.fabric ∧ (State.estA n ad f s).conc = s.conc ∧
    (State.estA n ad f s).acq = s.acq ∧ (State.estA n ad f s).bias = s.bias ∧ (State.estA n ad f s).cal = s.cal ∧ (State.estA n ad f s).thermal = s.thermal := by
  unfold State.estA; (try dsimp only)
  all_goals (first | done | simp)

/-- What `State.doAadd` keeps. -/
@[simp] theorem State.doAadd_frame (n ad as_ : Nat) (imm : Int) (s : State) :
    (State.doAadd n ad as_ imm s).pending = s.pending ∧ (State.doAadd n ad as_ imm s).ident = s.ident ∧ (State.doAadd n ad as_ imm s).units = s.units ∧
    (State.doAadd n ad as_ imm s).desk = s.desk ∧ (State.doAadd n ad as_ imm s).parts = s.parts ∧ (State.doAadd n ad as_ imm s).archive = s.archive ∧
    (State.doAadd n ad as_ imm s).sec = s.sec ∧ (State.doAadd n ad as_ imm s).power = s.power ∧ (State.doAadd n ad as_ imm s).boot = s.boot ∧
    (State.doAadd n ad as_ imm s).dap = s.dap ∧ (State.doAadd n ad as_ imm s).seqs = s.seqs ∧ (State.doAadd n ad as_ imm s).synth = s.synth ∧
    (State.doAadd n ad as_ imm s).wave = s.wave ∧ (State.doAadd n ad as_ imm s).readout = s.readout ∧ (State.doAadd n ad as_ imm s).fabric = s.fabric ∧
    (State.doAadd n ad as_ imm s).conc = s.conc ∧ (State.doAadd n ad as_ imm s).acq = s.acq ∧ (State.doAadd n ad as_ imm s).bias = s.bias ∧
    (State.doAadd n ad as_ imm s).cal = s.cal ∧ (State.doAadd n ad as_ imm s).thermal = s.thermal := by
  unfold State.doAadd
  all_goals (first | done | simp)

/-- What `State.doAmov` keeps. -/
@[simp] theorem State.doAmov_frame (n ad xs : Nat) (s : State) :
    (State.doAmov n ad xs s).pending = s.pending ∧ (State.doAmov n ad xs s).ident = s.ident ∧ (State.doAmov n ad xs s).units = s.units ∧
    (State.doAmov n ad xs s).desk = s.desk ∧ (State.doAmov n ad xs s).parts = s.parts ∧ (State.doAmov n ad xs s).archive = s.archive ∧
    (State.doAmov n ad xs s).sec = s.sec ∧ (State.doAmov n ad xs s).power = s.power ∧ (State.doAmov n ad xs s).boot = s.boot ∧
    (State.doAmov n ad xs s).dap = s.dap ∧ (State.doAmov n ad xs s).seqs = s.seqs ∧ (State.doAmov n ad xs s).synth = s.synth ∧
    (State.doAmov n ad xs s).wave = s.wave ∧ (State.doAmov n ad xs s).readout = s.readout ∧ (State.doAmov n ad xs s).fabric = s.fabric ∧
    (State.doAmov n ad xs s).conc = s.conc ∧ (State.doAmov n ad xs s).acq = s.acq ∧ (State.doAmov n ad xs s).bias = s.bias ∧
    (State.doAmov n ad xs s).cal = s.cal ∧ (State.doAmov n ad xs s).thermal = s.thermal := by
  unfold State.doAmov
  all_goals (first | done | simp)

/-- What `State.doVld` keeps. -/
@[simp] theorem State.doVld_frame (n r : Nat) (m : Access) (s : State) :
    (State.doVld n r m s).pending = s.pending ∧ (State.doVld n r m s).ident = s.ident ∧ (State.doVld n r m s).units = s.units ∧
    (State.doVld n r m s).desk = s.desk ∧ (State.doVld n r m s).parts = s.parts ∧ (State.doVld n r m s).archive = s.archive ∧
    (State.doVld n r m s).sec = s.sec ∧ (State.doVld n r m s).power = s.power ∧ (State.doVld n r m s).boot = s.boot ∧ (State.doVld n r m s).dap = s.dap ∧
    (State.doVld n r m s).seqs = s.seqs ∧ (State.doVld n r m s).synth = s.synth ∧ (State.doVld n r m s).wave = s.wave ∧
    (State.doVld n r m s).readout = s.readout ∧ (State.doVld n r m s).fabric = s.fabric ∧ (State.doVld n r m s).conc = s.conc ∧
    (State.doVld n r m s).acq = s.acq ∧ (State.doVld n r m s).bias = s.bias ∧ (State.doVld n r m s).cal = s.cal ∧ (State.doVld n r m s).thermal = s.thermal := by
  unfold State.doVld
  all_goals (first | done | simp)

/-- What `State.doVst` keeps. -/
@[simp] theorem State.doVst_frame (n r : Nat) (m : Access) (s : State) :
    (State.doVst n r m s).pending = s.pending ∧ (State.doVst n r m s).ident = s.ident ∧ (State.doVst n r m s).units = s.units ∧
    (State.doVst n r m s).desk = s.desk ∧ (State.doVst n r m s).parts = s.parts ∧ (State.doVst n r m s).archive = s.archive ∧
    (State.doVst n r m s).sec = s.sec ∧ (State.doVst n r m s).power = s.power ∧ (State.doVst n r m s).boot = s.boot ∧ (State.doVst n r m s).dap = s.dap ∧
    (State.doVst n r m s).seqs = s.seqs ∧ (State.doVst n r m s).synth = s.synth ∧ (State.doVst n r m s).wave = s.wave ∧
    (State.doVst n r m s).readout = s.readout ∧ (State.doVst n r m s).fabric = s.fabric ∧ (State.doVst n r m s).conc = s.conc ∧
    (State.doVst n r m s).acq = s.acq ∧ (State.doVst n r m s).bias = s.bias ∧ (State.doVst n r m s).cal = s.cal ∧ (State.doVst n r m s).thermal = s.thermal := by
  unfold State.doVst
  all_goals (first | done | simp)

/-- What `State.doXld` keeps. -/
@[simp] theorem State.doXld_frame (n r : Nat) (m : Access) (s : State) :
    (State.doXld n r m s).pending = s.pending ∧ (State.doXld n r m s).ident = s.ident ∧ (State.doXld n r m s).units = s.units ∧
    (State.doXld n r m s).desk = s.desk ∧ (State.doXld n r m s).parts = s.parts ∧ (State.doXld n r m s).archive = s.archive ∧
    (State.doXld n r m s).sec = s.sec ∧ (State.doXld n r m s).power = s.power ∧ (State.doXld n r m s).boot = s.boot ∧ (State.doXld n r m s).dap = s.dap ∧
    (State.doXld n r m s).seqs = s.seqs ∧ (State.doXld n r m s).synth = s.synth ∧ (State.doXld n r m s).wave = s.wave ∧
    (State.doXld n r m s).readout = s.readout ∧ (State.doXld n r m s).fabric = s.fabric ∧ (State.doXld n r m s).conc = s.conc ∧
    (State.doXld n r m s).acq = s.acq ∧ (State.doXld n r m s).bias = s.bias ∧ (State.doXld n r m s).cal = s.cal ∧ (State.doXld n r m s).thermal = s.thermal := by
  unfold State.doXld
  all_goals (first | done | simp)

/-- What `State.doXst` keeps. -/
@[simp] theorem State.doXst_frame (n r : Nat) (m : Access) (s : State) :
    (State.doXst n r m s).pending = s.pending ∧ (State.doXst n r m s).ident = s.ident ∧ (State.doXst n r m s).units = s.units ∧
    (State.doXst n r m s).desk = s.desk ∧ (State.doXst n r m s).parts = s.parts ∧ (State.doXst n r m s).archive = s.archive ∧
    (State.doXst n r m s).sec = s.sec ∧ (State.doXst n r m s).power = s.power ∧ (State.doXst n r m s).boot = s.boot ∧ (State.doXst n r m s).dap = s.dap ∧
    (State.doXst n r m s).seqs = s.seqs ∧ (State.doXst n r m s).synth = s.synth ∧ (State.doXst n r m s).wave = s.wave ∧
    (State.doXst n r m s).readout = s.readout ∧ (State.doXst n r m s).fabric = s.fabric ∧ (State.doXst n r m s).conc = s.conc ∧
    (State.doXst n r m s).acq = s.acq ∧ (State.doXst n r m s).bias = s.bias ∧ (State.doXst n r m s).cal = s.cal ∧ (State.doXst n r m s).thermal = s.thermal := by
  unfold State.doXst
  all_goals (first | done | simp)

/-- What `State.doVldb` keeps. -/
@[simp] theorem State.doVldb_frame (n r : Nat) (m : Access) (s : State) :
    (State.doVldb n r m s).pending = s.pending ∧ (State.doVldb n r m s).ident = s.ident ∧ (State.doVldb n r m s).units = s.units ∧
    (State.doVldb n r m s).desk = s.desk ∧ (State.doVldb n r m s).parts = s.parts ∧ (State.doVldb n r m s).archive = s.archive ∧
    (State.doVldb n r m s).sec = s.sec ∧ (State.doVldb n r m s).power = s.power ∧ (State.doVldb n r m s).boot = s.boot ∧ (State.doVldb n r m s).dap = s.dap ∧
    (State.doVldb n r m s).seqs = s.seqs ∧ (State.doVldb n r m s).synth = s.synth ∧ (State.doVldb n r m s).wave = s.wave ∧
    (State.doVldb n r m s).readout = s.readout ∧ (State.doVldb n r m s).fabric = s.fabric ∧ (State.doVldb n r m s).conc = s.conc ∧
    (State.doVldb n r m s).acq = s.acq ∧ (State.doVldb n r m s).bias = s.bias ∧ (State.doVldb n r m s).cal = s.cal ∧ (State.doVldb n r m s).thermal = s.thermal := by
  unfold State.doVldb
  all_goals (first | done | simp)

/-- What `State.doBranch` keeps. -/
@[simp] theorem State.doBranch_frame (n : Nat) (target : Est → Option Nat) (s : State) :
    (State.doBranch n target s).pending = s.pending ∧ (State.doBranch n target s).ident = s.ident ∧ (State.doBranch n target s).units = s.units ∧
    (State.doBranch n target s).desk = s.desk ∧ (State.doBranch n target s).parts = s.parts ∧ (State.doBranch n target s).archive = s.archive ∧
    (State.doBranch n target s).sec = s.sec ∧ (State.doBranch n target s).power = s.power ∧ (State.doBranch n target s).boot = s.boot ∧
    (State.doBranch n target s).dap = s.dap ∧ (State.doBranch n target s).seqs = s.seqs ∧ (State.doBranch n target s).synth = s.synth ∧
    (State.doBranch n target s).wave = s.wave ∧ (State.doBranch n target s).readout = s.readout ∧ (State.doBranch n target s).fabric = s.fabric ∧
    (State.doBranch n target s).conc = s.conc ∧ (State.doBranch n target s).acq = s.acq ∧ (State.doBranch n target s).bias = s.bias ∧
    (State.doBranch n target s).cal = s.cal ∧ (State.doBranch n target s).thermal = s.thermal := by
  unfold State.doBranch; (try dsimp only)
  all_goals (first | done | simp)

/-- What `State.doEstBr` keeps. -/
@[simp] theorem State.doEstBr_frame (n xc cond tgt : Nat) (s : State) :
    (State.doEstBr n xc cond tgt s).pending = s.pending ∧ (State.doEstBr n xc cond tgt s).ident = s.ident ∧ (State.doEstBr n xc cond tgt s).units = s.units ∧
    (State.doEstBr n xc cond tgt s).desk = s.desk ∧ (State.doEstBr n xc cond tgt s).parts = s.parts ∧ (State.doEstBr n xc cond tgt s).archive = s.archive ∧
    (State.doEstBr n xc cond tgt s).sec = s.sec ∧ (State.doEstBr n xc cond tgt s).power = s.power ∧ (State.doEstBr n xc cond tgt s).boot = s.boot ∧
    (State.doEstBr n xc cond tgt s).dap = s.dap ∧ (State.doEstBr n xc cond tgt s).seqs = s.seqs ∧ (State.doEstBr n xc cond tgt s).synth = s.synth ∧
    (State.doEstBr n xc cond tgt s).wave = s.wave ∧ (State.doEstBr n xc cond tgt s).readout = s.readout ∧ (State.doEstBr n xc cond tgt s).fabric = s.fabric ∧
    (State.doEstBr n xc cond tgt s).conc = s.conc ∧ (State.doEstBr n xc cond tgt s).acq = s.acq ∧ (State.doEstBr n xc cond tgt s).bias = s.bias ∧
    (State.doEstBr n xc cond tgt s).cal = s.cal ∧ (State.doEstBr n xc cond tgt s).thermal = s.thermal := by
  unfold State.doEstBr
  all_goals (first | done | simp)

/-- What `State.doBrx` keeps. -/
@[simp] theorem State.doBrx_frame (n xt : Nat) (s : State) :
    (State.doBrx n xt s).pending = s.pending ∧ (State.doBrx n xt s).ident = s.ident ∧ (State.doBrx n xt s).units = s.units ∧
    (State.doBrx n xt s).desk = s.desk ∧ (State.doBrx n xt s).parts = s.parts ∧ (State.doBrx n xt s).archive = s.archive ∧ (State.doBrx n xt s).sec = s.sec ∧
    (State.doBrx n xt s).power = s.power ∧ (State.doBrx n xt s).boot = s.boot ∧ (State.doBrx n xt s).dap = s.dap ∧ (State.doBrx n xt s).seqs = s.seqs ∧
    (State.doBrx n xt s).synth = s.synth ∧ (State.doBrx n xt s).wave = s.wave ∧ (State.doBrx n xt s).readout = s.readout ∧
    (State.doBrx n xt s).fabric = s.fabric ∧ (State.doBrx n xt s).conc = s.conc ∧ (State.doBrx n xt s).acq = s.acq ∧ (State.doBrx n xt s).bias = s.bias ∧
    (State.doBrx n xt s).cal = s.cal ∧ (State.doBrx n xt s).thermal = s.thermal := by
  unfold State.doBrx
  all_goals (first | done | simp)

/-- What `State.doDone` keeps. -/
@[simp] theorem State.doDone_frame (n : Nat) (s : State) :
    (State.doDone n s).pending = s.pending ∧ (State.doDone n s).ident = s.ident ∧ (State.doDone n s).units = s.units ∧ (State.doDone n s).desk = s.desk ∧
    (State.doDone n s).parts = s.parts ∧ (State.doDone n s).archive = s.archive ∧ (State.doDone n s).sec = s.sec ∧ (State.doDone n s).power = s.power ∧
    (State.doDone n s).boot = s.boot ∧ (State.doDone n s).dap = s.dap ∧ (State.doDone n s).seqs = s.seqs ∧ (State.doDone n s).synth = s.synth ∧
    (State.doDone n s).wave = s.wave ∧ (State.doDone n s).readout = s.readout ∧ (State.doDone n s).fabric = s.fabric ∧ (State.doDone n s).conc = s.conc ∧
    (State.doDone n s).acq = s.acq ∧ (State.doDone n s).bias = s.bias ∧ (State.doDone n s).cal = s.cal ∧ (State.doDone n s).thermal = s.thermal := by
  unfold State.doDone
  all_goals (first | done | simp)

/-- What `State.doRepeat` keeps. -/
@[simp] theorem State.doRepeat_frame (n len : Nat) (count : Est → Nat) (s : State) :
    (State.doRepeat n len count s).pending = s.pending ∧ (State.doRepeat n len count s).ident = s.ident ∧ (State.doRepeat n len count s).units = s.units ∧
    (State.doRepeat n len count s).desk = s.desk ∧ (State.doRepeat n len count s).parts = s.parts ∧ (State.doRepeat n len count s).archive = s.archive ∧
    (State.doRepeat n len count s).sec = s.sec ∧ (State.doRepeat n len count s).power = s.power ∧ (State.doRepeat n len count s).boot = s.boot ∧
    (State.doRepeat n len count s).dap = s.dap ∧ (State.doRepeat n len count s).seqs = s.seqs ∧ (State.doRepeat n len count s).synth = s.synth ∧
    (State.doRepeat n len count s).wave = s.wave ∧ (State.doRepeat n len count s).readout = s.readout ∧ (State.doRepeat n len count s).fabric = s.fabric ∧
    (State.doRepeat n len count s).conc = s.conc ∧ (State.doRepeat n len count s).acq = s.acq ∧ (State.doRepeat n len count s).bias = s.bias ∧
    (State.doRepeat n len count s).cal = s.cal ∧ (State.doRepeat n len count s).thermal = s.thermal := by
  unfold State.doRepeat; (try dsimp only)
  repeat' split
  all_goals (first | done | simp)

/-- What `State.doPost` keeps. -/
@[simp] theorem State.doPost_frame (n xs : Nat) (s : State) :
    (State.doPost n xs s).pending = s.pending ∧ (State.doPost n xs s).ident = s.ident ∧ (State.doPost n xs s).units = s.units ∧
    (State.doPost n xs s).desk = s.desk ∧ (State.doPost n xs s).parts = s.parts ∧ (State.doPost n xs s).archive = s.archive ∧
    (State.doPost n xs s).sec = s.sec ∧ (State.doPost n xs s).power = s.power ∧ (State.doPost n xs s).boot = s.boot ∧ (State.doPost n xs s).dap = s.dap ∧
    (State.doPost n xs s).seqs = s.seqs ∧ (State.doPost n xs s).synth = s.synth ∧ (State.doPost n xs s).wave = s.wave ∧
    (State.doPost n xs s).readout = s.readout ∧ (State.doPost n xs s).conc = s.conc ∧ (State.doPost n xs s).bias = s.bias ∧ (State.doPost n xs s).cal = s.cal ∧
    (State.doPost n xs s).thermal = s.thermal := by
  unfold State.doPost; (try dsimp only)
  all_goals (first | done | simp)

/-- What `State.doIdle` keeps. -/
@[simp] theorem State.doIdle_frame (n : Nat) (s : State) :
    (State.doIdle n s).pending = s.pending ∧ (State.doIdle n s).ident = s.ident ∧ (State.doIdle n s).host = s.host ∧ (State.doIdle n s).units = s.units ∧
    (State.doIdle n s).desk = s.desk ∧ (State.doIdle n s).parts = s.parts ∧ (State.doIdle n s).archive = s.archive ∧ (State.doIdle n s).pages = s.pages ∧
    (State.doIdle n s).ledger = s.ledger ∧ (State.doIdle n s).trouble = s.trouble ∧ (State.doIdle n s).sec = s.sec ∧ (State.doIdle n s).power = s.power ∧
    (State.doIdle n s).boot = s.boot ∧ (State.doIdle n s).dap = s.dap ∧ (State.doIdle n s).seqs = s.seqs ∧ (State.doIdle n s).synth = s.synth ∧
    (State.doIdle n s).wave = s.wave ∧ (State.doIdle n s).readout = s.readout ∧ (State.doIdle n s).fabric = s.fabric ∧ (State.doIdle n s).conc = s.conc ∧
    (State.doIdle n s).acq = s.acq ∧ (State.doIdle n s).bias = s.bias ∧ (State.doIdle n s).cal = s.cal ∧ (State.doIdle n s).thermal = s.thermal ∧
    (State.doIdle n s).free = s.free := by
  unfold State.doIdle; (try dsimp only)
  all_goals (first | done | simp)

/-- What `State.doHalt` keeps. -/
@[simp] theorem State.doHalt_frame (n : Nat) (s : State) :
    (State.doHalt n s).pending = s.pending ∧ (State.doHalt n s).ident = s.ident ∧ (State.doHalt n s).units = s.units ∧ (State.doHalt n s).desk = s.desk ∧
    (State.doHalt n s).parts = s.parts ∧ (State.doHalt n s).archive = s.archive ∧ (State.doHalt n s).sec = s.sec ∧ (State.doHalt n s).power = s.power ∧
    (State.doHalt n s).boot = s.boot ∧ (State.doHalt n s).dap = s.dap ∧ (State.doHalt n s).seqs = s.seqs ∧ (State.doHalt n s).synth = s.synth ∧
    (State.doHalt n s).wave = s.wave ∧ (State.doHalt n s).readout = s.readout ∧ (State.doHalt n s).fabric = s.fabric ∧ (State.doHalt n s).conc = s.conc ∧
    (State.doHalt n s).acq = s.acq ∧ (State.doHalt n s).bias = s.bias ∧ (State.doHalt n s).cal = s.cal ∧ (State.doHalt n s).thermal = s.thermal := by
  unfold State.doHalt; (try dsimp only)
  all_goals (first | done | simp)

/-- What `State.doEst` keeps. -/
@[simp] theorem State.doEst_frame (n : Nat) (i : EstIns) (s : State) :
    (State.doEst n i s).pending = s.pending ∧ (State.doEst n i s).ident = s.ident ∧ (State.doEst n i s).units = s.units ∧ (State.doEst n i s).parts = s.parts ∧
    (State.doEst n i s).archive = s.archive ∧ (State.doEst n i s).sec = s.sec ∧ (State.doEst n i s).power = s.power ∧ (State.doEst n i s).boot = s.boot ∧
    (State.doEst n i s).dap = s.dap ∧ (State.doEst n i s).seqs = s.seqs ∧ (State.doEst n i s).synth = s.synth ∧ (State.doEst n i s).wave = s.wave ∧
    (State.doEst n i s).readout = s.readout ∧ (State.doEst n i s).conc = s.conc ∧ (State.doEst n i s).bias = s.bias ∧ (State.doEst n i s).cal = s.cal ∧
    (State.doEst n i s).thermal = s.thermal := by
  unfold State.doEst
  repeat' split
  all_goals (first | done | simp)

/-- What `State.changeRef` keeps. -/
@[simp] theorem State.changeRef_frame (r : RefSrc) (s : State) :
    (State.changeRef r s).pending = s.pending ∧ (State.changeRef r s).ident = s.ident ∧ (State.changeRef r s).host = s.host ∧
    (State.changeRef r s).units = s.units ∧ (State.changeRef r s).desk = s.desk ∧ (State.changeRef r s).parts = s.parts ∧
    (State.changeRef r s).archive = s.archive ∧ (State.changeRef r s).pages = s.pages ∧ (State.changeRef r s).ledger = s.ledger ∧
    (State.changeRef r s).trouble = s.trouble ∧ (State.changeRef r s).sec = s.sec ∧ (State.changeRef r s).power = s.power ∧
    (State.changeRef r s).boot = s.boot ∧ (State.changeRef r s).dap = s.dap ∧ (State.changeRef r s).seqs = s.seqs ∧ (State.changeRef r s).wave = s.wave ∧
    (State.changeRef r s).est = s.est ∧ (State.changeRef r s).fabric = s.fabric ∧ (State.changeRef r s).conc = s.conc ∧ (State.changeRef r s).acq = s.acq ∧
    (State.changeRef r s).thermal = s.thermal ∧ (State.changeRef r s).free = s.free := by
  unfold State.changeRef; (try dsimp only)
  all_goals (first | done | simp)

/-- What `State.setData` keeps. -/
@[simp] theorem State.setData_frame (o : OpenCmd) (d : Words) (s : State) :
    (State.setData o d s).pending = s.pending ∧ (State.setData o d s).ident = s.ident ∧ (State.setData o d s).time = s.time ∧
    (State.setData o d s).units = s.units ∧ (State.setData o d s).desk = s.desk ∧ (State.setData o d s).parts = s.parts ∧
    (State.setData o d s).archive = s.archive ∧ (State.setData o d s).pages = s.pages ∧ (State.setData o d s).ledger = s.ledger ∧
    (State.setData o d s).trouble = s.trouble ∧ (State.setData o d s).sec = s.sec ∧ (State.setData o d s).power = s.power ∧
    (State.setData o d s).boot = s.boot ∧ (State.setData o d s).dap = s.dap ∧ (State.setData o d s).seqs = s.seqs ∧ (State.setData o d s).synth = s.synth ∧
    (State.setData o d s).wave = s.wave ∧ (State.setData o d s).readout = s.readout ∧ (State.setData o d s).est = s.est ∧
    (State.setData o d s).fabric = s.fabric ∧ (State.setData o d s).conc = s.conc ∧ (State.setData o d s).acq = s.acq ∧ (State.setData o d s).bias = s.bias ∧
    (State.setData o d s).cal = s.cal ∧ (State.setData o d s).thermal = s.thermal ∧ (State.setData o d s).free = s.free := by
  unfold State.setData; (try dsimp only)
  all_goals (first | done | simp)

/-- What `State.timeEvent` keeps. -/
@[simp] theorem State.timeEvent_frame (detail : BitVec 32) (s : State) :
    (State.timeEvent detail s).pending = s.pending ∧ (State.timeEvent detail s).ident = s.ident ∧ (State.timeEvent detail s).time = s.time ∧
    (State.timeEvent detail s).units = s.units ∧ (State.timeEvent detail s).desk = s.desk ∧ (State.timeEvent detail s).parts = s.parts ∧
    (State.timeEvent detail s).archive = s.archive ∧ (State.timeEvent detail s).sec = s.sec ∧ (State.timeEvent detail s).power = s.power ∧
    (State.timeEvent detail s).boot = s.boot ∧ (State.timeEvent detail s).dap = s.dap ∧ (State.timeEvent detail s).seqs = s.seqs ∧
    (State.timeEvent detail s).synth = s.synth ∧ (State.timeEvent detail s).wave = s.wave ∧ (State.timeEvent detail s).readout = s.readout ∧
    (State.timeEvent detail s).est = s.est ∧ (State.timeEvent detail s).fabric = s.fabric ∧ (State.timeEvent detail s).conc = s.conc ∧
    (State.timeEvent detail s).acq = s.acq ∧ (State.timeEvent detail s).bias = s.bias ∧ (State.timeEvent detail s).cal = s.cal ∧
    (State.timeEvent detail s).thermal = s.thermal := by
  unfold State.timeEvent
  all_goals (first | done | simp)

/-- What `State.serveMark` keeps. -/
@[simp] theorem State.serveMark_frame (s : State) :
    (State.serveMark s).pending = s.pending ∧ (State.serveMark s).ident = s.ident ∧ (State.serveMark s).units = s.units ∧ (State.serveMark s).desk = s.desk ∧
    (State.serveMark s).parts = s.parts ∧ (State.serveMark s).archive = s.archive ∧ (State.serveMark s).pages = s.pages ∧
    (State.serveMark s).ledger = s.ledger ∧ (State.serveMark s).trouble = s.trouble ∧ (State.serveMark s).sec = s.sec ∧ (State.serveMark s).power = s.power ∧
    (State.serveMark s).boot = s.boot ∧ (State.serveMark s).dap = s.dap ∧ (State.serveMark s).seqs = s.seqs ∧ (State.serveMark s).wave = s.wave ∧
    (State.serveMark s).readout = s.readout ∧ (State.serveMark s).est = s.est ∧ (State.serveMark s).fabric = s.fabric ∧ (State.serveMark s).conc = s.conc ∧
    (State.serveMark s).acq = s.acq ∧ (State.serveMark s).bias = s.bias ∧ (State.serveMark s).cal = s.cal ∧ (State.serveMark s).thermal = s.thermal ∧
    (State.serveMark s).free = s.free := by
  unfold State.serveMark; (try dsimp only)
  repeat' split
  all_goals (first | done | simp)

/-- What `State.laneEnter` keeps. -/
@[simp] theorem State.laneEnter_frame (n : Nat) (st : LaneState) (s : State) :
    (State.laneEnter n st s).pending = s.pending ∧ (State.laneEnter n st s).ident = s.ident ∧ (State.laneEnter n st s).time = s.time ∧
    (State.laneEnter n st s).units = s.units ∧ (State.laneEnter n st s).desk = s.desk ∧ (State.laneEnter n st s).parts = s.parts ∧
    (State.laneEnter n st s).archive = s.archive ∧ (State.laneEnter n st s).pages = s.pages ∧ (State.laneEnter n st s).ledger = s.ledger ∧
    (State.laneEnter n st s).trouble = s.trouble ∧ (State.laneEnter n st s).sec = s.sec ∧ (State.laneEnter n st s).power = s.power ∧
    (State.laneEnter n st s).boot = s.boot ∧ (State.laneEnter n st s).dap = s.dap ∧ (State.laneEnter n st s).seqs = s.seqs ∧
    (State.laneEnter n st s).synth = s.synth ∧ (State.laneEnter n st s).wave = s.wave ∧ (State.laneEnter n st s).readout = s.readout ∧
    (State.laneEnter n st s).est = s.est ∧ (State.laneEnter n st s).conc = s.conc ∧ (State.laneEnter n st s).acq = s.acq ∧
    (State.laneEnter n st s).bias = s.bias ∧ (State.laneEnter n st s).cal = s.cal ∧ (State.laneEnter n st s).thermal = s.thermal ∧
    (State.laneEnter n st s).free = s.free := by
  unfold State.laneEnter; (try dsimp only)
  repeat' split
  all_goals (first | done | simp)

/-- What `State.armsDone` keeps. -/
@[simp] theorem State.armsDone_frame (failed : Bool) (s : State) :
    (State.armsDone failed s).pending = s.pending ∧ (State.armsDone failed s).ident = s.ident ∧ (State.armsDone failed s).time = s.time ∧
    (State.armsDone failed s).units = s.units ∧ (State.armsDone failed s).parts = s.parts ∧ (State.armsDone failed s).archive = s.archive ∧
    (State.armsDone failed s).sec = s.sec ∧ (State.armsDone failed s).power = s.power ∧ (State.armsDone failed s).boot = s.boot ∧
    (State.armsDone failed s).dap = s.dap ∧ (State.armsDone failed s).seqs = s.seqs ∧ (State.armsDone failed s).synth = s.synth ∧
    (State.armsDone failed s).wave = s.wave ∧ (State.armsDone failed s).readout = s.readout ∧ (State.armsDone failed s).est = s.est ∧
    (State.armsDone failed s).fabric = s.fabric ∧ (State.armsDone failed s).conc = s.conc ∧ (State.armsDone failed s).acq = s.acq ∧
    (State.armsDone failed s).bias = s.bias ∧ (State.armsDone failed s).cal = s.cal ∧ (State.armsDone failed s).thermal = s.thermal := by
  unfold State.armsDone
  repeat' split
  all_goals (first | done | simp)

/-- What `State.testAnswer` keeps. -/
@[simp] theorem State.testAnswer_frame (n status : Nat) (s : State) :
    (State.testAnswer n status s).pending = s.pending ∧ (State.testAnswer n status s).ident = s.ident ∧ (State.testAnswer n status s).time = s.time ∧
    (State.testAnswer n status s).units = s.units ∧ (State.testAnswer n status s).parts = s.parts ∧ (State.testAnswer n status s).archive = s.archive ∧
    (State.testAnswer n status s).sec = s.sec ∧ (State.testAnswer n status s).power = s.power ∧ (State.testAnswer n status s).boot = s.boot ∧
    (State.testAnswer n status s).dap = s.dap ∧ (State.testAnswer n status s).seqs = s.seqs ∧ (State.testAnswer n status s).synth = s.synth ∧
    (State.testAnswer n status s).wave = s.wave ∧ (State.testAnswer n status s).readout = s.readout ∧ (State.testAnswer n status s).est = s.est ∧
    (State.testAnswer n status s).conc = s.conc ∧ (State.testAnswer n status s).acq = s.acq ∧ (State.testAnswer n status s).bias = s.bias ∧
    (State.testAnswer n status s).cal = s.cal ∧ (State.testAnswer n status s).thermal = s.thermal := by
  unfold State.testAnswer; (try dsimp only)
  repeat' split
  all_goals (first | done | simp)

/-- What `State.laneDown` keeps. -/
@[simp] theorem State.laneDown_frame (n reason : Nat) (s : State) :
    (State.laneDown n reason s).pending = s.pending ∧ (State.laneDown n reason s).ident = s.ident ∧ (State.laneDown n reason s).time = s.time ∧
    (State.laneDown n reason s).units = s.units ∧ (State.laneDown n reason s).parts = s.parts ∧ (State.laneDown n reason s).archive = s.archive ∧
    (State.laneDown n reason s).sec = s.sec ∧ (State.laneDown n reason s).power = s.power ∧ (State.laneDown n reason s).boot = s.boot ∧
    (State.laneDown n reason s).dap = s.dap ∧ (State.laneDown n reason s).seqs = s.seqs ∧ (State.laneDown n reason s).synth = s.synth ∧
    (State.laneDown n reason s).wave = s.wave ∧ (State.laneDown n reason s).readout = s.readout ∧ (State.laneDown n reason s).est = s.est ∧
    (State.laneDown n reason s).conc = s.conc ∧ (State.laneDown n reason s).acq = s.acq ∧ (State.laneDown n reason s).bias = s.bias ∧
    (State.laneDown n reason s).cal = s.cal ∧ (State.laneDown n reason s).thermal = s.thermal := by
  unfold State.laneDown; (try dsimp only)
  repeat' split
  all_goals (first | done | simp)

/-- What `State.laneAttempt` keeps. -/
@[simp] theorem State.laneAttempt_frame (n : Nat) (s : State) :
    (State.laneAttempt n s).pending = s.pending ∧ (State.laneAttempt n s).ident = s.ident ∧ (State.laneAttempt n s).time = s.time ∧
    (State.laneAttempt n s).units = s.units ∧ (State.laneAttempt n s).desk = s.desk ∧ (State.laneAttempt n s).parts = s.parts ∧
    (State.laneAttempt n s).archive = s.archive ∧ (State.laneAttempt n s).pages = s.pages ∧ (State.laneAttempt n s).ledger = s.ledger ∧
    (State.laneAttempt n s).trouble = s.trouble ∧ (State.laneAttempt n s).sec = s.sec ∧ (State.laneAttempt n s).power = s.power ∧
    (State.laneAttempt n s).boot = s.boot ∧ (State.laneAttempt n s).dap = s.dap ∧ (State.laneAttempt n s).seqs = s.seqs ∧
    (State.laneAttempt n s).synth = s.synth ∧ (State.laneAttempt n s).wave = s.wave ∧ (State.laneAttempt n s).readout = s.readout ∧
    (State.laneAttempt n s).est = s.est ∧ (State.laneAttempt n s).conc = s.conc ∧ (State.laneAttempt n s).acq = s.acq ∧ (State.laneAttempt n s).bias = s.bias ∧
    (State.laneAttempt n s).cal = s.cal ∧ (State.laneAttempt n s).thermal = s.thermal ∧ (State.laneAttempt n s).free = s.free := by
  unfold State.laneAttempt; (try dsimp only)
  all_goals (first | done | simp)

/-- What `State.laneTrain` keeps. -/
@[simp] theorem State.laneTrain_frame (n : Nat) (s : State) :
    (State.laneTrain n s).pending = s.pending ∧ (State.laneTrain n s).ident = s.ident ∧ (State.laneTrain n s).time = s.time ∧
    (State.laneTrain n s).desk = s.desk ∧ (State.laneTrain n s).parts = s.parts ∧ (State.laneTrain n s).archive = s.archive ∧
    (State.laneTrain n s).pages = s.pages ∧ (State.laneTrain n s).ledger = s.ledger ∧ (State.laneTrain n s).trouble = s.trouble ∧
    (State.laneTrain n s).sec = s.sec ∧ (State.laneTrain n s).power = s.power ∧ (State.laneTrain n s).boot = s.boot ∧ (State.laneTrain n s).dap = s.dap ∧
    (State.laneTrain n s).seqs = s.seqs ∧ (State.laneTrain n s).synth = s.synth ∧ (State.laneTrain n s).wave = s.wave ∧
    (State.laneTrain n s).readout = s.readout ∧ (State.laneTrain n s).est = s.est ∧ (State.laneTrain n s).conc = s.conc ∧ (State.laneTrain n s).acq = s.acq ∧
    (State.laneTrain n s).bias = s.bias ∧ (State.laneTrain n s).cal = s.cal ∧ (State.laneTrain n s).thermal = s.thermal ∧ (State.laneTrain n s).free = s.free := by
  unfold State.laneTrain; (try dsimp only)
  all_goals (first | done | simp)

/-- What `State.laneFail` keeps. -/
@[simp] theorem State.laneFail_frame (n reason : Nat) (s : State) :
    (State.laneFail n reason s).pending = s.pending ∧ (State.laneFail n reason s).ident = s.ident ∧ (State.laneFail n reason s).time = s.time ∧
    (State.laneFail n reason s).units = s.units ∧ (State.laneFail n reason s).parts = s.parts ∧ (State.laneFail n reason s).archive = s.archive ∧
    (State.laneFail n reason s).sec = s.sec ∧ (State.laneFail n reason s).power = s.power ∧ (State.laneFail n reason s).boot = s.boot ∧
    (State.laneFail n reason s).dap = s.dap ∧ (State.laneFail n reason s).seqs = s.seqs ∧ (State.laneFail n reason s).synth = s.synth ∧
    (State.laneFail n reason s).wave = s.wave ∧ (State.laneFail n reason s).readout = s.readout ∧ (State.laneFail n reason s).est = s.est ∧
    (State.laneFail n reason s).conc = s.conc ∧ (State.laneFail n reason s).acq = s.acq ∧ (State.laneFail n reason s).bias = s.bias ∧
    (State.laneFail n reason s).cal = s.cal ∧ (State.laneFail n reason s).thermal = s.thermal := by
  unfold State.laneFail; (try dsimp only)
  repeat' split
  all_goals (first | done | simp)

/-- What `State.testStart` keeps. -/
@[simp] theorem State.testStart_frame (n ms : Nat) (s : State) :
    (State.testStart n ms s).pending = s.pending ∧ (State.testStart n ms s).ident = s.ident ∧ (State.testStart n ms s).time = s.time ∧
    (State.testStart n ms s).units = s.units ∧ (State.testStart n ms s).desk = s.desk ∧ (State.testStart n ms s).parts = s.parts ∧
    (State.testStart n ms s).archive = s.archive ∧ (State.testStart n ms s).pages = s.pages ∧ (State.testStart n ms s).ledger = s.ledger ∧
    (State.testStart n ms s).trouble = s.trouble ∧ (State.testStart n ms s).sec = s.sec ∧ (State.testStart n ms s).power = s.power ∧
    (State.testStart n ms s).boot = s.boot ∧ (State.testStart n ms s).dap = s.dap ∧ (State.testStart n ms s).seqs = s.seqs ∧
    (State.testStart n ms s).synth = s.synth ∧ (State.testStart n ms s).wave = s.wave ∧ (State.testStart n ms s).readout = s.readout ∧
    (State.testStart n ms s).est = s.est ∧ (State.testStart n ms s).conc = s.conc ∧ (State.testStart n ms s).acq = s.acq ∧
    (State.testStart n ms s).bias = s.bias ∧ (State.testStart n ms s).cal = s.cal ∧ (State.testStart n ms s).thermal = s.thermal ∧
    (State.testStart n ms s).free = s.free := by
  unfold State.testStart; (try dsimp only)
  all_goals (first | done | simp)

/-- What `State.testOver` keeps. -/
@[simp] theorem State.testOver_frame (n tstate : Nat) (s : State) :
    (State.testOver n tstate s).pending = s.pending ∧ (State.testOver n tstate s).ident = s.ident ∧ (State.testOver n tstate s).time = s.time ∧
    (State.testOver n tstate s).desk = s.desk ∧ (State.testOver n tstate s).parts = s.parts ∧ (State.testOver n tstate s).archive = s.archive ∧
    (State.testOver n tstate s).pages = s.pages ∧ (State.testOver n tstate s).ledger = s.ledger ∧ (State.testOver n tstate s).trouble = s.trouble ∧
    (State.testOver n tstate s).sec = s.sec ∧ (State.testOver n tstate s).power = s.power ∧ (State.testOver n tstate s).boot = s.boot ∧
    (State.testOver n tstate s).dap = s.dap ∧ (State.testOver n tstate s).seqs = s.seqs ∧ (State.testOver n tstate s).synth = s.synth ∧
    (State.testOver n tstate s).wave = s.wave ∧ (State.testOver n tstate s).readout = s.readout ∧ (State.testOver n tstate s).est = s.est ∧
    (State.testOver n tstate s).conc = s.conc ∧ (State.testOver n tstate s).acq = s.acq ∧ (State.testOver n tstate s).bias = s.bias ∧
    (State.testOver n tstate s).cal = s.cal ∧ (State.testOver n tstate s).thermal = s.thermal ∧ (State.testOver n tstate s).free = s.free := by
  unfold State.testOver; (try dsimp only)
  repeat' split
  all_goals (first | done | simp)

/-- What `State.testCounts` keeps. -/
@[simp] theorem State.testCounts_frame (n : Nat) (s : State) :
    (State.testCounts n s).pending = s.pending ∧ (State.testCounts n s).ident = s.ident ∧ (State.testCounts n s).time = s.time ∧
    (State.testCounts n s).host = s.host ∧ (State.testCounts n s).units = s.units ∧ (State.testCounts n s).desk = s.desk ∧
    (State.testCounts n s).parts = s.parts ∧ (State.testCounts n s).archive = s.archive ∧ (State.testCounts n s).pages = s.pages ∧
    (State.testCounts n s).ledger = s.ledger ∧ (State.testCounts n s).trouble = s.trouble ∧ (State.testCounts n s).sec = s.sec ∧
    (State.testCounts n s).power = s.power ∧ (State.testCounts n s).boot = s.boot ∧ (State.testCounts n s).dap = s.dap ∧ (State.testCounts n s).seqs = s.seqs ∧
    (State.testCounts n s).synth = s.synth ∧ (State.testCounts n s).wave = s.wave ∧ (State.testCounts n s).readout = s.readout ∧
    (State.testCounts n s).est = s.est ∧ (State.testCounts n s).conc = s.conc ∧ (State.testCounts n s).acq = s.acq ∧ (State.testCounts n s).bias = s.bias ∧
    (State.testCounts n s).cal = s.cal ∧ (State.testCounts n s).thermal = s.thermal := by
  unfold State.testCounts; (try dsimp only)
  repeat' split
  all_goals (first | done | simp)

/-- What `State.sendBlock` keeps. -/
@[simp] theorem State.sendBlock_frame (n k : Nat) (b : Block) (s : State) :
    (State.sendBlock n k b s).pending = s.pending ∧ (State.sendBlock n k b s).ident = s.ident ∧ (State.sendBlock n k b s).host = s.host ∧
    (State.sendBlock n k b s).units = s.units ∧ (State.sendBlock n k b s).desk = s.desk ∧ (State.sendBlock n k b s).parts = s.parts ∧
    (State.sendBlock n k b s).archive = s.archive ∧ (State.sendBlock n k b s).pages = s.pages ∧ (State.sendBlock n k b s).ledger = s.ledger ∧
    (State.sendBlock n k b s).trouble = s.trouble ∧ (State.sendBlock n k b s).sec = s.sec ∧ (State.sendBlock n k b s).power = s.power ∧
    (State.sendBlock n k b s).boot = s.boot ∧ (State.sendBlock n k b s).dap = s.dap ∧ (State.sendBlock n k b s).seqs = s.seqs ∧
    (State.sendBlock n k b s).synth = s.synth ∧ (State.sendBlock n k b s).wave = s.wave ∧ (State.sendBlock n k b s).readout = s.readout ∧
    (State.sendBlock n k b s).est = s.est ∧ (State.sendBlock n k b s).conc = s.conc ∧ (State.sendBlock n k b s).acq = s.acq ∧
    (State.sendBlock n k b s).bias = s.bias ∧ (State.sendBlock n k b s).cal = s.cal ∧ (State.sendBlock n k b s).thermal = s.thermal := by
  unfold State.sendBlock; (try dsimp only)
  repeat' split
  all_goals (first | done | simp)

/-- What `State.skewBegins` keeps. -/
@[simp] theorem State.skewBegins_frame (n t : Nat) (s : State) :
    (State.skewBegins n t s).pending = s.pending ∧ (State.skewBegins n t s).ident = s.ident ∧ (State.skewBegins n t s).time = s.time ∧
    (State.skewBegins n t s).units = s.units ∧ (State.skewBegins n t s).desk = s.desk ∧ (State.skewBegins n t s).parts = s.parts ∧
    (State.skewBegins n t s).archive = s.archive ∧ (State.skewBegins n t s).pages = s.pages ∧ (State.skewBegins n t s).ledger = s.ledger ∧
    (State.skewBegins n t s).trouble = s.trouble ∧ (State.skewBegins n t s).sec = s.sec ∧ (State.skewBegins n t s).power = s.power ∧
    (State.skewBegins n t s).boot = s.boot ∧ (State.skewBegins n t s).dap = s.dap ∧ (State.skewBegins n t s).seqs = s.seqs ∧
    (State.skewBegins n t s).synth = s.synth ∧ (State.skewBegins n t s).wave = s.wave ∧ (State.skewBegins n t s).readout = s.readout ∧
    (State.skewBegins n t s).est = s.est ∧ (State.skewBegins n t s).fabric = s.fabric ∧ (State.skewBegins n t s).conc = s.conc ∧
    (State.skewBegins n t s).acq = s.acq ∧ (State.skewBegins n t s).bias = s.bias ∧ (State.skewBegins n t s).cal = s.cal ∧
    (State.skewBegins n t s).thermal = s.thermal ∧ (State.skewBegins n t s).free = s.free := by
  unfold State.skewBegins; (try dsimp only)
  all_goals (first | done | simp)

/-- What `State.sendService` keeps. -/
@[simp] theorem State.sendService_frame (n k : Nat) (w : Word) (came : Nat) (s : State) :
    (State.sendService n k w came s).pending = s.pending ∧ (State.sendService n k w came s).ident = s.ident ∧
    (State.sendService n k w came s).units = s.units ∧ (State.sendService n k w came s).desk = s.desk ∧ (State.sendService n k w came s).parts = s.parts ∧
    (State.sendService n k w came s).archive = s.archive ∧ (State.sendService n k w came s).pages = s.pages ∧
    (State.sendService n k w came s).ledger = s.ledger ∧ (State.sendService n k w came s).trouble = s.trouble ∧ (State.sendService n k w came s).sec = s.sec ∧
    (State.sendService n k w came s).power = s.power ∧ (State.sendService n k w came s).boot = s.boot ∧ (State.sendService n k w came s).dap = s.dap ∧
    (State.sendService n k w came s).seqs = s.seqs ∧ (State.sendService n k w came s).synth = s.synth ∧ (State.sendService n k w came s).wave = s.wave ∧
    (State.sendService n k w came s).readout = s.readout ∧ (State.sendService n k w came s).est = s.est ∧ (State.sendService n k w came s).conc = s.conc ∧
    (State.sendService n k w came s).acq = s.acq ∧ (State.sendService n k w came s).bias = s.bias ∧ (State.sendService n k w came s).cal = s.cal ∧
    (State.sendService n k w came s).thermal = s.thermal := by
  unfold State.sendService; (try dsimp only)
  repeat' split
  all_goals (first | done | simp)

/-- What `State.clearValid` keeps. -/
@[simp] theorem State.clearValid_frame (n : Fin 16) (l : Words) (s : State) :
    (State.clearValid n l s).pending = s.pending ∧ (State.clearValid n l s).ident = s.ident ∧ (State.clearValid n l s).time = s.time ∧
    (State.clearValid n l s).host = s.host ∧ (State.clearValid n l s).units = s.units ∧ (State.clearValid n l s).desk = s.desk ∧
    (State.clearValid n l s).parts = s.parts ∧ (State.clearValid n l s).archive = s.archive ∧ (State.clearValid n l s).pages = s.pages ∧
    (State.clearValid n l s).ledger = s.ledger ∧ (State.clearValid n l s).trouble = s.trouble ∧ (State.clearValid n l s).sec = s.sec ∧
    (State.clearValid n l s).power = s.power ∧ (State.clearValid n l s).boot = s.boot ∧ (State.clearValid n l s).dap = s.dap ∧
    (State.clearValid n l s).synth = s.synth ∧ (State.clearValid n l s).wave = s.wave ∧ (State.clearValid n l s).readout = s.readout ∧
    (State.clearValid n l s).est = s.est ∧ (State.clearValid n l s).acq = s.acq ∧ (State.clearValid n l s).bias = s.bias ∧
    (State.clearValid n l s).cal = s.cal ∧ (State.clearValid n l s).thermal = s.thermal ∧ (State.clearValid n l s).free = s.free := by
  unfold State.clearValid; (try dsimp only)
  all_goals (first | done | simp)

/-- What `State.laneLost` keeps. -/
@[simp] theorem State.laneLost_frame (n reason : Nat) (s : State) :
    (State.laneLost n reason s).pending = s.pending ∧ (State.laneLost n reason s).ident = s.ident ∧ (State.laneLost n reason s).time = s.time ∧
    (State.laneLost n reason s).parts = s.parts ∧ (State.laneLost n reason s).archive = s.archive ∧ (State.laneLost n reason s).sec = s.sec ∧
    (State.laneLost n reason s).power = s.power ∧ (State.laneLost n reason s).boot = s.boot ∧ (State.laneLost n reason s).dap = s.dap ∧
    (State.laneLost n reason s).seqs = s.seqs ∧ (State.laneLost n reason s).synth = s.synth ∧ (State.laneLost n reason s).wave = s.wave ∧
    (State.laneLost n reason s).readout = s.readout ∧ (State.laneLost n reason s).est = s.est ∧ (State.laneLost n reason s).conc = s.conc ∧
    (State.laneLost n reason s).acq = s.acq ∧ (State.laneLost n reason s).bias = s.bias ∧ (State.laneLost n reason s).cal = s.cal ∧
    (State.laneLost n reason s).thermal = s.thermal := by
  unfold State.laneLost; (try dsimp only)
  repeat' split
  all_goals (first | done | simp)

/-- What `State.adaptTaps` keeps. -/
@[simp] theorem State.adaptTaps_frame (n us : Nat) (s : State) :
    (State.adaptTaps n us s).pending = s.pending ∧ (State.adaptTaps n us s).ident = s.ident ∧ (State.adaptTaps n us s).time = s.time ∧
    (State.adaptTaps n us s).host = s.host ∧ (State.adaptTaps n us s).units = s.units ∧ (State.adaptTaps n us s).desk = s.desk ∧
    (State.adaptTaps n us s).parts = s.parts ∧ (State.adaptTaps n us s).archive = s.archive ∧ (State.adaptTaps n us s).pages = s.pages ∧
    (State.adaptTaps n us s).ledger = s.ledger ∧ (State.adaptTaps n us s).trouble = s.trouble ∧ (State.adaptTaps n us s).sec = s.sec ∧
    (State.adaptTaps n us s).power = s.power ∧ (State.adaptTaps n us s).boot = s.boot ∧ (State.adaptTaps n us s).dap = s.dap ∧
    (State.adaptTaps n us s).seqs = s.seqs ∧ (State.adaptTaps n us s).synth = s.synth ∧ (State.adaptTaps n us s).wave = s.wave ∧
    (State.adaptTaps n us s).readout = s.readout ∧ (State.adaptTaps n us s).est = s.est ∧ (State.adaptTaps n us s).conc = s.conc ∧
    (State.adaptTaps n us s).acq = s.acq ∧ (State.adaptTaps n us s).bias = s.bias ∧ (State.adaptTaps n us s).cal = s.cal ∧
    (State.adaptTaps n us s).thermal = s.thermal := by
  unfold State.adaptTaps; (try dsimp only)
  all_goals (first | done | simp)

/-- What `State.writeBank` keeps. -/
@[simp] theorem State.writeBank_frame (bank1 : Bool) (a n : Nat) (f : Sparse Word → Sparse Word) (s : State) :
    (State.writeBank bank1 a n f s).pending = s.pending ∧ (State.writeBank bank1 a n f s).ident = s.ident ∧ (State.writeBank bank1 a n f s).time = s.time ∧
    (State.writeBank bank1 a n f s).host = s.host ∧ (State.writeBank bank1 a n f s).units = s.units ∧ (State.writeBank bank1 a n f s).desk = s.desk ∧
    (State.writeBank bank1 a n f s).parts = s.parts ∧ (State.writeBank bank1 a n f s).archive = s.archive ∧ (State.writeBank bank1 a n f s).pages = s.pages ∧
    (State.writeBank bank1 a n f s).ledger = s.ledger ∧ (State.writeBank bank1 a n f s).trouble = s.trouble ∧ (State.writeBank bank1 a n f s).sec = s.sec ∧
    (State.writeBank bank1 a n f s).power = s.power ∧ (State.writeBank bank1 a n f s).boot = s.boot ∧ (State.writeBank bank1 a n f s).dap = s.dap ∧
    (State.writeBank bank1 a n f s).seqs = s.seqs ∧ (State.writeBank bank1 a n f s).synth = s.synth ∧ (State.writeBank bank1 a n f s).wave = s.wave ∧
    (State.writeBank bank1 a n f s).readout = s.readout ∧ (State.writeBank bank1 a n f s).est = s.est ∧ (State.writeBank bank1 a n f s).fabric = s.fabric ∧
    (State.writeBank bank1 a n f s).acq = s.acq ∧ (State.writeBank bank1 a n f s).bias = s.bias ∧ (State.writeBank bank1 a n f s).cal = s.cal ∧
    (State.writeBank bank1 a n f s).thermal = s.thermal ∧ (State.writeBank bank1 a n f s).free = s.free := by
  unfold State.writeBank; (try dsimp only)
  all_goals (first | done | simp)

/-- What `State.patternStarts` keeps. -/
@[simp] theorem State.patternStarts_frame (u t : Nat) (v : Word) (all : Nat) (s : State) :
    (State.patternStarts u t v all s).pending = s.pending ∧ (State.patternStarts u t v all s).ident = s.ident ∧
    (State.patternStarts u t v all s).time = s.time ∧ (State.patternStarts u t v all s).units = s.units ∧ (State.patternStarts u t v all s).desk = s.desk ∧
    (State.patternStarts u t v all s).parts = s.parts ∧ (State.patternStarts u t v all s).archive = s.archive ∧ (State.patternStarts u t v all s).sec = s.sec ∧
    (State.patternStarts u t v all s).power = s.power ∧ (State.patternStarts u t v all s).boot = s.boot ∧ (State.patternStarts u t v all s).dap = s.dap ∧
    (State.patternStarts u t v all s).seqs = s.seqs ∧ (State.patternStarts u t v all s).synth = s.synth ∧ (State.patternStarts u t v all s).wave = s.wave ∧
    (State.patternStarts u t v all s).readout = s.readout ∧ (State.patternStarts u t v all s).est = s.est ∧
    (State.patternStarts u t v all s).fabric = s.fabric ∧ (State.patternStarts u t v all s).conc = s.conc ∧ (State.patternStarts u t v all s).bias = s.bias ∧
    (State.patternStarts u t v all s).cal = s.cal ∧ (State.patternStarts u t v all s).thermal = s.thermal := by
  unfold State.patternStarts
  all_goals (first | done | simp)

/-- What `State.patApply` keeps. -/
@[simp] theorem State.patApply_frame (s : State) (r : PatRec) :
    (State.patApply s r).pending = s.pending ∧ (State.patApply s r).ident = s.ident ∧ (State.patApply s r).time = s.time ∧ (State.patApply s r).host = s.host ∧
    (State.patApply s r).units = s.units ∧ (State.patApply s r).desk = s.desk ∧ (State.patApply s r).parts = s.parts ∧
    (State.patApply s r).archive = s.archive ∧ (State.patApply s r).pages = s.pages ∧ (State.patApply s r).ledger = s.ledger ∧
    (State.patApply s r).trouble = s.trouble ∧ (State.patApply s r).sec = s.sec ∧ (State.patApply s r).power = s.power ∧ (State.patApply s r).boot = s.boot ∧
    (State.patApply s r).dap = s.dap ∧ (State.patApply s r).seqs = s.seqs ∧ (State.patApply s r).synth = s.synth ∧ (State.patApply s r).wave = s.wave ∧
    (State.patApply s r).readout = s.readout ∧ (State.patApply s r).est = s.est ∧ (State.patApply s r).fabric = s.fabric ∧ (State.patApply s r).conc = s.conc ∧
    (State.patApply s r).bias = s.bias ∧ (State.patApply s r).cal = s.cal ∧ (State.patApply s r).thermal = s.thermal ∧ (State.patApply s r).free = s.free := by
  unfold State.patApply; (try dsimp only)
  repeat' split
  all_goals (first | done | simp)

/-- What `State.patSettle` keeps. -/
@[simp] theorem State.patSettle_frame (s0 s : State) :
    (State.patSettle s0 s).pending = s.pending ∧ (State.patSettle s0 s).ident = s.ident ∧ (State.patSettle s0 s).time = s.time ∧
    (State.patSettle s0 s).host = s.host ∧ (State.patSettle s0 s).units = s.units ∧ (State.patSettle s0 s).desk = s.desk ∧
    (State.patSettle s0 s).parts = s.parts ∧ (State.patSettle s0 s).archive = s.archive ∧ (State.patSettle s0 s).pages = s.pages ∧
    (State.patSettle s0 s).ledger = s.ledger ∧ (State.patSettle s0 s).trouble = s.trouble ∧ (State.patSettle s0 s).sec = s.sec ∧
    (State.patSettle s0 s).power = s.power ∧ (State.patSettle s0 s).boot = s.boot ∧ (State.patSettle s0 s).dap = s.dap ∧ (State.patSettle s0 s).seqs = s.seqs ∧
    (State.patSettle s0 s).synth = s.synth ∧ (State.patSettle s0 s).wave = s.wave ∧ (State.patSettle s0 s).readout = s.readout ∧
    (State.patSettle s0 s).est = s.est ∧ (State.patSettle s0 s).fabric = s.fabric ∧ (State.patSettle s0 s).conc = s.conc ∧
    (State.patSettle s0 s).bias = s.bias ∧ (State.patSettle s0 s).cal = s.cal ∧ (State.patSettle s0 s).thermal = s.thermal ∧
    (State.patSettle s0 s).free = s.free := by
  unfold State.patSettle; (try dsimp only)
  all_goals (first | done | simp)

/-- What `State.histFrom` keeps. -/
@[simp] theorem State.histFrom_frame (l t : Nat) (s : State) :
    (State.histFrom l t s).pending = s.pending ∧ (State.histFrom l t s).ident = s.ident ∧ (State.histFrom l t s).time = s.time ∧
    (State.histFrom l t s).host = s.host ∧ (State.histFrom l t s).units = s.units ∧ (State.histFrom l t s).desk = s.desk ∧
    (State.histFrom l t s).parts = s.parts ∧ (State.histFrom l t s).archive = s.archive ∧ (State.histFrom l t s).pages = s.pages ∧
    (State.histFrom l t s).ledger = s.ledger ∧ (State.histFrom l t s).trouble = s.trouble ∧ (State.histFrom l t s).sec = s.sec ∧
    (State.histFrom l t s).power = s.power ∧ (State.histFrom l t s).boot = s.boot ∧ (State.histFrom l t s).dap = s.dap ∧ (State.histFrom l t s).seqs = s.seqs ∧
    (State.histFrom l t s).synth = s.synth ∧ (State.histFrom l t s).wave = s.wave ∧ (State.histFrom l t s).readout = s.readout ∧
    (State.histFrom l t s).est = s.est ∧ (State.histFrom l t s).fabric = s.fabric ∧ (State.histFrom l t s).conc = s.conc ∧
    (State.histFrom l t s).bias = s.bias ∧ (State.histFrom l t s).cal = s.cal ∧ (State.histFrom l t s).thermal = s.thermal ∧
    (State.histFrom l t s).free = s.free := by
  unfold State.histFrom
  all_goals (first | done | simp)

/-- What `State.bcStep` keeps. -/
@[simp] theorem State.bcStep_frame (s : State) (r : BcRec) :
    (State.bcStep s r).pending = s.pending ∧ (State.bcStep s r).ident = s.ident ∧ (State.bcStep s r).host = s.host ∧ (State.bcStep s r).units = s.units ∧
    (State.bcStep s r).desk = s.desk ∧ (State.bcStep s r).parts = s.parts ∧ (State.bcStep s r).archive = s.archive ∧ (State.bcStep s r).pages = s.pages ∧
    (State.bcStep s r).ledger = s.ledger ∧ (State.bcStep s r).trouble = s.trouble ∧ (State.bcStep s r).sec = s.sec ∧ (State.bcStep s r).power = s.power ∧
    (State.bcStep s r).boot = s.boot ∧ (State.bcStep s r).dap = s.dap ∧ (State.bcStep s r).seqs = s.seqs ∧ (State.bcStep s r).synth = s.synth ∧
    (State.bcStep s r).wave = s.wave ∧ (State.bcStep s r).readout = s.readout ∧ (State.bcStep s r).est = s.est ∧ (State.bcStep s r).fabric = s.fabric ∧
    (State.bcStep s r).conc = s.conc ∧ (State.bcStep s r).acq = s.acq ∧ (State.bcStep s r).thermal = s.thermal ∧ (State.bcStep s r).free = s.free := by
  unfold State.bcStep; (try dsimp only)
  repeat' split
  all_goals (first | done | simp)

/-- What `State.hkAsk` keeps. -/
@[simp] theorem State.hkAsk_frame (d : Nat) (r : HkReq) (s : State) :
    (State.hkAsk d r s).pending = s.pending ∧ (State.hkAsk d r s).ident = s.ident ∧ (State.hkAsk d r s).time = s.time ∧ (State.hkAsk d r s).host = s.host ∧
    (State.hkAsk d r s).units = s.units ∧ (State.hkAsk d r s).desk = s.desk ∧ (State.hkAsk d r s).parts = s.parts ∧ (State.hkAsk d r s).archive = s.archive ∧
    (State.hkAsk d r s).pages = s.pages ∧ (State.hkAsk d r s).ledger = s.ledger ∧ (State.hkAsk d r s).trouble = s.trouble ∧ (State.hkAsk d r s).sec = s.sec ∧
    (State.hkAsk d r s).power = s.power ∧ (State.hkAsk d r s).boot = s.boot ∧ (State.hkAsk d r s).dap = s.dap ∧ (State.hkAsk d r s).seqs = s.seqs ∧
    (State.hkAsk d r s).synth = s.synth ∧ (State.hkAsk d r s).wave = s.wave ∧ (State.hkAsk d r s).readout = s.readout ∧ (State.hkAsk d r s).est = s.est ∧
    (State.hkAsk d r s).fabric = s.fabric ∧ (State.hkAsk d r s).conc = s.conc ∧ (State.hkAsk d r s).acq = s.acq ∧ (State.hkAsk d r s).cal = s.cal ∧
    (State.hkAsk d r s).thermal = s.thermal ∧ (State.hkAsk d r s).free = s.free := by
  unfold State.hkAsk; (try dsimp only)
  all_goals (first | done | simp)

/-- What `State.mcStep` keeps. -/
@[simp] theorem State.mcStep_frame (s : State) (r : McRec) :
    (State.mcStep s r).pending = s.pending ∧ (State.mcStep s r).ident = s.ident ∧ (State.mcStep s r).units = s.units ∧ (State.mcStep s r).desk = s.desk ∧
    (State.mcStep s r).parts = s.parts ∧ (State.mcStep s r).archive = s.archive ∧ (State.mcStep s r).sec = s.sec ∧ (State.mcStep s r).power = s.power ∧
    (State.mcStep s r).boot = s.boot ∧ (State.mcStep s r).dap = s.dap ∧ (State.mcStep s r).seqs = s.seqs ∧ (State.mcStep s r).wave = s.wave ∧
    (State.mcStep s r).readout = s.readout ∧ (State.mcStep s r).est = s.est ∧ (State.mcStep s r).fabric = s.fabric ∧ (State.mcStep s r).conc = s.conc ∧
    (State.mcStep s r).cal = s.cal ∧ (State.mcStep s r).thermal = s.thermal := by
  unfold State.mcStep; (try dsimp only)
  repeat' split
  all_goals (first | done | simp)

/-- What `State.modSensor` keeps. -/
@[simp] theorem State.modSensor_frame (i : Nat) (f : Sensor → Sensor) (s : State) :
    (State.modSensor i f s).pending = s.pending ∧ (State.modSensor i f s).ident = s.ident ∧ (State.modSensor i f s).time = s.time ∧
    (State.modSensor i f s).host = s.host ∧ (State.modSensor i f s).units = s.units ∧ (State.modSensor i f s).desk = s.desk ∧
    (State.modSensor i f s).parts = s.parts ∧ (State.modSensor i f s).archive = s.archive ∧ (State.modSensor i f s).pages = s.pages ∧
    (State.modSensor i f s).ledger = s.ledger ∧ (State.modSensor i f s).trouble = s.trouble ∧ (State.modSensor i f s).sec = s.sec ∧
    (State.modSensor i f s).power = s.power ∧ (State.modSensor i f s).boot = s.boot ∧ (State.modSensor i f s).dap = s.dap ∧
    (State.modSensor i f s).seqs = s.seqs ∧ (State.modSensor i f s).synth = s.synth ∧ (State.modSensor i f s).wave = s.wave ∧
    (State.modSensor i f s).readout = s.readout ∧ (State.modSensor i f s).est = s.est ∧ (State.modSensor i f s).fabric = s.fabric ∧
    (State.modSensor i f s).conc = s.conc ∧ (State.modSensor i f s).acq = s.acq ∧ (State.modSensor i f s).bias = s.bias ∧ (State.modSensor i f s).cal = s.cal ∧
    (State.modSensor i f s).free = s.free := by
  unfold State.modSensor; (try dsimp only)
  all_goals (first | done | simp)

/-- What `State.setInForce` keeps. -/
@[simp] theorem State.setInForce_frame (d c i r : Nat) (w : Word) (s : State) :
    (State.setInForce d c i r w s).pending = s.pending ∧ (State.setInForce d c i r w s).ident = s.ident ∧ (State.setInForce d c i r w s).time = s.time ∧
    (State.setInForce d c i r w s).host = s.host ∧ (State.setInForce d c i r w s).units = s.units ∧ (State.setInForce d c i r w s).desk = s.desk ∧
    (State.setInForce d c i r w s).parts = s.parts ∧ (State.setInForce d c i r w s).archive = s.archive ∧ (State.setInForce d c i r w s).pages = s.pages ∧
    (State.setInForce d c i r w s).ledger = s.ledger ∧ (State.setInForce d c i r w s).trouble = s.trouble ∧ (State.setInForce d c i r w s).sec = s.sec ∧
    (State.setInForce d c i r w s).power = s.power ∧ (State.setInForce d c i r w s).boot = s.boot ∧ (State.setInForce d c i r w s).dap = s.dap ∧
    (State.setInForce d c i r w s).seqs = s.seqs ∧ (State.setInForce d c i r w s).synth = s.synth ∧ (State.setInForce d c i r w s).wave = s.wave ∧
    (State.setInForce d c i r w s).readout = s.readout ∧ (State.setInForce d c i r w s).est = s.est ∧ (State.setInForce d c i r w s).fabric = s.fabric ∧
    (State.setInForce d c i r w s).conc = s.conc ∧ (State.setInForce d c i r w s).acq = s.acq ∧ (State.setInForce d c i r w s).bias = s.bias ∧
    (State.setInForce d c i r w s).thermal = s.thermal ∧ (State.setInForce d c i r w s).free = s.free := by
  unfold State.setInForce; (try dsimp only)
  all_goals (first | done | simp)

/-- What `State.trimCheck` keeps. -/
@[simp] theorem State.trimCheck_frame (d : Nat) (s : State) :
    (State.trimCheck d s).pending = s.pending ∧ (State.trimCheck d s).ident = s.ident ∧ (State.trimCheck d s).time = s.time ∧
    (State.trimCheck d s).units = s.units ∧ (State.trimCheck d s).desk = s.desk ∧ (State.trimCheck d s).parts = s.parts ∧
    (State.trimCheck d s).archive = s.archive ∧ (State.trimCheck d s).pages = s.pages ∧ (State.trimCheck d s).ledger = s.ledger ∧
    (State.trimCheck d s).trouble = s.trouble ∧ (State.trimCheck d s).sec = s.sec ∧ (State.trimCheck d s).power = s.power ∧
    (State.trimCheck d s).boot = s.boot ∧ (State.trimCheck d s).dap = s.dap ∧ (State.trimCheck d s).seqs = s.seqs ∧ (State.trimCheck d s).synth = s.synth ∧
    (State.trimCheck d s).wave = s.wave ∧ (State.trimCheck d s).readout = s.readout ∧ (State.trimCheck d s).est = s.est ∧
    (State.trimCheck d s).fabric = s.fabric ∧ (State.trimCheck d s).conc = s.conc ∧ (State.trimCheck d s).acq = s.acq ∧ (State.trimCheck d s).bias = s.bias ∧
    (State.trimCheck d s).thermal = s.thermal ∧ (State.trimCheck d s).free = s.free := by
  unfold State.trimCheck; (try dsimp only)
  repeat' split
  all_goals (first | done | simp)

/-- What `State.retarget` keeps. -/
@[simp] theorem State.retarget_frame (d : Nat) (f : Cal → Cal) (s : State) :
    (State.retarget d f s).pending = s.pending ∧ (State.retarget d f s).ident = s.ident ∧ (State.retarget d f s).time = s.time ∧
    (State.retarget d f s).units = s.units ∧ (State.retarget d f s).desk = s.desk ∧ (State.retarget d f s).parts = s.parts ∧
    (State.retarget d f s).archive = s.archive ∧ (State.retarget d f s).pages = s.pages ∧ (State.retarget d f s).ledger = s.ledger ∧
    (State.retarget d f s).trouble = s.trouble ∧ (State.retarget d f s).sec = s.sec ∧ (State.retarget d f s).power = s.power ∧
    (State.retarget d f s).boot = s.boot ∧ (State.retarget d f s).dap = s.dap ∧ (State.retarget d f s).seqs = s.seqs ∧ (State.retarget d f s).synth = s.synth ∧
    (State.retarget d f s).wave = s.wave ∧ (State.retarget d f s).readout = s.readout ∧ (State.retarget d f s).est = s.est ∧
    (State.retarget d f s).fabric = s.fabric ∧ (State.retarget d f s).conc = s.conc ∧ (State.retarget d f s).acq = s.acq ∧
    (State.retarget d f s).bias = s.bias ∧ (State.retarget d f s).thermal = s.thermal ∧ (State.retarget d f s).free = s.free := by
  unfold State.retarget; (try dsimp only)
  all_goals (first | done | simp)

/-- What `State.stepElem` keeps. -/
@[simp] theorem State.stepElem_frame (d c i gap : Nat) (s : State) :
    (State.stepElem d c i gap s).pending = s.pending ∧ (State.stepElem d c i gap s).ident = s.ident ∧ (State.stepElem d c i gap s).time = s.time ∧
    (State.stepElem d c i gap s).units = s.units ∧ (State.stepElem d c i gap s).desk = s.desk ∧ (State.stepElem d c i gap s).parts = s.parts ∧
    (State.stepElem d c i gap s).archive = s.archive ∧ (State.stepElem d c i gap s).pages = s.pages ∧ (State.stepElem d c i gap s).ledger = s.ledger ∧
    (State.stepElem d c i gap s).trouble = s.trouble ∧ (State.stepElem d c i gap s).sec = s.sec ∧ (State.stepElem d c i gap s).power = s.power ∧
    (State.stepElem d c i gap s).boot = s.boot ∧ (State.stepElem d c i gap s).dap = s.dap ∧ (State.stepElem d c i gap s).seqs = s.seqs ∧
    (State.stepElem d c i gap s).synth = s.synth ∧ (State.stepElem d c i gap s).wave = s.wave ∧ (State.stepElem d c i gap s).readout = s.readout ∧
    (State.stepElem d c i gap s).est = s.est ∧ (State.stepElem d c i gap s).fabric = s.fabric ∧ (State.stepElem d c i gap s).conc = s.conc ∧
    (State.stepElem d c i gap s).acq = s.acq ∧ (State.stepElem d c i gap s).bias = s.bias ∧ (State.stepElem d c i gap s).thermal = s.thermal ∧
    (State.stepElem d c i gap s).free = s.free := by
  unfold State.stepElem; (try dsimp only)
  repeat' split
  all_goals (first | done | simp)

/-- What `State.acceptCand` keeps. -/
@[simp] theorem State.acceptCand_frame (d : Nat) (s : State) :
    (State.acceptCand d s).pending = s.pending ∧ (State.acceptCand d s).ident = s.ident ∧ (State.acceptCand d s).time = s.time ∧
    (State.acceptCand d s).units = s.units ∧ (State.acceptCand d s).desk = s.desk ∧ (State.acceptCand d s).parts = s.parts ∧
    (State.acceptCand d s).archive = s.archive ∧ (State.acceptCand d s).pages = s.pages ∧ (State.acceptCand d s).ledger = s.ledger ∧
    (State.acceptCand d s).trouble = s.trouble ∧ (State.acceptCand d s).sec = s.sec ∧ (State.acceptCand d s).power = s.power ∧
    (State.acceptCand d s).boot = s.boot ∧ (State.acceptCand d s).dap = s.dap ∧ (State.acceptCand d s).seqs = s.seqs ∧ (State.acceptCand d s).synth = s.synth ∧
    (State.acceptCand d s).wave = s.wave ∧ (State.acceptCand d s).readout = s.readout ∧ (State.acceptCand d s).est = s.est ∧
    (State.acceptCand d s).fabric = s.fabric ∧ (State.acceptCand d s).conc = s.conc ∧ (State.acceptCand d s).acq = s.acq ∧
    (State.acceptCand d s).bias = s.bias ∧ (State.acceptCand d s).thermal = s.thermal ∧ (State.acceptCand d s).free = s.free := by
  unfold State.acceptCand; (try dsimp only)
  all_goals (first | done | simp)

/-- What `State.calPass` keeps. -/
@[simp] theorem State.calPass_frame (d c i r : Nat) (run : CalRun) (w : Word) (diff : List Int) (s : State) :
    (State.calPass d c i r run w diff s).pending = s.pending ∧ (State.calPass d c i r run w diff s).ident = s.ident ∧
    (State.calPass d c i r run w diff s).time = s.time ∧ (State.calPass d c i r run w diff s).units = s.units ∧
    (State.calPass d c i r run w diff s).desk = s.desk ∧ (State.calPass d c i r run w diff s).parts = s.parts ∧
    (State.calPass d c i r run w diff s).archive = s.archive ∧ (State.calPass d c i r run w diff s).pages = s.pages ∧
    (State.calPass d c i r run w diff s).ledger = s.ledger ∧ (State.calPass d c i r run w diff s).trouble = s.trouble ∧
    (State.calPass d c i r run w diff s).sec = s.sec ∧ (State.calPass d c i r run w diff s).power = s.power ∧
    (State.calPass d c i r run w diff s).boot = s.boot ∧ (State.calPass d c i r run w diff s).dap = s.dap ∧
    (State.calPass d c i r run w diff s).seqs = s.seqs ∧ (State.calPass d c i r run w diff s).synth = s.synth ∧
    (State.calPass d c i r run w diff s).wave = s.wave ∧ (State.calPass d c i r run w diff s).readout = s.readout ∧
    (State.calPass d c i r run w diff s).est = s.est ∧ (State.calPass d c i r run w diff s).fabric = s.fabric ∧
    (State.calPass d c i r run w diff s).conc = s.conc ∧ (State.calPass d c i r run w diff s).acq = s.acq ∧
    (State.calPass d c i r run w diff s).thermal = s.thermal := by
  unfold State.calPass; (try dsimp only)
  repeat' split
  all_goals (first | done | simp)

/-- What `State.calReject` keeps. -/
@[simp] theorem State.calReject_frame (d c i : Nat) (s : State) :
    (State.calReject d c i s).pending = s.pending ∧ (State.calReject d c i s).ident = s.ident ∧ (State.calReject d c i s).time = s.time ∧
    (State.calReject d c i s).units = s.units ∧ (State.calReject d c i s).desk = s.desk ∧ (State.calReject d c i s).parts = s.parts ∧
    (State.calReject d c i s).archive = s.archive ∧ (State.calReject d c i s).sec = s.sec ∧ (State.calReject d c i s).power = s.power ∧
    (State.calReject d c i s).boot = s.boot ∧ (State.calReject d c i s).dap = s.dap ∧ (State.calReject d c i s).seqs = s.seqs ∧
    (State.calReject d c i s).synth = s.synth ∧ (State.calReject d c i s).wave = s.wave ∧ (State.calReject d c i s).readout = s.readout ∧
    (State.calReject d c i s).est = s.est ∧ (State.calReject d c i s).fabric = s.fabric ∧ (State.calReject d c i s).conc = s.conc ∧
    (State.calReject d c i s).acq = s.acq ∧ (State.calReject d c i s).bias = s.bias ∧ (State.calReject d c i s).thermal = s.thermal := by
  unfold State.calReject; (try dsimp only)
  all_goals (first | done | simp)

/-- What `State.levelEnter` keeps. -/
@[simp] theorem State.levelEnter_frame (l : Level) (s : State) :
    (State.levelEnter l s).pending = s.pending ∧ (State.levelEnter l s).ident = s.ident ∧ (State.levelEnter l s).time = s.time ∧
    (State.levelEnter l s).units = s.units ∧ (State.levelEnter l s).desk = s.desk ∧ (State.levelEnter l s).parts = s.parts ∧
    (State.levelEnter l s).archive = s.archive ∧ (State.levelEnter l s).sec = s.sec ∧ (State.levelEnter l s).power = s.power ∧
    (State.levelEnter l s).boot = s.boot ∧ (State.levelEnter l s).dap = s.dap ∧ (State.levelEnter l s).seqs = s.seqs ∧ (State.levelEnter l s).synth = s.synth ∧
    (State.levelEnter l s).wave = s.wave ∧ (State.levelEnter l s).readout = s.readout ∧ (State.levelEnter l s).est = s.est ∧
    (State.levelEnter l s).fabric = s.fabric ∧ (State.levelEnter l s).conc = s.conc ∧ (State.levelEnter l s).acq = s.acq ∧
    (State.levelEnter l s).bias = s.bias ∧ (State.levelEnter l s).cal = s.cal := by
  unfold State.levelEnter; (try dsimp only)
  repeat' split
  all_goals (first | done | simp)

/-- What `State.levelLeave` keeps. -/
@[simp] theorem State.levelLeave_frame (l : Level) (s : State) :
    (State.levelLeave l s).pending = s.pending ∧ (State.levelLeave l s).ident = s.ident ∧ (State.levelLeave l s).time = s.time ∧
    (State.levelLeave l s).units = s.units ∧ (State.levelLeave l s).desk = s.desk ∧ (State.levelLeave l s).parts = s.parts ∧
    (State.levelLeave l s).archive = s.archive ∧ (State.levelLeave l s).sec = s.sec ∧ (State.levelLeave l s).power = s.power ∧
    (State.levelLeave l s).boot = s.boot ∧ (State.levelLeave l s).dap = s.dap ∧ (State.levelLeave l s).seqs = s.seqs ∧ (State.levelLeave l s).synth = s.synth ∧
    (State.levelLeave l s).wave = s.wave ∧ (State.levelLeave l s).readout = s.readout ∧ (State.levelLeave l s).est = s.est ∧
    (State.levelLeave l s).fabric = s.fabric ∧ (State.levelLeave l s).conc = s.conc ∧ (State.levelLeave l s).acq = s.acq ∧
    (State.levelLeave l s).bias = s.bias ∧ (State.levelLeave l s).cal = s.cal := by
  unfold State.levelLeave; (try dsimp only)
  all_goals (first | done | simp)

/-- What `State.setStep` keeps. -/
@[simp] theorem State.setStep_frame (n : Nat) (s : State) :
    (State.setStep n s).pending = s.pending ∧ (State.setStep n s).ident = s.ident ∧ (State.setStep n s).time = s.time ∧ (State.setStep n s).host = s.host ∧
    (State.setStep n s).units = s.units ∧ (State.setStep n s).desk = s.desk ∧ (State.setStep n s).parts = s.parts ∧ (State.setStep n s).archive = s.archive ∧
    (State.setStep n s).pages = s.pages ∧ (State.setStep n s).ledger = s.ledger ∧ (State.setStep n s).trouble = s.trouble ∧ (State.setStep n s).sec = s.sec ∧
    (State.setStep n s).power = s.power ∧ (State.setStep n s).boot = s.boot ∧ (State.setStep n s).dap = s.dap ∧ (State.setStep n s).seqs = s.seqs ∧
    (State.setStep n s).synth = s.synth ∧ (State.setStep n s).wave = s.wave ∧ (State.setStep n s).readout = s.readout ∧ (State.setStep n s).est = s.est ∧
    (State.setStep n s).fabric = s.fabric ∧ (State.setStep n s).conc = s.conc ∧ (State.setStep n s).acq = s.acq ∧ (State.setStep n s).bias = s.bias ∧
    (State.setStep n s).cal = s.cal ∧ (State.setStep n s).free = s.free := by
  unfold State.setStep; (try dsimp only)
  all_goals (first | done | simp)

/-- What `State.supervise` keeps. -/
@[simp] theorem State.supervise_frame (i : Nat) (s : State) :
    (State.supervise i s).pending = s.pending ∧ (State.supervise i s).ident = s.ident ∧ (State.supervise i s).time = s.time ∧
    (State.supervise i s).host = s.host ∧ (State.supervise i s).units = s.units ∧ (State.supervise i s).desk = s.desk ∧ (State.supervise i s).parts = s.parts ∧
    (State.supervise i s).archive = s.archive ∧ (State.supervise i s).pages = s.pages ∧ (State.supervise i s).ledger = s.ledger ∧
    (State.supervise i s).trouble = s.trouble ∧ (State.supervise i s).sec = s.sec ∧ (State.supervise i s).power = s.power ∧
    (State.supervise i s).boot = s.boot ∧ (State.supervise i s).dap = s.dap ∧ (State.supervise i s).seqs = s.seqs ∧ (State.supervise i s).synth = s.synth ∧
    (State.supervise i s).wave = s.wave ∧ (State.supervise i s).readout = s.readout ∧ (State.supervise i s).est = s.est ∧
    (State.supervise i s).fabric = s.fabric ∧ (State.supervise i s).conc = s.conc ∧ (State.supervise i s).acq = s.acq ∧ (State.supervise i s).bias = s.bias ∧
    (State.supervise i s).cal = s.cal ∧ (State.supervise i s).free = s.free := by
  unfold State.supervise; (try dsimp only)
  all_goals (first | done | simp)

/-- What `State.starved` keeps. -/
@[simp] theorem State.starved_frame (d : Nat) (s : State) :
    (State.starved d s).pending = s.pending ∧ (State.starved d s).ident = s.ident ∧ (State.starved d s).time = s.time ∧ (State.starved d s).units = s.units ∧
    (State.starved d s).desk = s.desk ∧ (State.starved d s).parts = s.parts ∧ (State.starved d s).archive = s.archive ∧ (State.starved d s).sec = s.sec ∧
    (State.starved d s).power = s.power ∧ (State.starved d s).boot = s.boot ∧ (State.starved d s).dap = s.dap ∧ (State.starved d s).seqs = s.seqs ∧
    (State.starved d s).synth = s.synth ∧ (State.starved d s).wave = s.wave ∧ (State.starved d s).readout = s.readout ∧ (State.starved d s).est = s.est ∧
    (State.starved d s).fabric = s.fabric ∧ (State.starved d s).conc = s.conc ∧ (State.starved d s).acq = s.acq ∧ (State.starved d s).bias = s.bias ∧
    (State.starved d s).cal = s.cal := by
  unfold State.starved; (try dsimp only)
  repeat' split
  all_goals (first | done | simp)

/-- What `State.unthrottle` keeps. -/
@[simp] theorem State.unthrottle_frame (s : State) :
    (State.unthrottle s).pending = s.pending ∧ (State.unthrottle s).ident = s.ident ∧ (State.unthrottle s).time = s.time ∧
    (State.unthrottle s).units = s.units ∧ (State.unthrottle s).desk = s.desk ∧ (State.unthrottle s).parts = s.parts ∧
    (State.unthrottle s).archive = s.archive ∧ (State.unthrottle s).sec = s.sec ∧ (State.unthrottle s).power = s.power ∧ (State.unthrottle s).boot = s.boot ∧
    (State.unthrottle s).dap = s.dap ∧ (State.unthrottle s).seqs = s.seqs ∧ (State.unthrottle s).synth = s.synth ∧ (State.unthrottle s).wave = s.wave ∧
    (State.unthrottle s).readout = s.readout ∧ (State.unthrottle s).est = s.est ∧ (State.unthrottle s).fabric = s.fabric ∧ (State.unthrottle s).conc = s.conc ∧
    (State.unthrottle s).acq = s.acq ∧ (State.unthrottle s).bias = s.bias ∧ (State.unthrottle s).cal = s.cal := by
  unfold State.unthrottle
  all_goals (first | done | simp)

/-- What `State.abortPower` keeps. -/
@[simp] theorem State.abortPower_frame (s : State) :
    (State.abortPower s).pending = s.pending ∧ (State.abortPower s).ident = s.ident ∧ (State.abortPower s).time = s.time ∧
    (State.abortPower s).units = s.units ∧ (State.abortPower s).desk = s.desk ∧ (State.abortPower s).parts = s.parts ∧
    (State.abortPower s).archive = s.archive ∧ (State.abortPower s).sec = s.sec ∧ (State.abortPower s).boot = s.boot ∧ (State.abortPower s).dap = s.dap ∧
    (State.abortPower s).seqs = s.seqs ∧ (State.abortPower s).synth = s.synth ∧ (State.abortPower s).wave = s.wave ∧ (State.abortPower s).readout = s.readout ∧
    (State.abortPower s).est = s.est ∧ (State.abortPower s).fabric = s.fabric ∧ (State.abortPower s).conc = s.conc ∧ (State.abortPower s).acq = s.acq ∧
    (State.abortPower s).bias = s.bias ∧ (State.abortPower s).cal = s.cal ∧ (State.abortPower s).thermal = s.thermal := by
  unfold State.abortPower; (try dsimp only)
  repeat' split
  all_goals (first | done | simp)

/-- What `State.estStop` keeps. -/
@[simp] theorem State.estStop_frame (e : Nat) (s : State) :
    (State.estStop e s).pending = s.pending ∧ (State.estStop e s).ident = s.ident ∧ (State.estStop e s).time = s.time ∧ (State.estStop e s).units = s.units ∧
    (State.estStop e s).desk = s.desk ∧ (State.estStop e s).parts = s.parts ∧ (State.estStop e s).archive = s.archive ∧ (State.estStop e s).sec = s.sec ∧
    (State.estStop e s).power = s.power ∧ (State.estStop e s).boot = s.boot ∧ (State.estStop e s).dap = s.dap ∧ (State.estStop e s).seqs = s.seqs ∧
    (State.estStop e s).synth = s.synth ∧ (State.estStop e s).wave = s.wave ∧ (State.estStop e s).readout = s.readout ∧ (State.estStop e s).fabric = s.fabric ∧
    (State.estStop e s).conc = s.conc ∧ (State.estStop e s).acq = s.acq ∧ (State.estStop e s).bias = s.bias ∧ (State.estStop e s).cal = s.cal ∧
    (State.estStop e s).thermal = s.thermal := by
  unfold State.estStop
  repeat' split
  all_goals (first | done | simp)

/-- What `State.park` keeps. -/
@[simp] theorem State.park_frame (l : List Nat) (s : State) :
    (State.park l s).pending = s.pending ∧ (State.park l s).ident = s.ident ∧ (State.park l s).time = s.time ∧ (State.park l s).host = s.host ∧
    (State.park l s).units = s.units ∧ (State.park l s).desk = s.desk ∧ (State.park l s).parts = s.parts ∧ (State.park l s).archive = s.archive ∧
    (State.park l s).pages = s.pages ∧ (State.park l s).ledger = s.ledger ∧ (State.park l s).trouble = s.trouble ∧ (State.park l s).sec = s.sec ∧
    (State.park l s).boot = s.boot ∧ (State.park l s).dap = s.dap ∧ (State.park l s).seqs = s.seqs ∧ (State.park l s).wave = s.wave ∧
    (State.park l s).readout = s.readout ∧ (State.park l s).est = s.est ∧ (State.park l s).fabric = s.fabric ∧ (State.park l s).conc = s.conc ∧
    (State.park l s).acq = s.acq ∧ (State.park l s).bias = s.bias ∧ (State.park l s).cal = s.cal ∧ (State.park l s).thermal = s.thermal ∧
    (State.park l s).free = s.free := by
  unfold State.park; (try dsimp only)
  all_goals (first | done | simp)

/-- What `State.dropDebug` keeps. -/
@[simp] theorem State.dropDebug_frame (n : Nat) (s : State) :
    (State.dropDebug n s).pending = s.pending ∧ (State.dropDebug n s).ident = s.ident ∧ (State.dropDebug n s).time = s.time ∧
    (State.dropDebug n s).units = s.units ∧ (State.dropDebug n s).desk = s.desk ∧ (State.dropDebug n s).parts = s.parts ∧
    (State.dropDebug n s).archive = s.archive ∧ (State.dropDebug n s).pages = s.pages ∧ (State.dropDebug n s).ledger = s.ledger ∧
    (State.dropDebug n s).trouble = s.trouble ∧ (State.dropDebug n s).sec = s.sec ∧ (State.dropDebug n s).power = s.power ∧
    (State.dropDebug n s).boot = s.boot ∧ (State.dropDebug n s).dap = s.dap ∧ (State.dropDebug n s).seqs = s.seqs ∧ (State.dropDebug n s).synth = s.synth ∧
    (State.dropDebug n s).wave = s.wave ∧ (State.dropDebug n s).readout = s.readout ∧ (State.dropDebug n s).est = s.est ∧
    (State.dropDebug n s).fabric = s.fabric ∧ (State.dropDebug n s).conc = s.conc ∧ (State.dropDebug n s).acq = s.acq ∧ (State.dropDebug n s).bias = s.bias ∧
    (State.dropDebug n s).cal = s.cal ∧ (State.dropDebug n s).thermal = s.thermal ∧ (State.dropDebug n s).free = s.free := by
  unfold State.dropDebug; (try dsimp only)
  all_goals (first | done | simp)

/-- What `State.powerAt` keeps. -/
@[simp] theorem State.powerAt_frame (p : Power) (s : State) :
    (State.powerAt p s).pending = s.pending ∧ (State.powerAt p s).ident = s.ident ∧ (State.powerAt p s).time = s.time ∧ (State.powerAt p s).units = s.units ∧
    (State.powerAt p s).desk = s.desk ∧ (State.powerAt p s).parts = s.parts ∧ (State.powerAt p s).archive = s.archive ∧ (State.powerAt p s).sec = s.sec ∧
    (State.powerAt p s).boot = s.boot ∧ (State.powerAt p s).dap = s.dap ∧ (State.powerAt p s).seqs = s.seqs ∧ (State.powerAt p s).synth = s.synth ∧
    (State.powerAt p s).wave = s.wave ∧ (State.powerAt p s).readout = s.readout ∧ (State.powerAt p s).est = s.est ∧ (State.powerAt p s).fabric = s.fabric ∧
    (State.powerAt p s).conc = s.conc ∧ (State.powerAt p s).acq = s.acq ∧ (State.powerAt p s).bias = s.bias ∧ (State.powerAt p s).cal = s.cal ∧
    (State.powerAt p s).thermal = s.thermal := by
  unfold State.powerAt; (try dsimp only)
  all_goals (first | done | simp)

/-- What `State.modPart` keeps. -/
@[simp] theorem State.modPart_frame (p : Nat) (f : Partition → Partition) (s : State) :
    (State.modPart p f s).pending = s.pending ∧ (State.modPart p f s).ident = s.ident ∧ (State.modPart p f s).time = s.time ∧
    (State.modPart p f s).host = s.host ∧ (State.modPart p f s).units = s.units ∧ (State.modPart p f s).desk = s.desk ∧
    (State.modPart p f s).archive = s.archive ∧ (State.modPart p f s).pages = s.pages ∧ (State.modPart p f s).ledger = s.ledger ∧
    (State.modPart p f s).trouble = s.trouble ∧ (State.modPart p f s).sec = s.sec ∧ (State.modPart p f s).power = s.power ∧
    (State.modPart p f s).boot = s.boot ∧ (State.modPart p f s).dap = s.dap ∧ (State.modPart p f s).seqs = s.seqs ∧ (State.modPart p f s).synth = s.synth ∧
    (State.modPart p f s).wave = s.wave ∧ (State.modPart p f s).readout = s.readout ∧ (State.modPart p f s).est = s.est ∧
    (State.modPart p f s).fabric = s.fabric ∧ (State.modPart p f s).conc = s.conc ∧ (State.modPart p f s).acq = s.acq ∧ (State.modPart p f s).bias = s.bias ∧
    (State.modPart p f s).cal = s.cal ∧ (State.modPart p f s).thermal = s.thermal ∧ (State.modPart p f s).free = s.free := by
  unfold State.modPart; (try dsimp only)
  all_goals (first | done | simp)

/-- What `State.pdDrain` keeps. -/
@[simp] theorem State.pdDrain_frame (p : Packet) (s : State) :
    (State.pdDrain p s).pending = s.pending ∧ (State.pdDrain p s).ident = s.ident ∧ (State.pdDrain p s).time = s.time ∧ (State.pdDrain p s).units = s.units ∧
    (State.pdDrain p s).parts = s.parts ∧ (State.pdDrain p s).archive = s.archive ∧ (State.pdDrain p s).sec = s.sec ∧ (State.pdDrain p s).power = s.power ∧
    (State.pdDrain p s).boot = s.boot ∧ (State.pdDrain p s).dap = s.dap ∧ (State.pdDrain p s).seqs = s.seqs ∧ (State.pdDrain p s).synth = s.synth ∧
    (State.pdDrain p s).wave = s.wave ∧ (State.pdDrain p s).readout = s.readout ∧ (State.pdDrain p s).est = s.est ∧ (State.pdDrain p s).fabric = s.fabric ∧
    (State.pdDrain p s).conc = s.conc ∧ (State.pdDrain p s).acq = s.acq ∧ (State.pdDrain p s).bias = s.bias ∧ (State.pdDrain p s).cal = s.cal ∧
    (State.pdDrain p s).thermal = s.thermal := by
  unfold State.pdDrain
  all_goals (first | done | simp)

/-- What `State.pdMove` keeps. -/
@[simp] theorem State.pdMove_frame (p : Packet) (s : State) :
    (State.pdMove p s).pending = s.pending ∧ (State.pdMove p s).ident = s.ident ∧ (State.pdMove p s).time = s.time ∧ (State.pdMove p s).units = s.units ∧
    (State.pdMove p s).archive = s.archive ∧ (State.pdMove p s).sec = s.sec ∧ (State.pdMove p s).power = s.power ∧ (State.pdMove p s).boot = s.boot ∧
    (State.pdMove p s).dap = s.dap ∧ (State.pdMove p s).seqs = s.seqs ∧ (State.pdMove p s).synth = s.synth ∧ (State.pdMove p s).wave = s.wave ∧
    (State.pdMove p s).readout = s.readout ∧ (State.pdMove p s).est = s.est ∧ (State.pdMove p s).fabric = s.fabric ∧ (State.pdMove p s).conc = s.conc ∧
    (State.pdMove p s).bias = s.bias ∧ (State.pdMove p s).cal = s.cal ∧ (State.pdMove p s).thermal = s.thermal := by
  unfold State.pdMove; (try dsimp only)
  repeat' split
  all_goals (first | done | simp)

/-- What `State.moved` keeps. -/
@[simp] theorem State.moved_frame (q : Nat) (s : State) :
    (State.moved q s).pending = s.pending ∧ (State.moved q s).ident = s.ident ∧ (State.moved q s).time = s.time ∧ (State.moved q s).units = s.units ∧
    (State.moved q s).desk = s.desk ∧ (State.moved q s).parts = s.parts ∧ (State.moved q s).archive = s.archive ∧ (State.moved q s).pages = s.pages ∧
    (State.moved q s).ledger = s.ledger ∧ (State.moved q s).trouble = s.trouble ∧ (State.moved q s).sec = s.sec ∧ (State.moved q s).power = s.power ∧
    (State.moved q s).boot = s.boot ∧ (State.moved q s).dap = s.dap ∧ (State.moved q s).seqs = s.seqs ∧ (State.moved q s).synth = s.synth ∧
    (State.moved q s).wave = s.wave ∧ (State.moved q s).readout = s.readout ∧ (State.moved q s).est = s.est ∧ (State.moved q s).fabric = s.fabric ∧
    (State.moved q s).conc = s.conc ∧ (State.moved q s).acq = s.acq ∧ (State.moved q s).bias = s.bias ∧ (State.moved q s).cal = s.cal ∧
    (State.moved q s).thermal = s.thermal ∧ (State.moved q s).free = s.free := by
  unfold State.moved; (try dsimp only)
  repeat' split
  all_goals (first | done | simp)

/-- What `State.holdSeq` keeps. -/
@[simp] theorem State.holdSeq_frame (q : Nat) (abortMode : Bool) (acc : BitVec 32) (s : State) :
    (State.holdSeq q abortMode acc s).pending = s.pending ∧ (State.holdSeq q abortMode acc s).ident = s.ident ∧
    (State.holdSeq q abortMode acc s).units = s.units ∧ (State.holdSeq q abortMode acc s).desk = s.desk ∧
    (State.holdSeq q abortMode acc s).archive = s.archive ∧ (State.holdSeq q abortMode acc s).sec = s.sec ∧ (State.holdSeq q abortMode acc s).power = s.power ∧
    (State.holdSeq q abortMode acc s).boot = s.boot ∧ (State.holdSeq q abortMode acc s).dap = s.dap ∧ (State.holdSeq q abortMode acc s).synth = s.synth ∧
    (State.holdSeq q abortMode acc s).wave = s.wave ∧ (State.holdSeq q abortMode acc s).readout = s.readout ∧ (State.holdSeq q abortMode acc s).est = s.est ∧
    (State.holdSeq q abortMode acc s).fabric = s.fabric ∧ (State.holdSeq q abortMode acc s).conc = s.conc ∧ (State.holdSeq q abortMode acc s).acq = s.acq ∧
    (State.holdSeq q abortMode acc s).bias = s.bias ∧ (State.holdSeq q abortMode acc s).cal = s.cal ∧ (State.holdSeq q abortMode acc s).thermal = s.thermal := by
  unfold State.holdSeq; (try dsimp only)
  all_goals (first | done | simp)

/-- What `State.hold` keeps. -/
@[simp] theorem State.hold_frame (p : Nat) (abortMode : Bool) (timeout acc : Nat) (s : State) :
    (State.hold p abortMode timeout acc s).pending = s.pending ∧ (State.hold p abortMode timeout acc s).ident = s.ident ∧
    (State.hold p abortMode timeout acc s).units = s.units ∧ (State.hold p abortMode timeout acc s).desk = s.desk ∧
    (State.hold p abortMode timeout acc s).archive = s.archive ∧ (State.hold p abortMode timeout acc s).sec = s.sec ∧
    (State.hold p abortMode timeout acc s).power = s.power ∧ (State.hold p abortMode timeout acc s).boot = s.boot ∧
    (State.hold p abortMode timeout acc s).dap = s.dap ∧ (State.hold p abortMode timeout acc s).synth = s.synth ∧
    (State.hold p abortMode timeout acc s).wave = s.wave ∧ (State.hold p abortMode timeout acc s).readout = s.readout ∧
    (State.hold p abortMode timeout acc s).est = s.est ∧ (State.hold p abortMode timeout acc s).fabric = s.fabric ∧
    (State.hold p abortMode timeout acc s).conc = s.conc ∧ (State.hold p abortMode timeout acc s).acq = s.acq ∧
    (State.hold p abortMode timeout acc s).bias = s.bias ∧ (State.hold p abortMode timeout acc s).cal = s.cal ∧
    (State.hold p abortMode timeout acc s).thermal = s.thermal := by
  unfold State.hold; (try dsimp only)
  repeat' split
  all_goals (first | done | simp)

/-- What `State.unhold` keeps. -/
@[simp] theorem State.unhold_frame (p : Nat) (s : State) :
    (State.unhold p s).pending = s.pending ∧ (State.unhold p s).ident = s.ident ∧ (State.unhold p s).time = s.time ∧ (State.unhold p s).host = s.host ∧
    (State.unhold p s).units = s.units ∧ (State.unhold p s).desk = s.desk ∧ (State.unhold p s).archive = s.archive ∧ (State.unhold p s).pages = s.pages ∧
    (State.unhold p s).ledger = s.ledger ∧ (State.unhold p s).trouble = s.trouble ∧ (State.unhold p s).sec = s.sec ∧ (State.unhold p s).power = s.power ∧
    (State.unhold p s).boot = s.boot ∧ (State.unhold p s).dap = s.dap ∧ (State.unhold p s).synth = s.synth ∧ (State.unhold p s).wave = s.wave ∧
    (State.unhold p s).readout = s.readout ∧ (State.unhold p s).est = s.est ∧ (State.unhold p s).fabric = s.fabric ∧ (State.unhold p s).conc = s.conc ∧
    (State.unhold p s).acq = s.acq ∧ (State.unhold p s).bias = s.bias ∧ (State.unhold p s).cal = s.cal ∧ (State.unhold p s).thermal = s.thermal ∧
    (State.unhold p s).free = s.free := by
  unfold State.unhold; (try dsimp only)
  repeat' split
  all_goals (first | done | simp)

/-- What `State.tickAbsent` keeps. -/
@[simp] theorem State.tickAbsent_frame (l : Fin 32) (s : State) :
    (State.tickAbsent l s).pending = s.pending ∧ (State.tickAbsent l s).ident = s.ident ∧ (State.tickAbsent l s).time = s.time ∧
    (State.tickAbsent l s).host = s.host ∧ (State.tickAbsent l s).units = s.units ∧ (State.tickAbsent l s).desk = s.desk ∧
    (State.tickAbsent l s).parts = s.parts ∧ (State.tickAbsent l s).archive = s.archive ∧ (State.tickAbsent l s).pages = s.pages ∧
    (State.tickAbsent l s).ledger = s.ledger ∧ (State.tickAbsent l s).trouble = s.trouble ∧ (State.tickAbsent l s).sec = s.sec ∧
    (State.tickAbsent l s).power = s.power ∧ (State.tickAbsent l s).boot = s.boot ∧ (State.tickAbsent l s).dap = s.dap ∧ (State.tickAbsent l s).seqs = s.seqs ∧
    (State.tickAbsent l s).synth = s.synth ∧ (State.tickAbsent l s).wave = s.wave ∧ (State.tickAbsent l s).fabric = s.fabric ∧
    (State.tickAbsent l s).conc = s.conc ∧ (State.tickAbsent l s).acq = s.acq ∧ (State.tickAbsent l s).bias = s.bias ∧ (State.tickAbsent l s).cal = s.cal ∧
    (State.tickAbsent l s).thermal = s.thermal ∧ (State.tickAbsent l s).free = s.free := by
  unfold State.tickAbsent; (try dsimp only)
  all_goals (first | done | simp)

/-- What `State.parityAt` keeps. -/
@[simp] theorem State.parityAt_frame (lane : BridgeLane) (s : State) :
    (State.parityAt lane s).pending = s.pending ∧ (State.parityAt lane s).ident = s.ident ∧ (State.parityAt lane s).time = s.time ∧
    (State.parityAt lane s).host = s.host ∧ (State.parityAt lane s).units = s.units ∧ (State.parityAt lane s).desk = s.desk ∧
    (State.parityAt lane s).archive = s.archive ∧ (State.parityAt lane s).pages = s.pages ∧ (State.parityAt lane s).ledger = s.ledger ∧
    (State.parityAt lane s).trouble = s.trouble ∧ (State.parityAt lane s).sec = s.sec ∧ (State.parityAt lane s).power = s.power ∧
    (State.parityAt lane s).boot = s.boot ∧ (State.parityAt lane s).dap = s.dap ∧ (State.parityAt lane s).seqs = s.seqs ∧
    (State.parityAt lane s).synth = s.synth ∧ (State.parityAt lane s).wave = s.wave ∧ (State.parityAt lane s).readout = s.readout ∧
    (State.parityAt lane s).est = s.est ∧ (State.parityAt lane s).fabric = s.fabric ∧ (State.parityAt lane s).conc = s.conc ∧
    (State.parityAt lane s).acq = s.acq ∧ (State.parityAt lane s).bias = s.bias ∧ (State.parityAt lane s).cal = s.cal ∧
    (State.parityAt lane s).thermal = s.thermal ∧ (State.parityAt lane s).free = s.free := by
  unfold State.parityAt; (try dsimp only)
  all_goals (first | done | simp)

/-- What `State.failDie` keeps. -/
@[simp] theorem State.failDie_frame (d : Fin 4) (s : State) :
    (State.failDie d s).pending = s.pending ∧ (State.failDie d s).ident = s.ident ∧ (State.failDie d s).time = s.time ∧ (State.failDie d s).units = s.units ∧
    (State.failDie d s).desk = s.desk ∧ (State.failDie d s).archive = s.archive ∧ (State.failDie d s).sec = s.sec ∧ (State.failDie d s).power = s.power ∧
    (State.failDie d s).boot = s.boot ∧ (State.failDie d s).dap = s.dap ∧ (State.failDie d s).seqs = s.seqs ∧ (State.failDie d s).wave = s.wave ∧
    (State.failDie d s).readout = s.readout ∧ (State.failDie d s).est = s.est ∧ (State.failDie d s).fabric = s.fabric ∧ (State.failDie d s).conc = s.conc ∧
    (State.failDie d s).acq = s.acq ∧ (State.failDie d s).bias = s.bias ∧ (State.failDie d s).cal = s.cal ∧ (State.failDie d s).thermal = s.thermal := by
  unfold State.failDie; (try dsimp only)
  all_goals (first | done | simp)

/-- What `State.retireLane` keeps. -/
@[simp] theorem State.retireLane_frame (die : Fin 4) (toHub : Bool) (s : State) :
    (State.retireLane die toHub s).pending = s.pending ∧ (State.retireLane die toHub s).ident = s.ident ∧ (State.retireLane die toHub s).time = s.time ∧
    (State.retireLane die toHub s).units = s.units ∧ (State.retireLane die toHub s).desk = s.desk ∧ (State.retireLane die toHub s).archive = s.archive ∧
    (State.retireLane die toHub s).sec = s.sec ∧ (State.retireLane die toHub s).power = s.power ∧ (State.retireLane die toHub s).boot = s.boot ∧
    (State.retireLane die toHub s).dap = s.dap ∧ (State.retireLane die toHub s).seqs = s.seqs ∧ (State.retireLane die toHub s).wave = s.wave ∧
    (State.retireLane die toHub s).readout = s.readout ∧ (State.retireLane die toHub s).est = s.est ∧ (State.retireLane die toHub s).fabric = s.fabric ∧
    (State.retireLane die toHub s).conc = s.conc ∧ (State.retireLane die toHub s).acq = s.acq ∧ (State.retireLane die toHub s).bias = s.bias ∧
    (State.retireLane die toHub s).cal = s.cal ∧ (State.retireLane die toHub s).thermal = s.thermal := by
  unfold State.retireLane; (try dsimp only)
  repeat' split
  all_goals (first | done | simp)

/-- What `State.resetFuncs` keeps. -/
@[simp] theorem State.resetFuncs_frame (f : Nat → Bool) (s : State) :
    (State.resetFuncs f s).pending = s.pending ∧ (State.resetFuncs f s).ident = s.ident ∧ (State.resetFuncs f s).time = s.time ∧
    (State.resetFuncs f s).units = s.units ∧ (State.resetFuncs f s).parts = s.parts ∧ (State.resetFuncs f s).archive = s.archive ∧
    (State.resetFuncs f s).sec = s.sec ∧ (State.resetFuncs f s).power = s.power ∧ (State.resetFuncs f s).boot = s.boot ∧ (State.resetFuncs f s).dap = s.dap ∧
    (State.resetFuncs f s).seqs = s.seqs ∧ (State.resetFuncs f s).synth = s.synth ∧ (State.resetFuncs f s).wave = s.wave ∧
    (State.resetFuncs f s).readout = s.readout ∧ (State.resetFuncs f s).est = s.est ∧ (State.resetFuncs f s).fabric = s.fabric ∧
    (State.resetFuncs f s).conc = s.conc ∧ (State.resetFuncs f s).acq = s.acq ∧ (State.resetFuncs f s).bias = s.bias ∧ (State.resetFuncs f s).cal = s.cal ∧
    (State.resetFuncs f s).thermal = s.thermal := by
  unfold State.resetFuncs; (try dsimp only)
  repeat' split
  all_goals (first | done | simp)

/-- What `State.leaveShutdown` keeps. -/
@[simp] theorem State.leaveShutdown_frame (s : State) :
    (State.leaveShutdown s).pending = s.pending ∧ (State.leaveShutdown s).ident = s.ident ∧ (State.leaveShutdown s).time = s.time ∧
    (State.leaveShutdown s).units = s.units ∧ (State.leaveShutdown s).desk = s.desk ∧ (State.leaveShutdown s).parts = s.parts ∧
    (State.leaveShutdown s).archive = s.archive ∧ (State.leaveShutdown s).sec = s.sec ∧ (State.leaveShutdown s).power = s.power ∧
    (State.leaveShutdown s).boot = s.boot ∧ (State.leaveShutdown s).dap = s.dap ∧ (State.leaveShutdown s).seqs = s.seqs ∧
    (State.leaveShutdown s).wave = s.wave ∧ (State.leaveShutdown s).readout = s.readout ∧ (State.leaveShutdown s).est = s.est ∧
    (State.leaveShutdown s).fabric = s.fabric ∧ (State.leaveShutdown s).conc = s.conc ∧ (State.leaveShutdown s).acq = s.acq ∧
    (State.leaveShutdown s).bias = s.bias ∧ (State.leaveShutdown s).cal = s.cal := by
  unfold State.leaveShutdown; (try dsimp only)
  repeat' split
  all_goals (first | done | simp)

/-- What `State.powerStep` keeps. -/
@[simp] theorem State.powerStep_frame (acc : BitVec 32) (s : State) :
    (State.powerStep acc s).pending = s.pending ∧ (State.powerStep acc s).ident = s.ident ∧ (State.powerStep acc s).units = s.units ∧
    (State.powerStep acc s).desk = s.desk ∧ (State.powerStep acc s).sec = s.sec ∧ (State.powerStep acc s).boot = s.boot ∧ (State.powerStep acc s).dap = s.dap ∧
    (State.powerStep acc s).wave = s.wave ∧ (State.powerStep acc s).est = s.est ∧ (State.powerStep acc s).fabric = s.fabric ∧
    (State.powerStep acc s).conc = s.conc ∧ (State.powerStep acc s).acq = s.acq := by
  unfold State.powerStep; (try dsimp only)
  repeat' split
  all_goals (first | done | simp)

/-- What `State.powerGo` keeps. -/
@[simp] theorem State.powerGo_frame (p : Packet) (s : State) :
    (State.powerGo p s).pending = s.pending ∧ (State.powerGo p s).ident = s.ident ∧ (State.powerGo p s).units = s.units ∧ (State.powerGo p s).desk = s.desk ∧
    (State.powerGo p s).sec = s.sec ∧ (State.powerGo p s).boot = s.boot ∧ (State.powerGo p s).dap = s.dap ∧ (State.powerGo p s).wave = s.wave ∧
    (State.powerGo p s).est = s.est ∧ (State.powerGo p s).fabric = s.fabric ∧ (State.powerGo p s).conc = s.conc ∧ (State.powerGo p s).acq = s.acq := by
  unfold State.powerGo; (try dsimp only)
  repeat' split
  all_goals (first | done | simp)

/-- What `State.unpark` keeps. -/
@[simp] theorem State.unpark_frame (s : State) :
    (State.unpark s).pending = s.pending ∧ (State.unpark s).ident = s.ident ∧ (State.unpark s).time = s.time ∧ (State.unpark s).host = s.host ∧
    (State.unpark s).units = s.units ∧ (State.unpark s).desk = s.desk ∧ (State.unpark s).parts = s.parts ∧ (State.unpark s).archive = s.archive ∧
    (State.unpark s).pages = s.pages ∧ (State.unpark s).ledger = s.ledger ∧ (State.unpark s).trouble = s.trouble ∧ (State.unpark s).sec = s.sec ∧
    (State.unpark s).power = s.power ∧ (State.unpark s).boot = s.boot ∧ (State.unpark s).dap = s.dap ∧ (State.unpark s).seqs = s.seqs ∧
    (State.unpark s).wave = s.wave ∧ (State.unpark s).readout = s.readout ∧ (State.unpark s).est = s.est ∧ (State.unpark s).fabric = s.fabric ∧
    (State.unpark s).conc = s.conc ∧ (State.unpark s).acq = s.acq ∧ (State.unpark s).bias = s.bias ∧ (State.unpark s).cal = s.cal ∧
    (State.unpark s).thermal = s.thermal ∧ (State.unpark s).free = s.free := by
  unfold State.unpark
  all_goals (first | done | simp)

/-- What `State.powerEnd` keeps. -/
@[simp] theorem State.powerEnd_frame (s : State) :
    (State.powerEnd s).pending = s.pending ∧ (State.powerEnd s).ident = s.ident ∧ (State.powerEnd s).time = s.time ∧ (State.powerEnd s).units = s.units ∧
    (State.powerEnd s).desk = s.desk ∧ (State.powerEnd s).parts = s.parts ∧ (State.powerEnd s).archive = s.archive ∧ (State.powerEnd s).sec = s.sec ∧
    (State.powerEnd s).power = s.power ∧ (State.powerEnd s).boot = s.boot ∧ (State.powerEnd s).dap = s.dap ∧ (State.powerEnd s).seqs = s.seqs ∧
    (State.powerEnd s).synth = s.synth ∧ (State.powerEnd s).wave = s.wave ∧ (State.powerEnd s).readout = s.readout ∧ (State.powerEnd s).est = s.est ∧
    (State.powerEnd s).fabric = s.fabric ∧ (State.powerEnd s).conc = s.conc ∧ (State.powerEnd s).acq = s.acq ∧ (State.powerEnd s).bias = s.bias ∧
    (State.powerEnd s).cal = s.cal ∧ (State.powerEnd s).thermal = s.thermal := by
  unfold State.powerEnd
  repeat' split
  all_goals (first | done | simp)

/-- What `State.powerReached` keeps. -/
@[simp] theorem State.powerReached_frame (n : Power) (s : State) :
    (State.powerReached n s).pending = s.pending ∧ (State.powerReached n s).ident = s.ident ∧ (State.powerReached n s).units = s.units ∧
    (State.powerReached n s).desk = s.desk ∧ (State.powerReached n s).sec = s.sec ∧ (State.powerReached n s).dap = s.dap ∧
    (State.powerReached n s).wave = s.wave ∧ (State.powerReached n s).est = s.est ∧ (State.powerReached n s).fabric = s.fabric ∧
    (State.powerReached n s).conc = s.conc ∧ (State.powerReached n s).acq = s.acq := by
  unfold State.powerReached; (try dsimp only)
  repeat' split
  all_goals (first | done | simp)

/-- What `State.setLevel` keeps. -/
@[simp] theorem State.setLevel_frame (h : BitVec 32) (n : Nat) (s : State) :
    (State.setLevel h n s).pending = s.pending ∧ (State.setLevel h n s).ident = s.ident ∧ (State.setLevel h n s).time = s.time ∧
    (State.setLevel h n s).units = s.units ∧ (State.setLevel h n s).desk = s.desk ∧ (State.setLevel h n s).parts = s.parts ∧
    (State.setLevel h n s).archive = s.archive ∧ (State.setLevel h n s).pages = s.pages ∧ (State.setLevel h n s).ledger = s.ledger ∧
    (State.setLevel h n s).trouble = s.trouble ∧ (State.setLevel h n s).sec = s.sec ∧ (State.setLevel h n s).power = s.power ∧
    (State.setLevel h n s).boot = s.boot ∧ (State.setLevel h n s).dap = s.dap ∧ (State.setLevel h n s).seqs = s.seqs ∧ (State.setLevel h n s).synth = s.synth ∧
    (State.setLevel h n s).wave = s.wave ∧ (State.setLevel h n s).readout = s.readout ∧ (State.setLevel h n s).est = s.est ∧
    (State.setLevel h n s).fabric = s.fabric ∧ (State.setLevel h n s).conc = s.conc ∧ (State.setLevel h n s).acq = s.acq ∧
    (State.setLevel h n s).bias = s.bias ∧ (State.setLevel h n s).cal = s.cal ∧ (State.setLevel h n s).thermal = s.thermal ∧
    (State.setLevel h n s).free = s.free := by
  unfold State.setLevel; (try dsimp only)
  all_goals (first | done | simp)

/-- What `State.unlockFail` keeps. -/
@[simp] theorem State.unlockFail_frame (p : Packet) (s : State) :
    (State.unlockFail p s).pending = s.pending ∧ (State.unlockFail p s).ident = s.ident ∧ (State.unlockFail p s).time = s.time ∧
    (State.unlockFail p s).units = s.units ∧ (State.unlockFail p s).desk = s.desk ∧ (State.unlockFail p s).parts = s.parts ∧
    (State.unlockFail p s).archive = s.archive ∧ (State.unlockFail p s).power = s.power ∧ (State.unlockFail p s).boot = s.boot ∧
    (State.unlockFail p s).dap = s.dap ∧ (State.unlockFail p s).seqs = s.seqs ∧ (State.unlockFail p s).synth = s.synth ∧ (State.unlockFail p s).wave = s.wave ∧
    (State.unlockFail p s).readout = s.readout ∧ (State.unlockFail p s).est = s.est ∧ (State.unlockFail p s).fabric = s.fabric ∧
    (State.unlockFail p s).conc = s.conc ∧ (State.unlockFail p s).acq = s.acq ∧ (State.unlockFail p s).bias = s.bias ∧ (State.unlockFail p s).cal = s.cal ∧
    (State.unlockFail p s).thermal = s.thermal := by
  unfold State.unlockFail; (try dsimp only)
  repeat' split
  all_goals (first | done | simp)

/-- What `State.patchEnd` keeps. -/
@[simp] theorem State.patchEnd_frame (o : OpenCmd) (status : Nat) (s : State) :
    (State.patchEnd o status s).pending = s.pending ∧ (State.patchEnd o status s).ident = s.ident ∧ (State.patchEnd o status s).time = s.time ∧
    (State.patchEnd o status s).units = s.units ∧ (State.patchEnd o status s).desk = s.desk ∧ (State.patchEnd o status s).parts = s.parts ∧
    (State.patchEnd o status s).archive = s.archive ∧ (State.patchEnd o status s).power = s.power ∧ (State.patchEnd o status s).boot = s.boot ∧
    (State.patchEnd o status s).dap = s.dap ∧ (State.patchEnd o status s).seqs = s.seqs ∧ (State.patchEnd o status s).synth = s.synth ∧
    (State.patchEnd o status s).wave = s.wave ∧ (State.patchEnd o status s).readout = s.readout ∧ (State.patchEnd o status s).est = s.est ∧
    (State.patchEnd o status s).fabric = s.fabric ∧ (State.patchEnd o status s).conc = s.conc ∧ (State.patchEnd o status s).acq = s.acq ∧
    (State.patchEnd o status s).bias = s.bias ∧ (State.patchEnd o status s).cal = s.cal ∧ (State.patchEnd o status s).thermal = s.thermal := by
  unfold State.patchEnd; (try dsimp only)
  repeat' split
  all_goals (first | done | simp)

/-- What `State.patchPend` keeps. -/
@[simp] theorem State.patchPend_frame (img : PatchImage) (s : State) :
    (State.patchPend img s).pending = s.pending ∧ (State.patchPend img s).ident = s.ident ∧ (State.patchPend img s).time = s.time ∧
    (State.patchPend img s).host = s.host ∧ (State.patchPend img s).desk = s.desk ∧ (State.patchPend img s).parts = s.parts ∧
    (State.patchPend img s).archive = s.archive ∧ (State.patchPend img s).pages = s.pages ∧ (State.patchPend img s).ledger = s.ledger ∧
    (State.patchPend img s).trouble = s.trouble ∧ (State.patchPend img s).sec = s.sec ∧ (State.patchPend img s).power = s.power ∧
    (State.patchPend img s).boot = s.boot ∧ (State.patchPend img s).dap = s.dap ∧ (State.patchPend img s).seqs = s.seqs ∧
    (State.patchPend img s).synth = s.synth ∧ (State.patchPend img s).wave = s.wave ∧ (State.patchPend img s).readout = s.readout ∧
    (State.patchPend img s).est = s.est ∧ (State.patchPend img s).fabric = s.fabric ∧ (State.patchPend img s).conc = s.conc ∧
    (State.patchPend img s).acq = s.acq ∧ (State.patchPend img s).bias = s.bias ∧ (State.patchPend img s).cal = s.cal ∧
    (State.patchPend img s).thermal = s.thermal ∧ (State.patchPend img s).free = s.free := by
  unfold State.patchPend; (try dsimp only)
  all_goals (first | done | simp)

/-- What `State.retireOutputs` keeps. -/
@[simp] theorem State.retireOutputs_frame (s : State) :
    (State.retireOutputs s).pending = s.pending ∧ (State.retireOutputs s).ident = s.ident ∧ (State.retireOutputs s).units = s.units ∧
    (State.retireOutputs s).desk = s.desk ∧ (State.retireOutputs s).archive = s.archive ∧ (State.retireOutputs s).sec = s.sec ∧
    (State.retireOutputs s).boot = s.boot ∧ (State.retireOutputs s).dap = s.dap ∧ (State.retireOutputs s).wave = s.wave ∧
    (State.retireOutputs s).readout = s.readout ∧ (State.retireOutputs s).fabric = s.fabric ∧ (State.retireOutputs s).conc = s.conc ∧
    (State.retireOutputs s).acq = s.acq ∧ (State.retireOutputs s).cal = s.cal ∧ (State.retireOutputs s).thermal = s.thermal := by
  unfold State.retireOutputs; (try dsimp only)
  all_goals (first | done | simp)

/-- What `State.purge` keeps. -/
@[simp] theorem State.purge_frame (s : State) :
    (State.purge s).pending = s.pending ∧ (State.purge s).ident = s.ident ∧ (State.purge s).time = s.time ∧ (State.purge s).host = s.host ∧
    (State.purge s).units = s.units ∧ (State.purge s).desk = s.desk ∧ (State.purge s).parts = s.parts ∧ (State.purge s).pages = s.pages ∧
    (State.purge s).ledger = s.ledger ∧ (State.purge s).trouble = s.trouble ∧ (State.purge s).power = s.power ∧ (State.purge s).boot = s.boot ∧
    (State.purge s).dap = s.dap ∧ (State.purge s).seqs = s.seqs ∧ (State.purge s).synth = s.synth ∧ (State.purge s).wave = s.wave ∧
    (State.purge s).readout = s.readout ∧ (State.purge s).est = s.est ∧ (State.purge s).fabric = s.fabric ∧ (State.purge s).conc = s.conc ∧
    (State.purge s).acq = s.acq ∧ (State.purge s).bias = s.bias ∧ (State.purge s).cal = s.cal ∧ (State.purge s).thermal = s.thermal ∧
    (State.purge s).free = s.free := by
  unfold State.purge; (try dsimp only)
  all_goals (first | done | simp)

/-- What `State.lifecycleStep` keeps. -/
@[simp] theorem State.lifecycleStep_frame (o : OpenCmd) (s : State) :
    (State.lifecycleStep o s).pending = s.pending ∧ (State.lifecycleStep o s).ident = s.ident ∧ (State.lifecycleStep o s).units = s.units ∧
    (State.lifecycleStep o s).desk = s.desk ∧ (State.lifecycleStep o s).boot = s.boot ∧ (State.lifecycleStep o s).dap = s.dap ∧
    (State.lifecycleStep o s).wave = s.wave ∧ (State.lifecycleStep o s).readout = s.readout ∧ (State.lifecycleStep o s).fabric = s.fabric ∧
    (State.lifecycleStep o s).conc = s.conc ∧ (State.lifecycleStep o s).acq = s.acq ∧ (State.lifecycleStep o s).cal = s.cal ∧
    (State.lifecycleStep o s).thermal = s.thermal := by
  unfold State.lifecycleStep; (try dsimp only)
  repeat' split
  all_goals (first | done | simp)

/-- What `State.lifecycleEnd` keeps. -/
@[simp] theorem State.lifecycleEnd_frame (o : OpenCmd) (s : State) :
    (State.lifecycleEnd o s).pending = s.pending ∧ (State.lifecycleEnd o s).ident = s.ident ∧ (State.lifecycleEnd o s).time = s.time ∧
    (State.lifecycleEnd o s).units = s.units ∧ (State.lifecycleEnd o s).desk = s.desk ∧ (State.lifecycleEnd o s).parts = s.parts ∧
    (State.lifecycleEnd o s).power = s.power ∧ (State.lifecycleEnd o s).boot = s.boot ∧ (State.lifecycleEnd o s).dap = s.dap ∧
    (State.lifecycleEnd o s).seqs = s.seqs ∧ (State.lifecycleEnd o s).synth = s.synth ∧ (State.lifecycleEnd o s).wave = s.wave ∧
    (State.lifecycleEnd o s).readout = s.readout ∧ (State.lifecycleEnd o s).est = s.est ∧ (State.lifecycleEnd o s).fabric = s.fabric ∧
    (State.lifecycleEnd o s).conc = s.conc ∧ (State.lifecycleEnd o s).acq = s.acq ∧ (State.lifecycleEnd o s).bias = s.bias ∧
    (State.lifecycleEnd o s).cal = s.cal ∧ (State.lifecycleEnd o s).thermal = s.thermal := by
  unfold State.lifecycleEnd; (try dsimp only)
  repeat' split
  all_goals (first | done | simp)

/-- What `State.longStep` keeps. -/
@[simp] theorem State.longStep_frame (o : OpenCmd) (s : State) :
    (State.longStep o s).pending = s.pending ∧ (State.longStep o s).ident = s.ident ∧ (State.longStep o s).units = s.units ∧
    (State.longStep o s).desk = s.desk ∧ (State.longStep o s).boot = s.boot ∧ (State.longStep o s).dap = s.dap ∧ (State.longStep o s).wave = s.wave ∧
    (State.longStep o s).readout = s.readout ∧ (State.longStep o s).fabric = s.fabric ∧ (State.longStep o s).conc = s.conc ∧ (State.longStep o s).acq = s.acq ∧
    (State.longStep o s).cal = s.cal ∧ (State.longStep o s).thermal = s.thermal := by
  unfold State.longStep
  repeat' split
  all_goals (first | done | simp)

/-- What `State.stepped` keeps. -/
@[simp] theorem State.stepped_frame (o : OpenCmd) (s : State) :
    (State.stepped o s).pending = s.pending ∧ (State.stepped o s).ident = s.ident ∧ (State.stepped o s).time = s.time ∧ (State.stepped o s).units = s.units ∧
    (State.stepped o s).parts = s.parts ∧ (State.stepped o s).archive = s.archive ∧ (State.stepped o s).sec = s.sec ∧ (State.stepped o s).power = s.power ∧
    (State.stepped o s).boot = s.boot ∧ (State.stepped o s).dap = s.dap ∧ (State.stepped o s).seqs = s.seqs ∧ (State.stepped o s).synth = s.synth ∧
    (State.stepped o s).wave = s.wave ∧ (State.stepped o s).readout = s.readout ∧ (State.stepped o s).est = s.est ∧ (State.stepped o s).fabric = s.fabric ∧
    (State.stepped o s).conc = s.conc ∧ (State.stepped o s).acq = s.acq ∧ (State.stepped o s).bias = s.bias ∧ (State.stepped o s).cal = s.cal ∧
    (State.stepped o s).thermal = s.thermal := by
  unfold State.stepped; (try dsimp only)
  all_goals (first | done | simp)

/-- What `State.modStore` keeps. -/
@[simp] theorem State.modStore_frame (i : Nat) (f : Microstore → Microstore) (s : State) :
    (State.modStore i f s).pending = s.pending ∧ (State.modStore i f s).ident = s.ident ∧ (State.modStore i f s).time = s.time ∧
    (State.modStore i f s).host = s.host ∧ (State.modStore i f s).desk = s.desk ∧ (State.modStore i f s).parts = s.parts ∧
    (State.modStore i f s).archive = s.archive ∧ (State.modStore i f s).pages = s.pages ∧ (State.modStore i f s).ledger = s.ledger ∧
    (State.modStore i f s).trouble = s.trouble ∧ (State.modStore i f s).sec = s.sec ∧ (State.modStore i f s).power = s.power ∧
    (State.modStore i f s).boot = s.boot ∧ (State.modStore i f s).dap = s.dap ∧ (State.modStore i f s).seqs = s.seqs ∧ (State.modStore i f s).synth = s.synth ∧
    (State.modStore i f s).wave = s.wave ∧ (State.modStore i f s).readout = s.readout ∧ (State.modStore i f s).est = s.est ∧
    (State.modStore i f s).fabric = s.fabric ∧ (State.modStore i f s).conc = s.conc ∧ (State.modStore i f s).acq = s.acq ∧
    (State.modStore i f s).bias = s.bias ∧ (State.modStore i f s).cal = s.cal ∧ (State.modStore i f s).thermal = s.thermal ∧
    (State.modStore i f s).free = s.free := by
  unfold State.modStore; (try dsimp only)
  all_goals (first | done | simp)

/-- What `State.pokeShelf` keeps. -/
@[simp] theorem State.pokeShelf_frame (d k : Nat) (v : Word) (s : State) :
    (State.pokeShelf d k v s).pending = s.pending ∧ (State.pokeShelf d k v s).ident = s.ident ∧ (State.pokeShelf d k v s).time = s.time ∧
    (State.pokeShelf d k v s).host = s.host ∧ (State.pokeShelf d k v s).units = s.units ∧ (State.pokeShelf d k v s).desk = s.desk ∧
    (State.pokeShelf d k v s).parts = s.parts ∧ (State.pokeShelf d k v s).archive = s.archive ∧ (State.pokeShelf d k v s).pages = s.pages ∧
    (State.pokeShelf d k v s).ledger = s.ledger ∧ (State.pokeShelf d k v s).trouble = s.trouble ∧ (State.pokeShelf d k v s).sec = s.sec ∧
    (State.pokeShelf d k v s).power = s.power ∧ (State.pokeShelf d k v s).boot = s.boot ∧ (State.pokeShelf d k v s).dap = s.dap ∧
    (State.pokeShelf d k v s).seqs = s.seqs ∧ (State.pokeShelf d k v s).est = s.est ∧ (State.pokeShelf d k v s).fabric = s.fabric ∧
    (State.pokeShelf d k v s).conc = s.conc ∧ (State.pokeShelf d k v s).acq = s.acq ∧ (State.pokeShelf d k v s).bias = s.bias ∧
    (State.pokeShelf d k v s).cal = s.cal ∧ (State.pokeShelf d k v s).thermal = s.thermal ∧ (State.pokeShelf d k v s).free = s.free := by
  unfold State.pokeShelf; dsimp only
  repeat' split
  all_goals simp


/-- What `State.rawWrite` keeps. -/
@[simp] theorem State.rawWrite_frame (a : BitVec 48) (v : Word) (s : State) :
    (State.rawWrite a v s).pending = s.pending ∧ (State.rawWrite a v s).ident = s.ident ∧ (State.rawWrite a v s).time = s.time ∧
    (State.rawWrite a v s).host = s.host ∧ (State.rawWrite a v s).desk = s.desk ∧ (State.rawWrite a v s).parts = s.parts ∧
    (State.rawWrite a v s).pages = s.pages ∧ (State.rawWrite a v s).ledger = s.ledger ∧ (State.rawWrite a v s).trouble = s.trouble ∧
    (State.rawWrite a v s).sec = s.sec ∧ (State.rawWrite a v s).power = s.power ∧ (State.rawWrite a v s).boot = s.boot ∧
    (State.rawWrite a v s).fabric = s.fabric ∧ (State.rawWrite a v s).acq = s.acq ∧ (State.rawWrite a v s).bias = s.bias ∧
    (State.rawWrite a v s).cal = s.cal ∧ (State.rawWrite a v s).thermal = s.thermal ∧ (State.rawWrite a v s).free = s.free := by
  unfold State.rawWrite; (try dsimp only)
  all_goals (first | done | simp)


/-- What `State.dapBegin` keeps. -/
@[simp] theorem State.dapBegin_frame (addr : BitVec 48) (status : Nat) (data : Word) (s : State) :
    (State.dapBegin addr status data s).pending = s.pending ∧ (State.dapBegin addr status data s).ident = s.ident ∧
    (State.dapBegin addr status data s).time = s.time ∧ (State.dapBegin addr status data s).host = s.host ∧
    (State.dapBegin addr status data s).units = s.units ∧ (State.dapBegin addr status data s).desk = s.desk ∧
    (State.dapBegin addr status data s).parts = s.parts ∧ (State.dapBegin addr status data s).archive = s.archive ∧
    (State.dapBegin addr status data s).pages = s.pages ∧ (State.dapBegin addr status data s).ledger = s.ledger ∧
    (State.dapBegin addr status data s).trouble = s.trouble ∧ (State.dapBegin addr status data s).sec = s.sec ∧
    (State.dapBegin addr status data s).power = s.power ∧ (State.dapBegin addr status data s).boot = s.boot ∧
    (State.dapBegin addr status data s).seqs = s.seqs ∧ (State.dapBegin addr status data s).synth = s.synth ∧
    (State.dapBegin addr status data s).wave = s.wave ∧ (State.dapBegin addr status data s).readout = s.readout ∧
    (State.dapBegin addr status data s).est = s.est ∧ (State.dapBegin addr status data s).fabric = s.fabric ∧
    (State.dapBegin addr status data s).conc = s.conc ∧ (State.dapBegin addr status data s).acq = s.acq ∧ (State.dapBegin addr status data s).bias = s.bias ∧
    (State.dapBegin addr status data s).cal = s.cal ∧ (State.dapBegin addr status data s).thermal = s.thermal ∧
    (State.dapBegin addr status data s).free = s.free := by
  unfold State.dapBegin; (try dsimp only)
  all_goals (first | done | simp)

/-- What `State.debugEnable` keeps. -/
@[simp] theorem State.debugEnable_frame (b : Bool) (s : State) :
    (State.debugEnable b s).pending = s.pending ∧ (State.debugEnable b s).ident = s.ident ∧ (State.debugEnable b s).time = s.time ∧
    (State.debugEnable b s).units = s.units ∧ (State.debugEnable b s).parts = s.parts ∧ (State.debugEnable b s).archive = s.archive ∧
    (State.debugEnable b s).sec = s.sec ∧ (State.debugEnable b s).power = s.power ∧ (State.debugEnable b s).boot = s.boot ∧
    (State.debugEnable b s).dap = s.dap ∧ (State.debugEnable b s).seqs = s.seqs ∧ (State.debugEnable b s).synth = s.synth ∧
    (State.debugEnable b s).wave = s.wave ∧ (State.debugEnable b s).readout = s.readout ∧ (State.debugEnable b s).est = s.est ∧
    (State.debugEnable b s).fabric = s.fabric ∧ (State.debugEnable b s).conc = s.conc ∧ (State.debugEnable b s).acq = s.acq ∧
    (State.debugEnable b s).bias = s.bias ∧ (State.debugEnable b s).cal = s.cal ∧ (State.debugEnable b s).thermal = s.thermal := by
  unfold State.debugEnable; (try dsimp only)
  repeat' split
  all_goals (first | done | simp)

/-- What `State.debugBell` keeps. -/
@[simp] theorem State.debugBell_frame (w : Word) (s : State) :
    (State.debugBell w s).pending = s.pending ∧ (State.debugBell w s).ident = s.ident ∧ (State.debugBell w s).time = s.time ∧
    (State.debugBell w s).units = s.units ∧ (State.debugBell w s).parts = s.parts ∧ (State.debugBell w s).archive = s.archive ∧
    (State.debugBell w s).sec = s.sec ∧ (State.debugBell w s).power = s.power ∧ (State.debugBell w s).boot = s.boot ∧ (State.debugBell w s).dap = s.dap ∧
    (State.debugBell w s).seqs = s.seqs ∧ (State.debugBell w s).synth = s.synth ∧ (State.debugBell w s).wave = s.wave ∧
    (State.debugBell w s).readout = s.readout ∧ (State.debugBell w s).est = s.est ∧ (State.debugBell w s).fabric = s.fabric ∧
    (State.debugBell w s).conc = s.conc ∧ (State.debugBell w s).acq = s.acq ∧ (State.debugBell w s).bias = s.bias ∧ (State.debugBell w s).cal = s.cal ∧
    (State.debugBell w s).thermal = s.thermal := by
  unfold State.debugBell; (try dsimp only)
  repeat' split
  all_goals (first | done | simp)

/-- What `State.jtagLoad` keeps. -/
@[simp] theorem State.jtagLoad_frame (ir : BitVec 8) (dr : BitVec 120) (s : State) :
    (State.jtagLoad ir dr s).pending = s.pending ∧ (State.jtagLoad ir dr s).ident = s.ident ∧ (State.jtagLoad ir dr s).time = s.time ∧
    (State.jtagLoad ir dr s).host = s.host ∧ (State.jtagLoad ir dr s).units = s.units ∧ (State.jtagLoad ir dr s).desk = s.desk ∧
    (State.jtagLoad ir dr s).parts = s.parts ∧ (State.jtagLoad ir dr s).archive = s.archive ∧ (State.jtagLoad ir dr s).pages = s.pages ∧
    (State.jtagLoad ir dr s).ledger = s.ledger ∧ (State.jtagLoad ir dr s).trouble = s.trouble ∧ (State.jtagLoad ir dr s).sec = s.sec ∧
    (State.jtagLoad ir dr s).power = s.power ∧ (State.jtagLoad ir dr s).dap = s.dap ∧ (State.jtagLoad ir dr s).seqs = s.seqs ∧
    (State.jtagLoad ir dr s).synth = s.synth ∧ (State.jtagLoad ir dr s).wave = s.wave ∧ (State.jtagLoad ir dr s).readout = s.readout ∧
    (State.jtagLoad ir dr s).est = s.est ∧ (State.jtagLoad ir dr s).fabric = s.fabric ∧ (State.jtagLoad ir dr s).conc = s.conc ∧
    (State.jtagLoad ir dr s).acq = s.acq ∧ (State.jtagLoad ir dr s).bias = s.bias ∧ (State.jtagLoad ir dr s).cal = s.cal ∧
    (State.jtagLoad ir dr s).thermal = s.thermal ∧ (State.jtagLoad ir dr s).free = s.free := by
  unfold State.jtagLoad; (try dsimp only)
  all_goals (first | done | simp)

/-- What `State.jtagTest` keeps. -/
@[simp] theorem State.jtagTest_frame (ir : BitVec 8) (t : JtagTest) (s : State) :
    (State.jtagTest ir t s).pending = s.pending ∧ (State.jtagTest ir t s).ident = s.ident ∧ (State.jtagTest ir t s).time = s.time ∧
    (State.jtagTest ir t s).host = s.host ∧ (State.jtagTest ir t s).units = s.units ∧ (State.jtagTest ir t s).desk = s.desk ∧
    (State.jtagTest ir t s).parts = s.parts ∧ (State.jtagTest ir t s).archive = s.archive ∧ (State.jtagTest ir t s).pages = s.pages ∧
    (State.jtagTest ir t s).ledger = s.ledger ∧ (State.jtagTest ir t s).trouble = s.trouble ∧ (State.jtagTest ir t s).sec = s.sec ∧
    (State.jtagTest ir t s).power = s.power ∧ (State.jtagTest ir t s).dap = s.dap ∧ (State.jtagTest ir t s).seqs = s.seqs ∧
    (State.jtagTest ir t s).synth = s.synth ∧ (State.jtagTest ir t s).wave = s.wave ∧ (State.jtagTest ir t s).readout = s.readout ∧
    (State.jtagTest ir t s).est = s.est ∧ (State.jtagTest ir t s).fabric = s.fabric ∧ (State.jtagTest ir t s).conc = s.conc ∧
    (State.jtagTest ir t s).acq = s.acq ∧ (State.jtagTest ir t s).bias = s.bias ∧ (State.jtagTest ir t s).cal = s.cal ∧
    (State.jtagTest ir t s).thermal = s.thermal ∧ (State.jtagTest ir t s).free = s.free := by
  unfold State.jtagTest; (try dsimp only)
  all_goals (first | done | simp)

/-- What `State.smbusReply` keeps. -/
@[simp] theorem State.smbusReply_frame (l : List Nat) (s : State) :
    (State.smbusReply l s).pending = s.pending ∧ (State.smbusReply l s).ident = s.ident ∧ (State.smbusReply l s).time = s.time ∧
    (State.smbusReply l s).host = s.host ∧ (State.smbusReply l s).units = s.units ∧ (State.smbusReply l s).desk = s.desk ∧
    (State.smbusReply l s).parts = s.parts ∧ (State.smbusReply l s).archive = s.archive ∧ (State.smbusReply l s).pages = s.pages ∧
    (State.smbusReply l s).ledger = s.ledger ∧ (State.smbusReply l s).trouble = s.trouble ∧ (State.smbusReply l s).sec = s.sec ∧
    (State.smbusReply l s).power = s.power ∧ (State.smbusReply l s).dap = s.dap ∧ (State.smbusReply l s).seqs = s.seqs ∧
    (State.smbusReply l s).synth = s.synth ∧ (State.smbusReply l s).wave = s.wave ∧ (State.smbusReply l s).readout = s.readout ∧
    (State.smbusReply l s).est = s.est ∧ (State.smbusReply l s).fabric = s.fabric ∧ (State.smbusReply l s).conc = s.conc ∧ (State.smbusReply l s).acq = s.acq ∧
    (State.smbusReply l s).bias = s.bias ∧ (State.smbusReply l s).cal = s.cal ∧ (State.smbusReply l s).thermal = s.thermal ∧
    (State.smbusReply l s).free = s.free := by
  unfold State.smbusReply; (try dsimp only)
  all_goals (first | done | simp)

/-- What `State.routine` keeps. -/
@[simp] theorem State.routine_frame (f : Fetched) (s : State) :
    (State.routine f s).pending = s.pending ∧ (State.routine f s).ident = s.ident ∧ (State.routine f s).time = s.time ∧ (State.routine f s).host = s.host ∧
    (State.routine f s).units = s.units ∧ (State.routine f s).parts = s.parts ∧ (State.routine f s).archive = s.archive ∧ (State.routine f s).pages = s.pages ∧
    (State.routine f s).ledger = s.ledger ∧ (State.routine f s).trouble = s.trouble ∧ (State.routine f s).sec = s.sec ∧ (State.routine f s).power = s.power ∧
    (State.routine f s).boot = s.boot ∧ (State.routine f s).dap = s.dap ∧ (State.routine f s).seqs = s.seqs ∧ (State.routine f s).synth = s.synth ∧
    (State.routine f s).wave = s.wave ∧ (State.routine f s).readout = s.readout ∧ (State.routine f s).est = s.est ∧ (State.routine f s).fabric = s.fabric ∧
    (State.routine f s).conc = s.conc ∧ (State.routine f s).acq = s.acq ∧ (State.routine f s).bias = s.bias ∧ (State.routine f s).cal = s.cal ∧
    (State.routine f s).thermal = s.thermal ∧ (State.routine f s).free = s.free := by
  unfold State.routine; (try dsimp only)
  all_goals (first | done | simp)

/-- What `State.abandon` keeps. -/
@[simp] theorem State.abandon_frame (s : State) :
    (State.abandon s).pending = s.pending ∧ (State.abandon s).ident = s.ident ∧ (State.abandon s).time = s.time ∧ (State.abandon s).host = s.host ∧
    (State.abandon s).units = s.units ∧ (State.abandon s).parts = s.parts ∧ (State.abandon s).archive = s.archive ∧ (State.abandon s).pages = s.pages ∧
    (State.abandon s).ledger = s.ledger ∧ (State.abandon s).trouble = s.trouble ∧ (State.abandon s).sec = s.sec ∧ (State.abandon s).power = s.power ∧
    (State.abandon s).boot = s.boot ∧ (State.abandon s).dap = s.dap ∧ (State.abandon s).seqs = s.seqs ∧ (State.abandon s).synth = s.synth ∧
    (State.abandon s).wave = s.wave ∧ (State.abandon s).readout = s.readout ∧ (State.abandon s).est = s.est ∧ (State.abandon s).fabric = s.fabric ∧
    (State.abandon s).conc = s.conc ∧ (State.abandon s).acq = s.acq ∧ (State.abandon s).bias = s.bias ∧ (State.abandon s).cal = s.cal ∧
    (State.abandon s).thermal = s.thermal := by
  unfold State.abandon; (try dsimp only)
  all_goals (first | done | simp)

/-- What `State.served` keeps. -/
@[simp] theorem State.served_frame (src : Source) (s : State) :
    (State.served src s).pending = s.pending ∧ (State.served src s).ident = s.ident ∧ (State.served src s).time = s.time ∧ (State.served src s).host = s.host ∧
    (State.served src s).units = s.units ∧ (State.served src s).parts = s.parts ∧ (State.served src s).archive = s.archive ∧
    (State.served src s).pages = s.pages ∧ (State.served src s).ledger = s.ledger ∧ (State.served src s).trouble = s.trouble ∧
    (State.served src s).sec = s.sec ∧ (State.served src s).power = s.power ∧ (State.served src s).boot = s.boot ∧ (State.served src s).dap = s.dap ∧
    (State.served src s).seqs = s.seqs ∧ (State.served src s).synth = s.synth ∧ (State.served src s).wave = s.wave ∧ (State.served src s).readout = s.readout ∧
    (State.served src s).est = s.est ∧ (State.served src s).fabric = s.fabric ∧ (State.served src s).conc = s.conc ∧ (State.served src s).acq = s.acq ∧
    (State.served src s).bias = s.bias ∧ (State.served src s).cal = s.cal ∧ (State.served src s).thermal = s.thermal ∧ (State.served src s).free = s.free := by
  unfold State.served; (try dsimp only)
  all_goals (first | done | simp)

/-- What `State.unlist` keeps. -/
@[simp] theorem State.unlist_frame (h : Held) (s : State) :
    (State.unlist h s).pending = s.pending ∧ (State.unlist h s).ident = s.ident ∧ (State.unlist h s).time = s.time ∧ (State.unlist h s).units = s.units ∧
    (State.unlist h s).parts = s.parts ∧ (State.unlist h s).archive = s.archive ∧ (State.unlist h s).pages = s.pages ∧ (State.unlist h s).ledger = s.ledger ∧
    (State.unlist h s).trouble = s.trouble ∧ (State.unlist h s).sec = s.sec ∧ (State.unlist h s).power = s.power ∧ (State.unlist h s).boot = s.boot ∧
    (State.unlist h s).dap = s.dap ∧ (State.unlist h s).seqs = s.seqs ∧ (State.unlist h s).synth = s.synth ∧ (State.unlist h s).wave = s.wave ∧
    (State.unlist h s).readout = s.readout ∧ (State.unlist h s).est = s.est ∧ (State.unlist h s).fabric = s.fabric ∧ (State.unlist h s).conc = s.conc ∧
    (State.unlist h s).acq = s.acq ∧ (State.unlist h s).bias = s.bias ∧ (State.unlist h s).cal = s.cal ∧ (State.unlist h s).thermal = s.thermal ∧
    (State.unlist h s).free = s.free := by
  unfold State.unlist; (try dsimp only)
  all_goals (first | done | simp)

/-- What `State.enqueue` keeps. -/
@[simp] theorem State.enqueue_frame (f : Fetched) (s : State) :
    (State.enqueue f s).pending = s.pending ∧ (State.enqueue f s).ident = s.ident ∧ (State.enqueue f s).time = s.time ∧ (State.enqueue f s).units = s.units ∧
    (State.enqueue f s).parts = s.parts ∧ (State.enqueue f s).archive = s.archive ∧ (State.enqueue f s).pages = s.pages ∧
    (State.enqueue f s).ledger = s.ledger ∧ (State.enqueue f s).trouble = s.trouble ∧ (State.enqueue f s).sec = s.sec ∧ (State.enqueue f s).power = s.power ∧
    (State.enqueue f s).boot = s.boot ∧ (State.enqueue f s).dap = s.dap ∧ (State.enqueue f s).seqs = s.seqs ∧ (State.enqueue f s).synth = s.synth ∧
    (State.enqueue f s).wave = s.wave ∧ (State.enqueue f s).readout = s.readout ∧ (State.enqueue f s).est = s.est ∧ (State.enqueue f s).fabric = s.fabric ∧
    (State.enqueue f s).conc = s.conc ∧ (State.enqueue f s).acq = s.acq ∧ (State.enqueue f s).bias = s.bias ∧ (State.enqueue f s).cal = s.cal ∧
    (State.enqueue f s).thermal = s.thermal ∧ (State.enqueue f s).free = s.free := by
  unfold State.enqueue
  repeat' split
  all_goals (first | done | simp)

/-- What `State.clearCur` keeps. -/
@[simp] theorem State.clearCur_frame (s : State) :
    (State.clearCur s).pending = s.pending ∧ (State.clearCur s).ident = s.ident ∧ (State.clearCur s).time = s.time ∧ (State.clearCur s).host = s.host ∧
    (State.clearCur s).units = s.units ∧ (State.clearCur s).parts = s.parts ∧ (State.clearCur s).archive = s.archive ∧ (State.clearCur s).pages = s.pages ∧
    (State.clearCur s).ledger = s.ledger ∧ (State.clearCur s).trouble = s.trouble ∧ (State.clearCur s).sec = s.sec ∧ (State.clearCur s).power = s.power ∧
    (State.clearCur s).boot = s.boot ∧ (State.clearCur s).dap = s.dap ∧ (State.clearCur s).seqs = s.seqs ∧ (State.clearCur s).synth = s.synth ∧
    (State.clearCur s).wave = s.wave ∧ (State.clearCur s).readout = s.readout ∧ (State.clearCur s).est = s.est ∧ (State.clearCur s).fabric = s.fabric ∧
    (State.clearCur s).conc = s.conc ∧ (State.clearCur s).acq = s.acq ∧ (State.clearCur s).bias = s.bias ∧ (State.clearCur s).cal = s.cal ∧
    (State.clearCur s).thermal = s.thermal ∧ (State.clearCur s).free = s.free := by
  unfold State.clearCur; (try dsimp only)
  all_goals (first | done | simp)

/-- What `State.unknownOp` keeps. -/
@[simp] theorem State.unknownOp_frame (f : Fetched) (s : State) :
    (State.unknownOp f s).pending = s.pending ∧ (State.unknownOp f s).ident = s.ident ∧ (State.unknownOp f s).time = s.time ∧
    (State.unknownOp f s).units = s.units ∧ (State.unknownOp f s).parts = s.parts ∧ (State.unknownOp f s).archive = s.archive ∧
    (State.unknownOp f s).sec = s.sec ∧ (State.unknownOp f s).power = s.power ∧ (State.unknownOp f s).boot = s.boot ∧ (State.unknownOp f s).dap = s.dap ∧
    (State.unknownOp f s).seqs = s.seqs ∧ (State.unknownOp f s).synth = s.synth ∧ (State.unknownOp f s).wave = s.wave ∧
    (State.unknownOp f s).readout = s.readout ∧ (State.unknownOp f s).est = s.est ∧ (State.unknownOp f s).fabric = s.fabric ∧
    (State.unknownOp f s).conc = s.conc ∧ (State.unknownOp f s).acq = s.acq ∧ (State.unknownOp f s).bias = s.bias ∧ (State.unknownOp f s).cal = s.cal ∧
    (State.unknownOp f s).thermal = s.thermal := by
  unfold State.unknownOp; (try dsimp only)
  repeat' split
  all_goals (first | done | simp)

/-- What `State.parkDue` keeps. -/
@[simp] theorem State.parkDue_frame (s : State) :
    (State.parkDue s).pending = s.pending ∧ (State.parkDue s).ident = s.ident ∧ (State.parkDue s).time = s.time ∧ (State.parkDue s).units = s.units ∧
    (State.parkDue s).desk = s.desk ∧ (State.parkDue s).parts = s.parts ∧ (State.parkDue s).archive = s.archive ∧ (State.parkDue s).pages = s.pages ∧
    (State.parkDue s).ledger = s.ledger ∧ (State.parkDue s).trouble = s.trouble ∧ (State.parkDue s).sec = s.sec ∧ (State.parkDue s).power = s.power ∧
    (State.parkDue s).boot = s.boot ∧ (State.parkDue s).dap = s.dap ∧ (State.parkDue s).seqs = s.seqs ∧ (State.parkDue s).synth = s.synth ∧
    (State.parkDue s).wave = s.wave ∧ (State.parkDue s).readout = s.readout ∧ (State.parkDue s).est = s.est ∧ (State.parkDue s).fabric = s.fabric ∧
    (State.parkDue s).conc = s.conc ∧ (State.parkDue s).acq = s.acq ∧ (State.parkDue s).bias = s.bias ∧ (State.parkDue s).cal = s.cal ∧
    (State.parkDue s).thermal = s.thermal ∧ (State.parkDue s).free = s.free := by
  unfold State.parkDue
  all_goals (first | done | simp)

/-- What `State.takeJob` keeps. -/
@[simp] theorem State.takeJob_frame (r : Running) (s : State) :
    (State.takeJob r s).2.pending = s.pending ∧ (State.takeJob r s).2.ident = s.ident ∧ (State.takeJob r s).2.time = s.time ∧
    (State.takeJob r s).2.units = s.units ∧ (State.takeJob r s).2.parts = s.parts ∧ (State.takeJob r s).2.archive = s.archive ∧
    (State.takeJob r s).2.pages = s.pages ∧ (State.takeJob r s).2.ledger = s.ledger ∧ (State.takeJob r s).2.trouble = s.trouble ∧
    (State.takeJob r s).2.sec = s.sec ∧ (State.takeJob r s).2.power = s.power ∧ (State.takeJob r s).2.boot = s.boot ∧ (State.takeJob r s).2.dap = s.dap ∧
    (State.takeJob r s).2.seqs = s.seqs ∧ (State.takeJob r s).2.synth = s.synth ∧ (State.takeJob r s).2.wave = s.wave ∧
    (State.takeJob r s).2.readout = s.readout ∧ (State.takeJob r s).2.est = s.est ∧ (State.takeJob r s).2.fabric = s.fabric ∧
    (State.takeJob r s).2.conc = s.conc ∧ (State.takeJob r s).2.acq = s.acq ∧ (State.takeJob r s).2.bias = s.bias ∧ (State.takeJob r s).2.cal = s.cal ∧
    (State.takeJob r s).2.thermal = s.thermal ∧ (State.takeJob r s).2.free = s.free := by
  unfold State.takeJob
  repeat' split
  all_goals (first | done | simp)

/-- What `State.acceptJob` keeps. -/
@[simp] theorem State.acceptJob_frame (r : Running) (s : State) :
    (State.acceptJob r s).2.pending = s.pending ∧ (State.acceptJob r s).2.ident = s.ident ∧ (State.acceptJob r s).2.time = s.time ∧
    (State.acceptJob r s).2.units = s.units ∧ (State.acceptJob r s).2.parts = s.parts ∧ (State.acceptJob r s).2.archive = s.archive ∧
    (State.acceptJob r s).2.pages = s.pages ∧ (State.acceptJob r s).2.ledger = s.ledger ∧ (State.acceptJob r s).2.trouble = s.trouble ∧
    (State.acceptJob r s).2.sec = s.sec ∧ (State.acceptJob r s).2.power = s.power ∧ (State.acceptJob r s).2.boot = s.boot ∧
    (State.acceptJob r s).2.dap = s.dap ∧ (State.acceptJob r s).2.seqs = s.seqs ∧ (State.acceptJob r s).2.synth = s.synth ∧
    (State.acceptJob r s).2.wave = s.wave ∧ (State.acceptJob r s).2.readout = s.readout ∧ (State.acceptJob r s).2.est = s.est ∧
    (State.acceptJob r s).2.fabric = s.fabric ∧ (State.acceptJob r s).2.conc = s.conc ∧ (State.acceptJob r s).2.acq = s.acq ∧
    (State.acceptJob r s).2.bias = s.bias ∧ (State.acceptJob r s).2.cal = s.cal ∧ (State.acceptJob r s).2.thermal = s.thermal ∧
    (State.acceptJob r s).2.free = s.free := by
  unfold State.acceptJob
  repeat' split
  all_goals (first | done | simp)

/-- What `State.abandonJob` keeps. -/
@[simp] theorem State.abandonJob_frame (r : Running) (s : State) :
    (State.abandonJob r s).pending = s.pending ∧ (State.abandonJob r s).ident = s.ident ∧ (State.abandonJob r s).time = s.time ∧
    (State.abandonJob r s).host = s.host ∧ (State.abandonJob r s).units = s.units ∧ (State.abandonJob r s).parts = s.parts ∧
    (State.abandonJob r s).archive = s.archive ∧ (State.abandonJob r s).pages = s.pages ∧ (State.abandonJob r s).ledger = s.ledger ∧
    (State.abandonJob r s).trouble = s.trouble ∧ (State.abandonJob r s).sec = s.sec ∧ (State.abandonJob r s).power = s.power ∧
    (State.abandonJob r s).boot = s.boot ∧ (State.abandonJob r s).dap = s.dap ∧ (State.abandonJob r s).seqs = s.seqs ∧ (State.abandonJob r s).synth = s.synth ∧
    (State.abandonJob r s).wave = s.wave ∧ (State.abandonJob r s).readout = s.readout ∧ (State.abandonJob r s).est = s.est ∧
    (State.abandonJob r s).fabric = s.fabric ∧ (State.abandonJob r s).conc = s.conc ∧ (State.abandonJob r s).acq = s.acq ∧
    (State.abandonJob r s).bias = s.bias ∧ (State.abandonJob r s).cal = s.cal ∧ (State.abandonJob r s).thermal = s.thermal := by
  unfold State.abandonJob; (try dsimp only)
  all_goals (first | done | simp)

/-- What `State.jobFails` keeps. -/
@[simp] theorem State.jobFails_frame (r : Running) (s : State) :
    (State.jobFails r s).pending = s.pending ∧ (State.jobFails r s).ident = s.ident ∧ (State.jobFails r s).time = s.time ∧
    (State.jobFails r s).units = s.units ∧ (State.jobFails r s).parts = s.parts ∧ (State.jobFails r s).archive = s.archive ∧ (State.jobFails r s).sec = s.sec ∧
    (State.jobFails r s).power = s.power ∧ (State.jobFails r s).boot = s.boot ∧ (State.jobFails r s).dap = s.dap ∧ (State.jobFails r s).seqs = s.seqs ∧
    (State.jobFails r s).synth = s.synth ∧ (State.jobFails r s).wave = s.wave ∧ (State.jobFails r s).readout = s.readout ∧ (State.jobFails r s).est = s.est ∧
    (State.jobFails r s).fabric = s.fabric ∧ (State.jobFails r s).conc = s.conc ∧ (State.jobFails r s).acq = s.acq ∧ (State.jobFails r s).bias = s.bias ∧
    (State.jobFails r s).cal = s.cal ∧ (State.jobFails r s).thermal = s.thermal := by
  unfold State.jobFails
  repeat' split
  all_goals (first | done | simp)

/-- What `State.checkRecord` keeps. -/
@[simp] theorem State.checkRecord_frame (cause : MachineCause) (addr : BitVec 14) (s : State) :
    (State.checkRecord cause addr s).pending = s.pending ∧ (State.checkRecord cause addr s).ident = s.ident ∧ (State.checkRecord cause addr s).time = s.time ∧
    (State.checkRecord cause addr s).desk = s.desk ∧ (State.checkRecord cause addr s).parts = s.parts ∧ (State.checkRecord cause addr s).archive = s.archive ∧
    (State.checkRecord cause addr s).sec = s.sec ∧ (State.checkRecord cause addr s).power = s.power ∧ (State.checkRecord cause addr s).boot = s.boot ∧
    (State.checkRecord cause addr s).dap = s.dap ∧ (State.checkRecord cause addr s).seqs = s.seqs ∧ (State.checkRecord cause addr s).synth = s.synth ∧
    (State.checkRecord cause addr s).wave = s.wave ∧ (State.checkRecord cause addr s).readout = s.readout ∧ (State.checkRecord cause addr s).est = s.est ∧
    (State.checkRecord cause addr s).fabric = s.fabric ∧ (State.checkRecord cause addr s).conc = s.conc ∧ (State.checkRecord cause addr s).acq = s.acq ∧
    (State.checkRecord cause addr s).bias = s.bias ∧ (State.checkRecord cause addr s).cal = s.cal ∧ (State.checkRecord cause addr s).thermal = s.thermal := by
  unfold State.checkRecord; (try dsimp only)
  repeat' split
  all_goals (first | done | simp)

/-- What `State.muteNow` keeps. -/
@[simp] theorem State.muteNow_frame (s : State) :
    (State.muteNow s).pending = s.pending ∧ (State.muteNow s).ident = s.ident ∧ (State.muteNow s).time = s.time ∧ (State.muteNow s).host = s.host ∧
    (State.muteNow s).units = s.units ∧ (State.muteNow s).desk = s.desk ∧ (State.muteNow s).parts = s.parts ∧ (State.muteNow s).archive = s.archive ∧
    (State.muteNow s).pages = s.pages ∧ (State.muteNow s).ledger = s.ledger ∧ (State.muteNow s).trouble = s.trouble ∧ (State.muteNow s).sec = s.sec ∧
    (State.muteNow s).power = s.power ∧ (State.muteNow s).boot = s.boot ∧ (State.muteNow s).dap = s.dap ∧ (State.muteNow s).seqs = s.seqs ∧
    (State.muteNow s).wave = s.wave ∧ (State.muteNow s).readout = s.readout ∧ (State.muteNow s).est = s.est ∧ (State.muteNow s).fabric = s.fabric ∧
    (State.muteNow s).conc = s.conc ∧ (State.muteNow s).acq = s.acq ∧ (State.muteNow s).bias = s.bias ∧ (State.muteNow s).cal = s.cal ∧
    (State.muteNow s).thermal = s.thermal ∧ (State.muteNow s).free = s.free := by
  unfold State.muteNow
  all_goals (first | done | simp)

/-- What `State.seqSelfFail` keeps. -/
@[simp] theorem State.seqSelfFail_frame (q : Nat) (s : State) :
    (State.seqSelfFail q s).pending = s.pending ∧ (State.seqSelfFail q s).ident = s.ident ∧ (State.seqSelfFail q s).time = s.time ∧
    (State.seqSelfFail q s).units = s.units ∧ (State.seqSelfFail q s).desk = s.desk ∧ (State.seqSelfFail q s).parts = s.parts ∧
    (State.seqSelfFail q s).archive = s.archive ∧ (State.seqSelfFail q s).sec = s.sec ∧ (State.seqSelfFail q s).power = s.power ∧
    (State.seqSelfFail q s).boot = s.boot ∧ (State.seqSelfFail q s).dap = s.dap ∧ (State.seqSelfFail q s).synth = s.synth ∧
    (State.seqSelfFail q s).wave = s.wave ∧ (State.seqSelfFail q s).readout = s.readout ∧ (State.seqSelfFail q s).est = s.est ∧
    (State.seqSelfFail q s).fabric = s.fabric ∧ (State.seqSelfFail q s).conc = s.conc ∧ (State.seqSelfFail q s).acq = s.acq ∧
    (State.seqSelfFail q s).bias = s.bias ∧ (State.seqSelfFail q s).cal = s.cal ∧ (State.seqSelfFail q s).thermal = s.thermal := by
  unfold State.seqSelfFail; (try dsimp only)
  repeat' split
  all_goals (first | done | simp)

/-- What `State.dacSelfFail` keeps. -/
@[simp] theorem State.dacSelfFail_frame (o : Nat) (s : State) :
    (State.dacSelfFail o s).pending = s.pending ∧ (State.dacSelfFail o s).ident = s.ident ∧ (State.dacSelfFail o s).time = s.time ∧
    (State.dacSelfFail o s).units = s.units ∧ (State.dacSelfFail o s).desk = s.desk ∧ (State.dacSelfFail o s).parts = s.parts ∧
    (State.dacSelfFail o s).archive = s.archive ∧ (State.dacSelfFail o s).sec = s.sec ∧ (State.dacSelfFail o s).power = s.power ∧
    (State.dacSelfFail o s).boot = s.boot ∧ (State.dacSelfFail o s).dap = s.dap ∧ (State.dacSelfFail o s).seqs = s.seqs ∧
    (State.dacSelfFail o s).wave = s.wave ∧ (State.dacSelfFail o s).readout = s.readout ∧ (State.dacSelfFail o s).est = s.est ∧
    (State.dacSelfFail o s).fabric = s.fabric ∧ (State.dacSelfFail o s).conc = s.conc ∧ (State.dacSelfFail o s).acq = s.acq ∧
    (State.dacSelfFail o s).bias = s.bias ∧ (State.dacSelfFail o s).cal = s.cal ∧ (State.dacSelfFail o s).thermal = s.thermal := by
  unfold State.dacSelfFail; (try dsimp only)
  repeat' split
  all_goals (first | done | simp)

/-- What `State.adcSelfFail` keeps. -/
@[simp] theorem State.adcSelfFail_frame (l : Nat) (s : State) :
    (State.adcSelfFail l s).pending = s.pending ∧ (State.adcSelfFail l s).ident = s.ident ∧ (State.adcSelfFail l s).time = s.time ∧
    (State.adcSelfFail l s).units = s.units ∧ (State.adcSelfFail l s).desk = s.desk ∧ (State.adcSelfFail l s).parts = s.parts ∧
    (State.adcSelfFail l s).archive = s.archive ∧ (State.adcSelfFail l s).sec = s.sec ∧ (State.adcSelfFail l s).power = s.power ∧
    (State.adcSelfFail l s).boot = s.boot ∧ (State.adcSelfFail l s).dap = s.dap ∧ (State.adcSelfFail l s).seqs = s.seqs ∧
    (State.adcSelfFail l s).synth = s.synth ∧ (State.adcSelfFail l s).wave = s.wave ∧ (State.adcSelfFail l s).est = s.est ∧
    (State.adcSelfFail l s).fabric = s.fabric ∧ (State.adcSelfFail l s).conc = s.conc ∧ (State.adcSelfFail l s).acq = s.acq ∧
    (State.adcSelfFail l s).bias = s.bias ∧ (State.adcSelfFail l s).cal = s.cal ∧ (State.adcSelfFail l s).thermal = s.thermal := by
  unfold State.adcSelfFail; (try dsimp only)
  repeat' split
  all_goals (first | done | simp)

/-- What `State.sensorSelfFail` keeps. -/
@[simp] theorem State.sensorSelfFail_frame (i : Nat) (s : State) :
    (State.sensorSelfFail i s).pending = s.pending ∧ (State.sensorSelfFail i s).ident = s.ident ∧ (State.sensorSelfFail i s).time = s.time ∧
    (State.sensorSelfFail i s).units = s.units ∧ (State.sensorSelfFail i s).desk = s.desk ∧ (State.sensorSelfFail i s).parts = s.parts ∧
    (State.sensorSelfFail i s).archive = s.archive ∧ (State.sensorSelfFail i s).sec = s.sec ∧ (State.sensorSelfFail i s).power = s.power ∧
    (State.sensorSelfFail i s).boot = s.boot ∧ (State.sensorSelfFail i s).dap = s.dap ∧ (State.sensorSelfFail i s).seqs = s.seqs ∧
    (State.sensorSelfFail i s).synth = s.synth ∧ (State.sensorSelfFail i s).wave = s.wave ∧ (State.sensorSelfFail i s).readout = s.readout ∧
    (State.sensorSelfFail i s).est = s.est ∧ (State.sensorSelfFail i s).fabric = s.fabric ∧ (State.sensorSelfFail i s).conc = s.conc ∧
    (State.sensorSelfFail i s).acq = s.acq ∧ (State.sensorSelfFail i s).bias = s.bias ∧ (State.sensorSelfFail i s).cal = s.cal := by
  unfold State.sensorSelfFail; (try dsimp only)
  all_goals (first | done | simp)

/-- What `State.selfFail` keeps. -/
@[simp] theorem State.selfFail_frame (f : StartFault) (s : State) :
    (State.selfFail f s).pending = s.pending ∧ (State.selfFail f s).ident = s.ident ∧ (State.selfFail f s).time = s.time ∧
    (State.selfFail f s).units = s.units ∧ (State.selfFail f s).desk = s.desk ∧ (State.selfFail f s).archive = s.archive ∧ (State.selfFail f s).sec = s.sec ∧
    (State.selfFail f s).power = s.power ∧ (State.selfFail f s).boot = s.boot ∧ (State.selfFail f s).dap = s.dap ∧ (State.selfFail f s).wave = s.wave ∧
    (State.selfFail f s).est = s.est ∧ (State.selfFail f s).fabric = s.fabric ∧ (State.selfFail f s).conc = s.conc ∧ (State.selfFail f s).acq = s.acq ∧
    (State.selfFail f s).bias = s.bias ∧ (State.selfFail f s).cal = s.cal := by
  unfold State.selfFail; (try dsimp only)
  repeat' split
  all_goals (first | done | simp)

/-- What `State.voterFail` keeps. -/
@[simp] theorem State.voterFail_frame (f : StartFault) (s : State) :
    (State.voterFail f s).pending = s.pending ∧ (State.voterFail f s).ident = s.ident ∧ (State.voterFail f s).time = s.time ∧
    (State.voterFail f s).desk = s.desk ∧ (State.voterFail f s).parts = s.parts ∧ (State.voterFail f s).archive = s.archive ∧
    (State.voterFail f s).sec = s.sec ∧ (State.voterFail f s).power = s.power ∧ (State.voterFail f s).boot = s.boot ∧ (State.voterFail f s).dap = s.dap ∧
    (State.voterFail f s).seqs = s.seqs ∧ (State.voterFail f s).synth = s.synth ∧ (State.voterFail f s).wave = s.wave ∧
    (State.voterFail f s).readout = s.readout ∧ (State.voterFail f s).est = s.est ∧ (State.voterFail f s).fabric = s.fabric ∧
    (State.voterFail f s).conc = s.conc ∧ (State.voterFail f s).acq = s.acq ∧ (State.voterFail f s).bias = s.bias ∧ (State.voterFail f s).cal = s.cal ∧
    (State.voterFail f s).thermal = s.thermal := by
  unfold State.voterFail; (try dsimp only)
  repeat' split
  all_goals (first | done | simp)

/-- What `State.startFails` keeps. -/
@[simp] theorem State.startFails_frame (cause : Nat) (s : State) :
    (State.startFails cause s).pending = s.pending ∧ (State.startFails cause s).ident = s.ident ∧ (State.startFails cause s).time = s.time ∧
    (State.startFails cause s).host = s.host ∧ (State.startFails cause s).units = s.units ∧ (State.startFails cause s).desk = s.desk ∧
    (State.startFails cause s).parts = s.parts ∧ (State.startFails cause s).archive = s.archive ∧ (State.startFails cause s).pages = s.pages ∧
    (State.startFails cause s).ledger = s.ledger ∧ (State.startFails cause s).trouble = s.trouble ∧ (State.startFails cause s).sec = s.sec ∧
    (State.startFails cause s).power = s.power ∧ (State.startFails cause s).dap = s.dap ∧ (State.startFails cause s).seqs = s.seqs ∧
    (State.startFails cause s).synth = s.synth ∧ (State.startFails cause s).wave = s.wave ∧ (State.startFails cause s).readout = s.readout ∧
    (State.startFails cause s).est = s.est ∧ (State.startFails cause s).fabric = s.fabric ∧ (State.startFails cause s).conc = s.conc ∧
    (State.startFails cause s).acq = s.acq ∧ (State.startFails cause s).bias = s.bias ∧ (State.startFails cause s).cal = s.cal ∧
    (State.startFails cause s).thermal = s.thermal ∧ (State.startFails cause s).free = s.free := by
  unfold State.startFails; (try dsimp only)
  all_goals (first | done | simp)

/-- What `State.storeAtStart` keeps. -/
@[simp] theorem State.storeAtStart_frame (s : State) :
    (State.storeAtStart s).pending = s.pending ∧ (State.storeAtStart s).ident = s.ident ∧ (State.storeAtStart s).time = s.time ∧
    (State.storeAtStart s).units = s.units ∧ (State.storeAtStart s).desk = s.desk ∧ (State.storeAtStart s).parts = s.parts ∧
    (State.storeAtStart s).sec = s.sec ∧ (State.storeAtStart s).power = s.power ∧ (State.storeAtStart s).boot = s.boot ∧ (State.storeAtStart s).dap = s.dap ∧
    (State.storeAtStart s).seqs = s.seqs ∧ (State.storeAtStart s).synth = s.synth ∧ (State.storeAtStart s).wave = s.wave ∧
    (State.storeAtStart s).readout = s.readout ∧ (State.storeAtStart s).est = s.est ∧ (State.storeAtStart s).fabric = s.fabric ∧
    (State.storeAtStart s).conc = s.conc ∧ (State.storeAtStart s).acq = s.acq ∧ (State.storeAtStart s).bias = s.bias ∧ (State.storeAtStart s).cal = s.cal ∧
    (State.storeAtStart s).thermal = s.thermal := by
  unfold State.storeAtStart; (try dsimp only)
  repeat' split
  all_goals (first | done | simp)

/-- What `State.bootUp` keeps. -/
@[simp] theorem State.bootUp_frame (s : State) :
    (State.bootUp s).pending = s.pending ∧ (State.bootUp s).ident = s.ident ∧ (State.bootUp s).time = s.time ∧ (State.bootUp s).desk = s.desk ∧
    (State.bootUp s).parts = s.parts ∧ (State.bootUp s).power = s.power ∧ (State.bootUp s).dap = s.dap ∧ (State.bootUp s).seqs = s.seqs ∧
    (State.bootUp s).synth = s.synth ∧ (State.bootUp s).wave = s.wave ∧ (State.bootUp s).readout = s.readout ∧ (State.bootUp s).est = s.est ∧
    (State.bootUp s).fabric = s.fabric ∧ (State.bootUp s).conc = s.conc ∧ (State.bootUp s).acq = s.acq ∧ (State.bootUp s).bias = s.bias ∧
    (State.bootUp s).cal = s.cal ∧ (State.bootUp s).thermal = s.thermal := by
  unfold State.bootUp; (try dsimp only)
  repeat' split
  all_goals (first | done | simp)

/-- What `State.trimsUp` keeps. -/
@[simp] theorem State.trimsUp_frame (chassis : Bool) (s : State) :
    (State.trimsUp chassis s).pending = s.pending ∧ (State.trimsUp chassis s).ident = s.ident ∧ (State.trimsUp chassis s).host = s.host ∧
    (State.trimsUp chassis s).units = s.units ∧ (State.trimsUp chassis s).desk = s.desk ∧ (State.trimsUp chassis s).parts = s.parts ∧
    (State.trimsUp chassis s).archive = s.archive ∧ (State.trimsUp chassis s).pages = s.pages ∧ (State.trimsUp chassis s).ledger = s.ledger ∧
    (State.trimsUp chassis s).trouble = s.trouble ∧ (State.trimsUp chassis s).sec = s.sec ∧ (State.trimsUp chassis s).power = s.power ∧
    (State.trimsUp chassis s).boot = s.boot ∧ (State.trimsUp chassis s).dap = s.dap ∧ (State.trimsUp chassis s).seqs = s.seqs ∧
    (State.trimsUp chassis s).synth = s.synth ∧ (State.trimsUp chassis s).wave = s.wave ∧ (State.trimsUp chassis s).readout = s.readout ∧
    (State.trimsUp chassis s).est = s.est ∧ (State.trimsUp chassis s).fabric = s.fabric ∧ (State.trimsUp chassis s).conc = s.conc ∧
    (State.trimsUp chassis s).acq = s.acq ∧ (State.trimsUp chassis s).bias = s.bias ∧ (State.trimsUp chassis s).thermal = s.thermal ∧
    (State.trimsUp chassis s).free = s.free := by
  unfold State.trimsUp; (try dsimp only)
  all_goals (first | done | simp)

/-- What `State.holdHot` keeps. -/
@[simp] theorem State.holdHot_frame (s : State) :
    (State.holdHot s).pending = s.pending ∧ (State.holdHot s).ident = s.ident ∧ (State.holdHot s).time = s.time ∧ (State.holdHot s).host = s.host ∧
    (State.holdHot s).units = s.units ∧ (State.holdHot s).desk = s.desk ∧ (State.holdHot s).parts = s.parts ∧ (State.holdHot s).archive = s.archive ∧
    (State.holdHot s).pages = s.pages ∧ (State.holdHot s).ledger = s.ledger ∧ (State.holdHot s).trouble = s.trouble ∧ (State.holdHot s).sec = s.sec ∧
    (State.holdHot s).dap = s.dap ∧ (State.holdHot s).seqs = s.seqs ∧ (State.holdHot s).synth = s.synth ∧ (State.holdHot s).wave = s.wave ∧
    (State.holdHot s).readout = s.readout ∧ (State.holdHot s).est = s.est ∧ (State.holdHot s).fabric = s.fabric ∧ (State.holdHot s).conc = s.conc ∧
    (State.holdHot s).acq = s.acq ∧ (State.holdHot s).bias = s.bias ∧ (State.holdHot s).cal = s.cal ∧ (State.holdHot s).free = s.free := by
  unfold State.holdHot; (try dsimp only)
  all_goals (first | done | simp)

/-- What `State.resume` keeps. -/
@[simp] theorem State.resume_frame (bad : Nat) (s : State) :
    (State.resume bad s).pending = s.pending ∧ (State.resume bad s).ident = s.ident ∧ (State.resume bad s).time = s.time ∧
    (State.resume bad s).units = s.units ∧ (State.resume bad s).desk = s.desk ∧ (State.resume bad s).parts = s.parts ∧
    (State.resume bad s).archive = s.archive ∧ (State.resume bad s).sec = s.sec ∧ (State.resume bad s).power = s.power ∧ (State.resume bad s).boot = s.boot ∧
    (State.resume bad s).dap = s.dap ∧ (State.resume bad s).seqs = s.seqs ∧ (State.resume bad s).synth = s.synth ∧ (State.resume bad s).wave = s.wave ∧
    (State.resume bad s).readout = s.readout ∧ (State.resume bad s).est = s.est ∧ (State.resume bad s).fabric = s.fabric ∧ (State.resume bad s).conc = s.conc ∧
    (State.resume bad s).acq = s.acq ∧ (State.resume bad s).bias = s.bias ∧ (State.resume bad s).cal = s.cal ∧ (State.resume bad s).thermal = s.thermal := by
  unfold State.resume; dsimp only
  split <;> simp [-List.foldl_reverse]

/-- What `State.convertersUp` keeps. -/
@[simp] theorem State.convertersUp_frame (r : StartReport) (s : State) :
    (State.convertersUp r s).pending = s.pending ∧ (State.convertersUp r s).ident = s.ident ∧ (State.convertersUp r s).time = s.time ∧
    (State.convertersUp r s).desk = s.desk ∧ (State.convertersUp r s).parts = s.parts ∧ (State.convertersUp r s).archive = s.archive ∧
    (State.convertersUp r s).sec = s.sec ∧ (State.convertersUp r s).power = s.power ∧ (State.convertersUp r s).dap = s.dap ∧
    (State.convertersUp r s).seqs = s.seqs ∧ (State.convertersUp r s).synth = s.synth ∧ (State.convertersUp r s).wave = s.wave ∧
    (State.convertersUp r s).readout = s.readout ∧ (State.convertersUp r s).est = s.est ∧ (State.convertersUp r s).fabric = s.fabric ∧
    (State.convertersUp r s).conc = s.conc ∧ (State.convertersUp r s).acq = s.acq ∧ (State.convertersUp r s).cal = s.cal ∧
    (State.convertersUp r s).thermal = s.thermal := by
  unfold State.convertersUp; (try dsimp only)
  repeat' split
  all_goals (first | done | simp)

/-- What `State.skipPacket` keeps. -/
@[simp] theorem State.skipPacket_frame (k : Nat) (r : Refused) (s : State) :
    (State.skipPacket k r s).pending = s.pending ∧ (State.skipPacket k r s).ident = s.ident ∧ (State.skipPacket k r s).time = s.time ∧
    (State.skipPacket k r s).units = s.units ∧ (State.skipPacket k r s).desk = s.desk ∧ (State.skipPacket k r s).parts = s.parts ∧
    (State.skipPacket k r s).archive = s.archive ∧ (State.skipPacket k r s).sec = s.sec ∧ (State.skipPacket k r s).power = s.power ∧
    (State.skipPacket k r s).boot = s.boot ∧ (State.skipPacket k r s).dap = s.dap ∧ (State.skipPacket k r s).seqs = s.seqs ∧
    (State.skipPacket k r s).synth = s.synth ∧ (State.skipPacket k r s).wave = s.wave ∧ (State.skipPacket k r s).readout = s.readout ∧
    (State.skipPacket k r s).est = s.est ∧ (State.skipPacket k r s).fabric = s.fabric ∧ (State.skipPacket k r s).conc = s.conc ∧
    (State.skipPacket k r s).acq = s.acq ∧ (State.skipPacket k r s).bias = s.bias ∧ (State.skipPacket k r s).cal = s.cal ∧
    (State.skipPacket k r s).thermal = s.thermal := by
  unfold State.skipPacket; (try dsimp only)
  all_goals (first | done | simp)

end Sys2Proof.Machine
end

