-- ==== Sys2Proof/Laws/Desk.lean ====
section
/-!
SUPPORT. Laws/Desk.lean: what the Desk does with a packet, once for every command.
-/
namespace Sys2Proof.Machine

/-- What a commit keeps of the effect's state (R320). -/
@[simp] theorem commit_frame (s0 : State) (f : Fetched) (a : BitVec 32) (e : Effect) :
    (State.commit s0 f a e).pending = e.st.pending ∧ (State.commit s0 f a e).ident = e.st.ident ∧
    (State.commit s0 f a e).time = e.st.time ∧ (State.commit s0 f a e).units = e.st.units ∧ (State.commit s0 f a e).parts = e.st.parts ∧
    (State.commit s0 f a e).archive = e.st.archive ∧ (State.commit s0 f a e).sec = e.st.sec ∧ (State.commit s0 f a e).power = e.st.power ∧
    (State.commit s0 f a e).boot = e.st.boot ∧ (State.commit s0 f a e).dap = e.st.dap ∧ (State.commit s0 f a e).seqs = e.st.seqs ∧
    (State.commit s0 f a e).synth = e.st.synth ∧ (State.commit s0 f a e).wave = e.st.wave ∧
    (State.commit s0 f a e).readout = e.st.readout ∧ (State.commit s0 f a e).est = e.st.est ∧
    (State.commit s0 f a e).fabric = e.st.fabric ∧ (State.commit s0 f a e).conc = e.st.conc ∧ (State.commit s0 f a e).acq = e.st.acq ∧
    (State.commit s0 f a e).bias = e.st.bias ∧ (State.commit s0 f a e).cal = e.st.cal ∧ (State.commit s0 f a e).thermal = e.st.thermal := by
  unfold State.commit; dsimp only
  repeat' split
  all_goals simp

/-- What a commit keeps of the command state. -/
@[simp] theorem commit_host (s0 : State) (f : Fetched) (a : BitVec 32) (e : Effect) :
    (State.commit s0 f a e).host.accept = e.st.host.accept ∧ (State.commit s0 f a e).host.sessions = e.st.host.sessions ∧
    (State.commit s0 f a e).host.nextSerial = e.st.host.nextSerial ∧ (State.commit s0 f a e).host.queueFunc = e.st.host.queueFunc ∧
    (State.commit s0 f a e).host.fetched = e.st.host.fetched ∧ (State.commit s0 f a e).host.waiting = e.st.host.waiting ∧
    (State.commit s0 f a e).host.held = e.st.host.held := by
  unfold State.commit; dsimp only
  repeat' split
  all_goals simp

/-- The state in which an effect is formed differs from the packet's in the packet buffer, the acceptance number, and the Desk's
registers and journal. -/
@[simp] theorem entry_frame (c : Command) (p : Packet) (s : State) :
    (c.entry p s).pending = s.pending ∧ (c.entry p s).ident = s.ident ∧ (c.entry p s).time = s.time ∧ (c.entry p s).units = s.units ∧
    (c.entry p s).parts = s.parts ∧ (c.entry p s).archive = s.archive ∧ (c.entry p s).pages = s.pages ∧ (c.entry p s).ledger = s.ledger ∧
    (c.entry p s).trouble = s.trouble ∧ (c.entry p s).sec = s.sec ∧ (c.entry p s).power = s.power ∧ (c.entry p s).boot = s.boot ∧
    (c.entry p s).dap = s.dap ∧ (c.entry p s).seqs = s.seqs ∧ (c.entry p s).synth = s.synth ∧ (c.entry p s).wave = s.wave ∧
    (c.entry p s).readout = s.readout ∧ (c.entry p s).est = s.est ∧ (c.entry p s).fabric = s.fabric ∧ (c.entry p s).conc = s.conc ∧
    (c.entry p s).acq = s.acq ∧ (c.entry p s).bias = s.bias ∧ (c.entry p s).cal = s.cal ∧ (c.entry p s).thermal = s.thermal ∧
    (c.entry p s).free = s.free ∧ (c.entry p s).host.sessions = s.host.sessions ∧ (c.entry p s).host.nextSerial = s.host.nextSerial ∧
    (c.entry p s).host.queueFunc = s.host.queueFunc ∧ (c.entry p s).host.waiting = s.host.waiting ∧ (c.entry p s).host.held = s.host.held ∧
    (c.entry p s).host.open_ = s.host.open_ ∧ (c.entry p s).host.queues = s.host.queues ∧ (c.entry p s).host.debugQueue = s.host.debugQueue ∧
    (c.entry p s).host.posted = s.host.posted ∧ (c.entry p s).host.messages = s.host.messages ∧ (c.entry p s).host.closed = s.host.closed ∧
    (c.entry p s).host.msixMask = s.host.msixMask ∧ (c.entry p s).host.accept = s.host.accept + 1 := by
  unfold Command.entry
  simp [State.accepted, State.sendRec, State.takeOut]

/-- The packet as fetched is the packet. -/
@[simp] theorem State.fetchedAs_packet (s : State) (op : Nat) (p : Packet) : (s.fetchedAs op p).packet = p := by
  unfold State.fetchedAs
  split
  · rename_i f h
    have := List.find?_some h
    simp only [Bool.and_eq_true, beq_iff_eq] at this
    exact this.1.1.2
  · rfl

/-- The packet as fetched has lost no function and met no PCIe error. -/
theorem State.fetchedAs_clear (s : State) (op : Nat) (p : Packet) :
    (s.fetchedAs op p).silent = false ∧ (s.fetchedAs op p).ringFault = false := by
  unfold State.fetchedAs
  split
  · rename_i f h
    have := List.find?_some h
    simp only [Bool.and_eq_true, Bool.not_eq_true'] at this
    exact ⟨this.1.2, this.2⟩
  · exact ⟨rfl, rfl⟩

/-- A packet that is taken up and executes at once is committed (R299, R305, R320). -/
theorem Command.run_ready (c : Command) (p : Packet) (s : State) (h : c.readyIn p s = true) :
    c.run p s = State.commit (c.entry p s) (s.fetchedAs c.opcode p) (s.host.accept + 1) (c.eff (c.entry p s) p) := by
  simp only [Command.readyIn, Command.takesIn, Bool.and_eq_true, Bool.not_eq_true', Option.isNone_iff_eq_none, List.isEmpty_iff] at h
  obtain ⟨h0, ⟨⟨⟨⟨⟨⟨⟨⟨h1, h2⟩, h3⟩, h4⟩, h5⟩, h6⟩, h7⟩, h8⟩, h9⟩, h10⟩ := h
  have he : ((s.takeOut (s.fetchedAs c.opcode p)).routine (s.fetchedAs c.opcode p)).accepted p = c.entry p s := rfl
  simp [Command.run, h0, h1, h2, h3, h4, h5, h6, Command.begin_, h8, Command.body, h7, he, h9, h10]

/-- A queue pair is read from the command state alone. -/
theorem queue_of_host {s t : State} (h : t.host.queues = s.host.queues) (h' : t.host.debugQueue = s.host.debugQueue) (src : Source) :
    t.queue src = s.queue src := by
  cases src <;> simp [State.queue, h, h']

/-- A completion that is posted is the newest. -/
theorem post_head (c : Post) (s : State) (h : c.src ≠ .internal) (hs : c.silent = false) (hr : c.ringFault = false)
    (hq : (s.queue c.src).qstate ≠ .disabled) :
    ∃ e : Completion, (s.post c).host.posted = e :: s.host.posted ∧ e.source = c.src ∧ e.tag = c.tag ∧ e.handle = c.handle ∧
      e.accept = c.accept ∧ e.status = BitVec.ofNat 16 c.status ∧ e.reply = c.reply := by
  unfold State.post
  simp only [h, hs, hr, hq, Bool.false_eq_true, or_self, false_and, if_false]
  exact ⟨_, by simp only [State.sendRec_frame, State.signal_host, State.slowReport_host, State.modQueue_host]; rfl, rfl, rfl, rfl, rfl, rfl, rfl⟩

/-- What a commit posts, where the command completes at once (R296). -/
theorem commit_posted (s0 : State) (f : Fetched) (a : BitVec 32) (e : Effect) (hl : e.later = false)
    (hf : f.silent = false ∧ f.ringFault = false)
    (hq : f.packet.source = .internal ∨ (e.st.queue f.packet.source).qstate ≠ .disabled) :
    Posted f.packet a (if e.long then 0x0001 else e.status) (if e.long then none else e.reply) (State.commit s0 f a e) := by
  by_cases hi : f.packet.source = .internal
  · exact .inl hi
  refine .inr ?_
  have hq := hq.resolve_left hi
  have hc : ∃ (c : Post) (s : State) (n m : Nat), State.commit s0 f a e = (s.post c).vectorsLast n m ∧ c.src = f.packet.source ∧
      c.tag = f.packet.tag ∧ c.handle = f.packet.handle ∧ c.accept = a ∧ c.status = (if e.long then 0x0001 else e.status) ∧
      c.reply = (if e.long then none else e.reply) ∧ c.silent = f.silent ∧ c.ringFault = f.ringFault ∧
      s.host.queues = e.st.host.queues ∧ s.host.debugQueue = e.st.host.debugQueue := by
    unfold State.commit
    simp only [hl, Bool.or_false, Bool.false_eq_true, if_false]
    refine ⟨_, _, _, _, rfl, rfl, rfl, rfl, rfl, rfl, rfl, rfl, rfl, ?_, ?_⟩ <;> (repeat' split) <;> simp
  obtain ⟨c, s, n, m, h0, h1, h2, h3, h4, h5, h6, h9, h10, h7, h8⟩ := hc
  obtain ⟨x, hx, k1, k2, k3, k4, k5, k6⟩ :=
    post_head c s (h1 ▸ hi) (h9.trans hf.1) (h10.trans hf.2) (by rw [h1, queue_of_host h7 h8]; exact hq)
  exact ⟨x, by rw [h0, (State.vectorsLast_host _ _ _).2.2.2.2.2.2.2.2.2.2, hx]; rfl, k1.trans h1, k2.trans h2, k3.trans h3, k4.trans h4,
    by rw [k5, h5], k6.trans h6⟩

/-- A packet that is ready comes from the device itself or from a queue that is enabled. -/
theorem ready_queue {c : Command} {p : Packet} {s : State} (h : c.readyIn p s = true) :
    p.source = .internal ∨ ((c.entry p s).queue p.source).qstate ≠ .disabled := by
  simp only [Command.readyIn, Bool.and_eq_true, Bool.or_eq_true, beq_iff_eq] at h
  refine h.1.imp id fun k => ?_
  have e : (c.entry p s).queue p.source = s.queue p.source := queue_of_host (by simp) (by simp) p.source
  rw [e, k]
  decide

/-- `Only` composes. -/
theorem Only.trans {l : List Part} {s t u : State} (h : Only l s t) (k : Only l t u) : Only l s u := by
  intro x hx
  have a := h x hx
  have b := k x hx
  cases x <;> exact b.trans a

/-- Nothing changes. -/
theorem Only.refl (l : List Part) (s : State) : Only l s s := by
  intro x _
  cases x <;> rfl

/-- What changes some parts changes no part outside a longer list. -/
theorem Only.mono {l m : List Part} {s t : State} (h : Only l s t) (hm : ∀ x ∈ l, x ∈ m) : Only m s t :=
  fun x hx => h x fun k => hx (hm x k)

/-- Refusals, holds and completions change what `report` names. -/
theorem refuse_only (f : Fetched) (a : BitVec 32) (r : Refused) (s : State) : Only report s (s.refuse f a r) := by
  intro x hx
  cases x <;> simp [report] at hx <;> simp [Part.same]

/-- A hold changes what `report` names. -/
theorem holdCmd_only (f : Fetched) (a : BitVec 32) (l : List Wait) (s : State) : Only report s (s.holdCmd f a l) := by
  intro x hx
  cases x <;> simp [report] at hx <;> simp [Part.same]

/-- A completion changes what `report` names. -/
theorem post_only (c : Post) (s : State) : Only report s (s.post c) := by
  intro x hx
  cases x <;> simp [report] at hx <;> simp [Part.same]

/-- A commit changes what `report` names, beside its effect. -/
theorem commit_only (s0 : State) (f : Fetched) (a : BitVec 32) (e : Effect) : Only report e.st (State.commit s0 f a e) := by
  intro x hx
  cases x <;> simp [report] at hx <;> simp [Part.same]

/-- A CHECK = 1 packet changes what `report` names. -/
theorem checked_only (f : Fetched) (a : BitVec 32) (e : Effect) (s : State) : Only report s (s.checked f a e) := by
  intro x hx
  cases x <;> simp [report] at hx <;> simp [Part.same]

/-- A packet's routine changes what `report` names, and what the effect changes. -/
theorem Command.begin_only (c : Command) (f : Fetched) (a : Option (BitVec 32)) (l : List Part) (hl : ∀ x ∈ report, x ∈ l)
    (he : ∀ s, Only l s (c.eff s f.packet).st) (s : State) : Only l s (c.begin_ f a s) := by
  have body (s : State) (n : BitVec 32) : Only l s (c.body f n s) := by
    unfold Command.body; dsimp only
    split
    · exact (refuse_only _ _ _ _).mono hl
    split
    · exact (checked_only _ _ _ _).mono hl
    split
    · exact (holdCmd_only _ _ _ _).mono hl
    · exact (he s).trans ((commit_only _ _ _ _).mono hl)
  have first : Only report s (s.routine f) := by
    intro x hx
    cases x <;> simp [report] at hx <;> simp [Part.same]
  have number (t : State) : Only report t (t.accepted f.packet) := by
    intro x hx
    cases x <;> simp [report] at hx <;> simp [Part.same]
  refine (first.mono hl).trans ?_
  unfold Command.begin_; dsimp only
  split
  · exact body _ _
  split
  · exact (refuse_only _ _ _ _).mono hl
  · exact ((number _).mono hl).trans (body _ _)

/-- A packet changes what `report` names, and what its effect changes. -/
theorem Command.run_only (c : Command) (p : Packet) (l : List Part) (hl : ∀ x ∈ report, x ∈ l)
    (he : ∀ s, Only l s (c.eff s p).st) (s : State) : Only l s (c.run p s) := by
  have park (f : Fetched) (t : State) (h : t = s.enqueue f ∨ t = s.parkPacket f ∨ t = s.takeOut f ∨ t = s.clearCur) : Only l s t := by
    refine Only.mono (l := report) ?_ hl
    intro x hx
    obtain rfl | rfl | rfl | rfl := h
    · unfold State.enqueue; split <;> cases x <;> simp [report] at hx <;> simp [Part.same]
    all_goals cases x <;> simp [report] at hx <;> simp [Part.same]
  unfold Command.run; dsimp only
  split
  · exact Only.refl l s
  split
  · split
    · rename_i g _ _ _ _ h
      exact (park g _ (.inr (.inr (.inr rfl)))).trans (c.begin_only g _ l hl (by rw [h.2]; exact he) _)
    split
    · exact park _ _ (.inl rfl)
    · exact Only.refl l s
  · split
    · exact park _ _ (.inl rfl)
    · exact Only.refl l s
  · split
    · exact Only.refl l s
    split
    · exact park _ _ (.inl rfl)
    split
    · exact park _ _ (.inr (.inl rfl))
    · exact (park _ _ (.inr (.inr (.inl rfl)))).trans (c.begin_only _ _ l hl (by rw [State.fetchedAs_packet]; exact he) _)

/-- The frame of a packet command. -/
theorem frame_of {i : Instr} {c : Command} {p : Packet} {l : List Part} (hi : ∀ s, exec i s = .next (c.run p s))
    (hl : ∀ x ∈ report, x ∈ l) (he : ∀ s, Only l s (c.eff s p).st) : Frame i l := by
  intro s t h
  rw [hi] at h
  cases h
  exact c.run_only p l hl he s

/-- A command answers with `post` when its effect leaves the acceptance count alone and the committed state has `post`. -/
theorem answers_of {i : Instr} {c : Command} {p : Packet} {post : State → State → Prop}
    (hi : ∀ s, exec i s = .next (c.run p s))
    (hp : ∀ s, c.readyIn p s = true →
      (c.eff (c.entry p s) p).st.host.accept = s.host.accept + 1 ∧
        post s (State.commit (c.entry p s) (s.fetchedAs c.opcode p) (s.host.accept + 1) (c.eff (c.entry p s) p))) : Answers i c p post := by
  intro s h
  refine ⟨_, (hi s).trans (congrArg _ (c.run_ready p s h)), ?_, (hp s h).2⟩
  rw [(commit_host _ _ _ _).1]
  exact (hp s h).1

end Sys2Proof.Machine
end

