-- ==== Sys2Proof/Laws/Ops.lean ====
section
/-!
SUPPORT. Laws/Ops.lean: what the shared operations do, once for each: the clock runs to a tick, a trouble bit is set, the outputs are
muted on a loss of lock.
-/
namespace Sys2Proof.Machine

/-- The clock runs forward to a tick that is not past. -/
@[simp] theorem State.runTo_now (n : Nat) (s : State) (h : s.now ≤ n) : (s.runTo n).now = n := by
  simp only [State.now, State.runTo, State.advance, Timebase.advance] at *; omega

/-- Ticks pass. -/
@[simp] theorem State.advance_now (k : Nat) (s : State) : (s.advance k).now = s.now + k := rfl

/-- The device tick is read from the timebase alone. -/
theorem State.now_congr {s t : State} (h : t.time = s.time) : t.now = s.now := by simp [State.now, h]

/-- Trouble words with one more bit set keep every bit that is set. -/
theorem upd_keeps (l : Vector Word 16) (w v : Fin 16) (b c : Nat) (h : bitAt l[v.val] c = true) :
    bitAt (upd l w fun x => x ||| put b b 1)[v.val] c = true := by
  rw [getElem_upd]; split
  · exact bitAt_or _ _ _ h
  · exact h

section
variable (v : Fin 16) (c : Nat) {s : State} (h : bitAt s.trouble[v.val] c = true)
include h

/-- Writes of the Archive keep a trouble bit that is set (R382). -/
theorem wrote_keeps (p : Pages) : bitAt (s.wrote p).trouble[v.val] c = true := by
  unfold State.wrote; dsimp only; (repeat' split) <;> simp <;> first | exact h | exact upd_keeps _ 0 v 10 c h

/-- A checkpoint keeps a trouble bit that is set. -/
theorem checkpointOnce_keeps : bitAt s.checkpointOnce.trouble[v.val] c = true := by
  unfold State.checkpointOnce
  split
  · exact h
  · simp only [State.raise_frame, State.appendRec_frame]; exact wrote_keeps v c (by exact h) _

/-- Checkpoints keep a trouble bit that is set. -/
theorem checkpoint_keeps : bitAt s.checkpoint.trouble[v.val] c = true := by
  unfold State.checkpoint; dsimp only; split
  · exact checkpointOnce_keeps v c (checkpointOnce_keeps v c h)
  · exact checkpointOnce_keeps v c h

/-- A record keeps a trouble bit that is set. -/
theorem note_keeps (r : LedgerRec) : bitAt (s.note r).trouble[v.val] c = true := by
  unfold State.note State.noteDated; dsimp only; (repeat' split)
  · exact checkpoint_keeps v c (by simpa using h)
  · simpa using h
  · exact h

end

/-- A trouble bit that is set reads as set. -/
theorem setTrouble_bit (w : Fin 16) (b : Nat) (s : State) (h : b < 64) : bitAt (s.setTrouble w b).trouble[w.val] b = true := by
  unfold State.setTrouble; dsimp only
  split <;> (try simp only [State.raise_frame]) <;>
    exact note_keeps w b (by rw [getElem_upd]; simp [bitAt_or_put _ _ h]) _

/-- A trouble bit stays set when another is set (R11). -/
theorem setTrouble_keeps (w v : Fin 16) (b c : Nat) (s : State) (h : bitAt s.trouble[v.val] c = true) :
    bitAt (s.setTrouble w b).trouble[v.val] c = true := by
  unfold State.setTrouble; dsimp only
  split <;> (try simp only [State.raise_frame]) <;> exact note_keeps v c (by exact upd_keeps _ w v b c h) _

/-- A trouble bit of an owned element that is set reads as set. -/
theorem troubleOwned_bit (w : Fin 16) (b : Nat) (o : Fin 8) (s : State) (h : b < 64) :
    bitAt (s.troubleOwned w b o).trouble[w.val] b = true := by
  unfold State.troubleOwned; dsimp only
  split
  · exact setTrouble_bit w b s h
  · simpa using setTrouble_bit w b s h

/-- An output's unlock mute after a change of its mute causes. -/
theorem muteBy_unlock (o j : Nat) (f : Output → Output) (s : State) :
    ((s.muteBy o f).out j).unlock = if o = j ∧ j < 96 then (f (s.out j)).unlock else (s.out j).unlock := by
  unfold State.muteBy State.modOut State.out
  simp only [atN_updN]
  split
  · simp only [Output.stamp, Output.release]; (repeat' split) <;> rfl
  · rfl

/-- The unlock mute of every output of a list. -/
theorem foldl_unlock (b : Bool) (l : List Nat) (j : Nat) (s : State) :
    ((l.foldl (fun s o => s.muteBy o fun x => { x with unlock := b }) s).out j).unlock =
      if j ∈ l ∧ j < 96 then b else (s.out j).unlock := by
  induction l generalizing s with
  | nil => simp
  | cons o l ih =>
    rw [List.foldl_cons, ih, muteBy_unlock]
    by_cases h : j ∈ l <;> by_cases e : o = j <;> by_cases k : j < 96 <;> simp_all
    all_goals (intro e'; exact absurd e'.symm e)

/-- A loss of lock mutes every output, and a lock ends that mute (R58). -/
theorem unlockAll_out (b : Bool) (s : State) (o : Nat) (h : o < 96) : ((s.unlockAll b).out o).unlock = b := by
  unfold State.unlockAll State.mutingAll; rw [foldl_unlock]; simp [h]

/-- The end of a calibration run keeps the unlock mutes. -/
theorem calStop_unlock (s : State) (d st o : Nat) : ((s.calStop d st).out o).unlock = (s.out o).unlock := by
  unfold State.calStop; dsimp only
  repeat' split
  all_goals simp [State.out, State.modChan, State.modCal, State.setDacSpare, State.setAdcSpare]

/-- The end of every calibration run keeps the unlock mutes. -/
theorem calStopAll_unlock (s : State) (st o : Nat) : ((s.calStopAll st).out o).unlock = (s.out o).unlock := by
  unfold State.calStopAll
  exact foldl_keeps (fun s => (s.out o).unlock) _ (fun s d => calStop_unlock s d st o) _ _

/-! ## Restart (Table 19.9): what it keeps, and what it sets back -/

section
variable (keeper soft : Bool) (cause phase : Nat) (s : State)

@[simp] theorem State.restart_pending : (s.restart keeper soft cause phase).pending = s.pending := rfl
@[simp] theorem State.restart_ident : (s.restart keeper soft cause phase).ident = s.ident := rfl
@[simp] theorem State.restart_free : (s.restart keeper soft cause phase).free = s.free := rfl
@[simp] theorem State.restart_time : (s.restart keeper soft cause phase).time = ({} : State).time := rfl
@[simp] theorem State.restart_power : (s.restart keeper soft cause phase).power = ({} : State).power := rfl
@[simp] theorem State.restart_dap : (s.restart keeper soft cause phase).dap = ({} : State).dap := rfl
@[simp] theorem State.restart_wave : (s.restart keeper soft cause phase).wave = ({} : State).wave := rfl
@[simp] theorem State.restart_est : (s.restart keeper soft cause phase).est = ({} : State).est := rfl
@[simp] theorem State.restart_fabric : (s.restart keeper soft cause phase).fabric = ({} : State).fabric := rfl
@[simp] theorem State.restart_conc : (s.restart keeper soft cause phase).conc = ({} : State).conc := rfl
@[simp] theorem State.restart_acq : (s.restart keeper soft cause phase).acq = ({} : State).acq := rfl
@[simp] theorem State.restart_bias : (s.restart keeper soft cause phase).bias = ({} : State).bias := rfl
@[simp] theorem State.restart_cal : (s.restart keeper soft cause phase).cal = ({} : State).cal := rfl
@[simp] theorem State.restart_archive : (s.restart keeper soft cause phase).archive = s.archive.rest := rfl
@[simp] theorem State.restart_trouble : (s.restart keeper soft cause phase).trouble = if keeper then s.trouble else ({} : State).trouble := rfl
@[simp] theorem State.restart_boot_phase : (s.restart keeper soft cause phase).boot.phase = phase := rfl
@[simp] theorem State.restart_boot_resetCause : (s.restart keeper soft cause phase).boot.resetCause = cause := rfl
@[simp] theorem State.restart_sec_lifecycle : (s.restart keeper soft cause phase).sec.lifecycle = s.sec.lifecycle := rfl
@[simp] theorem State.restart_sec_purged : (s.restart keeper soft cause phase).sec.purged = s.sec.purged := rfl
@[simp] theorem State.restart_sec_keysErased : (s.restart keeper soft cause phase).sec.keysErased = s.sec.keysErased := rfl
@[simp] theorem State.restart_sec_identity : (s.restart keeper soft cause phase).sec.identity = s.sec.identity := rfl
@[simp] theorem State.restart_host_sessions : (s.restart keeper soft cause phase).host.sessions = [] := rfl
@[simp] theorem State.restart_host_queues : (s.restart keeper soft cause phase).host.queues = [] := rfl
@[simp] theorem State.restart_host_open : (s.restart keeper soft cause phase).host.open_ = [] := rfl
@[simp] theorem State.restart_host_held : (s.restart keeper soft cause phase).host.held = [] := rfl
@[simp] theorem State.restart_host_messages : (s.restart keeper soft cause phase).host.messages = s.host.messages := rfl
@[simp] theorem State.restart_host_posted : (s.restart keeper soft cause phase).host.posted = s.host.posted.filter (fun c => c.source != .debugPort) := rfl
@[simp] theorem State.restart_ledger : (s.restart keeper soft cause phase).ledger = { ({} : State).ledger with checkpoints := s.ledger.checkpoints } := rfl

end

@[simp] theorem State.sleep_pending (s : State) : s.sleep.pending = s.pending := rfl
@[simp] theorem State.sleep_ident (s : State) : s.sleep.ident = s.ident := rfl
@[simp] theorem State.sleep_sec_lifecycle (s : State) : s.sleep.sec.lifecycle = s.sec.lifecycle := rfl
@[simp] theorem State.sleep_sec_purged (s : State) : s.sleep.sec.purged = s.sec.purged := rfl
@[simp] theorem State.sleep_sec_keysErased (s : State) : s.sleep.sec.keysErased = s.sec.keysErased := rfl
@[simp] theorem State.sleep_host_sessions (s : State) : s.sleep.host.sessions = [] := rfl
@[simp] theorem State.sleep_host_queues (s : State) : s.sleep.host.queues = [] := rfl
@[simp] theorem State.sleep_conc (s : State) : s.sleep.conc = ({} : State).conc := rfl
@[simp] theorem State.sleep_cal (s : State) : s.sleep.cal = ({} : State).cal := rfl
@[simp] theorem State.sleep_st (s : State) : s.sleep.power.st = .dormant := rfl

end Sys2Proof.Machine
end

