-- ==== Sys2Proof/Laws/Total.lean ====
section
/-!
SUPPORT. Laws/Total.lean: every command answers a next state, in every state. No meaning ends in a fault or a refusal.
-/
namespace Sys2Proof.Machine

theorem execShelfCopyEnd_next (bad : Option (BitVec 16)) (s : State) : ∃ t, execShelfCopyEnd bad s = .next t := by
  unfold execShelfCopyEnd; repeat' first | exact ⟨_, rfl⟩ | split
theorem execLineSettleEnd_next (l : Fin 32) (s : State) : ∃ t, execLineSettleEnd l s = .next t := by
  unfold execLineSettleEnd; repeat' first | exact ⟨_, rfl⟩ | split
theorem execConcFillEnd_next (s : State) : ∃ t, execConcFillEnd s = .next t := by
  unfold execConcFillEnd; repeat' first | exact ⟨_, rfl⟩ | split
theorem execHousekeepingRequestEnd_next (die : Fin 4) (value : Word) (s : State) : ∃ t, execHousekeepingRequestEnd die value s = .next t := by
  unfold execHousekeepingRequestEnd; repeat' first | exact ⟨_, rfl⟩ | split | dsimp only
theorem execDoorbellSqTail_next (q : Fin 32768) (sqTail : BitVec 12) (narrow : Bool) (s : State) : ∃ t, execDoorbellSqTail q sqTail narrow s = .next t := by
  unfold execDoorbellSqTail; repeat' first | exact ⟨_, rfl⟩ | split | dsimp only
theorem execDoorbellCqHead_next (q : Fin 32768) (cqHead : BitVec 12) (narrow : Bool) (s : State) : ∃ t, execDoorbellCqHead q cqHead narrow s = .next t := by
  unfold execDoorbellCqHead; repeat' first | exact ⟨_, rfl⟩ | split | dsimp only
theorem execQueueEnable_next (q : Fin 32768) (s : State) : ∃ t, execQueueEnable q s = .next t := by
  unfold execQueueEnable; repeat' first | exact ⟨_, rfl⟩ | split | dsimp only
theorem execQueueDisable_next (q : Fin 32768) (s : State) : ∃ t, execQueueDisable q s = .next t := by
  unfold execQueueDisable; repeat' first | exact ⟨_, rfl⟩ | split | dsimp only
theorem execQueueDrainEnd_next (q : Fin 32768) (s : State) : ∃ t, execQueueDrainEnd q s = .next t := by
  unfold execQueueDrainEnd; repeat' first | exact ⟨_, rfl⟩ | split | dsimp only
theorem execBar0RegisterWrite_next (r : Bar0Target) (v : Word) (s : State) : ∃ t, execBar0RegisterWrite r v s = .next t := by
  unfold execBar0RegisterWrite; repeat' first | exact ⟨_, rfl⟩ | split | dsimp only
theorem execPacketFetch_next (src : Source) (ring : Words) (pcieError : Bool) (s : State) : ∃ t, execPacketFetch src ring pcieError s = .next t := by
  unfold execPacketFetch; repeat' first | exact ⟨_, rfl⟩ | split | dsimp only
theorem execHeldCommandExecute_next (s : State) : ∃ t, execHeldCommandExecute s = .next t := by
  unfold execHeldCommandExecute; repeat' first | exact ⟨_, rfl⟩ | split
theorem execCommitSequence_next (pcieError : Bool) (s : State) : ∃ t, execCommitSequence pcieError s = .next t := by
  unfold execCommitSequence; repeat' first | exact ⟨_, rfl⟩ | split | dsimp only
theorem execStandbyAckTimeout_next (s : State) : ∃ t, execStandbyAckTimeout s = .next t := by
  unfold execStandbyAckTimeout; repeat' first | exact ⟨_, rfl⟩ | split
theorem execMachineCheck_next (cause : MachineCause) (addr : BitVec 14) (tail : Bool) (s : State) : ∃ t, execMachineCheck cause addr tail s = .next t := by
  unfold execMachineCheck; repeat' first | exact ⟨_, rfl⟩ | split | dsimp only
theorem execRepairRequest_next (s : State) : ∃ t, execRepairRequest s = .next t := by
  unfold execRepairRequest; repeat' first | exact ⟨_, rfl⟩ | split | dsimp only
theorem execLongCommandStep_next (accept : BitVec 32) (s : State) : ∃ t, execLongCommandStep accept s = .next t := by
  unfold execLongCommandStep; repeat' first | exact ⟨_, rfl⟩ | split
theorem execLongCommandEnd_next (accept : BitVec 32) (s : State) : ∃ t, execLongCommandEnd accept s = .next t := by
  unfold execLongCommandEnd; repeat' first | exact ⟨_, rfl⟩ | split
theorem execInterruptCoalesceTimeout_next (q : Fin 32768) (s : State) : ∃ t, execInterruptCoalesceTimeout q s = .next t := by
  unfold execInterruptCoalesceTimeout; repeat' first | exact ⟨_, rfl⟩ | split | dsimp only
theorem execHeartbeatToggle_next (u : UnitId) (watchdog : Bool) (stall : BitVec 16) (s : State) : ∃ t, execHeartbeatToggle u watchdog stall s = .next t := by
  unfold execHeartbeatToggle; repeat' first | exact ⟨_, rfl⟩ | split | dsimp only
theorem execHeartbeatMissing_next (u : UnitId) (s : State) : ∃ t, execHeartbeatMissing u s = .next t := by
  unfold execHeartbeatMissing; repeat' first | exact ⟨_, rfl⟩ | split | dsimp only
theorem execSwitchover_next (s : State) : ∃ t, execSwitchover s = .next t := by
  unfold execSwitchover; repeat' first | exact ⟨_, rfl⟩ | split | dsimp only
theorem execJournalParityError_next (s : State) : ∃ t, execJournalParityError s = .next t := by
  unfold execJournalParityError; repeat' first | exact ⟨_, rfl⟩ | split
theorem execStandbyProof_next (passed : Bool) (s : State) : ∃ t, execStandbyProof passed s = .next t := by
  unfold execStandbyProof; repeat' first | exact ⟨_, rfl⟩ | split
theorem execUnitRestart_next (u : UnitId) (s : State) : ∃ t, execUnitRestart u s = .next t := by
  unfold execUnitRestart; repeat' first | exact ⟨_, rfl⟩ | split
theorem execUnitSelftestEnd_next (u : UnitId) (passed : Bool) (s : State) : ∃ t, execUnitSelftestEnd u passed s = .next t := by
  unfold execUnitSelftestEnd; repeat' first | exact ⟨_, rfl⟩ | split | dsimp only
theorem execResyncEnd_next (u : UnitId) (s : State) : ∃ t, execResyncEnd u s = .next t := by
  unfold execResyncEnd; repeat' first | exact ⟨_, rfl⟩ | split | dsimp only
theorem execKeeperVoterFault_next (v : Fin 3) (s : State) : ∃ t, execKeeperVoterFault v s = .next t := by
  unfold execKeeperVoterFault; repeat' first | exact ⟨_, rfl⟩ | split
theorem execServiceLaneFailure_next (u : UnitId) (die : Fin 4) (s : State) : ∃ t, execServiceLaneFailure u die s = .next t := by
  unfold execServiceLaneFailure; repeat' first | exact ⟨_, rfl⟩ | split | dsimp only
theorem execServiceLaneRetrain_next (die : Fin 4) (up : Bool) (s : State) : ∃ t, execServiceLaneRetrain die up s = .next t := by
  unfold execServiceLaneRetrain; repeat' first | exact ⟨_, rfl⟩ | split
theorem execServiceLaneUp_next (u : UnitId) (die : Fin 4) (s : State) : ∃ t, execServiceLaneUp u die s = .next t := by
  unfold execServiceLaneUp; repeat' first | exact ⟨_, rfl⟩ | split
theorem execServiceLaneHoldTimeout_next (die : Fin 4) (s : State) : ∃ t, execServiceLaneHoldTimeout die s = .next t := by
  unfold execServiceLaneHoldTimeout; repeat' first | exact ⟨_, rfl⟩ | split
theorem execReferenceLoss_next (s : State) : ∃ t, execReferenceLoss s = .next t := by
  unfold execReferenceLoss; repeat' first | exact ⟨_, rfl⟩ | split
theorem execReferenceReturn_next (s : State) : ∃ t, execReferenceReturn s = .next t := by
  unfold execReferenceReturn; repeat' first | exact ⟨_, rfl⟩ | split
theorem execReferenceStable_next (s : State) : ∃ t, execReferenceStable s = .next t := by
  unfold execReferenceStable; repeat' first | exact ⟨_, rfl⟩ | split
theorem execRelockComplete_next (s : State) : ∃ t, execRelockComplete s = .next t := by
  unfold execRelockComplete; repeat' first | exact ⟨_, rfl⟩ | split
theorem execPllLock_next (s : State) : ∃ t, execPllLock s = .next t := by
  unfold execPllLock; repeat' first | exact ⟨_, rfl⟩ | split
theorem execReferenceTimeout_next (s : State) : ∃ t, execReferenceTimeout s = .next t := by
  unfold execReferenceTimeout; repeat' first | exact ⟨_, rfl⟩ | split
theorem execPllFault_next (s : State) : ∃ t, execPllFault s = .next t := by
  unfold execPllFault; repeat' first | exact ⟨_, rfl⟩ | split
theorem execSyncEdge_next (src : SyncIn) (ps : Fin 1000) (s : State) : ∃ t, execSyncEdge src ps s = .next t := by
  unfold execSyncEdge; repeat' first | exact ⟨_, rfl⟩ | split | dsimp only
theorem execEpochSet_next (s : State) : ∃ t, execEpochSet s = .next t := by
  unfold execEpochSet; repeat' first | exact ⟨_, rfl⟩ | split
theorem execAlmanacMark_next (s : State) : ∃ t, execAlmanacMark s = .next t := by
  unfold execAlmanacMark; repeat' first | exact ⟨_, rfl⟩ | split
theorem execServoPhaseTermEnd_next (s : State) : ∃ t, execServoPhaseTermEnd s = .next t := by
  unfold execServoPhaseTermEnd; repeat' first | exact ⟨_, rfl⟩ | split
theorem execAlmanacEventFire_next (s : State) : ∃ t, execAlmanacEventFire s = .next t := by
  unfold execAlmanacEventFire; repeat' first | exact ⟨_, rfl⟩ | split
theorem execSkewCalComplete_next (s : State) : ∃ t, execSkewCalComplete s = .next t := by
  unfold execSkewCalComplete; repeat' first | exact ⟨_, rfl⟩ | split
theorem execSkewCalTimeout_next (s : State) : ∃ t, execSkewCalTimeout s = .next t := by
  unfold execSkewCalTimeout; repeat' first | exact ⟨_, rfl⟩ | split
theorem execShotStart_next (q : Fin 256) (s : State) : ∃ t, execShotStart q s = .next t := by
  unfold execShotStart; repeat' first | exact ⟨_, rfl⟩ | split | dsimp only
theorem execShotBoundary_next (q : Fin 256) (s : State) : ∃ t, execShotBoundary q s = .next t := by
  unfold execShotBoundary; repeat' first | exact ⟨_, rfl⟩ | split | dsimp only
theorem execShotLengthLimit_next (q : Fin 256) (s : State) : ∃ t, execShotLengthLimit q s = .next t := by
  unfold execShotLengthLimit; repeat' first | exact ⟨_, rfl⟩ | split | dsimp only
theorem execNop_next (q : Fin 256) (s : State) : ∃ t, execNop q s = .next t := by
  unfold execNop; repeat' first | exact ⟨_, rfl⟩ | split
theorem execPlay_next (q : Fin 256) (s : State) : ∃ t, execPlay q s = .next t := by
  unfold execPlay; repeat' first | exact ⟨_, rfl⟩ | split
theorem execSetf_next (q : Fin 256) (s : State) : ∃ t, execSetf q s = .next t := by
  unfold execSetf; repeat' first | exact ⟨_, rfl⟩ | split
theorem execSetp_next (q : Fin 256) (s : State) : ∃ t, execSetp q s = .next t := by
  unfold execSetp; repeat' first | exact ⟨_, rfl⟩ | split
theorem execFrame_next (q : Fin 256) (s : State) : ∃ t, execFrame q s = .next t := by
  unfold execFrame; repeat' first | exact ⟨_, rfl⟩ | split
theorem execMeasure_next (q : Fin 256) (s : State) : ∃ t, execMeasure q s = .next t := by
  unfold execMeasure; repeat' first | exact ⟨_, rfl⟩ | split
theorem execMark_next (q : Fin 256) (s : State) : ∃ t, execMark q s = .next t := by
  unfold execMark; repeat' first | exact ⟨_, rfl⟩ | split
theorem execWait_next (q : Fin 256) (s : State) : ∃ t, execWait q s = .next t := by
  unfold execWait; repeat' first | exact ⟨_, rfl⟩ | split
theorem execWaitResolve_next (q : Fin 256) (s : State) : ∃ t, execWaitResolve q s = .next t := by
  unfold execWaitResolve; repeat' first | exact ⟨_, rfl⟩ | split
theorem execWaitTimeout_next (q : Fin 256) (s : State) : ∃ t, execWaitTimeout q s = .next t := by
  unfold execWaitTimeout; repeat' first | exact ⟨_, rfl⟩ | split
theorem execBrv_next (q : Fin 256) (s : State) : ∃ t, execBrv q s = .next t := by
  unfold execBrv; repeat' first | exact ⟨_, rfl⟩ | split
theorem execBrvResolve_next (q : Fin 256) (s : State) : ∃ t, execBrvResolve q s = .next t := by
  unfold execBrvResolve; repeat' first | exact ⟨_, rfl⟩ | split | dsimp only
theorem execBrvDeadline_next (q : Fin 256) (s : State) : ∃ t, execBrvDeadline q s = .next t := by
  unfold execBrvDeadline; repeat' first | exact ⟨_, rfl⟩ | split | dsimp only
theorem execLookup_next (q : Fin 256) (s : State) : ∃ t, execLookup q s = .next t := by
  unfold execLookup; repeat' first | exact ⟨_, rfl⟩ | split
theorem execLookupResolve_next (q : Fin 256) (s : State) : ∃ t, execLookupResolve q s = .next t := by
  unfold execLookupResolve; repeat' first | exact ⟨_, rfl⟩ | split
theorem execLookupResult_next (q : Fin 256) (err : Fin 3) (s : State) : ∃ t, execLookupResult q err s = .next t := by
  unfold execLookupResult; repeat' first | exact ⟨_, rfl⟩ | split
theorem execBr_next (q : Fin 256) (s : State) : ∃ t, execBr q s = .next t := by
  unfold execBr; repeat' first | exact ⟨_, rfl⟩ | split
theorem execLoop_next (q : Fin 256) (s : State) : ∃ t, execLoop q s = .next t := by
  unfold execLoop; repeat' first | exact ⟨_, rfl⟩ | split
theorem execCall_next (q : Fin 256) (s : State) : ∃ t, execCall q s = .next t := by
  unfold execCall; repeat' first | exact ⟨_, rfl⟩ | split
theorem execRet_next (q : Fin 256) (s : State) : ∃ t, execRet q s = .next t := by
  unfold execRet; repeat' first | exact ⟨_, rfl⟩ | split
theorem execSeqEnd_next (q : Fin 256) (s : State) : ∃ t, execSeqEnd q s = .next t := by
  unfold execSeqEnd; repeat' first | exact ⟨_, rfl⟩ | split
theorem execAlu_next (q : Fin 256) (s : State) : ∃ t, execAlu q s = .next t := by
  unfold execAlu; repeat' first | exact ⟨_, rfl⟩ | split
theorem execAlui_next (q : Fin 256) (s : State) : ∃ t, execAlui q s = .next t := by
  unfold execAlui; repeat' first | exact ⟨_, rfl⟩ | split
theorem execLi_next (q : Fin 256) (s : State) : ∃ t, execLi q s = .next t := by
  unfold execLi; repeat' first | exact ⟨_, rfl⟩ | split
theorem execMovs_next (q : Fin 256) (s : State) : ∃ t, execMovs q s = .next t := by
  unfold execMovs; repeat' first | exact ⟨_, rfl⟩ | split
theorem execCueExecute_next (q : Fin 256) (s : State) : ∃ t, execCueExecute q s = .next t := by
  unfold execCueExecute; repeat' first | exact ⟨_, rfl⟩ | split
theorem execMarkPulseEnd_next (m : MarkTarget) (s : State) : ∃ t, execMarkPulseEnd m s = .next t := by
  unfold execMarkPulseEnd; repeat' first | exact ⟨_, rfl⟩ | split
theorem execSeqAbortCut_next (q : Fin 256) (s : State) : ∃ t, execSeqAbortCut q s = .next t := by
  unfold execSeqAbortCut; repeat' first | exact ⟨_, rfl⟩ | split | dsimp only
theorem execLockstepMiscompare_next (q : Fin 256) (s : State) : ∃ t, execLockstepMiscompare q s = .next t := by
  unfold execLockstepMiscompare; repeat' first | exact ⟨_, rfl⟩ | split
theorem execSparePairRestoreEnd_next (q : Fin 256) (s : State) : ∃ t, execSparePairRestoreEnd q s = .next t := by
  unfold execSparePairRestoreEnd; repeat' first | exact ⟨_, rfl⟩ | split
theorem execProgramMemoryError_next (q : Fin 256) (addr : Fin 4096) (corrected : Bool) (s : State) : ∃ t, execProgramMemoryError q addr corrected s = .next t := by
  unfold execProgramMemoryError; repeat' first | exact ⟨_, rfl⟩ | split
theorem execBridgeParityError_next (lane : BridgeLane) (s : State) : ∃ t, execBridgeParityError lane s = .next t := by
  unfold execBridgeParityError; repeat' first | exact ⟨_, rfl⟩ | split
theorem execBridgeLaneRetire_next (die : Fin 4) (toHub : Bool) (s : State) : ∃ t, execBridgeLaneRetire die toHub s = .next t := by
  unfold execBridgeLaneRetire; repeat' first | exact ⟨_, rfl⟩ | split
theorem execDebugSequencerHalt_next (q : Fin 256) (s : State) : ∃ t, execDebugSequencerHalt q s = .next t := by
  unfold execDebugSequencerHalt; repeat' first | exact ⟨_, rfl⟩ | split
theorem execDebugSequencerStep_next (q : Fin 256) (s : State) : ∃ t, execDebugSequencerStep q s = .next t := by
  unfold execDebugSequencerStep; repeat' first | exact ⟨_, rfl⟩ | split | dsimp only
theorem execRefillRequest_next (q : Fin 256) (b : Fin 8) (s : State) : ∃ t, execRefillRequest q b s = .next t := by
  unfold execRefillRequest; repeat' first | exact ⟨_, rfl⟩ | split | dsimp only
theorem execRefillLand_next (q : Fin 256) (b : Fin 8) (n : Fin 8192) (err : Option (Fin 8)) (s : State) : ∃ t, execRefillLand q b n err s = .next t := by
  unfold execRefillLand; repeat' first | exact ⟨_, rfl⟩ | split
theorem execShelfEccError_next (q : Fin 256) (granule : Fin 57344) (word : Fin 32) (corrected : Bool) (s : State) : ∃ t, execShelfEccError q granule word corrected s = .next t := by
  unfold execShelfEccError; repeat' first | exact ⟨_, rfl⟩ | split
theorem execOutputRampEnd_next (o : Fin 96) (s : State) : ∃ t, execOutputRampEnd o s = .next t := by
  unfold execOutputRampEnd; repeat' first | exact ⟨_, rfl⟩ | split | dsimp only
theorem execDacCoreSettled_next (o : Fin 96) (s : State) : ∃ t, execDacCoreSettled o s = .next t := by
  unfold execDacCoreSettled; repeat' first | exact ⟨_, rfl⟩ | split
theorem execDacCoreFault_next (o : Fin 96) (s : State) : ∃ t, execDacCoreFault o s = .next t := by
  unfold execDacCoreFault; repeat' first | exact ⟨_, rfl⟩ | split | dsimp only
theorem execDacFaultSwapEnd_next (o : Fin 96) (s : State) : ∃ t, execDacFaultSwapEnd o s = .next t := by
  unfold execDacFaultSwapEnd; repeat' first | exact ⟨_, rfl⟩ | split | dsimp only
theorem execSparePrepared_next (k : Fin 8) (s : State) : ∃ t, execSparePrepared k s = .next t := by
  unfold execSparePrepared; repeat' first | exact ⟨_, rfl⟩ | split
theorem execDacPlannedSwap_next (o : Fin 96) (s : State) : ∃ t, execDacPlannedSwap o s = .next t := by
  unfold execDacPlannedSwap; repeat' first | exact ⟨_, rfl⟩ | split | dsimp only
theorem execDacPlannedSwapEnd_next (o : Fin 96) (s : State) : ∃ t, execDacPlannedSwapEnd o s = .next t := by
  unfold execDacPlannedSwapEnd; repeat' first | exact ⟨_, rfl⟩ | split | dsimp only
theorem execPlannedSwapAbandon_next (k : Fin 8) (s : State) : ∃ t, execPlannedSwapAbandon k s = .next t := by
  unfold execPlannedSwapAbandon; repeat' first | exact ⟨_, rfl⟩ | split
theorem execAdcCoreFault_next (l : Fin 32) (s : State) : ∃ t, execAdcCoreFault l s = .next t := by
  unfold execAdcCoreFault; repeat' first | exact ⟨_, rfl⟩ | split | dsimp only
theorem execAdcFaultSwapEnd_next (l : Fin 32) (s : State) : ∃ t, execAdcFaultSwapEnd l s = .next t := by
  unfold execAdcFaultSwapEnd; repeat' first | exact ⟨_, rfl⟩ | split | dsimp only
theorem execAdcPlannedSwap_next (l : Fin 32) (s : State) : ∃ t, execAdcPlannedSwap l s = .next t := by
  unfold execAdcPlannedSwap; repeat' first | exact ⟨_, rfl⟩ | split | dsimp only
theorem execAdcPlannedSwapEnd_next (l : Fin 32) (s : State) : ∃ t, execAdcPlannedSwapEnd l s = .next t := by
  unfold execAdcPlannedSwapEnd; repeat' first | exact ⟨_, rfl⟩ | split | dsimp only
theorem execWindowClose_next (k : Fin 512) (codes : List (BitVec 12)) (samples : BitVec 32) (s : State) : ∃ t, execWindowClose k codes samples s = .next t := by
  unfold execWindowClose; repeat' first | exact ⟨_, rfl⟩ | split
theorem execWindowClosedNoResult_next (k : Fin 512) (codes : List (BitVec 12)) (samples : BitVec 32) (s : State) : ∃ t, execWindowClosedNoResult k codes samples s = .next t := by
  unfold execWindowClosedNoResult; repeat' first | exact ⟨_, rfl⟩ | split | dsimp only
theorem execDiscriminatorWordArrival_next (l : Fin 32) (s : State) : ∃ t, execDiscriminatorWordArrival l s = .next t := by
  unfold execDiscriminatorWordArrival; repeat' first | exact ⟨_, rfl⟩ | split | dsimp only
theorem execAbsentVerdictFormation_next (k : Fin 512) (d : Fin 5) (s : State) : ∃ t, execAbsentVerdictFormation k d s = .next t := by
  unfold execAbsentVerdictFormation; repeat' first | exact ⟨_, rfl⟩ | split
theorem execValueArrival_next (l : Fin 32) (s : State) : ∃ t, execValueArrival l s = .next t := by
  unfold execValueArrival; repeat' first | exact ⟨_, rfl⟩ | split | dsimp only
theorem execVerdictLatch_next (s : State) : ∃ t, execVerdictLatch s = .next t := by
  unfold execVerdictLatch; repeat' first | exact ⟨_, rfl⟩ | split
theorem execEstimatorRequest_next (e : Fin 32) (s : State) : ∃ t, execEstimatorRequest e s = .next t := by
  unfold execEstimatorRequest; repeat' first | exact ⟨_, rfl⟩ | split | dsimp only
theorem execEstimatorDispatch_next (e : Fin 32) (s : State) : ∃ t, execEstimatorDispatch e s = .next t := by
  unfold execEstimatorDispatch; repeat' first | exact ⟨_, rfl⟩ | split | dsimp only
theorem execEstNop_next (e : Fin 32) (s : State) : ∃ t, execEstNop e s = .next t := by
  unfold execEstNop; repeat' first | exact ⟨_, rfl⟩ | split
theorem execVfma_next (e : Fin 32) (s : State) : ∃ t, execVfma e s = .next t := by
  unfold execVfma; repeat' first | exact ⟨_, rfl⟩ | split
theorem execVfms_next (e : Fin 32) (s : State) : ∃ t, execVfms e s = .next t := by
  unfold execVfms; repeat' first | exact ⟨_, rfl⟩ | split
theorem execVmul_next (e : Fin 32) (s : State) : ∃ t, execVmul e s = .next t := by
  unfold execVmul; repeat' first | exact ⟨_, rfl⟩ | split
theorem execVadd_next (e : Fin 32) (s : State) : ∃ t, execVadd e s = .next t := by
  unfold execVadd; repeat' first | exact ⟨_, rfl⟩ | split
theorem execVsub_next (e : Fin 32) (s : State) : ∃ t, execVsub e s = .next t := by
  unfold execVsub; repeat' first | exact ⟨_, rfl⟩ | split
theorem execVmin_next (e : Fin 32) (s : State) : ∃ t, execVmin e s = .next t := by
  unfold execVmin; repeat' first | exact ⟨_, rfl⟩ | split
theorem execVmax_next (e : Fin 32) (s : State) : ∃ t, execVmax e s = .next t := by
  unfold execVmax; repeat' first | exact ⟨_, rfl⟩ | split
theorem execVminx_next (e : Fin 32) (s : State) : ∃ t, execVminx e s = .next t := by
  unfold execVminx; repeat' first | exact ⟨_, rfl⟩ | split
theorem execVmaxx_next (e : Fin 32) (s : State) : ∃ t, execVmaxx e s = .next t := by
  unfold execVmaxx; repeat' first | exact ⟨_, rfl⟩ | split
theorem execVsum_next (e : Fin 32) (s : State) : ∃ t, execVsum e s = .next t := by
  unfold execVsum; repeat' first | exact ⟨_, rfl⟩ | split
theorem execVbc_next (e : Fin 32) (s : State) : ∃ t, execVbc e s = .next t := by
  unfold execVbc; repeat' first | exact ⟨_, rfl⟩ | split
theorem execMovx_next (e : Fin 32) (s : State) : ∃ t, execMovx e s = .next t := by
  unfold execMovx; repeat' first | exact ⟨_, rfl⟩ | split
theorem execVmov_next (e : Fin 32) (s : State) : ∃ t, execVmov e s = .next t := by
  unfold execVmov; repeat' first | exact ⟨_, rfl⟩ | split
theorem execXop_next (e : Fin 32) (s : State) : ∃ t, execXop e s = .next t := by
  unfold execXop; repeat' first | exact ⟨_, rfl⟩ | split
theorem execXopi_next (e : Fin 32) (s : State) : ∃ t, execXopi e s = .next t := by
  unfold execXopi; repeat' first | exact ⟨_, rfl⟩ | split
theorem execLiq_next (e : Fin 32) (s : State) : ∃ t, execLiq e s = .next t := by
  unfold execLiq; repeat' first | exact ⟨_, rfl⟩ | split
theorem execAadd_next (e : Fin 32) (s : State) : ∃ t, execAadd e s = .next t := by
  unfold execAadd; repeat' first | exact ⟨_, rfl⟩ | split
theorem execAmov_next (e : Fin 32) (s : State) : ∃ t, execAmov e s = .next t := by
  unfold execAmov; repeat' first | exact ⟨_, rfl⟩ | split
theorem execVld_next (e : Fin 32) (s : State) : ∃ t, execVld e s = .next t := by
  unfold execVld; repeat' first | exact ⟨_, rfl⟩ | split
theorem execVst_next (e : Fin 32) (s : State) : ∃ t, execVst e s = .next t := by
  unfold execVst; repeat' first | exact ⟨_, rfl⟩ | split
theorem execXld_next (e : Fin 32) (s : State) : ∃ t, execXld e s = .next t := by
  unfold execXld; repeat' first | exact ⟨_, rfl⟩ | split
theorem execXst_next (e : Fin 32) (s : State) : ∃ t, execXst e s = .next t := by
  unfold execXst; repeat' first | exact ⟨_, rfl⟩ | split
theorem execVldb_next (e : Fin 32) (s : State) : ∃ t, execVldb e s = .next t := by
  unfold execVldb; repeat' first | exact ⟨_, rfl⟩ | split
theorem execEstBr_next (e : Fin 32) (s : State) : ∃ t, execEstBr e s = .next t := by
  unfold execEstBr; repeat' first | exact ⟨_, rfl⟩ | split
theorem execBrx_next (e : Fin 32) (s : State) : ∃ t, execBrx e s = .next t := by
  unfold execBrx; repeat' first | exact ⟨_, rfl⟩ | split
theorem execRepeatN_next (e : Fin 32) (s : State) : ∃ t, execRepeatN e s = .next t := by
  unfold execRepeatN; repeat' first | exact ⟨_, rfl⟩ | split
theorem execRepeatx_next (e : Fin 32) (s : State) : ∃ t, execRepeatx e s = .next t := by
  unfold execRepeatx; repeat' first | exact ⟨_, rfl⟩ | split
theorem execPost_next (e : Fin 32) (s : State) : ∃ t, execPost e s = .next t := by
  unfold execPost; repeat' first | exact ⟨_, rfl⟩ | split
theorem execEstDone_next (e : Fin 32) (s : State) : ∃ t, execEstDone e s = .next t := by
  unfold execEstDone; repeat' first | exact ⟨_, rfl⟩ | split
theorem execIdle_next (e : Fin 32) (s : State) : ∃ t, execIdle e s = .next t := by
  unfold execIdle; repeat' first | exact ⟨_, rfl⟩ | split
theorem execHalt_next (e : Fin 32) (s : State) : ∃ t, execHalt e s = .next t := by
  unfold execHalt; repeat' first | exact ⟨_, rfl⟩ | split
theorem execEstimatorStop_next (e : Fin 32) (s : State) : ∃ t, execEstimatorStop e s = .next t := by
  unfold execEstimatorStop; repeat' first | exact ⟨_, rfl⟩ | split | dsimp only
theorem execEstimatorProgramMemoryError_next (e : Fin 32) (err : EstError) (s : State) : ∃ t, execEstimatorProgramMemoryError e err s = .next t := by
  unfold execEstimatorProgramMemoryError; repeat' first | exact ⟨_, rfl⟩ | split | dsimp only
theorem execEstimatorAutorestart_next (e : Fin 32) (s : State) : ∃ t, execEstimatorAutorestart e s = .next t := by
  unfold execEstimatorAutorestart; repeat' first | exact ⟨_, rfl⟩ | split | dsimp only
theorem execPageSwap_next (e : Fin 32) (s : State) : ∃ t, execPageSwap e s = .next t := by
  unfold execPageSwap; repeat' first | exact ⟨_, rfl⟩ | split | dsimp only
theorem execPageCopyEnd_next (e : Fin 32) (s : State) : ∃ t, execPageCopyEnd e s = .next t := by
  unfold execPageCopyEnd; repeat' first | exact ⟨_, rfl⟩ | split
theorem execDebugEstimatorHalt_next (e : Fin 32) (s : State) : ∃ t, execDebugEstimatorHalt e s = .next t := by
  unfold execDebugEstimatorHalt; repeat' first | exact ⟨_, rfl⟩ | split | dsimp only
theorem execDebugEstimatorStep_next (e : Fin 32) (s : State) : ∃ t, execDebugEstimatorStep e s = .next t := by
  unfold execDebugEstimatorStep; repeat' first | exact ⟨_, rfl⟩ | split | dsimp only
theorem execLaneVerdictLaunch_next (n : Fin 16) (s : State) : ∃ t, execLaneVerdictLaunch n s = .next t := by
  unfold execLaneVerdictLaunch; repeat' first | exact ⟨_, rfl⟩ | split | dsimp only
theorem execLaneVerdictReceive_next (n : Fin 16) (packet : Word) (launch : BitVec 64) (s : State) : ∃ t, execLaneVerdictReceive n packet launch s = .next t := by
  unfold execLaneVerdictReceive; repeat' first | exact ⟨_, rfl⟩ | split | dsimp only
theorem execCheckBlockReceive_next (n : Fin 16) (payloads : Words) (content : Option (BitVec 56)) (s : State) : ∃ t, execCheckBlockReceive n payloads content s = .next t := by
  unfold execCheckBlockReceive; repeat' first | exact ⟨_, rfl⟩ | split | dsimp only
theorem execServiceIdentity_next (n : Fin 16) (cid : BitVec 32) (member : Fin 16) (peerLane : Fin 16) (s : State) : ∃ t, execServiceIdentity n cid member peerLane s = .next t := by
  unfold execServiceIdentity; repeat' first | exact ⟨_, rfl⟩ | split | dsimp only
theorem execServiceMarker_next (n : Fin 16) (stamp : BitVec 36) (number : BitVec 16) (s : State) : ∃ t, execServiceMarker n stamp number s = .next t := by
  unfold execServiceMarker; repeat' first | exact ⟨_, rfl⟩ | split
theorem execServiceEcho_next (n : Fin 16) (stamp : BitVec 36) (turnaround : BitVec 16) (s : State) : ∃ t, execServiceEcho n stamp turnaround s = .next t := by
  unfold execServiceEcho; repeat' first | exact ⟨_, rfl⟩ | split
theorem execServiceSkew_next (n : Fin 16) (stamp : BitVec 42) (peerPhase : Fin 1000) (t2 : BitVec 63) (phase : Fin 1000) (s : State) : ∃ t, execServiceSkew n stamp peerPhase t2 phase s = .next t := by
  unfold execServiceSkew; repeat' first | exact ⟨_, rfl⟩ | split | dsimp only
theorem execTestreq_next (n : Fin 16) (ms : BitVec 20) (s : State) : ∃ t, execTestreq n ms s = .next t := by
  unfold execTestreq; repeat' first | exact ⟨_, rfl⟩ | split | dsimp only
theorem execTestack_next (n : Fin 16) (s : State) : ∃ t, execTestack n s = .next t := by
  unfold execTestack; repeat' first | exact ⟨_, rfl⟩ | split
theorem execTestrefuse_next (n : Fin 16) (s : State) : ∃ t, execTestrefuse n s = .next t := by
  unfold execTestrefuse; repeat' first | exact ⟨_, rfl⟩ | split
theorem execLaneFailure_next (n : Fin 16) (cause : LaneCause) (s : State) : ∃ t, execLaneFailure n cause s = .next t := by
  unfold execLaneFailure; repeat' first | exact ⟨_, rfl⟩ | split | dsimp only
theorem execLaneDetectDone_next (n : Fin 16) (s : State) : ∃ t, execLaneDetectDone n s = .next t := by
  unfold execLaneDetectDone; repeat' first | exact ⟨_, rfl⟩ | split
theorem execLaneEqualizeDone_next (n : Fin 16) (peaking : Fin 16) (margin : BitVec 16) (s : State) : ∃ t, execLaneEqualizeDone n peaking margin s = .next t := by
  unfold execLaneEqualizeDone; repeat' first | exact ⟨_, rfl⟩ | split | dsimp only
theorem execLaneBlockLock_next (n : Fin 16) (s : State) : ∃ t, execLaneBlockLock n s = .next t := by
  unfold execLaneBlockLock; repeat' first | exact ⟨_, rfl⟩ | split
theorem execLaneIdentifyDone_next (n : Fin 16) (s : State) : ∃ t, execLaneIdentifyDone n s = .next t := by
  unfold execLaneIdentifyDone; repeat' first | exact ⟨_, rfl⟩ | split | dsimp only
theorem execLaneLockDone_next (n : Fin 16) (s : State) : ∃ t, execLaneLockDone n s = .next t := by
  unfold execLaneLockDone; repeat' first | exact ⟨_, rfl⟩ | split | dsimp only
theorem execLaneAttemptTimeout_next (n : Fin 16) (s : State) : ∃ t, execLaneAttemptTimeout n s = .next t := by
  unfold execLaneAttemptTimeout; repeat' first | exact ⟨_, rfl⟩ | split | dsimp only
theorem execLaneAutoRetrain_next (n : Fin 16) (s : State) : ∃ t, execLaneAutoRetrain n s = .next t := by
  unfold execLaneAutoRetrain; repeat' first | exact ⟨_, rfl⟩ | split | dsimp only
theorem execLaneMarginMeasure_next (n : Fin 16) (margin : BitVec 16) (s : State) : ∃ t, execLaneMarginMeasure n margin s = .next t := by
  unfold execLaneMarginMeasure; repeat' first | exact ⟨_, rfl⟩ | split | dsimp only
theorem execLaneRelock_next (n : Fin 16) (s : State) : ∃ t, execLaneRelock n s = .next t := by
  unfold execLaneRelock; repeat' first | exact ⟨_, rfl⟩ | split | dsimp only
theorem execLaneWakeEnd_next (n : Fin 16) (s : State) : ∃ t, execLaneWakeEnd n s = .next t := by
  unfold execLaneWakeEnd; repeat' first | exact ⟨_, rfl⟩ | split | dsimp only
theorem execLaneTestEnd_next (n : Fin 16) (bits : Word) (errors : BitVec 32) (s : State) : ∃ t, execLaneTestEnd n bits errors s = .next t := by
  unfold execLaneTestEnd; repeat' first | exact ⟨_, rfl⟩ | split | dsimp only
theorem execVerificationEnd_next (v : Fin 16) (s : State) : ∃ t, execVerificationEnd v s = .next t := by
  unfold execVerificationEnd; repeat' first | exact ⟨_, rfl⟩ | split | dsimp only
theorem execMemberLanding_next (q : Fin 256) (s : State) : ∃ t, execMemberLanding q s = .next t := by
  unfold execMemberLanding; repeat' first | exact ⟨_, rfl⟩ | split
theorem execCopyingEnd_next (v : Fin 16) (s : State) : ∃ t, execCopyingEnd v s = .next t := by
  unfold execCopyingEnd; repeat' first | exact ⟨_, rfl⟩ | split | dsimp only
theorem execConcordanceScrub_next (bank1 : Bool) (at_ : Fin 2097152) (err : Fin 3) (s : State) : ∃ t, execConcordanceScrub bank1 at_ err s = .next t := by
  unfold execConcordanceScrub; repeat' first | exact ⟨_, rfl⟩ | split | dsimp only
theorem execInputStuck_next (input : Fin 19) (s : State) : ∃ t, execInputStuck input s = .next t := by
  unfold execInputStuck; repeat' first | exact ⟨_, rfl⟩ | split | dsimp only
theorem execPatternUnitFire_next (u : Fin 32) (s : State) : ∃ t, execPatternUnitFire u s = .next t := by
  unfold execPatternUnitFire; repeat' first | exact ⟨_, rfl⟩ | split | dsimp only
theorem execCaptureHoldoffEnd_next (k : Fin 512) (s : State) : ∃ t, execCaptureHoldoffEnd k s = .next t := by
  unfold execCaptureHoldoffEnd; repeat' first | exact ⟨_, rfl⟩ | split
theorem execRawRecordEnd_next (k : Fin 512) (data : Words) (s : State) : ∃ t, execRawRecordEnd k data s = .next t := by
  unfold execRawRecordEnd; repeat' first | exact ⟨_, rfl⟩ | split | dsimp only
theorem execRecordDrain_next (k : Fin 512) (bad : Option (BitVec 16)) (s : State) : ∃ t, execRecordDrain k bad s = .next t := by
  unfold execRecordDrain; repeat' first | exact ⟨_, rfl⟩ | split | dsimp only
theorem execBiasSlewStep_next (b : Fin 256) (s : State) : ∃ t, execBiasSlewStep b s = .next t := by
  unfold execBiasSlewStep; repeat' first | exact ⟨_, rfl⟩ | split | dsimp only
theorem execDeglitchHoldEnd_next (b : Fin 256) (s : State) : ∃ t, execDeglitchHoldEnd b s = .next t := by
  unfold execDeglitchHoldEnd; repeat' first | exact ⟨_, rfl⟩ | split
theorem execBiasQueueStart_next (b : Fin 256) (s : State) : ∃ t, execBiasQueueStart b s = .next t := by
  unfold execBiasQueueStart; repeat' first | exact ⟨_, rfl⟩ | split
theorem execBiasQueueUpdate_next (b : Fin 256) (s : State) : ∃ t, execBiasQueueUpdate b s = .next t := by
  unfold execBiasQueueUpdate; repeat' first | exact ⟨_, rfl⟩ | split | dsimp only
theorem execBiasReachZero_next (b : Fin 256) (s : State) : ∃ t, execBiasReachZero b s = .next t := by
  unfold execBiasReachZero; repeat' first | exact ⟨_, rfl⟩ | split | dsimp only
theorem execBiasSwitchOpen_next (b : Fin 256) (s : State) : ∃ t, execBiasSwitchOpen b s = .next t := by
  unfold execBiasSwitchOpen; repeat' first | exact ⟨_, rfl⟩ | split
theorem execSupervisionEvent_next (b : Fin 256) (current : BitVec 32) (s : State) : ∃ t, execSupervisionEvent b current s = .next t := by
  unfold execSupervisionEvent; repeat' first | exact ⟨_, rfl⟩ | split | dsimp only
theorem execMonitorTrip_next (m : Fin 288) (x : BitVec 32) (s : State) : ∃ t, execMonitorTrip m x s = .next t := by
  unfold execMonitorTrip; repeat' first | exact ⟨_, rfl⟩ | split | dsimp only
theorem execMonitorRelease_next (m : Fin 288) (above : BitVec 32) (s : State) : ∃ t, execMonitorRelease m above s = .next t := by
  unfold execMonitorRelease; repeat' first | exact ⟨_, rfl⟩ | split | dsimp only
theorem execTrimStep_next (die : Fin 4) (cls : Fin 4) (index : Fin 24) (s : State) : ∃ t, execTrimStep die cls index s = .next t := by
  unfold execTrimStep; repeat' first | exact ⟨_, rfl⟩ | split
theorem execBiasTrimStep_next (b : Fin 256) (s : State) : ∃ t, execBiasTrimStep b s = .next t := by
  unfold execBiasTrimStep; repeat' first | exact ⟨_, rfl⟩ | split | dsimp only
theorem execCalElementEnd_next (die : Fin 4) (result : Word) (s : State) : ∃ t, execCalElementEnd die result s = .next t := by
  unfold execCalElementEnd; repeat' first | exact ⟨_, rfl⟩ | split | dsimp only
theorem execCalRunEnd_next (die : Fin 4) (s : State) : ∃ t, execCalRunEnd die s = .next t := by
  unfold execCalRunEnd; repeat' first | exact ⟨_, rfl⟩ | split | dsimp only
theorem execSensorPoll_next (sensor : Fin 72) (reading : Int) (s : State) : ∃ t, execSensorPoll sensor reading s = .next t := by
  unfold execSensorPoll; repeat' first | exact ⟨_, rfl⟩ | split | dsimp only
theorem execThermalLevelEntry_next (s : State) : ∃ t, execThermalLevelEntry s = .next t := by
  unfold execThermalLevelEntry; repeat' first | exact ⟨_, rfl⟩ | split
theorem execThermalLevelRelease_next (s : State) : ∃ t, execThermalLevelRelease s = .next t := by
  unfold execThermalLevelRelease; repeat' first | exact ⟨_, rfl⟩ | split
theorem execThrottleStep_next (s : State) : ∃ t, execThrottleStep s = .next t := by
  unfold execThrottleStep; repeat' first | exact ⟨_, rfl⟩ | split | dsimp only
theorem execThermalShutdown_next (s : State) : ∃ t, execThermalShutdown s = .next t := by
  unfold execThermalShutdown; repeat' first | exact ⟨_, rfl⟩ | split | dsimp only
theorem execShutdownDieStandby_next (die : Fin 4) (s : State) : ∃ t, execShutdownDieStandby die s = .next t := by
  unfold execShutdownDieStandby; repeat' first | exact ⟨_, rfl⟩ | split | dsimp only
theorem execDramTemperatureRead_next (status : Vector (BitVec 8) 8) (s : State) : ∃ t, execDramTemperatureRead status s = .next t := by
  unfold execDramTemperatureRead; repeat' first | exact ⟨_, rfl⟩ | split
theorem execDramZqUpdate_next (s : State) : ∃ t, execDramZqUpdate s = .next t := by
  unfold execDramZqUpdate; repeat' first | exact ⟨_, rfl⟩ | split
theorem execDramPatrolScrub_next (channel : Fin 8) (codeword : BitVec 26) (uncorrectable : Bool) (s : State) : ∃ t, execDramPatrolScrub channel codeword uncorrectable s = .next t := by
  unfold execDramPatrolScrub; repeat' first | exact ⟨_, rfl⟩ | split | dsimp only
theorem execMeminitComplete_next (s : State) : ∃ t, execMeminitComplete s = .next t := by
  unfold execMeminitComplete; repeat' first | exact ⟨_, rfl⟩ | split
theorem execHoldTimeout_next (part : Fin 8) (s : State) : ∃ t, execHoldTimeout part s = .next t := by
  unfold execHoldTimeout; repeat' first | exact ⟨_, rfl⟩ | split
theorem execDiePatchApply_next (die : Fin 4) (s : State) : ∃ t, execDiePatchApply die s = .next t := by
  unfold execDiePatchApply; repeat' first | exact ⟨_, rfl⟩ | split
theorem execDiePatchEnd_next (die : Fin 4) (s : State) : ∃ t, execDiePatchEnd die s = .next t := by
  unfold execDiePatchEnd; repeat' first | exact ⟨_, rfl⟩ | split | dsimp only
theorem execPowerStepEnd_next (s : State) : ∃ t, execPowerStepEnd s = .next t := by
  unfold execPowerStepEnd; repeat' first | exact ⟨_, rfl⟩ | split
theorem execDebugChallengeExpiry_next (s : State) : ∃ t, execDebugChallengeExpiry s = .next t := by
  unfold execDebugChallengeExpiry; repeat' first | exact ⟨_, rfl⟩ | split
theorem execDebugLockoutEnd_next (s : State) : ∃ t, execDebugLockoutEnd s = .next t := by
  unfold execDebugLockoutEnd; repeat' first | exact ⟨_, rfl⟩ | split
theorem execDapQueueWrite_next (addr : BitVec 48) (data : Word) (s : State) : ∃ t, execDapQueueWrite addr data s = .next t := by
  unfold execDapQueueWrite; repeat' first | exact ⟨_, rfl⟩ | split | dsimp only
theorem execDapQueueRead_next (addr : BitVec 48) (s : State) : ∃ t, execDapQueueRead addr s = .next t := by
  unfold execDapQueueRead; repeat' first | exact ⟨_, rfl⟩ | split | dsimp only
theorem execDapDoorbell_next (data : Word) (s : State) : ∃ t, execDapDoorbell data s = .next t := by
  unfold execDapDoorbell; repeat' first | exact ⟨_, rfl⟩ | split
theorem execDapRawRead_next (addr : BitVec 48) (s : State) : ∃ t, execDapRawRead addr s = .next t := by
  unfold execDapRawRead; repeat' first | exact ⟨_, rfl⟩ | split
theorem execDapRawWrite_next (addr : BitVec 48) (data : Word) (s : State) : ∃ t, execDapRawWrite addr data s = .next t := by
  unfold execDapRawWrite; repeat' first | exact ⟨_, rfl⟩ | split
theorem execDapBadOperation_next (s : State) : ∃ t, execDapBadOperation s = .next t := by
  unfold execDapBadOperation; repeat' first | exact ⟨_, rfl⟩ | split
theorem execDapOperationEnd_next (s : State) : ∃ t, execDapOperationEnd s = .next t := by
  unfold execDapOperationEnd; repeat' first | exact ⟨_, rfl⟩ | split | dsimp only
theorem execDapCaptureDr_next (s : State) : ∃ t, execDapCaptureDr s = .next t := by
  unfold execDapCaptureDr; repeat' first | exact ⟨_, rfl⟩ | split
theorem execSmbusWake_next (data : BitVec 8) (s : State) : ∃ t, execSmbusWake data s = .next t := by
  unfold execSmbusWake; repeat' first | exact ⟨_, rfl⟩ | split
theorem execPowerOnReset_next (s : State) : ∃ t, execPowerOnReset s = .next t := by
  unfold execPowerOnReset; repeat' first | exact ⟨_, rfl⟩ | split
theorem execHardReset_next (s : State) : ∃ t, execHardReset s = .next t := by
  unfold execHardReset; repeat' first | exact ⟨_, rfl⟩ | split
theorem execHardResetRampEnd_next (s : State) : ∃ t, execHardResetRampEnd s = .next t := by
  unfold execHardResetRampEnd; repeat' first | exact ⟨_, rfl⟩ | split
theorem execPerst_next (s : State) : ∃ t, execPerst s = .next t := by
  unfold execPerst; repeat' first | exact ⟨_, rfl⟩ | split
theorem execPfFlr_next (s : State) : ∃ t, execPfFlr s = .next t := by
  unfold execPfFlr; repeat' first | exact ⟨_, rfl⟩ | split
theorem execVfFlr_next (f : Fin 8) (s : State) : ∃ t, execVfFlr f s = .next t := by
  unfold execVfFlr; repeat' first | exact ⟨_, rfl⟩ | split
theorem execPcieD3hotEntry_next (f : Fin 9) (s : State) : ∃ t, execPcieD3hotEntry f s = .next t := by
  unfold execPcieD3hotEntry; repeat' first | exact ⟨_, rfl⟩ | split
theorem execPcieLinkUp_next (s : State) : ∃ t, execPcieLinkUp s = .next t := by
  unfold execPcieLinkUp; repeat' first | exact ⟨_, rfl⟩ | split
theorem execStartupPhaseEnd_next (r : StartReport) (s : State) : ∃ t, execStartupPhaseEnd r s = .next t := by
  unfold execStartupPhaseEnd; repeat' first | exact ⟨_, rfl⟩ | split
theorem execConfigurationMeasurement_next (s : State) : ∃ t, execConfigurationMeasurement s = .next t := by
  unfold execConfigurationMeasurement; repeat' first | exact ⟨_, rfl⟩ | split
theorem execOutputRampUpEnd_next (o : Fin 96) (s : State) : ∃ t, execOutputRampUpEnd o s = .next t := by
  unfold execOutputRampUpEnd; repeat' first | exact ⟨_, rfl⟩ | split
theorem execStageLimitChange_next (b : Fin 256) (limited : Bool) (s : State) : ∃ t, execStageLimitChange b limited s = .next t := by
  unfold execStageLimitChange; repeat' first | exact ⟨_, rfl⟩ | split | dsimp only
theorem execPatternLockLoss_next (n : Fin 16) (lost : Bool) (s : State) : ∃ t, execPatternLockLoss n lost s = .next t := by
  unfold execPatternLockLoss; repeat' first | exact ⟨_, rfl⟩ | split
theorem execInternalCalibrationEnd_next (s : State) : ∃ t, execInternalCalibrationEnd s = .next t := by
  unfold execInternalCalibrationEnd; repeat' first | exact ⟨_, rfl⟩ | split
theorem execUncoveredDieFault_next (die : Fin 4) (s : State) : ∃ t, execUncoveredDieFault die s = .next t := by
  unfold execUncoveredDieFault; repeat' first | exact ⟨_, rfl⟩ | split
theorem execVfEnable_next (s : State) : ∃ t, execVfEnable s = .next t := by
  unfold execVfEnable; repeat' first | exact ⟨_, rfl⟩ | split

/-- Every command answers a next state in every state. -/
theorem exec_next (i : Instr) (s : State) : ∃ t, exec i s = .next t := by
  cases i
  case shelfCopyEnd bad => exact execShelfCopyEnd_next bad s
  case lineSettleEnd l => exact execLineSettleEnd_next l s
  case concFillEnd => exact execConcFillEnd_next s
  case housekeepingRequestEnd die value => exact execHousekeepingRequestEnd_next die value s
  case doorbellSqTail q sqTail narrow => exact execDoorbellSqTail_next q sqTail narrow s
  case doorbellCqHead q cqHead narrow => exact execDoorbellCqHead_next q cqHead narrow s
  case queueEnable q => exact execQueueEnable_next q s
  case queueDisable q => exact execQueueDisable_next q s
  case queueDrainEnd q => exact execQueueDrainEnd_next q s
  case bar0RegisterWrite r v => exact execBar0RegisterWrite_next r v s
  case packetFetch src ring pcieError => exact execPacketFetch_next src ring pcieError s
  case heldCommandExecute => exact execHeldCommandExecute_next s
  case commitSequence pcieError => exact execCommitSequence_next pcieError s
  case standbyAckTimeout => exact execStandbyAckTimeout_next s
  case machineCheck cause addr tail => exact execMachineCheck_next cause addr tail s
  case repairRequest => exact execRepairRequest_next s
  case longCommandStep accept => exact execLongCommandStep_next accept s
  case longCommandEnd accept => exact execLongCommandEnd_next accept s
  case interruptCoalesceTimeout q => exact execInterruptCoalesceTimeout_next q s
  case heartbeatToggle u watchdog stall => exact execHeartbeatToggle_next u watchdog stall s
  case heartbeatMissing u => exact execHeartbeatMissing_next u s
  case switchover => exact execSwitchover_next s
  case journalParityError => exact execJournalParityError_next s
  case standbyProof passed => exact execStandbyProof_next passed s
  case unitRestart u => exact execUnitRestart_next u s
  case unitSelftestEnd u passed => exact execUnitSelftestEnd_next u passed s
  case resyncEnd u => exact execResyncEnd_next u s
  case keeperVoterFault v => exact execKeeperVoterFault_next v s
  case serviceLaneFailure u die => exact execServiceLaneFailure_next u die s
  case serviceLaneRetrain die up => exact execServiceLaneRetrain_next die up s
  case serviceLaneUp u die => exact execServiceLaneUp_next u die s
  case serviceLaneHoldTimeout die => exact execServiceLaneHoldTimeout_next die s
  case referenceLoss => exact execReferenceLoss_next s
  case referenceReturn => exact execReferenceReturn_next s
  case referenceStable => exact execReferenceStable_next s
  case relockComplete => exact execRelockComplete_next s
  case pllLock => exact execPllLock_next s
  case referenceTimeout => exact execReferenceTimeout_next s
  case pllFault => exact execPllFault_next s
  case syncEdge src ps => exact execSyncEdge_next src ps s
  case epochSet => exact execEpochSet_next s
  case almanacMark => exact execAlmanacMark_next s
  case servoPhaseTermEnd => exact execServoPhaseTermEnd_next s
  case almanacEventFire => exact execAlmanacEventFire_next s
  case skewCalComplete => exact execSkewCalComplete_next s
  case skewCalTimeout => exact execSkewCalTimeout_next s
  case shotStart q => exact execShotStart_next q s
  case shotBoundary q => exact execShotBoundary_next q s
  case shotLengthLimit q => exact execShotLengthLimit_next q s
  case nop q => exact execNop_next q s
  case play q => exact execPlay_next q s
  case setf q => exact execSetf_next q s
  case setp q => exact execSetp_next q s
  case frame q => exact execFrame_next q s
  case measure q => exact execMeasure_next q s
  case mark q => exact execMark_next q s
  case wait q => exact execWait_next q s
  case waitResolve q => exact execWaitResolve_next q s
  case waitTimeout q => exact execWaitTimeout_next q s
  case brv q => exact execBrv_next q s
  case brvResolve q => exact execBrvResolve_next q s
  case brvDeadline q => exact execBrvDeadline_next q s
  case lookup q => exact execLookup_next q s
  case lookupResolve q => exact execLookupResolve_next q s
  case lookupResult q err => exact execLookupResult_next q err s
  case br q => exact execBr_next q s
  case loop q => exact execLoop_next q s
  case call q => exact execCall_next q s
  case ret q => exact execRet_next q s
  case seqEnd q => exact execSeqEnd_next q s
  case alu q => exact execAlu_next q s
  case alui q => exact execAlui_next q s
  case li q => exact execLi_next q s
  case movs q => exact execMovs_next q s
  case cueExecute q => exact execCueExecute_next q s
  case markPulseEnd m => exact execMarkPulseEnd_next m s
  case seqAbortCut q => exact execSeqAbortCut_next q s
  case lockstepMiscompare q => exact execLockstepMiscompare_next q s
  case sparePairRestoreEnd q => exact execSparePairRestoreEnd_next q s
  case programMemoryError q addr corrected => exact execProgramMemoryError_next q addr corrected s
  case bridgeParityError lane => exact execBridgeParityError_next lane s
  case bridgeLaneRetire die toHub => exact execBridgeLaneRetire_next die toHub s
  case debugSequencerHalt q => exact execDebugSequencerHalt_next q s
  case debugSequencerStep q => exact execDebugSequencerStep_next q s
  case refillRequest q b => exact execRefillRequest_next q b s
  case refillLand q b n err => exact execRefillLand_next q b n err s
  case shelfEccError q granule word corrected => exact execShelfEccError_next q granule word corrected s
  case outputRampEnd o => exact execOutputRampEnd_next o s
  case dacCoreSettled o => exact execDacCoreSettled_next o s
  case dacCoreFault o => exact execDacCoreFault_next o s
  case dacFaultSwapEnd o => exact execDacFaultSwapEnd_next o s
  case sparePrepared k => exact execSparePrepared_next k s
  case dacPlannedSwap o => exact execDacPlannedSwap_next o s
  case dacPlannedSwapEnd o => exact execDacPlannedSwapEnd_next o s
  case plannedSwapAbandon k => exact execPlannedSwapAbandon_next k s
  case adcCoreFault l => exact execAdcCoreFault_next l s
  case adcFaultSwapEnd l => exact execAdcFaultSwapEnd_next l s
  case adcPlannedSwap l => exact execAdcPlannedSwap_next l s
  case adcPlannedSwapEnd l => exact execAdcPlannedSwapEnd_next l s
  case windowClose k codes samples => exact execWindowClose_next k codes samples s
  case windowClosedNoResult k codes samples => exact execWindowClosedNoResult_next k codes samples s
  case discriminatorWordArrival l => exact execDiscriminatorWordArrival_next l s
  case absentVerdictFormation k d => exact execAbsentVerdictFormation_next k d s
  case valueArrival l => exact execValueArrival_next l s
  case verdictLatch => exact execVerdictLatch_next s
  case estimatorRequest e => exact execEstimatorRequest_next e s
  case estimatorDispatch e => exact execEstimatorDispatch_next e s
  case estNop e => exact execEstNop_next e s
  case vfma e => exact execVfma_next e s
  case vfms e => exact execVfms_next e s
  case vmul e => exact execVmul_next e s
  case vadd e => exact execVadd_next e s
  case vsub e => exact execVsub_next e s
  case vmin e => exact execVmin_next e s
  case vmax e => exact execVmax_next e s
  case vminx e => exact execVminx_next e s
  case vmaxx e => exact execVmaxx_next e s
  case vsum e => exact execVsum_next e s
  case vbc e => exact execVbc_next e s
  case movx e => exact execMovx_next e s
  case vmov e => exact execVmov_next e s
  case xop e => exact execXop_next e s
  case xopi e => exact execXopi_next e s
  case liq e => exact execLiq_next e s
  case aadd e => exact execAadd_next e s
  case amov e => exact execAmov_next e s
  case vld e => exact execVld_next e s
  case vst e => exact execVst_next e s
  case xld e => exact execXld_next e s
  case xst e => exact execXst_next e s
  case vldb e => exact execVldb_next e s
  case estBr e => exact execEstBr_next e s
  case brx e => exact execBrx_next e s
  case repeatN e => exact execRepeatN_next e s
  case repeatx e => exact execRepeatx_next e s
  case post e => exact execPost_next e s
  case estDone e => exact execEstDone_next e s
  case idle e => exact execIdle_next e s
  case halt e => exact execHalt_next e s
  case estimatorStop e => exact execEstimatorStop_next e s
  case estimatorProgramMemoryError e err => exact execEstimatorProgramMemoryError_next e err s
  case estimatorAutorestart e => exact execEstimatorAutorestart_next e s
  case pageSwap e => exact execPageSwap_next e s
  case pageCopyEnd e => exact execPageCopyEnd_next e s
  case debugEstimatorHalt e => exact execDebugEstimatorHalt_next e s
  case debugEstimatorStep e => exact execDebugEstimatorStep_next e s
  case laneVerdictLaunch n => exact execLaneVerdictLaunch_next n s
  case laneVerdictReceive n packet launch => exact execLaneVerdictReceive_next n packet launch s
  case checkBlockReceive n payloads content => exact execCheckBlockReceive_next n payloads content s
  case serviceIdentity n cid member peerLane => exact execServiceIdentity_next n cid member peerLane s
  case serviceMarker n stamp number => exact execServiceMarker_next n stamp number s
  case serviceEcho n stamp turnaround => exact execServiceEcho_next n stamp turnaround s
  case serviceSkew n stamp peerPhase t2 phase => exact execServiceSkew_next n stamp peerPhase t2 phase s
  case testreq n ms => exact execTestreq_next n ms s
  case testack n => exact execTestack_next n s
  case testrefuse n => exact execTestrefuse_next n s
  case laneFailure n cause => exact execLaneFailure_next n cause s
  case laneDetectDone n => exact execLaneDetectDone_next n s
  case laneEqualizeDone n peaking margin => exact execLaneEqualizeDone_next n peaking margin s
  case laneBlockLock n => exact execLaneBlockLock_next n s
  case laneIdentifyDone n => exact execLaneIdentifyDone_next n s
  case laneLockDone n => exact execLaneLockDone_next n s
  case laneAttemptTimeout n => exact execLaneAttemptTimeout_next n s
  case laneAutoRetrain n => exact execLaneAutoRetrain_next n s
  case laneMarginMeasure n margin => exact execLaneMarginMeasure_next n margin s
  case laneRelock n => exact execLaneRelock_next n s
  case laneWakeEnd n => exact execLaneWakeEnd_next n s
  case laneTestEnd n bits errors => exact execLaneTestEnd_next n bits errors s
  case verificationEnd v => exact execVerificationEnd_next v s
  case memberLanding q => exact execMemberLanding_next q s
  case copyingEnd v => exact execCopyingEnd_next v s
  case concordanceScrub bank1 at_ err => exact execConcordanceScrub_next bank1 at_ err s
  case inputStuck input => exact execInputStuck_next input s
  case patternUnitFire u => exact execPatternUnitFire_next u s
  case captureHoldoffEnd k => exact execCaptureHoldoffEnd_next k s
  case rawRecordEnd k data => exact execRawRecordEnd_next k data s
  case recordDrain k bad => exact execRecordDrain_next k bad s
  case biasSlewStep b => exact execBiasSlewStep_next b s
  case deglitchHoldEnd b => exact execDeglitchHoldEnd_next b s
  case biasQueueStart b => exact execBiasQueueStart_next b s
  case biasQueueUpdate b => exact execBiasQueueUpdate_next b s
  case biasReachZero b => exact execBiasReachZero_next b s
  case biasSwitchOpen b => exact execBiasSwitchOpen_next b s
  case supervisionEvent b current => exact execSupervisionEvent_next b current s
  case monitorTrip m x => exact execMonitorTrip_next m x s
  case monitorRelease m above => exact execMonitorRelease_next m above s
  case trimStep die cls index => exact execTrimStep_next die cls index s
  case biasTrimStep b => exact execBiasTrimStep_next b s
  case calElementEnd die result => exact execCalElementEnd_next die result s
  case calRunEnd die => exact execCalRunEnd_next die s
  case sensorPoll sensor reading => exact execSensorPoll_next sensor reading s
  case thermalLevelEntry => exact execThermalLevelEntry_next s
  case thermalLevelRelease => exact execThermalLevelRelease_next s
  case throttleStep => exact execThrottleStep_next s
  case thermalShutdown => exact execThermalShutdown_next s
  case shutdownDieStandby die => exact execShutdownDieStandby_next die s
  case dramTemperatureRead status => exact execDramTemperatureRead_next status s
  case dramZqUpdate => exact execDramZqUpdate_next s
  case dramPatrolScrub channel codeword uncorrectable => exact execDramPatrolScrub_next channel codeword uncorrectable s
  case meminitComplete => exact execMeminitComplete_next s
  case holdTimeout part => exact execHoldTimeout_next part s
  case diePatchApply die => exact execDiePatchApply_next die s
  case diePatchEnd die => exact execDiePatchEnd_next die s
  case powerStepEnd => exact execPowerStepEnd_next s
  case debugChallengeExpiry => exact execDebugChallengeExpiry_next s
  case debugLockoutEnd => exact execDebugLockoutEnd_next s
  case dapQueueWrite addr data => exact execDapQueueWrite_next addr data s
  case dapQueueRead addr => exact execDapQueueRead_next addr s
  case dapDoorbell data => exact execDapDoorbell_next data s
  case dapRawRead addr => exact execDapRawRead_next addr s
  case dapRawWrite addr data => exact execDapRawWrite_next addr data s
  case dapBadOperation => exact execDapBadOperation_next s
  case dapOperationEnd => exact execDapOperationEnd_next s
  case dapCaptureDr => exact execDapCaptureDr_next s
  case smbusWake data => exact execSmbusWake_next data s
  case powerOnReset => exact execPowerOnReset_next s
  case hardReset => exact execHardReset_next s
  case hardResetRampEnd => exact execHardResetRampEnd_next s
  case perst => exact execPerst_next s
  case pfFlr => exact execPfFlr_next s
  case vfFlr f => exact execVfFlr_next f s
  case pcieD3hotEntry f => exact execPcieD3hotEntry_next f s
  case pcieLinkUp => exact execPcieLinkUp_next s
  case startupPhaseEnd r => exact execStartupPhaseEnd_next r s
  case configurationMeasurement => exact execConfigurationMeasurement_next s
  case outputRampUpEnd o => exact execOutputRampUpEnd_next o s
  case stageLimitChange b limited => exact execStageLimitChange_next b limited s
  case patternLockLoss n lost => exact execPatternLockLoss_next n lost s
  case internalCalibrationEnd => exact execInternalCalibrationEnd_next s
  case uncoveredDieFault die => exact execUncoveredDieFault_next die s
  case vfEnable => exact execVfEnable_next s
  all_goals exact ⟨_, rfl⟩

/-- A step answers a next state in every state. -/
theorem step_next (s : State) : ∃ t, step s = .next t := by
  unfold step; split
  · exact ⟨_, rfl⟩
  · exact exec_next _ _

end Sys2Proof.Machine
end

