-- ==== Sys2Proof/Machine/Package.lean ====
section
/-!
DEFINITION. Machine/Package.lean: chapter 20: the rails with their order and thresholds (R450, R452, R453), the power of a tier
(R451, R458), and the balls of the package (R460 to R462). No command reads these; the rails act through RAIL_UNDERVOLTAGE.
-/
namespace Sys2Proof.Machine

/-! ## Rails (Table 20.3) -/

/-- The supply rails. -/
inductive Rail where
  | vddHub
  | vddCd
  | vdda09
  | vdda18
  | vdd2
  | vddq
  | vio
  | vbp
  | vbn
deriving DecidableEq, Repr

/-- Nominal voltage in mV. -/
def Rail.nominal : Rail → Int
  | .vddHub => 750
  | .vddCd => 750
  | .vdda09 => 900
  | .vdda18 => 1800
  | .vdd2 => 1100
  | .vddq => 600
  | .vio => 3300
  | .vbp => 7500
  | .vbn => -7500

/-- Tolerance in units of 0.1 %. -/
def Rail.tolerance : Rail → Nat
  | .vddHub => 20
  | .vddCd => 20
  | .vdda09 => 15
  | .vdda18 => 20
  | .vdd2 => 30
  | .vddq => 30
  | .vio => 50
  | .vbp => 30
  | .vbn => 30

/-- Balls of a rail. -/
def Rail.balls : Rail → Nat
  | .vddHub => 120
  | .vddCd => 160
  | .vdda09 => 168
  | .vdda18 => 64
  | .vdd2 => 12
  | .vddq => 16
  | .vio => 8
  | .vbp => 8
  | .vbn => 8

/-- The place of a rail in the order in which the rails rise, and fall in reverse (R452). -/
def Rail.group : Rail → Nat
  | .vio => 0
  | .vddHub => 1
  | .vddCd => 1
  | .vdda09 => 1
  | .vdda18 => 2
  | .vdd2 => 2
  | .vddq => 3
  | .vbp => 4
  | .vbn => 4

/-- A voltage in mV lies within the tolerance of the rail (R450). -/
def Rail.within (r : Rail) (mv : Int) : Bool := decide (1000 * (mv - r.nominal).natAbs ≤ r.tolerance * r.nominal.natAbs)

/-- A voltage in mV lies below the power-on-reset threshold, 92 % of the magnitude of nominal, which RAIL_UNDERVOLTAGE reports
(R453). -/
def Rail.below (r : Rail) (mv : Int) : Bool := decide (100 * mv.natAbs < 92 * r.nominal.natAbs)

/-- A rail may start to rise: every rail of an earlier group has reached 90 % of nominal (R452). `mv` gives the voltages now. -/
def Rail.mayRise (r : Rail) (mv : Rail → Int) : Bool :=
  [Rail.vio, .vddHub, .vddCd, .vdda09, .vdda18, .vdd2, .vddq, .vbp, .vbn].all fun x =>
    decide (r.group ≤ x.group ∨ 90 * x.nominal.natAbs ≤ 100 * (mv x).natAbs)

/-! ## Power (R451, R458) -/

/-- TDP of a tier in W (Table 20.4). -/
def Tier.tdp : Tier → Nat
  | .k8 => 130
  | .k4 => 70
  | .k2 => 40

/-- The output-stage allowance of a tier in mW (Table 20.4). -/
def Tier.allowance : Tier → Nat
  | .k8 => 5300
  | .k4 => 2000
  | .k2 => 400

/-- The output-stage dissipation over all ON and SHUTTING channels, in units of 1 mV · 1 nA, from the force-to-sense-return voltage in
mV and the current in nA of each (R451). -/
def State.outputStage (s : State) (vi : Nat → Int × Int) : Int :=
  ((List.range 256).map fun b =>
    if (s.ch b).st = .off then (0 : Int) else (7500 - ((vi b).1.natAbs : Int)) * ((vi b).2.natAbs : Int)).foldl (· + ·) 0

/-- The hottest junction in units of 0.01 °C over a lid at `lid`, in the same units, at a power in W (R458). -/
def junction (lid : Int) (watts : Nat) : Int := lid + 8 * watts

/-! ## Balls (R460 to R462) -/

/-- What a ball carries. Outputs 64 to 95 are P0 to P31; `neg` is the _N ball of a pair. A LPDDR4X signal is its place in the list of
Table 20.10. -/
inductive Ball where
  | rfOut (o : Nat) (neg : Bool)
  | rfIn (l : Nat) (neg : Bool)
  | biasForce (b : Nat)
  | biasSense (b : Nat)
  | supply (r : Rail)
  | lane (n : Nat) (receive neg : Bool)
  | pcie (m : Nat) (receive neg : Bool)
  | refclk (neg : Bool)
  | perst
  | dram (channel signal : Nat)
  | hub (name : String)
  | reserved
  | gnd
deriving DecidableEq, Repr

/-- The die, the local row u and the position v of a ball in a converter band (Table 20.9). -/
def band (row col : Nat) : Option (Nat × Nat × Nat) :=
  if row ≤ 12 ∧ col ≤ 60 then some (0, row - 1, col - 1)
  else if 61 ≤ col ∧ row ≤ 60 then some (1, 72 - col, row - 1)
  else if 61 ≤ row ∧ 13 ≤ col then some (2, 72 - row, 72 - col)
  else if col ≤ 12 ∧ 13 ≤ row then some (3, col - 1, 72 - row)
  else none

/-- The ball at row u and position v of the band of die `n` (R461). -/
def bandBall (n u v : Nat) : Ball :=
  let j := (v - 6) / 3
  let pair := decide (6 ≤ v ∧ j < 16 ∧ (v - 6) % 3 < 2)
  let neg := decide ((v - 6) % 3 = 1)
  if u = 1 then (if pair then .rfOut (16 * n + j) neg else .gnd)
  else if u = 4 then (if !pair then .gnd else if j < 8 then .rfOut (64 + 8 * n + j) neg else .rfIn (8 * n + j - 8) neg)
  else if u = 6 then (if v < 36 then .supply .vdda09 else if v < 52 then .supply .vdda18 else .gnd)
  else if 7 ≤ u ∧ u ≤ 10 then
    if v < 14 ∨ 46 ≤ v then .gnd
    else
      let b := 64 * n + (if u ≤ 8 then v - 14 else v + 18)
      if u % 2 = 1 then .biasForce b else .biasSense b
  else if u = 11 then
    (if v < 40 then .supply .vddCd else if v < 42 then .supply .vbp else if v < 44 then .supply .vbn else .gnd)
  else .gnd

/-- The signals of the hub's checkerboard block, in order (Table 20.10). -/
def hubSignals : List String :=
  ["CREF_P", "CREF_N", "CSYNC_P", "CSYNC_N", "TRIG0", "TRIG1", "TRIG2", "TRIG3", "TRIG4", "TRIG5", "TRIG6", "TRIG7", "STAR0_P", "STAR0_N",
   "STAR1_P", "STAR1_N", "STAR2_P", "STAR2_N"] ++
  ["REFIN", "REFIN_RTN", "SYNCIN_P", "SYNCIN_N", "TIO0_P", "TIO0_N", "TIO1_P", "TIO1_N", "TIO2_P", "TIO2_N", "TIO3_P", "TIO3_N", "TIO4_P",
   "TIO4_N", "TIO5_P", "TIO5_N", "TIO6_P", "TIO6_N", "TIO7_P", "TIO7_N", "CALREF", "CALREF_RTN", "RSET_A", "RSET_B"] ++
  ["SCL", "SDA", "SMB_ALERT_N", "SMB_A0", "SMB_A1", "TCK", "TMS", "TDI", "TDO", "TRST_N", "HRST_N", "STAR0_LVDS", "STAR1_LVDS",
   "STAR2_LVDS", "SYNC_LVDS", "TIO_LVDS_LO", "TIO_LVDS_HI"]

/-- The place of a ball in a checkerboard block that begins at row `r` and column `c` and is `w` columns wide: of the balls whose row
plus column is even, in row-major order (R462). -/
def checker (r c w row col : Nat) : Option Nat :=
  if (row + col) % 2 = 0 then some ((row - r) * (w / 2) + (col - c) / 2) else none

/-- A ball of the center (Table 20.10). -/
def centerBall (row col : Nat) : Ball :=
  let inn (a b c d : Nat) : Bool := decide (a ≤ row ∧ row ≤ b ∧ c ≤ col ∧ col ≤ d)
  let m := (col - 14) / 12
  let dram (r first : Nat) : Ball :=
    match checker r (14 + 12 * m) 10 row col with
    | some i => if i < 34 ∨ (m = 0 ∧ i < 36) then .dram (first + m) i else .gnd
    | none => .gnd
  let n := (row - 24) / 3
  let lane := decide (24 ≤ row ∧ row ≤ 46 ∧ (row - 24) % 3 < 2)
  let neg := decide ((row - 24) % 3 = 1)
  if inn 14 21 14 59 && decide ((col - 14) % 12 < 10) then dram 14 0
  else if inn 52 59 14 59 && decide ((col - 14) % 12 < 10) then dram 52 4
  else if row = 22 ∨ row = 51 then (if inn 22 51 14 19 then .supply .vdd2 else if inn 22 51 20 27 then .supply .vddq else .gnd)
  else if lane && (col == 14 || col == 17) then .lane n (col == 17) neg
  else if lane && (col == 56 || col == 59) then .lane (n + 8) (col == 59) neg
  else if lane && (col == 26 || col == 29) then .pcie n (col == 29) neg
  else if row = 48 ∧ col = 26 then .refclk false
  else if row = 49 ∧ col = 26 then .refclk true
  else if row = 48 ∧ col = 29 then .perst
  else if inn 24 27 48 53 then .supply .vdda09
  else if inn 28 47 48 53 then .supply .vddHub
  else if inn 26 26 40 47 then .supply .vio
  else if inn 28 43 40 47 then
    match checker 28 40 8 row col with
    | some i => match hubSignals[i]? with
      | some x => .hub x
      | none => .gnd
    | none => .gnd
  else if inn 50 50 14 47 then .reserved
  else .gnd

/-- The ball at a row and a column, each from 1 to 72. -/
def ballAt (row col : Nat) : Ball :=
  match band row col with
  | some (n, u, v) => bandBall n u v
  | none => centerBall row col

/-- The place of a ball from the center of the body, in units of 0.1 mm, viewed from the ball side: right, then up (R460). -/
def ballPlace (row col : Nat) : Int × Int := (10 * (col : Int) - 365, 365 - 10 * (row : Int))

/-- The ball may be left unconnected: on the band of a disabled die, the RF and bias balls (R32, R462); any reserved ball must be
(Table 20.8). -/
def State.mayFloat (s : State) (row col : Nat) : Bool :=
  match band row col with
  | some (n, u, _) => !s.hasDie n && [1, 4, 7, 8, 9, 10].contains u
  | none => centerBall row col == .reserved

end Sys2Proof.Machine
end

