-- ==== Sys2Proof/Tests/Slice0.lean ====
section
/-!
SUPPORT. Tests/Slice0.lean: the worked examples of the manual, ill-formed commands that the well-formedness check refuses, and for every
statement a state and operands that meet its premises. `Met` and `MetBy` name the premises of `Completes` and `Answers`.
-/
namespace Sys2Proof.Tests
set_option Elab.async false
set_option maxRecDepth 10000
set_option synthInstance.maxSize 4000
open Sys2Proof.Machine

/-! ## States and packets of the tests -/

/-- A device that has started up (R442): READY, the PLL locked, CUA holding the token with CUB in STANDBY, the host link up, queue 0 of the
physical function enabled, and one session, of debug level 3, on it. -/
def ready : State :=
  { ({} : State) with
    time := { ({} : Timebase) with now := 1000, counting := true, pll := .locked, everLocked := true }
    host := { ({} : HostIf) with queues := [(0, { qstate := .enabled })], sessions := [{ func := 0, serial := 1, label := 7, level := 3 }] }
    units := { ({} : Units) with a := { st := .active }, b := { st := .standby, synced := true }, token := some .cua, standbyOk := true }
    sec := { ({} : Security) with lifecycle := .provisioned }
    boot := { ({} : Boot) with phase := 8, linkUp := true, perst := false } }

/-- A packet of queue 0 on that session, with a correct CRC. -/
def pkt (opcode : Nat) (payload : Words) : Packet := pktSeal opcode { source := .queue 0, tag := 5, handle := 1, payload := payload }

/-- Some state meets a statement's premise on the command. -/
def Met (_ : Instr) (pre : State → Prop) : Prop := ∃ s, pre s

/-- Some packet executes at once in some state and meets a clause of a statement. -/
def MetBy (c : Command) (cond : State → Packet → Prop) : Prop := ∃ s p, c.readyIn p s = true ∧ cond s p

/-! ## Worked examples of the manual -/

/-- Example 2.1: θ = +640 ns with the default configuration gives ε = −791,648 units, and no step. -/
theorem test_servo_slew :
    let t : Timebase := { ({} : Timebase) with lastMark := { seq := 41 } }
    (t.feed t.lastMark 640000).eps = -791648 ∧ (t.feed t.lastMark 640000).stepCount = 0 := by decide +kernel

/-- Example 2.1: θ = +3,200 ns steps the Almanac by −3,200 ns. -/
theorem test_servo_step :
    let t : Timebase := { ({} : Timebase) with lastMark := { seq := 41 }, almanac := 1000003200, secPhase := 5000 }
    (t.feed t.lastMark 3200000).almanac = 1000000000 ∧ (t.feed t.lastMark 3200000).stepCount = 1 := by decide +kernel

/-- Example 3.1: a request with x = 1,183 takes effect after W's first repetition, one with x = 1,184 after the second. -/
theorem test_after_decision_point :
    let w : Placed := { start := 16000, len := 3200, rep := true }
    w.start + (w.follows 1183 + 1) * w.len = 16 * 1200 ∧ w.start + (w.follows 1184 + 1) * w.len = 16 * 1400 := by decide

/-- The program of Example 3.2. -/
def activeReset : Words :=
  [0x4208000000000003, 0x1020000078400820, 0x1420000168812C80, 0x2122100016800500, 0x2F00000000000000, 0x1040000000000240,
   0x41084000FFFFFFFF, 0x2820800040000000]

/-- Example 3.2: the words of the program read as the instructions beside them. -/
theorem test_active_reset_words :
    activeReset.map readSeq =
      [some (.li 1 false 3), some (.play ⟨1, 0, 60, 1⟩ false 0x41), some (.measure ⟨1, 0, 180, 2⟩ 300 true),
       some (.brv 2 2 0 false true 360 5 0), some (.end_ false), some (.play ⟨2, 0, 0, 0⟩ false 0x12),
       some (.alui 1 1 0 0xFFFFFFFFFFFFFFFF), some (.br 2 1 0 1)] := by decide +kernel

/-- Sequencer 70 in the shot of Example 3.2, with the program loaded: SST is 0, T is `t`, and the instruction at `pc` issues in tick
`i`. -/
def shot70 (pc t i : Nat) : State :=
  let prog : Sparse Word := [(0, activeReset.getD 0 0), (1, activeReset.getD 1 0), (2, activeReset.getD 2 0), (3, activeReset.getD 3 0),
    (4, activeReset.getD 4 0), (5, activeReset.getD 5 0), (6, activeReset.getD 6 0), (7, activeReset.getD 7 0)]
  let s : State := { ready with time := { ready.time with now := 0 } }
  s.modSeq 70 fun c => { c with mode := .running, prog := prog, limit := 7, pc := pc, t := BitVec.ofNat 64 t, sst := 0, nextIssue := i }

/-- Table 3.12, tick 2: the probe is stamped 60. -/
theorem test_active_reset_probe :
    (match exec (.play 70) (shot70 1 0 2) with
     | .next t => decide ((t.sq 70).t = 60 ∧ (t.sq 70).pc = 2 ∧ (t.sq 70).cues.map (·.stamp) = [60])
     | _ => false) = true := by decide +kernel

/-- Table 3.12, tick 585: the X180 is stamped 585 + 52 = 637. -/
theorem test_active_reset_x180 :
    (match exec (.play 70) (shot70 5 240 585) with
     | .next t => decide ((t.sq 70).t = 637 ∧ (t.sq 70).pc = 6 ∧ (t.sq 70).nextIssue = 586)
     | _ => false) = true := by decide +kernel

/-- Table 3.12, ticks 4 and 1,221: a BRV that issues in tick 4 resolves in the tick after its verdict latches, and state 1 branches
to 0x005. -/
theorem test_active_reset_brv :
    (match exec (.brv 70) (shot70 3 240 4) with
     | .next t =>
       match exec (.brvResolve 70) (t.modSeq 70 fun c => { c with ports := updN c.ports 2 fun p => { p with held := some (mkVerdict 0 10 5 1 true false false 0, 583) } }) with
       | .next u => decide ((u.sq 70).pc = 5 ∧ (u.sq 70).nextIssue = 585)
       | _ => false
     | _ => false) = true := by decide +kernel

/-- Example 4.1: 48 samples at 2 GS/s are 384 DAC samples. -/
theorem test_gate_length : ({ n := 48, rate := 2097152 } : Folio).samples = 384 := by decide

/-- Example 4.2: the accumulator of the first hop. -/
theorem test_frequency_hop :
    (accumulator 0x520000000000 16000053).toNat / 2 ^ 16 = 0xFA000000 ∧ (accumulator 0x540000000000 16000053).toNat / 2 ^ 16 = 0x64000000 := by
  decide +kernel

/-- Examples 5.1 and 5.2: head, window halves and charge. -/
theorem test_stream_sizes :
    ({ n := 80000, rate := 2097152 } : Folio).head = 16000 ∧ ({ n := 3125, rate := 16384 } : Folio).head = 125 ∧
    halfGranules 2097152 = 125 ∧ halfGranules 1048576 = 63 ∧ halfGranules 262144 = 16 ∧ requestAt 16000 125 0 = 8000 ∧
    requestAt 16000 125 1 = 16000 ∧ requestAt 16000 125 2 = 24000 := by decide

/-- Example 6.1: a kernel of 150 weights takes 5 granules; the accumulator at ADC sample m. -/
theorem test_kernel_granules :
    kernelGranules 150 = 5 ∧ (demodAcc 0x620000000000 7).toNat = 2 ^ 41 * (98 * 7 % 128) := by decide +kernel

/-- Example 6.1: the value lies in region 1, and MAP1 gives state 1 with Valid = 1. Float32 words: 0.0100, 0.0020, 0.8, −0.6, 0.0050,
0.0300; y = (0.0310, −0.0125). -/
theorem test_discriminator :
    let d : Discrim := { map0 := 0, map1 := 1, map2 := 4, ci := 0x3C23D70A, cq := 0x3B03126F, ac := 0x3F4CCCCD, as_ := 0xBF19999A
                         t1 := 0x3BA3D70A, t2 := 0x3CF5C28F }
    d.classify (0x3CFDF3B6, 0xBC4CCCCD) = (1, true) := by decide +kernel

/-- Example 9.1: the view record, the gather entries and the term word of b1. -/
theorem test_decoding_cycle :
    let p := pkt 0x0901 [0x0840800000000000, 0x030800182000C000, 0xC300]
    viewFields p = (2, 4, 0x10000, 0) ∧
    (List.range 4).map (fun i => let g := gatherRead (gatherField p i); (g.smem, g.sline, g.sslot, g.sel)) =
      [(0, 12, 0, 0), (0, 12, 1, 0), (0, 12, 2, 0), (0, 12, 3, 0)] ∧
    termSum 0x8300800000000000 0x80100 = 0x80000000 ∧ termSum 0x8100800000000000 0x80100 = 0 := by decide +kernel

/-- The raw plan of Example 10.1, which CAPTURE_CONFIG has applied in tick 4,400. -/
def rawL11 : State :=
  let p : Plan := { start := 1, pt := 6, at_ := 0, minPeriod := 12000, ring := 1, reds := [{ kind := 1, a := 4000, b := 1000 }], i0 := 0, q0 := 0,
                    si := 0, sq := 0 }
  ready.modCap 176 fun c => { c with active := some p, histAt := 4400 }

/-- Example 10.1: a start in tick 5,000 covers ticks 4,400 to 7,999 with a pre-trigger of 600. -/
theorem test_short_pretrigger :
    (((rawL11.startCapture 176 1 5000 0x2001 0x60 none).2.cap 176).raw.map fun r => (r.first, r.last, r.short, r.pre, r.units)) =
      some (4400, 7999, true, 600, 0x60) ∧ ((rawL11.startCapture 176 1 5000 0x2001 0x60 none).2.cap 176).holdUntil = some 17000 := by
  decide +kernel

/-- Example 10.1: the header of the first record. -/
theorem test_record_header :
    (mkRecord 176 0 { kind := 1, start := 1, pt := 6, short := true, pre := 600, tick := 4400, context := 0x2001, aux := 0x60 }
        (List.replicate 7200 0)).take 4 = [0x1582610960000000, 0x1130, 0x2001, 0x0000006000001C20] := by decide +kernel

/-- Example 10.2: charges and reservations of the three plans, and of the raw plan with MINPERIOD = 12,000. -/
theorem test_acquisition_charges :
    let pl (m : Nat) (l : List Reduction) : Plan := { start := 0, pt := 0, at_ := 0, minPeriod := m, ring := 1, reds := l, i0 := 0, q0 := 0, si := 0, sq := 0 }
    let a := pl 1000 [⟨3, 64, 0⟩, ⟨4, 64, 0⟩]
    let b := pl 5000 [⟨2, 1000, 0⟩, ⟨6, 1000, 1000⟩]
    let c := pl 10000 [⟨1, 4000, 1000⟩]
    (a.charge, b.charge, c.charge, (pl 12000 [⟨1, 4000, 1000⟩]).charge) = (18, 1609, 6404, 5336) ∧
    (a.reserved, b.reserved, c.reserved) = (2176, 40128, 144064) := by decide

/-- Example 11.1: 819 steps of 64 and a final one of 13. -/
theorem test_bias_ramp :
    (List.range 819).foldl (fun c _ => slewTo c 183501 64) 131072 = 131072 + 52416 ∧ slewTo (131072 + 52416) 183501 64 = 183501 := by
  decide +kernel

/-- Example 12.1: header word 0 of a TONE_CONFIG with 3 records under tag 0x0035 for partition 2. -/
theorem test_packet_header :
    let p : Packet := { source := .queue 300, partition := 2, tag := 0x35, handle := 0, payload := List.replicate 7 0 }
    wordAt (pktWords 0x0401 0 p) 0 = 0x0401002000020035 := by decide +kernel

/-- Example 14.1: 35 steps bring a remainder of 40 units of GAIN into force, 5 of them by 2 units; 6 steps a PHASE of 6 units. -/
theorem test_trim_steps :
    (List.range 5).foldl (fun f _ => stepField 50 f 40) 0 = 10 ∧ (List.range 34).foldl (fun f _ => stepField 50 f 40) 0 = 39 ∧
    (List.range 35).foldl (fun f _ => stepField 50 f 40) 0 = 40 ∧ (List.range 6).foldl (fun f _ => stepField 10 f 6) 0 = 6 := by decide

/-- The standard check value of CRC-32C, for the bytes of "123456789" (R294 names the code by its polynomial, initial value and
reflection). -/
theorem test_crc : crc32c [0x31, 0x32, 0x33, 0x34, 0x35, 0x36, 0x37, 0x38, 0x39] = 0xE3069283 := by decide +kernel

/-- The standard example of SM3, for the bytes of "abc" (GB/T 32905, which chapter 9 names). -/
theorem test_sm3 : sm3 [0x61, 0x62, 0x63] = 0x66c7f0f462eeedd9d1f2d46bdc10e4e24167c4875cf2f7a2297da02b8f4ba8e0 := by decide +kernel

/-- Example 7.1: the words of the handler read as the instructions beside them. -/
theorem test_handler_words :
    ([0x303E0000, 0x305F0000, 0x82000000, 0x82600030, 0x04700CC0, 0x48400007, 0x248C2000, 0xE0800000, 0xE4000000, 0x4C007000,
      0xE8000000].map readEst) =
      [some (.vbc 1 15 false), some (.vbc 2 15 true), some (.vld 16 ⟨0, 0, 0⟩), some (.vld 19 ⟨0, 0, 48⟩), some (.vfma 3 16 1 19),
       some (.liq 1 0 7), some (.vmaxx 2 6 1), some (.post 2), some .done_, some (.aadd 0 0 0x7000), some .idle] := by decide +kernel

/-- Example 8.1: three verdicts of F = 1,000,044 launch in ticks 1,000,046, 1,000,048 and 1,000,050. -/
theorem test_lane_launch :
    (launchSlots 500022 [(5, 1000044), (6, 1000044), (7, 1000044)]).map (2 * ·) = [1000046, 1000048, 1000050] ∧
    1000046 / 2 % 16 = 7 := by decide +kernel

/-- Example 18.1: the neighbors of TS30. -/
theorem test_sensor_neighbors : neighbors 30 = [26, 34, 29, 31] := by decide

/-- Example 18.1: a failed TS30 takes the highest valid neighbor plus 5 °C: 102 + 5 = 107 °C, in 1/16 °C. -/
theorem test_sensor_substitute :
    ((((ready.modSensor 26 fun x => { x with reading := 1616 }).modSensor 29 fun x => { x with reading := 1632 }).modSensor 31 fun x =>
      { x with reading := 1600 }).modSensor 30 fun x => { x with failedAt := some 900 }).substitute 30 = 1712 := by decide +kernel

/-- Example 16.1: after the restart the first record has SEQ 266,240, kind 8 and DETAIL 262,144. -/
theorem test_ledger_resumes :
    let c : Checkpoint := { anchor := { seq := 262144 }, before := [] }
    let l := (({ ready with ledger := { ready.ledger with checkpoints := [c] } } : State).resume 0).ledger.records
    (l.getLast?.map fun (r : LedgerRec) => (r.seq, r.kind, r.detail)) = some (266240, 8, 262144) := by decide +kernel

/-- R461, R462, Tables 20.9 and 20.10: balls of the four bands and of the center. -/
theorem test_balls :
    ballAt 2 7 = .rfOut 0 false ∧ ballAt 7 71 = .rfOut 16 false ∧ ballAt 65 58 = .biasForce 128 ∧ ballAt 38 5 = .rfIn 25 true ∧
      ballAt 14 14 = .dram 0 0 ∧ ballAt 28 40 = .hub "CREF_P" ∧ ballAt 25 59 = .lane 8 true true ∧ ballAt 50 14 = .reserved := by decide

/-- R452, R453: VBP has its threshold at 6.9 V, and VDDQ waits for VDD2. -/
theorem test_rails :
    Rail.vbp.below 6899 = true ∧ Rail.vbp.below 6900 = false ∧
      Rail.vddq.mayRise (fun r => if r = .vdd2 then 989 else r.nominal) = false ∧ Rail.vddq.mayRise (·.nominal) = true := by decide

/-! ## Well-formed commands -/

/-- A packet of 1,024 slots is well formed, a longer one is not (R293). -/
theorem test_wf_packet :
    (Instr.echo { source := .queue 0, handle := 1, payload := List.replicate 8190 0 }).wf = true ∧
    (Instr.echo { source := .queue 0, handle := 1, payload := List.replicate 8191 0 }).wf = false := by decide +kernel

/-- A fetch from the device itself, and one of more than 1,024 slots, are ill formed (R292). -/
theorem test_wf_fetch :
    fetchWf (.queue 3) [1] = true ∧ fetchWf .internal [1] = false ∧ fetchWf (.queue 3) (List.replicate 8193 0) = false := by decide +kernel

/-- A frame of 14 payloads is ill formed (R206). -/
theorem test_wf_frame :
    (Instr.checkBlockReceive 4 (List.replicate 15 0) (some 0)).wf = true ∧ (Instr.checkBlockReceive 4 (List.replicate 14 0) (some 0)).wf = false := by
  decide +kernel

/-- A reading of more than 16 bits is ill formed (Table 18.1). -/
theorem test_wf_reading : (Instr.sensorPoll 7 32767).wf = true ∧ (Instr.sensorPoll 7 32768).wf = false := by decide +kernel

/-! ## Hypotheses of the general statements -/

/-- Every frame speaks of a next state, and every command has one in every state. -/
theorem witness_Frames : ∀ i s, ∃ t, exec i s = .next t := exec_next

/-- Two frames speak of one command in some states. -/
theorem witness_ServiceFrame : ∃ s t, exec .perst s = .next t ∧ s.power.st ≠ .dormant :=
  ⟨ready, (exec_next .perst ready).elim fun t h => ⟨t, h, by decide +kernel⟩⟩

/-- A command at the front of the queue, and an empty queue. -/
theorem witness_StepRunsFront : (∃ c l s, State.pending s = c :: l) ∧ ∃ s : State, s.pending = [] :=
  ⟨⟨.jtagDap, [.perst], { ready with pending := [.jtagDap, .perst] }, rfl⟩, ready, rfl⟩

/-- A state that steps. -/
theorem witness_StepMovesForward : ∃ s t, step s = .next t ∧ s.pending = [.jtagDap] :=
  ⟨{ ready with pending := [.jtagDap] }, (step_next _).elim fun t h => ⟨t, h, rfl⟩⟩

/-- A purged part that steps. -/
theorem witness_LifecycleInvKept : ∃ s t, LifecycleInv s ∧ s.sec.purged = true ∧ step s = .next t :=
  let s : State := { ready with sec := { ready.sec with lifecycle := .retired, purged := true, keysErased := true } }
  ⟨s, (step_next s).elim fun t h => ⟨t, ⟨fun _ => rfl, fun _ => rfl⟩, rfl, h⟩⟩

/-- A canonical state that steps. -/
theorem witness_MemoriesStayCanonical : ∃ s t, State.canonical s = true ∧ s.host.queues ≠ [] ∧ step s = .next t :=
  ⟨ready, (step_next ready).elim fun t h => ⟨t, by decide +kernel, by decide +kernel, h⟩⟩

/-- A packet of 8 payload words under the opcode of ECHO. -/
theorem witness_PacketRoundTrip : ∃ (op : Nat) (p : Packet), p.payload ≠ [] ∧ p.payload.length ≤ 8190 ∧ op < 65536 :=
  ⟨0x0104, pkt 0x0104 [1, 2, 3, 4, 5, 6, 7, 8], by decide +kernel, by decide +kernel, by decide +kernel⟩

/-- A packet with a wrong CRC is not executed. -/
theorem witness_UnreadyChangesNothing : ∃ (c : Command) (p : Packet) (s : State), c.takesIn p s = false :=
  ⟨echoCmd, { pkt 0x0104 [1] with crc := 1 }, ready, by decide +kernel⟩

/-! ## Premises of the statements on commands -/

/-- Every premise of `TimebaseCommandsComplete` is met. -/
theorem witness_TimebaseCommandsComplete :
    MetBy timeServoFeedCmd (fun s p => fld (wordAt p.payload 0) 63 60 = 0 ∧ (s.time.markNamed (lo32 (wordAt p.payload 0))).isSome = true) ∧
    MetBy timeServoFeedCmd (fun _ p => fld (wordAt p.payload 0) 63 60 = 1) ∧
    MetBy timeServoFeedCmd (fun _ p => fld (wordAt p.payload 0) 63 60 = 2) ∧
    MetBy syncArmCmd (fun _ p => bitAt (wordAt p.payload 0) 0 = true) ∧
    MetBy syncArmCmd (fun _ p => bitAt (wordAt p.payload 0) 0 = false ∧ fld (wordAt p.payload 0) 59 56 = 0) ∧
    MetBy syncArmCmd (fun _ p => bitAt (wordAt p.payload 0) 0 = false ∧ fld (wordAt p.payload 0) 59 56 = 1) ∧
    MetBy syncArmCmd (fun _ p => bitAt (wordAt p.payload 0) 0 = false ∧ fld (wordAt p.payload 0) 59 56 = 2) ∧
    MetBy syncArmCmd (fun s p => bitAt (wordAt p.payload 0) 0 = false ∧ ∃ r, refSrcOf (fld (wordAt p.payload 0) 63 60) = some r ∧ r ≠ s.time.refSrc) ∧
    MetBy skewCalCmd (fun _ p => fld (wordAt p.payload 0) 63 60 = 2) ∧
    MetBy skewCalCmd (fun _ p => fld (wordAt p.payload 0) 63 60 ≠ 2) ∧
    MetBy almanacReadCmd (fun _ _ => True) :=
  ⟨⟨{ ready with time := { ready.time with lastMark := { seq := 3, now := 900 } } }, pkt 0x0201 [3, 1000], by decide +kernel, by decide +kernel⟩,
   ⟨ready, pkt 0x0201 [put 63 60 1, 0, orAll [put 63 56 200, put 55 24 1000, put 23 8 1000, put 7 1 3]], by decide +kernel, by decide +kernel⟩,
   ⟨ready, pkt 0x0201 [put 63 60 2, orAll [put 61 32 5, put 31 0 77]], by decide +kernel, by decide +kernel⟩,
   ⟨ready, pkt 0x0202 [1, 0], by decide +kernel, by decide +kernel⟩,
   ⟨ready, pkt 0x0202 [0, 0], by decide +kernel, by decide +kernel⟩,
   ⟨ready, pkt 0x0202 [put 59 56 1, 0], by decide +kernel, by decide +kernel⟩,
   ⟨ready, pkt 0x0202 [put 59 56 2, 2000], by decide +kernel, by decide +kernel⟩,
   ⟨ready, pkt 0x0202 [put 63 60 2, 0], by decide +kernel, by decide +kernel⟩,
   ⟨ready, pkt 0x0203 [put 63 60 2 ||| 100], by decide +kernel, by decide +kernel⟩,
   ⟨ready, pkt 0x0203 [0], by decide +kernel, by decide +kernel⟩,
   ⟨ready, pkt 0x0204 [], by decide +kernel, by decide +kernel⟩⟩

/-- Every premise of `TimebaseEventsComplete` is met. -/
theorem witness_TimebaseEventsComplete :
    (∃ o, Met .skewCalComplete (fun s => s.skewWith 0 (fun o => !o.data.isEmpty) = some o)) ∧
    (∃ o, Met .skewCalComplete (fun s => s.skewWith 0 (fun o => !o.data.isEmpty) = none ∧ s.skewWith 1 (fun o => 8 ≤ o.data.length) = some o)) ∧
    (∃ o, Met .skewCalTimeout (fun s => s.skewWith 0 (fun o => o.data.isEmpty) = some o ∧ s.now ≤ o.since + 1000000000)) ∧
    (∃ o n, Met .skewCalTimeout (fun s => s.skewWith 0 (fun o => o.data.isEmpty) = none ∧ s.skewWith 1 (fun o => o.data.length < 8) = some o ∧ o.first = some n ∧ s.now ≤ n + 1000000)) ∧
    (Met .referenceLoss (fun s => s.time.pll = .locked)) ∧
    (Met .referenceReturn (fun s => s.time.pll = .holdover ∧ s.time.returnAt = none)) ∧
    (∃ n, Met .referenceStable (fun s => s.time.pll = .holdover ∧ s.time.returnAt = some n ∧ s.now ≤ n + 1000000)) ∧
    (Met .relockComplete (fun s => s.time.steering = true)) ∧
    (Met .pllLock (fun s => s.time.pll = .unlocked ∧ 4 ≤ s.boot.phase ∧ s.power.st ≠ .dormant)) ∧
    (∃ n, Met .referenceTimeout (fun s => s.time.sourceChangedAt = some n ∧ s.time.pll = .unlocked ∧ s.now ≤ n + 10000000)) ∧
    (Met .pllFault (fun s => s.time.pll = .locked)) ∧
    (∃ src ps, Met (.syncEdge src ps) (fun s => s.time.capture = .armed src)) ∧
    (∃ src ps, Met (.syncEdge src ps) (fun s => s.tdcInput = src)) ∧
    (∃ n ps, Met .epochSet (fun s => s.time.capture = .fixed n ps ∧ s.now ≤ n)) ∧
    (∃ m l, Met .almanacMark (fun s => s.time.marksDue = m :: l)) ∧
    (∃ n, Met .servoPhaseTermEnd (fun s => s.time.psiEnd = some n ∧ s.now ≤ n)) ∧
    (∃ b e, Met .almanacEventFire (fun s => s.time.events = [⟨.biasQueue b, e, s.now⟩] ∧ e ≤ s.time.travel)) :=
  ⟨⟨{ opcode := 0x0203, packet := pkt 0x0203 [0], accept := 4, sqHead := 0, since := 500, long := false, data := [3] }, { ready with host := { ready.host with open_ := [{ opcode := 0x0203, packet := pkt 0x0203 [0], accept := 4, sqHead := 0, since := 500, long := false, data := [3] }] } }, by decide +kernel⟩,
   ⟨{ opcode := 0x0203, packet := pkt 0x0203 [put 63 60 1], accept := 4, sqHead := 0, since := 500, long := false, data := [1, 2, 3, 4, 5, 6, 7, 8] }, { ready with host := { ready.host with open_ := [{ opcode := 0x0203, packet := pkt 0x0203 [put 63 60 1], accept := 4, sqHead := 0, since := 500, long := false, data := [1, 2, 3, 4, 5, 6, 7, 8] }] } }, by decide +kernel⟩,
   ⟨{ opcode := 0x0203, packet := pkt 0x0203 [0], accept := 4, sqHead := 0, since := 500, long := false }, { ready with host := { ready.host with open_ := [{ opcode := 0x0203, packet := pkt 0x0203 [0], accept := 4, sqHead := 0, since := 500, long := false }] } }, by decide +kernel⟩,
   ⟨{ opcode := 0x0203, packet := pkt 0x0203 [put 63 60 1], accept := 4, sqHead := 0, since := 500, long := false, first := some 900 }, 900, { ready with host := { ready.host with open_ := [{ opcode := 0x0203, packet := pkt 0x0203 [put 63 60 1], accept := 4, sqHead := 0, since := 500, long := false, first := some 900 }] } }, by decide +kernel⟩,
   ⟨ready, by decide +kernel⟩,
   ⟨{ ready with time := { ready.time with pll := .holdover } }, by decide +kernel⟩,
   ⟨900, { ready with time := { ready.time with pll := .holdover, returnAt := some 900 } }, by decide +kernel⟩,
   ⟨{ ready with time := { ready.time with pll := .holdover, steering := true } }, by decide +kernel⟩,
   ⟨{ ready with time := { ready.time with pll := .unlocked } }, by decide +kernel⟩,
   ⟨900, { ready with time := { ready.time with pll := .unlocked, sourceChangedAt := some 900 } }, by decide +kernel⟩,
   ⟨ready, by decide +kernel⟩,
   ⟨.syncin, 149, { ready with time := { ready.time with capture := .armed .syncin } }, by decide +kernel⟩,
   ⟨.chassis, 149, ready, by decide +kernel⟩,
   ⟨1000, 150, { ready with time := { ready.time with capture := .fixed 1000 150 } }, by decide +kernel⟩,
   ⟨{ now := 1000 }, [], { ready with time := { ready.time with marksDue := [{ now := 1000 }] } }, by decide +kernel⟩,
   ⟨1500, { ready with time := { ready.time with psi := ⟨3, 1⟩, psiEnd := some 1500 } }, by decide +kernel⟩,
   ⟨7, 0, { ready with time := { ready.time with events := [⟨.biasQueue 7, 0, 1000⟩] } }, by decide +kernel⟩⟩

/-- Every premise of `SessionCommandsComplete` is met. -/
theorem witness_SessionCommandsComplete :
    MetBy sessionOpenCmd (fun _ _ => True) ∧
    MetBy sessionCloseCmd (fun _ _ => True) ∧
    MetBy identifyCmd (fun _ _ => True) ∧
    MetBy echoCmd (fun _ _ => True) :=
  ⟨⟨ready, pktSeal 0x0101 { source := .queue 0, payload := [put 63 32 9] }, by decide +kernel, by decide +kernel⟩,
   ⟨ready, pkt 0x0102 [put 63 32 1], by decide +kernel, by decide +kernel⟩,
   ⟨ready, pkt 0x0103 [], by decide +kernel, by decide +kernel⟩,
   ⟨ready, pkt 0x0104 [1, 2], by decide +kernel, by decide +kernel⟩⟩

/-- Every premise of `QueueWritesComplete` is met. -/
theorem witness_QueueWritesComplete :
    (∃ q v, Met (.doorbellSqTail q v false) (fun s => s.bar0Open q = true ∧ (s.queue (.queue q)).live = true ∧ v.toNat < 2 ^ (s.queue (.queue q)).sqLog ∧ ((s.queue (.queue q)).sqTail.toNat + 2 ^ (s.queue (.queue q)).sqLog - (s.queue (.queue q)).sqHead.toNat) % 2 ^ (s.queue (.queue q)).sqLog ≤ (v.toNat + 2 ^ (s.queue (.queue q)).sqLog - (s.queue (.queue q)).sqHead.toNat) % 2 ^ (s.queue (.queue q)).sqLog)) ∧
    (∃ q v, Met (.doorbellCqHead q v false) (fun s => s.bar0Open q = true ∧ (s.queue (.queue q)).live = true ∧ v.toNat < 2 ^ (s.queue (.queue q)).cqLog ∧ (v.toNat + 2 ^ (s.queue (.queue q)).cqLog - (s.queue (.queue q)).cqHead.toNat) % 2 ^ (s.queue (.queue q)).cqLog ≤ (s.queue (.queue q)).cqUsed)) ∧
    (∃ q, Met (.queueEnable q) (fun s => Sparse.wf {} s.host.queues = true ∧ s.bar0Open q = true ∧ ((s.queue (.queue q)).qstate = .disabled ∨ (s.queue (.queue q)).qstate = .broken))) ∧
    (∃ q, Met (.queueDisable q) (fun s => Sparse.wf {} s.host.queues = true ∧ s.bar0Open q = true ∧ (s.queue (.queue q)).qstate = .enabled)) ∧
    (∃ q, Met (.queueDrainEnd q) (fun s => Sparse.wf {} s.host.queues = true ∧ (s.queue (.queue q)).qstate = .draining ∧ s.inFlight (.queue q) = false ∧ s.host.open_ = [])) ∧
    (∃ q v, Met (.bar0RegisterWrite (.descriptor q 0) v) (fun s => s.bar0Open q = true ∧ (s.queue (.queue q)).qstate = .disabled)) ∧
    (∃ q v, Met (.bar0RegisterWrite (.descriptor q 3) v) (fun s => Sparse.wf {} s.host.queues = true ∧ s.bar0Open q = true ∧ (s.queue (.queue q)).qstate = .disabled)) ∧
    (∃ i v, Met (.bar0RegisterWrite (.msixMask i true) v) (fun _ => True)) ∧
    (∃ v, Met (.bar0RegisterWrite .readOnly v) (fun _ => True)) ∧
    (∃ v, Met (.bar0RegisterWrite .unmapped v) (fun _ => True)) ∧
    (∃ v, Met (.msixVectorUnmask v) (fun _ => True)) ∧
    (∃ q n, Met (.interruptCoalesceTimeout q) (fun s => (s.queue (.queue q)).firstUnsignaled = some n ∧ s.now ≤ n + 10000)) ∧
    (Met .vfEnable (fun s => s.boot.linkUp = true)) :=
  ⟨⟨0, 15, ready, by decide +kernel⟩,
   ⟨0, 2, { ready with host := { ready.host with queues := [(0, { qstate := .enabled, cqUsed := 2 })] } }, by decide +kernel⟩,
   ⟨0, { ready with host := { ready.host with queues := [(0, { qstate := .broken })] } }, by decide +kernel⟩,
   ⟨0, ready, by decide +kernel⟩,
   ⟨0, { ready with host := { ready.host with queues := [(0, { qstate := .draining })] } }, by decide +kernel⟩,
   ⟨1, 5, ready, by decide +kernel⟩,
   ⟨1, 5, ready, by decide +kernel⟩,
   ⟨7, 1, ready, by decide +kernel⟩,
   ⟨1, ready, by decide +kernel⟩,
   ⟨1, ready, by decide +kernel⟩,
   ⟨2047, ready, by decide +kernel⟩,
   ⟨0, 900, { ready with host := { ready.host with queues := [(0, { qstate := .enabled, unsignaled := 3, firstUnsignaled := some 900 })] } }, by decide +kernel⟩,
   ⟨ready, by decide +kernel⟩⟩

/-- Every premise of `DoorbellBreaks` is met. -/
theorem witness_DoorbellBreaks :
    (∃ q v, Met (.doorbellSqTail q v true) (fun s => Sparse.wf {} s.host.queues = true ∧ s.bar0Open q = true ∧ (s.queue (.queue q)).live = true)) ∧
    (∃ q v, Met (.doorbellSqTail q v false) (fun s => Sparse.wf {} s.host.queues = true ∧ s.bar0Open q = true ∧ (s.queue (.queue q)).live = true ∧ 2 ^ (s.queue (.queue q)).sqLog ≤ v.toNat)) ∧
    (∃ q v, Met (.doorbellCqHead q v false) (fun s => Sparse.wf {} s.host.queues = true ∧ s.bar0Open q = true ∧ (s.queue (.queue q)).live = true ∧ 2 ^ (s.queue (.queue q)).cqLog ≤ v.toNat)) ∧
    (∃ q v, Met (.doorbellCqHead q v true) (fun s => Sparse.wf {} s.host.queues = true ∧ s.bar0Open q = true ∧ (s.queue (.queue q)).live = true)) ∧
    (∃ q v, Met (.doorbellSqTail q v false) (fun s => s.bar0Open q = true ∧ (s.queue (.queue q)).live = false)) ∧
    (∃ q v, Met (.doorbellCqHead q v false) (fun s => s.bar0Open q = true ∧ (s.queue (.queue q)).live = false)) :=
  ⟨⟨0, 1, ready, by decide +kernel⟩,
   ⟨0, 16, ready, by decide +kernel⟩,
   ⟨0, 16, { ready with host := { ready.host with queues := [(0, { qstate := .draining })] } }, by decide +kernel⟩,
   ⟨0, 1, ready, by decide +kernel⟩,
   ⟨0, 5, { ready with host := { ready.host with queues := [(0, { qstate := .broken })] } }, by decide +kernel⟩,
   ⟨0, 5, { ready with host := { ready.host with queues := [(0, { qstate := .disabled })] } }, by decide +kernel⟩⟩

/-- Every premise of `DeskRowsComplete` is met. -/
theorem witness_DeskRowsComplete :
    (∃ src ring, Met (.packetFetch src ring false) (fun s => s.turn = some src ∧ framed (wordAt (s.ringWords src ring) 0) (2 ^ (s.queue src).sqLog) = true ∧ fld (wordAt (s.ringWords src ring) 0) 31 16 ≤ s.slotsReady src ∧ s.hasRoom src (fld (wordAt (s.ringWords src ring) 0) 63 48) (packetOf src (s.ringWords src ring)) = true)) ∧
    (∃ q ring, Met (.packetFetch (.queue q) ring false) (fun s => Sparse.wf {} s.host.queues = true ∧ s.turn = some (.queue q) ∧ framed (wordAt ring 0) (2 ^ (s.queue (.queue q)).sqLog) = false)) ∧
    (∃ q ring, Met (.packetFetch (.queue q) ring true) (fun s => Sparse.wf {} s.host.queues = true ∧ s.turn = some (.queue q))) ∧
    (∃ h c, Met .heldCommandExecute (fun s => s.deskUp .internal = true ∧ s.desk.cur = none ∧ s.heldNext = some h ∧ commandOf h.opcode.toNat = some c ∧ s.lifecycleBars c.opcode = false ∧ c.chk ((s.routine h.fetched).unlist h) h.packet = none)) ∧
    (∃ h c r, Met .heldCommandExecute (fun s => s.deskUp .internal = true ∧ s.desk.cur = none ∧ s.heldNext = some h ∧ commandOf h.opcode.toNat = some c ∧ c.chk ((s.routine h.fetched).unlist h) h.packet = some r)) ∧
    (∃ f c a x y e, Met (.commitSequence e) (fun s => s.deskUp .internal = true ∧ s.desk.cur = some ⟨.packet f, some a, x, y⟩ ∧ commandOf f.opcode.toNat = some c ∧ c.executesIn f.packet (s.parkDue.clearCur.routine { f with ringFault := e }) = true)) ∧
    (∃ h c e, Met (.commitSequence e) (fun s => s.deskUp .internal = true ∧ s.desk.cur = none ∧ s.parkDue.heldNext = some h ∧ commandOf h.opcode.toNat = some c ∧ s.lifecycleBars c.opcode = false ∧ c.chk ((s.parkDue.routine h.fetched).unlist h) h.packet = none)) ∧
    (∃ f g u c e, Met (.commitSequence e) (fun s => s.deskUp .internal = true ∧ s.desk.cur = none ∧ s.parkDue.heldNext = none ∧ s.parkDue.firstWaiting [] s.parkDue.host.waiting = some f ∧ s.parkDue.unparkPacket f = (g, u) ∧ commandOf g.opcode.toNat = some c ∧ c.front g (u.routine { g with ringFault := e }) = none ∧ c.executesIn g.packet ((u.routine { g with ringFault := e }).accepted g.packet) = true)) ∧
    (∃ c f l e, Met (.commitSequence e) (fun s => s.deskUp .internal = true ∧ s.desk.cur = none ∧ s.parkDue.heldNext = none ∧ s.parkDue.host.waiting = [] ∧ s.parkDue.host.fetched = f :: l ∧ s.parkDue.deskUp f.packet.source = true ∧ s.parkDue.queueBusy f.packet.source = false ∧ s.parkDue.mayBegin f.packet = true ∧ commandOf f.opcode.toNat = some c ∧ c.front f ((s.parkDue.takeOut f).routine { f with ringFault := e }) = none ∧ c.executesIn f.packet (((s.parkDue.takeOut f).routine { f with ringFault := e }).accepted f.packet) = true)) ∧
    (∃ f l, Met (.commitSequence false) (fun s => s.deskUp .internal = true ∧ s.desk.cur = none ∧ s.parkDue.heldNext = none ∧ s.parkDue.host.waiting = [] ∧ s.parkDue.host.fetched = f :: l ∧ s.parkDue.deskUp f.packet.source = true ∧ s.parkDue.queueBusy f.packet.source = false ∧ s.parkDue.mayBegin f.packet = true ∧ commandOf f.opcode.toNat = none ∧ f.packet.crc = pktCrc f.opcode.toNat f.packet ∧ f.packet.rsv = 0 ∧ f.packet.partition.toNat < 8 ∧ f.silent = false ∧ (s.queue f.packet.source).qstate ≠ .disabled)) :=
  ⟨⟨.queue 0, pktWords 0x0104 0 (pkt 0x0104 [1, 2]), { ready with host := { ready.host with queues := [(0, { qstate := .enabled, sqTail := 1 })] } }, by decide +kernel⟩,
   ⟨0, [0], { ready with host := { ready.host with queues := [(0, { qstate := .enabled, sqTail := 1 })] } }, by decide +kernel⟩,
   ⟨0, [0], { ready with host := { ready.host with queues := [(0, { qstate := .enabled, sqTail := 1 })] } }, by decide +kernel⟩,
   ⟨{ items := [.output 3], opcode := 0x0104, packet := pkt 0x0104 [1], accept := 4, sqHead := 1, since := 900 }, echoCmd, { ready with host := { ready.host with held := [{ items := [.output 3], opcode := 0x0104, packet := pkt 0x0104 [1], accept := 4, sqHead := 1, since := 900 }] } }, by decide +kernel, by decide +kernel, by decide +kernel, rfl, by decide +kernel, by decide +kernel⟩,
   ⟨{ items := [.output 3], opcode := 0x0102, packet := pkt 0x0102 [put 63 32 77], accept := 4, sqHead := 1, since := 900 }, sessionCloseCmd, ⟨0x0201, 0xFFFF⟩, { ready with host := { ready.host with held := [{ items := [.output 3], opcode := 0x0102, packet := pkt 0x0102 [put 63 32 77], accept := 4, sqHead := 1, since := 900 }] } }, by decide +kernel, by decide +kernel, by decide +kernel, rfl, by decide +kernel⟩,
   ⟨{ opcode := 0x0104, packet := pkt 0x0104 [1, 2], sqHead := 1, at_ := 900, handleOk := true }, echoCmd, 3, 0, 0, false, { ready with desk := { ready.desk with cur := some ⟨.packet { opcode := 0x0104, packet := pkt 0x0104 [1, 2], sqHead := 1, at_ := 900, handleOk := true }, some 3, 0, 0⟩ } }, by decide +kernel, by decide +kernel, rfl, by decide +kernel⟩,
   ⟨{ items := [.output 3], opcode := 0x0104, packet := pkt 0x0104 [1], accept := 4, sqHead := 1, since := 900 }, echoCmd, false, { ready with host := { ready.host with held := [{ items := [.output 3], opcode := 0x0104, packet := pkt 0x0104 [1], accept := 4, sqHead := 1, since := 900 }] } }, by decide +kernel, by decide +kernel, by decide +kernel, rfl, by decide +kernel, by decide +kernel⟩,
   ⟨{ opcode := 0x0104, packet := pkt 0x0104 [1, 2], sqHead := 1, at_ := 900, handleOk := true, parked := some 950 }, { opcode := 0x0104, packet := pkt 0x0104 [1, 2], sqHead := 1, at_ := 950, handleOk := true }, (State.unparkPacket { opcode := 0x0104, packet := pkt 0x0104 [1, 2], sqHead := 1, at_ := 900, handleOk := true, parked := some 950 } (State.parkDue ({ ready with host := { ready.host with waiting := [{ opcode := 0x0104, packet := pkt 0x0104 [1, 2], sqHead := 1, at_ := 900, handleOk := true, parked := some 950 }] } }))).2, echoCmd, false, { ready with host := { ready.host with waiting := [{ opcode := 0x0104, packet := pkt 0x0104 [1, 2], sqHead := 1, at_ := 900, handleOk := true, parked := some 950 }] } }, by decide +kernel, by decide +kernel, by decide +kernel, by decide +kernel, Prod.ext (by decide +kernel) rfl, rfl, by decide +kernel, by decide +kernel⟩,
   ⟨echoCmd, { opcode := 0x0104, packet := pkt 0x0104 [1, 2], sqHead := 1, at_ := 900, handleOk := true }, [], true, { ready with host := { ready.host with fetched := [{ opcode := 0x0104, packet := pkt 0x0104 [1, 2], sqHead := 1, at_ := 900, handleOk := true }] } }, by decide +kernel, by decide +kernel, by decide +kernel, by decide +kernel, by decide +kernel, by decide +kernel, by decide +kernel, by decide +kernel, rfl, by decide +kernel, by decide +kernel⟩,
   ⟨{ opcode := 0x01FF, packet := pkt 0x01FF [1, 2], sqHead := 1, at_ := 900, handleOk := true }, [], { ready with host := { ready.host with fetched := [{ opcode := 0x01FF, packet := pkt 0x01FF [1, 2], sqHead := 1, at_ := 900, handleOk := true }] } }, by decide +kernel⟩⟩

/-- Every premise of `KeeperDecides` is met. -/
theorem witness_KeeperDecides :
    (∃ u stall, Met (.heartbeatToggle u true stall) (fun s => stall.toNat < 1600 ∧ ((s.getUnit u).st = .active ∨ (s.getUnit u).st = .standby ∨ (s.getUnit u).st = .resync) ∧ (s.getUnit u).released = false ∧ s.now ≤ (s.getUnit u).hbAt + 2000)) ∧
    (∃ u watchdog stall, Met (.heartbeatToggle u watchdog stall) (fun s => (watchdog = false ∨ 1600 ≤ stall.toNat) ∧ ((s.getUnit u).st = .active ∨ (s.getUnit u).st = .standby ∨ (s.getUnit u).st = .resync) ∧ (s.getUnit u).released = false ∧ s.now ≤ (s.getUnit u).hbAt + 2000)) ∧
    (∃ u w stall, Met (.heartbeatToggle u w stall) (fun s => (s.getUnit u).released = true)) ∧
    (∃ u, Met (.heartbeatMissing u) (fun s => ((s.getUnit u).st = .active ∨ (s.getUnit u).st = .standby ∨ (s.getUnit u).st = .resync) ∧ (s.getUnit u).hbMissing = false ∧ s.now ≤ (s.getUnit u).hbAt + 6000)) ∧
    (∃ u, Met (.tokenClaim u) (fun _ => True)) ∧
    (∃ h, Met .keeperDecision (fun s => s.units.token = some h ∧ (s.getUnit h).hbMissing = false ∧ (s.getUnit h).released = false ∧ (s.getUnit (otherUnit h)).eligible = true)) ∧
    (∃ h, Met .keeperDecision (fun s => s.units.token = some h ∧ ((s.getUnit h).hbMissing = true ∨ (s.getUnit h).released = true) ∧ (s.getUnit (otherUnit h)).eligible = true)) ∧
    (∃ h, Met .keeperDecision (fun s => s.units.token = some h ∧ ((s.getUnit h).hbMissing = true ∨ (s.getUnit h).released = true) ∧ (s.getUnit (otherUnit h)).eligible = false)) ∧
    (Met .keeperDecision (fun s => s.units.token = none ∧ s.units.a.eligible = true)) ∧
    (Met .keeperDecision (fun s => s.units.token = none ∧ s.units.a.eligible = false ∧ s.units.b.eligible = true)) ∧
    (∃ v, Met (.keeperVoterFault v) (fun s => s.units.voters[v.val] = true)) :=
  ⟨⟨.cua, 0, ready, by decide +kernel⟩,
   ⟨.cua, true, 1600, ready, by decide +kernel⟩,
   ⟨.cua, true, 0, { ready with units := { ready.units with a := { st := .active, released := true } } }, by decide +kernel⟩,
   ⟨.cub, ready, by decide +kernel⟩,
   ⟨.cub, ready, by decide +kernel⟩,
   ⟨.cua, { ready with units := { ready.units with a := { st := .active }, b := { st := .standby, synced := true, claim := true } } }, by decide +kernel⟩,
   ⟨.cua, { ready with units := { ready.units with a := { st := .active, hbMissing := true }, b := { st := .standby, synced := true, claim := true } } }, by decide +kernel⟩,
   ⟨.cua, { ready with units := { ready.units with a := { st := .active, hbMissing := true }, b := { st := .failed } } }, by decide +kernel⟩,
   ⟨{ ready with units := { ready.units with a := { st := .standby, synced := true, claim := true }, b := { st := .standby, synced := true, claim := true }, token := none } }, by decide +kernel⟩,
   ⟨{ ready with units := { ready.units with a := { st := .failed }, b := { st := .standby, synced := true, claim := true }, token := none } }, by decide +kernel⟩,
   ⟨2, ready, by decide +kernel⟩⟩

/-- Every premise of `UnitEventsComplete` is met. -/
theorem witness_UnitEventsComplete :
    MetBy unitSwitchoverCmd (fun _ p => fld (wordAt p.payload 0) 63 62 = 0) ∧
    MetBy unitSwitchoverCmd (fun _ p => fld (wordAt p.payload 0) 63 62 = 1) ∧
    MetBy unitSwitchoverCmd (fun _ p => fld (wordAt p.payload 0) 63 62 = 2) ∧
    (Met .switchover (fun s => s.units.switching = true ∧ s.now ≤ s.units.movedAt + 13500)) ∧
    (Met .standbyAckTimeout (fun s => s.standbyPresent = true)) ∧
    (Met .journalParityError (fun s => s.standbyPresent = true)) ∧
    (Met (.standbyProof true) (fun s => s.standbyPresent = true ∧ s.now ≤ s.units.proofAt + 60000000000)) ∧
    (Met (.standbyProof false) (fun s => s.standbyPresent = true ∧ s.now ≤ s.units.proofAt + 60000000000)) ∧
    (∃ u n, Met (.unitRestart u) (fun s => (s.getUnit u).st = .fenced ∧ (s.getUnit u).fencedAt = some n ∧ s.now ≤ n + 1000000)) ∧
    (∃ u, Met (.unitSelftestEnd u false) (fun s => (s.getUnit u).st = .selftest ∧ s.units.token = some (otherUnit u))) ∧
    (∃ u, Met (.unitSelftestEnd u true) (fun s => (s.getUnit u).st = .selftest ∧ s.units.token = some (otherUnit u) ∧ s.boot.phase < 4)) ∧
    (Met (.unitSelftestEnd .cua true) (fun s => s.units.a.st = .selftest ∧ s.units.token = none ∧ s.boot.phase ≤ 2)) ∧
    (Met (.unitSelftestEnd .cub true) (fun s => s.units.b.st = .selftest ∧ s.units.a.st = .failed ∧ s.units.token = none ∧ s.boot.phase ≤ 2)) ∧
    (Met (.unitSelftestEnd .cub false) (fun s => s.units.b.st = .selftest ∧ s.units.a.st = .failed ∧ s.units.token = none ∧ s.boot.phase ≤ 2)) ∧
    (∃ u b, Met (.unitSelftestEnd u b) (fun s => (s.getUnit u).st = .selftest ∧ s.units.token = none ∧ 4 ≤ s.boot.phase)) ∧
    (∃ u, Met (.resyncEnd u) (fun s => (s.getUnit u).st = .resync ∧ s.units.token = some (otherUnit u) ∧ 4 ≤ s.boot.phase)) :=
  ⟨⟨ready, pkt 0x1004 [0], by decide +kernel, by decide +kernel⟩,
   ⟨{ ready with units := { ready.units with b := { st := .failed } } }, pkt 0x1004 [put 63 62 1], by decide +kernel, by decide +kernel⟩,
   ⟨ready, pkt 0x1004 [put 63 62 2], by decide +kernel, by decide +kernel⟩,
   ⟨{ ready with units := { ready.units with switching := true, movedAt := 900 } }, by decide +kernel⟩,
   ⟨ready, by decide +kernel⟩,
   ⟨ready, by decide +kernel⟩,
   ⟨ready, by decide +kernel⟩,
   ⟨ready, by decide +kernel⟩,
   ⟨.cub, 900, { ready with units := { ready.units with b := { st := .fenced, fencedAt := some 900 } } }, by decide +kernel⟩,
   ⟨.cub, { ready with units := { ready.units with b := { st := .selftest } } }, by decide +kernel⟩,
   ⟨.cub, { ready with units := { ready.units with b := {} }, boot := { ready.boot with phase := 2 } }, by decide +kernel⟩,
   ⟨{ ready with units := { ready.units with a := {}, b := {}, token := none }, boot := { ready.boot with phase := 2 } }, by decide +kernel⟩,
   ⟨{ ready with units := { ready.units with a := { st := .failed }, b := {}, token := none }, boot := { ready.boot with phase := 2 } }, by decide +kernel⟩,
   ⟨{ ready with units := { ready.units with a := { st := .failed }, b := {}, token := none }, boot := { ready.boot with phase := 2 } }, by decide +kernel⟩,
   ⟨.cua, false, { ready with units := { ready.units with a := {}, b := { st := .failed }, token := none } }, by decide +kernel⟩,
   ⟨.cub, { ready with units := { ready.units with b := { st := .resync } } }, by decide +kernel⟩⟩

/-- Every premise of `MachineCheckCompletes` is met. -/
theorem witness_MachineCheckCompletes :
    (∃ cause addr tail u, Met (.machineCheck cause addr tail) (fun s => s.units.token = some u ∧ (s.deskUp .internal = false ∨ s.parkDue.nextJob = none))) ∧
    (∃ cause addr u r, Met (.machineCheck cause addr false) (fun s => s.units.token = some u ∧ s.deskUp .internal = true ∧ s.parkDue.nextJob = some r ∧ r.checks = 0)) ∧
    (∃ cause addr u r, Met (.machineCheck cause addr false) (fun s => s.units.token = some u ∧ s.deskUp .internal = true ∧ s.parkDue.nextJob = some r ∧ r.checks ≠ 0 ∧ s.standbyPresent = true)) ∧
    (∃ cause addr u f a k n, Met (.machineCheck cause addr false) (fun s => s.units.token = some u ∧ s.deskUp .internal = true ∧ k ≠ 0 ∧ s.standbyPresent = false ∧ s.desk.cur = some { job := .packet f, accept := some a, checks := k, abandons := n } ∧ f.silent = false ∧ f.ringFault = false ∧ (s.queue f.packet.source).qstate ≠ .disabled)) ∧
    (∃ cause addr u r, Met (.machineCheck cause addr true) (fun s => s.units.token = some u ∧ s.deskUp .internal = true ∧ s.parkDue.nextJob = some r)) ∧
    (∃ r l u, Met .repairRequest (fun s => s.units.repairs = r :: l ∧ s.units.token = some u ∧ (s.deskUp .internal = false ∨ s.parkDue.nextJob = none))) ∧
    (∃ r l u j, Met .repairRequest (fun s => s.units.repairs = r :: l ∧ s.units.token = some u ∧ s.deskUp .internal = true ∧ s.parkDue.nextJob = some j ∧ j.abandons < 4)) ∧
    (∃ r l u j, Met .repairRequest (fun s => s.units.repairs = r :: l ∧ s.units.token = some u ∧ s.deskUp .internal = true ∧ s.parkDue.nextJob = some j ∧ 4 ≤ j.abandons)) :=
  ⟨⟨.stagingParity, 7, false, .cua, ready, by decide +kernel⟩,
   ⟨.stagingParity, 7, .cua, { job := .packet { opcode := 0x0104, packet := pkt 0x0104 [1, 2], sqHead := 1, at_ := 900, handleOk := true } }, { ready with units := { ready.units with switching := false }, host := { ready.host with fetched := [{ opcode := 0x0104, packet := pkt 0x0104 [1, 2], sqHead := 1, at_ := 900, handleOk := true }] } }, by decide +kernel⟩,
   ⟨.stagingParity, 7, .cua, { job := .packet { opcode := 0x0104, packet := pkt 0x0104 [1, 2], sqHead := 1, at_ := 900, handleOk := true }, accept := some 4, checks := 1 }, { ready with units := { ready.units with switching := false }, desk := { ready.desk with cur := some { job := .packet { opcode := 0x0104, packet := pkt 0x0104 [1, 2], sqHead := 1, at_ := 900, handleOk := true }, accept := some 4, checks := 1 } } }, by decide +kernel⟩,
   ⟨.stagingParity, 7, .cua, { opcode := 0x0104, packet := pkt 0x0104 [1, 2], sqHead := 1, at_ := 900, handleOk := true }, 4, 1, 0, { ready with units := { ready.units with b := { st := .failed } }, desk := { ready.desk with cur := some { job := .packet { opcode := 0x0104, packet := pkt 0x0104 [1, 2], sqHead := 1, at_ := 900, handleOk := true }, accept := some 4, checks := 1 } } }, by decide +kernel⟩,
   ⟨.stagingParity, 7, .cua, { job := .packet { opcode := 0x0104, packet := pkt 0x0104 [1, 2], sqHead := 1, at_ := 900, handleOk := true } }, { ready with units := { ready.units with switching := false }, host := { ready.host with fetched := [{ opcode := 0x0104, packet := pkt 0x0104 [1, 2], sqHead := 1, at_ := 900, handleOk := true }] } }, by decide +kernel⟩,
   ⟨.seqProgram 3 9, [], .cua, { ready with units := { ready.units with repairs := [.seqProgram 3 9] } }, by decide +kernel⟩,
   ⟨.seqProgram 3 9, [], .cua, { job := .packet { opcode := 0x0104, packet := pkt 0x0104 [1, 2], sqHead := 1, at_ := 900, handleOk := true } }, { ready with units := { ready.units with repairs := [.seqProgram 3 9] }, host := { ready.host with fetched := [{ opcode := 0x0104, packet := pkt 0x0104 [1, 2], sqHead := 1, at_ := 900, handleOk := true }] } }, by decide +kernel⟩,
   ⟨.seqProgram 3 9, [], .cua, { job := .packet { opcode := 0x0104, packet := pkt 0x0104 [1, 2], sqHead := 1, at_ := 900, handleOk := true }, accept := some 4, abandons := 4 }, { ready with units := { ready.units with repairs := [.seqProgram 3 9] }, desk := { ready.desk with cur := some { job := .packet { opcode := 0x0104, packet := pkt 0x0104 [1, 2], sqHead := 1, at_ := 900, handleOk := true }, accept := some 4, abandons := 4 } } }, by decide +kernel⟩⟩

/-- Every premise of `ServiceLanesComplete` is met. -/
theorem witness_ServiceLanesComplete :
    (∃ u d, Met (.serviceLaneFailure u d) (fun s => s.hasDie d.val = true ∧ (s.getUnit u).groups[d.val].up = true ∧ s.units.token = some u ∧ s.standbyPresent = true ∧ (s.getUnit (otherUnit u)).groups[d.val].up = true)) ∧
    (∃ u d, Met (.serviceLaneFailure u d) (fun s => s.hasDie d.val = true ∧ (s.getUnit u).groups[d.val].up = true ∧ s.units.token = some u ∧ s.standbyPresent = false)) ∧
    (∃ d up, Met (.serviceLaneRetrain d up) (fun s => s.hasDie d.val = true ∧ (s.group d).up = false ∧ s.now ≤ (s.group d).lastRetrain + 1000000)) ∧
    (∃ u d, Met (.serviceLaneUp u d) (fun s => s.hasDie d.val = true ∧ (s.getUnit u).groups[d.val].up = false)) ∧
    (∃ d n, Met (.serviceLaneHoldTimeout d) (fun s => (s.group d).failedAt = some n ∧ (s.group d).dead = false ∧ s.now ≤ n + 100000000)) :=
  ⟨⟨.cua, 1, ready, by decide +kernel⟩,
   ⟨.cua, 1, { ready with units := { ready.units with b := { st := .failed } } }, by decide +kernel⟩,
   ⟨1, true, { ready with units := { ready.units with a := { st := .active, groups := (Vector.replicate 4 {}).set 1 { up := false, failedAt := some 500 } } } }, by decide +kernel⟩,
   ⟨.cua, 1, { ready with units := { ready.units with a := { st := .active, groups := (Vector.replicate 4 {}).set 1 { up := false, failedAt := some 500 } } } }, by decide +kernel⟩,
   ⟨1, 500, { ready with units := { ready.units with a := { st := .active, groups := (Vector.replicate 4 {}).set 1 { up := false, failedAt := some 500 } } } }, by decide +kernel⟩⟩

/-- Sequencer 3 in a shot at address 2, about to issue in tick 1010. -/
def running : Seq :=
  { mode := .running, nextIssue := 1010, sst := 1000, t := 1005, pc := 2, limit := 9, shotsLeft := none, armedAt := 900 }

/-- `ready` with sequencer 3 as given. -/
def seq3 (c : Seq) : State := ready.modSeq 3 fun _ => c

/-- A timed instruction word: its opcode, an offset of 100 ticks in time mode 1, sub-tick 3 where it has one. -/
def timed (op sub : Nat) (w : Word) : Word := orAll [put 63 56 op, put 55 53 1, put 52 49 sub, put 48 25 100, w]

/-- Every premise of `SequencerCommandsComplete` is met. -/
theorem witness_SequencerCommandsComplete :
    MetBy seqLoadCmd (fun _ _ => True) ∧
    MetBy seqBindCmd (fun _ _ => True) ∧
    MetBy seqArmCmd (fun s p => ∃ q e l, armList p = [(q, e, l)] ∧ bitAt (wordAt p.payload 0) 54 = false ∧ (s.sq q).inShot = true) ∧
    MetBy seqArmCmd (fun s p => ∃ q e l, armList p = [(q, e, l)] ∧ bitAt (wordAt p.payload 0) 54 = false ∧ (s.sq q).inShot = false ∧ (s.sq q).mode = .idle) ∧
    MetBy seqHaltCmd (fun s p => ∃ q ∈ seqMaskList p 1, (s.sq q).stepping = false ∧ (s.sq q).mode = .armed) ∧
    MetBy seqHaltCmd (fun s p => ∃ q ∈ seqMaskList p 1, (s.sq q).stepping = false ∧ (s.sq q).mode = .running ∧ fld (wordAt p.payload 0) 63 62 = 0) ∧
    MetBy seqHaltCmd (fun s p => ∃ q ∈ seqMaskList p 1, (s.sq q).stepping = false ∧ (s.sq q).mode = .running ∧ fld (wordAt p.payload 0) 63 62 = 1 ∧ (s.sq q).abort = none) ∧
    MetBy seqStatusCmd (fun _ p => bitAt (wordAt p.payload 0) 54 = false) ∧
    MetBy seqStatusCmd (fun _ p => bitAt (wordAt p.payload 0) 54 = true) :=
  ⟨⟨ready, pkt 0x0301 [orAll [put 63 56 3, put 55 44 4095, put 43 31 1], 0x42080000000000FF], by decide +kernel, by decide +kernel⟩,
   ⟨ready, pkt 0x0302 [put 63 56 3 ||| put 55 48 255, 0xC000C000C0000050, 0xC000C000C000C000], by decide +kernel, by decide +kernel⟩,
   ⟨{ (seq3 running) with time := { ready.time with epochValid := true } }, pkt 0x0303 [put 63 55 1 ||| put 53 48 62, put 63 32 5, orAll [put 63 56 3, put 55 44 0, put 43 32 9]], by decide +kernel, ⟨3, 0, 9, by decide +kernel⟩⟩,
   ⟨{ ready with time := { ready.time with epochValid := true } }, pkt 0x0303 [put 63 55 1 ||| put 53 48 62, put 63 32 5, orAll [put 63 56 3, put 55 44 0, put 43 32 9]], by decide +kernel, ⟨3, 0, 9, by decide +kernel⟩⟩,
   ⟨seq3 { running with mode := .armed }, pkt 0x0304 [0, 8, 0, 0, 0], by decide +kernel, by decide +kernel⟩,
   ⟨seq3 running, pkt 0x0304 [0, 8, 0, 0, 0], by decide +kernel, by decide +kernel⟩,
   ⟨seq3 running, pkt 0x0304 [put 63 62 1, 8, 0, 0, 0], by decide +kernel, by decide +kernel⟩,
   ⟨seq3 running, pkt 0x0305 [put 63 56 3], by decide +kernel, by decide +kernel⟩,
   ⟨seq3 { running with missed := 3 }, pkt 0x0305 [put 63 56 3 ||| put 54 54 1], by decide +kernel, by decide +kernel⟩⟩

/-- Every premise of `SequencerScalarResults` is met. -/
theorem witness_SequencerScalarResults :
    (∃ q, Met (.nop q) (fun s => s.ready q.val = some .nop)) ∧
    (∃ q gd ga gb fn, Met (.alu q) (fun s => s.ready q.val = some (.alu gd ga gb fn))) ∧
    (∃ q gd ga fn imm, Met (.alui q) (fun s => s.ready q.val = some (.alui gd ga fn imm))) ∧
    (∃ q gd hi imm, Met (.li q) (fun s => s.ready q.val = some (.li gd hi imm))) ∧
    (∃ q gd sr, Met (.movs q) (fun s => s.ready q.val = some (.movs gd sr))) :=
  ⟨⟨3, seq3 running, by decide +kernel⟩,
   ⟨3, 31, 4, 5, 1, seq3 { running with prog := [(2, orAll [put 63 56 0x40, put 55 51 31, put 50 46 4, put 45 41 5, put 40 36 1])] }, by decide +kernel⟩,
   ⟨3, 0, 4, 0, 0xFFFFFFFF80000000, seq3 { running with prog := [(2, orAll [put 63 56 0x41, put 50 46 4, put 31 0 0x80000000])] }, by decide +kernel⟩,
   ⟨3, 9, true, 0xFFFFFFFF, seq3 { running with prog := [(2, orAll [put 63 56 0x42, put 55 51 9, put 50 50 1, put 31 0 0xFFFFFFFF])] }, by decide +kernel⟩,
   ⟨3, 9, 6, seq3 { running with prog := [(2, orAll [put 63 56 0x43, put 55 51 9, put 50 46 6])] }, by decide +kernel⟩⟩

/-- Every premise of `SequencerTimedResults` is met. -/
theorem witness_SequencerTimedResults :
    (∃ q x rep folio, Met (.play q) (fun s => s.ready q.val = some (.play x rep folio) ∧ (x.tm ≠ 3 ∨ (s.sq q.val).stepping = true))) ∧
    (∃ q x rep folio, Met (.play q) (fun s => s.ready q.val = some (.play x rep folio) ∧ x.tm = 3 ∧ (s.sq q.val).stepping = false ∧ atN (s.sq q.val).tails x.bind none = none)) ∧
    (∃ q x rep folio y, Met (.play q) (fun s => s.ready q.val = some (.play x rep folio) ∧ x.tm = 3 ∧ (s.sq q.val).stepping = false ∧ atN (s.sq q.val).tails x.bind none = some y)) ∧
    (∃ q x gs, Met (.setf q) (fun s => s.ready q.val = some (.setf x gs))) ∧
    (∃ q x gs, Met (.setp q) (fun s => s.ready q.val = some (.setp x gs))) ∧
    (∃ q x src imm gs, Met (.frame q) (fun s => s.ready q.val = some (.frame x src imm gs))) ∧
    (∃ q x len capt, Met (.measure q) (fun s => s.ready q.val = some (.measure x len capt))) ∧
    (∃ q x tgt width, Met (.mark q) (fun s => s.ready q.val = some (.mark x tgt width))) :=
  ⟨⟨3, ⟨1, 3, 100, 0⟩, false, 7, seq3 { running with prog := [(2, timed 0x10 3 (put 20 5 7))] }, by decide +kernel⟩,
   ⟨3, ⟨3, 0, 0, 0⟩, false, 7, seq3 { running with prog := [(2, orAll [put 63 56 0x10, put 55 53 3, put 20 5 7])] }, by decide +kernel⟩,
   ⟨3, ⟨3, 0, 0, 0⟩, false, 7, ⟨16000, 640, true⟩, seq3 { running with prog := [(2, orAll [put 63 56 0x10, put 55 53 3, put 20 5 7])], tails := (Vector.replicate 8 none).set 0 (some ⟨16000, 640, true⟩) }, by decide +kernel⟩,
   ⟨3, ⟨1, 3, 100, 0⟩, 9, seq3 { running with prog := [(2, timed 0x11 3 (put 21 17 9))] }, by decide +kernel⟩,
   ⟨3, ⟨1, 3, 100, 0⟩, 9, seq3 { running with prog := [(2, timed 0x12 3 (put 21 17 9))] }, by decide +kernel⟩,
   ⟨3, ⟨1, 3, 100, 0⟩, false, 0xFFFF, 0, seq3 { running with prog := [(2, timed 0x13 3 (put 20 5 0xFFFF))] }, by decide +kernel⟩,
   ⟨3, ⟨1, 0, 100, 0⟩, 8192, true, seq3 { running with prog := [(2, timed 0x14 0 (put 21 8 8192 ||| put 7 7 1))] }, by decide +kernel⟩,
   ⟨3, ⟨1, 0, 100, 0⟩, 16, 255, seq3 { running with prog := [(2, timed 0x15 0 (put 24 19 16 ||| put 18 11 255))] }, by decide +kernel⟩⟩

/-- Every premise of `SequencerFlow` is met. -/
theorem witness_SequencerFlow :
    (∃ q cond ga gb tgt, Met (.br q) (fun s => s.ready q.val = some (.br cond ga gb tgt))) ∧
    (∃ q gc stop, Met (.loop q) (fun s => s.ready q.val = some (.loop false gc 0 stop))) ∧
    (∃ q gc count stop, Met (.loop q) (fun s => s.ready q.val = some (.loop false gc count stop) ∧ count ≠ 0 ∧ (s.sq q.val).loops.length < 4)) ∧
    (∃ q gc count stop, Met (.loop q) (fun s => s.ready q.val = some (.loop true gc count stop) ∧ 1048575 < ((s.sq q.val).reg gc).toNat)) ∧
    (∃ q gc count stop, Met (.loop q) (fun s => s.ready q.val = some (.loop false gc count stop) ∧ count ≠ 0 ∧ 4 ≤ (s.sq q.val).loops.length)) ∧
    (∃ q tgt, Met (.call q) (fun s => s.ready q.val = some (.call tgt) ∧ (s.sq q.val).calls.length < 8)) ∧
    (∃ q tgt, Met (.call q) (fun s => s.ready q.val = some (.call tgt) ∧ 8 ≤ (s.sq q.val).calls.length)) ∧
    (∃ q a l, Met (.ret q) (fun s => s.ready q.val = some .ret ∧ (s.sq q.val).calls = a :: l)) ∧
    (∃ q, Met (.ret q) (fun s => s.ready q.val = some .ret ∧ (s.sq q.val).calls = [])) ∧
    (∃ q last, Met (.seqEnd q) (fun s => s.ready q.val = some (.end_ last))) :=
  ⟨⟨3, 8, 1, 2, 4095, seq3 { running with prog := [(2, orAll [put 63 56 0x28, put 55 52 8, put 51 47 1, put 46 42 2, put 41 30 4095])] }, by decide +kernel⟩,
   ⟨3, 0, 9, seq3 { running with prog := [(2, orAll [put 63 56 0x29, put 29 18 9])] }, by decide +kernel⟩,
   ⟨3, 0, 1048575, 9, seq3 { running with prog := [(2, orAll [put 63 56 0x29, put 49 30 1048575, put 29 18 9])] }, by decide +kernel⟩,
   ⟨3, 4, 0, 9, seq3 { running with prog := [(2, orAll [put 63 56 0x29, put 55 55 1, put 54 50 4, put 29 18 9])], g := (Vector.replicate 32 0).set 4 1048576 }, by decide +kernel⟩,
   ⟨3, 0, 1, 9, seq3 { running with prog := [(2, orAll [put 63 56 0x29, put 49 30 1, put 29 18 9])], loops := List.replicate 4 ⟨1, 9, 2, 0⟩ }, by decide +kernel⟩,
   ⟨3, 7, seq3 { running with prog := [(2, orAll [put 63 56 0x2A, put 41 30 7])] }, by decide +kernel⟩,
   ⟨3, 7, seq3 { running with prog := [(2, orAll [put 63 56 0x2A, put 41 30 7])], calls := List.replicate 8 1 }, by decide +kernel⟩,
   ⟨3, 6, [1], seq3 { running with prog := [(2, put 63 56 0x2B)], calls := [6, 1] }, by decide +kernel⟩,
   ⟨3, seq3 { running with prog := [(2, put 63 56 0x2B)] }, by decide +kernel⟩,
   ⟨3, true, seq3 { running with prog := [(2, put 63 56 0x2F ||| put 55 55 1)] }, by decide +kernel⟩⟩

/-- Every premise of `SequencerWaits` is met. -/
theorem witness_SequencerWaits :
    (∃ q gm gr tmo tj tgt, Met (.wait q) (fun s => s.ready q.val = some (.wait gm gr tmo tj tgt))) ∧
    (∃ q w word m x v gm gr tmo tj tgt, Met (.waitResolve q) (fun s => s.stalled q.val = .wait w word m (some (x, v)) ∧ readSeq word = some (.wait gm gr tmo tj tgt) ∧ (tmo = 0 ∨ x ≤ w + tmo))) ∧
    (∃ q w word m gm gr tmo tj tgt, Met (.waitTimeout q) (fun s => s.stalled q.val = .wait w word m none ∧ readSeq word = some (.wait gm gr tmo tj tgt) ∧ tmo ≠ 0)) ∧
    (∃ q port smask dflt drel dl tgt gr, Met (.brv q) (fun s => s.ready q.val = some (.brv port smask 1 dflt drel dl tgt gr))) ∧
    (∃ q port smask dflt drel dl tgt gr, Met (.brv q) (fun s => s.ready q.val = some (.brv port smask 0 dflt drel dl tgt gr))) ∧
    (∃ q b word port smask mode dflt drel dl tgt gr v n, Met (.brvResolve q) (fun s => s.stalled q.val = .brv b word ∧ readSeq word = some (.brv port smask mode dflt drel dl tgt gr) ∧ port < 16 ∧ (atN (s.sq q.val).ports port {}).held = some (v, n) ∧ max b n + 1 ≤ (s.sq q.val).deadline drel dl ∧ vValid v = true ∧ vAbsent v = false)) ∧
    (∃ q b word port smask mode dflt drel dl tgt gr, Met (.brvDeadline q) (fun s => s.stalled q.val = .brv b word ∧ readSeq word = some (.brv port smask mode dflt drel dl tgt gr) ∧ port < 16 ∧ (atN (s.sq q.val).ports port {}).held = none ∧ s.unreachable q.val port = false)) ∧
    (∃ q v gd a dj drel dl tgt, Met (.lookup q) (fun s => s.ready q.val = some (.lookup v gd a dj drel dl tgt))) ∧
    (∃ q b word v gd a dj drel dl tgt n, Met (.lookupResolve q) (fun s => s.stalled q.val = .lookup b word ∧ readSeq word = some (.lookup v gd a dj drel dl tgt) ∧ (s.mem q.val).active.view = some n)) ∧
    (∃ q x word idx bank1 old taint v gd dj drel dl tgt n, Met (.lookupResult q 0) (fun s => s.stalled q.val = .lookupRun x word idx bank1 old false taint ∧ readSeq word = some (.lookup v gd false dj drel dl tgt) ∧ (s.mem q.val).active.view = some n ∧ s.conc.bad.contains (bank1, idx) = false ∧ turnedAway (atN s.conc.reads (seqCluster q.val) []) q.val = false)) :=
  ⟨⟨3, 4, 5, 100, false, 7, seq3 { running with prog := [(2, orAll [put 63 56 0x20, put 55 51 4, put 50 46 5, put 45 22 100, put 20 9 7])] }, by decide +kernel⟩,
   ⟨3, 1010, orAll [put 63 56 0x20, put 55 51 4, put 50 46 5, put 45 22 100, put 20 9 7], 1, 1110, 1, 4, 5, 100, false, 7, seq3 { running with stall := .wait 1010 (orAll [put 63 56 0x20, put 55 51 4, put 50 46 5, put 45 22 100, put 20 9 7]) 1 (some (1110, 1)) }, by decide +kernel⟩,
   ⟨3, 1010, orAll [put 63 56 0x20, put 55 51 4, put 50 46 5, put 45 22 100, put 20 9 7], 1, 4, 5, 100, false, 7, seq3 { running with stall := .wait 1010 (orAll [put 63 56 0x20, put 55 51 4, put 50 46 5, put 45 22 100, put 20 9 7]) 1 none }, by decide +kernel⟩,
   ⟨3, 0, 0, false, false, 0, 8, 0, seq3 { running with prog := [(2, orAll [put 63 56 0x21, put 47 46 1, put 19 8 8])] }, by decide +kernel⟩,
   ⟨3, 2, 2, false, false, 200, 8, 6, seq3 { running with prog := [(2, orAll [put 63 56 0x21, put 55 52 2, put 51 48 2, put 43 20 200, put 19 8 8, put 7 3 6])] }, by decide +kernel⟩,
   ⟨3, 1010, orAll [put 63 56 0x21, put 55 52 2, put 51 48 2, put 43 20 200, put 19 8 8, put 7 3 6], 2, 2, 0, false, false, 200, 8, 6, put 41 41 1, 1199, seq3 { running with stall := .brv 1010 (orAll [put 63 56 0x21, put 55 52 2, put 51 48 2, put 43 20 200, put 19 8 8, put 7 3 6]), ports := (Vector.replicate 16 {}).set 2 { held := some (put 41 41 1, 1199) } }, by decide +kernel⟩,
   ⟨3, 1010, orAll [put 63 56 0x21, put 55 52 2, put 51 48 2, put 43 20 200, put 19 8 8, put 7 3 6], 2, 2, 0, false, false, 200, 8, 6, seq3 { running with stall := .brv 1010 (orAll [put 63 56 0x21, put 55 52 2, put 51 48 2, put 43 20 200, put 19 8 8, put 7 3 6]) }, by decide +kernel⟩,
   ⟨3, 0, 5, false, false, false, 500, 8, seq3 { running with prog := [(2, orAll [put 63 56 0x22, put 51 47 5, put 43 20 500, put 19 8 8])] }, by decide +kernel⟩,
   ⟨3, 1010, orAll [put 63 56 0x22, put 51 47 5, put 43 20 500, put 19 8 8], 0, 5, false, false, false, 500, 8, 1, seq3 { running with stall := .lookup 1010 (orAll [put 63 56 0x22, put 51 47 5, put 43 20 500, put 19 8 8]) } |>.modMember 3 fun m => { m with active := { m.active with view := some 1 } }, by decide +kernel⟩,
   ⟨3, 1500, orAll [put 63 56 0x22, put 51 47 5, put 43 20 500, put 19 8 8], 7, true, false, true, 0, 5, false, false, 500, 8, 1, seq3 { running with stall := .lookupRun 1500 (orAll [put 63 56 0x22, put 51 47 5, put 43 20 500, put 19 8 8]) 7 true false false true } |>.modMember 3 fun m => { m with active := { m.active with view := some 1 } }, by decide +kernel⟩⟩

/-- Every premise of `SequencerEventsComplete` is met. -/
theorem witness_SequencerEventsComplete :
    (∃ q x b v i, Met (.cueExecute q) (fun s => firstCue (s.sq q.val).liveCues = some x ∧ x.act = .setf b v ∧ atN (s.sq q.val).active b .none = .drive i ∧ s.now ≤ s.dev x.stamp)) ∧
    (∃ q x b v i, Met (.cueExecute q) (fun s => firstCue (s.sq q.val).liveCues = some x ∧ x.act = .frame b v ∧ atN (s.sq q.val).active b .none = .probe i ∧ s.now ≤ s.dev x.stamp)) ∧
    (∃ q x b folio rep i, Met (.cueExecute q) (fun s => firstCue (s.sq q.val).liveCues = some x ∧ x.act = .play b folio rep ∧ atN (s.sq q.val).active b .none = .drive i ∧ s.now ≤ s.dev x.stamp)) ∧
    (∃ q x tgt width, Met (.cueExecute q) (fun s => firstCue (s.sq q.val).liveCues = some x ∧ x.act = .mark tgt width ∧ 8 ≤ tgt ∧ tgt < 16 ∧ s.now ≤ s.dev x.stamp)) ∧
    (∃ p n, Met (.markPulseEnd (.pin p)) (fun s => s.synth.pulse[p.val] = some n ∧ s.now ≤ n)) ∧
    (∃ q a n, Met (.markPulseEnd (.marker q)) (fun s => s.acq.marker[q.val] = some (a, n) ∧ s.now ≤ n + 1)) ∧
    (∃ q n, Met (.shotStart q) (fun s => (s.sq q.val).mode = .armed ∧ s.startEvent q.val = some n ∧ s.skips (s.cnt n) = false ∧ s.now ≤ n)) ∧
    (∃ q n src, Met (.shotStart q) (fun s => (s.sq q.val).mode = .armed ∧ (s.sq q.val).start = some (.source src) ∧ s.startEvent q.val = some n ∧ s.skips (s.cnt n) = true)) ∧
    (∃ q e, Met (.shotBoundary q) (fun s => (s.sq q.val).inShot = true ∧ (s.sq q.val).abort = none ∧ (s.sq q.val).ended = some e ∧ (s.sq q.val).cues = [] ∧ (s.sq q.val).sealed_ = none ∧ (s.sq q.val).haltWait = none ∧ (s.sq q.val).holdWait = none ∧ (s.sq q.val).debugWait = false ∧ (s.sq q.val).stepping = false ∧ s.now ≤ s.dev ((s.sq q.val).boundary e))) ∧
    (∃ q a, Met (.shotBoundary q) (fun s => (s.sq q.val).inShot = true ∧ (s.sq q.val).abort = some a ∧ a.cut = true ∧ a.code ≠ 1 ∧ a.code ≠ 2 ∧ a.rearm = false ∧ (s.sq q.val).sealed_ = none ∧ (s.sq q.val).debugWait = false ∧ (s.sq q.val).stepping = false ∧ s.now ≤ s.dev (a.at_ + 6))) ∧
    (∃ q a, Met (.shotBoundary q) (fun s => (s.sq q.val).inShot = true ∧ (s.sq q.val).abort = some a ∧ a.cut = true ∧ a.code = 1 ∧ s.now ≤ s.dev (a.at_ + 6) ∧ atN s.seqs.spare (seqCluster q.val) none = none)) ∧
    (∃ q a k, Met (.shotBoundary q) (fun s => (s.sq q.val).inShot = true ∧ (s.sq q.val).abort = some a ∧ a.cut = true ∧ a.code = 1 ∧ s.now ≤ s.dev (a.at_ + 6) ∧ atN s.seqs.spare (seqCluster q.val) none = some k)) ∧
    (∃ q a i, Met (.seqAbortCut q) (fun s => (s.sq q.val).abort = some a ∧ a.cut = false ∧ s.now ≤ s.dev (a.at_ + 5) ∧ Binding.drive i ∈ (s.sq q.val).active.toList)) ∧
    (∃ q, Met (.shotLengthLimit q) (fun s => (s.sq q.val).inShot = true ∧ (s.sq q.val).maxlen ≠ 0 ∧ (s.sq q.val).abort = none ∧ (s.sq q.val).ended = none ∧ s.now ≤ s.dev ((s.sq q.val).sst.toNat + (s.sq q.val).maxlen))) ∧
    (∃ q, Met (.lockstepMiscompare q) (fun s => (s.sq q.val).inShot = true ∧ (s.sq q.val).abort = none)) ∧
    (∃ q n arm, Met (.sparePairRestoreEnd q) (fun s => (s.sq q.val).restore = some (n, arm) ∧ (s.sq q.val).debugWait = false ∧ s.now ≤ n + 32)) ∧
    (∃ q addr, Met (.programMemoryError q addr true) (fun _ => True)) ∧
    (∃ q addr, Met (.programMemoryError q addr false) (fun s => (s.sq q.val).inShot = true ∧ (s.sq q.val).abort = none)) ∧
    (∃ q, Met (.debugSequencerHalt q) (fun s => s.debugLevel 2 = true ∧ (s.sq q.val).mode = .running)) ∧
    (∃ q, Met (.debugSequencerHalt q) (fun s => s.debugLevel 2 = true ∧ (s.sq q.val).mode = .armed)) ∧
    (∃ q, Met (.debugSequencerHalt q) (fun s => s.debugLevel 2 = false)) ∧
    (∃ q i, Met (.debugSequencerStep q) (fun s => s.debugLevel 2 = true ∧ (s.sq q.val).mode = .debugHalted ∧ (s.sq q.val).stepping = true ∧ s.ready q.val = some i)) ∧
    (∃ q, Met (.debugSequencerStep q) (fun s => s.debugLevel 2 = true ∧ (s.sq q.val).mode = .debugHalted ∧ (s.sq q.val).stepping = false ∧ (s.sq q.val).rearmDue = true)) :=
  ⟨⟨3, ⟨.setf 0 99, 1100, 2⟩, 0, 99, 5, seq3 { running with cues := [⟨.setf 0 99, 1100, 2⟩], active := (Vector.replicate 8 Binding.none).set 0 (.drive 5) }, by decide +kernel⟩,
   ⟨3, ⟨.frame 0 99, 1100, 2⟩, 0, 99, 5, seq3 { running with cues := [⟨.frame 0 99, 1100, 2⟩], active := (Vector.replicate 8 Binding.none).set 0 (.probe 5) }, by decide +kernel⟩,
   ⟨3, ⟨.play 0 7 false, 1100, 2⟩, 0, 7, false, 5, seq3 { running with cues := [⟨.play 0 7 false, 1100, 2⟩], active := (Vector.replicate 8 Binding.none).set 0 (.drive 5) }, by decide +kernel⟩,
   ⟨3, ⟨.mark 15 255, 1100, 0⟩, 15, 255, seq3 { running with cues := [⟨.mark 15 255, 1100, 0⟩] }, by decide +kernel⟩,
   ⟨2, 1200, { ready with synth := { ready.synth with pulse := ready.synth.pulse.set 2 (some 1200) } }, by decide +kernel⟩,
   ⟨3, 1000, 1200, { ready with acq := { ready.acq with marker := ready.acq.marker.set 3 (some (1000, 1200)) } }, by decide +kernel⟩,
   ⟨3, 1100, seq3 { running with mode := .armed, armedAt := 1100, start := some .immediate }, by decide +kernel⟩,
   ⟨3, 1000, 0, { seq3 { running with mode := .armed, start := some (.source 0) } with seqs := { (seq3 { running with mode := .armed, start := some (.source 0) }).seqs with events := (Vector.replicate 52 none).set 0 (some 1000) }, thermal := { ready.thermal with level := .throttle, step := 4 } }, by decide +kernel⟩,
   ⟨3, { at_ := 1010, last := true }, seq3 { running with ended := some { at_ := 1010, last := true } }, by decide +kernel⟩,
   ⟨3, { at_ := 1005, code := 6, cut := true, rearm := false }, seq3 { running with abort := some { at_ := 1005, code := 6, cut := true, rearm := false } }, by decide +kernel⟩,
   ⟨3, { at_ := 1005, code := 1, cut := true, rearm := false }, seq3 { running with abort := some { at_ := 1005, code := 1, cut := true, rearm := false } }, by decide +kernel⟩,
   ⟨3, { at_ := 1005, code := 1, cut := true, rearm := false }, 5, { (seq3 { running with abort := some { at_ := 1005, code := 1, cut := true, rearm := false } }) with seqs := { (seq3 { running with abort := some { at_ := 1005, code := 1, cut := true, rearm := false } }).seqs with spare := (Vector.replicate 8 none).set 0 (some 5) } }, by decide +kernel⟩,
   ⟨3, { at_ := 1005, code := 6, cut := false, rearm := false }, 5, seq3 { running with abort := some { at_ := 1005, code := 6, cut := false, rearm := false }, active := (Vector.replicate 8 Binding.none).set 7 (.drive 5) }, by decide +kernel⟩,
   ⟨3, seq3 { running with maxlen := 500 }, by decide +kernel⟩,
   ⟨3, seq3 running, by decide +kernel⟩,
   ⟨3, 980, true, seq3 { running with mode := .idle, restore := some (980, true) }, by decide +kernel⟩,
   ⟨3, 4095, seq3 running, by decide +kernel⟩,
   ⟨3, 4095, seq3 running, by decide +kernel⟩,
   ⟨3, { seq3 running with host := { ready.host with sessions := [{ func := 9, serial := 1, label := 0, level := 2 }] } }, by decide +kernel⟩,
   ⟨3, { seq3 { running with mode := .armed } with host := { ready.host with sessions := [{ func := 9, serial := 1, label := 0, level := 2 }] } }, by decide +kernel⟩,
   ⟨3, seq3 running, by decide +kernel⟩,
   ⟨3, .nop, { seq3 { running with mode := .debugHalted, stepping := true } with host := { ready.host with sessions := [{ func := 9, serial := 1, label := 0, level := 2 }] } }, by decide +kernel⟩,
   ⟨3, { seq3 { running with mode := .debugHalted, rearmDue := true } with host := { ready.host with sessions := [{ func := 9, serial := 1, label := 0, level := 2 }] } }, by decide +kernel⟩⟩

/-- `ready` with output 3 as given, the rest unmuted by the lock. -/
def out3 (x : Output) : State := ready.modOut 3 fun _ => x

/-- A complete folio with a body: 1,000,000 samples at one sample every 16 DAC samples. -/
def bigFolio : Folio := { state := .complete, rate := 1048576, n := 1000000 }

/-- Sequencer 3 plays folio 7 from main memory on binding 0, drive slot 5. -/
def streams : State :=
  let s := ready.modSeq 3 fun c => { c with mode := .running, active := c.active.set 0 (.drive 5) }
  let s := s.modSlot (.drive 5) fun x => { x with playing := some ⟨7, 16000, 16000000, false, none, []⟩ }
  let s := s.modPlans 3 fun p => { p with active := { list := [(0, 7)] } }
  { s with wave := { s.wave with folios := [(7, bigFolio)] } }

/-- Every premise of `SynthesisCommandsComplete` is met. -/
theorem witness_SynthesisCommandsComplete :
    MetBy toneConfigCmd (fun _ p => ∃ i o x, toneList p = [.slot (.drive i) o x]) ∧
    MetBy toneConfigCmd (fun _ p => ∃ i o x, toneList p = [.slot (.probe i) o x]) ∧
    MetBy toneConfigCmd (fun _ p => ∃ o g, toneList p = [.output o g] ∧ o < 96) ∧
    MetBy xtalkMatrixCmd (fun _ _ => True) ∧
    MetBy outputEnableCmd (fun _ p => ∃ r, outList p = [r] ∧ r.o < 96 ∧ r.action = 0) ∧
    MetBy outputEnableCmd (fun s p => ∃ r, outList p = [r] ∧ r.o < 96 ∧ r.action = 1 ∧ (s.out r.o).core = .on) ∧
    MetBy outputEnableCmd (fun s p => ∃ r, outList p = [r] ∧ r.o < 96 ∧ r.action = 1 ∧ (s.out r.o).core = .off) ∧
    MetBy outputEnableCmd (fun s p => ∃ r, outList p = [r] ∧ r.o < 96 ∧ r.action = 2 ∧ (s.out r.o).core = .on) :=
  ⟨⟨ready, pkt 0x0401 [put 63 54 1, orAll [put 61 56 3, put 55 52 7, put 51 50 1, 99], put 31 16 0x8000], by decide +kernel, ⟨31, 3, { role := .tone, ftw := 99, amp := 0x8000#16 }, by decide +kernel⟩⟩,
   ⟨ready, pkt 0x0401 [put 63 54 1, orAll [put 62 62 1, put 61 56 31, put 55 52 15, put 51 50 1, 99], put 31 16 0x8000], by decide +kernel, ⟨511, 95, { role := .tone, ftw := 99, amp := 0x8000#16 }, by decide +kernel⟩⟩,
   ⟨ready, pkt 0x0401 [put 63 54 1, orAll [put 63 63 1, put 62 62 1, put 61 56 31, put 31 16 0x8000, 5], 0], by decide +kernel, ⟨95, { gain := 0x8000#16, offset := 5 }, by decide +kernel⟩⟩,
   ⟨ready, pkt 0x0402 [put 63 61 2 ||| put 60 57 1, orAll [put 63 60 1, put 59 53 0, put 52 45 1], put 63 32 0x3F000000], by decide +kernel, by decide +kernel⟩,
   ⟨ready, pkt 0x0403 [put 63 57 1, orAll [put 62 57 3, put 56 54 0, put 51 44 10]], by decide +kernel, ⟨⟨3, 0, false, false, 10⟩, by decide +kernel⟩⟩,
   ⟨ready, pkt 0x0403 [put 63 57 1, orAll [put 62 57 3, put 56 54 1, put 51 44 10]], by decide +kernel, ⟨⟨3, 1, false, false, 10⟩, by decide +kernel⟩⟩,
   ⟨out3 { core := .off }, pkt 0x0403 [put 63 57 1, orAll [put 62 57 3, put 56 54 1, put 51 44 10]], by decide +kernel, ⟨⟨3, 1, false, false, 10⟩, by decide +kernel⟩⟩,
   ⟨ready, pkt 0x0403 [put 63 57 1, orAll [put 63 63 1, put 62 57 31, put 56 54 2, put 51 44 255]], by decide +kernel, ⟨⟨95, 2, false, false, 255⟩, by decide +kernel⟩⟩⟩

/-- Every premise of `SynthesisEventsComplete` is met. -/
theorem witness_SynthesisEventsComplete :
    (∃ o r, Met (.outputRampEnd o) (fun s => (s.out o.val).ramping = some r ∧ r.up = false ∧ s.now ≤ r.at_ + r.len)) ∧
    (∃ o n, Met (.outputRampEnd o) (fun s => (s.out o.val).ramping = none ∧ (s.out o.val).core = .dropping n ∧ s.now ≤ n)) ∧
    (∃ o r, Met (.outputRampUpEnd o) (fun s => (s.out o.val).ramping = some r ∧ r.up = true ∧ s.now ≤ r.at_ + r.len)) ∧
    (∃ o n, Met (.dacCoreSettled o) (fun s => (s.out o.val).core = .powering n)) ∧
    (∃ o, Met (.dacCoreFault o) (fun s => (s.out o.val).failed = false ∧ (s.out o.val).faultMute = false ∧ (s.out o.val).core ≠ .off ∧ s.hasCluster (outCluster o.val) = true ∧ (s.out o.val).onSpare = false ∧ atN s.synth.spareFailed (outCluster o.val) false = false ∧ s.dacSpare (outCluster o.val) = .free ∧ s.calHead (outDie o.val) = none)) ∧
    (∃ o, Met (.dacCoreFault o) (fun s => (s.out o.val).failed = false ∧ (s.out o.val).faultMute = false ∧ (s.out o.val).core ≠ .off ∧ s.hasCluster (outCluster o.val) = true ∧ (s.out o.val).onSpare = false ∧ atN s.synth.spareFailed (outCluster o.val) false = true)) ∧
    (∃ o n, Met (.dacFaultSwapEnd o) (fun s => s.dacSpare (outCluster o.val) = .starting o.val n ∧ s.now ≤ n + 10016)) ∧
    (∃ k o n, Met (.sparePrepared k) (fun s => s.dacSpare k.val = .preparing o n ∧ s.now ≤ n + 100000)) ∧
    (∃ o n, Met (.dacPlannedSwap o) (fun s => s.dacSpare (outCluster o.val) = .ready o.val n ∧ (s.hearCluster s.now (outCluster o.val)).quietOut o.val s.now = true)) ∧
    (∃ o n, Met (.dacPlannedSwap o) (fun s => s.dacSpare (outCluster o.val) = .ready o.val n ∧ (s.hearCluster s.now (outCluster o.val)).quietOut o.val s.now = false)) ∧
    (∃ o n, Met (.dacPlannedSwapEnd o) (fun s => s.dacSpare (outCluster o.val) = .swapping o.val n false ∧ s.now ≤ n + 16)) ∧
    (∃ k o n, Met (.plannedSwapAbandon k) (fun s => s.dacSpare k.val = .ready o n ∧ s.now ≤ n + 100000000 ∧ (s.calOf (dieOf k.val)).run = none)) :=
  ⟨⟨3, ⟨900, 160, false, 1, 1⟩, out3 { ramping := some ⟨900, 160, false, 1, 1⟩ }, by decide +kernel⟩,
   ⟨3, 1100, out3 { core := .dropping 1100 }, by decide +kernel⟩,
   ⟨3, ⟨900, 160, true, 1, 1⟩, out3 { ramping := some ⟨900, 160, true, 1, 1⟩, cmdMute := false }, by decide +kernel⟩,
   ⟨3, 900, out3 { core := .powering 900 }, by decide +kernel⟩,
   ⟨3, ready, by decide +kernel⟩,
   ⟨3, { ready with synth := { ready.synth with spareFailed := ready.synth.spareFailed.set 0 true } }, by decide +kernel⟩,
   ⟨3, 900, { ready with synth := { ready.synth with spare := ready.synth.spare.set 0 (.starting 3 900) } }, by decide +kernel⟩,
   ⟨0, 3, 900, { ready with synth := { ready.synth with spare := ready.synth.spare.set 0 (.preparing 3 900) } }, by decide +kernel⟩,
   ⟨3, 900, { ready with synth := { ready.synth with spare := ready.synth.spare.set 0 (.ready 3 900) } }, by decide +kernel⟩,
   ⟨3, 900, { (out3 { heardTo := 16000, constFrom := 16000 }) with synth := { (out3 { heardTo := 16000, constFrom := 16000 }).synth with spare := (out3 { heardTo := 16000, constFrom := 16000 }).synth.spare.set 0 (.ready 3 900) } }, by decide +kernel⟩,
   ⟨3, 990, { ready with synth := { ready.synth with spare := ready.synth.spare.set 0 (.swapping 3 990 false) } }, by decide +kernel⟩,
   ⟨0, 3, 900, { ready with synth := { ready.synth with spare := ready.synth.spare.set 0 (.ready 3 900) } }, by decide +kernel⟩⟩

/-- Every premise of `WaveformCommandsComplete` is met. -/
theorem witness_WaveformCommandsComplete :
    MetBy folioWriteCmd (fun _ p => fwMode p = 0) ∧
    MetBy folioWriteCmd (fun _ p => fwMode p = 1) ∧
    MetBy folioWriteCmd (fun _ p => fwMode p = 2) ∧
    MetBy shelfPinCmd (fun _ p => pinAction p = 0) ∧
    MetBy shelfPinCmd (fun _ p => pinAction p = 1 ∧ pinList p ≠ []) ∧
    MetBy shelfPinCmd (fun _ p => pinAction p = 2) ∧
    MetBy streamPlanCmd (fun _ _ => True) :=
  ⟨⟨ready, pkt 0x0501 [orAll [put 55 40 65535, put 39 16 16384], put 63 40 1, put 39 26 1, 0x1234], by decide +kernel, by decide +kernel⟩,
   ⟨{ ready with wave := { ready.wave with folios := [(7, { state := .complete, rate := 1048576, n := 1 })] } }, pkt 0x0501 [orAll [put 63 62 1, put 55 40 7], 0, put 39 26 1, 3], by decide +kernel, by decide +kernel⟩,
   ⟨{ ready with wave := { ready.wave with folios := [(7, { state := .complete, rate := 1048576, n := 64 })] } }, pkt 0x0501 [orAll [put 63 62 2, put 55 40 7], 0, 0], by decide +kernel, by decide +kernel⟩,
   ⟨{ ready with wave := { ready.wave with folios := [(7, { state := .complete, rate := 1048576, n := 64 })] } }, pkt 0x0502 [put 59 47 1, 7], by decide +kernel, by decide +kernel⟩,
   ⟨{ ready with wave := { ready.wave with folios := [(7, { state := .complete, rate := 1048576, n := 64 })], shelf := ready.wave.shelf.set 0 { runs := [⟨.pin 7, 0, 1, true⟩] } } }, pkt 0x0502 [put 63 62 1 ||| put 59 47 1, 7], by decide +kernel, by decide +kernel⟩,
   ⟨ready, pkt 0x0502 [put 63 62 2], by decide +kernel, by decide +kernel⟩,
   ⟨{ ready with wave := { ready.wave with folios := [(7, { state := .complete, rate := 1048576, n := 64 })] } }, pkt 0x0503 [put 63 56 3 ||| put 55 46 1, put 63 61 7 ||| put 60 45 7], by decide +kernel, by decide +kernel⟩⟩

/-- Every premise of `WaveformEventsComplete` is met. -/
theorem witness_WaveformEventsComplete :
    (∃ o, Met (.shelfCopyEnd none) (fun s => s.host.open_.find? (fun o => o.opcode == 0x0502 || o.opcode == 0x0503) = some o ∧ o.opcode = 0x0502)) ∧
    (∃ o b, Met (.shelfCopyEnd (some b)) (fun s => s.host.open_.find? (fun o => o.opcode == 0x0502 || o.opcode == 0x0503) = some o ∧ o.opcode = 0x0502 ∧ b.toNat ∈ pinList o.packet)) ∧
    (∃ q b x f half k, Met (.refillRequest q b) (fun s => s.streaming q.val b.val = some (x, f, half) ∧ x.stopAt = none ∧ nextRequest ((atN (s.plansOf q.val).wins b.val {}).at_ x.start) f half x.rep = some (((atN (s.plansOf q.val).wins b.val {}).at_ x.start).rep, k) ∧ s.now ≤ (x.start + ((atN (s.plansOf q.val).wins b.val {}).at_ x.start).rep * x.len + f.reach (requestAt f.head half k)) / 16)) ∧
    (∃ q b n x f half, Met (.refillLand q b n none) (fun s => s.streaming q.val b.val = some (x, f, half) ∧ (atN (s.plansOf q.val).wins b.val {}).start = x.start ∧ (atN (s.plansOf q.val).wins b.val {}).a.landed < (atN (s.plansOf q.val).wins b.val {}).a.asked ∧ (atN (s.plansOf q.val).wins b.val {}).b.asked ≤ (atN (s.plansOf q.val).wins b.val {}).b.landed)) ∧
    (∃ q g w, Met (.shelfEccError q g w true) (fun _ => True)) ∧
    (∃ q g w, Met (.shelfEccError q g w false) (fun s => (s.sq q.val).inShot = true)) :=
  ⟨⟨{ opcode := 0x0502, packet := pkt 0x0502 [put 59 47 1, 7], accept := 4, sqHead := 0, since := 500, long := false }, { ready with host := { ready.host with open_ := [{ opcode := 0x0502, packet := pkt 0x0502 [put 59 47 1, 7], accept := 4, sqHead := 0, since := 500, long := false }] }, wave := { ready.wave with shelf := ready.wave.shelf.set 0 { runs := [⟨.pin 7, 0, 1, false⟩] } } }, by decide +kernel⟩,
   ⟨{ opcode := 0x0502, packet := pkt 0x0502 [put 59 47 1, 7], accept := 4, sqHead := 0, since := 500, long := false }, 7, { ready with host := { ready.host with open_ := [{ opcode := 0x0502, packet := pkt 0x0502 [put 59 47 1, 7], accept := 4, sqHead := 0, since := 500, long := false }] }, wave := { ready.wave with shelf := ready.wave.shelf.set 0 { runs := [⟨.pin 7, 0, 1, false⟩] } } }, by decide +kernel⟩,
   ⟨3, 0, ⟨7, 16000, 16000000, false, none, []⟩, bigFolio, 63, 0, streams, by decide +kernel⟩,
   ⟨3, 0, 10, ⟨7, 16000, 16000000, false, none, []⟩, bigFolio, 63, streams.modPlans 3 fun p => { p with wins := p.wins.set 0 { start := 16000, requests := 1, a := { first := 8000, asked := 63 } } }, by decide +kernel⟩,
   ⟨3, 100, 5, ready, by decide +kernel⟩,
   ⟨3, 100, 5, ready.modSeq 3 fun c => { c with mode := .running }, by decide +kernel⟩⟩

/-- `ready` with estimator 5 running at address 2 of a live range 0 to 9, its program word there as given. -/
def est5 (w : BitVec 32) (f : Est → Est := id) : State :=
  ready.modEst 5 fun e => f { e with mode := .running, pc := 2, limit := 9, next := 1010, prog := if w = 0 then [] else [(2, w)] }

/-- An estimator instruction word: its opcode in bits 31 to 26 (Table 7.2). -/
def eword (op rest : Nat) : BitVec 32 := BitVec.ofNat 32 (op * 2 ^ 26 + rest)

/-- A window of 100 ticks on a demodulation slot. -/
def win : Window := { start := 1000, len := 100, seq := 3, sst := 990, capt := false }

/-- An integrated value of that window on slot 80 (line 5, slot 0). -/
def val : Value :=
  { slot := 80, yi := 0x3F800000#32, yq := 0, close := 1099, outOfRange := false, taint := false, win := win, est := true, ovrinv := false,
    done_ := 1120, z := [] }

/-- A request for that value. -/
def req : Request := { val := val, readable := 1008 }

/-- Every premise of `ReadoutCommandsComplete` is met. -/
theorem witness_ReadoutCommandsComplete :
    MetBy readoutConfigCmd (fun _ p => ∃ a b, rcList p = [(a, b)] ∧ rcQuery a = true) ∧
    MetBy readoutConfigCmd (fun _ p => ∃ a b, rcList p = [(a, b)] ∧ rcQuery a = false ∧ rcIsLine a = true) ∧
    MetBy readoutConfigCmd (fun _ p => ∃ a b, rcList p = [(a, b)] ∧ rcQuery a = false ∧ rcIsLine a = false) ∧
    MetBy kernelLoadCmd (fun _ _ => True) ∧
    MetBy discrimConfigCmd (fun _ p => fld (wordAt p.payload 0) 63 54 = 1) :=
  ⟨⟨ready, pkt 0x0601 [put 63 54 1, put 62 58 31 ||| put 57 57 1, 0], by decide +kernel, ⟨put 62 58 31 ||| put 57 57 1, 0, by decide +kernel⟩⟩,
   ⟨ready, pkt 0x0601 [put 63 54 1, orAll [put 63 63 1, put 62 58 31, put 56 56 1], 0], by decide +kernel, ⟨orAll [put 63 63 1, put 62 58 31, put 56 56 1], 0, by decide +kernel⟩⟩,
   ⟨ready, pkt 0x0601 [put 63 54 1, orAll [put 62 58 31, put 56 53 15, put 52 51 3, 77], put 63 32 9], by decide +kernel, ⟨orAll [put 62 58 31, put 56 53 15, put 52 51 3, 77], put 63 32 9, by decide +kernel⟩⟩,
   ⟨ready, pkt 0x0602 [orAll [put 63 59 5, put 58 55 2, put 53 41 1], 0x3F8000003F800000], by decide +kernel, by decide +kernel⟩,
   ⟨ready, pkt 0x0603 [put 63 54 1, orAll [put 63 59 5, put 58 55 2, put 54 52 4], 0x3F800000, 0, 0], by decide +kernel, by decide +kernel⟩⟩

/-- Every premise of `ReadoutEventsComplete` is met. -/
theorem witness_ReadoutEventsComplete :
    (∃ l n, Met (.lineSettleEnd l) (fun s => (s.ln l.val).settleAt = some n)) ∧
    (∃ k codes n w, Met (.windowClose k codes n) (fun s => s.firstWindow k.val = some w ∧ s.now ≤ w.last)) ∧
    (∃ k codes m w n, Met (.windowClosedNoResult k codes m) (fun s => (s.dm k.val).windows.find? (fun w => ((s.ln (demodLine k.val)).noResult w).isSome) = some w ∧ (s.ln (demodLine k.val)).noResult w = some n ∧ s.now ≤ n)) ∧
    (∃ k d w n, Met (.absentVerdictFormation k d) (fun s => s.readout.absent.find? (fun e => e.1 == k.val) = some (k.val, w, n) ∧ s.now ≤ n + d.val)) ∧
    (∃ l n, Met (.discriminatorWordArrival l) (fun s => minTick ((s.ln l.val).words.map (·.hub)) = some n ∧ s.now ≤ n)) ∧
    (∃ l n, Met (.valueArrival l) (fun s => (s.ln l.val).sendTick = some n ∧ s.now ≤ n + 4)) ∧
    (∃ l, Met (.adcCoreFault l) (fun s => (s.ln l.val).failed = false ∧ (s.ln l.val).power = true ∧ (s.ln l.val).onSpare = false ∧ s.hasCluster (lineCluster l.val) = true ∧ atN s.readout.spareFailed (lineCluster l.val) false = false ∧ s.adcSpare (lineCluster l.val) = .free ∧ s.calHead (dieOf (lineCluster l.val)) = none)) ∧
    (∃ l n, Met (.adcFaultSwapEnd l) (fun s => s.adcSpare (lineCluster l.val) = .starting l.val n ∧ s.now ≤ n + 10016)) ∧
    (∃ l n, Met (.adcPlannedSwap l) (fun s => s.adcSpare (lineCluster l.val) = .ready l.val n ∧ s.rawRuns l.val s.now = false)) ∧
    (∃ l n, Met (.adcPlannedSwapEnd l) (fun s => s.adcSpare (lineCluster l.val) = .swapping l.val n false ∧ s.now ≤ n + 16)) :=
  ⟨⟨5, 1500, (ready.modLine 5 fun x => { x with settleAt := some 1500 }), by decide +kernel⟩,
   ⟨80, List.replicate 800 0x7FF#12, 7, win, (ready.modDemod 80 fun x => { x with windows := [win] }), by decide +kernel⟩,
   ⟨80, [], 3, { win with cause := some 1050 }, 1050, (ready.modDemod 80 fun x => { x with windows := [{ win with cause := some 1050 }] }), by decide +kernel⟩,
   ⟨80, 3, win, 1050, { ready with readout := { ready.readout with absent := [(80, win, 1050)] } }, by decide +kernel⟩,
   ⟨5, 1142, (ready.modLine 5 fun x => { x with words := [{ slot := 80, state := 1, valid := true, win := win, hub := 1142 }] }), by decide +kernel⟩,
   ⟨5, 1120, (ready.modLine 5 fun x => { x with values := [val] }), by decide +kernel⟩,
   ⟨5, ready, by decide +kernel⟩,
   ⟨5, 900, { ready with readout := { ready.readout with spare := ready.readout.spare.set 1 (.starting 5 900) } }, by decide +kernel⟩,
   ⟨5, 900, { ready with readout := { ready.readout with spare := ready.readout.spare.set 1 (.ready 5 900) } }, by decide +kernel⟩,
   ⟨5, 990, { ready with readout := { ready.readout with spare := ready.readout.spare.set 1 (.swapping 5 990 false) } }, by decide +kernel⟩⟩

/-- Every premise of `EstimatorCommandsComplete` is met. -/
theorem witness_EstimatorCommandsComplete :
    MetBy estLoadCmd (fun _ p => bitAt (wordAt p.payload 0) 56 = false) ∧
    MetBy estLoadCmd (fun _ p => bitAt (wordAt p.payload 0) 56 = true) ∧
    MetBy estStartCmd (fun s p => fld (wordAt p.payload 0) 58 56 = 0 ∧ (s.es 5).badStart p = none) ∧
    MetBy estStartCmd (fun s p => fld (wordAt p.payload 0) 58 56 = 0 ∧ (s.es 5).badStart p ≠ none) ∧
    MetBy estStartCmd (fun s p => fld (wordAt p.payload 0) 58 56 = 1 ∧ (s.es 5).live = true) ∧
    MetBy estStartCmd (fun _ p => fld (wordAt p.payload 0) 58 56 = 2) ∧
    MetBy estStartCmd (fun _ p => fld (wordAt p.payload 0) 58 56 = 3) ∧
    MetBy estStartCmd (fun _ p => fld (wordAt p.payload 0) 58 56 = 4) :=
  ⟨⟨ready, pkt 0x0701 [orAll [put 63 59 5, put 58 57 2, put 55 39 0x3FF8, put 38 25 1], 9], by decide +kernel, by decide +kernel⟩,
   ⟨ready, pkt 0x0701 [orAll [put 63 59 5, put 58 57 1, put 56 56 1, put 55 39 0x17FF8, put 38 25 1]], by decide +kernel, by decide +kernel⟩,
   ⟨(ready.modEst 5 fun e => { e with prog := [(0, 0xEC000000#32), (1, 0xEC000000#32)] }), pkt 0x0702 [orAll [put 63 59 5, put 54 41 0, put 40 27 1], put 63 63 0, 0, 0, 0], by decide +kernel, by decide +kernel⟩,
   ⟨(ready.modEst 5 fun e => { e with prog := [(0, 0xEC000000#32), (1, 0xFC000000#32)] }), pkt 0x0702 [orAll [put 63 59 5, put 54 41 0, put 40 27 1], 0, 0, 0, 0], by decide +kernel, by decide +kernel⟩,
   ⟨est5 0, pkt 0x0702 [put 63 59 5 ||| put 58 56 1], by decide +kernel, by decide +kernel⟩,
   ⟨ready, pkt 0x0702 [put 63 59 5 ||| put 58 56 2], by decide +kernel, by decide +kernel⟩,
   ⟨ready, pkt 0x0702 [put 63 59 5 ||| put 58 56 3], by decide +kernel, by decide +kernel⟩,
   ⟨est5 0 fun e => { e with drops := 9 }, pkt 0x0702 [put 63 59 5 ||| put 58 56 4], by decide +kernel, by decide +kernel⟩⟩

/-- Every premise of `EstimatorComputes` is met. -/
theorem witness_EstimatorComputes :
    (∃ n, Met (.estNop n) (fun s => s.estIssues n.val .nop)) ∧
    (∃ n vd va vb vc, Met (.vfma n) (fun s => s.estIssues n.val (.vfma vd va vb vc))) ∧
    (∃ n vd va vb vc, Met (.vfms n) (fun s => s.estIssues n.val (.vfms vd va vb vc))) ∧
    (∃ n vd va vb, Met (.vmul n) (fun s => s.estIssues n.val (.vmul vd va vb))) ∧
    (∃ n vd va vb, Met (.vadd n) (fun s => s.estIssues n.val (.vadd vd va vb))) ∧
    (∃ n vd va vb, Met (.vsub n) (fun s => s.estIssues n.val (.vsub vd va vb))) ∧
    (∃ n vd va vb, Met (.vmin n) (fun s => s.estIssues n.val (.vmin vd va vb))) ∧
    (∃ n vd va vb, Met (.vmax n) (fun s => s.estIssues n.val (.vmax vd va vb))) ∧
    (∃ n xd va xm, Met (.vminx n) (fun s => s.estIssues n.val (.vminx xd va xm))) ∧
    (∃ n xd va xm, Met (.vmaxx n) (fun s => s.estIssues n.val (.vmaxx xd va xm))) ∧
    (∃ n xd va xm, Met (.vsum n) (fun s => s.estIssues n.val (.vsum xd va xm))) ∧
    (∃ n vd xs half, Met (.vbc n) (fun s => s.estIssues n.val (.vbc vd xs half))) ∧
    (∃ n xd va lane, Met (.movx n) (fun s => s.estIssues n.val (.movx xd va lane))) ∧
    (∃ n vd va, Met (.vmov n) (fun s => s.estIssues n.val (.vmov vd va))) ∧
    (∃ n xd xa xb fn, Met (.xop n) (fun s => s.estIssues n.val (.xop xd xa xb fn))) ∧
    (∃ n xd xa fn imm, Met (.xopi n) (fun s => s.estIssues n.val (.xopi xd xa fn imm))) ∧
    (∃ n xd pos imm, Met (.liq n) (fun s => s.estIssues n.val (.liq xd pos imm))) ∧
    (∃ n ad as_ imm, Met (.aadd n) (fun s => s.estIssues n.val (.aadd ad as_ imm))) ∧
    (∃ n ad xs, Met (.amov n) (fun s => s.estIssues n.val (.amov ad xs))) :=
  ⟨⟨5, est5 0, by decide +kernel⟩,
   ⟨5, 2, 3, 4, 31, est5 (eword 1 (2 * 2^21 + 3 * 2^16 + 4 * 2^11 + 31 * 2^6)), by decide +kernel⟩,
   ⟨5, 2, 3, 4, 31, est5 (eword 2 (2 * 2^21 + 3 * 2^16 + 4 * 2^11 + 31 * 2^6)), by decide +kernel⟩,
   ⟨5, 2, 3, 4, est5 (eword 3 (2 * 2^21 + 3 * 2^16 + 4 * 2^11)), by decide +kernel⟩,
   ⟨5, 2, 3, 4, est5 (eword 4 (2 * 2^21 + 3 * 2^16 + 4 * 2^11)), by decide +kernel⟩,
   ⟨5, 2, 3, 4, est5 (eword 5 (2 * 2^21 + 3 * 2^16 + 4 * 2^11)), by decide +kernel⟩,
   ⟨5, 2, 3, 4, est5 (eword 6 (2 * 2^21 + 3 * 2^16 + 4 * 2^11)), by decide +kernel⟩,
   ⟨5, 2, 3, 4, est5 (eword 7 (2 * 2^21 + 3 * 2^16 + 4 * 2^11)), by decide +kernel⟩,
   ⟨5, 2, 31, 15, est5 (eword 8 (2 * 2^22 + 31 * 2^17 + 15 * 2^13)), by decide +kernel⟩,
   ⟨5, 2, 31, 15, est5 (eword 9 (2 * 2^22 + 31 * 2^17 + 15 * 2^13)), by decide +kernel⟩,
   ⟨5, 2, 31, 15, est5 (eword 10 (2 * 2^22 + 31 * 2^17 + 15 * 2^13)), by decide +kernel⟩,
   ⟨5, 2, 15, true, est5 (eword 0x0C (2 * 2^21 + 15 * 2^17 + 2^16)), by decide +kernel⟩,
   ⟨5, 2, 31, 15, est5 (eword 0x0D (2 * 2^22 + 31 * 2^17 + 15 * 2^13)), by decide +kernel⟩,
   ⟨5, 2, 3, est5 (eword 0x0E (2 * 2^21 + 3 * 2^16)), by decide +kernel⟩,
   ⟨5, 2, 3, 4, 10, est5 (eword 0x10 (2 * 2^22 + 3 * 2^18 + 4 * 2^14 + 10 * 2^10)), by decide +kernel⟩,
   ⟨5, 2, 3, 10, 0xFFFFFFFFFFFFFFFF, est5 (eword 0x11 (2 * 2^22 + 3 * 2^18 + 10 * 2^14 + 0x3FFF)), by decide +kernel⟩,
   ⟨5, 2, 3, 0xFFFF, est5 (eword 0x12 (2 * 2^22 + 3 * 2^20 + 0xFFFF)), by decide +kernel⟩,
   ⟨5, 7, 6, -1, est5 (eword 0x13 (7 * 2^23 + 6 * 2^20 + 0xFFFF)), by decide +kernel⟩,
   ⟨5, 7, 15, est5 (eword 0x14 (7 * 2^23 + 15 * 2^19)), by decide +kernel⟩⟩

/-- Every premise of `EstimatorMemory` is met. -/
theorem witness_EstimatorMemory :
    (∃ n r m, Met (.vld n) (fun s => s.estIssues n.val (.vld r m) ∧ accessOk ((s.estAt n.val).addr m) 64 false = true)) ∧
    (∃ n r m, Met (.vst n) (fun s => s.estIssues n.val (.vst r m) ∧ accessOk ((s.estAt n.val).addr m) 64 true = true)) ∧
    (∃ n r m, Met (.xld n) (fun s => s.estIssues n.val (.xld r m) ∧ accessOk ((s.estAt n.val).addr m) 8 false = true)) ∧
    (∃ n r m, Met (.xst n) (fun s => s.estIssues n.val (.xst r m) ∧ accessOk ((s.estAt n.val).addr m) 8 true = true)) ∧
    (∃ n r m, Met (.vldb n) (fun s => s.estIssues n.val (.vldb r m) ∧ accessOk ((s.estAt n.val).addr m) 4 false = true)) ∧
    (∃ n r m, Met (.vld n) (fun s => (s.es n.val).ready = some (.vld r m) ∧ AccessFaults (s.estAt n.val) m 64 false)) ∧
    (∃ n r m, Met (.vst n) (fun s => (s.es n.val).ready = some (.vst r m) ∧ AccessFaults (s.estAt n.val) m 64 true)) ∧
    (∃ n r m, Met (.xld n) (fun s => (s.es n.val).ready = some (.xld r m) ∧ AccessFaults (s.estAt n.val) m 8 false)) ∧
    (∃ n r m, Met (.xst n) (fun s => (s.es n.val).ready = some (.xst r m) ∧ AccessFaults (s.estAt n.val) m 8 true)) ∧
    (∃ n r m, Met (.vldb n) (fun s => (s.es n.val).ready = some (.vldb r m) ∧ AccessFaults (s.estAt n.val) m 4 false)) :=
  ⟨⟨5, 2, ⟨7, 1, -16⟩, est5 (eword 0x20 (2 * 2^21 + 7 * 2^18 + 1 * 2^16 + 0xFFF0)) fun e => { e with a := (Vector.replicate 8 0).set 7 0x1C040 }, by decide +kernel⟩,
   ⟨5, 2, ⟨7, 1, -16⟩, est5 (eword 0x21 (2 * 2^21 + 7 * 2^18 + 1 * 2^16 + 0xFFF0)) fun e => { e with a := (Vector.replicate 8 0).set 7 0x18000 }, by decide +kernel⟩,
   ⟨5, 2, ⟨7, 1, -16⟩, est5 (eword 0x22 (2 * 2^21 + 7 * 2^18 + 1 * 2^16 + 0xFFF0)) fun e => { e with a := (Vector.replicate 8 0).set 7 0x1FFC0 }, by decide +kernel⟩,
   ⟨5, 2, ⟨7, 1, -16⟩, est5 (eword 0x23 (2 * 2^21 + 7 * 2^18 + 1 * 2^16 + 0xFFF0)) fun e => { e with a := (Vector.replicate 8 0).set 7 0x18000 }, by decide +kernel⟩,
   ⟨5, 2, ⟨7, 1, -16⟩, est5 (eword 0x24 (2 * 2^21 + 7 * 2^18 + 1 * 2^16 + 0xFFF0)) fun e => { e with a := (Vector.replicate 8 0).set 7 0x1FFC0 }, by decide +kernel⟩,
   ⟨5, 2, ⟨7, 1, -16⟩, est5 (eword 0x20 (2 * 2^21 + 7 * 2^18 + 1 * 2^16 + 0xFFF0)) fun e => { e with a := (Vector.replicate 8 0).set 7 0x18040 }, by decide +kernel⟩,
   ⟨5, 2, ⟨7, 1, -16⟩, est5 (eword 0x21 (2 * 2^21 + 7 * 2^18 + 1 * 2^16 + 0xFFF0)) fun e => { e with a := (Vector.replicate 8 0).set 7 0x1FFC0 }, by decide +kernel⟩,
   ⟨5, 2, ⟨7, 1, -16⟩, est5 (eword 0x22 (2 * 2^21 + 7 * 2^18 + 1 * 2^16 + 0xFFF0)) fun e => { e with a := (Vector.replicate 8 0).set 7 0x1C000 }, by decide +kernel⟩,
   ⟨5, 2, ⟨7, 1, -16⟩, est5 (eword 0x23 (2 * 2^21 + 7 * 2^18 + 1 * 2^16 + 0xFFF0)) fun e => { e with a := (Vector.replicate 8 0).set 7 0x20 }, by decide +kernel⟩,
   ⟨5, 2, ⟨7, 1, -16⟩, est5 (eword 0x24 (2 * 2^21 + 7 * 2^18 + 1 * 2^16 + 0xFFF0)) fun e => { e with a := (Vector.replicate 8 0).set 7 0x1FFFF }, by decide +kernel⟩⟩

/-- Every premise of `EstimatorFlow` is met. -/
theorem witness_EstimatorFlow :
    (∃ n xc cond tgt, Met (.estBr n) (fun s => (s.es n.val).ready = some (.br xc cond tgt) ∧ (s.es n.val).inRange (((s.es n.val).pc + 1) % 2 ^ 14) = true)) ∧
    (∃ n xt, Met (.brx n) (fun s => (s.es n.val).ready = some (.brx xt) ∧ (s.es n.val).inRange (((s.es n.val).pc + 1) % 2 ^ 14) = true)) ∧
    (∃ n, Met (.estDone n) (fun s => (s.es n.val).ready = some .done_ ∧ (s.es n.val).inRange (((s.es n.val).pc + 1) % 2 ^ 14) = true)) ∧
    (∃ n len count, Met (.repeatN n) (fun s => (s.es n.val).ready = some (.repeat_ len count) ∧ count ≠ 0 ∧ (s.es n.val).branch = none ∧ (s.es n.val).inRange (((s.es n.val).pc + 1) % 2 ^ 14) = true)) ∧
    (∃ n len, Met (.repeatN n) (fun s => (s.es n.val).ready = some (.repeat_ len 0) ∧ (s.es n.val).branch = none ∧ (s.es n.val).inRange (estNext (((s.es n.val).pc + len) % 2 ^ 14) (s.es n.val).reps).1 = true)) ∧
    (∃ n len xc, Met (.repeatx n) (fun s => (s.es n.val).ready = some (.repeatx len xc) ∧ fld ((s.estAt n.val).xr xc) 15 0 ≠ 0 ∧ (s.es n.val).branch = none ∧ (s.es n.val).inRange (((s.es n.val).pc + 1) % 2 ^ 14) = true)) ∧
    (∃ n xs h, Met (.post n) (fun s => s.estIssues n.val (.post xs) ∧ (s.es n.val).branch = none ∧ (s.es n.val).handler = some h ∧ h.posted = false)) ∧
    (∃ n xs h, Met (.post n) (fun s => s.estIssues n.val (.post xs) ∧ (s.es n.val).branch = none ∧ (s.es n.val).handler = some h ∧ h.posted = true)) ∧
    (∃ n, Met (.idle n) (fun s => (s.es n.val).ready = some .idle)) ∧
    (∃ n, Met (.halt n) (fun s => (s.es n.val).ready = some .halt)) ∧
    (∃ n, Met (.estNop n) (fun s => (s.es n.val).ready = some .nop ∧ (s.es n.val).branch = none ∧ (s.es n.val).inRange (s.es n.val).flowsTo = false)) :=
  ⟨⟨5, 2, 4, 9, est5 (eword 0x30 (2 * 2^22 + 4 * 2^19 + 9)), by decide +kernel⟩,
   ⟨5, 2, est5 (eword 0x31 (2 * 2^22)), by decide +kernel⟩,
   ⟨5, est5 (eword 0x39 (0)), by decide +kernel⟩,
   ⟨5, 3, 65535, est5 (eword 0x32 (3 * 2^16 + 65535)), by decide +kernel⟩,
   ⟨5, 3, est5 (eword 0x32 (3 * 2^16)), by decide +kernel⟩,
   ⟨5, 3, 4, est5 (eword 0x33 (3 * 2^16 + 4 * 2^12)) fun e => { e with x := (Vector.replicate 16 0).set 4 7 }, by decide +kernel⟩,
   ⟨5, 2, { req := req, ovrinv := false }, est5 (eword 0x38 (2 * 2^22)) fun e => { e with handler := some { req := req, ovrinv := false } }, by decide +kernel⟩,
   ⟨5, 2, { req := req, ovrinv := false, posted := true }, est5 (eword 0x38 (2 * 2^22)) fun e => { e with handler := some { req := req, ovrinv := false, posted := true } }, by decide +kernel⟩,
   ⟨5, est5 (eword 0x3A (0)), by decide +kernel⟩,
   ⟨5, est5 (eword 0x3B (0)), by decide +kernel⟩,
   ⟨5, est5 0 fun e => { e with limit := 2 }, by decide +kernel⟩⟩

/-- Every premise of `EstimatorEventsComplete` is met. -/
theorem witness_EstimatorEventsComplete :
    (∃ n r l, Met (.estimatorRequest n) (fun s => (s.es n.val).arriving = r :: l ∧ (s.es n.val).mode = .running ∧ (s.es n.val).queue.length < 32 ∧ (atN (s.es n.val).dispatch (demodSlotNo r.val.slot) none).isSome = true ∧ s.now ≤ r.readable - 1)) ∧
    (∃ n r l, Met (.estimatorRequest n) (fun s => (s.es n.val).arriving = r :: l ∧ (s.es n.val).mode = .stopped)) ∧
    (∃ n r l a i, Met (.estimatorDispatch n) (fun s => (s.es n.val).queue = r :: l ∧ (s.es n.val).mode = .running ∧ (s.es n.val).handover = false ∧ (s.es n.val).boundary = true ∧ (s.es n.val).stopWait = false ∧ (s.es n.val).pageSealed = false ∧ (s.es n.val).haltWait = false ∧ (s.es n.val).due = some i ∧ i ≠ .idle ∧ r.readable ≤ (s.es n.val).next ∧ atN (s.es n.val).dispatch (demodSlotNo r.val.slot) none = some a)) ∧
    (∃ n, Met (.estimatorStop n) (fun s => (s.es n.val).stopWait = true ∧ (s.es n.val).boundary = true ∧ (s.es n.val).handover = false ∧ (s.es n.val).mode = .running)) ∧
    (∃ n, Met (.estimatorProgramMemoryError n .corrected) (fun _ => True)) ∧
    (∃ n addr, Met (.estimatorProgramMemoryError n (.program addr)) (fun s => (s.es n.val).live = true)) ∧
    (∃ n, Met (.estimatorProgramMemoryError n .datapath) (fun s => (s.es n.val).live = true)) ∧
    (∃ n, Met (.estimatorAutorestart n) (fun s => (s.es n.val).mode = .faulted ∧ (s.es n.val).autorestart = true ∧ (s.es n.val).fault = 2 ∧ s.units.token.isSome = true)) ∧
    (∃ n, Met (.pageSwap n) (fun s => (s.es n.val).pageSealed = true ∧ (s.es n.val).mode = .stopped)) ∧
    (∃ n c, Met (.pageCopyEnd n) (fun s => (s.es n.val).copyAt = some c ∧ s.now ≤ c + 2048)) ∧
    (∃ n, Met (.debugEstimatorHalt n) (fun s => s.debugLevel 2 = true ∧ (s.es n.val).mode = .running ∧ (s.es n.val).free = true ∧ ((s.es n.val).ended = false ∨ ((s.es n.val).next ≤ s.now ∧ (s.es n.val).handover = false)))) ∧
    (∃ n, Met (.debugEstimatorHalt n) (fun s => s.debugLevel 2 = true ∧ (s.es n.val).mode = .running ∧ ((s.es n.val).free = false ∨ ((s.es n.val).ended = true ∧ s.now < (s.es n.val).next)))) ∧
    (∃ n, Met (.estimatorDispatch n) (fun s => (s.es n.val).mode = .running ∧ (s.es n.val).haltWait = true ∧ (s.es n.val).free = true ∧ (s.es n.val).handover = false)) ∧
    (∃ n i, Met (.debugEstimatorStep n) (fun s => s.debugLevel 2 = true ∧ (s.es n.val).mode = .debugHalted ∧ (s.es n.val).due = some i)) :=
  ⟨⟨5, req, [], est5 0 fun e => { e with arriving := [req], dispatch := (Vector.replicate 16 none).set 0 (some 7) }, by decide +kernel⟩,
   ⟨5, req, [], (ready.modEst 5 fun e => { e with arriving := [req] }), by decide +kernel⟩,
   ⟨5, req, [], 7, .nop, est5 0 fun e => { e with queue := [req], dispatch := (Vector.replicate 16 none).set 0 (some 7) }, by decide +kernel⟩,
   ⟨5, est5 0 fun e => { e with stopWait := true }, by decide +kernel⟩,
   ⟨5, est5 0, by decide +kernel⟩,
   ⟨5, 16383, est5 0, by decide +kernel⟩,
   ⟨5, est5 0, by decide +kernel⟩,
   ⟨5, est5 0 fun e => { e with mode := .faulted, autorestart := true, fault := 2 }, by decide +kernel⟩,
   ⟨5, (ready.modEst 5 fun e => { e with pageSealed := true }), by decide +kernel⟩,
   ⟨5, 900, (ready.modEst 5 fun e => { e with copyAt := some 900, bank0 := [(3, 4)] }), by decide +kernel⟩,
   ⟨5, { est5 0 with host := { ready.host with sessions := [{ func := 9, serial := 1, label := 0, level := 2 }] } }, by decide +kernel⟩,
   ⟨5, { est5 0 fun e => { e with reps := [⟨1, 3, 2⟩] } with host := { ready.host with sessions := [{ func := 9, serial := 1, label := 0, level := 2 }] } }, by decide +kernel⟩,
   ⟨5, est5 0 fun e => { e with haltWait := true }, by decide +kernel⟩,
   ⟨5, .nop, { est5 0 fun e => { e with mode := .debugHalted } with host := { ready.host with sessions := [{ func := 9, serial := 1, label := 0, level := 2 }] } }, by decide +kernel⟩⟩

/-- `ready` as member 2 of a collection of members 1 and 2, with lane 4 to member 1 as given. -/
def lane4 (l : Lane) : State :=
  let s := { ready with fabric := { ready.fabric with cid := 77, member := 2, members := 6 } }
  s.modLane 4 fun _ => { l with ent := { used := true, peer := 1 } }

/-- `ready` with view 1 of two entries at index 2 of the Concordance. -/
def view1 (f : View → View := id) : State :=
  ready.modView 1 fun _ => f { defined := true, w := 1, base := 2, gather := [{}] }

/-- Every premise of `FabricCommandsComplete` is met. -/
theorem witness_FabricCommandsComplete :
    MetBy routeTableCmd (fun _ p => ∃ w, p.payload.drop 1 = [w] ∧ bitAt w 63 = true) ∧
    MetBy routeTableCmd (fun _ p => ∃ w, p.payload.drop 1 = [w] ∧ bitAt w 63 = false) ∧
    MetBy laneTrainCmd (fun _ p => fld (wordAt p.payload 0) 59 57 = 0) ∧
    MetBy laneTrainCmd (fun _ p => fld (wordAt p.payload 0) 59 57 = 1) ∧
    MetBy laneTrainCmd (fun _ p => fld (wordAt p.payload 0) 59 57 = 2) ∧
    MetBy laneTrainCmd (fun s p => fld (wordAt p.payload 0) 59 57 = 3 ∧ (s.lane (fld (wordAt p.payload 0) 63 60)).st = .idle) ∧
    MetBy laneTrainCmd (fun _ p => fld (wordAt p.payload 0) 59 57 = 5) ∧
    MetBy laneTrainCmd (fun _ p => fld (wordAt p.payload 0) 59 57 = 6) ∧
    MetBy collectionJoinCmd (fun _ _ => True) ∧
    MetBy laneTestCmd (fun s p => fld (wordAt p.payload 0) 59 58 = 0 ∧ (s.lane (fld (wordAt p.payload 0) 63 60)).st = .up) ∧
    MetBy laneTestCmd (fun s p => fld (wordAt p.payload 0) 59 58 = 0 ∧ (s.lane (fld (wordAt p.payload 0) 63 60)).st = .down) ∧
    MetBy laneTestCmd (fun s p => fld (wordAt p.payload 0) 59 58 = 1 ∧ (s.lane (fld (wordAt p.payload 0) 63 60)).st ≠ .test) ∧
    MetBy laneTestCmd (fun s p => fld (wordAt p.payload 0) 59 58 = 2 ∧ (s.lane (fld (wordAt p.payload 0) 63 60)).st = .test ∧ (s.lane (fld (wordAt p.payload 0) 63 60)).testUp = false) :=
  ⟨⟨lane4 {  }, pkt 0x0801 [put 63 53 1, orAll [put 63 63 1, put 62 55 255, put 54 52 7, put 51 51 1, put 50 47 1, put 46 42 31, put 41 38 15, put 37 22 9]], by decide +kernel, ⟨_, rfl, by decide +kernel⟩⟩,
   ⟨lane4 {  }, pkt 0x0801 [put 63 53 1, orAll [put 62 58 31, put 57 54 15, put 53 38 2]], by decide +kernel, ⟨_, rfl, by decide +kernel⟩⟩,
   ⟨lane4 { attempts := 2 }, pkt 0x0802 [orAll [put 63 60 4, put 50 49 2, put 48 42 5]], by decide +kernel, by decide +kernel⟩,
   ⟨lane4 { st := .up }, pkt 0x0802 [orAll [put 63 60 4, put 59 57 1, put 48 42 5]], by decide +kernel, by decide +kernel⟩,
   ⟨lane4 { st := .up }, pkt 0x0802 [orAll [put 63 60 4, put 59 57 2, put 48 42 5]], by decide +kernel, by decide +kernel⟩,
   ⟨lane4 { st := .idle }, pkt 0x0802 [orAll [put 63 60 4, put 59 57 3, put 48 42 5]], by decide +kernel, by decide +kernel⟩,
   ⟨lane4 { st := .up }, pkt 0x0802 [orAll [put 63 60 4, put 59 57 5]], by decide +kernel, by decide +kernel⟩,
   ⟨lane4 { st := .up, drops := 8 }, pkt 0x0802 [orAll [put 63 60 4, put 59 57 6]], by decide +kernel, by decide +kernel⟩,
   ⟨ready, pkt 0x0803 [orAll [put 63 32 77, put 31 28 15], put 63 48 0x8001, 0x80, put 63 56 0xC0], by decide +kernel, by decide +kernel⟩,
   ⟨lane4 { st := .up }, pkt 0x0804 [orAll [put 63 60 4, put 57 38 1]], by decide +kernel, by decide +kernel⟩,
   ⟨lane4 { st := .down }, pkt 0x0804 [orAll [put 63 60 4, put 57 38 600000]], by decide +kernel, by decide +kernel⟩,
   ⟨lane4 { st := .up }, pkt 0x0804 [orAll [put 63 60 4, put 59 58 1]], by decide +kernel, by decide +kernel⟩,
   ⟨lane4 { st := .test }, pkt 0x0804 [orAll [put 63 60 4, put 59 58 2]], by decide +kernel, by decide +kernel⟩⟩

/-- Every premise of `LaneWordsComplete` is met. -/
theorem witness_LaneWordsComplete :
    (∃ n x l, Met (.laneVerdictLaunch n) (fun s => (s.lane n.val).st = .up ∧ (s.lane n.val).relock = false ∧ (s.lane n.val).service = [] ∧ (s.lane n.val).queue = x :: l)) ∧
    (∃ n, Met (.laneVerdictLaunch n) (fun s => (s.lane n.val).st = .up ∧ (s.lane n.val).service = [] ∧ (s.lane n.val).queue = [] ∧ (s.cnt s.now + 1) / 2 ≤ (s.lane n.val).slot)) ∧
    (∃ n, Met (.laneVerdictLaunch n) (fun s => (s.lane n.val).st = .up ∧ (s.lane n.val).service = [] ∧ (s.lane n.val).queue = [] ∧ (s.cnt s.now + 1) / 2 ≤ (s.lane n.val).slot)) ∧
    (∃ n x l, Met (.laneVerdictLaunch n) (fun s => (s.lane n.val).st = .up ∧ (s.lane n.val).queue = [] ∧ (s.lane n.val).service = x :: l)) ∧
    (∃ n packet launch, Met (.laneVerdictReceive n packet launch) (fun s => (s.lane n.val).st = .up ∧ vSrc packet < 16 ∧ vSrc packet ≠ s.fabric.member ∧ s.fabric.members.toNat.testBit (vSrc packet) = true ∧ s.now ≤ s.dev (launch.toNat + (s.lane n.val).ll))) ∧
    (∃ n packet launch, Met (.laneVerdictReceive n packet launch) (fun s => (s.lane n.val).st = .up ∧ vSrc packet = s.fabric.member)) ∧
    (∃ n l, Met (.checkBlockReceive n l none) (fun s => (s.lane n.val).st = .up)) ∧
    (∃ n l x, Met (.checkBlockReceive n l (some x)) (fun s => (s.lane n.val).st = .up ∧ (s.lane n.val).waking = false ∧ (s.lane n.val).offset = none ∧ x.setWidth 32 = crcWords l)) ∧
    (∃ n cid m k, Met (.serviceIdentity n cid m k) (fun s => (s.lane n.val).st = .identify)) ∧
    (∃ n stamp k, Met (.serviceMarker n stamp k) (fun s => (s.lane n.val).locking = true)) ∧
    (∃ n stamp turn, Met (.serviceEcho n stamp turn) (fun s => (s.lane n.val).locking = true)) ∧
    (∃ n stamp peer t2 phase t1 o, Met (.serviceSkew n stamp peer t2 phase) (fun s => (s.lane n.val).st = .up ∧ (s.lane n.val).relock = false ∧ (s.lane n.val).skewAt = some t1 ∧ s.skewOver n.val = some o)) ∧
    (∃ n stamp peer t2 phase, Met (.serviceSkew n stamp peer t2 phase) (fun s => (s.lane n.val).st = .up ∧ (s.lane n.val).relock = false ∧ (s.lane n.val).skewAt = none)) ∧
    (∃ n ms, Met (.testreq n ms) (fun s => (s.lane n.val).st = .up ∧ s.carries n.val = false)) ∧
    (∃ n ms, Met (.testreq n ms) (fun s => (s.lane n.val).st = .up ∧ s.carries n.val = true)) ∧
    (∃ n, Met (.testack n) (fun s => (s.lane n.val).testAsked = true)) ∧
    (∃ n, Met (.testrefuse n) (fun s => (s.lane n.val).testAsked = true)) :=
  ⟨⟨4, (5, 900), [(6, 901)], lane4 { st := .up, queue := [(5, 900), (6, 901)] }, by decide +kernel⟩,
   ⟨4, lane4 { st := .up, slot := 511 }, by decide +kernel⟩,
   ⟨4, lane4 { st := .up, slot := 504 }, by decide +kernel⟩,
   ⟨4, (put 63 60 4, 900), [(6, 901)], lane4 { st := .up, service := [(put 63 60 4, 900), (6, 901)] }, by decide +kernel⟩,
   ⟨4, put 63 56 1, 1000, lane4 { st := .up }, by decide +kernel⟩,
   ⟨4, put 63 56 2, 1000, lane4 { st := .up }, by decide +kernel⟩,
   ⟨4, [1, 2], lane4 { st := .up, frame := [1] }, by decide +kernel⟩,
   ⟨4, [1, 2], (crcWords [1, 2]).setWidth 56, lane4 { st := .up, badChecks := 1 }, by decide +kernel⟩,
   ⟨4, 77, 1, 15, lane4 { st := .identify }, by decide +kernel⟩,
   ⟨4, 0xFFFFFFFFF, 9, lane4 { st := .lock }, by decide +kernel⟩,
   ⟨4, 900, 20, lane4 { st := .up, relock := true, pairs := 2 }, by decide +kernel⟩,
   ⟨4, 20, 31, 40000, 7, 30000, { opcode := 0x0203, packet := pkt 0x0203 [put 63 60 1 ||| put 55 48 1], accept := 4, sqHead := 0, since := 500, long := false, data := [3] }, { lane4 { st := .up, skewAt := some 30000 } with host := { ready.host with open_ := [{ opcode := 0x0203, packet := pkt 0x0203 [put 63 60 1 ||| put 55 48 1], accept := 4, sqHead := 0, since := 500, long := false, data := [3] }] } }, by decide +kernel⟩,
   ⟨4, 20, 31, 40000, 7, lane4 { st := .up }, by decide +kernel⟩,
   ⟨4, 600, lane4 { st := .up }, by decide +kernel⟩,
   ⟨4, 600, (lane4 { st := .up }).modRoute 3 fun r => { r with active := r.active.set 7 { en := true, smem := 1 } }, by decide +kernel⟩,
   ⟨4, lane4 { st := .up, testAsked := true }, by decide +kernel⟩,
   ⟨4, lane4 { st := .up, testAsked := true }, by decide +kernel⟩⟩

/-- Every premise of `LaneStatesComplete` is met. -/
theorem witness_LaneStatesComplete :
    (∃ n cause, Met (.laneFailure n cause) (fun s => (s.lane n.val).st = .up ∧ (s.lane n.val).fails cause = true ∧ (s.lane n.val).auto = false)) ∧
    (∃ n, Met (.laneDetectDone n) (fun s => (s.lane n.val).st = .detect)) ∧
    (∃ n pk m, Met (.laneEqualizeDone n pk m) (fun s => (s.lane n.val).st = .equalize ∧ 15 ≤ m.toNat)) ∧
    (∃ n pk m, Met (.laneEqualizeDone n pk m) (fun _ => m.toNat < 15)) ∧
    (∃ n, Met (.laneBlockLock n) (fun s => (s.lane n.val).st = .block)) ∧
    (∃ n, Met (.laneIdentifyDone n) (fun s => (s.lane n.val).st = .identify ∧ (s.lane n.val).identOk = true)) ∧
    (∃ n, Met (.laneLockDone n) (fun s => (s.lane n.val).st = .lock ∧ 8 ≤ (s.lane n.val).pairs ∧ holdOk (s.targetLl n.val) (s.lane n.val).nlat = true)) ∧
    (∃ n, Met (.laneLockDone n) (fun s => (s.lane n.val).st = .lock ∧ 8 ≤ (s.lane n.val).pairs ∧ holdOk (s.targetLl n.val) (s.lane n.val).nlat = false ∧ (s.lane n.val).attempts = 2)) ∧
    (∃ n k c, Met (.laneAttemptTimeout n) (fun s => (s.lane n.val).st.limit = some (k, c) ∧ (s.lane n.val).attempts < 2 ∧ s.now ≤ min ((s.lane n.val).since + k) ((s.lane n.val).attemptAt + 10000000))) ∧
    (∃ n k c, Met (.laneAttemptTimeout n) (fun s => (s.lane n.val).st.limit = some (k, c) ∧ 2 ≤ (s.lane n.val).attempts)) ∧
    (∃ n, Met (.laneAutoRetrain n) (fun s => (s.lane n.val).st = .down ∧ (s.lane n.val).auto = true ∧ (s.lane n.val).ent.used = true ∧ (s.lane n.val).reason = 6 ∧ s.now ≤ (s.lane n.val).since + 1000000000)) ∧
    (∃ n m, Met (.laneMarginMeasure n m) (fun s => (s.lane n.val).st = .up ∧ s.now ≤ (s.lane n.val).marginAt + 1000000)) ∧
    (∃ n, Met (.laneRelock n) (fun s => (s.lane n.val).st = .up ∧ (s.lane n.val).relock = true ∧ 8 ≤ (s.lane n.val).pairs ∧ holdOk (s.lane n.val).ll (s.lane n.val).nlat = true)) ∧
    (∃ n, Met (.laneWakeEnd n) (fun s => (s.lane n.val).st = .idle ∧ (s.lane n.val).waking = true ∧ 2 ≤ (s.lane n.val).wakeChecks)) ∧
    (∃ n, Met (.patternLockLoss n true) (fun s => (s.lane n.val).st = .test)) ∧
    (∃ n bits e, Met (.laneTestEnd n bits e) (fun s => (s.lane n.val).st = .test ∧ (s.lane n.val).testUp = false ∧ s.now ≤ (s.lane n.val).testAt + (s.lane n.val).testLen)) :=
  ⟨⟨4, .signal, lane4 { st := .up }, by decide +kernel⟩,
   ⟨4, lane4 { st := .detect }, by decide +kernel⟩,
   ⟨4, 3, 15, lane4 { st := .equalize }, by decide +kernel⟩,
   ⟨4, 3, 14, ready, by decide +kernel⟩,
   ⟨4, lane4 { st := .block }, by decide +kernel⟩,
   ⟨4, lane4 { st := .identify, identOk := true }, by decide +kernel⟩,
   ⟨4, lane4 { st := .lock, pairs := 8, nlat := 2, on := { ll := 64 } }, by decide +kernel⟩,
   ⟨4, lane4 { st := .lock, pairs := 8, nlat := 1, on := { ll := 64 }, attempts := 2 }, by decide +kernel⟩,
   ⟨4, 4000000, 2, lane4 { st := .equalize, since := 900, attemptAt := 500, attempts := 1 }, by decide +kernel⟩,
   ⟨4, 1000000, 5, lane4 { st := .lock, since := 900, attempts := 2 }, by decide +kernel⟩,
   ⟨4, lane4 { st := .down, auto := true, reason := 6, since := 900 }, by decide +kernel⟩,
   ⟨4, 9, lane4 { st := .up, marginAt := 900 }, by decide +kernel⟩,
   ⟨4, lane4 { st := .up, relock := true, pairs := 8, nlat := 64, ll := 64 }, by decide +kernel⟩,
   ⟨4, lane4 { st := .idle, waking := true, wakeChecks := 2 }, by decide +kernel⟩,
   ⟨4, lane4 { st := .test }, by decide +kernel⟩,
   ⟨4, 1000, 2, lane4 { st := .test, testAt := 900, testLen := 1000000 }, by decide +kernel⟩⟩

/-- Every premise of `ConcordanceCommandsComplete` is met. -/
theorem witness_ConcordanceCommandsComplete :
    MetBy concMapCmd (fun _ p => fld (wordAt p.payload 0) 63 62 = 0 ∧ bitAt (wordAt p.payload 0) 57 = false) ∧
    MetBy concMapCmd (fun _ p => fld (wordAt p.payload 0) 63 62 = 0 ∧ bitAt (wordAt p.payload 0) 57 = true) ∧
    MetBy concMapCmd (fun _ p => fld (wordAt p.payload 0) 63 62 = 1 ∧ fld (wordAt p.payload 0) 61 53 = 1) ∧
    MetBy concMapCmd (fun _ p => fld (wordAt p.payload 0) 63 62 = 2) ∧
    MetBy concWriteCmd (fun s p => fld (wordAt p.payload 0) 63 62 = 0 ∧ (s.vw (fld (wordAt p.payload 0) 61 58)).bank1 = false) ∧
    MetBy concWriteCmd (fun s p => fld (wordAt p.payload 0) 63 62 = 0 ∧ (s.vw (fld (wordAt p.payload 0) 61 58)).bank1 = true) ∧
    MetBy concWriteCmd (fun s p => fld (wordAt p.payload 0) 63 62 = 1 ∧ (s.vw (fld (wordAt p.payload 0) 61 58)).bank1 = false) ∧
    MetBy concWriteCmd (fun s p => fld (wordAt p.payload 0) 63 62 = 1 ∧ (s.vw (fld (wordAt p.payload 0) 61 58)).bank1 = true) ∧
    MetBy concCommitCmd (fun _ p => fld (wordAt p.payload 0) 63 62 = 0) ∧
    MetBy concCommitCmd (fun _ p => fld (wordAt p.payload 0) 63 62 = 1) :=
  ⟨⟨ready, pkt 0x0901 [orAll [put 61 58 1, put 56 52 1, put 51 31 2, put 30 15 9], 0, 0, 0, 0, 0, 0, 0], by decide +kernel, by decide +kernel⟩,
   ⟨view1, pkt 0x0901 [orAll [put 61 58 1, put 57 57 1], 0, 0, 0, 0, 0, 0, 0], by decide +kernel, by decide +kernel⟩,
   ⟨view1, pkt 0x0901 [orAll [put 63 62 1, put 61 53 1], orAll [put 63 56 255, put 55 55 1, put 54 51 1], put 63 63 1, 0, 0, 0, 0, 0, 0, 0], by decide +kernel, by decide +kernel⟩,
   ⟨view1, pkt 0x0901 [orAll [put 63 62 2, put 61 58 1]], by decide +kernel, by decide +kernel⟩,
   ⟨view1, pkt 0x0902 [orAll [put 61 58 1, put 57 37 1, put 36 15 1], 0xAB00], by decide +kernel, by decide +kernel⟩,
   ⟨view1 fun v => { v with bank1 := true }, pkt 0x0902 [orAll [put 61 58 1, put 57 37 1, put 36 15 1], 0xAB00], by decide +kernel, by decide +kernel⟩,
   ⟨view1, pkt 0x0902 [orAll [put 63 62 1, put 61 58 1, put 36 15 2], 0xAB00], by decide +kernel, by decide +kernel⟩,
   ⟨view1 fun v => { v with bank1 := true }, pkt 0x0902 [orAll [put 63 62 1, put 61 58 1, put 36 15 2], 0xAB00], by decide +kernel, by decide +kernel⟩,
   ⟨view1, pkt 0x0903 [orAll [put 61 58 1, put 57 57 1], 1, 2, 3, 4], by decide +kernel, by decide +kernel⟩,
   ⟨view1 fun v => { v with st := .verifying }, pkt 0x0903 [orAll [put 63 62 1, put 61 58 1], 0, 0, 0, 0], by decide +kernel, by decide +kernel⟩⟩

/-- Every premise of `ConcordanceEventsComplete` is met. -/
theorem witness_ConcordanceEventsComplete :
    (∃ o, Met .concFillEnd (fun s => s.openOf 0x0902 = some o)) ∧
    (∃ v, Met (.verificationEnd v) (fun s => (s.vw v.val).st = .verifying ∧ sm3 (s.viewMessage v.val) ≠ (s.vw v.val).digest ∧ s.now ≤ (s.vw v.val).since + (s.vw v.val).size)) ∧
    (∃ v, Met (.verificationEnd v) (fun s => (s.vw v.val).st = .verifying ∧ sm3 (s.viewMessage v.val) = (s.vw v.val).digest ∧ s.members v.val = [] ∧ (s.vw v.val).copyback = false ∧ s.now ≤ (s.vw v.val).since + (s.vw v.val).size)) ∧
    (∃ v q, Met (.verificationEnd v) (fun s => (s.vw v.val).st = .verifying ∧ sm3 (s.viewMessage v.val) = (s.vw v.val).digest ∧ q ∈ s.members v.val ∧ (∀ r ∈ s.members v.val, (s.sq r).mayLand = false) ∧ s.now ≤ (s.vw v.val).since + (s.vw v.val).size)) ∧
    (∃ q v, Met (.memberLanding q) (fun s => (s.sq q.val).mayLand = true ∧ (s.mem q.val).active.view = some v ∧ (s.vw v.val).st = .swapping ∧ (s.mem q.val).landed = false)) ∧
    (∃ v, Met (.copyingEnd v) (fun s => (s.vw v.val).st = .copying ∧ (s.vw v.val).bank1 = true ∧ s.now ≤ (s.vw v.val).since + (s.vw v.val).size)) ∧
    (∃ b i, Met (.concordanceScrub b i 0) (fun _ => True)) ∧
    (∃ b i v, Met (.concordanceScrub b i 1) (fun s => (List.range 16).find? (fun v => (s.vw v).holds i.val) = some v)) ∧
    (∃ b i, Met (.concordanceScrub b i 2) (fun _ => True)) :=
  ⟨⟨{ opcode := 0x0902, packet := pkt 0x0902 [orAll [put 63 62 1, put 61 58 1, put 36 15 2], 0], accept := 4, sqHead := 0, since := 999, long := false }, { view1 with host := { ready.host with open_ := [{ opcode := 0x0902, packet := pkt 0x0902 [orAll [put 63 62 1, put 61 58 1, put 36 15 2], 0], accept := 4, sqHead := 0, since := 999, long := false }] } }, by decide +kernel⟩,
   ⟨1, view1 fun v => { v with st := .verifying, since := 999, digest := 1 }, by decide +kernel⟩,
   ⟨1, (let s := (view1 fun v => { v with st := .verifying, since := 999 }); s.modView 1 fun v => { v with digest := sm3 (s.viewMessage 1) }), by decide +kernel⟩,
   ⟨1, 3, (let s := (view1 fun v => { v with st := .verifying, since := 999 }); s.modView 1 fun v => { v with digest := sm3 (s.viewMessage 1) }) |>.modMember 3 (fun m => { m with active := { m.active with view := some 1 } }) |>.modSeq 3 fun c => { c with mode := .running }, by decide +kernel⟩,
   ⟨3, 1, (view1 fun v => { v with st := .swapping }).modMember 3 fun m => { m with active := { m.active with view := some 1 } }, by decide +kernel⟩,
   ⟨1, { view1 fun v => { v with st := .copying, bank1 := true, since := 999 } with conc := { (view1 fun v => { v with st := .copying, bank1 := true, since := 999 }).conc with cb1 := [(2, 7), (5, 9)] } }, by decide +kernel⟩,
   ⟨true, 2097151, ready, by decide +kernel⟩,
   ⟨true, 3, 1, view1, by decide +kernel⟩,
   ⟨true, 3, view1, by decide +kernel⟩⟩

/-- `ready` with input 12 of the given form. -/
def input12 (x : TrigIn) : State := ready.modIn 12 fun _ => x

/-- `ready` with demodulation slot 19 of the given form. -/
def slot19 (x : CapSlot) : State := ready.modCap 19 fun _ => x

/-- `ready` with bias channel 70 of the given form. -/
def chan70 (x : Chan) : State := ready.modChan 70 fun _ => x

/-- `ready` with monitor 70 of the given form, and its channel ON. -/
def mon70 (x : Monitor) : State := (chan70 { st := .on }).modMon 70 fun _ => x

/-- A state in which sequencer 33 binds demodulation slot 19. -/
def bound19 (s : State) : State := s.modSeq 1 fun c => { c with mode := .running, active := c.active.set 2 (.demod 19) }

/-- A premise of `AcquisitionCommandsComplete` is met. -/
theorem witness_AcquisitionCommandsComplete_1 : MetBy patternConfigCmd (fun _ p => ∃ i e, patRead p 0 = .select i false e ∧ i < 42) :=
  ⟨ready, pkt 0x0A02 [put 63 57 1, orAll [put 63 62 1, put 60 55 30, put 54 54 1, put 52 45 7], 0, 0], by decide +kernel, ⟨8, { en := true, mon := 7 }, by decide +kernel⟩⟩

/-- A premise of `AcquisitionCommandsComplete` is met. -/
theorem witness_AcquisitionCommandsComplete_2 : MetBy patternConfigCmd (fun _ p => ∃ i al both dir fi st, patRead p 0 = .input i false al both dir fi st ∧ i < 19) :=
  ⟨ready, pkt 0x0A02 [put 63 57 1, orAll [put 60 56 12, put 55 54 3, put 53 52 1, put 51 44 7], put 63 32 5, 0], by decide +kernel, ⟨12, true, true, 1, 7, 5, by decide +kernel⟩⟩

/-- A premise of `AcquisitionCommandsComplete` is met. -/
theorem witness_AcquisitionCommandsComplete_3 : MetBy patternConfigCmd (fun _ p => ∃ u en v m, patRead p 0 = .unit u false en v m ∧ u < 32) :=
  ⟨ready, pkt 0x0A02 [put 63 57 1, orAll [put 63 62 2, put 60 56 31, put 55 55 1], 6, 0xF0], by decide +kernel, ⟨31, true, 6, 0xF0, by decide +kernel⟩⟩

/-- A premise of `AcquisitionCommandsComplete` is met. -/
theorem witness_AcquisitionCommandsComplete_4 : MetBy patternConfigCmd (fun _ p => ∃ u en v m, patRead p 0 = .unit u true en v m) :=
  ⟨ready, pkt 0x0A02 [put 63 57 1, orAll [put 63 62 2, put 60 56 31, put 61 61 1], 0, 0], by decide +kernel, ⟨31, false, 0, 0, by decide +kernel⟩⟩

/-- A premise of `AcquisitionCommandsComplete` is met. -/
theorem witness_AcquisitionCommandsComplete_5 : MetBy captureConfigCmd (fun s p => fld (wordAt p.payload 0) 63 62 = 0 ∧ s.liveBinder (demodBinding (demodLine (capSlotOf p)) (demodSlotNo (capSlotOf p))) = none) :=
  ⟨ready, pkt 0x0A01 [orAll [put 63 62 0, put 61 57 1, put 56 53 3, put 52 51 1, put 50 46 4], 1000000, put 63 48 1, orAll [put 63 60 1, put 59 44 64, put 43 30 16], 0, 0, 0, 0, 0], by decide +kernel, by decide +kernel⟩

/-- A premise of `AcquisitionCommandsComplete` is met. -/
theorem witness_AcquisitionCommandsComplete_6 : MetBy captureConfigCmd (fun s p => fld (wordAt p.payload 0) 63 62 = 0 ∧ s.liveBinder (demodBinding (demodLine (capSlotOf p)) (demodSlotNo (capSlotOf p))) ≠ none) :=
  ⟨bound19 ready, pkt 0x0A01 [orAll [put 63 62 0, put 61 57 1, put 56 53 3, put 52 51 1, put 50 46 4], 1000000, put 63 48 1, orAll [put 63 60 1, put 59 44 64, put 43 30 16], 0, 0, 0, 0, 0], by decide +kernel, by decide +kernel⟩

/-- A premise of `AcquisitionCommandsComplete` is met. -/
theorem witness_AcquisitionCommandsComplete_7 : MetBy captureConfigCmd (fun s p => fld (wordAt p.payload 0) 63 62 = 1 ∧ s.liveBinder (demodBinding (demodLine (capSlotOf p)) (demodSlotNo (capSlotOf p))) = none) :=
  ⟨slot19 { active := some { start := 1, pt := 4, at_ := 0, minPeriod := 1000000, ring := 1, reds := [{ kind := 1, a := 64, b := 16 }], i0 := 0, q0 := 0, si := 0, sq := 0 }, rings := [{ size := 1, recs := [[1, 2, 3, 4, 5, 6]] }] }, pkt 0x0A01 [orAll [put 63 62 1, put 61 57 1, put 56 53 3]], by decide +kernel, by decide +kernel⟩

/-- A premise of `AcquisitionCommandsComplete` is met. -/
theorem witness_AcquisitionCommandsComplete_8 : MetBy captureConfigCmd (fun s p => fld (wordAt p.payload 0) 63 62 = 1 ∧ s.liveBinder (demodBinding (demodLine (capSlotOf p)) (demodSlotNo (capSlotOf p))) ≠ none) :=
  ⟨bound19 (slot19 { active := some { start := 1, pt := 4, at_ := 0, minPeriod := 1000000, ring := 1, reds := [{ kind := 1, a := 64, b := 16 }], i0 := 0, q0 := 0, si := 0, sq := 0 } }), pkt 0x0A01 [orAll [put 63 62 1, put 61 57 1, put 56 53 3]], by decide +kernel, by decide +kernel⟩

/-- A premise of `AcquisitionCommandsComplete` is met. -/
theorem witness_AcquisitionCommandsComplete_9 : MetBy captureConfigCmd (fun _ p => fld (wordAt p.payload 0) 63 62 = 2) :=
  ⟨slot19 { active := some { start := 1, pt := 4, at_ := 0, minPeriod := 1000000, ring := 1, reds := [{ kind := 1, a := 64, b := 16 }], i0 := 0, q0 := 0, si := 0, sq := 0 }, starts := 8 }, pkt 0x0A01 [orAll [put 63 62 2, put 61 57 1, put 56 53 3]], by decide +kernel, by decide +kernel⟩

/-- A premise of `AcquisitionCommandsComplete` is met. -/
theorem witness_AcquisitionCommandsComplete_10 : MetBy captureReadCmd (fun _ p => fld (wordAt p.payload 0) 63 62 = 0) :=
  ⟨slot19 { active := some { start := 1, pt := 4, at_ := 0, minPeriod := 1000000, ring := 1, reds := [{ kind := 1, a := 64, b := 16 }], i0 := 0, q0 := 0, si := 0, sq := 0 }, rings := [{ size := 1, recs := [[1, 2, 3, 4, 5, 6]] }], ready := [[9]], lostRead := 3, resync := true }, pkt 0x0A03 [orAll [put 63 62 0, put 61 57 1, put 56 53 3, put 52 39 2]], by decide +kernel, by decide +kernel⟩

/-- A premise of `AcquisitionCommandsComplete` is met. -/
theorem witness_AcquisitionCommandsComplete_11 : MetBy captureReadCmd (fun _ p => fld (wordAt p.payload 0) 63 62 = 1) :=
  ⟨slot19 { active := some { start := 1, pt := 4, at_ := 0, minPeriod := 1000000, ring := 1, reds := [{ kind := 1, a := 64, b := 16 }], i0 := 0, q0 := 0, si := 0, sq := 0 }, rings := [{ size := 1, recs := [[1, 2, 3, 4, 5, 6]] }], ready := [[9]], lostRead := 3, resync := true }, pkt 0x0A03 [orAll [put 63 62 1, put 61 57 1, put 56 53 3, put 52 39 2]], by decide +kernel, by decide +kernel⟩

/-- A premise of `AcquisitionCommandsComplete` is met. -/
theorem witness_AcquisitionCommandsComplete_12 : MetBy captureReadCmd (fun _ p => fld (wordAt p.payload 0) 63 62 = 2) :=
  ⟨slot19 { active := some { start := 1, pt := 4, at_ := 0, minPeriod := 1000000, ring := 1, reds := [{ kind := 1, a := 64, b := 16 }], i0 := 0, q0 := 0, si := 0, sq := 0 }, rings := [{ size := 1, recs := [[1, 2, 3, 4, 5, 6]] }], ready := [[9]], lostRead := 3, resync := true }, pkt 0x0A03 [orAll [put 63 62 2, put 61 57 1, put 56 53 3, put 52 39 0]], by decide +kernel, by decide +kernel⟩

/-- Every premise of `AcquisitionEventsComplete` is met. -/
theorem witness_AcquisitionEventsComplete :
    (∃ i level d, Met (.triggerInputEdge i level d) (fun s => (s.inp i.val).active = (s.inp i.val).level ∧ (s.inp i.val).ball ≠ s.lineHigh i.val level)) ∧
    (∃ i level d, Met (.triggerInputEdge i level d) (fun s => (s.inp i.val).active = true ∧ (s.inp i.val).level = false ∧ (s.inp i.val).ball ≠ s.lineHigh i.val level ∧ 0 < (s.inp i.val).filter ∧ s.now + d.val ≤ (s.inp i.val).due)) ∧
    (∃ i level d, Met (.triggerInputEdge i level d) (fun s => (s.inp i.val).active = (s.inp i.val).level ∧ (s.inp i.val).ball = s.lineHigh i.val level)) ∧
    (∃ i, Met (.triggerEvent i) (fun s => (s.inp i.val).active = true ∧ (s.inp i.val).level = false ∧ (s.inp i.val).isInput i.val = true ∧ (s.inp i.val).lastEvent = none ∧ s.now ≤ (s.inp i.val).due)) ∧
    (∃ i e, Met (.triggerEvent i) (fun s => (s.inp i.val).active = true ∧ (s.inp i.val).level = false ∧ (s.inp i.val).isInput i.val = true ∧ (s.inp i.val).lastEvent = some e ∧ (s.inp i.val).due < e + 4)) ∧
    (∃ i, Met (.inputStuck i) (fun s => (s.inp i.val).level = true ∧ (s.inp i.val).stuck ≠ 0 ∧ (s.inp i.val).isStuck = false ∧ s.now ≤ (s.inp i.val).levelAt + (s.inp i.val).stuck - 1)) ∧
    (∃ u, Met (.patternUnitFire u) (fun s => (s.svSync.acq.unit[u]).matches_ (s.sv s.now) = true ∧ (s.svSync.acq.unit[u]).prev = false ∧ (s.acq.unit[u]).lastFire ≠ some s.now)) ∧
    (∃ k n, Met (.captureHoldoffEnd k) (fun s => (s.cap k.val).holdUntil = some n ∧ s.now ≤ n)) ∧
    (∃ k data r, Met (.rawRecordEnd k data) (fun s => firstEnd (s.cap k.val).raws = some r ∧ (s.cap k.val).rawLate.contains r = false ∧ r.full = false ∧ s.now ≤ r.last)) ∧
    (∃ k data r, Met (.rawRecordEnd k data) (fun s => firstEnd (s.cap k.val).raws = some r ∧ (s.cap k.val).rawLate.contains r = false ∧ r.full = true ∧ s.now ≤ r.last)) ∧
    (∃ k data r, Met (.rawRecordEnd k data) (fun s => firstEnd (s.cap k.val).raws = some r ∧ (s.cap k.val).rawLate.contains r = true ∧ s.now ≤ r.last)) ∧
    (∃ k r l g, Met (.recordDrain k none) (fun s => (s.cap k.val).ready = r :: l ∧ (s.cap k.val).rings = [g] ∧ (g.recs.map List.length).sum + r.length ≤ 8192 * g.size ∧ (s.cap k.val).lost < 2 ^ 32)) ∧
    (∃ k n r l, Met (.recordDrain k (some n)) (fun s => (s.cap k.val).ready = r :: l ∧ (s.cap k.val).rings ≠ [])) ∧
    (∃ x, Met .verdictLatch (fun s => earliest s.fabric.flight = some x ∧ s.now ≤ x.at_)) :=
  ⟨⟨12, true, 3, input12 {  }, by decide +kernel⟩,
   ⟨12, false, 3, input12 { ball := true, ballAt := 999, filter := 20 }, by decide +kernel⟩,
   ⟨12, false, 3, input12 { ext := true }, by decide +kernel⟩,
   ⟨12, input12 { ball := true, ballAt := 999, filter := 20 }, by decide +kernel⟩,
   ⟨12, 1000, input12 { ball := true, ballAt := 999, lastEvent := some 1000 }, by decide +kernel⟩,
   ⟨12, input12 { ball := true, level := true, levelAt := 900, stuck := 200 }, by decide +kernel⟩,
   ⟨5, ({ ready with acq := { ready.acq with svAt := 1000, unit := ready.acq.unit.set 5 { en := true, value := 0, mask := 0xFFFFFFFFFFFFFFFE } } } : State).modCap 19 fun _ => { active := some { start := 1, pt := 5, at_ := 0, minPeriod := 1000000, ring := 1, reds := [{ kind := 1, a := 64, b := 16 }], i0 := 0, q0 := 0, si := 0, sq := 0 } }, by decide +kernel⟩,
   ⟨19, 1200, slot19 { active := some { start := 1, pt := 4, at_ := 0, minPeriod := 1000000, ring := 1, reds := [{ kind := 1, a := 64, b := 16 }], i0 := 0, q0 := 0, si := 0, sq := 0 }, holdUntil := some 1200 }, by decide +kernel⟩,
   ⟨19, [1, 2, 3], { first := 900, last := 1003, short := false, pre := 16, context := 9, units := 16, start := 1, pt := 4 }, slot19 { active := some { start := 1, pt := 4, at_ := 0, minPeriod := 1000000, ring := 1, reds := [{ kind := 1, a := 64, b := 16 }], i0 := 0, q0 := 0, si := 0, sq := 0 }, raw := some { first := 900, last := 1003, short := false, pre := 16, context := 9, units := 16, start := 1, pt := 4 }, seqno := 7 }, by decide +kernel⟩,
   ⟨19, [1, 2, 3], { first := 900, last := 1003, short := false, pre := 16, context := 9, units := 16, start := 1, pt := 4, full := true }, slot19 { active := some { start := 1, pt := 4, at_ := 0, minPeriod := 1000000, ring := 1, reds := [{ kind := 1, a := 64, b := 16 }], i0 := 0, q0 := 0, si := 0, sq := 0 }, raw := some { first := 900, last := 1003, short := false, pre := 16, context := 9, units := 16, start := 1, pt := 4, full := true }, seqno := 7, ready := [[put 63 60 1], [put 63 60 1]] }, by decide +kernel⟩,
   ⟨19, [1, 2, 3], { first := 900, last := 1003, short := false, pre := 16, context := 9, units := 16, start := 1, pt := 4 }, slot19 { active := some { start := 1, pt := 4, at_ := 0, minPeriod := 1000000, ring := 1, reds := [{ kind := 1, a := 64, b := 16 }], i0 := 0, q0 := 0, si := 0, sq := 0 }, rawLate := [{ first := 900, last := 1003, short := false, pre := 16, context := 9, units := 16, start := 1, pt := 4 }], seqno := 7, prevSeq := 3 }, by decide +kernel⟩,
   ⟨19, [7, 8, 9, 10, 11], [], { size := 1, recs := [[1, 2, 3, 4, 5, 6]] }, slot19 { ready := [[7, 8, 9, 10, 11]], rings := [{ size := 1, recs := [[1, 2, 3, 4, 5, 6]] }] }, by decide +kernel⟩,
   ⟨19, 4, [7, 8, 9, 10, 11], [], slot19 { ready := [[7, 8, 9, 10, 11]], rings := [{ size := 1, recs := [[1, 2, 3, 4, 5, 6]] }] }, by decide +kernel⟩,
   ⟨{ packet := (mkVerdict 0 1 3 1 true false false 500), at_ := 1010, reach := .cluster }, let s : State := { ready with fabric := { ready.fabric with flight := [{ packet := (mkVerdict 0 1 3 1 true false false 500), at_ := 1010, reach := .cluster }] } }; (bound19 s).modSeq 1 fun c => { c with sst := 500 }, by decide +kernel⟩⟩

/-- Every premise of `BiasCommandsComplete` is met. -/
theorem witness_BiasCommandsComplete :
    MetBy biasConfigCmd (fun _ p => fld (wordAt p.payload 0) 63 55 = 1 ∧ (bcRead p 0).action = 0) ∧
    MetBy biasConfigCmd (fun s p => fld (wordAt p.payload 0) 63 55 = 1 ∧ (bcRead p 0).action = 1 ∧ (s.ch (bcRead p 0).chan).st = .off) ∧
    MetBy biasConfigCmd (fun s p => fld (wordAt p.payload 0) 63 55 = 1 ∧ (bcRead p 0).action = 1 ∧ (s.ch (bcRead p 0).chan).st = .shutting) ∧
    MetBy biasConfigCmd (fun s p => fld (wordAt p.payload 0) 63 55 = 1 ∧ (bcRead p 0).action = 2 ∧ (s.ch (bcRead p 0).chan).st = .on) ∧
    MetBy biasConfigCmd (fun s p => fld (wordAt p.payload 0) 63 55 = 1 ∧ (bcRead p 0).action = 2 ∧ (s.ch (bcRead p 0).chan).st ≠ .on) ∧
    MetBy biasConfigCmd (fun _ p => fld (wordAt p.payload 0) 63 55 = 1 ∧ (bcRead p 0).action = 3) ∧
    MetBy biasSetCmd (fun _ p => fld (wordAt p.payload 0) 55 53 = 0) ∧
    MetBy biasSetCmd (fun _ p => fld (wordAt p.payload 0) 55 53 = 1 ∧ fld (wordAt p.payload 0) 52 51 = 0 ∧ ∃ v l, bsCodes p = v :: l) ∧
    MetBy biasSetCmd (fun _ p => fld (wordAt p.payload 0) 55 53 = 1 ∧ fld (wordAt p.payload 0) 52 51 = 1) ∧
    MetBy biasSetCmd (fun _ p => fld (wordAt p.payload 0) 55 53 = 1 ∧ fld (wordAt p.payload 0) 52 51 = 2) ∧
    MetBy biasSetCmd (fun _ p => fld (wordAt p.payload 0) 55 53 = 2) ∧
    MetBy biasSetCmd (fun _ p => fld (wordAt p.payload 0) 55 53 = 3) ∧
    MetBy monitorConfigCmd (fun s p => fld (wordAt p.payload 0) 63 55 = 1 ∧ (mcRead p 0).mon < 288 ∧ (mcRead p 0).action = 0 ∧ (s.monOf (mcRead p 0).mon).en = false ∧ (mcRead p 0).en = true) ∧
    MetBy monitorConfigCmd (fun s p => fld (wordAt p.payload 0) 63 55 = 1 ∧ (mcRead p 0).mon < 288 ∧ (mcRead p 0).action = 0 ∧ (s.monOf (mcRead p 0).mon).en = true ∧ (mcRead p 0).en = false) ∧
    MetBy monitorConfigCmd (fun s p => fld (wordAt p.payload 0) 63 55 = 1 ∧ (mcRead p 0).mon < 288 ∧ (mcRead p 0).action = 0 ∧ (s.monOf (mcRead p 0).mon).en = (mcRead p 0).en) ∧
    MetBy monitorConfigCmd (fun _ p => fld (wordAt p.payload 0) 63 55 = 1 ∧ (mcRead p 0).mon < 288 ∧ (mcRead p 0).action = 1) ∧
    MetBy monitorConfigCmd (fun _ p => fld (wordAt p.payload 0) 63 55 = 1 ∧ (mcRead p 0).mon < 288 ∧ (mcRead p 0).action = 2) :=
  ⟨⟨chan70 {  }, pkt 0x0B01 [put 63 55 1, orAll [put 63 56 70, put 55 54 0, put 53 52 2, put 51 50 2, put 47 30 100, put 29 14 3], put 63 32 2000], by decide +kernel, by decide +kernel⟩,
   ⟨chan70 { st := .off }, pkt 0x0B01 [put 63 55 1, orAll [put 63 56 70, put 55 54 1, put 53 52 2, put 51 50 2, put 47 30 100, put 29 14 3], put 63 32 2000], by decide +kernel, by decide +kernel⟩,
   ⟨chan70 { st := .shutting, range := 2, code := 777, target := 888 }, pkt 0x0B01 [put 63 55 1, orAll [put 63 56 70, put 55 54 1, put 53 52 2, put 51 50 2, put 47 30 100, put 29 14 3], put 63 32 2000], by decide +kernel, by decide +kernel⟩,
   ⟨chan70 { st := .on, code := 777, frozen := true }, pkt 0x0B01 [put 63 55 1, orAll [put 63 56 70, put 55 54 2], 0], by decide +kernel, by decide +kernel⟩,
   ⟨chan70 { st := .off }, pkt 0x0B01 [put 63 55 1, orAll [put 63 56 70, put 55 54 2], 0], by decide +kernel, by decide +kernel⟩,
   ⟨chan70 { st := .on }, pkt 0x0B01 [put 63 55 1, orAll [put 63 56 70, put 55 54 3], 0], by decide +kernel, by decide +kernel⟩,
   ⟨mon70 { tripped := false }, pkt 0x0B02 [orAll [put 63 56 70, put 55 53 0], 777], by decide +kernel, by decide +kernel⟩,
   ⟨mon70 { tripped := false }, pkt 0x0B02 [orAll [put 63 56 70, put 55 53 1, put 44 36 2], put 49 32 900 ||| 800], by decide +kernel, ⟨by decide +kernel, by decide +kernel, 800, [900], by decide +kernel⟩⟩,
   ⟨mon70 { tripped := false }, pkt 0x0B02 [orAll [put 63 56 70, put 55 53 1, put 52 51 1, put 44 36 2, put 31 0 700000], put 49 32 900 ||| 800], by decide +kernel, by decide +kernel⟩,
   ⟨mon70 { tripped := false }, pkt 0x0B02 [orAll [put 63 56 70, put 55 53 1, put 52 51 2, put 50 46 4, put 44 36 2], put 49 32 900 ||| 800], by decide +kernel, by decide +kernel⟩,
   ⟨mon70 {  }, pkt 0x0B02 [orAll [put 63 56 70, put 55 53 2]], by decide +kernel, by decide +kernel⟩,
   ⟨mon70 { tripped := false }, pkt 0x0B02 [orAll [put 63 56 70, put 55 53 3]], by decide +kernel, by decide +kernel⟩,
   ⟨mon70 { en := false, tripped := false }, pkt 0x0B03 [put 63 55 1, orAll [put 62 55 70, put 54 53 0, put 52 51 3, put 50 41 800, put 40 35 5, put 34 19 60], put 63 48 0x8001 ||| put 47 40 3], by decide +kernel, by decide +kernel⟩,
   ⟨mon70 {  }, pkt 0x0B03 [put 63 55 1, orAll [put 62 55 70, put 54 53 0, put 50 41 800, put 40 35 5, put 34 19 60], 0], by decide +kernel, by decide +kernel⟩,
   ⟨mon70 { tripped := false }, pkt 0x0B03 [put 63 55 1, orAll [put 62 55 70, put 54 53 0, put 52 51 3, put 50 41 800, put 40 35 5, put 34 19 60], 0], by decide +kernel, by decide +kernel⟩,
   ⟨mon70 { trips := 5 }, pkt 0x0B03 [put 63 55 1, orAll [put 62 55 70, put 54 53 1], 0], by decide +kernel, by decide +kernel⟩,
   ⟨mon70 { trips := 5 }, pkt 0x0B03 [put 63 55 1, orAll [put 62 55 70, put 54 53 2], 0], by decide +kernel, by decide +kernel⟩⟩

/-- Every premise of `BiasEventsComplete` is met. -/
theorem witness_BiasEventsComplete :
    (∃ d v r l, Met (.housekeepingRequestEnd d v) (fun s => (s.bias.hk[d]).reqs = r :: l)) ∧
    (∃ d v r l b o x y z, Met (.housekeepingRequestEnd d v) (fun s => (s.bias.hk[d]).reqs = r :: l ∧ r.ask = .measure b ∧ r.idx = 0 ∧ o.data = [x, y, z] ∧ o.silent = false ∧ s.host.open_.find? (fun o => o.accept == r.accept) = some o ∧ (∀ e : Fin 4, ∀ q ∈ (if e = d then l else (s.bias.hk[e]).reqs), q.accept ≠ r.accept) ∧ (s.queue o.packet.source).qstate ≠ .disabled)) ∧
    (∃ b, Met (.biasSlewStep b) (fun s => (s.ch b.val).st ≠ .off ∧ (s.ch b.val).frozen = false ∧ (s.ch b.val).range ≠ 1 ∧ (s.ch b.val).code ≠ (s.ch b.val).target ∧ s.now ≤ (s.ch b.val).slewAt + 1000 * (s.ch b.val).sper)) ∧
    (∃ b e v, Met (.deglitchHoldEnd b) (fun s => (s.ch b.val).hold = some (e, v) ∧ s.now ≤ e)) ∧
    (∃ b pt since e, Met (.biasQueueStart b) (fun s => (s.ch b.val).run = .waiting 2 pt since ∧ atN s.seqs.events pt none = some e ∧ since ≤ e ∧ s.now ≤ e)) ∧
    (∃ b since j v, Met (.biasQueueUpdate b) (fun s => (s.ch b.val).run = .running since j ∧ (s.ch b.val).frozen = false ∧ j < (s.ch b.val).codes.length ∧ (s.ch b.val).codes.getD j 0 = v ∧ s.now ≤ since + j * (s.ch b.val).quper)) ∧
    (∃ b, Met (.biasReachZero b) (fun s => (s.ch b.val).st = .shutting ∧ (s.ch b.val).code = zeroCode ∧ (s.ch b.val).hold = none ∧ (s.ch b.val).zeroAt = none)) ∧
    (∃ b n, Met (.biasSwitchOpen b) (fun s => (s.ch b.val).zeroAt = some n ∧ s.now ≤ n + 1000)) ∧
    (∃ b, Met (.stageLimitChange b true) (fun s => (s.ch b.val).st ≠ .off ∧ (s.ch b.val).limitAt = none)) ∧
    (∃ b, Met (.stageLimitChange b false) (fun _ => True)) ∧
    (∃ b current n, Met (.supervisionEvent b current) (fun s => (s.ch b.val).limitAt = some n ∧ (s.ch b.val).episode = 0 ∧ (s.ch b.val).st ≠ .off ∧ s.now ≤ n + 2000)) ∧
    (∃ b current n, Met (.supervisionEvent b current) (fun s => (s.ch b.val).limitAt = some n ∧ (s.ch b.val).episode = 0 ∧ (s.ch b.val).st ≠ .off ∧ s.now ≤ n + 2000)) ∧
    (∃ m x, Met (.monitorTrip m x) (fun s => (s.monOf m.val).en = true ∧ (s.monOf m.val).tripped = false ∧ s.hasCluster (monCluster m.val) = true ∧ s.tripsAt m.val ≤ s.atComparator m.val x)) ∧
    (∃ m x, Met (.monitorTrip m x) (fun s => s.atComparator m.val x < s.tripsAt m.val)) ∧
    (∃ m above, Met (.monitorRelease m above) (fun s => (s.monOf m.val).tripped = true ∧ s.releaseLevel m.val ≠ 0 ∧ s.hasCluster (monCluster m.val) = true ∧ s.now ≤ (s.monOf m.val).blankAt + above.toNat + 1000 * (s.monOf m.val).blank)) ∧
    (∃ m above, Met (.monitorRelease m above) (fun s => s.releaseLevel m.val = 0)) :=
  ⟨⟨1, 77, { ask := .measure 70, accept := 4, idx := 0 }, [], ({ ready with bias := { ready.bias with hk := ready.bias.hk.set 1 { reqs := [{ ask := .measure 70, accept := 4, idx := 0 }] } } } : State), by decide +kernel⟩,
   ⟨1, 77, { ask := .measure 70, accept := 4, idx := 0 }, [], 70, { opcode := 0x0B02, packet := pkt 0x0B02 [orAll [put 63 56 70, put 55 53 3]], accept := 4, sqHead := 0, since := 999, long := false, data := [1, 20000, 0] }, 1, 20000, 0, ({ ready with bias := { ready.bias with hk := ready.bias.hk.set 1 { reqs := [{ ask := .measure 70, accept := 4, idx := 0 }] } }, host := { ready.host with open_ := [{ opcode := 0x0B02, packet := pkt 0x0B02 [orAll [put 63 56 70, put 55 53 3]], accept := 4, sqHead := 0, since := 999, long := false, data := [1, 20000, 0] }] } } : State), by decide +kernel⟩,
   ⟨70, chan70 { st := .on, code := 800, target := 1000, step := 64, slewAt := 900 }, by decide +kernel⟩,
   ⟨70, 1100, 777, chan70 { st := .on, range := 1, hold := some (1100, 777) }, by decide +kernel⟩,
   ⟨70, 4, 500, 1050, ({ chan70 { st := .on, codes := [800, 900], run := .waiting 2 4 500 } with seqs := { ready.seqs with events := ready.seqs.events.set 4 (some 1050) } } : State), by decide +kernel⟩,
   ⟨70, 900, 1, 900, chan70 { st := .on, codes := [800, 900], run := .running 900 1 }, by decide +kernel⟩,
   ⟨70, chan70 { st := .shutting }, by decide +kernel⟩,
   ⟨70, 500, chan70 { st := .shutting, range := 1, zeroAt := some 500 }, by decide +kernel⟩,
   ⟨70, chan70 { st := .on }, by decide +kernel⟩,
   ⟨70, chan70 { st := .on, limitAt := some 500, episode := 1 }, by decide +kernel⟩,
   ⟨70, 100000, 500, chan70 { st := .on, limitAt := some 500, supv := 2 }, by decide +kernel⟩,
   ⟨70, 100000000, 500, chan70 { st := .on, limitAt := some 500, supv := 1 }, by decide +kernel⟩,
   ⟨70, 2000000000, mon70 { tripped := false, en := true, code := 5, dmap := 0x11, frz := true }, by decide +kernel⟩,
   ⟨70, 0, mon70 { tripped := false, en := true, code := 5, dmap := 0x11 }, by decide +kernel⟩,
   ⟨70, 500, mon70 { tripped := true, code := 500, hys := 3, tripD := 0x11, blankAt := 900 }, by decide +kernel⟩,
   ⟨70, 500, mon70 { tripped := true, code := 3, hys := 3 }, by decide +kernel⟩⟩

/-- `ready` with the calibration side of die 1 of the given form. -/
def cal1 (c : CalDie) : State := ready.modCal 1 fun _ => c

/-- `ready` with thermal supervision of the given form. -/
def therm (t : Thermal) : State := { ready with thermal := t }

/-- Trim words of die `d`, class `c`, index `i`: points 0 and 1 of each range as `w`, and the value in force of range 0 as `v`. -/
def trims (d c i : Nat) (w v : Word) (s : State) : State :=
  { s with cal := { s.cal with
      active := (List.range 3).flatMap fun r => [(trimAddr d c i r 0, some w), (trimAddr d c i r 1, some w)]
      inForce := [(trimAddr d c i 0 5, some v)]
      stepAt := [(trimAddr d c i 0 5, 1000)] } }

/-- Every premise of `CalibrationCompletes` is met. -/
theorem witness_CalibrationCompletes :
    MetBy calRunCmd (fun _ p => fld (wordAt p.payload 0) 63 61 = 0) ∧
    MetBy calRunCmd (fun _ p => fld (wordAt p.payload 0) 63 61 = 1) ∧
    MetBy calRunCmd (fun s p => fld (wordAt p.payload 0) 63 61 = 2 ∧ ∃ r, (s.calOf (fld (wordAt p.payload 0) 57 56)).run = some r) ∧
    MetBy calRunCmd (fun _ p => fld (wordAt p.payload 0) 63 61 = 3) ∧
    MetBy calRunCmd (fun _ p => fld (wordAt p.payload 0) 63 61 = 4) ∧
    MetBy trimLoadCmd (fun _ p => (trimAsk p).n = 1 ∧ (trimAsk p).factory = false) ∧
    MetBy trimLoadCmd (fun _ p => (trimAsk p).n = 1 ∧ (trimAsk p).factory = true) ∧
    MetBy trimReadCmd (fun _ _ => True) ∧
    (Met .trimTargetUpdate (fun s => s.now ≤ s.cal.updatedAt + 1000000)) ∧
    (∃ d c i, Met (.trimStep d c i) (fun s => i.val < classSize c.val ∧ s.hasDie d.val = true ∧ s.trimFree d.val c.val i.val = false ∧ s.remains d.val c.val i.val = true ∧ s.nextStep d.val c.val i.val ≤ s.now ∧ s.atBoundary (trimSlots d.val c.val i.val) = true ∧ s.swappedOut d.val c.val i.val = false)) ∧
    (∃ b, Met (.biasTrimStep b) (fun s => (s.ch b.val).st ≠ .off ∧ (s.ch b.val).frozen = false ∧ s.remains (b.val / 64) 4 (b.val % 64) = true ∧ s.now ≤ s.nextStep (b.val / 64) 4 (b.val % 64))) ∧
    (∃ d result run i r, Met (.calElementEnd d result) (fun s => (s.calOf d.val).run = some run ∧ s.calHead d.val = some (5, i, r) ∧ run.measured = false ∧ run.shift = true ∧ s.microStopped d.val = false ∧ s.now ≤ run.since + 1000000)) ∧
    (∃ d r o, Met (.calRunEnd d) (fun s => (s.calOf d.val).run = some r ∧ r.left = [] ∧ (∀ k ∈ [2 * d.val, 2 * d.val + 1], (s.dacSpare k).settled = true ∧ (s.adcSpare k).settled = true) ∧ (s.host.open_.find? fun o => o.opcode == 0x0C01#16 && o.accept == r.accept) = some o)) ∧
    (Met .internalCalibrationEnd (fun s => s.boot.phase = 8 ∧ s.boot.calCores < 16 * s.ident.tier.clusters)) :=
  ⟨⟨ready, pkt 0x0C01 [orAll [put 60 58 5, put 57 56 1, put 54 54 1], 1, 0], by decide +kernel, by decide +kernel⟩,
   ⟨cal1 { done_ := 3 }, pkt 0x0C01 [orAll [put 63 61 1, put 57 56 1]], by decide +kernel, by decide +kernel⟩,
   ⟨cal1 { run := some { cls := 5, shift := true, apply := true, freq := 0, level := 0, left := [(5, 0, 0)], since := 900, accept := 4 } }, pkt 0x0C01 [orAll [put 63 61 2, put 57 56 1]], by decide +kernel, ⟨by decide +kernel, { cls := 5, shift := true, apply := true, freq := 0, level := 0, left := [(5, 0, 0)], since := 900, accept := 4 }, by decide +kernel⟩⟩,
   ⟨cal1 { cand := [(trimAddr 1 5 0 0 2, some 7), (trimAddr 1 5 0 0 7, some 9)] }, pkt 0x0C01 [orAll [put 63 61 3, put 57 56 1]], by decide +kernel, by decide +kernel⟩,
   ⟨cal1 { cand := [(trimAddr 1 5 0 0 2, some 7)] }, pkt 0x0C01 [orAll [put 63 61 4, put 57 56 1]], by decide +kernel, by decide +kernel⟩,
   ⟨ready, pkt 0x0C02 [orAll [put 63 61 5, put 60 59 1, put 58 56 2, put 47 40 1], put 63 40 50], by decide +kernel, by decide +kernel⟩,
   ⟨ready, pkt 0x0C02 [orAll [put 63 61 5, put 60 59 1, put 58 56 2, put 47 40 1, put 37 37 1]], by decide +kernel, by decide +kernel⟩,
   ⟨ready, pkt 0x0C03 [orAll [put 63 61 0, put 60 59 1, put 58 56 2, put 55 48 3, put 47 40 4]], by decide +kernel, by decide +kernel⟩,
   ⟨ready, by decide +kernel⟩,
   ⟨0, 0, 1, (trims 0 0 1 (trimPut 0 [100, 20, 40, 3, 2]) (trimPut 0 [900, 20, 30, 3, 2]) ready).modSeq 1 fun c => { c with active := c.active.set 2 (.drive 9) }, by decide +kernel⟩,
   ⟨70, trims 1 4 6 (trimPut 4 [1000, 20]) (trimPut 4 [-5000, 20]) (ready.modChan 70 fun c => { c with st := .on }), by decide +kernel⟩,
   ⟨1, put 63 40 100, { cls := 5, shift := true, apply := true, freq := 0, level := 0, left := [(5, 0, 0)], since := 900, accept := 4 }, 0, 0, cal1 { state := 1, run := some { cls := 5, shift := true, apply := true, freq := 0, level := 0, left := [(5, 0, 0)], since := 900, accept := 4 } }, by decide +kernel⟩,
   ⟨1, { cls := 5, shift := true, apply := true, freq := 0, level := 0, left := [], since := 900, accept := 4 }, { opcode := 0x0C01, packet := pkt 0x0C01 [], accept := 4, sqHead := 0, since := 900, long := true }, { cal1 { state := 1, run := some { cls := 5, shift := true, apply := true, freq := 0, level := 0, left := [], since := 900, accept := 4 } } with host := { ready.host with open_ := [{ opcode := 0x0C01, packet := pkt 0x0C01 [], accept := 4, sqHead := 0, since := 900, long := true }] } }, by decide +kernel⟩,
   ⟨ready, by decide +kernel⟩⟩

/-- Every premise of `ThermalCompletes` is met. -/
theorem witness_ThermalCompletes :
    MetBy thermalConfigCmd (fun _ p => fld (wordAt p.payload 0) 63 62 = 0) ∧
    MetBy thermalConfigCmd (fun _ p => fld (wordAt p.payload 0) 63 62 = 1) ∧
    MetBy thermalConfigCmd (fun s p => fld (wordAt p.payload 0) 63 62 = 2 ∧ ∃ r, s.archive.thermal[fld (wordAt p.payload 0) 45 37]? = some r) ∧
    MetBy thermalConfigCmd (fun _ p => fld (wordAt p.payload 0) 63 62 = 3) ∧
    (∃ i v, Met (.sensorPoll i v) (fun s => s.supervised i.val = true ∧ (s.sensor i.val).failedAt = none ∧ (s.sensor i.val).devs < 2 ∧ s.now ≤ (s.sensor i.val).polledAt + s.pollGap i.val)) ∧
    (∃ i v n, Met (.sensorPoll i v) (fun s => s.supervised i.val = true ∧ (s.sensor i.val).failedAt = some n)) ∧
    (∃ n, Met .thermalLevelEntry (fun s => s.thermal.level = .normal ∧ s.thermal.aboveW = some n ∧ s.now ≤ n + 10000000)) ∧
    (∃ n, Met .thermalLevelEntry (fun s => s.thermal.level = .warn ∧ s.thermal.aboveT = some n ∧ s.now ≤ n + 10000000)) ∧
    (∃ n, Met .thermalLevelRelease (fun s => s.thermal.level = .warn ∧ s.thermal.belowW = some n ∧ s.now ≤ n + 100000000)) ∧
    (∃ n, Met .thermalLevelRelease (fun s => s.thermal.level = .throttle ∧ s.thermal.belowT = some n ∧ s.thermal.pinned = false ∧ s.thermal.step = 1 ∧ s.now ≤ max n s.thermal.stepAt + 100000000)) ∧
    (∃ n, Met .throttleStep (fun s => s.thermal.level = .throttle ∧ s.thermal.pinned = false ∧ s.thermal.aboveT = some n ∧ s.thermal.step < 5 ∧ s.now ≤ max n s.thermal.stepAt + 100000000)) ∧
    (∃ n, Met .throttleStep (fun s => s.thermal.level = .throttle ∧ s.thermal.pinned = false ∧ s.thermal.aboveT = none ∧ s.thermal.belowT = some n ∧ 1 < s.thermal.step ∧ s.now ≤ max n s.thermal.stepAt + 100000000)) ∧
    (Met .thermalShutdown (fun s => s.thermal.level ≠ .shutdown ∧ 3 ≤ s.thermal.fast)) ∧
    (∃ d n, Met (.shutdownDieStandby d) (fun s => s.thermal.shutAt = some n ∧ s.hasDie d.val = true ∧ atN s.thermal.dieDown d.val false = false ∧ (∀ i < 64, (s.ch (64 * d.val + i)).st = .off) ∧ s.now ≤ n + 2000000)) ∧
    (∃ m, Met (.dramTemperatureRead m) (fun s => s.memUp = true ∧ s.now ≤ s.boot.mr4At + 1000000)) ∧
    (Met .dramZqUpdate (fun s => s.memUp = true ∧ s.now ≤ s.boot.zqAt + 50000000)) ∧
    (∃ c a, Met (.dramPatrolScrub c a false) (fun s => c.val * 2 ^ 26 + a.toNat ∉ s.boot.poison)) ∧
    (∃ c a, Met (.dramPatrolScrub c a true) (fun s => s.memUp = true)) ∧
    (Met .meminitComplete (fun s => s.memUp = true)) :=
  ⟨⟨ready, pkt 0x0F02 [orAll [put 63 62 0, put 61 54 80, put 53 46 100]], by decide +kernel, by decide +kernel⟩,
   ⟨ready, pkt 0x0F02 [orAll [put 63 62 1]], by decide +kernel, by decide +kernel⟩,
   ⟨{ ready with archive := { ready.archive with thermal := [{ words := [1, 2, 3, 4, 5, 6, 7, 8] }] } }, pkt 0x0F02 [orAll [put 63 62 2]], by decide +kernel, ⟨by decide +kernel, { words := [1, 2, 3, 4, 5, 6, 7, 8] }, by decide +kernel⟩⟩,
   ⟨therm { skipped := 9 }, pkt 0x0F02 [orAll [put 63 62 3]], by decide +kernel, by decide +kernel⟩,
   ⟨7, -900, therm {  }, by decide +kernel⟩,
   ⟨7, 700, 500, (therm {}).modSensor 7 fun x => { x with failedAt := some 500 }, by decide +kernel⟩,
   ⟨900, therm { aboveW := some 900 }, by decide +kernel⟩,
   ⟨900, therm { level := .warn, aboveT := some 900 }, by decide +kernel⟩,
   ⟨900, therm { level := .warn, belowW := some 900 }, by decide +kernel⟩,
   ⟨900, therm { level := .throttle, step := 1, belowT := some 900 }, by decide +kernel⟩,
   ⟨900, therm { level := .throttle, step := 2, aboveT := some 900 }, by decide +kernel⟩,
   ⟨900, therm { level := .throttle, step := 3, belowT := some 900 }, by decide +kernel⟩,
   ⟨therm { fast := 3, level := .throttle }, by decide +kernel⟩,
   ⟨0, 900, therm { level := .shutdown, shutAt := some 900, dieDown := (Vector.replicate 4 true).set 0 false }, by decide +kernel⟩,
   ⟨Vector.replicate 8 3, therm { level := .throttle, step := 3 }, by decide +kernel⟩,
   ⟨ready, by decide +kernel⟩,
   ⟨3, 77, ready, by decide +kernel⟩,
   ⟨3, 77, ready, by decide +kernel⟩,
   ⟨ready, by decide +kernel⟩⟩

/-- `ready` with partitions 0 and 2 of the given state. -/
def parts02 (a c : PartState) : State :=
  (ready.modPart 0 fun x => { x with st := a }).modPart 2 fun x => { x with st := c }

/-- `ready` with queue 3 of the function of partition 0. -/
def moved3 : State := { ready with host := { ready.host with queueFunc := [(3, 1)] } }

/-- A Ledger record of the given sequence number. -/
def recOf (n : BitVec 64) : LedgerRec := { seq := n, kind := 2 }

/-- `ready` with a Ledger of three records and a checkpoint of the last. -/
def ledger3 : State :=
  let l : Ledger :=
    { ready.ledger with nextSeq := 4, records := [recOf 3, recOf 2, recOf 1], checkpoints := [{ anchor := recOf 3, before := [recOf 2, recOf 1] }] }
  let h : HostIf := { ready.host with queues := [(0, { qstate := .enabled, d2 := 0x8802000000000000 })] }
  { ready with host := h, ledger := l }

/-- A premise of `PartitionsComplete` is met. -/
theorem witness_PartitionsComplete_1 : MetBy partitionDefineCmd (fun _ p => pdMode p = 1) :=
  ⟨ready, pkt 0x1001 ([orAll [put 63 61 2, put 60 59 1]]), by decide +kernel, by decide +kernel⟩

/-- A premise of `PartitionsComplete` is met. -/
theorem witness_PartitionsComplete_2 : MetBy partitionDefineCmd (fun s p => pdMode p = 0 ∧ s.pdMoved p = []) :=
  ⟨ready, pkt 0x1001 ([orAll [put 63 61 2, put 60 59 0]] ++ (List.replicate 33 0).set 2 0), by decide +kernel, by decide +kernel⟩

/-- A premise of `PartitionsComplete` is met. -/
theorem witness_PartitionsComplete_3 : MetBy partitionDefineCmd (fun _ p => pdMode p = 2) :=
  ⟨ready, pkt 0x1001 ([orAll [put 63 61 2, put 60 59 2, put 58 44 1, put 43 28 3]]), by decide +kernel, by decide +kernel⟩

/-- A premise of `PartitionsComplete` is met. -/
theorem witness_PartitionsComplete_4 : MetBy partitionDefineCmd (fun s p => pdMode p ≠ 1 ∧ s.pdBusy p = true) :=
  ⟨{ moved3 with host := { moved3.host with open_ := [{ opcode := 0x0201, packet := { pkt 0x0201 [] with source := .queue 3 }, accept := 4, sqHead := 0, since := 999, long := false }] } }, pkt 0x1001 ([orAll [put 63 61 2, put 60 59 2, put 58 44 1, put 43 28 3]]), by decide +kernel, by decide +kernel⟩

/-- A premise of `PartitionsComplete` is met. -/
theorem witness_PartitionsComplete_5 : MetBy partitionHoldCmd (fun s p => fld (wordAt p.payload 0) 63 62 = 0 ∧ phParts p = [2] ∧ (s.pt 2).st = .running ∧ s.liveSeqs 2 = [] ∧ s.partIdle 2 = true) :=
  ⟨ready, pkt 0x1002 [orAll [put 63 62 0, put 60 53 4, put 52 29 7]], by decide +kernel, by decide +kernel⟩

/-- A premise of `PartitionsComplete` is met. -/
theorem witness_PartitionsComplete_6 : MetBy partitionHoldCmd (fun _ p => fld (wordAt p.payload 0) 63 62 = 1) :=
  ⟨parts02 .held .holding, pkt 0x1002 [orAll [put 63 62 1, put 60 53 5]], by decide +kernel, by decide +kernel⟩

/-- A premise of `PartitionsComplete` is met. -/
theorem witness_PartitionsComplete_7 : MetBy partitionHoldCmd (fun _ p => fld (wordAt p.payload 0) 63 62 = 2) :=
  ⟨parts02 .held .holding, pkt 0x1002 [orAll [put 63 62 2, put 60 53 5]], by decide +kernel, by decide +kernel⟩

/-- A premise of `PartitionsComplete` is met. -/
theorem witness_PartitionsComplete_8 : MetBy admitSharesCmd (fun _ p => fld (wordAt p.payload 0) 59 58 = 0 ∧ fld (wordAt p.payload 0) 63 60 < 8) :=
  ⟨ready, pkt 0x1003 [orAll [put 63 60 0, put 59 58 0], put 63 32 20000 ||| put 31 0 15000, put 63 32 8000 ||| put 31 16 400], by decide +kernel, by decide +kernel⟩

/-- A premise of `PartitionsComplete` is met. -/
theorem witness_PartitionsComplete_9 : MetBy admitSharesCmd (fun _ p => fld (wordAt p.payload 0) 59 58 = 0 ∧ fld (wordAt p.payload 0) 63 60 = 15) :=
  ⟨ready, pkt 0x1003 [orAll [put 63 60 15, put 59 58 0], put 63 32 24000 ||| put 31 0 16000, put 63 32 8000], by decide +kernel, by decide +kernel⟩

/-- A premise of `PartitionsComplete` is met. -/
theorem witness_PartitionsComplete_10 : MetBy admitSharesCmd (fun _ p => fld (wordAt p.payload 0) 59 58 = 1) :=
  ⟨ready, pkt 0x1003 [orAll [put 63 60 2, put 59 58 1]], by decide +kernel, by decide +kernel⟩

/-- A premise of `PartitionsComplete` is met. -/
theorem witness_PartitionsComplete_11 : (∃ k n, Met (.holdTimeout k) (fun s => (s.pt k.val).timeoutAt = some n ∧ (s.pt k.val).st = .holding ∧ s.now ≤ n)) :=
  ⟨2, 1500, ready.modPart 2 fun x => { x with st := .holding, timeoutAt := some 1500 }, by decide +kernel⟩

/-- A premise of `PartitionsComplete` is met. -/
theorem witness_PartitionsComplete_12 : (∃ d, Met (.diePatchApply d) (fun s => s.parts.patchWaits[d.val] = true ∧ s.patchFree d.val = true)) :=
  ⟨1, { (parts02 .held .held) with parts := { (parts02 .held .held).parts with patchWaits := ready.parts.patchWaits.set 1 true } }, by decide +kernel⟩

/-- A premise of `PartitionsComplete` is met. -/
theorem witness_PartitionsComplete_13 : (∃ d n, Met (.diePatchEnd d) (fun s => s.parts.patchSince[d.val] = some n ∧ (atN s.units.stores (2 + d.val) {}).pendingPatch = none)) :=
  ⟨1, 900, { ready with parts := { ready.parts with patchSince := ready.parts.patchSince.set 1 (some 900) } }, by decide +kernel⟩

/-- A premise of `PartitionsComplete` is met. -/
theorem witness_PartitionsComplete_14 : (∃ d n img, Met (.diePatchEnd d) (fun s => s.parts.patchSince[d.val] = some n ∧ (atN s.units.stores (2 + d.val) {}).pendingPatch = some img)) :=
  ⟨1, 900, { index := 3, release := 2, entries := [], digest16 := 5 }, { ready with parts := { ready.parts with patchSince := ready.parts.patchSince.set 1 (some 900) }, units := { ready.units with stores := updN ready.units.stores 3 fun m => { m with pendingPatch := some { index := 3, release := 2, entries := [], digest16 := 5 } } } }, by decide +kernel⟩

/-- A premise of `PartitionsComplete` is met. -/
theorem witness_PartitionsComplete_15 : (∃ q, Met (.bridgeParityError (.cue q)) (fun s => (s.sq q.val).inShot = true ∧ s.hasCluster (seqCluster q.val) = true)) :=
  ⟨33, ready.modSeq 33 fun c => { c with mode := .running, active := c.active.set 2 (.drive 9) }, by decide +kernel⟩

/-- A premise of `PartitionsComplete` is met. -/
theorem witness_PartitionsComplete_16 : (∃ l, Met (.bridgeParityError (.state l)) (fun s => s.hasCluster (lineCluster l.val) = true)) :=
  ⟨5, ready.modLine 5 fun x => { x with words := [{ slot := 1, state := 1, valid := true, win := { start := 1, len := 2, seq := 3, sst := 4, capt := false }, hub := 1000 }] }, by decide +kernel⟩

/-- A premise of `PartitionsComplete` is met. -/
theorem witness_PartitionsComplete_17 : (∃ l, Met (.bridgeParityError (.value l)) (fun s => s.hasCluster (lineCluster l.val) = true)) :=
  ⟨5, ready.modEst 5 fun e => { e with arriving := [{ val := { slot := 1, yi := 1, yq := 1, close := 3, outOfRange := false, taint := false, est := true, ovrinv := false, done_ := 4, z := [], win := { start := 1, len := 2, seq := 3, sst := 4, capt := false } }, readable := 1001 }] }, by decide +kernel⟩

/-- A premise of `PartitionsComplete` is met. -/
theorem witness_PartitionsComplete_18 : (∃ lane e, Met (.bridgeParityError lane) (fun s => s.hasDie (laneSide lane).1 = true ∧ s.parts.parity = [(lane, e)] ∧ e < s.now ∧ s.now ≤ e + 1000 ∧ s.parts.worn.contains lane = false)) :=
  ⟨.value 5, 500, { ready with parts := { ready.parts with parity := [(.value 5, 500)] } }, by decide +kernel⟩

/-- A premise of `PartitionsComplete` is met. -/
theorem witness_PartitionsComplete_19 : (∃ d x, Met (.bridgeLaneRetire d true) (fun s => s.parts.worn.find? (fun x => laneSide x == (d.val, true)) = some x)) :=
  ⟨1, .value 9, { ready with parts := { ready.parts with lanesUp := ready.parts.lanesUp.set 1 2, worn := [.value 9] } }, by decide +kernel⟩

/-- A premise of `PartitionsComplete` is met. -/
theorem witness_PartitionsComplete_20 : (∃ d x, Met (.bridgeLaneRetire d false) (fun s => s.parts.worn.find? (fun x => laneSide x == (d.val, false)) = some x)) :=
  ⟨1, .cue 64, { ready with parts := { ready.parts with lanesDown := ready.parts.lanesDown.set 1 1, worn := [.state 9, .cue 64] } }, by decide +kernel⟩

/-- A premise of `PartitionsComplete` is met. -/
theorem witness_PartitionsComplete_21 : (∃ d up, Met (.bridgeLaneRetire d up) (fun s => s.parts.worn.find? (fun x => laneSide x == (d.val, up)) = none)) :=
  ⟨1, true, ready, by decide +kernel⟩

/-- A premise of `PartitionsComplete` is met. -/
theorem witness_PartitionsComplete_22 : (∃ d, Met (.uncoveredDieFault d) (fun s => s.hasDie d.val = true ∧ s.parts.dieFailed[d.val] = false)) :=
  ⟨1, ready, by decide +kernel⟩

/-- Every premise of `RecordsComplete` is met. -/
theorem witness_RecordsComplete :
    MetBy archiveStoreCmd (fun _ p => fld (wordAt p.payload 0) 63 62 = 0) ∧
    MetBy archiveStoreCmd (fun _ p => fld (wordAt p.payload 0) 63 62 = 1) ∧
    MetBy archiveStoreCmd (fun _ p => fld (wordAt p.payload 0) 63 62 = 2) ∧
    MetBy archiveStoreCmd (fun _ p => fld (wordAt p.payload 0) 63 62 = 3) ∧
    MetBy ledgerReadCmd (fun _ p => fld (wordAt p.payload 0) 63 62 = 0) ∧
    MetBy ledgerReadCmd (fun s p => fld (wordAt p.payload 0) 63 62 = 1 ∧ ∃ c, s.ledger.checkpoints.find? (fun c => c.anchor.seq = wordAt p.payload 1) = some c) ∧
    MetBy ledgerReadCmd (fun s p => fld (wordAt p.payload 0) 63 62 = 2 ∧ ∃ c l, s.ledger.checkpoints = c :: l) ∧
    MetBy troubleReadCmd (fun _ _ => True) ∧
    MetBy troubleClearCmd (fun _ _ => True) :=
  ⟨⟨ready, pkt 0x0D01 ([orAll [put 63 62 0, put 61 59 1]]), by decide +kernel, by decide +kernel⟩,
   ⟨ready, pkt 0x0D01 ([orAll [put 63 62 1, put 58 39 16]] ++ [7, 8]), by decide +kernel, by decide +kernel⟩,
   ⟨{ ready with archive := { ready.archive with staged := [(0, 5)], stagedLen := 1 } }, pkt 0x0D01 ([orAll [put 63 62 2]]), by decide +kernel, by decide +kernel⟩,
   ⟨ready, pkt 0x0D01 ([orAll [put 63 62 3]]), by decide +kernel, by decide +kernel⟩,
   ⟨ledger3, pkt 0x0D02 [orAll [put 63 62 0, put 61 53 2], 2], by decide +kernel, by decide +kernel⟩,
   ⟨ledger3, pkt 0x0D02 [orAll [put 63 62 1], 3], by decide +kernel, ⟨by decide +kernel, { anchor := recOf 3, before := [recOf 2, recOf 1] }, by decide +kernel⟩⟩,
   ⟨ledger3, pkt 0x0D02 [orAll [put 63 62 2], 0], by decide +kernel, ⟨by decide +kernel, { anchor := recOf 3, before := [recOf 2, recOf 1] }, [], by decide +kernel⟩⟩,
   ⟨{ ready with trouble := ready.trouble.set 3 5 }, pkt 0x0D03 [orAll [put 63 60 3, put 59 55 2]], by decide +kernel, by decide +kernel⟩,
   ⟨{ ready with trouble := ready.trouble.set 4 5 }, pkt 0x0D04 [put 63 60 4, 6], by decide +kernel, by decide +kernel⟩⟩

/-- A sealed packet of the debug port on its session. -/
def dpkt (opcode : Nat) (payload : Words) : Packet :=
  pktSeal opcode { source := .debugPort, tag := 5, handle := 0x90000001, payload := payload }

/-- `ready` with a debug session of the given level and the debug queue enabled. -/
def dbg (l : Nat) : State :=
  let x : Session := { func := 9, serial := 1, label := 7, level := l }
  { ready with host := { ready.host with sessions := ready.host.sessions ++ [x], debugQueue := { ready.host.debugQueue with qstate := .enabled } } }

/-- An SM2 key whose private half made the signature in the witnesses. -/
def key : PubKey :=
  { x := 0x63cb2de872e5dd595a57aae8b62bd596ff0ddc528dbd474ffc42b4e88a46eff3
    y := 0x643f476f2cf9c00d0f2dd0491f605c098396e1f00268281ccf712de46aaf384b }

/-- `dbg` with a live challenge for level 2 and the owner key. -/
def challenged : State :=
  let c : Challenge := { value := 5, handle := 0x90000001, level := 2, issuedAt := 900 }
  { dbg 0 with sec := { ready.sec with owner := some key, challenge := some c } }

/-- A state with one open long command. -/
def openIn (s : State) (o : OpenCmd) : State := { s with host := { s.host with open_ := [o] } }

/-- `ready` in a power state. -/
def pow (x : PowerCtl) : State := { ready with power := x }

/-- `ready` in a start-up phase. -/
def boot (f : Boot → Boot) : State := { ready with boot := f ready.boot }

/-- `dbg 3` with the debug access port selected, and the given power state. -/
def dap (l : Nat) (x : Power) (d : Dap := {}) : State :=
  let j : Jtag := { ir := 0x40 }
  { dbg l with dap := d, boot := { ready.boot with jtag := j }, power := { ready.power with st := x } }

/-- Every premise of `SecurityCompletes` is met. -/
theorem witness_SecurityCompletes :
    MetBy attestCmd (fun _ p => fld (wordAt p.payload 0) 63 62 = 0) ∧
    MetBy attestCmd (fun s p => fld (wordAt p.payload 0) 63 62 = 1 ∧ ∃ k, s.sec.identity = some k) ∧
    (Met .configurationMeasurement (fun s => s.units.token.isSome = true ∧ s.boot.phase = 8 ∧ s.now ≤ s.sec.configAt + 60000000000)) ∧
    MetBy debugUnlockCmd (fun s p => fld (wordAt p.payload 0) 63 62 = 0 ∧ s.ownerLevel (fld (wordAt p.payload 0) 61 60) = true) ∧
    MetBy debugUnlockCmd (fun s p => fld (wordAt p.payload 0) 63 62 = 0 ∧ s.ownerLevel (fld (wordAt p.payload 0) 61 60) = false) ∧
    MetBy debugUnlockCmd (fun s p => fld (wordAt p.payload 0) 63 62 = 1 ∧ s.responseOk p = true) ∧
    MetBy debugUnlockCmd (fun s p => fld (wordAt p.payload 0) 63 62 = 1 ∧ s.responseOk p = false) ∧
    MetBy debugUnlockCmd (fun _ p => fld (wordAt p.payload 0) 63 62 = 2) ∧
    MetBy debugUnlockCmd (fun _ p => fld (wordAt p.payload 0) 63 62 = 3) ∧
    (∃ c, Met .debugChallengeExpiry (fun s => s.sec.challenge = some c ∧ s.now ≤ c.issuedAt + 60000000000)) ∧
    (∃ n, Met .debugLockoutEnd (fun s => s.sec.lockoutAt = some n ∧ s.now ≤ n + 60000000000)) ∧
    MetBy patchLoadCmd (fun _ p => fld (wordAt p.payload 0) 63 61 = 0) ∧
    MetBy patchLoadCmd (fun _ p => fld (wordAt p.payload 0) 63 61 = 1) ∧
    MetBy patchLoadCmd (fun _ p => fld (wordAt p.payload 0) 63 61 = 2) ∧
    MetBy patchLoadCmd (fun _ p => fld (wordAt p.payload 0) 63 61 = 3) ∧
    MetBy patchLoadCmd (fun _ p => fld (wordAt p.payload 0) 63 61 = 4) ∧
    MetBy lifecycleAdvanceCmd (fun _ p => fld (wordAt p.payload 0) 63 62 = 2) ∧
    MetBy lifecycleAdvanceCmd (fun _ p => fld (wordAt p.payload 0) 63 62 ≠ 2) ∧
    (∃ a o, Met (.longCommandStep a) (fun s => s.longAny a = some o ∧ s.units.token.isSome = true ∧ s.units.switching = false ∧ o.opcode = 0x0D01 ∧ s.archive.snapshot = none)) ∧
    (∃ a o, Met (.longCommandStep a) (fun s => s.longAny a = some o ∧ s.units.token.isSome = true ∧ s.units.switching = false ∧ o.opcode ≠ 0x0D01 ∧ o.opcode ≠ 0x0E04)) ∧
    (∃ a o, Met (.longCommandStep a) (fun s => s.longAny a = some o ∧ s.units.token.isSome = true ∧ s.units.switching = false ∧ o.opcode = 0x0E04 ∧ o.steps = 0 ∧ fld (wordAt o.packet.payload 0) 63 62 = 1)) ∧
    (∃ a o, Met (.longCommandStep a) (fun s => s.longAny a = some o ∧ s.units.token.isSome = true ∧ s.units.switching = false ∧ o.opcode = 0x0E04 ∧ o.steps = 0 ∧ fld (wordAt o.packet.payload 0) 63 62 = 0 ∧ fld (wordAt o.packet.payload 0) 61 60 = 1 ∧ s.transitionOk 1 (bitAt (wordAt o.packet.payload 0) 59) = true)) ∧
    (∃ a o, Met (.longCommandStep a) (fun s => s.longAny a = some o ∧ s.units.token.isSome = true ∧ s.units.switching = false ∧ o.opcode = 0x0E04 ∧ o.steps = 0 ∧ fld (wordAt o.packet.payload 0) 63 62 = 0 ∧ fld (wordAt o.packet.payload 0) 61 60 = 2 ∧ s.transitionOk 2 (bitAt (wordAt o.packet.payload 0) 59) = true)) ∧
    (∃ a o, Met (.longCommandStep a) (fun s => s.longAny a = some o ∧ s.units.token.isSome = true ∧ s.units.switching = false ∧ o.opcode = 0x0E04 ∧ o.steps = 0 ∧ fld (wordAt o.packet.payload 0) 63 62 = 0 ∧ fld (wordAt o.packet.payload 0) 61 60 = 3 ∧ bitAt (wordAt o.packet.payload 0) 59 = false ∧ s.transitionOk 3 false = true)) ∧
    (∃ a o, Met (.longCommandStep a) (fun s => s.longAny a = some o ∧ s.units.token.isSome = true ∧ s.units.switching = false ∧ o.opcode = 0x0E04 ∧ o.steps = 0 ∧ fld (wordAt o.packet.payload 0) 63 62 = 0 ∧ fld (wordAt o.packet.payload 0) 61 60 = 3 ∧ bitAt (wordAt o.packet.payload 0) 59 = true ∧ s.transitionOk 3 true = true)) ∧
    (∃ a o k img, Met (.longCommandEnd a) (fun s => s.longOf a = some o ∧ s.units.token.isSome = true ∧ o.opcode = 0x0D01 ∧ o.steps ≠ 0 ∧ s.archive.snapshot = some (k, img))) ∧
    (∃ a o, Met (.longCommandEnd a) (fun s => s.longOf a = some o ∧ s.units.token.isSome = true ∧ o.opcode = 0x0E04 ∧ o.steps ≠ 0)) ∧
    (∃ a o, Met (.longCommandEnd a) (fun s => s.longOf a = some o ∧ s.units.token.isSome = true ∧ o.opcode = 0x0E04 ∧ o.steps ≠ 0)) ∧
    (∃ a o, Met (.longCommandEnd a) (fun s => s.longOf a = some o ∧ s.units.token.isSome = true ∧ o.opcode = 0x0E03 ∧ s.diePatching = false ∧ sm3 (wordsBytes (Sparse.slice 0 s.sec.staging 0 (fld (wordAt o.packet.payload 5) 63 32 / 8))) ≠ num32 o.packet.payload 1)) :=
  ⟨⟨dbg 0, dpkt 0x0E01 [put 63 62 0, 1, 2, 3, 4], by decide +kernel, by decide +kernel⟩,
   ⟨{ ready with sec := { ready.sec with identity := some key } }, pkt 0x0E01 [put 63 62 1], by decide +kernel, ⟨by decide +kernel, key, by decide +kernel⟩⟩,
   ⟨ready, by decide +kernel⟩,
   ⟨dbg 0, dpkt 0x0E02 ([orAll [put 63 62 0, put 61 60 2]]), by decide +kernel, by decide +kernel⟩,
   ⟨dbg 0, dpkt 0x0E02 ([orAll [put 63 62 0, put 61 60 1]]), by decide +kernel, by decide +kernel⟩,
   ⟨challenged, dpkt 0x0E02 ([orAll [put 63 62 1, put 61 60 2]] ++ words32 0xde037e5a6228d6ad7a187f9b36f17a8bc0c65a1b35769f8b1ed41c1d5009d504 ++ words32 0x509ece559e57c2d9978dcffded0656a844efeb39945fd24ce5438fdb935f0468), by decide +kernel, by decide +kernel⟩,
   ⟨challenged, dpkt 0x0E02 ([orAll [put 63 62 1, put 61 60 2]] ++ [1, 2, 3, 4, 5, 6, 7, 8]), by decide +kernel, by decide +kernel⟩,
   ⟨dbg 2, dpkt 0x0E02 ([orAll [put 63 62 2, put 61 60 1]]), by decide +kernel, by decide +kernel⟩,
   ⟨dbg 2, dpkt 0x0E02 ([orAll [put 63 62 3, put 61 60 0]]), by decide +kernel, by decide +kernel⟩,
   ⟨{ value := 5, handle := 0x90000001, level := 2, issuedAt := 900 }, challenged, by decide +kernel⟩,
   ⟨900, { ready with sec := { ready.sec with lockoutAt := some 900, fails := 3 } }, by decide +kernel⟩,
   ⟨ready, pkt 0x0E03 ([orAll [put 63 61 0, put 58 38 2]] ++ [7, 8]), by decide +kernel, by decide +kernel⟩,
   ⟨ready, pkt 0x0E03 ([orAll [put 63 61 1]] ++ [0, 0, 0, 0, put 63 32 16]), by decide +kernel, by decide +kernel⟩,
   ⟨ready, pkt 0x0E03 ([orAll [put 63 61 2]]), by decide +kernel, by decide +kernel⟩,
   ⟨ready, pkt 0x0E03 ([orAll [put 63 61 3]]), by decide +kernel, by decide +kernel⟩,
   ⟨{ ready with units := { ready.units with a := { ready.units.a with release := 3 }, b := { ready.units.b with release := 3 } } }, pkt 0x0E03 ([orAll [put 63 61 4]]), by decide +kernel, by decide +kernel⟩,
   ⟨ready, pkt 0x0E04 [put 63 62 2], by decide +kernel, by decide +kernel⟩,
   ⟨pow { st := .hold }, pkt 0x0E04 [put 61 60 2], by decide +kernel, by decide +kernel⟩,
   ⟨4, { opcode := 0x0D01, packet := pkt 0x0D01 [put 61 59 7], accept := 4, sqHead := 0, since := 900, long := true }, openIn ready { opcode := 0x0D01, packet := pkt 0x0D01 [put 61 59 7], accept := 4, sqHead := 0, since := 900, long := true }, by decide +kernel⟩,
   ⟨4, { opcode := 0x0E03, packet := pkt 0x0E03 [put 63 61 1, 0, 0, 0, 0, 0], accept := 4, sqHead := 0, since := 900, long := true }, openIn ready { opcode := 0x0E03, packet := pkt 0x0E03 [put 63 61 1, 0, 0, 0, 0, 0], accept := 4, sqHead := 0, since := 900, long := true }, by decide +kernel⟩,
   ⟨4, { opcode := 0x0E04, packet := pkt 0x0E04 ([orAll [put 63 62 1]] ++ words32 key.x ++ words32 key.y), accept := 4, sqHead := 0, since := 900, long := true }, openIn { ready with sec := { ready.sec with lifecycle := .provisioned, owner := some key, identity := some key } } { opcode := 0x0E04, packet := pkt 0x0E04 ([orAll [put 63 62 1]] ++ words32 key.x ++ words32 key.y), accept := 4, sqHead := 0, since := 900, long := true }, by decide +kernel⟩,
   ⟨4, { opcode := 0x0E04, packet := pkt 0x0E04 ([orAll [put 61 60 1]] ++ words32 key.x ++ words32 key.y), accept := 4, sqHead := 0, since := 900, long := true }, openIn { ready with sec := { ready.sec with lifecycle := .blank, owner := some key, identity := some key } } { opcode := 0x0E04, packet := pkt 0x0E04 ([orAll [put 61 60 1]] ++ words32 key.x ++ words32 key.y), accept := 4, sqHead := 0, since := 900, long := true }, by decide +kernel⟩,
   ⟨4, { opcode := 0x0E04, packet := pkt 0x0E04 ([orAll [put 61 60 2]] ++ words32 key.x ++ words32 key.y), accept := 4, sqHead := 0, since := 900, long := true }, openIn { ready with sec := { ready.sec with lifecycle := .provisioned, owner := some key, identity := some key } } { opcode := 0x0E04, packet := pkt 0x0E04 ([orAll [put 61 60 2]] ++ words32 key.x ++ words32 key.y), accept := 4, sqHead := 0, since := 900, long := true }, by decide +kernel⟩,
   ⟨4, { opcode := 0x0E04, packet := pkt 0x0E04 ([orAll [put 61 60 3]] ++ words32 key.x ++ words32 key.y), accept := 4, sqHead := 0, since := 900, long := true }, openIn { ready with sec := { ready.sec with lifecycle := .deployed, owner := some key, identity := some key } } { opcode := 0x0E04, packet := pkt 0x0E04 ([orAll [put 61 60 3]] ++ words32 key.x ++ words32 key.y), accept := 4, sqHead := 0, since := 900, long := true }, by decide +kernel⟩,
   ⟨4, { opcode := 0x0E04, packet := pkt 0x0E04 ([orAll [put 61 60 3, put 59 59 1]] ++ words32 key.x ++ words32 key.y), accept := 4, sqHead := 0, since := 900, long := true }, openIn { ready with sec := { ready.sec with lifecycle := .retired, owner := some key, identity := some key } } { opcode := 0x0E04, packet := pkt 0x0E04 ([orAll [put 61 60 3, put 59 59 1]] ++ words32 key.x ++ words32 key.y), accept := 4, sqHead := 0, since := 900, long := true }, by decide +kernel⟩,
   ⟨4, { opcode := 0x0D01, packet := pkt 0x0D01 [put 61 59 7], accept := 4, sqHead := 0, since := 900, long := true, steps := 1 }, 7, { seq := 3 }, openIn { ready with archive := { ready.archive with st := .running, snapshot := some (7, { seq := 3 }) } } { opcode := 0x0D01, packet := pkt 0x0D01 [put 61 59 7], accept := 4, sqHead := 0, since := 900, long := true, steps := 1 }, by decide +kernel⟩,
   ⟨4, { opcode := 0x0E04, packet := pkt 0x0E04 ([orAll [put 61 60 2]] ++ words32 key.x ++ words32 key.y), accept := 4, sqHead := 0, since := 900, long := true, steps := 1 }, openIn { ready with sec := { ready.sec with moving := true } } { opcode := 0x0E04, packet := pkt 0x0E04 ([orAll [put 61 60 2]] ++ words32 key.x ++ words32 key.y), accept := 4, sqHead := 0, since := 900, long := true, steps := 1 }, by decide +kernel⟩,
   ⟨4, { opcode := 0x0E04, packet := pkt 0x0E04 ([orAll [put 61 60 2]] ++ words32 key.x ++ words32 key.y), accept := 4, sqHead := 0, since := 900, long := true, steps := 1 }, openIn { ready with sec := { ready.sec with moving := true, purged := true } } { opcode := 0x0E04, packet := pkt 0x0E04 ([orAll [put 61 60 2]] ++ words32 key.x ++ words32 key.y), accept := 4, sqHead := 0, since := 900, long := true, steps := 1 }, by decide +kernel⟩,
   ⟨4, { opcode := 0x0E03, packet := pkt 0x0E03 [put 63 61 1, 0, 0, 0, 0, 0], accept := 4, sqHead := 0, since := 900, long := true }, openIn ready { opcode := 0x0E03, packet := pkt 0x0E03 [put 63 61 1, 0, 0, 0, 0, 0], accept := 4, sqHead := 0, since := 900, long := true }, by decide +kernel⟩⟩

/-- Every premise of `PowerCompletes` is met. -/
theorem witness_PowerCompletes :
    MetBy powerStateCmd (fun _ p => fld (wordAt p.payload 0) 63 62 = 1) ∧
    MetBy powerStateCmd (fun s p => fld (wordAt p.payload 0) 63 62 = 0 ∧ powerOf (fld (wordAt p.payload 0) 61 60) = s.power.st) ∧
    MetBy powerStateCmd (fun s p => fld (wordAt p.payload 0) 63 62 = 0 ∧ powerOf (fld (wordAt p.payload 0) 61 60) ≠ s.power.st) ∧
    (∃ n e, Met .powerStepEnd (fun s => s.power.step = some n ∧ s.power.st = .run ∧ s.seqsBusy = true ∧ s.power.timeoutAt = some e ∧ s.now ≤ e)) ∧
    (∃ n, Met .powerStepEnd (fun s => s.power.step = some n ∧ s.power.st = .run ∧ s.seqsBusy = false)) ∧
    (∃ n, Met .powerStepEnd (fun s => s.power.step = some n ∧ s.power.st = .hold)) ∧
    (∃ n, Met .powerStepEnd (fun s => s.power.step = some n ∧ s.power.st = .standby ∧ n ≠ .dormant)) ∧
    (Met .powerStepEnd (fun s => s.power.step = some .dormant ∧ s.power.st = .standby ∧ ∀ b < 256, (s.ch b).st = .off)) ∧
    (∃ vio, Met (.railUndervoltage vio) (fun _ => True)) ∧
    (∃ vio, Met (.railUndervoltage vio) (fun _ => True)) ∧
    (Met .powerOnReset (fun s => s.boot.suppliesGood = false)) ∧
    (Met .hardReset (fun s => s.boot.suppliesGood = true ∧ s.boot.hardRamp = false ∧ s.power.st ≠ .dormant)) ∧
    (Met .hardReset (fun s => s.boot.suppliesGood = true ∧ s.boot.hardRamp = false ∧ s.power.st = .dormant)) ∧
    (Met .hardResetRampEnd (fun s => s.boot.hardRamp = true ∧ ∀ b < 256, (s.ch b).st = .off)) ∧
    (Met .perst (fun s => s.boot.suppliesGood = true ∧ s.power.st ≠ .dormant)) ∧
    (Met .perst (fun s => s.boot.suppliesGood = true ∧ s.power.st = .dormant)) ∧
    (Met .pfFlr (fun s => s.boot.linkUp = true)) ∧
    (∃ f, Met (.vfFlr f) (fun s => s.boot.linkUp = true ∧ s.boot.vfEnable = true)) ∧
    (∃ f, Met (.pcieD3hotEntry f) (fun s => s.boot.linkUp = true ∧ (f.val = 0 ∨ s.boot.vfEnable = true))) ∧
    (Met .pcieLinkUp (fun s => s.boot.suppliesGood = true ∧ 1 < s.boot.phase ∧ s.power.st ≠ .dormant ∧ s.boot.linkUp = false)) ∧
    (∃ r, Met (.startupPhaseEnd r) (fun s => s.boot.suppliesGood = true ∧ s.boot.hardRamp = false ∧ s.boot.phase = 0)) ∧
    (∃ r, Met (.startupPhaseEnd r) (fun s => s.boot.suppliesGood = true ∧ s.boot.hardRamp = false ∧ s.boot.phase = 1)) ∧
    (∃ r, Met (.startupPhaseEnd r) (fun s => s.boot.suppliesGood = true ∧ s.boot.hardRamp = false ∧ s.boot.phase = 2 ∧ s.units.token.isSome = true)) ∧
    (∃ r, Met (.startupPhaseEnd r) (fun s => s.boot.suppliesGood = true ∧ s.boot.hardRamp = false ∧ s.boot.phase = 3 ∧ r.faults.contains .identity = true)) ∧
    (∃ r, Met (.startupPhaseEnd r) (fun s => s.boot.suppliesGood = true ∧ s.boot.hardRamp = false ∧ s.boot.phase = 4 ∧ s.time.pll ≠ .unlocked ∧ s.boot.hot = false)) ∧
    (∃ r, Met (.startupPhaseEnd r) (fun s => s.boot.suppliesGood = true ∧ s.boot.hardRamp = false ∧ s.boot.phase = 5 ∧ r.faults = [])) ∧
    (∃ r, Met (.startupPhaseEnd r) (fun s => s.boot.suppliesGood = true ∧ s.boot.hardRamp = false ∧ s.boot.phase = 5 ∧ r.faults.contains .dramTraining = true)) ∧
    (∃ r, Met (.startupPhaseEnd r) (fun s => s.boot.suppliesGood = true ∧ s.boot.hardRamp = false ∧ s.boot.phase = 6)) ∧
    (∃ r, Met (.startupPhaseEnd r) (fun s => s.boot.suppliesGood = true ∧ s.boot.hardRamp = false ∧ s.boot.phase = 7 ∧ s.training = false)) :=
  ⟨⟨ready, pkt 0x0F01 [orAll [put 63 62 1, put 61 60 0]], by decide +kernel, by decide +kernel⟩,
   ⟨pow { st := .hold }, pkt 0x0F01 [orAll [put 63 62 0, put 61 60 1]], by decide +kernel, by decide +kernel⟩,
   ⟨ready, pkt 0x0F01 [orAll [put 63 62 0, put 61 60 2]], by decide +kernel, by decide +kernel⟩,
   ⟨.hold, 1500, (pow { step := some .hold, target := .standby, timeoutAt := some 1500 }).modSeq 3 fun c => { c with mode := .armed }, by decide +kernel⟩,
   ⟨.hold, pow { step := some .hold, target := .hold }, by decide +kernel⟩,
   ⟨.run, pow { st := .hold, step := some .run, target := .run }, by decide +kernel⟩,
   ⟨.hold, pow { st := .standby, step := some .hold, target := .run }, by decide +kernel⟩,
   ⟨pow { st := .standby, step := some .dormant, target := .dormant }, by decide +kernel⟩,
   ⟨true, { ready with trouble := ready.trouble.set 3 5 }, by decide +kernel⟩,
   ⟨false, { ready with trouble := ready.trouble.set 3 5 }, by decide +kernel⟩,
   ⟨boot fun b => { b with suppliesGood := false }, by decide +kernel⟩,
   ⟨ready.modChan 70 fun c => { c with st := .on }, by decide +kernel⟩,
   ⟨{ pow { st := .dormant } with trouble := ready.trouble.set 3 5 }, by decide +kernel⟩,
   ⟨boot fun b => { b with hardRamp := true }, by decide +kernel⟩,
   ⟨ready, by decide +kernel⟩,
   ⟨pow { st := .dormant }, by decide +kernel⟩,
   ⟨ready, by decide +kernel⟩,
   ⟨3, boot fun b => { b with vfEnable := true }, by decide +kernel⟩,
   ⟨3, boot fun b => { b with vfEnable := true }, by decide +kernel⟩,
   ⟨boot fun b => { b with linkUp := false }, by decide +kernel⟩,
   ⟨{ faults := [] }, boot fun b => { b with phase := 0 }, by decide +kernel⟩,
   ⟨{ faults := [] }, boot fun b => { b with phase := 1 }, by decide +kernel⟩,
   ⟨{ faults := [] }, boot fun b => { b with phase := 2 }, by decide +kernel⟩,
   ⟨{ faults := [.identity] }, boot fun b => { b with phase := 3 }, by decide +kernel⟩,
   ⟨{ faults := [] }, boot fun b => { b with phase := 4 }, by decide +kernel⟩,
   ⟨{ faults := [] }, boot fun b => { b with phase := 5 }, by decide +kernel⟩,
   ⟨{ faults := [.dramTraining] }, boot fun b => { b with phase := 5 }, by decide +kernel⟩,
   ⟨{ faults := [] }, boot fun b => { b with phase := 6 }, by decide +kernel⟩,
   ⟨{ faults := [] }, boot fun b => { b with phase := 7 }, by decide +kernel⟩⟩

/-- Every premise of `DebugPortCompletes` is met. -/
theorem witness_DebugPortCompletes :
    (∃ a v, Met (.dapQueueWrite a v) (fun s => s.dapReady = true ∧ s.dormant = false ∧ a.toNat % 8 = 0 ∧ a.toNat < 0x400)) ∧
    (∃ v, Met (.dapQueueWrite 0x800 v) (fun s => s.dapReady = true ∧ s.dormant = false ∧ bitAt v 0 = true ∧ s.host.debugQueue.qstate = .disabled)) ∧
    (∃ a v, Met (.dapQueueWrite a v) (fun s => s.dapReady = true ∧ s.dormant = true)) ∧
    (∃ a, Met (.dapQueueRead a) (fun s => s.dapReady = true ∧ a.toNat % 8 = 0 ∧ 0x900 ≤ a.toNat ∧ a.toNat ≤ 0x910)) ∧
    (∃ a, Met (.dapQueueRead a) (fun s => s.dapReady = true ∧ s.dormant = false ∧ a.toNat % 8 = 0 ∧ 0x400 ≤ a.toNat ∧ a.toNat < 0x800)) ∧
    (∃ v, Met (.dapDoorbell v) (fun s => s.dapReady = true ∧ s.dormant = false ∧ bitAt v 63 = false ∧ bitAt v 31 = true ∧ s.host.debugQueue.qstate = .enabled ∧ fld v 11 0 < 16 ∧ (s.host.debugQueue.sqTail.toNat + 16 - s.host.debugQueue.sqHead.toNat) % 16 ≤ (fld v 11 0 + 16 - s.host.debugQueue.sqHead.toNat) % 16)) ∧
    (∃ v, Met (.dapDoorbell v) (fun s => s.dapReady = true ∧ s.dormant = false ∧ bitAt v 63 = false ∧ bitAt v 31 = true ∧ s.host.debugQueue.live = false)) ∧
    (∃ a n, Met (.dapRawRead a) (fun s => s.dapReady = true ∧ s.dormant = false ∧ a.toNat % 8 = 0 ∧ rawLevel a = some n ∧ s.rawAllowed a n = true)) ∧
    (∃ a n, Met (.dapRawRead a) (fun s => s.dapReady = true ∧ s.dormant = false ∧ a.toNat % 8 = 0 ∧ rawLevel a = some n ∧ s.rawAllowed a n = false)) ∧
    (∃ a v n, Met (.dapRawWrite a v) (fun s => s.dapReady = true ∧ s.dormant = false ∧ a.toNat % 8 = 0 ∧ rawLevel a = some n ∧ rawRegion a = 0x30 ∧ s.rawAllowed a 3 = true)) ∧
    (∃ a v n, Met (.dapRawWrite a v) (fun s => s.dapReady = true ∧ s.dormant = false ∧ a.toNat % 8 = 0 ∧ rawLevel a = some n ∧ s.rawAllowed a 3 = false)) ∧
    (Met .dapBadOperation (fun s => s.dapReady = true ∧ s.dormant = false)) ∧
    (Met .dapOperationEnd (fun s => s.dap.busy = true)) ∧
    (Met .dapCaptureDr (fun s => s.boot.jtag.ir = 0x40)) ∧
    (Met .jtagIdcode (fun _ => True)) ∧
    (∃ v, Met (.jtagSamplePreload v) (fun _ => True)) ∧
    (Met .jtagExtest (fun s => s.pinsSafe = true)) ∧
    (Met .jtagExtest (fun s => s.pinsSafe = false)) ∧
    (Met .jtagClamp (fun s => s.pinsSafe = true)) ∧
    (Met .jtagHighz (fun s => s.pinsSafe = true)) ∧
    (Met .jtagDap (fun _ => True)) ∧
    (Met .jtagBypass (fun _ => True)) ∧
    (Met .jtagTestLogicReset (fun _ => True)) ∧
    (Met .smbusIdentity (fun s => s.smbusUp = true)) ∧
    (Met .smbusMailbox (fun s => s.smbusUp = true)) ∧
    (Met .smbusTemps (fun s => s.smbusUp = true)) ∧
    (Met .smbusTrouble (fun s => s.smbusUp = true)) ∧
    (Met (.smbusWake 0x57) (fun s => s.smbusUp = true ∧ s.dormant = true)) ∧
    (∃ v, Met (.smbusWake v) (fun s => v ≠ 0x57 ∨ s.dormant = false)) ∧
    (∃ v, Met (.smbusWake v) (fun s => v ≠ 0x57 ∨ s.dormant = false)) ∧
    (∃ c, Met (.smbusUnknownCommand c) (fun _ => True)) ∧
    (Met .smbusAlertResponse (fun s => s.smbusUp = true)) ∧
    (Met .smbusAlertResponse (fun s => s.smbusUp = true)) :=
  ⟨⟨0x1F8, 77, dap 3 .run, by decide +kernel⟩,
   ⟨1, { dap 3 .run with host := { (dap 3 .run).host with debugQueue := {} } }, by decide +kernel⟩,
   ⟨0x1F8, 77, dap 3 .dormant, by decide +kernel⟩,
   ⟨0x908, dap 3 .run, by decide +kernel⟩,
   ⟨0x408, dap 3 .run, by decide +kernel⟩,
   ⟨orAll [put 31 31 1, put 11 0 3], dap 3 .run, by decide +kernel⟩,
   ⟨orAll [put 31 31 1, put 11 0 3], { dap 3 .run with host := { (dap 3 .run).host with debugQueue := {} } }, by decide +kernel⟩,
   ⟨0x300000000008, 2, dap 3 .run, by decide +kernel⟩,
   ⟨0x300000000008, 2, dap 1 .run, by decide +kernel⟩,
   ⟨0x300000008008, 77, 2, dap 3 .run, by decide +kernel⟩,
   ⟨0x300000008008, 77, 2, dap 2 .run, by decide +kernel⟩,
   ⟨dap 3 .run, by decide +kernel⟩,
   ⟨dap 3 .run { busy := true, nextStatus := 2, nextData := 9 }, by decide +kernel⟩,
   ⟨dap 3 .run { busy := true, status := 2, data := 9 }, by decide +kernel⟩,
   ⟨ready, by decide +kernel⟩,
   ⟨77, ready, by decide +kernel⟩,
   ⟨ready, by decide +kernel⟩,
   ⟨ready.modChan 70 fun c => { c with st := .on }, by decide +kernel⟩,
   ⟨ready, by decide +kernel⟩,
   ⟨ready, by decide +kernel⟩,
   ⟨ready, by decide +kernel⟩,
   ⟨ready, by decide +kernel⟩,
   ⟨ready, by decide +kernel⟩,
   ⟨ready, by decide +kernel⟩,
   ⟨ready, by decide +kernel⟩,
   ⟨ready, by decide +kernel⟩,
   ⟨{ ready with trouble := ready.trouble.set 1 5 }, by decide +kernel⟩,
   ⟨pow { st := .dormant }, by decide +kernel⟩,
   ⟨0x56, pow { st := .dormant }, by decide +kernel⟩,
   ⟨0x57, ready, by decide +kernel⟩,
   ⟨9, boot fun b => { b with smbus := [3] }, by decide +kernel⟩,
   ⟨ready, by decide +kernel⟩,
   ⟨{ ready with thermal := { ready.thermal with level := .warn } }, by decide +kernel⟩⟩

end Sys2Proof.Tests
end

section
/-!
PROOFS. What a command leaves alone, part by part: `only_iff` turns a frame into equations of the parts, which the frame lemmas of the
shared operations decide.
-/
namespace Sys2Proof.Machine

/-- `Only`, part by part. -/
theorem only_iff (l : List Part) (s t : State) : Only l s t ↔
    (.pending ∈ l ∨ t.pending = s.pending) ∧ (.ident ∈ l ∨ t.ident = s.ident) ∧ (.time ∈ l ∨ t.time = s.time) ∧
    (.host ∈ l ∨ t.host = s.host) ∧ (.units ∈ l ∨ t.units = s.units) ∧ (.desk ∈ l ∨ t.desk = s.desk) ∧
    (.parts ∈ l ∨ t.parts = s.parts) ∧ (.archive ∈ l ∨ t.archive = s.archive) ∧ (.pages ∈ l ∨ t.pages = s.pages) ∧
    (.ledger ∈ l ∨ t.ledger = s.ledger) ∧ (.trouble ∈ l ∨ t.trouble = s.trouble) ∧ (.sec ∈ l ∨ t.sec = s.sec) ∧
    (.power ∈ l ∨ t.power = s.power) ∧ (.boot ∈ l ∨ t.boot = s.boot) ∧ (.dap ∈ l ∨ t.dap = s.dap) ∧
    (.seqs ∈ l ∨ t.seqs = s.seqs) ∧ (.synth ∈ l ∨ t.synth = s.synth) ∧ (.wave ∈ l ∨ t.wave = s.wave) ∧
    (.readout ∈ l ∨ t.readout = s.readout) ∧ (.est ∈ l ∨ t.est = s.est) ∧ (.fabric ∈ l ∨ t.fabric = s.fabric) ∧
    (.conc ∈ l ∨ t.conc = s.conc) ∧ (.acq ∈ l ∨ t.acq = s.acq) ∧ (.bias ∈ l ∨ t.bias = s.bias) ∧
    (.cal ∈ l ∨ t.cal = s.cal) ∧ (.thermal ∈ l ∨ t.thermal = s.thermal) ∧ (.free ∈ l ∨ t.free = s.free) := by
  constructor
  · intro h
    refine ⟨?_, ?_, ?_, ?_, ?_, ?_, ?_, ?_, ?_, ?_, ?_, ?_, ?_, ?_, ?_, ?_, ?_, ?_, ?_, ?_, ?_, ?_, ?_, ?_, ?_, ?_, ?_⟩ <;>
      exact (Classical.em _).imp_right (h _)
  · intro h k hk
    cases k <;> simp_all [Part.same]

/-- The parts that reporting a command touches. -/
@[simp] theorem mem_report (k : Part) :
    k ∈ report ↔ k = .host ∨ k = .desk ∨ k = .pages ∨ k = .ledger ∨ k = .trouble ∨ k = .free := by simp [report]

/-- The parts that a clause names, and those that reporting touches. -/
@[simp] theorem mem_withReport (k : Part) (l : List Part) : k ∈ withReport l ↔ k ∈ l ∨ k ∈ report := by simp [withReport]

/-- An outcome answers a next state in which nothing but the parts of `l` has changed. -/
def Keeps (l : List Part) (s : State) (r : Res) : Prop := ∀ t, r = .next t → Only l s t

@[simp] theorem keeps_next (l : List Part) (s t : State) : Keeps l s (.next t) ↔ Only l s t :=
  ⟨fun h => h t rfl, fun h u e => by cases e; exact h⟩

/-! ## Units, heartbeats and service lanes (R19, R332 to R341) -/

theorem unitSwitchover_frame (p : Packet) : Frame (.unitSwitchover p) (withReport [.units]) :=
  frame_of (c := unitSwitchoverCmd) (fun _ => rfl) (by simp) fun s => by
    unfold unitSwitchoverCmd; dsimp only
    split <;> simp [only_iff]

theorem heartbeatToggle_frame (u : UnitId) (w : Bool) (n : BitVec 16) : Frame (.heartbeatToggle u w n) [.time, .units] := fun s => by
  show Keeps _ s (execHeartbeatToggle u w n s)
  unfold execHeartbeatToggle; dsimp only
  split
  · split <;> simp [only_iff]
  · simp [only_iff]

theorem heartbeatMissing_frame (u : UnitId) : Frame (.heartbeatMissing u) (withReport [.time, .units]) := fun s => by
  show Keeps _ s (execHeartbeatMissing u s)
  unfold execHeartbeatMissing; dsimp only
  split
  · split <;> simp [only_iff]
  · simp [only_iff]

theorem tokenClaim_frame (u : UnitId) : Frame (.tokenClaim u) [.units] := fun s => by
  show Keeps _ s (execTokenClaim u s)
  simp [execTokenClaim, only_iff]

theorem keeperDecision_frame : Frame .keeperDecision (withReport [.units]) := fun s => by
  show Keeps _ s (execKeeperDecision s)
  simp [execKeeperDecision, only_iff]

theorem keeperVoterFault_frame (v : Fin 3) : Frame (.keeperVoterFault v) (withReport [.units]) := fun s => by
  show Keeps _ s (execKeeperVoterFault v s)
  unfold execKeeperVoterFault
  split <;> simp [only_iff]

theorem switchover_frame : Frame .switchover (withReport [.time, .units]) := fun s => by
  show Keeps _ s (execSwitchover s)
  unfold execSwitchover; dsimp only
  split
  · split
    · split <;> simp [only_iff]
    · simp [only_iff]
  · simp [only_iff]

theorem standbyAckTimeout_frame : Frame .standbyAckTimeout (withReport [.time, .units]) := fun s => by
  show Keeps _ s (execStandbyAckTimeout s)
  unfold execStandbyAckTimeout
  split <;> simp [only_iff]

theorem journalParityError_frame : Frame .journalParityError (withReport [.units]) := fun s => by
  show Keeps _ s (execJournalParityError s)
  unfold execJournalParityError
  split <;> simp [only_iff]

theorem standbyProof_frame (b : Bool) : Frame (.standbyProof b) (withReport [.time, .units]) := fun s => by
  show Keeps _ s (execStandbyProof b s)
  unfold execStandbyProof; dsimp only
  split
  · split <;> simp [only_iff]
  · simp [only_iff]

theorem unitRestart_frame (u : UnitId) : Frame (.unitRestart u) [.time, .units] := fun s => by
  show Keeps _ s (execUnitRestart u s)
  unfold execUnitRestart; dsimp only
  split
  · split <;> simp [only_iff]
  · simp [only_iff]

theorem unitSelftestEnd_frame (u : UnitId) (b : Bool) : Frame (.unitSelftestEnd u b) (withReport [.units, .boot, .sec]) := fun s => by
  show Keeps _ s (execUnitSelftestEnd u b s)
  unfold execUnitSelftestEnd; dsimp only
  split
  · simp [only_iff]
  split
  · split
    · simp [only_iff]
    · split <;> simp [only_iff]
  · split <;> simp [only_iff]

theorem resyncEnd_frame (u : UnitId) : Frame (.resyncEnd u) (withReport [.units]) := fun s => by
  show Keeps _ s (execResyncEnd u s)
  unfold execResyncEnd; dsimp only
  split
  · split
    · split <;> simp [only_iff]
    · simp [only_iff]
  · simp [only_iff]

theorem machineCheck_frame (c : MachineCause) (a : BitVec 14) : Frame (.machineCheck c a false) (withReport [.units]) := fun s => by
  show Keeps _ s (execMachineCheck c a false s)
  unfold execMachineCheck; dsimp only
  split
  · simp [only_iff]
  split
  · simp [only_iff]
  split
  · simp [only_iff]
  · rw [if_neg Bool.false_ne_true]
    split
    · simp [only_iff]
    · split <;> simp [only_iff]

theorem repairRequest_frame : Frame .repairRequest (withReport [.units, .seqs, .conc, .wave, .synth]) := fun s => by
  show Keeps _ s (execRepairRequest s)
  unfold execRepairRequest; dsimp only
  split
  · simp [only_iff]
  split
  · simp [only_iff]
  split
  · split <;> simp [only_iff]
  split
  · split <;> simp [only_iff]
  · split
    · simp [only_iff]
    · split <;> simp [only_iff]

theorem serviceLaneFailure_frame (u : UnitId) (d : Fin 4) : Frame (.serviceLaneFailure u d) (withReport [.units]) := fun s => by
  show Keeps _ s (execServiceLaneFailure u d s)
  unfold execServiceLaneFailure; dsimp only
  split
  · simp [only_iff]
  split
  · split <;> simp [only_iff]
  · simp [only_iff]

theorem serviceLaneRetrain_frame (d : Fin 4) (b : Bool) : Frame (.serviceLaneRetrain d b) [.time, .units] := fun s => by
  show Keeps _ s (execServiceLaneRetrain d b s)
  unfold execServiceLaneRetrain; dsimp only
  split
  · simp [only_iff]
  · split <;> simp [only_iff]

theorem serviceLaneUp_frame (u : UnitId) (d : Fin 4) : Frame (.serviceLaneUp u d) [.units] := fun s => by
  show Keeps _ s (execServiceLaneUp u d s)
  unfold execServiceLaneUp
  split <;> simp [only_iff]

theorem serviceLaneHoldTimeout_frame (d : Fin 4) : Frame (.serviceLaneHoldTimeout d) (withReport [.time, .units]) := fun s => by
  show Keeps _ s (execServiceLaneHoldTimeout d s)
  unfold execServiceLaneHoldTimeout; dsimp only
  split
  · split <;> simp [only_iff]
  · simp [only_iff]

/-- Settles O20: each event of the Keeper, the heartbeats and the service lanes is a few writes of the units, and its report. -/
theorem unitFrame : Obligations.UnitFrame :=
  ⟨unitSwitchover_frame, heartbeatToggle_frame, heartbeatMissing_frame, tokenClaim_frame, keeperDecision_frame,
    keeperVoterFault_frame, switchover_frame, standbyAckTimeout_frame, journalParityError_frame, standbyProof_frame,
    unitRestart_frame, unitSelftestEnd_frame, resyncEnd_frame, machineCheck_frame, repairRequest_frame,
    serviceLaneFailure_frame, serviceLaneRetrain_frame, serviceLaneUp_frame, serviceLaneHoldTimeout_frame⟩

/-! ## Sequencers (chapter 3) -/

theorem seqLoad_frame (p : Packet) : Frame (.seqLoad p) (withReport [.seqs]) :=
  frame_of (c := seqLoadCmd) (fun _ => rfl) (by simp) fun s => by simp [seqLoadCmd, only_iff]

theorem seqBind_frame (p : Packet) : Frame (.seqBind p) (withReport [.seqs]) :=
  frame_of (c := seqBindCmd) (fun _ => rfl) (by simp) fun s => by simp [seqBindCmd, only_iff]

theorem seqHalt_frame (p : Packet) : Frame (.seqHalt p) (withReport [.seqs, .time, .parts]) :=
  frame_of (c := seqHaltCmd) (fun _ => rfl) (by simp) fun s => by simp [seqHaltCmd, only_iff]

theorem seqStatus_frame (p : Packet) : Frame (.seqStatus p) (withReport [.seqs]) :=
  frame_of (c := seqStatusCmd) (fun _ => rfl) (by simp) fun s => by simp [seqStatusCmd, only_iff]

/-- An instruction that needs no stall: the word at the PC is that instruction and is executed, or nothing happens. A program fault on
the way aborts the shot (R84), which is reported. -/
theorem instruction_frame (q : Fin 256) : ∀ i ∈ [Instr.nop q, .alu q, .alui q, .li q, .movs q, .play q, .setf q, .setp q, .frame q,
    .measure q, .mark q, .br q, .loop q, .call q, .ret q, .brv q, .lookup q], Frame i (withReport [.time, .seqs]) := by
  simp only [List.forall_mem_cons]
  refine ⟨?_, ?_, ?_, ?_, ?_, ?_, ?_, ?_, ?_, ?_, ?_, ?_, ?_, ?_, ?_, ?_, ?_, List.forall_mem_nil _⟩ <;>
  · intro s
    show Keeps _ s _
    simp only [exec, execNop, execAlu, execAlui, execLi, execMovs, execPlay, execSetf, execSetp, execFrame, execMeasure, execMark, execBr,
      execLoop, execCall, execRet, execBrv, execLookup]
    split <;> simp [only_iff]

theorem waitResolve_frame (q : Fin 256) : Frame (.waitResolve q) (withReport [.time, .seqs]) := fun s => by
  show Keeps _ s (execWaitResolve q s)
  unfold execWaitResolve; dsimp only
  split
  · split
    · split <;> simp [only_iff]
    · simp [only_iff]
  · simp [only_iff]

theorem waitTimeout_frame (q : Fin 256) : Frame (.waitTimeout q) (withReport [.time, .seqs]) := fun s => by
  show Keeps _ s (execWaitTimeout q s)
  unfold execWaitTimeout; dsimp only
  split
  · split
    · split
      · simp [only_iff]
      · split <;> simp [only_iff]
    · simp [only_iff]
  · simp [only_iff]

theorem brvResolve_frame (q : Fin 256) : Frame (.brvResolve q) (withReport [.time, .seqs]) := fun s => by
  show Keeps _ s (execBrvResolve q s)
  unfold execBrvResolve; dsimp only
  split
  · split
    · split
      · simp [only_iff]
      · split <;> simp [only_iff]
    · simp [only_iff]
  · simp [only_iff]

theorem brvDeadline_frame (q : Fin 256) : Frame (.brvDeadline q) (withReport [.time, .seqs]) := fun s => by
  show Keeps _ s (execBrvDeadline q s)
  unfold execBrvDeadline; dsimp only
  split
  · split
    · split
      · split <;> simp [only_iff]
      · simp [only_iff]
    · simp [only_iff]
  · simp [only_iff]

theorem seqEnd_frame (q : Fin 256) : Frame (.seqEnd q) [.time, .seqs, .synth] := fun s => by
  show Keeps _ s (execSeqEnd q s)
  unfold execSeqEnd
  split <;> simp [only_iff]

theorem wait_frame (q : Fin 256) : Frame (.wait q) (withReport [.time, .seqs, .conc]) := fun s => by
  show Keeps _ s (execWait q s)
  unfold execWait
  split <;> simp [only_iff]

theorem lookupResolve_frame (q : Fin 256) : Frame (.lookupResolve q) [.time, .seqs, .conc] := fun s => by
  show Keeps _ s (execLookupResolve q s)
  unfold execLookupResolve; dsimp only
  split
  · split <;> simp [only_iff]
  · simp [only_iff]

theorem lookupResult_frame (q : Fin 256) (e : Fin 3) : Frame (.lookupResult q e) (withReport [.time, .seqs, .conc, .units]) := fun s => by
  show Keeps _ s (execLookupResult q e s)
  unfold execLookupResult
  split
  · split <;> simp [only_iff]
  · simp [only_iff]

theorem cueExecute_frame (q : Fin 256) :
    Frame (.cueExecute q) (withReport [.time, .seqs, .synth, .readout, .acq, .wave, .units]) := fun s => by
  show Keeps _ s (execCueExecute q s)
  unfold execCueExecute
  split <;> simp [only_iff]

theorem markPulseEnd_frame (m : MarkTarget) : Frame (.markPulseEnd m) [.time, .synth, .acq, .seqs, .free] := fun s => by
  show Keeps _ s (execMarkPulseEnd m s)
  unfold execMarkPulseEnd; dsimp only
  split
  · split
    · simp [only_iff]
    · split <;> simp [only_iff]
  · split <;> simp [only_iff]

theorem shotStart_frame (q : Fin 256) : Frame (.shotStart q) (withReport [.time, .seqs, .synth, .conc, .thermal]) := fun s => by
  show Keeps _ s (execShotStart q s)
  unfold execShotStart; dsimp only
  split
  · simp [only_iff]
  split
  · simp [only_iff]
  · split <;> simp [only_iff]

theorem seqAbortCut_frame (q : Fin 256) : Frame (.seqAbortCut q) (withReport [.time, .seqs, .synth, .readout, .wave]) := fun s => by
  show Keeps _ s (execSeqAbortCut q s)
  unfold execSeqAbortCut; dsimp only
  split
  · simp [only_iff]
  · split <;> simp [only_iff]

theorem shotLengthLimit_frame (q : Fin 256) : Frame (.shotLengthLimit q) (withReport [.time, .seqs]) := fun s => by
  show Keeps _ s (execShotLengthLimit q s)
  unfold execShotLengthLimit; dsimp only
  split
  · simp [only_iff]
  · split
    · split <;> simp [only_iff]
    · simp [only_iff]

theorem lockstepMiscompare_frame (q : Fin 256) : Frame (.lockstepMiscompare q) (withReport [.time, .seqs]) := fun s => by
  show Keeps _ s (execLockstepMiscompare q s)
  unfold execLockstepMiscompare
  split <;> simp [only_iff]

theorem sparePairRestoreEnd_frame (q : Fin 256) : Frame (.sparePairRestoreEnd q) (withReport [.time, .seqs, .parts]) := fun s => by
  show Keeps _ s (execSparePairRestoreEnd q s)
  unfold execSparePairRestoreEnd; dsimp only
  split
  · simp [only_iff]
  · split
    · simp [only_iff]
    · split <;> simp [only_iff]

theorem programMemoryError_frame (q : Fin 256) (a : Fin 4096) (b : Bool) :
    Frame (.programMemoryError q a b) (withReport [.time, .seqs, .units]) := fun s => by
  show Keeps _ s (execProgramMemoryError q a b s)
  unfold execProgramMemoryError
  split <;> simp [only_iff]

theorem debugSequencerHalt_frame (q : Fin 256) : Frame (.debugSequencerHalt q) [.seqs] := fun s => by
  show Keeps _ s (execDebugSequencerHalt q s)
  unfold execDebugSequencerHalt
  split
  · simp [only_iff]
  · split <;> simp [only_iff]

/-- Settles O27: each command, instruction and event of a sequencer is a few writes of its own state and of what it drives. -/
theorem sequencerFrame : Obligations.SequencerFrame := by
  refine ⟨seqLoad_frame, seqBind_frame, seqHalt_frame, seqStatus_frame, fun q i hi => ?_, seqEnd_frame, wait_frame, lookupResolve_frame,
    lookupResult_frame, cueExecute_frame, markPulseEnd_frame, shotStart_frame, seqAbortCut_frame, shotLengthLimit_frame,
    lockstepMiscompare_frame, sparePairRestoreEnd_frame, programMemoryError_frame, debugSequencerHalt_frame⟩
  rcases List.mem_append.1 (show i ∈ [Instr.nop q, .alu q, .alui q, .li q, .movs q, .play q, .setf q, .setp q, .frame q, .measure q,
      .mark q, .br q, .loop q, .call q, .ret q, .brv q, .lookup q] ++ [.waitResolve q, .waitTimeout q, .brvResolve q, .brvDeadline q]
      from hi) with h | h
  · exact instruction_frame q i h
  · simp only [List.mem_cons, List.not_mem_nil, or_false] at h
    rcases h with rfl | rfl | rfl | rfl
    · exact waitResolve_frame q
    · exact waitTimeout_frame q
    · exact brvResolve_frame q
    · exact brvDeadline_frame q

/-! ## Drive synthesis and the waveform memory (chapters 4 and 5) -/

theorem toneConfig_frame (p : Packet) : Frame (.toneConfig p) (withReport [.synth]) :=
  frame_of (c := toneConfigCmd) (fun _ => rfl) (by simp) fun s => by simp [toneConfigCmd, only_iff]

theorem xtalkMatrix_frame (p : Packet) : Frame (.xtalkMatrix p) (withReport [.synth]) :=
  frame_of (c := xtalkMatrixCmd) (fun _ => rfl) (by simp) fun s => by simp [xtalkMatrixCmd, only_iff]

theorem outputEnable_frame (p : Packet) : Frame (.outputEnable p) (withReport [.synth]) :=
  frame_of (c := outputEnableCmd) (fun _ => rfl) (by simp) fun s => by simp [outputEnableCmd, only_iff]

theorem outputRampEnd_frame (o : Fin 96) : Frame (.outputRampEnd o) [.time, .synth] := fun s => by
  show Keeps _ s (execOutputRampEnd o s)
  unfold execOutputRampEnd; dsimp only
  split
  · split <;> simp [only_iff]
  · simp [only_iff]
  · simp [only_iff]

theorem outputRampUpEnd_frame (o : Fin 96) : Frame (.outputRampUpEnd o) [.time, .synth] := fun s => by
  show Keeps _ s (execOutputRampUpEnd o s)
  unfold execOutputRampUpEnd; dsimp only
  split
  · split <;> simp [only_iff]
  · simp [only_iff]

theorem dacCoreSettled_frame (o : Fin 96) : Frame (.dacCoreSettled o) [.synth] := fun s => by
  show Keeps _ s (execDacCoreSettled o s)
  unfold execDacCoreSettled
  split <;> simp [only_iff]

theorem dacCoreFault_frame (o : Fin 96) : Frame (.dacCoreFault o) (withReport [.synth, .readout, .bias, .cal]) := fun s => by
  show Keeps _ s (execDacCoreFault o s)
  unfold execDacCoreFault; dsimp only
  split
  · simp [only_iff]
  split
  · split <;> simp [only_iff]
  split
  · simp [only_iff]
  split
  · simp [only_iff]
  · simp [only_iff]
  · split
    · split <;> simp [only_iff]
    · simp [only_iff]

theorem dacFaultSwapEnd_frame (o : Fin 96) : Frame (.dacFaultSwapEnd o) (withReport [.time, .synth]) := fun s => by
  show Keeps _ s (execDacFaultSwapEnd o s)
  unfold execDacFaultSwapEnd; dsimp only
  split
  · split
    · simp [only_iff]
    · split <;> simp [only_iff]
  · split <;> simp [only_iff]

theorem sparePrepared_frame (k : Fin 8) : Frame (.sparePrepared k) [.time, .synth, .readout] := fun s => by
  show Keeps _ s (execSparePrepared k s)
  unfold execSparePrepared
  split <;> simp [only_iff]

theorem dacPlannedSwap_frame (o : Fin 96) : Frame (.dacPlannedSwap o) [.synth] := fun s => by
  show Keeps _ s (execDacPlannedSwap o s)
  unfold execDacPlannedSwap; dsimp only
  split
  · split <;> simp [only_iff]
  · split <;> simp [only_iff]
  · simp [only_iff]

theorem dacPlannedSwapEnd_frame (o : Fin 96) :
    Frame (.dacPlannedSwapEnd o) [.time, .synth, .readout, .bias, .cal, .host] := fun s => by
  show Keeps _ s (execDacPlannedSwapEnd o s)
  unfold execDacPlannedSwapEnd; dsimp only
  split
  · split
    · simp [only_iff]
    · split <;> simp [only_iff]
  · simp [only_iff]

theorem plannedSwapAbandon_frame (k : Fin 8) : Frame (.plannedSwapAbandon k) [.time, .synth, .readout, .bias, .cal] := fun s => by
  show Keeps _ s (execPlannedSwapAbandon k s)
  unfold execPlannedSwapAbandon
  split <;> simp [only_iff]

theorem folioWrite_frame (p : Packet) : Frame (.folioWrite p) (withReport [.wave]) :=
  frame_of (c := folioWriteCmd) (fun _ => rfl) (by simp) fun s => by simp [folioWriteCmd, only_iff]

theorem shelfPin_frame (p : Packet) : Frame (.shelfPin p) (withReport [.wave]) :=
  frame_of (c := shelfPinCmd) (fun _ => rfl) (by simp) fun s => by
    unfold shelfPinCmd; dsimp only
    split <;> simp [only_iff]

theorem streamPlan_frame (p : Packet) : Frame (.streamPlan p) (withReport [.wave]) :=
  frame_of (c := streamPlanCmd) (fun _ => rfl) (by simp) fun s => by simp [streamPlanCmd, only_iff]

theorem shelfCopyEnd_frame (b : Option (BitVec 16)) : Frame (.shelfCopyEnd b) (withReport [.wave, .synth]) := fun s => by
  show Keeps _ s (execShelfCopyEnd b s)
  unfold execShelfCopyEnd
  split
  · simp [only_iff]
  · dsimp only
    repeat' split
    all_goals simp [only_iff]

theorem refillRequest_frame (q : Fin 256) (b : Fin 8) :
    Frame (.refillRequest q b) (withReport [.time, .wave, .seqs, .synth]) := fun s => by
  show Keeps _ s (execRefillRequest q b s)
  unfold execRefillRequest; dsimp only
  split
  · simp [only_iff]
  split
  · simp [only_iff]
  · split <;> simp [only_iff]

theorem refillLand_frame (q : Fin 256) (b : Fin 8) (n : Fin 8192) (e : Option (Fin 8)) :
    Frame (.refillLand q b n e) (withReport [.wave, .seqs, .synth]) := fun s => by
  show Keeps _ s (execRefillLand q b n e s)
  unfold execRefillLand; dsimp only
  split
  · simp [only_iff]
  · repeat' split
    all_goals simp [only_iff]

theorem shelfEccError_frame (q : Fin 256) (g : Fin 57344) (w : Fin 32) (c : Bool) :
    Frame (.shelfEccError q g w c) (withReport [.wave, .seqs, .units, .synth]) := fun s => by
  show Keeps _ s (execShelfEccError q g w c s)
  unfold execShelfEccError; dsimp only
  split
  · simp [only_iff]
  · split <;> simp [only_iff]

/-- Settles O32: each command and event of the outputs and of the waveform memory is a few writes of what it serves. -/
theorem synthesisFrame : Obligations.SynthesisFrame :=
  ⟨toneConfig_frame, xtalkMatrix_frame, outputEnable_frame, outputRampEnd_frame, outputRampUpEnd_frame, dacCoreSettled_frame,
    dacCoreFault_frame, dacFaultSwapEnd_frame, sparePrepared_frame, dacPlannedSwap_frame, dacPlannedSwapEnd_frame,
    plannedSwapAbandon_frame, folioWrite_frame, shelfPin_frame, streamPlan_frame, shelfCopyEnd_frame, refillRequest_frame,
    refillLand_frame, shelfEccError_frame⟩

end Sys2Proof.Machine
end

section
/-!
PROOFS. Laws of packets that are answered at once, and the session commands (group 0x01).
-/
namespace Sys2Proof.Machine

/-- A packet that executes at once, and whose effect leaves the queue pairs alone and ends here, is answered with the effect's status and
reply (R296, R297). -/
theorem ready_posted {c : Command} {p : Packet} {s : State} (h : c.readyIn p s = true)
    (hl : (c.eff (c.entry p s) p).later = false) (hg : (c.eff (c.entry p s) p).long = false)
    (hq : (c.eff (c.entry p s) p).st.host.queues = s.host.queues) (hd : (c.eff (c.entry p s) p).st.host.debugQueue = s.host.debugQueue) :
    Posted p (s.host.accept + 1) (c.eff (c.entry p s) p).status (c.eff (c.entry p s) p).reply
      (State.commit (c.entry p s) (s.fetchedAs c.opcode p) (s.host.accept + 1) (c.eff (c.entry p s) p)) := by
  have hs : (s.fetchedAs c.opcode p).packet = p := s.fetchedAs_packet c.opcode p
  have k := commit_posted (c.entry p s) (s.fetchedAs c.opcode p) (s.host.accept + 1) (c.eff (c.entry p s) p) hl
    (s.fetchedAs_clear c.opcode p)
    (by rw [hs, queue_of_host (t := (c.eff (c.entry p s) p).st) (s := c.entry p s) (by simp [hq]) (by simp [hd])]
        exact ready_queue h)
  simpa [hs, hg] using k

/-- The function of a source is read from the queue map alone. -/
theorem funcOf_congr {s t : State} (h : t.host.queueFunc = s.host.queueFunc) (src : Source) : t.funcOf src = s.funcOf src := by
  cases src <;> simp [State.funcOf, h]

@[simp] theorem entry_funcOf (c : Command) (p : Packet) (s : State) (src : Source) : (c.entry p s).funcOf src = s.funcOf src :=
  funcOf_congr (by simp) src

/-- The free serial is read from the open sessions alone. -/
theorem freeSerial_congr {s t : State} (h : t.host.sessions = s.host.sessions) (f k n : Nat) :
    t.freeSerial f k n = s.freeSerial f k n := by
  induction k generalizing n with
  | zero => rfl
  | succ k ih => unfold State.freeSerial State.sessionsOf; rw [h, ih]

/-- A session that opens on a function adds one to those that are open there. -/
theorem openSession_sessionsOf (f : Nat) (l : BitVec 32) (s : State) :
    ((s.openSession f l).2.sessionsOf f).length = (s.sessionsOf f).length + 1 := by
  simp [State.openSession, State.sessionsOf]

/-- What `State.openSession` keeps of the command state. -/
theorem openSession_host (f : Nat) (l : BitVec 32) (s : State) :
    (s.openSession f l).2.host.sessions = s.host.sessions ++ [{ func := f, serial := s.freeSerial f 65 (atN s.host.nextSerial f 1), label := l, level := 0 }] ∧
    (s.openSession f l).2.host.accept = s.host.accept ∧ (s.openSession f l).2.host.queues = s.host.queues ∧
    (s.openSession f l).2.host.debugQueue = s.host.debugQueue := by
  simp [State.openSession]

/-- The words of IDENTIFY are the same where the Desk forms them. -/
theorem entry_identifyWords (c : Command) (p : Packet) (s : State) : (c.entry p s).identifyWords = s.identifyWords := by
  simp [State.identifyWords, State.activeUnit, State.unit]

/-- The effect of SESSION_OPEN (Table 12.7): a session with the next free serial, and its handle, function, partition and count. -/
theorem sessionOpen_eff (p : Packet) (s : State) : sessionOpenCmd.eff s p =
    { st := (s.openSession (s.funcOf p.source) (hi32 (wordAt p.payload 0))).2
      reply := some [orAll [put 63 32 (handleOf (s.funcOf p.source) (s.freeSerial (s.funcOf p.source) 65
          (atN s.host.nextSerial (s.funcOf p.source) 1))).toNat, put 31 28 (s.funcOf p.source),
        put 27 24 (if 1 ≤ s.funcOf p.source ∧ s.funcOf p.source ≤ 8 then s.funcOf p.source - 1 else 0),
        put 21 15 ((s.sessionsOf (s.funcOf p.source)).length + 1)]] } := by
  rw [← openSession_sessionsOf _ (hi32 (wordAt p.payload 0))]
  rfl

/-- The sessions of a function where the Desk forms an effect. -/
@[simp] theorem entry_sessionsOf (c : Command) (p : Packet) (s : State) (f : Nat) : (c.entry p s).sessionsOf f = s.sessionsOf f := by
  simp [State.sessionsOf]

@[simp] theorem entry_freeSerial (c : Command) (p : Packet) (s : State) (f k n : Nat) :
    (c.entry p s).freeSerial f k n = s.freeSerial f k n := freeSerial_congr (by simp) f k n

theorem sessionOpen_answers (p : Packet) : Answers (.sessionOpen p) sessionOpenCmd p fun s t =>
    let f := s.funcOf p.source
    let n := s.freeSerial f 65 (atN s.host.nextSerial f 1)
    t.host.sessions = s.host.sessions ++ [{ func := f, serial := n, label := hi32 (wordAt p.payload 0), level := 0 }] ∧
      Posted p (s.host.accept + 1) 0 (some [orAll [put 63 32 (handleOf f n).toNat, put 31 28 f,
        put 27 24 (if 1 ≤ f ∧ f ≤ 8 then f - 1 else 0), put 21 15 ((s.sessionsOf f).length + 1)]]) t := by
  refine answers_of (fun _ => rfl) fun s h => ?_
  have hp := ready_posted h (by simp [sessionOpen_eff]) (by simp [sessionOpen_eff]) (by simp [sessionOpen_eff, openSession_host])
    (by simp [sessionOpen_eff, openSession_host])
  refine ⟨by simp [sessionOpen_eff, openSession_host], by simp [sessionOpen_eff, openSession_host], ?_⟩
  simpa [sessionOpen_eff] using hp

theorem sessionClose_answers (p : Packet) : Answers (.sessionClose p) sessionCloseCmd p fun s t =>
    t.host.sessions = s.host.sessions.filter fun x => handleOf x.func x.serial != hi32 (wordAt p.payload 0) := by
  refine answers_of (fun _ => rfl) fun s _ => ?_
  simp [sessionCloseCmd, State.closeSession, State.closeSessions, bne]

theorem identify_answers (p : Packet) : Answers (.identify p) identifyCmd p fun s t =>
    t.host.sessions = s.host.sessions ∧ Posted p (s.host.accept + 1) 0 (some s.identifyWords) t := by
  refine answers_of (fun _ => rfl) fun s h => ?_
  have hp := ready_posted h (by simp [identifyCmd]) (by simp [identifyCmd]) (by simp [identifyCmd]) (by simp [identifyCmd])
  rw [← entry_identifyWords identifyCmd p s]
  exact ⟨by simp [identifyCmd], by simp [identifyCmd], hp⟩

theorem echo_answers (p : Packet) : Answers (.echo p) echoCmd p fun s t =>
    t.host.sessions = s.host.sessions ∧ Posted p (s.host.accept + 1) 0 (some p.payload) t := by
  refine answers_of (fun _ => rfl) fun s h => ?_
  have hp := ready_posted h (by simp [echoCmd]) (by simp [echoCmd]) (by simp [echoCmd]) (by simp [echoCmd])
  exact ⟨by simp [echoCmd], by simp [echoCmd], hp⟩

/-- Settles O11: the sessions change as the effect changes them, and the reply is the effect's. -/
theorem sessionCommandsComplete : Obligations.SessionCommandsComplete :=
  ⟨sessionOpen_answers, sessionClose_answers, identify_answers, echo_answers⟩

end Sys2Proof.Machine
end

section
/-!
PROOFS. The service lane groups (R19).
-/
namespace Sys2Proof.Machine

@[simp] theorem getUnit_modUnit_same (u : UnitId) (f : CtlUnit → CtlUnit) (s : State) : (s.modUnit u f).getUnit u = f (s.getUnit u) := by
  cases u <;> rfl

@[simp] theorem getUnit_modUnit_other (u : UnitId) (f : CtlUnit → CtlUnit) (s : State) :
    (s.modUnit u f).getUnit (otherUnit u) = s.getUnit (otherUnit u) := by
  cases u <;> rfl

/-- A unit is read from the units alone. -/
theorem getUnit_congr {s t : State} (h : t.units = s.units) (u : UnitId) : t.getUnit u = s.getUnit u := by simp [State.getUnit, h]

/-- A unit's group to a die after a change of it. -/
@[simp] theorem getUnit_modGroup_same (u : UnitId) (d : Fin 4) (f : LaneGroup → LaneGroup) (s : State) :
    ((s.modGroup u d f).getUnit u).groups[d.val] = f (s.getUnit u).groups[d.val] := by
  simp [State.modGroup, getElem_upd]

@[simp] theorem getUnit_modGroup_other (u : UnitId) (d : Fin 4) (f : LaneGroup → LaneGroup) (s : State) :
    (s.modGroup u d f).getUnit (otherUnit u) = s.getUnit (otherUnit u) := getUnit_modUnit_other u _ s

@[simp] theorem modGroup_token (u : UnitId) (d : Fin 4) (f : LaneGroup → LaneGroup) (s : State) :
    (s.modGroup u d f).units.token = s.units.token := by cases u <;> rfl

/-- The ACTIVE unit's group is the group of the unit in its place. -/
theorem group_eq (s : State) (d : Fin 4) : s.group d = (s.getUnit s.unit).groups[d.val] := rfl

/-- The unit that holds the token is the same after a change of a group. -/
@[simp] theorem unit_modGroup (u : UnitId) (d : Fin 4) (f : LaneGroup → LaneGroup) (s : State) : (s.modGroup u d f).unit = s.unit := by
  simp [State.unit]

/-- The ACTIVE unit's group after a change of it. -/
@[simp] theorem group_modGroup (d : Fin 4) (f : LaneGroup → LaneGroup) (s : State) :
    (s.modGroup s.unit d f).group d = f (s.group d) := by
  simp [group_eq]

/-- A change of a group keeps the state of every unit, and so the presence of a STANDBY unit. -/
@[simp] theorem standbyPresent_modGroup (u : UnitId) (d : Fin 4) (f : LaneGroup → LaneGroup) (s : State) :
    (s.modGroup u d f).standbyPresent = s.standbyPresent := by
  have hst (v : UnitId) : ((s.modGroup u d f).units.get v).st = (s.units.get v).st := by cases u <;> cases v <;> rfl
  unfold State.standbyPresent State.spareUnit
  rw [unit_modGroup, modGroup_token, hst]

/-- A group that fails: it is down from now on, and its first retraining is due 1 ms from now (R19). -/
def LaneGroup.fail (now : Nat) (g : LaneGroup) : LaneGroup := { g with up := false, failedAt := some now, lastRetrain := now }

/-- The ACTIVE unit requests a switch-over where the STANDBY unit has its group to the die (R19). -/
theorem serviceLaneFailure_asks (u : UnitId) (d : Fin 4) : Completes (.serviceLaneFailure u d)
    (fun s => s.hasDie d.val = true ∧ (s.getUnit u).groups[d.val].up = true ∧ s.units.token = some u ∧ s.standbyPresent = true ∧
      (s.getUnit (otherUnit u)).groups[d.val].up = true)
    fun s t => (t.getUnit u).groups[d.val].up = false ∧ (t.getUnit u).groups[d.val].failedAt = some s.now ∧ (t.getUnit u).released = true := by
  rintro s ⟨hd, hu, ht, hs, ho⟩
  have hx : execServiceLaneFailure u d s =
      .next ((s.modGroup u d (LaneGroup.fail s.now)).modUnit u fun c => { c with released := true }) := by
    simp [execServiceLaneFailure, hd, hu, ht, hs, ho]; rfl
  exact ⟨_, hx, by simp [LaneGroup.fail], by simp [LaneGroup.fail], by simp⟩

/-- Without a STANDBY unit SERVICE_LANE is set (R19). -/
theorem serviceLaneFailure_reports (u : UnitId) (d : Fin 4) : Completes (.serviceLaneFailure u d)
    (fun s => s.hasDie d.val = true ∧ (s.getUnit u).groups[d.val].up = true ∧ s.units.token = some u ∧ s.standbyPresent = false)
    fun s t => (t.getUnit u).groups[d.val].up = false ∧ (t.getUnit u).groups[d.val].failedAt = some s.now ∧ bitAt t.trouble[1] 7 = true := by
  rintro s ⟨hd, hu, ht, hs⟩
  have hx : execServiceLaneFailure u d s = .next ((s.modGroup u d (LaneGroup.fail s.now)).setTrouble 1 7) := by
    simp [execServiceLaneFailure, hd, hu, ht, hs]; rfl
  have hg : (((s.modGroup u d (LaneGroup.fail s.now)).setTrouble 1 7).getUnit u).groups[d.val] =
      LaneGroup.fail s.now (s.getUnit u).groups[d.val] := by
    rw [getUnit_congr (State.setTrouble_frame 1 7 _).2.2.2.1, getUnit_modGroup_same]
  exact ⟨_, hx, by rw [hg]; rfl, by rw [hg]; rfl, setTrouble_bit 1 7 _ (by decide)⟩

/-- The unit that holds the token is read from the units alone. -/
theorem unit_congr {s t : State} (h : t.units = s.units) : t.unit = s.unit := by simp [State.unit, h]

/-- The ACTIVE unit's group is read from the units alone. -/
theorem group_congr {s t : State} (h : t.units = s.units) (d : Fin 4) : t.group d = s.group d := by
  rw [group_eq, group_eq, unit_congr h, getUnit_congr h]

@[simp] theorem modGroup_now (u : UnitId) (d : Fin 4) (f : LaneGroup → LaneGroup) (s : State) : (s.modGroup u d f).now = s.now :=
  State.now_congr (by simp)

/-- A retraining of the ACTIVE unit's group to a die begins in tick `n` (R19). -/
def State.retrain (d : Fin 4) (n : Nat) (s : State) : State :=
  (s.runTo n).modGroup s.unit d fun g => { g with lastRetrain := n }

@[simp] theorem retrain_unit (d : Fin 4) (n : Nat) (s : State) : (s.retrain d n).unit = s.unit :=
  (unit_modGroup _ d _ _).trans (unit_congr (by simp))

theorem retrain_group (d : Fin 4) (n : Nat) (s : State) : (s.retrain d n).group d = { s.group d with lastRetrain := n } :=
  group_modGroup d _ (s.runTo n)

theorem retrain_now (d : Fin 4) (n : Nat) (s : State) (h : s.now ≤ n) : (s.retrain d n).now = n := by
  rw [State.retrain, modGroup_now, State.runTo_now _ _ h]

/-- The ACTIVE unit's group after its return. -/
theorem groupUp_group (d : Fin 4) (s : State) :
    (s.groupUp s.unit d).group d = { s.group d with up := true, failedAt := none, dead := false } := group_modGroup d _ s

@[simp] theorem groupUp_now (u : UnitId) (d : Fin 4) (s : State) : (s.groupUp u d).now = s.now := modGroup_now u d _ s

/-- A failed group is retrained every 1 ms (R19). -/
theorem serviceLaneRetrain_due (d : Fin 4) (up : Bool) : Completes (.serviceLaneRetrain d up)
    (fun s => s.hasDie d.val = true ∧ (s.group d).up = false ∧ s.now ≤ (s.group d).lastRetrain + 1000000)
    fun s t => t.now = (s.group d).lastRetrain + 1000000 ∧ (t.group d).up = up ∧ (t.group d).lastRetrain = t.now := by
  rintro s ⟨hd, hu, hn⟩
  obtain ⟨n, he⟩ : ∃ n, n = (s.group d).lastRetrain + 1000000 := ⟨_, rfl⟩
  rw [← he] at hn
  have hx : execServiceLaneRetrain d up s = .next (if up then (s.retrain d n).groupUp s.unit d else s.retrain d n) := by
    have e1 : (s.runTo n).unit = s.unit := unit_congr (by simp)
    have e2 := retrain_unit d n s
    rw [State.retrain] at e2 ⊢
    cases up <;> simp [execServiceLaneRetrain, hd, hu, ← he, e1, e2, State.runTo_now _ s hn]
  refine ⟨_, hx, ?_⟩
  dsimp only
  rw [← he]
  cases up
  · simp [retrain_group, retrain_now d n s hn, hu]
  · rw [if_pos rfl, ← retrain_unit d n s, groupUp_group, retrain_group, groupUp_now, retrain_now d n s hn]
    exact ⟨rfl, rfl, rfl⟩

theorem serviceLaneUp_returns (u : UnitId) (d : Fin 4) : Completes (.serviceLaneUp u d)
    (fun s => s.hasDie d.val = true ∧ (s.getUnit u).groups[d.val].up = false)
    fun _ t => (t.getUnit u).groups[d.val].up = true ∧ (t.getUnit u).groups[d.val].dead = false := by
  rintro s ⟨hd, hu⟩
  have hx : execServiceLaneUp u d s = .next (s.groupUp u d) := by simp [execServiceLaneUp, hd, hu]
  exact ⟨_, hx, by simp [State.groupUp], by simp [State.groupUp]⟩

/-- A held command that is refused leaves the hold lists alone. -/
@[simp] theorem deferredRefusal_held (h : Held) (status : Nat) (s : State) : (s.deferredRefusal h status).host.held = s.host.held := by
  simp [State.deferredRefusal]

/-- 100 ms have passed without the ACTIVE unit's group to a die, and what waits for the die leaves the hold lists (R19). -/
def State.dropDie (d : Fin 4) (n : Nat) (s : State) : State :=
  { (s.runTo n).modGroup s.unit d fun g => { g with dead := true } with host := { s.host with held := s.host.held.filter fun h => !h.items.contains (.dieLink d.val) } }

theorem dropDie_group (d : Fin 4) (n : Nat) (s : State) : (s.dropDie d n).group d = { s.group d with dead := true } :=
  group_modGroup d _ (s.runTo n)

theorem dropDie_now (d : Fin 4) (n : Nat) (s : State) (h : s.now ≤ n) : (s.dropDie d n).now = n := by
  rw [State.now_congr (s := s.runTo n) (by simp [State.dropDie]), State.runTo_now _ _ h]

/-- After 100 ms the commands held for the die end (R19). -/
theorem serviceLaneHoldTimeout_ends (d : Fin 4) (n : Nat) : Completes (.serviceLaneHoldTimeout d)
    (fun s => (s.group d).failedAt = some n ∧ (s.group d).dead = false ∧ s.now ≤ n + 100000000)
    fun s t => t.now = n + 100000000 ∧ (t.group d).dead = true ∧
      t.host.held = s.host.held.filter fun h => !h.items.contains (.dieLink d.val) := by
  rintro s ⟨hf, hd, hn⟩
  have hx : execServiceLaneHoldTimeout d s = .next ((s.host.held.filter fun h => h.items.contains (.dieLink d.val)).foldl
      (fun s h => s.deferredRefusal h 0x0603) (s.dropDie d (n + 100000000))) := by
    have e1 : (s.runTo (n + 100000000)).unit = s.unit := unit_congr (by simp)
    simp [execServiceLaneHoldTimeout, hf, hd, State.dropDie, e1]
  refine ⟨_, hx, ?_, ?_, ?_⟩
  · rw [State.now_congr (foldl_time _ (by simp) _ _), dropDie_now d _ s hn]
  · rw [group_congr (foldl_units _ (by simp) _ _), dropDie_group]
  · exact foldl_keeps (fun s => s.host.held) _ (by simp) _ _

/-- Settles O19: each event of a service lane group is a write of the group, and its report leaves the units alone. -/
theorem serviceLanesComplete : Obligations.ServiceLanesComplete :=
  ⟨serviceLaneFailure_asks, serviceLaneFailure_reports, serviceLaneRetrain_due, serviceLaneUp_returns, serviceLaneHoldTimeout_ends⟩

end Sys2Proof.Machine
end

section
/-!
PROOFS. What the operations of a sequencer do to it and to the others, one law an operation.
-/
namespace Sys2Proof.Machine

/-- A sequencer is read from the sequencers alone. -/
theorem sq_congr {s t : State} (h : t.seqs = s.seqs) (q : Nat) : t.sq q = s.sq q := by simp [State.sq, h]

@[simp] theorem sq_modSeq_same (q : Nat) (f : Seq → Seq) (s : State) (h : q < 256) : (s.modSeq q f).sq q = f (s.sq q) := by
  simp [State.sq, State.modSeq, h]

@[simp] theorem sq_modSeq_ne (q r : Nat) (f : Seq → Seq) (s : State) (h : q ≠ r) : (s.modSeq q f).sq r = s.sq r := by
  simp [State.sq, State.modSeq, atN_updN_ne _ _ _ _ _ h]

/-- A fold of operations that keep a projection for each item of the list keeps it. -/
theorem foldl_keeps_mem {α β : Type} (g : State → β) (f : State → α → State) (l : List α) (h : ∀ s, ∀ x ∈ l, g (f s x) = g s) (s : State) :
    g (l.foldl f s) = g s := by
  induction l generalizing s with
  | nil => rfl
  | cons x l ih => rw [List.foldl_cons, ih fun s y hy => h s y (List.mem_cons_of_mem _ hy), h s x List.mem_cons_self]

/-- A fold over different items, each of which keeps what `g` shows of the others, shows of `x` what the operation of `x` makes of a
state that shows of it what the first one showed. -/
theorem foldl_at {α β : Type} (g : State → α → β) (f : State → α → State) (hf : ∀ s x y, x ≠ y → g (f s x) y = g s y) {l : List α}
    (hl : l.Nodup) {x : α} (hx : x ∈ l) (s : State) : ∃ u, g u x = g s x ∧ g (l.foldl f s) x = g (f u x) x := by
  obtain ⟨l1, l2, rfl⟩ := List.append_of_mem hx
  have h1 : ∀ y ∈ l1, y ≠ x := fun y hy e => (List.nodup_append.1 hl).2.2 y hy x (by simp) e
  have h2 : ∀ y ∈ l2, y ≠ x := fun y hy e => (List.nodup_cons.1 (List.nodup_append.1 hl).2.1).1 (e ▸ hy)
  refine ⟨l1.foldl f s, foldl_keeps_mem (g · x) f l1 (fun s y hy => hf s y x (h1 y hy)) s, ?_⟩
  rw [List.foldl_append, List.foldl_cons]
  exact foldl_keeps_mem (g · x) f l2 (fun s y hy => hf s y x (h2 y hy)) _

/-! ## Aborts, halts and idleness -/

/-- A sequencer that becomes IDLE or FAILED. -/
@[simp] theorem setIdle_sq (q r : Nat) (m : SeqMode) (s : State) :
    (s.setIdle q m).sq r = (s.modSeq q fun c => { c with mode := m }).sq r := sq_congr (by simp [State.setIdle]) r

@[simp] theorem runToCount_sq (n r : Nat) (s : State) : (s.runToCount n).sq r = s.sq r := sq_congr (by simp) r

/-- An abort as it begins (Table 3.11). -/
def Seq.abortAs (a code : Nat) (rearm : Bool) (c : Seq) : Seq :=
  { c with abort := some { at_ := a, code := code, cut := false, rearm := rearm }, stall := .none, fault := code, faultPc := c.pc }

/-- An abort begins in a shot that no abort ends (R84): the clock runs to its tick, and the trouble bits are set. -/
theorem abortSeq_begins (q a code r : Nat) (rearm : Bool) (s : State) (h : (s.sq q).inShot = true) (ha : (s.sq q).abort = none) :
    (s.abortSeq q a code rearm).time = (s.runToCount a).time ∧
      (s.abortSeq q a code rearm).sq r = (s.modSeq q (Seq.abortAs a code rearm)).sq r := by
  unfold State.abortSeq
  rw [if_neg (by simp [h, ha])]
  dsimp only
  refine ⟨?_, sq_congr ?_ r⟩ <;> split <;> simp [State.modSeq] <;> rfl

/-- An abort leaves the other sequencers alone. -/
theorem abortSeq_sq_ne (q a code r : Nat) (rearm : Bool) (s : State) (hr : q ≠ r) : (s.abortSeq q a code rearm).sq r = s.sq r := by
  cases hs : (s.sq q).inShot with
  | false => unfold State.abortSeq; rw [if_pos (by simp [hs])]
  | true =>
    cases ha : (s.sq q).abort with
    | some a => unfold State.abortSeq; rw [if_pos (by simp [ha])]
    | none => rw [(abortSeq_begins q a code r rearm s hs ha).2, sq_modSeq_ne _ _ _ _ hr]

/-- A halt leaves the other sequencers alone. -/
theorem haltSeq_sq_ne (q r : Nat) (m : Bool) (acc : BitVec 32) (s : State) (hr : q ≠ r) : (s.haltSeq q m acc).sq r = s.sq r := by
  unfold State.haltSeq; dsimp only
  split
  · simp [hr]
  · split
    · rw [abortSeq_sq_ne _ _ _ _ _ _ hr, sq_modSeq_ne _ _ _ _ hr]
    · simp [hr]
  · simp [hr]
  · simp [hr]
  · rfl

/-- A halt of an armed sequencer disarms it (R88). -/
theorem haltSeq_armed (q : Nat) (m : Bool) (acc : BitVec 32) (s : State) (hq : q < 256) (hs : (s.sq q).stepping = false)
    (hm : (s.sq q).mode = .armed) : ((s.haltSeq q m acc).sq q).mode = .idle ∧ ((s.haltSeq q m acc).sq q).lastHalt = acc := by
  unfold State.haltSeq
  simp [hs, hm, hq]

/-- A halt in boundary mode waits for the boundary of a running shot (R88). -/
theorem haltSeq_boundary (q : Nat) (acc : BitVec 32) (s : State) (hq : q < 256) (hs : (s.sq q).stepping = false)
    (hm : (s.sq q).mode = .running) : ((s.haltSeq q false acc).sq q).haltWait = some acc := by
  unfold State.haltSeq
  simp [hs, hm, hq]

/-- A halt in abort mode aborts a running shot with code 8 (R88). -/
theorem haltSeq_abort (q : Nat) (acc : BitVec 32) (s : State) (hq : q < 256) (hs : (s.sq q).stepping = false)
    (hm : (s.sq q).mode = .running) (ha : (s.sq q).abort = none) :
    ((s.haltSeq q true acc).sq q).fault = 8 ∧ ((s.haltSeq q true acc).sq q).faultPc = (s.sq q).pc ∧
      ((s.haltSeq q true acc).sq q).lastHalt = acc := by
  have e : s.haltSeq q true acc = (s.modSeq q fun c => { c with lastHalt := acc }).abortSeq q (s.cnt s.now) 8 false := by
    unfold State.haltSeq; simp [hs, hm, ha]
  rw [e, (abortSeq_begins _ _ _ _ _ _ (by simp [hq, Seq.inShot, hm]) (by simp [hq, ha])).2]
  simp [hq, Seq.abortAs]

/-! ## The acceptance count -/

@[simp] theorem setIdle_accept (q : Nat) (m : SeqMode) (s : State) : (s.setIdle q m).host.accept = s.host.accept := by
  unfold State.setIdle State.partCheck; dsimp only
  split <;> simp

@[simp] theorem abortSeq_accept (q a code : Nat) (rearm : Bool) (s : State) : (s.abortSeq q a code rearm).host.accept = s.host.accept := by
  unfold State.abortSeq State.seqTrouble; dsimp only
  split
  · rfl
  · split <;> simp

@[simp] theorem haltSeq_accept (q : Nat) (m : Bool) (acc : BitVec 32) (s : State) : (s.haltSeq q m acc).host.accept = s.host.accept := by
  unfold State.haltSeq; dsimp only
  split
  · simp
  · split <;> simp
  all_goals simp

/-! ## Fields of a packet that name sequencers -/

/-- A field of `n` bits is below 2^n. -/
theorem fld_lt (w : Word) (hi lo : Nat) : fld w hi lo < 2 ^ (hi + 1 - lo) := Nat.mod_lt _ (Nat.two_pow_pos _)

/-- A sequencer that a packet names exists. -/
theorem fld_seq (w : Word) : fld w 63 56 < 256 := fld_lt w 63 56

/-! ## SEQ_LOAD, SEQ_BIND, SEQ_HALT and SEQ_STATUS (Tables 3.13, 3.14, 3.16 and 3.17) -/

/-- The sequencers after a packet are those that its effect leaves. -/
theorem commit_seqs (s0 : State) (f : Fetched) (a : BitVec 32) (e : Effect) : (State.commit s0 f a e).seqs = e.st.seqs := by simp

theorem commit_sq (s0 : State) (f : Fetched) (a : BitVec 32) (e : Effect) (r : Nat) : (State.commit s0 f a e).sq r = e.st.sq r :=
  sq_congr (commit_seqs s0 f a e) r

/-- The sequencers where the Desk forms an effect. -/
@[simp] theorem entry_sq (c : Command) (p : Packet) (s : State) (r : Nat) : (c.entry p s).sq r = s.sq r := sq_congr (by simp) r

/-- The device tick where the Desk forms an effect. -/
@[simp] theorem entry_now (c : Command) (p : Packet) (s : State) : (c.entry p s).now = s.now := State.now_congr (by simp)

/-- SEQ_LOAD writes the program of its sequencer (Table 3.13). -/
theorem seqLoad_st (p : Packet) (s : State) : (seqLoadCmd.eff s p).st = s.modSeq (fld (wordAt p.payload 0) 63 56) fun c =>
    { c with prog := Sparse.setList 0 c.prog (fld (wordAt p.payload 0) 55 44) ((p.payload.drop 1).take (fld (wordAt p.payload 0) 43 31)) } :=
  rfl

theorem seqLoad_answers (p : Packet) : Answers (.seqLoad p) seqLoadCmd p fun s t =>
    let w := wordAt p.payload 0
    (t.sq (fld w 63 56)).prog = Sparse.setList 0 (s.sq (fld w 63 56)).prog (fld w 55 44) ((p.payload.drop 1).take (fld w 43 31)) ∧
      ∀ r, r ≠ fld w 63 56 → t.sq r = s.sq r := by
  refine answers_of (fun _ => rfl) fun s _ => ⟨by simp [seqLoad_st], ?_, fun r hr => ?_⟩
  · simp [commit_sq, seqLoad_st, fld_seq]
  · simp [commit_sq, seqLoad_st, Ne.symm hr]

/-- SEQ_BIND changes the shadow bindings of its sequencer (Table 3.14). -/
theorem seqBind_st (p : Packet) (s : State) : (seqBindCmd.eff s p).st = s.modSeq (fld (wordAt p.payload 0) 63 56) fun c =>
    { c with shadow := c.rebind p } := rfl

theorem seqBind_answers (p : Packet) : Answers (.seqBind p) seqBindCmd p fun s t =>
    let q := fld (wordAt p.payload 0) 63 56
    (t.sq q).shadow = (s.sq q).rebind p ∧ (t.sq q).active = (s.sq q).active ∧ ∀ r, r ≠ q → t.sq r = s.sq r := by
  refine answers_of (fun _ => rfl) fun s _ => ⟨by simp [seqBind_st], ?_, ?_, fun r hr => ?_⟩
  · simp [commit_sq, seqBind_st, fld_seq]
  · simp [commit_sq, seqBind_st, fld_seq]
  · simp [commit_sq, seqBind_st, Ne.symm hr]

/-- A halt of sequencer `q` as SEQ_HALT gives it: accepted with the number that the machine carries. -/
def haltBy (m : Bool) (s : State) (q : Nat) : State := s.haltSeq q m s.host.accept

theorem haltBy_accept (m : Bool) (s : State) (q : Nat) : (haltBy m s q).host.accept = s.host.accept := haltSeq_accept q m _ s

/-- SEQ_HALT halts the sequencers of its mask one after another (Table 3.16). -/
theorem seqHalt_st (p : Packet) (s : State) : (seqHaltCmd.eff s p).st =
    (seqMaskList p 1).foldl (haltBy (fld (wordAt p.payload 0) 63 62 == 1)) s := rfl

/-- The sequencers of a mask are different, and each exists. -/
theorem seqMaskList_nodup (p : Packet) (w : Nat) : (seqMaskList p w).Nodup := List.nodup_range.filter _

theorem seqMaskList_lt {p : Packet} {w q : Nat} (h : q ∈ seqMaskList p w) : q < 256 := by
  simpa using (List.mem_filter.1 h).1

/-- SEQ_HALT does to a sequencer of its mask what one halt does to it in a state that has it as it was. -/
theorem seqHalt_sq (p : Packet) (s : State) {q : Nat} (hq : q ∈ seqMaskList p 1) : ∃ u : State, u.sq q = s.sq q ∧
    (seqHaltCmd.eff s p).st.sq q = (u.haltSeq q (fld (wordAt p.payload 0) 63 62 == 1) s.host.accept).sq q := by
  obtain ⟨u, hu, he⟩ := foldl_at (fun u q => (u.sq q, u.host.accept)) (haltBy (fld (wordAt p.payload 0) 63 62 == 1))
    (fun s x y hxy => by simp [haltBy, haltSeq_sq_ne _ _ _ _ _ hxy]) (seqMaskList_nodup p 1) hq s
  obtain ⟨hus, hua⟩ := Prod.mk.inj hu
  refine ⟨u, hus, ?_⟩
  rw [seqHalt_st, ← hua]
  exact (Prod.mk.inj he).1

theorem seqHalt_answers (p : Packet) : Answers (.seqHalt p) seqHaltCmd p fun s t => ∀ q ∈ seqMaskList p 1, (s.sq q).stepping = false →
    ((s.sq q).mode = .armed → (t.sq q).mode = .idle ∧ (t.sq q).lastHalt = s.host.accept + 1) ∧
    ((s.sq q).mode = .running → fld (wordAt p.payload 0) 63 62 = 0 → (t.sq q).haltWait = some (s.host.accept + 1)) ∧
    ((s.sq q).mode = .running → fld (wordAt p.payload 0) 63 62 = 1 → (s.sq q).abort = none →
      (t.sq q).fault = 8 ∧ (t.sq q).faultPc = (s.sq q).pc ∧ (t.sq q).lastHalt = s.host.accept + 1) := by
  refine answers_of (fun _ => rfl) fun s _ => ⟨?_, fun q hq hs => ?_⟩
  · rw [seqHalt_st, foldl_host_accept _ (haltBy_accept _)]; simp
  obtain ⟨u, hu, he⟩ := seqHalt_sq p (seqHaltCmd.entry p s) hq
  have hlt := seqMaskList_lt hq
  have ha : (seqHaltCmd.entry p s).host.accept = s.host.accept + 1 := by simp
  rw [entry_sq] at hu
  rw [commit_sq, he, ha, ← hu]
  rw [← hu] at hs
  refine ⟨fun hm => haltSeq_armed q _ _ u hlt hs hm, fun hm h0 => ?_, fun hm h1 hab => ?_⟩
  · rw [h0]; exact haltSeq_boundary q _ u hlt hs hm
  · rw [h1]; exact haltSeq_abort q _ u hlt hs hm hab

/-- The reply of SEQ_STATUS is the same where the Desk forms it. -/
theorem entry_seqWords (c : Command) (p : Packet) (s : State) (q : Nat) (regs : Bool) :
    (c.entry p s).seqWords q regs = s.seqWords q regs := by
  obtain ⟨h, d, e⟩ : ∃ h d, c.entry p s = { s with host := h, desk := d } := ⟨_, _, rfl⟩
  rw [e]; rfl

/-- SEQ_STATUS clears the counts of its sequencer when bit 54 asks for it, and replies its words (Table 3.17). -/
theorem seqStatus_eff (p : Packet) (s : State) :
    (seqStatusCmd.eff s p).st = (if bitAt (wordAt p.payload 0) 54 then s.modSeq (fld (wordAt p.payload 0) 63 56) fun c =>
      { c with missed := 0, lateCues := 0, lateVerdicts := 0, overruns := 0, lateFollows := 0 } else s) ∧
    (seqStatusCmd.eff s p).status = 0 ∧ (seqStatusCmd.eff s p).later = false ∧ (seqStatusCmd.eff s p).long = false ∧
    (seqStatusCmd.eff s p).reply = some (s.seqWords (fld (wordAt p.payload 0) 63 56) (bitAt (wordAt p.payload 0) 55)) :=
  ⟨rfl, rfl, rfl, rfl, rfl⟩

/-- SEQ_STATUS leaves the command state alone. -/
theorem seqStatus_host (p : Packet) (s : State) : (seqStatusCmd.eff s p).st.host = s.host := by
  rw [(seqStatus_eff p s).1]; split <;> simp [State.modSeq]

theorem seqStatus_answers (p : Packet) : Answers (.seqStatus p) seqStatusCmd p fun s t =>
    let w := wordAt p.payload 0
    (bitAt w 54 = false → t.seqs = s.seqs) ∧
    (bitAt w 54 = true → (t.sq (fld w 63 56)).missed = 0 ∧ (t.sq (fld w 63 56)).lateCues = 0 ∧ (t.sq (fld w 63 56)).overruns = 0 ∧
      (t.sq (fld w 63 56)).g = (s.sq (fld w 63 56)).g) ∧
    Posted p (s.host.accept + 1) 0 (some (s.seqWords (fld w 63 56) (bitAt w 55))) t := by
  refine answers_of (fun _ => rfl) fun s h => ⟨by simp [seqStatus_host], fun hw => ?_, fun hw => ?_, ?_⟩
  · rw [commit_seqs, (seqStatus_eff p _).1]; simp [hw]
  · rw [commit_sq, (seqStatus_eff p _).1]; simp [hw, fld_seq]
  · obtain ⟨-, h0, hl, hg, hr⟩ := seqStatus_eff p (seqStatusCmd.entry p s)
    have hp := ready_posted h hl hg (by simp [seqStatus_host]) (by simp [seqStatus_host])
    rwa [h0, hr, entry_seqWords] at hp

/-! ## SEQ_ARM (Table 3.15) -/

@[simp] theorem settleTrims_frame (s : State) : s.settleTrims.seqs = s.seqs ∧ s.settleTrims.host = s.host ∧ s.settleTrims.time = s.time ∧
    s.settleTrims.units = s.units := ⟨rfl, rfl, rfl, rfl⟩

/-- A seal touches one sequencer, and seals the set there (R26). -/
theorem sealSeq_sq (q r : Nat) (set : SealedSet) (s : State) :
    (s.sealSeq q set).sq r = (s.modSeq q fun c => { c with sealed_ := some set }).sq r :=
  sq_congr (by unfold State.sealSeq; simp) r

/-! ### A sealed set applies -/

@[simp] theorem commitEnd_accept (v status : Nat) (s : State) : (s.commitEnd v status).host.accept = s.host.accept := by
  unfold State.commitEnd; split <;> simp

@[simp] theorem checkLanded_accept (v t : Nat) (s : State) : (s.checkLanded v t).host.accept = s.host.accept := by
  unfold State.checkLanded; dsimp only
  split
  · split <;> simp
  · rfl

@[simp] theorem applyMember_accept (q t : Nat) (s : State) : (s.applyMember q t).host.accept = s.host.accept := by
  unfold State.applyMember; dsimp only
  split
  · rfl
  · split
    · split <;> simp
    · simp

/-- A fold of operations in which no time passes. -/
@[simp] theorem foldl_time_now {α : Type} (f : State → α → State) (h : ∀ s x, (f s x).time.now = s.time.now) (l : List α) (s : State) :
    (l.foldl f s).time.now = s.time.now := foldl_keeps (·.time.now) f h l s

@[simp] theorem vfoldl_time_now {α : Type} {n : Nat} (f : State → α → State) (h : ∀ s x, (f s x).time.now = s.time.now)
    (l : Vector α n) (s : State) : (l.foldl f s).time.now = s.time.now := by
  rw [← Vector.foldl_toList, foldl_time_now f h]

/-- No time passes while a capture plan applies: it only exchanges the Almanac event of its start. -/
@[simp] theorem applyPlan_time_now (k t : Nat) (new : Option Plan) (s : State) : (s.applyPlan k t new).time.now = s.time.now := by
  have h (u : State) (p : Plan) : (p.reds.zipIdx.foldl (fun s (r, i) => s.flush k i p r) u).time = u.time := by simp
  unfold State.applyPlan; dsimp only
  cases new with
  | none => cases (s.cap k).active <;> simp [State.modCap, h]
  | some p => dsimp only; cases (s.cap k).active <;> split <;> simp [State.modCap, State.armAlm, h]

@[simp] theorem applySlot_time_now (q t : Nat) (b : Binding) (s : State) : (s.applySlot q t b).time.now = s.time.now := by
  cases b with
  | demod k =>
    unfold State.applySlot; dsimp only
    split <;> simp
  | _ => rfl

/-- A sequencer whose sealed set applies (R26). -/
def Seq.applied (set : SealedSet) (c : Seq) : Seq :=
  { c with
    active := set.binds, entry := set.entry, limit := set.limit, start := set.start, shotsDone := 0
    shotsLeft := if set.shots = 0 then none else some set.shots
    maxlen := set.maxlen, sealed_ := none }

/-- A sealed set applies to its sequencer (R26). -/
theorem applySet_sq (q t r : Nat) (s : State) {set : SealedSet} (h : (s.sq q).sealed_ = some set) :
    (s.applySet q t).sq r = (s.modSeq q (Seq.applied set)).sq r := by
  refine sq_congr ?_ r
  unfold State.applySet; dsimp only
  rw [h]
  simp [State.modSeq]
  rfl

/-- No time passes while a set applies. -/
theorem applySet_now (q t : Nat) (s : State) : (s.applySet q t).now = s.now := by
  unfold State.applySet State.now; dsimp only
  split <;> simp

/-- Nothing is accepted while a set applies. -/
@[simp] theorem applySet_accept (q t : Nat) (s : State) : (s.applySet q t).host.accept = s.host.accept := by
  unfold State.applySet; dsimp only
  split <;> simp

/-- Nothing is accepted while an idle sequencer is armed. -/
@[simp] theorem applyIdle_accept (q : Nat) (s : State) : (s.applyIdle q).host.accept = s.host.accept := by
  unfold State.applyIdle; dsimp only
  split
  · rfl
  · repeat' split
    all_goals simp

/-- A set that is sealed in a shot waits for its boundary (R26). -/
theorem applyIdle_inShot (q : Nat) (s : State) (h : (s.sq q).inShot = true) : s.applyIdle q = s := by
  unfold State.applyIdle; dsimp only
  split
  · rfl
  · rw [if_pos h]

/-- An idle sequencer with a sealed set that no later halt has overtaken, that nothing restores or repairs, is armed with the set
(R26, R86). -/
theorem applyIdle_arms (q : Nat) (s : State) {set : SealedSet} (hq : q < 256) (h : (s.sq q).sealed_ = some set)
    (hs : (s.sq q).inShot = false) (hm : (s.sq q).mode = .idle) (hl : (s.sq q).lastHalt.toNat < set.accept.toNat)
    (hr : (s.sq q).restore = none) (hd : s.repairDue q = false) :
    (s.applyIdle q).sq q = { (s.sq q).applied set with mode := .armed, armedAt := s.now, rearmDue := false } := by
  have hu : (s.applySet q s.now).repairDue q = false := by rw [← hd]; simp [State.repairDue]
  unfold State.applyIdle; dsimp only
  rw [h]
  simp [hs, hm, hr, hu, Nat.not_le.2 hl, hq, applySet_now, applySet_sq q s.now q s h]

/-- The set that SEQ_ARM seals for a sequencer. -/
def armedSet (p : Packet) (s : State) (q e l : Nat) : SealedSet :=
  { binds := (s.sq q).shadow, entry := e, limit := l
    start := match armSource (fld (wordAt p.payload 0) 53 48) with
      | some (some x) => some x
      | _ => (s.sq q).start
    shots := fld (wordAt p.payload 1) 63 32, maxlen := fld (wordAt p.payload 1) 31 0, accept := s.host.accept
    waitAlm := bitAt (wordAt p.payload 0) 54 }

/-- SEQ_ARM wakes idle lanes at its end (R217), which touches neither the command state nor a sequencer. -/
theorem wake_frame (l : List Nat) (s : State) :
    let t := l.foldl (fun s n => s.modLane n fun x => { x with waking := true, wakeChecks := 0, since := s.now }) s
    t.host = s.host ∧ t.seqs = s.seqs :=
  ⟨foldl_host _ (fun s n => by simp) l s, foldl_seqs _ (fun s n => by simp) l s⟩

/-- Almanac events that are armed one after another leave the command state alone. -/
theorem armAlms_host (T : BitVec 32) (l : List (Nat × Nat × Nat)) (b : Bool) (s : State) :
    (l.foldl (fun x y => x.2.armAlm (.seqApply y.1) T) (b, s)).2.host = s.host := by
  induction l generalizing b s with
  | nil => rfl
  | cons y l ih => rw [List.foldl_cons, ih]; simp

/-- SEQ_ARM accepts nothing else. -/
theorem seqArm_accept (p : Packet) (s : State) : (seqArmCmd.eff s p).st.host.accept = s.host.accept := by
  unfold seqArmCmd; dsimp only
  rw [(wake_frame _ _).1]
  cases bitAt (wordAt p.payload 0) 54
  · simp
  · simp [armAlms_host]

/-- SEQ_ARM of one sequencer, with no Almanac time: its set is sealed, and applies at once where it can. -/
theorem seqArm_sq (p : Packet) (s : State) {q e l : Nat} (hp : armList p = [(q, e, l)]) (ha : bitAt (wordAt p.payload 0) 54 = false)
    (r : Nat) : (seqArmCmd.eff s p).st.sq r = ((s.settleTrims.sealSeq q (armedSet p s q e l)).applyIdle q).sq r := by
  refine sq_congr ?_ r
  unfold seqArmCmd; dsimp only
  rw [hp, ha, (wake_frame _ _).2]
  simp only [List.foldl_cons, List.foldl_nil, Bool.false_eq_true, if_false, armedSet, ha]
  rfl

/-- The state in which SEQ_ARM settles a sealed set carries the set, and is otherwise as it was. -/
theorem sealed_sq (q : Nat) (set : SealedSet) (s : State) (hq : q < 256) :
    (s.settleTrims.sealSeq q set).sq q = { s.sq q with sealed_ := some set } := by
  rw [sealSeq_sq, sq_modSeq_same _ _ _ hq, sq_congr (settleTrims_frame s).1]

theorem sealed_now (q : Nat) (set : SealedSet) (s : State) : (s.settleTrims.sealSeq q set).now = s.now :=
  State.now_congr (by simp)

theorem sealed_repairDue (q r : Nat) (set : SealedSet) (s : State) : (s.settleTrims.sealSeq q set).repairDue r = s.repairDue r := by
  simp [State.repairDue]

@[simp] theorem entry_repairDue (c : Command) (p : Packet) (s : State) (r : Nat) : (c.entry p s).repairDue r = s.repairDue r := by
  simp [State.repairDue]

/-- The sequencers of an ARM list exist. -/
theorem armList_lt {p : Packet} {x : Nat × Nat × Nat} (h : x ∈ armList p) : x.1 < 256 := by
  obtain ⟨w, -, rfl⟩ := List.mem_map.1 h
  exact fld_seq w

theorem seqArm_answers (p : Packet) : Answers (.seqArm p) seqArmCmd p fun s t =>
    (∀ q e l, armList p = [(q, e, l)] → bitAt (wordAt p.payload 0) 54 = false → (s.sq q).inShot = true →
      ∃ set, (t.sq q).sealed_ = some set ∧ set.binds = (s.sq q).shadow ∧ set.entry = e ∧ set.limit = l ∧
        set.shots = fld (wordAt p.payload 1) 63 32 ∧ set.maxlen = fld (wordAt p.payload 1) 31 0 ∧ set.accept = s.host.accept + 1) ∧
    (∀ q e l, armList p = [(q, e, l)] → bitAt (wordAt p.payload 0) 54 = false → (s.sq q).inShot = false → (s.sq q).mode = .idle →
      (s.sq q).restore = none → s.repairDue q = false → (s.sq q).lastHalt.toNat < (s.host.accept + 1).toNat →
      (t.sq q).mode = .armed ∧ (t.sq q).armedAt = s.now ∧ (t.sq q).active = (s.sq q).shadow ∧ (t.sq q).entry = e ∧
        (t.sq q).limit = l ∧ (t.sq q).shotsDone = 0 ∧ (t.sq q).sealed_ = none) := by
  have hlt {q e l : Nat} (hp : armList p = [(q, e, l)]) : q < 256 := armList_lt (p := p) (x := (q, e, l)) (by simp [hp])
  refine answers_of (fun _ => rfl) fun s _ => ⟨by simp [seqArm_accept], fun q e l hp ha hs => ?_, fun q e l hp ha hs hm hr hd hl => ?_⟩
  · have hq := sealed_sq q (armedSet p (seqArmCmd.entry p s) q e l) (seqArmCmd.entry p s) (hlt hp)
    rw [entry_sq] at hq
    rw [commit_sq, seqArm_sq p _ hp ha, applyIdle_inShot _ _ (by rw [hq]; exact hs), hq]
    exact ⟨_, rfl, by simp [armedSet], rfl, rfl, rfl, rfl, by simp [armedSet]⟩
  · have hq := sealed_sq q (armedSet p (seqArmCmd.entry p s) q e l) (seqArmCmd.entry p s) (hlt hp)
    rw [entry_sq] at hq
    have harms := applyIdle_arms q _ (hlt hp) (by rw [hq]) (by rw [hq]; exact hs) (by rw [hq]; exact hm)
      (by rw [hq]; simpa [armedSet] using hl) (by rw [hq]; exact hr) (by rw [sealed_repairDue]; simpa using hd)
    rw [commit_sq, seqArm_sq p _ hp ha, harms, hq, sealed_now]
    simp [Seq.applied, armedSet]

/-- Settles O21: each packet's effect, and what the sequencers named in it become. -/
theorem sequencerCommandsComplete : Obligations.SequencerCommandsComplete :=
  ⟨seqLoad_answers, seqBind_answers, seqArm_answers, seqHalt_answers, seqStatus_answers⟩

end Sys2Proof.Machine
end

section
/-!
PROOFS. HOLD_TIMEOUT (R373) in a state whose tick counter begins to count later than the present tick. The halt of a running sequencer
begins an abort in tick-counter value `s.cnt s.now`, which is 0 there, and the clock runs on to the tick in which the counter is 0.
No premise of the clause says that this tick has passed.
-/
namespace Sys2Proof.Machine

/-- Tick 0 of a device whose counter is to be 0 in tick 1000: sequencer 0 runs, and its partition holds and times out now. -/
def lateZero : State :=
  { (State.reset.modPart 0 fun x => { x with st := .holding, timeoutAt := some 0 }).modSeq 0 fun c => { c with mode := .running } with
    time := { State.reset.time with zeroAt := 1000 } }

/-- The premises of the clause hold in `lateZero`. -/
theorem lateZero_times_out : (lateZero.pt 0).timeoutAt = some 0 ∧ (lateZero.pt 0).st = .holding ∧ lateZero.now ≤ 0 := by decide +kernel

/-- What the time-out makes of `lateZero`. -/
def lateZeroEnd : State :=
  let s := (lateZero.runTo 0).modPart 0 fun x => { x with timeoutAt := none }
  ((s.liveSeqs 0).foldl (fun s q => s.haltSeq q true s.host.accept) s).partCheck 0

theorem exec_holdTimeout_lateZero : exec (.holdTimeout 0) lateZero = .next lateZeroEnd := rfl

/-- The abort has run the clock to the counter's zero. -/
theorem lateZeroEnd_now : lateZeroEnd.now = 1000 := by decide +kernel

/-- Refutes O55: partition 0 times out in tick 0 and the clock shows tick 1000, since the counter of `lateZero` is 0 there. The clause of
HOLD_TIMEOUT lacks the premise that the counter's zero has passed. -/
theorem not_partitionsComplete : ¬ Obligations.PartitionsComplete := by
  unfold Obligations.PartitionsComplete
  rintro ⟨-, -, -, hold, -⟩
  obtain ⟨t, ht, hnow, -⟩ := hold 0 0 lateZero lateZero_times_out
  rw [exec_holdTimeout_lateZero] at ht
  injection ht with e
  exact absurd (lateZeroEnd_now.symm.trans (e ▸ hnow)) (by decide)

end Sys2Proof.Machine
end

section
/-!
PROOFS. The events of the sequencers: cues, starts, boundaries, aborts, restores and the debug port (R25, R62, R84 to R93, R101, R421).
-/
namespace Sys2Proof.Machine

/-! ## Slots -/

/-- A slot is read from the synthesis part alone. -/
theorem slotOf_congr {s t : State} (h : t.synth = s.synth) (b : Binding) : t.slotOf b = s.slotOf b := by
  cases b <;> simp [State.slotOf, h]

theorem slotOf_modSlot_same (b : Binding) (f : Slot → Slot) (s : State) (h : b.isTone = true) : (s.modSlot b f).slotOf b = f (s.slotOf b) := by
  cases b <;> simp [Binding.isTone, State.slotOf, State.modSlot, getElem_upd] at *

@[simp] theorem slotOf_modOut (o : Nat) (f : Output → Output) (s : State) (b : Binding) : (s.modOut o f).slotOf b = s.slotOf b := by
  cases b <;> rfl

@[simp] theorem slotOf_modSeq (q : Nat) (f : Seq → Seq) (s : State) (b : Binding) : (s.modSeq q f).slotOf b = s.slotOf b := by
  cases b <;> rfl

@[simp] theorem slotOf_hear (n o : Nat) (s : State) (b : Binding) : (s.hear n o).slotOf b = s.slotOf b := by
  unfold State.hear; dsimp only
  split
  · rfl
  · split <;> simp

@[simp] theorem slotOf_hearCluster (t k : Nat) (s : State) (b : Binding) : (s.hearCluster t k).slotOf b = s.slotOf b :=
  foldl_keeps (·.slotOf b) _ (fun s o => slotOf_hear _ o s b) _ s

@[simp] theorem slotOf_clipReport (o : Nat) (s : State) (b : Binding) : (s.clipReport o).slotOf b = s.slotOf b := by
  unfold State.clipReport; dsimp only
  split
  · rw [slotOf_congr (t := List.foldl _ _ _) (s := s.modOut o fun x => { x with clipDue := false })]
    · simp
    · simp
  · rfl

@[simp] theorem slotOf_clipReports (k : Nat) (s : State) (b : Binding) : (s.clipReports k).slotOf b = s.slotOf b :=
  foldl_keeps (·.slotOf b) _ (fun s o => slotOf_clipReport o s b) _ s

@[simp] theorem slotOf_runToCount (n : Nat) (s : State) (b : Binding) : (s.runToCount n).slotOf b = s.slotOf b := slotOf_congr (by simp) b

/-- CUE_EXECUTE executes the next cue in its stamp tick. -/
theorem exec_cueExecute (q : Fin 256) (s : State) {x : Cue} (h : firstCue (s.sq q.val).liveCues = some x) :
    exec (.cueExecute q) s = .next ((s.runToCount x.stamp).runCue q.val (s.dev x.stamp) x) := by
  show execCueExecute q s = _
  unfold execCueExecute; rw [h]

theorem runToCount_now (n : Nat) (s : State) (h : s.now ≤ s.dev n) : (s.runToCount n).now = s.dev n := State.runTo_now _ _ h

theorem sq_clipReports (k r : Nat) (s : State) : (s.clipReports k).sq r = s.sq r := sq_congr (by simp) r
theorem sq_hearCluster (t k r : Nat) (s : State) : (s.hearCluster t k).sq r = s.sq r := sq_congr (by simp) r
theorem sq_modMember (q r : Nat) (f : Member → Member) (s : State) : (s.modMember q f).sq r = s.sq r := rfl
theorem sq_modSlot (b : Binding) (f : Slot → Slot) (r : Nat) (s : State) : (s.modSlot b f).sq r = s.sq r := sq_congr (by simp) r

/-- A SETF cue retunes its slot in its stamp tick (R101, R110). -/
theorem setfCue_executes : (∀ q x b v i, Completes (.cueExecute q)
    (fun s => firstCue (s.sq q.val).liveCues = some x ∧ x.act = .setf b v ∧ atN (s.sq q.val).active b .none = .drive i ∧
      s.now ≤ s.dev x.stamp)
    fun s t => t.now = s.dev x.stamp ∧ (t.slotOf (.drive i)).ftw = v ∧ (t.slotOf (.drive i)).since = 16 * s.dev x.stamp + x.sub ∧
      (t.sq q.val).cues = (s.sq q.val).cues.erase x) := by
  rintro q x b v i s ⟨h, ha, hb, hn⟩
  have hq := q.isLt
  refine ⟨_, exec_cueExecute q s h, ?_⟩
  unfold State.runCue
  simp only [ha, runToCount_sq, hb]
  refine ⟨?_, ?_, ?_, ?_⟩
  · rw [State.now_congr (s := s.runToCount x.stamp) (by simp), runToCount_now _ _ hn]
  · simp [slotOf_modSlot_same _ _ _ (show (Binding.drive i).isTone = true from rfl), Slot.tune]
  · simp [slotOf_modSlot_same _ _ _ (show (Binding.drive i).isTone = true from rfl), Slot.tune]
  · simp [sq_clipReports, sq_hearCluster, sq_modSlot, hq]

/-- A FRAME cue adds to the frame offset of its slot (R101, R110). -/
theorem frameCue_executes : (∀ q x b v i, Completes (.cueExecute q)
    (fun s => firstCue (s.sq q.val).liveCues = some x ∧ x.act = .frame b v ∧ atN (s.sq q.val).active b .none = .probe i ∧
      s.now ≤ s.dev x.stamp)
    fun s t => t.now = s.dev x.stamp ∧ (t.slotOf (.probe i)).foff = (s.slotOf (.probe i)).foff + v ∧
      (t.slotOf (.probe i)).ftw = (s.slotOf (.probe i)).ftw ∧ (t.slotOf (.probe i)).since = 16 * s.dev x.stamp + x.sub) := by
  rintro q x b v i s ⟨h, ha, hb, hn⟩
  have hq := q.isLt
  refine ⟨_, exec_cueExecute q s h, ?_⟩
  unfold State.runCue
  simp only [ha, runToCount_sq, hb]
  refine ⟨?_, ?_, ?_, ?_⟩
  · rw [State.now_congr (s := s.runToCount x.stamp) (by simp), runToCount_now _ _ hn]
  all_goals simp [slotOf_modSlot_same _ _ _ (show (Binding.probe i).isTone = true from rfl), Slot.tune]

/-- A PLAY cue starts its folio on its slot (R70, R101). -/
theorem playCue_executes : (∀ q x b folio rep i, Completes (.cueExecute q)
    (fun s => firstCue (s.sq q.val).liveCues = some x ∧ x.act = .play b folio rep ∧ atN (s.sq q.val).active b .none = .drive i ∧
      s.now ≤ s.dev x.stamp)
    fun s t => ∃ y, (t.slotOf (.drive i)).playing = some y ∧ y.folio = folio ∧ y.start = 16 * s.dev x.stamp + x.sub ∧
      y.len = (s.folio folio).samples ∧ y.rep = rep) := by
  rintro q x b folio rep i s ⟨h, ha, hb, hn⟩
  refine ⟨_, exec_cueExecute q s h, ?_⟩
  unfold State.runCue
  simp only [ha, runToCount_sq, hb, slotOf_clipReports, slotOf_modSlot_same _ _ _ (show (Binding.drive i).isTone = true from rfl), Slot.play]
  refine ⟨_, rfl, ?_⟩
  split <;> exact ⟨rfl, rfl, rfl, rfl⟩

/-- The pulse of a sequencer's marker bit ends. -/
theorem markerPulse_ends : (∀ q a n, Completes (.markPulseEnd (.marker q)) (fun s => s.acq.marker[q.val] = some (a, n) ∧ s.now ≤ n + 1)
    fun _ t => t.now = n + 1 ∧ t.acq.marker[q.val] = none) := by
  rintro q a n s ⟨h, hn⟩
  refine ⟨_, show execMarkPulseEnd (.marker q) s = _ by unfold execMarkPulseEnd; simp only [h]; rfl, ?_, ?_⟩
  · rw [State.now_congr (s := s.runTo (n+1)) (by simp), State.runTo_now _ _ hn]
  · simp [getElem_upd]

/-- An armed sequencer starts its shot (R62, R85). -/
theorem shotStart_starts : (∀ q n, Completes (.shotStart q)
    (fun s => (s.sq q.val).mode = .armed ∧ s.startEvent q.val = some n ∧ s.skips (s.cnt n) = false ∧ s.now ≤ n)
    fun s t => t.now = n ∧ (t.sq q.val).mode = .running ∧ (t.sq q.val).pc = (s.sq q.val).entry ∧ (t.sq q.val).snap = (s.sq q.val).g ∧
      (t.sq q.val).g = (s.sq q.val).g ∧ (t.sq q.val).t = BitVec.ofNat 64 (s.cnt n) ∧ (t.sq q.val).sst = BitVec.ofNat 64 (s.cnt n) ∧
      (t.sq q.val).f = 0 ∧ (t.sq q.val).lv = 0 ∧ (t.sq q.val).ports = Vector.replicate 16 {} ∧ (t.sq q.val).calls = [] ∧ (t.sq q.val).loops = [] ∧ (t.sq q.val).cues = [] ∧
      (t.sq q.val).nextIssue = s.cnt n + 1 ∧ (t.sq q.val).shotsLeft = (s.sq q.val).shotsLeft.map (· - 1)) := by
  rintro q n s ⟨hm, he, hs, hn⟩
  have hq := q.isLt
  refine ⟨_, show execShotStart q s = _ by unfold execShotStart; simp only [hm, he, hs, ne_eq, not_true_eq_false, if_false, Bool.false_eq_true]; rfl, ?_, ?_⟩
  · rw [State.now_congr (s := s.runTo n) (by simp), State.runTo_now _ _ hn]
  · have e (r : Nat) (s : State) : (s.runTo n).sq r = s.sq r := sq_congr (by simp) r
    have hc : (s.runTo n).cnt n = s.cnt n := rfl
    unfold State.startShot
    simp only [hc]
    rw [sq_modMember, sq_congr (foldl_seqs _ (fun s b => by simp) _ _), sq_modSeq_same _ _ _ hq, sq_hearCluster, e]
    simp

theorem sq_skipped (n r : Nat) (s : State) : (s.skipped n).sq r = s.sq r := sq_congr (by simp) r

theorem skipped_count (n : Nat) (s : State) : (s.skipped n).thermal.skipped = s.thermal.skipped + BitVec.ofNat 64 n := by
  unfold State.skipped; dsimp only; split <;> simp

/-- A start event in a skipping window starts nothing (R421). -/
theorem shotStart_skips : (∀ q n src, Completes (.shotStart q)
    (fun s => (s.sq q.val).mode = .armed ∧ (s.sq q.val).start = some (.source src) ∧ s.startEvent q.val = some n ∧
      s.skips (s.cnt n) = true)
    fun s t => (t.sq q.val).mode = .armed ∧ (t.sq q.val).armedAt = n + 1 ∧ t.thermal.skipped = s.thermal.skipped + 1) := by
  rintro q n src s ⟨hm, hst, he, hs⟩
  have hq := q.isLt
  refine ⟨_, show execShotStart q s = _ by unfold execShotStart; simp only [hm, he, hs, ne_eq, not_true_eq_false, if_false, if_true]; rfl, ?_⟩
  rw [hst]
  simp [sq_skipped, skipped_count, hq, hm]

theorem abortSeq_sq_same (q a code : Nat) (rearm : Bool) (s : State) (hq : q < 256) (h : (s.sq q).inShot = true) (ha : (s.sq q).abort = none) :
    (s.abortSeq q a code rearm).sq q = Seq.abortAs a code rearm (s.sq q) := by
  rw [(abortSeq_begins q a code q rearm s h ha).2, sq_modSeq_same _ _ _ hq]

/-- A shot that reaches MAXLEN is aborted (R87). -/
theorem shotLengthLimit_aborts : (∀ q, Completes (.shotLengthLimit q)
    (fun s => (s.sq q.val).inShot = true ∧ (s.sq q.val).maxlen ≠ 0 ∧ (s.sq q.val).abort = none ∧ (s.sq q.val).ended = none ∧
      s.now ≤ s.dev ((s.sq q.val).sst.toNat + (s.sq q.val).maxlen))
    fun s t => t.now = s.dev ((s.sq q.val).sst.toNat + (s.sq q.val).maxlen) ∧ (t.sq q.val).fault = 6 ∧
      (t.sq q.val).faultPc = (s.sq q.val).pc ∧ ∃ a, (t.sq q.val).abort = some a ∧ a.at_ = (s.sq q.val).sst.toNat + (s.sq q.val).maxlen) := by
  rintro q s ⟨hs, hm, ha, he, hn⟩
  have hq := q.isLt
  refine ⟨_, show execShotLengthLimit q s = _ by unfold execShotLengthLimit; simp [hs, hm, ha, he]; rfl, ?_⟩
  dsimp only
  rw [abortSeq_sq_same _ _ _ _ _ hq hs ha, State.now_congr (abortSeq_begins _ _ _ q.val _ _ hs ha).1, runToCount_now _ _ hn]
  exact ⟨rfl, rfl, rfl, _, rfl, rfl⟩

/-- A miscompare aborts the shot (R91). -/
theorem lockstepMiscompare_aborts : (∀ q, Completes (.lockstepMiscompare q) (fun s => (s.sq q.val).inShot = true ∧ (s.sq q.val).abort = none)
    fun s t => (t.sq q.val).fault = 1 ∧ (t.sq q.val).faultPc = (s.sq q.val).pc ∧ ∃ a, (t.sq q.val).abort = some a ∧ a.code = 1 ∧
      a.rearm = true) := by
  rintro q s ⟨hs, ha⟩
  refine ⟨_, show execLockstepMiscompare q s = _ by unfold execLockstepMiscompare; simp [hs]; rfl, ?_⟩
  dsimp only
  rw [abortSeq_sq_same _ _ _ _ _ q.isLt hs ha]
  exact ⟨rfl, rfl, _, rfl, rfl, rfl⟩

/-- The spare pair has its registers (R91). -/
theorem sparePairRestoreEnd_restores : (∀ q n arm, Completes (.sparePairRestoreEnd q) (fun s => (s.sq q.val).restore = some (n, arm) ∧ (s.sq q.val).debugWait = false ∧ s.now ≤ n + 32)
    fun s t => t.now = n + 32 ∧ (t.sq q.val).g = (s.sq q.val).snap ∧ (t.sq q.val).restore = none ∧
      (t.sq q.val).mode = (if arm then .armed else .idle)) := by
  rintro q n arm s ⟨hr, hd, hn⟩
  have hq := q.isLt
  have e (r : Nat) : (s.runTo (n + 32)).sq r = s.sq r := sq_congr (by simp) r
  refine ⟨_, show execSparePairRestoreEnd q s = _ by unfold execSparePairRestoreEnd; simp only [hr]; rfl, ?_⟩
  simp only [sq_modSeq_same _ _ _ hq, e, hd, Bool.false_eq_true, if_false]
  refine ⟨?_, ?_⟩
  · refine Eq.trans (State.now_congr (s := s.runTo (n + 32)) ?_) (State.runTo_now (n + 32) s hn)
    cases arm <;> simp
  · cases arm <;> simp [hq, e]

/-- A corrected program word is counted (R90). -/
theorem programMemoryError_counts : (∀ q addr, Completes (.programMemoryError q addr true) (fun _ => True)
    fun s t => (t.sq q.val).corrected = (s.sq q.val).corrected + 1 ∧ (t.sq q.val).mode = (s.sq q.val).mode) := by
  rintro q addr s -
  refine ⟨_, rfl, ?_⟩
  simp [q.isLt]

@[simp] theorem sq_seqTrouble (q b c r : Nat) (s : State) : (s.seqTrouble q b c).sq r = s.sq r := sq_congr (by simp) r

/-- A lost program word aborts the shot, and waits to be rewritten (R93). -/
theorem programMemoryError_aborts : (∀ q addr, Completes (.programMemoryError q addr false) (fun s => (s.sq q.val).inShot = true ∧ (s.sq q.val).abort = none)
    fun s t => (t.sq q.val).fault = 2 ∧ t.units.repairs = s.units.repairs ++ [.seqProgram q.val addr.val]) := by
  rintro q addr s ⟨hs, ha⟩
  refine ⟨_, rfl, ?_, ?_⟩
  · dsimp only
    rw [sq_seqTrouble, abortSeq_sq_same _ _ _ _ _ q.isLt (by exact hs) (by exact ha)]; rfl
  · simp

/-- A debug halt waits for the boundary (R89). -/
theorem debugHalt_waits : (∀ q, Completes (.debugSequencerHalt q) (fun s => s.debugLevel 2 = true ∧ (s.sq q.val).mode = .running)
    fun _ t => (t.sq q.val).debugWait = true ∧ (t.sq q.val).mode = .running) := by
  rintro q s ⟨hd, hm⟩
  refine ⟨_, show execDebugSequencerHalt q s = _ by unfold execDebugSequencerHalt; simp only [hd, hm]; rfl, ?_⟩
  simp [q.isLt, hm]

/-- A debug halt of an armed sequencer (R89). -/
theorem debugHalt_halts : (∀ q, Completes (.debugSequencerHalt q) (fun s => s.debugLevel 2 = true ∧ (s.sq q.val).mode = .armed)
    fun _ t => (t.sq q.val).mode = .debugHalted ∧ (t.sq q.val).rearmDue = true) := by
  rintro q s ⟨hd, hm⟩
  refine ⟨_, show execDebugSequencerHalt q s = _ by unfold execDebugSequencerHalt; simp only [hd, hm]; rfl, ?_⟩
  simp [q.isLt]

/-- A debug halt needs level D2 (R89). -/
theorem debugHalt_needs_level : (∀ q, Completes (.debugSequencerHalt q) (fun s => s.debugLevel 2 = false) fun s t => t = s) := by
  rintro q s hd
  exact ⟨_, show execDebugSequencerHalt q s = _ by unfold execDebugSequencerHalt; simp only [hd]; rfl, rfl⟩

/-- A debug step executes one instruction (R89). -/
theorem debugStep_executes : (∀ q i, Completes (.debugSequencerStep q)
    (fun s => s.debugLevel 2 = true ∧ (s.sq q.val).mode = .debugHalted ∧ (s.sq q.val).stepping = true ∧ s.ready q.val = some i)
    fun s t => t = s.doIns q.val i) := by
  rintro q i s ⟨hd, hm, hs, hr⟩
  exact ⟨_, show execDebugSequencerStep q s = _ by unfold execDebugSequencerStep; simp [hd, hm, hs, hr], rfl⟩

/-- A sequencer but for its flags and what they taint, its counts of underruns and missed starts, its landing and its stall. -/
def Seq.bare (c : Seq) : Seq := { c with underruns := 0, f := 0, missed := 0, landedAt := none, stall := .none, tainted := [] }

theorem sq_yields (k l r : Nat) (s : State) : (s.yields k l).sq r = s.sq r := sq_congr (by simp) r
theorem sq_troubleOwned (w : Fin 16) (b r : Nat) (o : Fin 8) (s : State) : (s.troubleOwned w b o).sq r = s.sq r := sq_congr (by simp) r
theorem sq_checkLanded (v t r : Nat) (s : State) : (s.checkLanded v t).sq r = s.sq r := sq_congr (by simp) r
theorem sq_clearParity (q r : Nat) (s : State) : (s.clearParity q).sq r = s.sq r := sq_congr (by simp) r

theorem bare_modSeq (q : Nat) (f : Seq → Seq) (s : State) (hf : ∀ c, (f c).bare = c.bare) (r : Nat) : ((s.modSeq q f).sq r).bare = (s.sq r).bare := by
  simp only [State.sq, State.modSeq, atN_updN]
  split
  · exact hf _
  · rfl

theorem settle_bare (q b t r : Nat) (s : State) : ((s.settle q b t).sq r).bare = (s.sq r).bare := by
  unfold State.settle
  split
  · rfl
  · dsimp only
    split
    · rfl
    · rw [sq_yields, sq_troubleOwned]
      refine (bare_modSeq q _ _ ?_ r).trans ?_
      · intro c; rfl
      · rw [sq_modSlot]; rfl

theorem settleAll_bare (q t r : Nat) (s : State) : ((s.settleAll q t).sq r).bare = (s.sq r).bare :=
  foldl_keeps (fun s => (s.sq r).bare) _ (fun s b => settle_bare q b t r s) _ s

/-- The sequencer at the boundary, where `State.endShot` reads it. -/
theorem settled_bare (q t : Nat) (s : State) : (((s.settleAll q t).hearCluster t (seqCluster q)).sq q).bare = (s.sq q).bare := by
  rw [sq_hearCluster, settleAll_bare]

theorem land_bare (q t r : Nat) (s : State) : ((s.land q t).sq r).bare = (s.sq r).bare := by
  unfold State.land; dsimp only
  split
  · rfl
  · split
    · rw [sq_checkLanded]
      refine (bare_modSeq q _ _ ?_ r).trans ?_
      · intro c; repeat' split
        all_goals rfl
      · rfl
    · rfl

/-- A sequencer at the boundary of its shot, before what it becomes (R25). -/
def Seq.bound (ab : Option Abort) (halt : Option (BitVec 32)) (c : Seq) : Seq :=
  { c with
    gBound := c.g, cues := [], abort := none, haltWait := none, holdWait := none
    shotsDone := if ab.isNone then c.shotsDone + 1 else c.shotsDone, lastHalt := halt.getD c.lastHalt
    ended := none, mode := .idle, stepping := false }

/-- The halt that takes effect at a boundary. -/
def Seq.halt (c : Seq) : Option (BitVec 32) :=
  match c.haltWait, c.holdWait with
  | some a, some b => some (if a.toNat < b.toNat then b else a)
  | a, none => a
  | none, b => b

/-- The shot's boundary as far as the landing of its view. -/
def State.shotLands (q t : Nat) (ab : Option Abort) (s : State) : State :=
  let s := (s.settleAll q t).hearCluster t (seqCluster q)
  let s := s.modSeq q fun c => { c with
    gBound := c.g, cues := [], stall := .none, abort := none, haltWait := none, holdWait := none
    tainted := if flagOf c.f flagTN then c.startAt :: c.tainted else c.tainted
    shotsDone := if ab.isNone then c.shotsDone + 1 else c.shotsDone, lastHalt := (s.sq q).halt.getD c.lastHalt }
  (s.clearParity q).land q t

/-- The state in which `State.endShot` decides what the sequencer becomes. -/
def State.shotOver (q t : Nat) (ab : Option Abort) (s : State) : State :=
  (s.shotLands q t ab).modSeq q fun c => { c with ended := none, mode := .idle, stepping := false }

theorem bare_congr {c d : Seq} (h : c.bare = d.bare) (F : Seq → Seq) (hF : ∀ c, (F c).bare = (F c.bare).bare) : (F c).bare = (F d).bare := by
  rw [hF, h, ← hF]

theorem shotLands_bare (q t : Nat) (ab : Option Abort) (s : State) (hq : q < 256) :
    ((s.shotLands q t ab).sq q).bare = ({ Seq.bound ab (s.sq q).halt (s.sq q) with
      ended := (s.sq q).ended, mode := (s.sq q).mode, stepping := (s.sq q).stepping } : Seq).bare := by
  have h1 := settled_bare q t s
  have hh : (((s.settleAll q t).hearCluster t (seqCluster q)).sq q).halt = (s.sq q).halt := (congrArg Seq.halt h1 :)
  unfold State.shotLands; dsimp only
  rw [hh, land_bare, sq_clearParity, sq_modSeq_same _ _ _ hq]
  exact bare_congr h1 (fun c => { Seq.bound ab (s.sq q).halt c with ended := c.ended, mode := c.mode, stepping := c.stepping }) fun c => rfl

theorem shotOver_bare (q t : Nat) (ab : Option Abort) (s : State) (hq : q < 256) :
    ((s.shotOver q t ab).sq q).bare = (Seq.bound ab (s.sq q).halt (s.sq q)).bare := by
  unfold State.shotOver
  rw [sq_modSeq_same _ _ _ hq]
  exact bare_congr (shotLands_bare q t ab s hq) (fun c => { c with ended := none, mode := .idle, stepping := false }) fun c => rfl

theorem shotOver_time (q t : Nat) (ab : Option Abort) (s : State) : (s.shotOver q t ab).time = s.time := by
  simp [State.shotOver, State.shotLands]

theorem land_spare (q t : Nat) (s : State) : (s.land q t).seqs.spare = s.seqs.spare := by
  unfold State.land; dsimp only
  split
  · rfl
  · split
    · simp [State.modSeq]
    · rfl

theorem settle_spare (q b t : Nat) (s : State) : (s.settle q b t).seqs.spare = s.seqs.spare := by
  unfold State.settle
  split
  · rfl
  · dsimp only
    split
    · rfl
    · simp [State.modSeq]

theorem settleAll_spare (q t : Nat) (s : State) : (s.settleAll q t).seqs.spare = s.seqs.spare :=
  foldl_keeps (·.seqs.spare) _ (fun s b => settle_spare q b t s) _ s

theorem shotOver_spare (q t : Nat) (ab : Option Abort) (s : State) : (s.shotOver q t ab).seqs.spare = s.seqs.spare := by
  simp [State.shotOver, State.shotLands, State.modSeq, land_spare, settleAll_spare]

/-- The sequencer would be armed again after this shot (R86). -/
def Seq.again (ab : Option Abort) (c : Seq) : Bool :=
  c.rearms && !(c.halt.isSome || (ab.map (·.code)).getD 0 == 8) && ab.all (·.rearm)

/-- A boundary at which no sealed set applies, nothing is repaired and no pair is exchanged (R86, R88). -/
theorem endShot_plain (q t : Nat) (ab : Option Abort) (s : State) (hq : q < 256) (hs : (s.sq q).sealed_ = none)
    (hd : (s.sq q).debugWait = false) (hp : (s.sq q).stepping = false) (h1 : (ab.map (·.code)).getD 0 ≠ 1) (h2 : (ab.map (·.code)).getD 0 ≠ 2) :
    s.endShot q t ab = (if (s.sq q).again ab then (s.shotOver q t ab).modSeq q fun c => { c with mode := .armed, armedAt := t }
      else (s.shotOver q t ab).setIdle q .idle).clipReports (seqCluster q) := by
  have hb := settled_bare q t s
  have hsl : (((s.settleAll q t).hearCluster t (seqCluster q)).sq q).sealed_ = none := (congrArg Seq.sealed_ hb :).trans hs
  have hdb : (((s.settleAll q t).hearCluster t (seqCluster q)).sq q).debugWait = false := (congrArg Seq.debugWait hb :).trans hd
  have hst : (((s.settleAll q t).hearCluster t (seqCluster q)).sq q).stepping = false := (congrArg Seq.stepping hb :).trans hp
  have hh : (((s.settleAll q t).hearCluster t (seqCluster q)).sq q).halt = (s.sq q).halt := (congrArg Seq.halt hb :)
  have hr : ((s.shotLands q t ab).sq q).rearms = (s.sq q).rearms := (congrArg Seq.rearms (shotLands_bare q t ab s hq) :)
  have hw : (((s.shotLands q t ab).sq q).rearms && !(((( s.settleAll q t).hearCluster t (seqCluster q)).sq q).halt.isSome || (ab.map (·.code)).getD 0 == 8)
      && ab.all (·.rearm)) = (s.sq q).again ab := by rw [hr, hh]; rfl
  unfold State.endShot
  dsimp only
  rw [hsl, hdb, hst]
  simp only [h1, h2, false_and, if_false, Bool.or_self, Bool.false_eq_true, Option.any_none]
  rw [← hw]
  rfl

theorem applySet_spare (q t : Nat) (s : State) : (s.applySet q t).seqs.spare = s.seqs.spare := by
  unfold State.applySet; dsimp only
  split <;> simp [State.modSeq]

/-- The state of a boundary once a sealed set has applied there. -/
def State.shotSet (q t : Nat) (ab : Option Abort) (s : State) : State :=
  if (((s.settleAll q t).hearCluster t (seqCluster q)).sq q).sealed_.any fun x => !x.waitAlm then (s.shotOver q t ab).applySet q t
  else s.shotOver q t ab

theorem shotSet_now (q t : Nat) (ab : Option Abort) (s : State) : (s.shotSet q t ab).now = s.now := by
  unfold State.shotSet
  split
  · rw [applySet_now, State.now_congr (shotOver_time q t ab s)]
  · exact State.now_congr (shotOver_time q t ab s)

theorem shotSet_spare (q t : Nat) (ab : Option Abort) (s : State) : (s.shotSet q t ab).seqs.spare = s.seqs.spare := by
  unfold State.shotSet
  split
  · rw [applySet_spare, shotOver_spare]
  · exact shotOver_spare q t ab s

/-- The spare pair is connected (R91). -/
def State.connectSpare (q t : Nat) (want : Bool) (s : State) : State :=
  ({ s with seqs := { s.seqs with spare := updN s.seqs.spare (seqCluster q) fun _ => some q } } : State).modSeq q fun c =>
    { c with onSpare := true, retired := true, restore := some (t, want) }

/-- A boundary after a miscompare (R91, R92). -/
theorem endShot_miscompare (q t : Nat) (a : Abort) (s : State) (h : a.code = 1) : ∃ want : Bool,
    s.endShot q t (some a) = (if (atN (s.shotSet q t (some a)).seqs.spare (seqCluster q) none).isSome then
        ((s.shotSet q t (some a)).setIdle q .failed).seqTrouble q 2 1
      else if want then (s.shotSet q t (some a)).connectSpare q t want
      else ((s.shotSet q t (some a)).connectSpare q t want).setIdle q .idle).clipReports (seqCluster q) := by
  unfold State.endShot
  dsimp only
  simp only [Option.map_some, Option.getD_some, h, if_true]
  exact ⟨_, rfl⟩


theorem exec_shotBoundary_ended (q : Fin 256) (s : State) {e : Ended} (hs : (s.sq q.val).inShot = true) (ha : (s.sq q.val).abort = none)
    (he : (s.sq q.val).ended = some e) (hc : (s.sq q.val).cues = []) : exec (.shotBoundary q) s =
      .next ((s.runToCount ((s.sq q.val).boundary e)).endShot q.val (s.dev ((s.sq q.val).boundary e)) none) := by
  show execShotBoundary q s = _
  unfold execShotBoundary; simp only [hs, ha, he, hc]; rfl

theorem exec_shotBoundary_abort (q : Fin 256) (s : State) {a : Abort} (hs : (s.sq q.val).inShot = true) (ha : (s.sq q.val).abort = some a)
    (hc : a.cut = true) : exec (.shotBoundary q) s = .next ((s.runToCount (a.at_ + 6)).endShot q.val (s.dev (a.at_ + 6)) (some a)) := by
  show execShotBoundary q s = _
  unfold execShotBoundary; simp only [hs, ha, hc]; rfl

theorem endShot_plain_now (q t : Nat) (ab : Option Abort) (s : State) (b : Bool) :
    ((if b then (s.shotOver q t ab).modSeq q fun c => { c with mode := .armed, armedAt := t }
      else (s.shotOver q t ab).setIdle q .idle).clipReports (seqCluster q)).now = s.now := by
  refine (State.now_congr (s := s.shotOver q t ab) ?_).trans (State.now_congr (shotOver_time q t ab s))
  cases b <;> simp

theorem endShot_plain_sq (q t : Nat) (ab : Option Abort) (s : State) (b : Bool) (hq : q < 256) :
    ((if b then (s.shotOver q t ab).modSeq q fun c => { c with mode := .armed, armedAt := t }
      else (s.shotOver q t ab).setIdle q .idle).clipReports (seqCluster q)).sq q =
    if b then { (s.shotOver q t ab).sq q with mode := .armed, armedAt := t } else { (s.shotOver q t ab).sq q with mode := .idle } := by
  rw [sq_clipReports]
  cases b <;> simp [hq]

/-- The boundary of a shot counts it, and arms again or not (R25, R86). -/
theorem shotBoundary_counts : (∀ q e, Completes (.shotBoundary q)
    (fun s => (s.sq q.val).inShot = true ∧ (s.sq q.val).abort = none ∧ (s.sq q.val).ended = some e ∧ (s.sq q.val).cues = [] ∧
      (s.sq q.val).sealed_ = none ∧ (s.sq q.val).haltWait = none ∧ (s.sq q.val).holdWait = none ∧ (s.sq q.val).debugWait = false ∧ (s.sq q.val).stepping = false ∧
      s.now ≤ s.dev ((s.sq q.val).boundary e))
    fun s t => t.now = s.dev ((s.sq q.val).boundary e) ∧ (t.sq q.val).shotsDone = (s.sq q.val).shotsDone + 1 ∧
      (t.sq q.val).gBound = (s.sq q.val).g ∧ (t.sq q.val).shotsLeft = (s.sq q.val).shotsLeft ∧
      (t.sq q.val).mode = (if e.last ∨ (t.sq q.val).shotsLeft = some 0 then .idle else .armed)) := by
  rintro q e s ⟨hs, ha, he, hc, hl, hw, hh, hd, hp, hn⟩
  have hq := q.isLt
  refine ⟨_, exec_shotBoundary_ended q s hs ha he hc, ?_⟩
  dsimp only
  have hb := shotOver_bare q.val (s.dev ((s.sq q.val).boundary e)) none (s.runToCount ((s.sq q.val).boundary e)) hq
  rw [endShot_plain _ _ _ _ hq (by simpa using hl) (by simpa using hd) (by simpa using hp) (by simp) (by simp), endShot_plain_now,
    endShot_plain_sq _ _ _ _ _ hq, runToCount_now _ _ hn]
  simp only [runToCount_sq] at hb ⊢
  generalize ((s.runToCount ((s.sq q.val).boundary e)).shotOver q.val (s.dev ((s.sq q.val).boundary e)) none).sq q.val = z at hb ⊢
  have h1 : z.shotsDone = (s.sq q.val).shotsDone + 1 := (congrArg Seq.shotsDone hb :)
  have h2 : z.gBound = (s.sq q.val).g := (congrArg Seq.gBound hb :)
  have h3 : z.shotsLeft = (s.sq q.val).shotsLeft := (congrArg Seq.shotsLeft hb :)
  have h4 : (s.sq q.val).again none = !(e.last || (s.sq q.val).shotsLeft == some 0) := by
    simp [Seq.again, Seq.rearms, Seq.halt, he, hw, hh, Bool.and_comm, bne]
  rw [h4]
  by_cases hx : e.last = true ∨ (s.sq q.val).shotsLeft = some 0
  · have hx' : (e.last || (s.sq q.val).shotsLeft == some 0) = true := by simpa using hx
    rw [hx', if_neg (by simp)]
    exact ⟨trivial, h1, h2, h3, (if_pos (by rw [h3]; exact hx)).symm⟩
  · have hx' : (e.last || (s.sq q.val).shotsLeft == some 0) = false := by simpa using hx
    rw [hx', if_pos (by simp)]
    exact ⟨trivial, h1, h2, h3, (if_neg (by rw [h3]; exact hx)).symm⟩

/-- The boundary of an aborted shot that R86 does not arm again (R84). -/
theorem shotBoundary_ends_abort : (∀ q a, Completes (.shotBoundary q)
    (fun s => (s.sq q.val).inShot = true ∧ (s.sq q.val).abort = some a ∧ a.cut = true ∧ a.code ≠ 1 ∧ a.code ≠ 2 ∧ a.rearm = false ∧
      (s.sq q.val).sealed_ = none ∧ (s.sq q.val).debugWait = false ∧ (s.sq q.val).stepping = false ∧ s.now ≤ s.dev (a.at_ + 6))
    fun s t => t.now = s.dev (a.at_ + 6) ∧ (t.sq q.val).mode = .idle ∧ (t.sq q.val).shotsDone = (s.sq q.val).shotsDone ∧
      (t.sq q.val).abort = none) := by
  rintro q a s ⟨hs, ha, hc, h1, h2, hr, hl, hd, hp, hn⟩
  have hq := q.isLt
  refine ⟨_, exec_shotBoundary_abort q s hs ha hc, ?_⟩
  dsimp only
  have hb := shotOver_bare q.val (s.dev (a.at_ + 6)) (some a) (s.runToCount (a.at_ + 6)) hq
  rw [endShot_plain _ _ _ _ hq (by simpa using hl) (by simpa using hd) (by simpa using hp) (by simpa using h1) (by simpa using h2), endShot_plain_now,
    endShot_plain_sq _ _ _ _ _ hq, runToCount_now _ _ hn]
  simp only [runToCount_sq] at hb ⊢
  have h4 : (s.sq q.val).again (some a) = false := by simp [Seq.again, hr]
  rw [h4]
  exact ⟨trivial, rfl, (congrArg Seq.shotsDone hb :), (congrArg Seq.abort hb :)⟩

theorem cluster_lt (q : Nat) (hq : q < 256) : seqCluster q < 8 := by unfold seqCluster; omega

theorem sq_connectSpare (q t : Nat) (w : Bool) (s : State) (hq : q < 256) :
    (s.connectSpare q t w).sq q = { s.sq q with onSpare := true, retired := true, restore := some (t, w) } := by
  unfold State.connectSpare; rw [sq_modSeq_same _ _ _ hq]; rfl

/-- The boundary after a miscompare connects a free spare pair (R91). -/
theorem shotBoundary_connects_spare : (∀ q a, Completes (.shotBoundary q)
    (fun s => (s.sq q.val).inShot = true ∧ (s.sq q.val).abort = some a ∧ a.cut = true ∧ a.code = 1 ∧ s.now ≤ s.dev (a.at_ + 6) ∧
      atN s.seqs.spare (seqCluster q.val) none = none)
    fun s t => t.now = s.dev (a.at_ + 6) ∧ atN t.seqs.spare (seqCluster q.val) none = some q.val ∧ (t.sq q.val).onSpare = true ∧
      (t.sq q.val).retired = true ∧ (t.sq q.val).restore.map (·.1) = some t.now) := by
  rintro q a s ⟨hs, ha, hc, h1, hn, hsp⟩
  have hq := q.isLt
  refine ⟨_, exec_shotBoundary_abort q s hs ha hc, ?_⟩
  dsimp only
  obtain ⟨w, e⟩ := endShot_miscompare q.val (s.dev (a.at_ + 6)) a (s.runToCount (a.at_ + 6)) h1
  have hn' : ((s.runToCount (a.at_ + 6)).shotSet q.val (s.dev (a.at_ + 6)) (some a)).now = s.dev (a.at_ + 6) := by
    rw [shotSet_now, runToCount_now _ _ hn]
  have hsp' : atN ((s.runToCount (a.at_ + 6)).shotSet q.val (s.dev (a.at_ + 6)) (some a)).seqs.spare (seqCluster q.val) none = none := by
    rw [shotSet_spare]; exact hsp
  rw [e, hsp']
  generalize (s.runToCount (a.at_ + 6)).shotSet q.val (s.dev (a.at_ + 6)) (some a) = u at hn' ⊢
  generalize s.dev (a.at_ + 6) = n at hn' ⊢
  have ht : (if w = true then u.connectSpare q.val n w else (u.connectSpare q.val n w).setIdle q.val .idle).time = u.time := by
    cases w <;> simp [State.connectSpare]
  have hspare : (if w = true then u.connectSpare q.val n w else (u.connectSpare q.val n w).setIdle q.val .idle).seqs.spare =
      updN u.seqs.spare (seqCluster q.val) fun _ => some q.val := by
    cases w <;> simp [State.connectSpare, State.setIdle, State.modSeq]
  simp only [Option.isSome_none, Bool.false_eq_true, if_false]
  rw [State.now_congr (State.clipReports_frame _ _).2.2.1, State.now_congr ht, hn', sq_clipReports]
  refine ⟨rfl, ?_, ?_⟩
  · rw [show ∀ k (x : State), (x.clipReports k).seqs = x.seqs from fun k x => by simp, hspare]
    simp [cluster_lt _ hq]
  · cases w <;> simp [sq_connectSpare _ _ _ _ hq, hq]

/-- The boundary after a miscompare with no spare pair left (R92). -/
theorem shotBoundary_fails : (∀ q a k, Completes (.shotBoundary q)
    (fun s => (s.sq q.val).inShot = true ∧ (s.sq q.val).abort = some a ∧ a.cut = true ∧ a.code = 1 ∧ s.now ≤ s.dev (a.at_ + 6) ∧
      atN s.seqs.spare (seqCluster q.val) none = some k)
    fun s t => t.now = s.dev (a.at_ + 6) ∧ (t.sq q.val).mode = .failed) := by
  rintro q a k s ⟨hs, ha, hc, h1, hn, hsp⟩
  have hq := q.isLt
  refine ⟨_, exec_shotBoundary_abort q s hs ha hc, ?_⟩
  dsimp only
  obtain ⟨w, e⟩ := endShot_miscompare q.val (s.dev (a.at_ + 6)) a (s.runToCount (a.at_ + 6)) h1
  have hn' : ((s.runToCount (a.at_ + 6)).shotSet q.val (s.dev (a.at_ + 6)) (some a)).now = s.dev (a.at_ + 6) := by
    rw [shotSet_now, runToCount_now _ _ hn]
  have hsp' : atN ((s.runToCount (a.at_ + 6)).shotSet q.val (s.dev (a.at_ + 6)) (some a)).seqs.spare (seqCluster q.val) none = some k := by
    rw [shotSet_spare]; exact hsp
  rw [e, hsp']
  simp only [Option.isSome_some, if_true]
  rw [sq_clipReports, sq_seqTrouble]
  refine ⟨?_, by simp [hq]⟩
  exact (State.now_congr (by simp)).trans hn'

/-- The slot is hold-muted, and nothing plays on it. -/
def Slot.isCut (x : Slot) : Prop := x.hold = true ∧ x.playing = none

theorem cutSlot_drive (q t : Nat) (b : Binding) (i : Fin 512) (s : State) (h : b = .drive i ∨ (s.slotOf (.drive i)).isCut) :
    ((s.cutSlot q t b).slotOf (.drive i)).isCut := by
  cases b with
  | drive j =>
    by_cases e : j = i
    · subst e; simp [State.cutSlot, State.modSlot, State.slotOf, getElem_upd, Slot.isCut]
    · have hj : (s.slotOf (.drive i)).isCut := h.resolve_left (by simpa using e)
      have e' : ¬ j.val = i.val := fun h => e (Fin.ext h)
      simpa [State.cutSlot, State.modSlot, State.slotOf, getElem_upd, e', e] using hj
  | _ => exact h.resolve_left (by simp)

theorem cutSlots_drive (q t : Nat) (l : List Binding) (i : Fin 512) (s : State) (h : .drive i ∈ l ∨ (s.slotOf (.drive i)).isCut) :
    ((l.foldl (fun s b => s.cutSlot q t b) s).slotOf (.drive i)).isCut := by
  induction l generalizing s with
  | nil => exact h.resolve_left (by simp)
  | cons b l ih =>
    rw [List.foldl_cons]
    refine ih _ ?_
    rcases h with h | h
    · rcases List.mem_cons.1 h with h | h
      · exact .inr (cutSlot_drive q t b i s (.inl h.symm))
      · exact .inl h
    · exact .inr (cutSlot_drive q t b i s (.inr h))

/-- The cut of an abort (Table 3.11). -/
theorem seqAbortCut_cuts : (∀ q a i, Completes (.seqAbortCut q)
    (fun s => (s.sq q.val).abort = some a ∧ a.cut = false ∧ s.now ≤ s.dev (a.at_ + 5) ∧ Binding.drive i ∈ (s.sq q.val).active.toList)
    fun s t => t.now = s.dev (a.at_ + 5) ∧ (t.sq q.val).abort = some { a with cut := true } ∧ (t.sq q.val).cues = [] ∧
      (t.slotOf (.drive i)).hold = true ∧ (t.slotOf (.drive i)).playing = none) := by
  rintro q a i s ⟨ha, hc, hn, hi⟩
  have hq := q.isLt
  refine ⟨_, show execSeqAbortCut q s = _ by unfold execSeqAbortCut; simp only [ha, hc]; rfl, ?_⟩
  dsimp only
  refine ⟨?_, ?_, ?_, ?_⟩
  · rw [← runToCount_now _ _ hn]
    exact State.now_congr (by simp)
  · rw [sq_clipReports, sq_congr (foldl_seqs _ (fun s b => by simp) _ _), sq_modSeq_same _ _ _ hq]
  · rw [sq_clipReports, sq_congr (foldl_seqs _ (fun s b => by simp) _ _), sq_modSeq_same _ _ _ hq]
  · rw [slotOf_clipReports]
    exact cutSlots_drive _ _ _ _ _ (.inl hi)

/-! ## Stepping -/

/-- What a step keeps of its sequencer. -/
def Seq.stepView (c : Seq) : Bool × Vector Word 32 × SeqMode := (c.stepping, c.snap, c.mode)

theorem view_modSeq (q : Nat) (f : Seq → Seq) (s : State) (hf : ∀ c, (f c).stepView = c.stepView) (r : Nat) :
    ((s.modSeq q f).sq r).stepView = (s.sq r).stepView := by
  simp only [State.sq, State.modSeq, atN_updN]
  split
  · exact hf _
  · rfl

theorem view_abortSeq (q a code r : Nat) (rearm : Bool) (s : State) : ((s.abortSeq q a code rearm).sq r).stepView = (s.sq r).stepView := by
  by_cases h : (s.sq q).inShot = true ∧ (s.sq q).abort = none
  · rw [(abortSeq_begins q a code r rearm s h.1 h.2).2]
    exact view_modSeq _ _ _ (by intro c; rfl) r
  · unfold State.abortSeq
    rw [if_pos (by cases h1 : (s.sq q).inShot <;> cases h2 : (s.sq q).abort <;> simp_all)]

theorem view_goto (q i pc : Nat) (l : List LoopEnt) (r : Nat) (s : State) : ((s.goto q i pc l).sq r).stepView = (s.sq r).stepView := by
  unfold State.goto; dsimp only
  split
  · exact view_modSeq q _ s (by intro c; rfl) r
  · exact (view_abortSeq _ _ _ _ _ _).trans (view_modSeq q _ s (by intro c; rfl) r)

theorem view_fall (q i r : Nat) (s : State) : ((s.fall q i).sq r).stepView = (s.sq r).stepView := view_goto _ _ _ _ _ _

theorem view_jump (q i tgt r : Nat) (s : State) : ((s.jump q i tgt).sq r).stepView = (s.sq r).stepView := view_goto _ _ _ _ _ _

theorem view_issueAt (q i r : Nat) (s : State) : ((s.issueAt q i).sq r).stepView = (s.sq r).stepView := by
  unfold State.issueAt; dsimp only
  refine (view_modSeq q _ _ (fun c => ?_) r).trans ?_
  · split <;> rfl
  · rw [runToCount_sq]

theorem view_late (b : Bool) (c : Seq) : (if b then c.late else c).stepView = c.stepView := by cases b <;> rfl

theorem view_cueIssue (q lead : Nat) (t : Timed) (after : Option Nat) (act : CueAct) (r : Nat) (s : State) :
    ((s.cueIssue q lead t after act).sq r).stepView = (s.sq r).stepView := by
  unfold State.cueIssue; dsimp only
  rw [view_fall]
  refine (view_modSeq q _ _ ?_ r).trans (view_issueAt _ _ _ _)
  intro c
  exact view_late _ c

theorem view_setReg (gd : Nat) (v : Word) (c : Seq) : (c.setReg gd v).stepView = c.stepView := by
  unfold Seq.setReg; split <;> rfl

theorem view_doWrite (q gd : Nat) (v : State → Word) (r : Nat) (s : State) : ((s.doWrite q gd v).sq r).stepView = (s.sq r).stepView := by
  unfold State.doWrite; dsimp only
  rw [view_fall]
  exact (view_modSeq q _ _ (view_setReg gd _) r).trans (view_issueAt _ _ _ _)

theorem view_doPlay (q : Nat) (t : Timed) (rep : Bool) (folio : Nat) (r : Nat) (s : State) :
    ((s.doPlay q t rep folio).sq r).stepView = (s.sq r).stepView := by
  unfold State.doPlay; dsimp only
  rw [view_cueIssue]
  refine view_modSeq q _ s ?_ r
  intro c; rfl

theorem view_doSetf (q : Nat) (t : Timed) (gs : Nat) (r : Nat) (s : State) :
    ((s.doSetf q t gs).sq r).stepView = (s.sq r).stepView := by
  unfold State.doSetf
  exact view_cueIssue _ _ _ _ _ _ _

theorem view_doSetp (q : Nat) (t : Timed) (gs : Nat) (r : Nat) (s : State) :
    ((s.doSetp q t gs).sq r).stepView = (s.sq r).stepView := by
  unfold State.doSetp
  exact view_cueIssue _ _ _ _ _ _ _

theorem view_doFrame (q : Nat) (t : Timed) (src : Bool) (imm gs : Nat) (r : Nat) (s : State) :
    ((s.doFrame q t src imm gs).sq r).stepView = (s.sq r).stepView := by
  unfold State.doFrame
  exact view_cueIssue _ _ _ _ _ _ _

theorem view_doMeasure (q : Nat) (t : Timed) (len : Nat) (capt : Bool) (r : Nat) (s : State) :
    ((s.doMeasure q t len capt).sq r).stepView = (s.sq r).stepView := by
  unfold State.doMeasure
  exact view_cueIssue _ _ _ _ _ _ _

theorem view_doMark (q : Nat) (t : Timed) (tgt width : Nat) (r : Nat) (s : State) :
    ((s.doMark q t tgt width).sq r).stepView = (s.sq r).stepView := by
  unfold State.doMark
  exact view_cueIssue _ _ _ _ _ _ _

theorem view_doWait (q : Nat) (gm : Nat) (r : Nat) (s : State) :
    ((s.doWait q gm).sq r).stepView = (s.sq r).stepView := by
  unfold State.doWait; dsimp only
  split
  · exact ((congrArg Seq.stepView (land_bare q _ r _) :)).trans ((view_modSeq q _ _ (by intro c; rfl) r).trans (view_issueAt _ _ _ _))
  · exact (view_modSeq q _ _ (by intro c; rfl) r).trans (view_issueAt _ _ _ _)

theorem view_doBrv (q : Nat) (mode tgt : Nat) (r : Nat) (s : State) :
    ((s.doBrv q mode tgt).sq r).stepView = (s.sq r).stepView := by
  unfold State.doBrv; dsimp only
  split
  · split
    · exact (view_jump _ _ _ _ _).trans ((view_modSeq q _ _ (by intro c; rfl) r).trans (view_issueAt _ _ _ _))
    · exact (view_fall _ _ _ _).trans ((view_modSeq q _ _ (by intro c; rfl) r).trans (view_issueAt _ _ _ _))
  · exact (view_modSeq q _ _ (by intro c; rfl) r).trans (view_issueAt _ _ _ _)

theorem view_doBr (q : Nat) (cond ga gb tgt : Nat) (r : Nat) (s : State) :
    ((s.doBr q cond ga gb tgt).sq r).stepView = (s.sq r).stepView := by
  unfold State.doBr; dsimp only
  split
  · exact (view_jump _ _ _ _ _).trans (view_issueAt _ _ _ _)
  · exact (view_fall _ _ _ _).trans (view_issueAt _ _ _ _)

theorem view_doLoop (q : Nat) (creg : Bool) (gc count stop : Nat) (r : Nat) (s : State) :
    ((s.doLoop q creg gc count stop).sq r).stepView = (s.sq r).stepView := by
  unfold State.doLoop; dsimp only
  generalize (if creg = true then (((s.issueAt q (s.issueTick q)).sq q).reg gc).toNat else count) = n
  split
  · exact (view_abortSeq _ _ _ _ _ _).trans (view_issueAt _ _ _ _)
  · split
    · exact (view_goto _ _ _ _ _ _).trans (view_issueAt _ _ _ _)
    · split
      · exact (view_abortSeq _ _ _ _ _ _).trans (view_issueAt _ _ _ _)
      · exact (view_goto _ _ _ _ _ _).trans (view_issueAt _ _ _ _)

theorem view_doCall (q : Nat) (tgt : Nat) (r : Nat) (s : State) :
    ((s.doCall q tgt).sq r).stepView = (s.sq r).stepView := by
  unfold State.doCall; dsimp only
  split
  · exact (view_abortSeq _ _ _ _ _ _).trans (view_issueAt _ _ _ _)
  · exact (view_goto _ _ _ _ _ _).trans ((view_modSeq q _ _ (by intro c; rfl) r).trans (view_issueAt _ _ _ _))

theorem view_doRet (q : Nat) (r : Nat) (s : State) :
    ((s.doRet q).sq r).stepView = (s.sq r).stepView := by
  unfold State.doRet; dsimp only
  split
  · exact (view_abortSeq _ _ _ _ _ _).trans (view_issueAt _ _ _ _)
  · exact (view_goto _ _ _ _ _ _).trans ((view_modSeq q _ _ (by intro c; rfl) r).trans (view_issueAt _ _ _ _))

theorem view_doEnd (q : Nat) (last : Bool) (r : Nat) (s : State) :
    ((s.doEnd q last).sq r).stepView = (s.sq r).stepView := by
  unfold State.doEnd; dsimp only
  rw [sq_congr (foldl_seqs _ (fun s b => by simp) _ _)]
  exact (view_modSeq q _ _ (by intro c; rfl) r).trans (view_issueAt _ _ _ _)

theorem view_doAlu (q : Nat) (gd ga gb fn : Nat) (r : Nat) (s : State) :
    ((s.doAlu q gd ga gb fn).sq r).stepView = (s.sq r).stepView := by
  unfold State.doAlu
  exact view_doWrite _ _ _ _ _

theorem view_doAlui (q : Nat) (gd ga fn : Nat) (imm : Word) (r : Nat) (s : State) :
    ((s.doAlui q gd ga fn imm).sq r).stepView = (s.sq r).stepView := by
  unfold State.doAlui
  exact view_doWrite _ _ _ _ _

theorem view_doLi (q : Nat) (gd : Nat) (hi : Bool) (imm : BitVec 32) (r : Nat) (s : State) :
    ((s.doLi q gd hi imm).sq r).stepView = (s.sq r).stepView := by
  unfold State.doLi
  exact view_doWrite _ _ _ _ _

theorem view_doMovs (q : Nat) (gd sr : Nat) (r : Nat) (s : State) :
    ((s.doMovs q gd sr).sq r).stepView = (s.sq r).stepView := by
  unfold State.doMovs
  exact view_doWrite _ _ _ _ _

theorem view_doIns (q : Nat) (i : SeqIns) (r : Nat) (s : State) : ((s.doIns q i).sq r).stepView = (s.sq r).stepView := by
  cases i with
  | nop => exact (view_fall _ _ _ _).trans (view_issueAt _ _ _ _)
  | play t rep folio => exact view_doPlay q t rep folio r s
  | setf t gs => exact view_doSetf q t gs r s
  | setp t gs => exact view_doSetp q t gs r s
  | frame t src imm gs => exact view_doFrame q t src imm gs r s
  | measure t len capt => exact view_doMeasure q t len capt r s
  | mark t tgt width => exact view_doMark q t tgt width r s
  | wait gm gr tmo tj tgt => exact view_doWait q gm r s
  | brv port smask mode dflt drel dl tgt gr => exact view_doBrv q mode tgt r s
  | lookup => exact (view_modSeq q _ _ (by intro c; rfl) r).trans (view_issueAt _ _ _ _)
  | br cond ga gb tgt => exact view_doBr q cond ga gb tgt r s
  | loop creg gc count stop => exact view_doLoop q creg gc count stop r s
  | call tgt => exact view_doCall q tgt r s
  | ret => exact view_doRet q r s
  | end_ last => exact view_doEnd q last r s
  | alu gd ga gb fn => exact view_doAlu q gd ga gb fn r s
  | alui gd ga fn imm => exact view_doAlui q gd ga fn imm r s
  | li gd hi imm => exact view_doLi q gd hi imm r s
  | movs gd sr => exact view_doMovs q gd sr r s

theorem startShot_view (q e : Nat) (s : State) (hq : q < 256) : ((s.startShot q e true).sq q).stepView = (true, (s.sq q).g, .debugHalted) := by
  unfold State.startShot; dsimp only
  rw [sq_modMember, sq_congr (foldl_seqs _ (fun s b => by simp) _ _), sq_modSeq_same _ _ _ hq, sq_hearCluster]
  rfl

/-- The first debug step of a shot starts it (R89). -/
theorem debugStep_starts : (∀ q, Completes (.debugSequencerStep q)
    (fun s => s.debugLevel 2 = true ∧ (s.sq q.val).mode = .debugHalted ∧ (s.sq q.val).stepping = false ∧ (s.sq q.val).rearmDue = true)
    fun s t => (t.sq q.val).stepping = true ∧ (t.sq q.val).snap = (s.sq q.val).g ∧ (t.sq q.val).mode = .debugHalted) := by
  rintro q s ⟨hd, hm, hs, hr⟩
  have hv := startShot_view q.val s.now s q.isLt
  have key : ∃ t, exec (.debugSequencerStep q) s = .next t ∧ (t.sq q.val).stepView = (true, (s.sq q.val).g, .debugHalted) := by
    show ∃ t, execDebugSequencerStep q s = _ ∧ _
    unfold execDebugSequencerStep; dsimp only
    simp only [hd, hm, hs, hr, Bool.not_true, Bool.false_eq_true, ne_eq, not_true_eq_false, or_self, if_false, if_true]
    split
    · exact ⟨_, rfl, (view_doIns _ _ _ _).trans hv⟩
    · exact ⟨_, rfl, hv⟩
  obtain ⟨t, ht, hv⟩ := key
  exact ⟨t, ht, congrArg (·.1) hv, congrArg (·.2.1) hv, congrArg (·.2.2) hv⟩

/-- The tick after an edge that passes the filter of input `i`. -/
theorem trigEvent_now (i : Nat) (s : State) (h : (s.inp i).active ≠ (s.inp i).level) : (s.trigEvent i).now = max s.now (s.inp i).due := by
  have e : (s.trigEvent i).time = (s.runTo (s.inp i).due).time := by
    unfold State.trigEvent; dsimp only
    rw [if_neg h]
    split <;> simp
  rw [State.now_congr e]
  simp only [State.now, State.runTo, State.advance, Timebase.advance]; omega

/-- The tick after a change of a line that the filter sees from tick `y` on. -/
theorem lineEdge_now (i y : Nat) (ext : Bool) (s : State) : (s.lineEdge i y ext).now =
    if (s.inp i).active ≠ (s.inp i).level ∧ (s.inp i).due < y then max s.now (s.inp i).due else s.now := by
  unfold State.lineEdge; dsimp only
  by_cases h : (s.inp i).active ≠ (s.inp i).level ∧ (s.inp i).due < y
  · rw [if_pos h, if_pos h, ← trigEvent_now i s h.1]
    split <;> exact State.now_congr (by simp)
  · rw [if_neg h, if_neg h]
    split <;> exact State.now_congr (by simp)

/-- The tick after the device sees its own MARK: the draw decides whether the input's earlier edge has passed the filter. -/
theorem ownEdge_now (i t : Nat) (s : State) : (s.ownEdge i t).now =
    if (s.inp i).active ≠ (s.inp i).level ∧ (s.inp i).due < t + (Config.freeWord s.free).toNat % 5 then max s.now (s.inp i).due else s.now :=
  lineEdge_now i _ _ _

/-- Every synchronizer delay that the model draws is 0 or 1. -/
def ShortDraws : Prop := ∀ k, (Config.freeWord k).toNat % 5 < 2

theorem ownEdge_now_short (h : ShortDraws) (i : Nat) (s : State) : (s.ownEdge i s.now).now = s.now := by
  rw [ownEdge_now]
  have := h s.free
  split <;> omega

theorem ownEdge_pulse (i t : Nat) (s : State) : (s.ownEdge i t).synth = s.synth := by simp

/-- A MARK cue on a chassis trigger line raises its pin; its tick is the stamp tick where the draws are short (R247). -/
theorem markCue_executes (hd : ShortDraws) : (∀ q x tgt width, Completes (.cueExecute q)
    (fun s => firstCue (s.sq q.val).liveCues = some x ∧ x.act = .mark tgt width ∧ 8 ≤ tgt ∧ tgt < 16 ∧ s.now ≤ s.dev x.stamp)
    fun s t => t.now = s.dev x.stamp ∧ atN t.synth.pulse tgt none = some (max ((atN s.synth.pulse tgt none).getD 0) (t.now + width))) := by
  rintro q x tgt width s ⟨h, ha, h8, h16, hn⟩
  refine ⟨_, exec_cueExecute q s h, ?_⟩
  have hn' := runToCount_now _ _ hn
  unfold State.runCue
  simp only [ha, h8, show ¬ tgt = 16 by omega, show ¬ tgt < 8 by omega, false_and, if_false, if_true]
  rw [ownEdge_pulse]
  have key (u : State) (hu : u.now = s.dev x.stamp) : (u.ownEdge (tgt - 8) (s.dev x.stamp)).now = s.dev x.stamp := by
    rw [← hu]; exact ownEdge_now_short hd _ u
  rw [key]
  · refine ⟨rfl, ?_⟩
    rw [atN_updN, if_pos ⟨rfl, h16⟩]
    rfl
  · exact hn'

/-- The pulse of a pin ends; its tick is the end of the pulse where the draws are short (R247). -/
theorem pinPulse_ends (hd : ShortDraws) : (∀ p n, Completes (.markPulseEnd (.pin p)) (fun s => s.synth.pulse[p.val] = some n ∧ s.now ≤ n)
    fun _ t => t.now = n ∧ t.synth.pulse[p.val] = none) := by
  rintro p n s ⟨h, hn⟩
  refine ⟨_, show execMarkPulseEnd (.pin p) s = _ by unfold execMarkPulseEnd; simp only [h]; rfl, ?_⟩
  dsimp only
  have hn' := State.runTo_now n s hn
  split
  · refine ⟨?_, by simp [getElem_upd]⟩
    have key (u : State) (hu : u.now = n) : (u.ownEdge (p.val - 8) n).now = n := by rw [← hu]; exact ownEdge_now_short hd _ u
    exact key _ hn'
  · exact ⟨hn', by simp [getElem_upd]⟩

/-- Pin 8 ends its pulse in tick 0, its input has an edge that passes the filter in tick 1, and the next draw is draw `k`. -/
def lateEdge (k : Nat) : State :=
  { State.reset with
    synth := { State.reset.synth with pulse := upd State.reset.synth.pulse 8 fun _ => some 0 }
    acq := { State.reset.acq with input := updN State.reset.acq.input 0 fun x => { x with ball := true, actlow := false, level := false, ballAt := 2, filter := 0 } }
    free := k }

theorem lateEdge_pulse (k : Nat) : (lateEdge k).synth.pulse[(8 : Fin 16).val] = some 0 ∧ (lateEdge k).now ≤ 0 := ⟨rfl, Nat.le_refl 0⟩

/-- The pulse has ended. -/
def lateEdgeEnd (k : Nat) : State :=
  let s := (lateEdge k).runTo 0
  { s with synth := { s.synth with pulse := upd s.synth.pulse 8 fun _ => none } }

theorem exec_lateEdge (k : Nat) : exec (.markPulseEnd (.pin 8)) (lateEdge k) = .next ((lateEdgeEnd k).ownEdge 0 0) := rfl

theorem lateEdgeEnd_input (k : Nat) : ((lateEdgeEnd k).inp 0).active = true ∧ ((lateEdgeEnd k).inp 0).level = false ∧
    ((lateEdgeEnd k).inp 0).due = 1 ∧ (lateEdgeEnd k).free = k ∧ (lateEdgeEnd k).now = 0 := ⟨rfl, rfl, rfl, rfl, rfl⟩

/-- What O26 rests on: its clauses hold exactly where no draw delays the device's view of its own MARK by 2 ticks or more. `Config.freeWord`
is opaque, so that neither side is decided. Every clause but those of a MARK cue and of a pin's pulse holds as it stands. -/
theorem sequencerEventsComplete_iff : Obligations.SequencerEventsComplete ↔ ShortDraws := by
  constructor
  · rintro ⟨-, -, -, -, hp, -⟩ k
    obtain ⟨t, ht, hnow, -⟩ := hp 8 0 (lateEdge k) (lateEdge_pulse k)
    rw [exec_lateEdge] at ht
    injection ht with e
    obtain ⟨ha, hl, hd, hf, hn⟩ := lateEdgeEnd_input k
    rw [← e, ownEdge_now, ha, hl, hd, hf, hn] at hnow
    refine Nat.lt_of_not_le fun h => ?_
    rw [if_pos ⟨by decide, by omega⟩] at hnow
    exact absurd hnow (by decide)
  · intro hd
    exact ⟨setfCue_executes, frameCue_executes, playCue_executes, markCue_executes hd, pinPulse_ends hd, markerPulse_ends,
      shotStart_starts, shotStart_skips, shotBoundary_counts, shotBoundary_ends_abort, shotBoundary_connects_spare,
      shotBoundary_fails, seqAbortCut_cuts, shotLengthLimit_aborts, lockstepMiscompare_aborts, sparePairRestoreEnd_restores,
      programMemoryError_counts, programMemoryError_aborts, debugHalt_waits, debugHalt_halts, debugHalt_needs_level,
      debugStep_executes, debugStep_starts⟩

end Sys2Proof.Machine
end

section
/-!
PROOFS. Laws that the timebase uses: commits, completions of open commands, mutes, trouble bits, the tick counter and the edges of the
sync inputs.
-/
namespace Sys2Proof.Machine

/-! ## Commits and completions (R296, R309, R320) -/

/-- A command that completes later is open once it has committed (R309). -/
theorem commit_opens (s0 : State) (f : Fetched) (a : BitVec 32) (e : Effect) (h : e.later = true) :
    ∃ o ∈ (State.commit s0 f a e).host.open_, o.packet = f.packet ∧ o.accept = a := by
  unfold State.commit
  simp only [h, Bool.or_true, if_true, State.vectorsLast_host, State.journalCommit_frame]
  exact ⟨_, List.mem_append_right _ (List.mem_singleton_self _), rfl, rfl⟩

/-- A commit leaves the timebase as the effect has it. -/
theorem commit_time (s0 : State) (f : Fetched) (a : BitVec 32) (e : Effect) : (State.commit s0 f a e).time = e.st.time := by simp

/-- A completion that is posted answers its packet (R296). -/
theorem post_posted {p : Packet} (c : Post) (s : State) (hp : c.src = p.source) (ht : c.tag = p.tag) (hh : c.handle = p.handle)
    (hs : c.silent = false) (hr : c.ringFault = false) (hq : (s.queue c.src).qstate ≠ .disabled) :
    Posted p c.accept c.status c.reply (s.post c) := by
  by_cases hi : p.source = .internal
  · exact .inl hi
  · obtain ⟨x, hx, h1, h2, h3, h4, h5, h6⟩ := post_head c s (hp ▸ hi) hs hr hq
    exact .inr ⟨x, congrArg List.head? hx, h1.trans hp, h2.trans ht, h3.trans hh, h4, h5, h6⟩

/-- An open command that an event ends has completed (R296, R309). -/
theorem finish_finished (o : OpenCmd) (st : Nat) (r : Option Words) (t q : BitVec 64) (b : Nat) (s : State) (d : Nat) :
    Finished o st r s (s.finish o st r t q b d) := by
  unfold State.finish
  refine ⟨by simp, fun hs hq => post_posted _ _ rfl rfl rfl hs rfl ?_⟩
  rwa [queue_of_host (s := s) (by simp) (by simp)]

/-- What an open command's completion says of the state before it, it says of the command state alone. -/
theorem Finished.congr {o : OpenCmd} {st : Nat} {r : Option Words} {s u t : State} (h : Finished o st r u t) (hu : u.host = s.host) :
    Finished o st r s t := by
  obtain ⟨ho, hp⟩ := h
  refine ⟨by rw [ho, hu], fun hs hq => hp hs ?_⟩
  rwa [queue_of_host (congrArg (·.queues) hu) (congrArg (·.debugQueue) hu)]

theorem finish_now (o : OpenCmd) (st : Nat) (r : Option Words) (t q : BitVec 64) (b : Nat) (s : State) (d : Nat) :
    (s.finish o st r t q b d).now = s.now := State.now_congr (by simp)

/-- The clock runs to tick `n`, and an open command completes there. -/
theorem runTo_finished (o : OpenCmd) (st : Nat) (r : Option Words) (n : Nat) (q : BitVec 64) (b : Nat) (s : State) (hn : s.now ≤ n) :
    Finished o st r s ((s.runTo n).finish o st r (s.runTo n).tick q b) ∧
      ((s.runTo n).finish o st r (s.runTo n).tick q b).now = n :=
  ⟨(finish_finished o st r _ q b _ _).congr (by simp), by rw [finish_now, State.runTo_now _ _ hn]⟩

/-! ## Outputs, trouble bits, the tick counter and the sync inputs -/

/-- A vector leaves the trouble words alone. -/
theorem raise_keeps (k : Nat) (v : Fin 16) (c : Nat) {s : State} (h : bitAt s.trouble[v.val] c = true) :
    bitAt (s.raise k).trouble[v.val] c = true := by
  unfold State.raise State.raiseFn
  split
  · exact h
  · exact h

/-- A record and a vector keep a trouble bit that is set. -/
theorem timeEvent_keeps (d : BitVec 32) (v : Fin 16) (c : Nat) {s : State} (h : bitAt s.trouble[v.val] c = true) :
    bitAt (s.timeEvent d).trouble[v.val] c = true := by
  simpa [State.timeEvent] using note_keeps v c h _

/-- An output is read from the synthesis alone. -/
theorem out_congr {s t : State} (h : t.synth = s.synth) (o : Nat) : t.out o = s.out o := by simp [State.out, h]

@[simp] theorem out_setTrouble (w : Fin 16) (b : Nat) (s : State) (o : Nat) : (s.setTrouble w b).out o = s.out o := out_congr (by simp) o

@[simp] theorem out_timeEvent (d : BitVec 32) (s : State) (o : Nat) : (s.timeEvent d).out o = s.out o := out_congr (by simp) o

/-- A loss of lock mutes every output (R58). -/
theorem unlockMute_unlock (s : State) (o : Nat) (h : o < 96) : (s.unlockMute.out o).unlock = true := by
  rw [State.unlockMute, calStopAll_unlock, unlockAll_out true s o h]

/-- The tick counter reads zero in the tick in which it starts (R39). -/
theorem counter_start (t : Timebase) (hc : t.counting = true) (hz : t.zeroAt = t.now) : t.counter = 0 := by
  simp [Timebase.counter, Timebase.counterAt, hc, hz]

/-- An edge of a sync input fixes the epoch tick of a capture that is armed for it (R36, R38). -/
def Timebase.takeEdge (src : SyncIn) (ps : Fin 1000) (t : Timebase) : Timebase :=
  if t.capture = .armed src then
    { t with capture := .fixed (t.now + t.epochDelay + (if ps.val = 0 then 0 else 1)) ps.val }
  else t

/-- An edge at phase `ps` is the measurement of a SKEW_CAL in TDC mode that waits for one (R44). -/
def OpenCmd.takeEdge (ps : Fin 1000) (o : OpenCmd) : OpenCmd :=
  if o.isSkew 0 && o.data.isEmpty then { o with data := [put 31 0 ps.val] } else o

/-- An edge of a sync input reaches the capture, and the measurements of the input that the TDC watches. -/
theorem exec_syncEdge (src : SyncIn) (ps : Fin 1000) (s : State) : exec (.syncEdge src ps) s =
    .next { s with
      time := s.time.takeEdge src ps
      host := if s.tdcInput = src then { s.host with open_ := s.host.open_.map (OpenCmd.takeEdge ps) } else s.host } := by
  show execSyncEdge src ps s = _
  unfold execSyncEdge Timebase.takeEdge
  by_cases hc : s.time.capture = .armed src
  · simp only [if_pos hc]
    by_cases hs : s.tdcInput = src
    · rw [if_pos hs]; exact if_pos hs
    · rw [if_neg hs]; exact if_neg hs
  · simp only [if_neg hc]
    split <;> rfl

end Sys2Proof.Machine
end

section
/-!
PROOFS. What the commands of the timebase do (group 0x02, Tables 2.2 to 2.6).
-/
namespace Sys2Proof.Machine

/-! ## TIME_SERVO_FEED (Table 2.3) -/

theorem timeServoFeed_accept (p : Packet) (s : State) : (timeServoFeedCmd.eff s p).st.host.accept = s.host.accept := by
  unfold timeServoFeedCmd; dsimp only
  split
  · split
    · rfl
    split
    · split <;> simp
    · rfl
  · rfl
  · rfl

/-- FEED: the servo takes the offset from the mark that the command names (R51). -/
theorem timeServoFeed_feeds (p : Packet) (s : State) (h : fld (wordAt p.payload 0) 63 60 = 0) {m : MarkRec}
    (hm : s.time.markNamed (lo32 (wordAt p.payload 0)) = some m) :
    (timeServoFeedCmd.eff s p).st.time = s.time.feed m (sfld (wordAt p.payload 1) 63 0) := by
  simp only [timeServoFeedCmd, h, hm]
  split
  · split <;> simp
  · rfl

/-- CONFIG: the servo takes its configuration. -/
theorem timeServoFeed_configures (p : Packet) (s : State) (h : fld (wordAt p.payload 0) 63 60 = 1) :
    (timeServoFeedCmd.eff s p).st.time = { s.time with
      slewLimit := fld (wordAt p.payload 2) 63 56, stepThreshold := fld (wordAt p.payload 2) 55 24, tc := fld (wordAt p.payload 2) 23 8,
      kiShift := fld (wordAt p.payload 2) 7 1, stepInhibit := bitAt (wordAt p.payload 2) 0 : Timebase }.reslew := by
  simp only [timeServoFeedCmd, h]

/-- SET: the Almanac and the second phase are set. -/
theorem timeServoFeed_sets (p : Packet) (s : State) (h : fld (wordAt p.payload 0) 63 60 = 2) :
    (timeServoFeedCmd.eff s p).st.time = { s.time with
      almanac := lo32 (wordAt p.payload 1), secPhase := fld (wordAt p.payload 1) 61 32, frac := 0, skipMarks := 0
      travel := s.time.travel + (lo32 (wordAt p.payload 1) - s.time.almanac).toInt } := by
  simp only [timeServoFeedCmd, h]

theorem timeServoFeed_answers (p : Packet) : Answers (.timeServoFeed p) timeServoFeedCmd p fun s t =>
    (fld (wordAt p.payload 0) 63 60 = 0 → ∀ m, s.time.markNamed (lo32 (wordAt p.payload 0)) = some m →
      t.time = s.time.feed m (sfld (wordAt p.payload 1) 63 0)) ∧
    (fld (wordAt p.payload 0) 63 60 = 1 →
      t.time.slewLimit = fld (wordAt p.payload 2) 63 56 ∧ t.time.stepThreshold = fld (wordAt p.payload 2) 55 24 ∧
      t.time.tc = fld (wordAt p.payload 2) 23 8 ∧ t.time.kiShift = fld (wordAt p.payload 2) 7 1) ∧
    (fld (wordAt p.payload 0) 63 60 = 2 →
      t.time.almanac = lo32 (wordAt p.payload 1) ∧ t.time.secPhase = fld (wordAt p.payload 1) 61 32) := by
  refine answers_of (fun _ => rfl) fun s _ => ⟨by simp [timeServoFeed_accept], fun h m hm => ?_, fun h => ?_, fun h => ?_⟩
  · rw [commit_time, timeServoFeed_feeds p _ h (m := m) (by simpa using hm)]
    simp
  · rw [commit_time, timeServoFeed_configures p _ h]
    exact ⟨rfl, rfl, rfl, rfl⟩
  · rw [commit_time, timeServoFeed_sets p _ h]
    exact ⟨rfl, rfl⟩

/-! ## SYNC_ARM (Table 2.5) -/

/-- A change of reference source, as the timebase has it (R35). -/
@[simp] theorem changeRef_time (r : RefSrc) (s : State) : (s.changeRef r).time = { s.time with
    refSrc := r, pll := .unlocked, epochValid := false, returnAt := none, steering := false, sourceChangedAt := some s.now } := by
  simp [State.changeRef]

theorem refChange_some {s : State} {w : Word} {r : RefSrc} (h : refSrcOf (fld w 63 60) = some r) (hr : r ≠ s.time.refSrc) :
    s.refChange w = some r := by
  simp [State.refChange, h, hr]

theorem syncArm_accept (p : Packet) (s : State) : (syncArmCmd.eff s p).st.host.accept = s.host.accept := by
  unfold syncArmCmd; dsimp only
  split
  · rfl
  · dsimp only
    split <;> simp

/-- CANCEL: the capture is dropped. -/
theorem syncArm_cancels (p : Packet) (s : State) (h : bitAt (wordAt p.payload 0) 0 = true) :
    (syncArmCmd.eff s p).st.time.capture = .none := by
  simp only [syncArmCmd, h, if_true]

/-- The capture of a SYNC_ARM that does not cancel, by its source of the epoch (R36, R38). -/
theorem syncArm_capture (p : Packet) (s : State) (h : bitAt (wordAt p.payload 0) 0 = false) :
    (fld (wordAt p.payload 0) 59 56 = 0 → (syncArmCmd.eff s p).st.time.capture = .armed .chassis) ∧
    (fld (wordAt p.payload 0) 59 56 = 1 → (syncArmCmd.eff s p).st.time.capture = .armed .syncin) ∧
    (fld (wordAt p.payload 0) 59 56 = 2 →
      (syncArmCmd.eff s p).st.time.capture = .fixed (s.now + ((wordAt p.payload 1).toNat - s.tick.toNat)) 0) := by
  refine ⟨fun k => ?_, fun k => ?_, fun k => ?_⟩ <;> simp [syncArmCmd, h, k]

/-- The change of reference source, where the SYNC_ARM names another one (R35). -/
theorem syncArm_changes_reference (p : Packet) (s : State) (h : bitAt (wordAt p.payload 0) 0 = false) {r : RefSrc}
    (hr : s.refChange (wordAt p.payload 0) = some r) :
    (syncArmCmd.eff s p).st.time.refSrc = r ∧ (syncArmCmd.eff s p).st.time.pll = .unlocked ∧
      (syncArmCmd.eff s p).st.time.epochValid = false := by
  simp [syncArmCmd, h, hr]

theorem syncArm_answers (p : Packet) : Answers (.syncArm p) syncArmCmd p fun s t =>
    (bitAt (wordAt p.payload 0) 0 = true → t.time.capture = .none) ∧
    (bitAt (wordAt p.payload 0) 0 = false → fld (wordAt p.payload 0) 59 56 = 0 → t.time.capture = .armed .chassis) ∧
    (bitAt (wordAt p.payload 0) 0 = false → fld (wordAt p.payload 0) 59 56 = 1 → t.time.capture = .armed .syncin) ∧
    (bitAt (wordAt p.payload 0) 0 = false → fld (wordAt p.payload 0) 59 56 = 2 →
      t.time.capture = .fixed (s.now + ((wordAt p.payload 1).toNat - s.tick.toNat)) 0) ∧
    (bitAt (wordAt p.payload 0) 0 = false → ∀ r, refSrcOf (fld (wordAt p.payload 0) 63 60) = some r → r ≠ s.time.refSrc →
      t.time.refSrc = r ∧ t.time.pll = .unlocked ∧ t.time.epochValid = false) := by
  refine answers_of (fun _ => rfl) fun s _ => ⟨by simp [syncArm_accept], ?_⟩
  rw [commit_time]
  have ht : (syncArmCmd.entry p s).tick = s.tick := by simp [State.tick]
  refine ⟨syncArm_cancels p _, fun h => (syncArm_capture p _ h).1, fun h => (syncArm_capture p _ h).2.1, fun h k => ?_, fun h r hr hn => ?_⟩
  · rw [(syncArm_capture p _ h).2.2 k, entry_now, ht]
  · exact syncArm_changes_reference p _ h (refChange_some hr (by simpa using hn))

/-! ## SKEW_CAL (Table 2.2) -/

theorem skewCal_accept (p : Packet) (s : State) : (skewCalCmd.eff s p).st.host.accept = s.host.accept := by
  unfold skewCalCmd; dsimp only
  split
  · split <;> simp
  · dsimp only
    split <;> simp

/-- Mode 2 sets the phase correction. -/
theorem skewCal_corrects (p : Packet) (s : State) (h : fld (wordAt p.payload 0) 63 60 = 2) :
    (skewCalCmd.eff s p).st.time.phaseCorr = sfld (wordAt p.payload 0) 31 0 := by
  simp only [skewCalCmd, h, if_true]
  split <;> simp

/-- The other modes begin a measurement, which completes later. -/
theorem skewCal_measures (p : Packet) (s : State) (h : fld (wordAt p.payload 0) 63 60 ≠ 2) :
    (skewCalCmd.eff s p).st.time = s.time ∧ (skewCalCmd.eff s p).later = true := by
  simp only [skewCalCmd, h, if_false]
  split <;> simp

theorem skewCal_answers (p : Packet) : Answers (.skewCal p) skewCalCmd p fun s t =>
    (fld (wordAt p.payload 0) 63 60 = 2 → t.time.phaseCorr = sfld (wordAt p.payload 0) 31 0) ∧
    (fld (wordAt p.payload 0) 63 60 ≠ 2 → t.time = s.time ∧ ∃ o ∈ t.host.open_, o.packet = p ∧ o.accept = s.host.accept + 1) := by
  refine answers_of (fun _ => rfl) fun s _ => ⟨by simp [skewCal_accept], fun h => ?_, fun h => ⟨?_, ?_⟩⟩
  · rw [commit_time, skewCal_corrects p _ h]
  · rw [commit_time, (skewCal_measures p _ h).1]
    simp
  · simpa using commit_opens (skewCalCmd.entry p s) (s.fetchedAs skewCalCmd.opcode p) (s.host.accept + 1) _ (skewCal_measures p _ h).2

/-! ## ALMANAC_READ (Table 2.6) -/

theorem almanacRead_answers (p : Packet) : Answers (.almanacRead p) almanacReadCmd p fun s t =>
    t.time = s.time ∧ Posted p (s.host.accept + 1) 0 (some s.time.readWords) t := by
  refine answers_of (fun _ => rfl) fun s h => ?_
  have hp := ready_posted h (by simp [almanacReadCmd]) (by simp [almanacReadCmd]) (by simp [almanacReadCmd]) (by simp [almanacReadCmd])
  exact ⟨by simp [almanacReadCmd], by simp [almanacReadCmd], by simpa [almanacReadCmd] using hp⟩

/-- Settles O8: the committed state has the timebase of the effect, and a measurement that the effect begins is open. -/
theorem timebaseCommandsComplete : Obligations.TimebaseCommandsComplete :=
  ⟨timeServoFeed_answers, syncArm_answers, skewCal_answers, almanacRead_answers⟩

end Sys2Proof.Machine
end

section
/-!
PROOFS. What the events of the timebase do (chapter 2).
-/
namespace Sys2Proof.Machine

/-! ## Completions of SKEW_CAL (R44, R45, R309) -/

/-- A TDC measurement that has its edge completes; near a tick boundary with 0x0502 (R44). -/
theorem skewCalComplete_tdc (o : OpenCmd) : Completes .skewCalComplete (fun s => s.skewWith 0 (fun o => !o.data.isEmpty) = some o)
    fun s t => Finished o (if fld (wordAt o.data 0) 31 0 < 150 ∨ 850 < fld (wordAt o.data 0) 31 0 then 0x0502 else 0)
      (some [skewReply (fld (wordAt o.data 0) 31 0) 0]) s t := by
  intro s h
  refine ⟨_, show execSkewCalComplete s = _ by unfold execSkewCalComplete; rw [h], ?_⟩
  simpa using finish_finished o _ _ _ _ _ s _

/-- A fabric measurement that has its 8 exchanges completes with mean and spread (R45). -/
theorem skewCalComplete_fabric (o : OpenCmd) : Completes .skewCalComplete
    (fun s => s.skewWith 0 (fun o => !o.data.isEmpty) = none ∧ s.skewWith 1 (fun o => 8 ≤ o.data.length) = some o)
    fun s t => Finished o 0 (some [skewReply (skewResult (o.data.map fun w => sfld w 63 0)).1
      (skewResult (o.data.map fun w => sfld w 63 0)).2]) s t := by
  rintro s ⟨h0, h1⟩
  refine ⟨_, show execSkewCalComplete s = _ by unfold execSkewCalComplete; rw [h0]; dsimp only; rw [h1], ?_⟩
  exact finish_finished o _ _ _ _ _ s _

theorem skewCalTimeout_tdc (o : OpenCmd) : Completes .skewCalTimeout
    (fun s => s.skewWith 0 (fun o => o.data.isEmpty) = some o ∧ s.now ≤ o.since + 1000000000)
    fun s t => Finished o 0x0603 none s t ∧ t.now = o.since + 1000000000 := by
  rintro s ⟨h, hn⟩
  refine ⟨_, show execSkewCalTimeout s = _ by unfold execSkewCalTimeout; rw [h], ?_⟩
  exact runTo_finished o _ _ _ _ _ s hn

theorem skewCalTimeout_fabric (o : OpenCmd) (n : Nat) : Completes .skewCalTimeout
    (fun s => s.skewWith 0 (fun o => o.data.isEmpty) = none ∧ s.skewWith 1 (fun o => o.data.length < 8) = some o ∧ o.first = some n ∧
      s.now ≤ n + 1000000)
    fun s t => Finished o 0x0603 none s t ∧ t.now = n + 1000000 := by
  rintro s ⟨h0, h1, hf, hn⟩
  refine ⟨_, show execSkewCalTimeout s = _ by unfold execSkewCalTimeout; rw [h0]; dsimp only; rw [h1], ?_⟩
  simpa [hf] using runTo_finished o 0x0603 none _ 0 1000000 s hn

/-! ## Reference and sample PLL (R34, R35, R58, R59) -/

theorem referenceLoss_holds : Completes .referenceLoss (fun s => s.time.pll = .locked)
    (fun _ t => t.time.pll = .holdover ∧ bitAt t.trouble[0] 0 = true) := by
  intro s h
  refine ⟨_, show execReferenceLoss s = _ from if_pos (.inl h), by simp, ?_⟩
  exact timeEvent_keeps 1 0 0 (setTrouble_bit 0 0 _ (by decide))

theorem referenceReturn_waits : Completes .referenceReturn (fun s => s.time.pll = .holdover ∧ s.time.returnAt = none)
    (fun s t => t.time.returnAt = some s.now) := fun s h => ⟨_, show execReferenceReturn s = _ from if_pos h, rfl⟩

/-- Steered relock runs from tick `n` on (R59). -/
def State.steerFrom (n : Nat) (s : State) : State := { s.runTo n with time := { (s.runTo n).time with steering := true } }

theorem steerFrom_now (n : Nat) (s : State) (h : s.now ≤ n) : (s.steerFrom n).now = n := State.runTo_now n s h

theorem referenceStable_steers (n : Nat) : Completes .referenceStable
    (fun s => s.time.pll = .holdover ∧ s.time.returnAt = some n ∧ s.now ≤ n + 1000000)
    fun _ t => t.time.steering = true ∧ t.now = n + 1000000 := by
  rintro s ⟨hp, hr, hn⟩
  have hx : execReferenceStable s = .next (s.steerFrom (n + 1000000)) := by
    unfold execReferenceStable; rw [hr]; exact if_pos hp
  exact ⟨_, hx, rfl, steerFrom_now _ s hn⟩

theorem relockComplete_locks : Completes .relockComplete (fun s => s.time.steering = true)
    (fun _ t => t.time.pll = .locked ∧ t.time.epochValid = false) := by
  intro s h
  exact ⟨_, show execRelockComplete s = _ from if_pos h, by simp, by simp⟩

theorem pllLock_locks : Completes .pllLock (fun s => s.time.pll = .unlocked ∧ 4 ≤ s.boot.phase ∧ s.power.st ≠ .dormant)
    (fun s t => t.time.pll = .locked ∧ t.time.epochValid = false ∧ t.time.counting = true ∧
      (s.time.counting = false → t.tick = 0) ∧ ∀ o < 96, (t.out o).unlock = false) := by
  intro s h
  refine ⟨_, show execPllLock s = _ from if_pos h, by simp, by simp, by simp, fun hc => ?_, fun o ho => ?_⟩
  · exact counter_start _ (by simp) (by simp [hc])
  · rw [out_timeEvent]
    exact unlockAll_out false _ o ho

/-- No valid signal has arrived by tick `n` (R35, R441). -/
def State.referenceMissed (n : Nat) (s : State) : State :=
  (({ s.runTo n with time := { (s.runTo n).time with sourceChangedAt := none } } : State).setTrouble 0 0).timeEvent 4

theorem referenceMissed_now (n : Nat) (s : State) (h : s.now ≤ n) : (s.referenceMissed n).now = n := by
  simpa [State.referenceMissed, State.now] using State.runTo_now n s h

theorem referenceTimeout_reports (n : Nat) : Completes .referenceTimeout
    (fun s => s.time.sourceChangedAt = some n ∧ s.time.pll = .unlocked ∧ s.now ≤ n + 10000000)
    fun _ t => t.time.sourceChangedAt = none ∧ t.now = n + 10000000 ∧ bitAt t.trouble[0] 0 = true := by
  rintro s ⟨hs, hp, hn⟩
  have hx : execReferenceTimeout s = .next (s.referenceMissed (n + 10000000)) := by
    unfold execReferenceTimeout; rw [hs]; exact if_pos hp
  exact ⟨_, hx, by simp [State.referenceMissed], referenceMissed_now _ s hn, timeEvent_keeps 4 0 0 (setTrouble_bit 0 0 _ (by decide))⟩

theorem pllFault_mutes : Completes .pllFault (fun s => s.time.pll = .locked)
    (fun _ t => t.time.pll = .unlocked ∧ bitAt t.trouble[0] 1 = true ∧ ∀ o < 96, (t.out o).unlock = true) := by
  intro s h
  refine ⟨_, show execPllFault s = _ from if_pos h, by simp, timeEvent_keeps 5 0 1 (setTrouble_bit 0 1 _ (by decide)), fun o ho => ?_⟩
  rw [out_timeEvent, out_setTrouble]
  exact unlockMute_unlock _ o ho

/-! ## Epochs (R36, R38, R39, R41, R44) -/

theorem syncEdge_fixes (src : SyncIn) (ps : Fin 1000) : Completes (.syncEdge src ps) (fun s => s.time.capture = .armed src)
    fun s t => t.time.capture = .fixed (s.now + s.time.epochDelay + (if ps.val = 0 then 0 else 1)) ps.val := by
  intro s h
  refine ⟨_, exec_syncEdge src ps s, ?_⟩
  rw [Timebase.takeEdge, if_pos h]
  rfl

theorem syncEdge_measures (src : SyncIn) (ps : Fin 1000) : Completes (.syncEdge src ps) (fun s => s.tdcInput = src)
    fun s t => ∀ o ∈ s.host.open_, o.isSkew 0 = true → o.data = [] → { o with data := [put 31 0 ps.val] } ∈ t.host.open_ := by
  intro s h
  refine ⟨_, exec_syncEdge src ps s, fun o ho hk hd => ?_⟩
  rw [if_pos h]
  have he : o.takeEdge ps = { o with data := [put 31 0 ps.val] } := by simp [OpenCmd.takeEdge, hk, hd]
  exact he ▸ List.mem_map_of_mem ho

theorem epochSet_starts (n ps : Nat) : Completes .epochSet (fun s => s.time.capture = .fixed n ps ∧ s.now ≤ n)
    fun s t => t.now = n ∧ t.tick = 0 ∧ t.time.epochValid = true ∧ t.time.epochCount = s.time.epochCount + 1 ∧ t.time.capture = .none := by
  rintro s ⟨h, hn⟩
  have hr : (s.runTo n).time.now = n := State.runTo_now n s hn
  refine ⟨_, show execEpochSet s = _ by unfold execEpochSet; rw [h], ?_, ?_, by simp, by simp; rfl, by simp⟩
  · simpa [State.now] using hr
  · exact counter_start _ (by simp) (by simp [hr])

/-! ## Marks, the phase term and Almanac events (R50, R51, R55) -/

theorem almanacMark_serves (m : MarkRec) (l : List MarkRec) : Completes .almanacMark (fun s => s.time.marksDue = m :: l)
    fun s t => t.time.marksDue = l ∧ t.time.markSeq = s.time.markSeq + 1 ∧ t.time.lastMark.now = m.now ∧ t.time.prevMark = s.time.lastMark := by
  intro s h
  refine ⟨_, show execAlmanacMark s = _ from if_neg (by rw [h]; exact List.cons_ne_nil m l), ?_⟩
  simp [State.serveMark, h]

theorem servoPhaseTermEnd_ends (n : Nat) : Completes .servoPhaseTermEnd (fun s => s.time.psiEnd = some n ∧ s.now ≤ n)
    fun _ t => t.now = n ∧ t.time.psi = {} ∧ t.time.psiEnd = none := by
  rintro s ⟨h, hn⟩
  have hx : execServoPhaseTermEnd s =
      .next { s.runTo n with time := { (s.runTo n).time with psi := {}, psiEnd := none : Timebase }.reslew } := by
    unfold execServoPhaseTermEnd; rw [h]
  exact ⟨_, hx, State.runTo_now n s hn, rfl, rfl⟩

/-- An event that is due in this tick fires in it. -/
theorem fireTick_due (t : Timebase) (e : AlmEvent) (hd : e.due ≤ t.travel) (he : e.earliest ≤ t.now) : t.fireTick e = t.now := by
  simp only [Timebase.fireTick, if_pos hd]; omega

/-- The Almanac does not go back where no tick passes, so that an event that is due stays due. -/
theorem isDue_advance_zero (t : Timebase) (e : AlmEvent) (hd : e.due ≤ t.travel) (he : e.earliest ≤ t.now) :
    (t.advance 0).isDue e = true := by
  have hm : 0 ≤ t.moved 0 := by simp only [Timebase.moved]; omega
  have ht : e.due ≤ (t.advance 0).travel := Int.le_trans hd (Int.le_add_of_nonneg_right hm)
  unfold Timebase.isDue
  rw [decide_eq_true ht, decide_eq_true (show e.earliest ≤ (t.advance 0).now from he)]
  rfl

/-- The start of a bias queue leaves the timebase alone (R275). -/
theorem fireAlm_biasQueue_time (b : Nat) (s : State) : (s.fireAlm (.biasQueue b)).time = s.time := by simp [State.fireAlm]

theorem almanacEventFire_fires (b : Nat) (e : Int) : Completes .almanacEventFire
    (fun s => s.time.events = [⟨.biasQueue b, e, s.now⟩] ∧ e ≤ s.time.travel)
    fun s t => t.time.events = [] ∧ t.now = s.now := by
  rintro s ⟨h, hd⟩
  have hf : s.time.fireTick ⟨.biasQueue b, e, s.now⟩ = s.now := fireTick_due _ _ hd (Nat.le_refl _)
  have hr : (s.runTo s.now).time = s.time.advance 0 := by simp [State.runTo, State.advance, State.now]
  have hv : (s.time.advance 0).events = [⟨.biasQueue b, e, s.now⟩] := h
  have hi : (s.time.advance 0).isDue ⟨.biasQueue b, e, s.now⟩ = true := isDue_advance_zero _ _ hd (Nat.le_refl _)
  have hx : execAlmanacEventFire s =
      .next (({ s.runTo s.now with time := { s.time.advance 0 with events := [] } } : State).fireAlm (.biasQueue b)) := by
    unfold execAlmanacEventFire; rw [h]
    simp [hf, hr, hv, hi]
  exact ⟨_, hx, by rw [fireAlm_biasQueue_time], by rw [State.now_congr (fireAlm_biasQueue_time b _)]; rfl⟩

/-- Settles O9: an event runs the clock to its tick and writes the timebase; what it reports, and what it does to outputs, lanes and bias
channels, leaves the timebase as written. -/
theorem timebaseEventsComplete : Obligations.TimebaseEventsComplete :=
  ⟨skewCalComplete_tdc, skewCalComplete_fabric, skewCalTimeout_tdc, skewCalTimeout_fabric, referenceLoss_holds, referenceReturn_waits,
    referenceStable_steers, relockComplete_locks, pllLock_locks, referenceTimeout_reports, pllFault_mutes, syncEdge_fixes,
    syncEdge_measures, epochSet_starts, almanacMark_serves, servoPhaseTermEnd_ends, almanacEventFire_fires⟩

end Sys2Proof.Machine
end

section
/-!
PROOFS. What the commands and events of the timebase leave alone (chapter 2).
-/
namespace Sys2Proof.Machine

theorem timeServoFeed_frame (p : Packet) : Frame (.timeServoFeed p) (withReport [.time]) :=
  frame_of (c := timeServoFeedCmd) (fun _ => rfl) (by simp) fun s => by
    unfold timeServoFeedCmd; dsimp only
    split
    · split
      · simp [only_iff]
      split
      · split <;> simp [only_iff]
      · simp [only_iff]
    · simp [only_iff]
    · simp [only_iff]

theorem almanacRead_frame (p : Packet) : Frame (.almanacRead p) report :=
  frame_of (c := almanacReadCmd) (fun _ => rfl) (fun _ h => h) fun s => Only.refl report s

theorem skewCal_frame (p : Packet) : Frame (.skewCal p) (withReport [.time, .fabric]) :=
  frame_of (c := skewCalCmd) (fun _ => rfl) (by simp) fun s => by
    unfold skewCalCmd; dsimp only
    split
    · split <;> simp [only_iff]
    · dsimp only
      split <;> simp [only_iff]

theorem syncArm_frame (p : Packet) : Frame (.syncArm p) (withReport [.time, .synth, .readout, .bias, .cal]) :=
  frame_of (c := syncArmCmd) (fun _ => rfl) (by simp) fun s => by
    unfold syncArmCmd; dsimp only
    split
    · simp [only_iff]
    · dsimp only
      split <;> simp [only_iff]

theorem skewCalComplete_frame : Frame .skewCalComplete (withReport [.time]) := fun s => by
  show Keeps _ s (execSkewCalComplete s)
  unfold execSkewCalComplete; dsimp only
  split
  · simp [only_iff]
  · split <;> simp [only_iff]

theorem skewCalTimeout_frame : Frame .skewCalTimeout (withReport [.time]) := fun s => by
  show Keeps _ s (execSkewCalTimeout s)
  unfold execSkewCalTimeout; dsimp only
  split
  · simp [only_iff]
  · split <;> simp [only_iff]

theorem referenceLoss_frame : Frame .referenceLoss (withReport [.time]) := fun s => by
  show Keeps _ s (execReferenceLoss s)
  unfold execReferenceLoss
  split <;> simp [only_iff]

theorem referenceReturn_frame : Frame .referenceReturn (withReport [.time]) := fun s => by
  show Keeps _ s (execReferenceReturn s)
  unfold execReferenceReturn
  split <;> simp [only_iff]

theorem referenceStable_frame : Frame .referenceStable (withReport [.time]) := fun s => by
  show Keeps _ s (execReferenceStable s)
  unfold execReferenceStable; dsimp only
  split
  · split <;> simp [only_iff]
  · simp [only_iff]

theorem relockComplete_frame : Frame .relockComplete (withReport [.time]) := fun s => by
  show Keeps _ s (execRelockComplete s)
  unfold execRelockComplete
  split <;> simp [only_iff]

theorem referenceTimeout_frame : Frame .referenceTimeout (withReport [.time]) := fun s => by
  show Keeps _ s (execReferenceTimeout s)
  unfold execReferenceTimeout; dsimp only
  split
  · split <;> simp [only_iff]
  · simp [only_iff]

theorem servoPhaseTermEnd_frame : Frame .servoPhaseTermEnd (withReport [.time]) := fun s => by
  show Keeps _ s (execServoPhaseTermEnd s)
  unfold execServoPhaseTermEnd; dsimp only
  split <;> simp [only_iff]

theorem syncEdge_frame (src : SyncIn) (ps : Fin 1000) : Frame (.syncEdge src ps) [.time, .host] := fun s => by
  rw [exec_syncEdge]
  show Keeps _ s _
  simp [only_iff]

theorem pllLock_frame : Frame .pllLock (withReport [.time, .synth]) := fun s => by
  show Keeps _ s (execPllLock s)
  unfold execPllLock; dsimp only
  split <;> simp [only_iff]

theorem almanacMark_frame : Frame .almanacMark [.time, .synth, .host] := fun s => by
  show Keeps _ s (execAlmanacMark s)
  unfold execAlmanacMark
  split <;> simp [only_iff]

theorem epochSet_frame : Frame .epochSet (withReport [.time, .fabric]) := fun s => by
  show Keeps _ s (execEpochSet s)
  unfold execEpochSet; dsimp only
  split <;> simp [only_iff]

theorem pllFault_frame : Frame .pllFault (withReport [.time, .synth, .readout, .bias, .cal]) := fun s => by
  show Keeps _ s (execPllFault s)
  unfold execPllFault
  split <;> simp [only_iff]

/-- The events that reach the timebase and what is reported, and nothing else. -/
theorem timebaseEvent_frame : ∀ i ∈ [Instr.skewCalComplete, .skewCalTimeout, .referenceLoss, .referenceReturn, .referenceStable,
    .relockComplete, .referenceTimeout, .servoPhaseTermEnd], Frame i (withReport [.time]) := by
  simp only [List.forall_mem_cons]
  exact ⟨skewCalComplete_frame, skewCalTimeout_frame, referenceLoss_frame, referenceReturn_frame, referenceStable_frame,
    relockComplete_frame, referenceTimeout_frame, servoPhaseTermEnd_frame, List.forall_mem_nil _⟩

/-- Settles O10: each command and event of the timebase is a few writes of the timebase, and its report; only a loss of lock and a change
of reference call the outputs and calibration runs, and only an epoch and a phase correction call the lanes. -/
theorem timebaseFrame : Obligations.TimebaseFrame :=
  ⟨timeServoFeed_frame, almanacRead_frame, skewCal_frame, syncArm_frame, timebaseEvent_frame, syncEdge_frame, pllLock_frame,
    almanacMark_frame, epochSet_frame, pllFault_frame⟩

end Sys2Proof.Machine
end

section
/-!
PROOFS. Blocks and service words of a lane (R206 to R220): what each shared operation does to a lane, and then each command.
-/
namespace Sys2Proof.Machine

/-! ## Lanes -/

/-- A lane is read from the fabric alone. -/
theorem lane_congr {s t : State} (h : t.fabric = s.fabric) (n : Nat) : t.lane n = s.lane n := by simp [State.lane, h]

@[simp] theorem lane_modLane_same (n : Fin 16) (f : Lane → Lane) (s : State) : (s.modLane n.val f).lane n.val = f (s.lane n.val) := by
  simp [State.lane, State.modLane]

@[simp] theorem flight_modLane (n : Nat) (f : Lane → Lane) (s : State) : (s.modLane n f).fabric.flight = s.fabric.flight := rfl

/-- The clock and a change of a lane leave the start of the tick counter alone. -/
@[simp] theorem dev_runToCount (j k : Nat) (s : State) : (s.runToCount j).dev k = s.dev k := rfl
@[simp] theorem dev_modLane (n k : Nat) (f : Lane → Lane) (s : State) : (s.modLane n f).dev k = s.dev k := rfl

@[simp] theorem lane_raise (v n : Nat) (s : State) : (s.raise v).lane n = s.lane n := lane_congr (by simp) n
@[simp] theorem lane_note (r : LedgerRec) (n : Nat) (s : State) : (s.note r).lane n = s.lane n := lane_congr (by simp) n
@[simp] theorem lane_setTrouble (w : Fin 16) (b n : Nat) (s : State) : (s.setTrouble w b).lane n = s.lane n := lane_congr (by simp) n
@[simp] theorem lane_runToCount (k n : Nat) (s : State) : (s.runToCount k).lane n = s.lane n := lane_congr (by simp) n
@[simp] theorem lane_drawWord (n : Nat) (s : State) : s.drawWord.2.lane n = s.lane n := rfl
@[simp] theorem lane_skewBegins (k t n : Nat) (s : State) : (s.skewBegins k t).lane n = s.lane n := rfl
@[simp] theorem lane_finish (o : OpenCmd) (st : Nat) (r : Option Words) (t q : BitVec 64) (b : Nat) (s : State) (d n : Nat) :
    (s.finish o st r t q b d).lane n = s.lane n := lane_congr (by simp) n

/-- The verdicts that a bad check block makes invalid stand in ports and inputs: no lane changes (R210). -/
@[simp] theorem lane_clearValid (n : Fin 16) (l : Words) (m : Nat) (s : State) : (s.clearValid n l).lane m = s.lane m := rfl

/-- A lane after it has entered a state. -/
theorem lane_laneEnter (n : Fin 16) (st : LaneState) (s : State) : (s.laneEnter n.val st).lane n.val = { s.lane n.val with
    st := st, since := s.now, lostAt := if (s.lane n.val).st = .up ∧ st ≠ .up then s.now else (s.lane n.val).lostAt
    relock := false, pairs := 0 } := by
  unfold State.laneEnter; dsimp only
  split
  · simp
  · simp

@[simp] theorem laneEnter_now (n : Nat) (st : LaneState) (s : State) : (s.laneEnter n st).now = s.now := State.now_congr (by simp)

/-- A lane in which a test has begun (R220). -/
theorem testStart_lane (n : Fin 16) (ms : Nat) (s : State) :
    ((s.testStart n.val ms).lane n.val).st = .test ∧ ((s.testStart n.val ms).lane n.val).testLen = ms * 1000000 ∧
      ((s.testStart n.val ms).lane n.val).testAt = s.now ∧ ((s.testStart n.val ms).lane n.val).service = (s.lane n.val).service := by
  simp [State.testStart, lane_laneEnter]

/-- A lane whose LANE_TEST the peer has answered (R220). -/
theorem testAnswer_lane (n : Fin 16) (status : Nat) (s : State) :
    (s.testAnswer n.val status).lane n.val = { s.lane n.val with testAsked := false } := by
  unfold State.testAnswer; dsimp only
  split
  · simp
  · simp

/-- A block leaves in slot `k`: the lane's next slot is the one after, the payload is the last that was sent, and what waits is as it was
(R208, R209). -/
theorem sendBlock_lane (n : Fin 16) (k : Nat) (b : Block) (s : State) :
    ((s.sendBlock n.val k b).lane n.val).slot = k + 1 ∧ ((s.sendBlock n.val k b).lane n.val).sent.head? = some (k, b.payload) ∧
      ((s.sendBlock n.val k b).lane n.val).st = (s.lane n.val).st ∧ ((s.sendBlock n.val k b).lane n.val).queue = (s.lane n.val).queue ∧
      ((s.sendBlock n.val k b).lane n.val).service = (s.lane n.val).service := by
  unfold State.sendBlock; dsimp only
  split
  · simp
  · simp

theorem sendBlock_flight (n k : Nat) (b : Block) (s : State) : (s.sendBlock n k b).fabric.flight = s.fabric.flight := by
  unfold State.sendBlock; dsimp only
  split <;> simp

/-- A service word leaves: it waits no longer, and the transmit queue is as it was. -/
theorem sendService_lane (n : Fin 16) (k : Nat) (w : Word) (came : Nat) (s : State) :
    ((s.sendService n.val k w came).lane n.val).service = (s.lane n.val).service.drop 1 ∧
      ((s.sendService n.val k w came).lane n.val).queue = (s.lane n.val).queue := by
  have send (b : Block) (f : Lane → Lane) (u : State) (hu : u.lane n.val = s.lane n.val)
      (hs : ∀ l, (f l).service = l.service.drop 1) (hq : ∀ l, (f l).queue = l.queue) :
      (((u.modLane n.val f).sendBlock n.val k b).lane n.val).service = (s.lane n.val).service.drop 1 ∧
        (((u.modLane n.val f).sendBlock n.val k b).lane n.val).queue = (s.lane n.val).queue := by
    obtain ⟨-, -, -, e1, e2⟩ := sendBlock_lane n k b (u.modLane n.val f)
    rw [e1, e2, lane_modLane_same, hu, hs, hq]
    exact ⟨rfl, rfl⟩
  unfold State.sendService; dsimp only
  split
  · rw [lane_skewBegins]
    exact send _ _ _ (lane_drawWord _ _) (fun _ => rfl) fun _ => rfl
  · exact send _ _ _ rfl (fun _ => rfl) fun _ => rfl

/-! ## Launches and receptions (R206, R208 to R210) -/

/-- The oldest queued verdict leaves the transmit queue (R206). -/
def Lane.dequeue (l : Lane) : Lane := { l with queue := l.queue.tail }

theorem laneVerdictLaunch_verdict (n : Fin 16) (x : Word × Nat) (l : List (Word × Nat)) : Completes (.laneVerdictLaunch n)
    (fun s => (s.lane n.val).st = .up ∧ (s.lane n.val).relock = false ∧ (s.lane n.val).service = [] ∧ (s.lane n.val).queue = x :: l)
    fun s t => (t.lane n.val).queue = l ∧ (t.lane n.val).st = .up ∧ t.fabric.flight = s.fabric.flight ∧
      (t.lane n.val).slot = freeSlot (max (s.lane n.val).slot ((x.2 + 2) / 2)) + 1 ∧
      (t.lane n.val).sent.head? = some (freeSlot (max (s.lane n.val).slot ((x.2 + 2) / 2)), (Block.verdict x.1).payload) := by
  rintro s ⟨hu, hr, hs, hq⟩
  have hx : execLaneVerdictLaunch n s = .next ((s.modLane n.val Lane.dequeue).sendBlock n.val
      (freeSlot (max (s.lane n.val).slot ((x.2 + 2) / 2))) (.verdict x.1)) := by
    simp [execLaneVerdictLaunch, hu, hr, hs, hq, launchSlots]; rfl
  obtain ⟨hk, hp, hst, hl, -⟩ := sendBlock_lane n (freeSlot (max (s.lane n.val).slot ((x.2 + 2) / 2))) (.verdict x.1)
    (s.modLane n.val Lane.dequeue)
  refine ⟨_, hx, hl.trans ?_, hst.trans ?_, sendBlock_flight _ _ _ _, hk, hp⟩
  · simp [Lane.dequeue, hq]
  · simp [Lane.dequeue, hu]

/-- With nothing to send, a lane fills the slot with the frame's check block or an idle block (R208, R209). -/
theorem laneVerdictLaunch_fills (n : Fin 16) : Completes (.laneVerdictLaunch n)
    (fun s => (s.lane n.val).st = .up ∧ (s.lane n.val).service = [] ∧ (s.lane n.val).queue = [] ∧
      (s.cnt s.now + 1) / 2 ≤ (s.lane n.val).slot)
    fun s t => (t.lane n.val).slot = (s.lane n.val).slot + 1 ∧ (t.lane n.val).sent.head? = some ((s.lane n.val).slot,
      (if (s.lane n.val).slot % 16 = 15 then (s.lane n.val).checkBlock ((s.lane n.val).slot / 16) else Block.idle).payload) := by
  rintro s ⟨hu, hs, hq, hn⟩
  have hx : execLaneVerdictLaunch n s = .next (s.sendBlock n.val (s.lane n.val).slot
      (if (s.lane n.val).slot % 16 = 15 then (s.lane n.val).checkBlock ((s.lane n.val).slot / 16) else .idle)) := by
    simp [execLaneVerdictLaunch, hu, hs, hq, Nat.max_eq_left hn, Lane.filler]
  obtain ⟨hk, hp, -⟩ := sendBlock_lane n (s.lane n.val).slot
    (if (s.lane n.val).slot % 16 = 15 then (s.lane n.val).checkBlock ((s.lane n.val).slot / 16) else .idle) s
  exact ⟨_, hx, hk, hp⟩

theorem laneVerdictLaunch_service (n : Fin 16) (x : Word × Nat) (l : List (Word × Nat)) : Completes (.laneVerdictLaunch n)
    (fun s => (s.lane n.val).st = .up ∧ (s.lane n.val).queue = [] ∧ (s.lane n.val).service = x :: l)
    fun _ t => (t.lane n.val).service = l ∧ (t.lane n.val).queue = [] := by
  rintro s ⟨hu, hq, hs⟩
  have hx : execLaneVerdictLaunch n s =
      .next (s.sendService n.val (freeSlot (max (s.lane n.val).slot ((s.cnt s.now + 1) / 2))) x.1 x.2) := by
    simp [execLaneVerdictLaunch, hu, hs, hq, launchSlots]
  obtain ⟨hs', hq'⟩ := sendService_lane n (freeSlot (max (s.lane n.val).slot ((s.cnt s.now + 1) / 2))) x.1 x.2 s
  exact ⟨_, hx, by simp [hs', hs], by simp [hq', hq]⟩

/-- A verdict received on a lane joins the frame, and is due at its consumers in tick `a` (R199, R210). -/
def State.receive (n : Fin 16) (packet : Word) (a : Nat) (s : State) : State :=
  let t := s.modLane n.val fun l => { l with frame := l.frame ++ [packet] }
  { t with fabric := { t.fabric with flight := t.fabric.flight ++ [⟨packet, a, .lane n⟩] } }

theorem receive_now (n : Fin 16) (packet : Word) (a : Nat) (s : State) : (s.receive n packet a).now = s.now := rfl

theorem receive_lane (n : Fin 16) (packet : Word) (a : Nat) (s : State) :
    (s.receive n packet a).lane n.val = { s.lane n.val with frame := (s.lane n.val).frame ++ [packet] } :=
  lane_modLane_same n (fun l => { l with frame := l.frame ++ [packet] }) s

theorem laneVerdictReceive_flies (n : Fin 16) (packet : Word) (launch : BitVec 64) : Completes (.laneVerdictReceive n packet launch)
    (fun s => (s.lane n.val).st = .up ∧ vSrc packet < 16 ∧ vSrc packet ≠ s.fabric.member ∧
      s.fabric.members.toNat.testBit (vSrc packet) = true ∧ s.now ≤ s.dev (launch.toNat + (s.lane n.val).ll))
    fun s t => t.now = s.dev (launch.toNat + (s.lane n.val).ll) ∧
      t.fabric.flight = s.fabric.flight ++ [⟨packet, t.now + 2, .lane n⟩] ∧
      (t.lane n.val).frame = (s.lane n.val).frame ++ [packet] ∧ (t.lane n.val).misdelivered = (s.lane n.val).misdelivered := by
  rintro s ⟨hu, h16, hm, hk, hn⟩
  have hx : execLaneVerdictReceive n packet launch s = .next ((s.runToCount (launch.toNat + (s.lane n.val).ll)).receive n packet
      (s.dev (launch.toNat + (s.lane n.val).ll) + 2)) := by
    simp [execLaneVerdictReceive, hu, hm, hk, Nat.not_le.2 h16, State.receive]
  have ht : (s.runToCount (launch.toNat + (s.lane n.val).ll)).now = s.dev (launch.toNat + (s.lane n.val).ll) := runToCount_now _ s hn
  refine ⟨_, hx, (receive_now n _ _ _).trans ht, ?_, ?_, ?_⟩
  · rw [receive_now, ht]
    rfl
  · simp [receive_lane]
  · simp [receive_lane]

theorem laneVerdictReceive_own (n : Fin 16) (packet : Word) (launch : BitVec 64) : Completes (.laneVerdictReceive n packet launch)
    (fun s => (s.lane n.val).st = .up ∧ vSrc packet = s.fabric.member)
    fun s t => t.fabric.flight = s.fabric.flight ∧ (t.lane n.val).misdelivered = satAdd 32 (s.lane n.val).misdelivered 1 := by
  rintro s ⟨hu, hm⟩
  have hx : execLaneVerdictReceive n packet launch s = .next ((s.runToCount (launch.toNat + (s.lane n.val).ll)).modLane n.val fun l =>
      { l with misdelivered := satAdd 32 l.misdelivered 1, frame := l.frame ++ [packet] }) := by
    simp [execLaneVerdictReceive, hu, hm]
  exact ⟨_, hx, by simp, by simp⟩

/-- A frame whose check block fails: its verdicts are gone from the lane, and the failure is counted (R210). -/
def Lane.badFrame (l : Lane) : Lane := { l with checkErrors := satAdd 32 l.checkErrors 1, badChecks := l.badChecks + 1, frame := [] }

/-- The check block of a frame is missing (R210). -/
theorem checkBlockReceive_missing (n : Fin 16) (l : Words) : Completes (.checkBlockReceive n l none) (fun s => (s.lane n.val).st = .up)
    fun s t => (t.lane n.val).checkErrors = satAdd 32 (s.lane n.val).checkErrors 1 ∧
      (t.lane n.val).badChecks = (s.lane n.val).badChecks + 1 ∧ (t.lane n.val).frame = [] ∧ (t.lane n.val).st = .up ∧
      bitAt t.trouble[3] (32 + n.val) = true := by
  intro s hu
  have hx : ∃ r : LedgerRec, execCheckBlockReceive n l none s =
      .next ((((((s.clearValid n (s.lane n.val).frame).modLane n.val Lane.badFrame).setTrouble 3 (32 + n.val)).note r).raise 6)) :=
    ⟨_, by simp [execCheckBlockReceive, hu]; rfl⟩
  obtain ⟨r, hx⟩ := hx
  refine ⟨_, hx, by simp [Lane.badFrame], by simp [Lane.badFrame], by simp [Lane.badFrame], by simp [Lane.badFrame, hu], ?_⟩
  exact raise_keeps 6 3 (32 + n.val) (note_keeps 3 (32 + n.val) (setTrouble_bit 3 (32 + n.val) _ (by omega)) r)

/-- The check block of a frame agrees, and its launch stamp is the first that the lane learns (R210, R212). -/
theorem checkBlockReceive_agrees (n : Fin 16) (l : Words) (x : BitVec 56) : Completes (.checkBlockReceive n l (some x))
    (fun s => (s.lane n.val).st = .up ∧ (s.lane n.val).waking = false ∧ (s.lane n.val).offset = none ∧ x.setWidth 32 = crcWords l)
    fun s t => (t.lane n.val).badChecks = 0 ∧ (t.lane n.val).badStamps = 0 ∧ (t.lane n.val).checkErrors = (s.lane n.val).checkErrors ∧
      t.seqs = s.seqs ∧ t.conc = s.conc := by
  rintro s ⟨hu, hw, ho, hc⟩
  have hx : ∃ k, execCheckBlockReceive n l (some x) s = .next (s.modLane n.val fun l =>
      { l with badChecks := 0, frame := [], badStamps := 0, offset := some (l.offset.getD k) }) :=
    ⟨_, by simp [execCheckBlockReceive, hu, hw, ho, hc]; rfl⟩
  obtain ⟨k, hx⟩ := hx
  exact ⟨_, hx, by simp, by simp, by simp, rfl, rfl⟩

/-! ## Service words (R45, R215, R216, R220, Table 8.5) -/

theorem serviceIdentity_compares (n : Fin 16) (cid : BitVec 32) (m k : Fin 16) : Completes (.serviceIdentity n cid m k)
    (fun s => (s.lane n.val).st = .identify)
    fun s t => (t.lane n.val).peer = m.val ∧ (t.lane n.val).peerLane = k.val ∧
      ((t.lane n.val).identOk = true ↔ cid = s.fabric.cid ∧ (s.lane n.val).ent.used = true ∧ (s.lane n.val).ent.peer = m.val) := by
  intro s h
  refine ⟨_, show execServiceIdentity n cid m k s = _ from if_pos h, by simp, by simp, ?_⟩
  simp [and_assoc]

theorem serviceMarker_echoes (n : Fin 16) (stamp : BitVec 36) (k : BitVec 16) : Completes (.serviceMarker n stamp k)
    (fun s => (s.lane n.val).locking = true)
    fun s t => (t.lane n.val).service = (s.lane n.val).service ++ [(put 63 60 3 ||| put 59 24 stamp.toNat, s.cnt s.now)] := by
  intro s h
  exact ⟨_, show execServiceMarker n stamp k s = _ from if_pos h, by simp⟩

theorem serviceEcho_measures (n : Fin 16) (stamp : BitVec 36) (turn : BitVec 16) : Completes (.serviceEcho n stamp turn)
    (fun s => (s.lane n.val).locking = true)
    fun s t => (t.lane n.val).pairs = (s.lane n.val).pairs + 1 ∧
      (t.lane n.val).nlat = ((s.cnt s.now % 2 ^ 36 + 2 ^ 36 - stamp.toNat) % 2 ^ 36 - turn.toNat + 1) / 2 := by
  intro s h
  exact ⟨_, show execServiceEcho n stamp turn s = _ from if_pos h, by simp, by simp⟩

/-- The oldest SKEW_CAL of which a test holds is open. -/
theorem skewWith_mem {s : State} {m : Nat} {f : OpenCmd → Bool} {o : OpenCmd} (h : s.skewWith m f = some o) : o ∈ s.host.open_ :=
  List.mem_of_find?_eq_some h

/-- An open command whose kept words are replaced is open with the new ones. -/
theorem setData_mem {s : State} {o : OpenCmd} (h : o ∈ s.host.open_) (d : Words) : { o with data := d } ∈ (s.setData o d).host.open_ := by
  refine List.mem_map.2 ⟨o, h, ?_⟩
  rw [if_pos rfl]

/-- The peer's answer to a time-stamp block: the exchange gives an offset (R45). -/
theorem serviceSkew_answers (n : Fin 16) (stamp : BitVec 42) (peer : Fin 1000) (t2 : BitVec 63) (phase : Fin 1000) (t1 : Nat) (o : OpenCmd) :
    Completes (.serviceSkew n stamp peer t2 phase)
    (fun s => (s.lane n.val).st = .up ∧ (s.lane n.val).relock = false ∧ (s.lane n.val).skewAt = some t1 ∧ s.skewOver n.val = some o)
    fun s t => (t.lane n.val).skewAt = none ∧ ∃ o' ∈ t.host.open_, o'.packet = o.packet ∧
      o'.data = o.data ++ [BitVec.ofInt 64 (skewOffset t1 t2.toNat stamp peer.val (s.cnt s.now) phase.val)] := by
  rintro s ⟨hu, hr, ha, ho⟩
  have hx : ∃ f : Lane → Lane, (∀ l, (f l).skewAt = none) ∧ execServiceSkew n stamp peer t2 phase s = .next ((s.setData o
      (o.data ++ [BitVec.ofInt 64 (skewOffset t1 t2.toNat stamp peer.val (s.cnt s.now) phase.val)])).modLane n.val f) := by
    refine ⟨_, fun l => ?_, by simp only [execServiceSkew, hu, hr, ha, ho, ne_eq, not_true_eq_false, Bool.false_eq_true, or_self, if_false]; rfl⟩
    split <;> rfl
  obtain ⟨f, hf, hx⟩ := hx
  exact ⟨_, hx, by rw [lane_modLane_same]; exact hf _, _, setData_mem (skewWith_mem ho) _, rfl, rfl⟩

/-- The peer asks, and a block of this device is the answer (R45). -/
theorem serviceSkew_asked (n : Fin 16) (stamp : BitVec 42) (peer : Fin 1000) (t2 : BitVec 63) (phase : Fin 1000) :
    Completes (.serviceSkew n stamp peer t2 phase)
    (fun s => (s.lane n.val).st = .up ∧ (s.lane n.val).relock = false ∧ (s.lane n.val).skewAt = none)
    fun s t => (t.lane n.val).service = ((s.lane n.val).askSkew (s.cnt s.now)).service ∧ t.host = s.host := by
  rintro s ⟨hu, hr, ha⟩
  have hx : execServiceSkew n stamp peer t2 phase s = .next (s.modLane n.val (Lane.askSkew (s.cnt s.now))) := by
    simp [execServiceSkew, hu, hr, ha]
  exact ⟨_, hx, by rw [lane_modLane_same], rfl⟩

theorem testreq_accepts (n : Fin 16) (ms : BitVec 20) : Completes (.testreq n ms) (fun s => (s.lane n.val).st = .up ∧ s.carries n.val = false)
    fun s t => (t.lane n.val).st = .test ∧ (t.lane n.val).testLen = ms.toNat * 1000000 ∧
      (t.lane n.val).service = (s.lane n.val).service ++ [(put 63 60 6, s.cnt s.now)] := by
  rintro s ⟨hu, hc⟩
  obtain ⟨hst, hlen, -, hs⟩ := testStart_lane n ms.toNat s
  have hx : execTestreq n ms s = .next ((s.testStart n.val ms.toNat).modLane n.val fun l =>
      { l with service := l.service ++ [(put 63 60 6, s.cnt s.now)] }) := by
    simp [execTestreq, hu, hc]
  exact ⟨_, hx, by simp [hst], by simp [hlen], by simp [hs]⟩

theorem testreq_refuses (n : Fin 16) (ms : BitVec 20) : Completes (.testreq n ms) (fun s => (s.lane n.val).st = .up ∧ s.carries n.val = true)
    fun s t => (t.lane n.val).st = .up ∧ (t.lane n.val).service = (s.lane n.val).service ++ [(put 63 60 7, s.cnt s.now)] := by
  rintro s ⟨hu, hc⟩
  have hx : execTestreq n ms s = .next (s.modLane n.val fun l => { l with service := l.service ++ [(put 63 60 7, s.cnt s.now)] }) := by
    simp [execTestreq, hu, hc]
  exact ⟨_, hx, by simp [hu], by simp⟩

theorem testack_begins (n : Fin 16) : Completes (.testack n) (fun s => (s.lane n.val).testAsked = true)
    fun s t => (t.lane n.val).st = .test ∧ (t.lane n.val).testAsked = false ∧ (t.lane n.val).testAt = s.now := by
  intro s h
  obtain ⟨hst, -, hat, -⟩ := testStart_lane n (s.askedMs n.val) s
  refine ⟨_, show execTestack n s = _ from if_pos h, ?_⟩
  dsimp only
  rw [testAnswer_lane]
  exact ⟨hst, rfl, hat⟩

theorem testrefuse_ends (n : Fin 16) : Completes (.testrefuse n) (fun s => (s.lane n.val).testAsked = true)
    fun s t => (t.lane n.val).tstate = 3 ∧ (t.lane n.val).testAsked = false ∧ (t.lane n.val).st = (s.lane n.val).st := by
  intro s h
  refine ⟨_, show execTestrefuse n s = _ from if_pos h, ?_⟩
  dsimp only
  rw [testAnswer_lane, lane_modLane_same]
  exact ⟨rfl, rfl, rfl⟩

/-- Settles O42: a block or service word changes its own lane, and what it reports or completes leaves every lane as it is. -/
theorem laneWordsComplete : Obligations.LaneWordsComplete :=
  ⟨laneVerdictLaunch_verdict, laneVerdictLaunch_fills, laneVerdictLaunch_service, laneVerdictReceive_flies, laneVerdictReceive_own,
    checkBlockReceive_missing, checkBlockReceive_agrees, serviceIdentity_compares, serviceMarker_echoes, serviceEcho_measures,
    serviceSkew_answers, serviceSkew_asked, testreq_accepts, testreq_refuses, testack_begins, testrefuse_ends⟩

end Sys2Proof.Machine
end

section
/-!
PROOFS. What the operations of the drive synthesis do to an output: the forming of samples, ramps, mutes and releases (R112, R118 to
R123).
-/
namespace Sys2Proof.Machine

/-! ## One output changes -/

@[simp] theorem out_modOut_same (o : Nat) (f : Output → Output) (s : State) (h : o < 96) : (s.modOut o f).out o = f (s.out o) := by
  simp [State.out, State.modOut, h]

@[simp] theorem out_modOut_ne {o j : Nat} (f : Output → Output) (s : State) (h : j ≠ o) : (s.modOut o f).out j = s.out j := by
  simp [State.out, State.modOut, atN_updN_ne _ _ _ _ _ h.symm]

/-! ## Samples -/

/-- An output but for what its samples have come to, its ramp, and the tick of its last mute. -/
def Output.bare (x : Output) : Output :=
  { x with code := 0, constFrom := 0, clips := 0, clipDue := false, heardTo := 0, ramping := none, muteTick := 0 }

/-- More samples of an output change what its samples have come to, and nothing else of it. -/
theorem foldl_hears_bare (l : List Nat) (g : Nat → Nat) (c : Nat → Int × Bool) (x : Output) :
    (l.foldl (fun y i => y.hears (g i) (c i)) x).bare = x.bare := by
  induction l generalizing x with
  | nil => rfl
  | cons i l ih => exact (ih _).trans rfl

theorem bare_heardTo (n : Nat) (x : Output) : ({ x with heardTo := n } : Output).bare = x.bare := rfl

/-- A change of one output that keeps what `Output.bare` shows of it keeps it of every output. -/
theorem modOut_bare (o j : Nat) (f : Output → Output) (hf : ∀ x, (f x).bare = x.bare) (s : State) :
    ((s.modOut o f).out j).bare = (s.out j).bare := by
  simp only [State.out, State.modOut, atN_updN]
  split
  · exact hf _
  · rfl

theorem hear_bare (n o j : Nat) (s : State) : ((s.hear n o).out j).bare = (s.out j).bare := by
  unfold State.hear; dsimp only
  split
  · rfl
  split
  · exact modOut_bare o j _ (fun x => (bare_heardTo n _).trans (foldl_hears_bare _ _ _ x)) s
  · refine modOut_bare o j _ (fun x => ?_) s
    rfl

theorem hearCluster_bare (t k j : Nat) (s : State) : ((s.hearCluster t k).out j).bare = (s.out j).bare :=
  foldl_keeps (fun s => (s.out j).bare) _ (fun s o => hear_bare (16 * t) o j s) _ s

@[simp] theorem hearCluster_cmdMute (t k j : Nat) (s : State) : ((s.hearCluster t k).out j).cmdMute = (s.out j).cmdMute :=
  (congrArg Output.cmdMute (hearCluster_bare t k j s) :)

@[simp] theorem hearCluster_core (t k j : Nat) (s : State) : ((s.hearCluster t k).out j).core = (s.out j).core :=
  (congrArg Output.core (hearCluster_bare t k j s) :)

@[simp] theorem hear_dacSpare (n o k : Nat) (s : State) : (s.hear n o).dacSpare k = s.dacSpare k := by
  unfold State.hear; dsimp only
  split
  · rfl
  · split <;> rfl

@[simp] theorem hearCluster_dacSpare (t k j : Nat) (s : State) : (s.hearCluster t k).dacSpare j = s.dacSpare j :=
  foldl_keeps (·.dacSpare j) _ (fun s o => hear_dacSpare (16 * t) o j s) _ s

@[simp] theorem hearCluster_now (t k : Nat) (s : State) : (s.hearCluster t k).now = s.now := State.now_congr (by simp)

/-! ## The command state and the Desk do not reach the samples -/

section
variable (h : HostIf) (d : DeskState) (s : State)

theorem slotOf_desk (b : Binding) : ({ s with host := h, desk := d } : State).slotOf b = s.slotOf b := slotOf_congr rfl b

theorem out_desk (o : Nat) : ({ s with host := h, desk := d } : State).out o = s.out o := rfl

theorem outTrim_desk (o : Nat) : ({ s with host := h, desk := d } : State).outTrim o = s.outTrim o := rfl

theorem moving_desk (o n : Nat) : ({ s with host := h, desk := d } : State).moving o n = s.moving o n := rfl

theorem slotSignal_desk (b : Binding) (n : Nat) : ({ s with host := h, desk := d } : State).slotSignal b n = s.slotSignal b n := by
  unfold State.slotSignal
  simp only [slotOf_desk, outTrim_desk]
  rfl

theorem contribution_desk (b : Binding) (n : Nat) :
    ({ s with host := h, desk := d } : State).contribution b n = s.contribution b n := by
  unfold State.contribution
  simp only [slotOf_desk, slotSignal_desk]
  rfl

theorem codeAt_desk (o n : Nat) : ({ s with host := h, desk := d } : State).codeAt o n = s.codeAt o n := by
  unfold State.codeAt
  simp only [contribution_desk]
  rfl

theorem hear_desk (n o : Nat) : ({ s with host := h, desk := d } : State).hear n o = { s.hear n o with host := h, desk := d } := by
  unfold State.hear; dsimp only
  simp only [out_desk, moving_desk, codeAt_desk]
  split
  · rfl
  · split <;> rfl

theorem hearCluster_desk (t k : Nat) :
    ({ s with host := h, desk := d } : State).hearCluster t k = { s.hearCluster t k with host := h, desk := d } := by
  unfold State.hearCluster
  induction clusterOuts k generalizing s with
  | nil => rfl
  | cons o l ih => rw [List.foldl_cons, List.foldl_cons, hear_desk, ih]

end

/-- The Desk forms an effect with the outputs as the packet found them. -/
@[simp] theorem entry_hearCluster_out (c : Command) (p : Packet) (t k o : Nat) (s : State) :
    ((c.entry p s).hearCluster t k).out o = (s.hearCluster t k).out o := by
  obtain ⟨h, d, e⟩ : ∃ h d, c.entry p s = { s with host := h, desk := d } := ⟨_, _, rfl⟩
  rw [e, hearCluster_desk]
  rfl

@[simp] theorem entry_out (c : Command) (p : Packet) (o : Nat) (s : State) : (c.entry p s).out o = s.out o := out_congr (by simp) o

/-! ## Mutes and releases -/

theorem release_bare (was : Bool) (now : Nat) (x : Output) : (x.release was now).bare = x.bare := by
  unfold Output.release
  split
  · rfl
  · split <;> rfl

/-- A change of the mute causes of an output changes no more of it than its ramp and the tick of its mute. -/
theorem muteBy_bare (o : Nat) (f : Output → Output) (s : State) (h : o < 96) : ((s.muteBy o f).out o).bare = (f (s.out o)).bare := by
  unfold State.muteBy
  rw [out_modOut_same _ _ _ h]
  dsimp only
  split
  · rfl
  · exact release_bare _ _ _

/-- The fault mute of an output is set or released (R123, R126). -/
theorem muting_faultMute (o : Nat) (b : Bool) (s : State) (h : o < 96) :
    ((s.muting o fun x => { x with faultMute := b }).out o).bare = ({ s.out o with faultMute := b } : Output).bare :=
  (muteBy_bare o _ _ h).trans
    (congrArg (fun x : Output => { x with faultMute := b }) (hearCluster_bare s.now (outCluster o) o s) :)

end Sys2Proof.Machine
end

section
/-!
PROOFS. What the commands of the drive synthesis do (group 0x04, Tables 4.8 to 4.12).
-/
namespace Sys2Proof.Machine

/-- The synthesis after a packet is that of its effect. -/
theorem commit_synth (s0 : State) (f : Fetched) (a : BitVec 32) (e : Effect) : (State.commit s0 f a e).synth = e.st.synth := by simp

/-- The synthesis where the Desk forms an effect. -/
theorem entry_synth (c : Command) (p : Packet) (s : State) : (c.entry p s).synth = s.synth := by simp

theorem commit_out (s0 : State) (f : Fetched) (a : BitVec 32) (e : Effect) (o : Nat) : (State.commit s0 f a e).out o = e.st.out o :=
  out_congr (commit_synth s0 f a e) o

theorem commit_slotOf (s0 : State) (f : Fetched) (a : BitVec 32) (e : Effect) (b : Binding) :
    (State.commit s0 f a e).slotOf b = e.st.slotOf b := slotOf_congr (commit_synth s0 f a e) b

@[simp] theorem entry_slotOf (c : Command) (p : Packet) (s : State) (b : Binding) : (c.entry p s).slotOf b = s.slotOf b :=
  slotOf_congr (by simp) b

/-! ## TONE_CONFIG (Table 4.9) -/

/-- TONE_CONFIG applies its records in payload order. -/
theorem toneConfig_st (p : Packet) (s : State) : (toneConfigCmd.eff s p).st = (toneList p).foldl State.toneApply s := rfl

/-- TONE_CONFIG with one record. -/
theorem toneConfig_one {p : Packet} {r : ToneRec} (h : toneList p = [r]) (s : State) : (toneConfigCmd.eff s p).st = s.toneApply r := by
  rw [toneConfig_st, h]; rfl

/-- A record of a slot writes the shadow copy of that slot. -/
theorem toneApply_slot_same {b : Binding} (hb : b.isTone = true) (o : Nat) (x : SlotSet) (s : State) :
    (s.toneApply (.slot b o x)).slotOf b = { s.slotOf b with shadow := x } := slotOf_modSlot_same b _ s hb

/-- A record of a drive slot leaves the other drive slots alone. -/
theorem toneApply_drive_ne {i j : Fin 512} (h : j ≠ i) (o : Nat) (x : SlotSet) (s : State) :
    (s.toneApply (.slot (.drive i) o x)).slotOf (.drive j) = s.slotOf (.drive j) := by
  simp [State.toneApply, State.modSlot, State.slotOf, getElem_upd, Ne.symm h]

/-- A record of an output writes the shadow copy of its gain. -/
theorem toneApply_output_same {o : Nat} (ho : o < 96) (g : GainSet) (s : State) :
    (s.toneApply (.output o g)).out o = { s.out o with shadow := g } := out_modOut_same o _ s ho

theorem toneConfig_answers (p : Packet) : Answers (.toneConfig p) toneConfigCmd p fun s t =>
    (∀ i o x, toneList p = [.slot (.drive i) o x] →
      (t.slotOf (.drive i)).shadow = x ∧ (t.slotOf (.drive i)).active = (s.slotOf (.drive i)).active ∧
        ∀ j, j ≠ i → t.slotOf (.drive j) = s.slotOf (.drive j)) ∧
    (∀ i o x, toneList p = [.slot (.probe i) o x] →
      (t.slotOf (.probe i)).shadow = x ∧ (t.slotOf (.probe i)).active = (s.slotOf (.probe i)).active ∧ t.synth.drive = s.synth.drive) ∧
    (∀ o g, toneList p = [.output o g] → o < 96 → (t.out o).shadow = g ∧ (t.out o).active = (s.out o).active ∧
      t.synth.drive = s.synth.drive ∧ t.synth.probe = s.synth.probe) := by
  refine answers_of (fun _ => rfl) fun s _ => ⟨by simp [toneConfig_st], fun i o x h => ?_, fun i o x h => ?_, fun o g h ho => ?_⟩
  · simp only [commit_slotOf, toneConfig_one h]
    rw [toneApply_slot_same rfl, entry_slotOf]
    exact ⟨rfl, rfl, fun j hj => (toneApply_drive_ne hj o x _).trans (entry_slotOf _ p s _)⟩
  · rw [commit_slotOf, commit_synth, toneConfig_one h, toneApply_slot_same rfl, entry_slotOf]
    exact ⟨rfl, rfl, by simp [State.toneApply, State.modSlot]⟩
  · rw [commit_out, commit_synth, toneConfig_one h, toneApply_output_same ho, entry_out]
    exact ⟨rfl, rfl, by simp [State.toneApply, State.modOut], by simp [State.toneApply, State.modOut]⟩

/-! ## XTALK_MATRIX (Table 4.10) -/

/-- XTALK_MATRIX writes its segments into the matrix of its cluster (R115). -/
theorem xtalkMatrix_st (p : Packet) (s : State) : (xtalkMatrixCmd.eff s p).st = { s with synth := { s.synth with
    xtalk := updN s.synth.xtalk (fld (wordAt p.payload 0) 63 61) fun _ => (xtalkList p).1.foldl
      (fun m g => Sparse.setList 0 m (128 * g.target + g.first) g.entries) (atN s.synth.xtalk (fld (wordAt p.payload 0) 63 61) []) } } :=
  rfl

theorem xtalkMatrix_answers (p : Packet) : Answers (.xtalkMatrix p) xtalkMatrixCmd p fun s t =>
    let k := fld (wordAt p.payload 0) 63 61
    atN t.synth.xtalk k [] = (xtalkList p).1.foldl (fun m g => Sparse.setList 0 m (128 * g.target + g.first) g.entries)
        (atN s.synth.xtalk k []) ∧
      ∀ j, j ≠ k → atN t.synth.xtalk j [] = atN s.synth.xtalk j [] := by
  have hk : fld (wordAt p.payload 0) 63 61 < 8 := fld_lt _ 63 61
  refine answers_of (fun _ => rfl) fun s _ => ⟨by simp [xtalkMatrix_st], ?_, fun j hj => ?_⟩
  · rw [commit_synth, xtalkMatrix_st, atN_updN_same _ _ _ _ hk, entry_synth]
  · rw [commit_synth, xtalkMatrix_st, atN_updN_ne _ _ _ _ _ hj.symm]
    simp

/-! ## OUTPUT_ENABLE (Tables 4.11 and 4.12) -/

/-- The core as a mute finds it: a power-up that the mute cancels counts as done (R121). -/
def Output.powered (x : Output) : Output :=
  match x.core with
  | .powering _ => { x with core := .on }
  | _ => x

/-- The ramp down of a mute in tick `a`, from the gain that the output has reached (R119). -/
def Output.fallRamp (a : Nat) (x : Output) : Option Ramp :=
  if x.muted || x.ramp == 0 then none else
    some { at_ := a, len := x.ramp, up := false, num := (match x.ramping with
        | some y => y.level a
        | none => (1, 1)).1, den := (match x.ramping with
        | some y => y.level a
        | none => (1, 1)).2 }

/-- The command mute in tick `a` (R119). -/
def Output.fall (a : Nat) (tick : BitVec 64) (x : Output) : Output :=
  if x.cmdMute then x else { (if x.muted then x else x.stamp tick) with cmdMute := true, ramping := x.fallRamp a }

/-- A mute, step by step: the core, the command mute, and the power-down of an output that goes off (R119, R121). -/
theorem mute_eq (a : Nat) (off : Bool) (tick : BitVec 64) (x : Output) : x.mute a off tick =
    if off = true ∧ (x.powered.fall a tick).core = .on then
      { x.powered.fall a tick with core := .dropping (match (x.powered.fall a tick).ramping with
        | some y => y.at_ + y.len
        | none => a) }
    else x.powered.fall a tick := rfl

theorem powered_ramp (x : Output) : x.powered.ramp = x.ramp ∧ x.powered.tripLatch = x.tripLatch := by
  unfold Output.powered
  split <;> exact ⟨rfl, rfl⟩

theorem powered_on {x : Output} (h : x.core = .on) : x.powered = x := by simp [Output.powered, h]

theorem fall_bare (a : Nat) (tick : BitVec 64) (x : Output) : (x.fall a tick).bare = ({ x with cmdMute := true } : Output).bare := by
  unfold Output.fall
  split
  next h => rw [← h]
  next =>
    split
    · rfl
    · rfl
/-- A mute sets the command mute, and touches no setting (R119). -/
theorem mute_sets (a : Nat) (off : Bool) (tick : BitVec 64) (x : Output) :
    (x.mute a off tick).cmdMute = true ∧ (x.mute a off tick).ramp = x.ramp ∧ (x.mute a off tick).tripLatch = x.tripLatch := by
  have hb := fall_bare a tick x.powered
  obtain ⟨hr, hl⟩ := powered_ramp x
  rw [← hr, ← hl, mute_eq]
  split <;> exact ⟨(congrArg Output.cmdMute hb :), (congrArg Output.ramp hb :), (congrArg Output.tripLatch hb :)⟩

/-- A mute that goes off powers down a core that is on (R121). -/
theorem mute_off_drops (a : Nat) (tick : BitVec 64) (x : Output) (h : x.core = .on) : ∃ n, (x.mute a true tick).core = .dropping n := by
  have hc : (x.powered.fall a tick).core = .on := by
    rw [powered_on h, ← h]
    exact (congrArg Output.core (fall_bare a tick x) :)
  rw [mute_eq, if_pos ⟨rfl, hc⟩]
  exact ⟨_, rfl⟩

@[simp] theorem release_cmdMute (was : Bool) (now : Nat) (x : Output) : (x.release was now).cmdMute = x.cmdMute :=
  (congrArg Output.cmdMute (release_bare was now x) :)

@[simp] theorem release_core (was : Bool) (now : Nat) (x : Output) : (x.release was now).core = x.core :=
  (congrArg Output.core (release_bare was now x) :)

/-- An enable releases a latched trip mute and takes the mode, and touches no setting (R122). -/
theorem enable_sets (a : Nat) (bb : Bool) (x : Output) : (x.enable a bb).latched = false ∧ (x.enable a bb).baseband = bb ∧
    (x.enable a bb).ramp = x.ramp ∧ (x.enable a bb).tripLatch = x.tripLatch := by
  unfold Output.enable; dsimp only
  split
  · have hb := release_bare x.muted a { x with latched := false, baseband := bb, cmdMute := false }
    exact ⟨(congrArg Output.latched hb :), (congrArg Output.baseband hb :), (congrArg Output.ramp hb :),
      (congrArg Output.tripLatch hb :)⟩
  · exact ⟨rfl, rfl, rfl, rfl⟩
  · exact ⟨rfl, rfl, rfl, rfl⟩

/-- An enable of a core that is on clears the command mute (R119). -/
theorem enable_on (a : Nat) (bb : Bool) (x : Output) (h : x.core = .on) : (x.enable a bb).cmdMute = false := by
  simp [Output.enable, h]

/-- An enable of a core that is off powers it up (R120). -/
theorem enable_off (a : Nat) (bb : Bool) (x : Output) (h : x.core = .off) : (x.enable a bb).core = .powering a := by
  simp [Output.enable, h]

/-- What a record of OUTPUT_ENABLE makes of its output: RAMP and TRIPLATCH first, then the action (Table 4.11). -/
def OutRecd.act (r : OutRecd) (a : Nat) (tick : BitVec 64) (free : Bool) (x : Output) : Output :=
  let x := { x with ramp := r.ramp, tripLatch := r.latch }
  match r.action with
  | 0 => x.mute a false tick
  | 1 => (if free then { x with active := x.shadow } else x).enable a r.baseband
  | 2 => x.mute a true tick
  | _ => x

@[simp] theorem hearCluster_tick (n k : Nat) (s : State) : (s.hearCluster n k).tick = s.tick := by simp [State.tick]

@[simp] theorem hearCluster_outUnbound (n k o : Nat) (s : State) : (s.hearCluster n k).outUnbound o = s.outUnbound o := by
  simp [State.outUnbound]

@[simp] theorem modOut_tick (o : Nat) (f : Output → Output) (s : State) : (s.modOut o f).tick = s.tick := rfl

@[simp] theorem modOut_outUnbound (o j : Nat) (f : Output → Output) (s : State) : (s.modOut o f).outUnbound j = s.outUnbound j := rfl

/-- A record reaches its output once the samples up to now are formed. -/
theorem outAct_out_same (r : OutRecd) (s : State) (h : r.o < 96) : (s.outAct r).out r.o =
    r.act s.now s.tick (s.outUnbound r.o) ((s.hearCluster s.now (outCluster r.o)).out r.o) := by
  obtain ⟨o, _ | _ | _ | action, baseband, latch, ramp⟩ := r <;>
    simp only [State.outAct, OutRecd.act, out_modOut_same _ _ _ h, modOut_tick, hearCluster_tick, modOut_outUnbound,
      hearCluster_outUnbound]

/-- A record leaves the other outputs alone, but for the samples of its cluster. -/
theorem outAct_out_ne (r : OutRecd) (s : State) {o : Nat} (h : o ≠ r.o) :
    (s.outAct r).out o = (s.hearCluster s.now (outCluster r.o)).out o := by
  unfold State.outAct; dsimp only
  split <;> simp [h]

/-- What a record makes of its output, by the action that it names (Table 4.11). -/
theorem act_sets (r : OutRecd) (a : Nat) (tick : BitVec 64) (free : Bool) (x : Output) :
    (r.act a tick free x).ramp = r.ramp ∧ (r.act a tick free x).tripLatch = r.latch := by
  unfold OutRecd.act; dsimp only
  split
  · exact (mute_sets a false tick _).2
  · obtain ⟨-, -, hr, hl⟩ := enable_sets a r.baseband (if free then
      { x with ramp := r.ramp, tripLatch := r.latch, active := x.shadow } else { x with ramp := r.ramp, tripLatch := r.latch })
    exact ⟨hr.trans (by cases free <;> rfl), hl.trans (by cases free <;> rfl)⟩
  · exact (mute_sets a true tick _).2
  · exact ⟨rfl, rfl⟩

theorem act_mutes (r : OutRecd) (a : Nat) (tick : BitVec 64) (free : Bool) (x : Output) (h : r.action = 0) :
    (r.act a tick free x).cmdMute = true := by
  simp only [OutRecd.act, h, mute_sets]

theorem act_enables (r : OutRecd) (a : Nat) (tick : BitVec 64) (free : Bool) (x : Output) (h : r.action = 1) :
    (r.act a tick free x).latched = false ∧ (r.act a tick free x).baseband = r.baseband ∧
      (x.core = .on → (r.act a tick free x).cmdMute = false) ∧ (x.core = .off → (r.act a tick free x).core = .powering a) := by
  simp only [OutRecd.act, h]
  refine ⟨(enable_sets _ _ _).1, (enable_sets _ _ _).2.1, fun hc => enable_on _ _ _ ?_, fun hc => enable_off _ _ _ ?_⟩
  · cases free <;> exact hc
  · cases free <;> exact hc

theorem act_goes_off (r : OutRecd) (a : Nat) (tick : BitVec 64) (free : Bool) (x : Output) (h : r.action = 2) :
    (r.act a tick free x).cmdMute = true ∧ (x.core = .on → ∃ n, (r.act a tick free x).core = .dropping n) := by
  simp only [OutRecd.act, h]
  exact ⟨(mute_sets _ _ _ _).1, fun hc => mute_off_drops _ _ _ hc⟩

/-- OUTPUT_ENABLE applies its records in payload order, and replies a word for each (Table 4.12). -/
theorem outputEnable_eff (p : Packet) (s : State) :
    (outputEnableCmd.eff s p).st = (outList p).foldl (fun s r => s.outAct r) s ∧ (outputEnableCmd.eff s p).status = 0 ∧
    (outputEnableCmd.eff s p).later = false ∧ (outputEnableCmd.eff s p).long = false ∧
    (outputEnableCmd.eff s p).reply = some ((outList p).map fun r => (outputEnableCmd.eff s p).st.outWord r.o) :=
  ⟨rfl, rfl, rfl, rfl, rfl⟩

/-- OUTPUT_ENABLE leaves the command state alone. -/
theorem outputEnable_host (p : Packet) (s : State) : (outputEnableCmd.eff s p).st.host = s.host := by
  rw [(outputEnable_eff p s).1]
  exact foldl_host _ (fun s r => by simp) _ s

/-- OUTPUT_ENABLE with one record. -/
theorem outputEnable_one {p : Packet} {r : OutRecd} (h : outList p = [r]) (s : State) : (outputEnableCmd.eff s p).st = s.outAct r := by
  rw [(outputEnable_eff p s).1, h]; rfl

/-- A reply word is read from the synthesis and the hold lists. -/
theorem outWord_congr {s t : State} (h : t.synth = s.synth) (hh : t.host.held = s.host.held) (o : Nat) : t.outWord o = s.outWord o := by
  unfold State.outWord State.outHeld State.dacFree State.dacSpare
  rw [out_congr h, h, hh]

/-- The reply word of an output after a packet is that of its effect. -/
theorem commit_outWord (s0 : State) (f : Fetched) (a : BitVec 32) (e : Effect) (o : Nat) :
    (State.commit s0 f a e).outWord o = e.st.outWord o := outWord_congr (by simp) (by simp) o

theorem outputEnable_answers (p : Packet) : Answers (.outputEnable p) outputEnableCmd p fun s t => ∀ r, outList p = [r] → r.o < 96 →
    (t.out r.o).ramp = r.ramp ∧ (t.out r.o).tripLatch = r.latch ∧ (∀ o, o ≠ r.o → t.out o = (s.hearCluster s.now (outCluster r.o)).out o) ∧
    (r.action = 0 → (t.out r.o).cmdMute = true) ∧
    (r.action = 1 → (t.out r.o).latched = false ∧ (t.out r.o).baseband = r.baseband ∧
      ((s.out r.o).core = .on → (t.out r.o).cmdMute = false) ∧ ((s.out r.o).core = .off → (t.out r.o).core = .powering s.now)) ∧
    (r.action = 2 → (t.out r.o).cmdMute = true ∧ ((s.out r.o).core = .on → ∃ n, (t.out r.o).core = .dropping n)) ∧
    Posted p (s.host.accept + 1) 0 (some [t.outWord r.o]) t := by
  refine answers_of (fun _ => rfl) fun s h => ⟨by simp [outputEnable_host], fun r hr ho => ?_⟩
  obtain ⟨-, h0, hl, hg, hw⟩ := outputEnable_eff p (outputEnableCmd.entry p s)
  have hp := ready_posted h hl hg (by simp [outputEnable_host]) (by simp [outputEnable_host])
  rw [h0, hw, hr, List.map_singleton] at hp
  have hc := hearCluster_core s.now (outCluster r.o) r.o s
  have hsame := outAct_out_same r (outputEnableCmd.entry p s) ho
  rw [entry_hearCluster_out, entry_now] at hsame
  rw [commit_outWord, ← hc]
  simp only [commit_out, outputEnable_one hr] at hp ⊢
  rw [hsame]
  obtain ⟨hra, hla⟩ := act_sets r s.now (outputEnableCmd.entry p s).tick ((outputEnableCmd.entry p s).outUnbound r.o)
    ((s.hearCluster s.now (outCluster r.o)).out r.o)
  refine ⟨hra, hla, fun o hne => ?_, act_mutes _ _ _ _ _, act_enables _ _ _ _ _, act_goes_off _ _ _ _ _, hp⟩
  rw [outAct_out_ne r _ hne, entry_hearCluster_out, entry_now]

/-- Settles O28: the committed state has the synthesis of the effect, record by record, and the reply is read from it. -/
theorem synthesisCommandsComplete : Obligations.SynthesisCommandsComplete :=
  ⟨toneConfig_answers, xtalkMatrix_answers, outputEnable_answers⟩

end Sys2Proof.Machine
end

section
/-!
PROOFS. What the events of the drive synthesis do: ramps, the settling of a core, and the spare DAC core of a cluster (R119 to R121, R125
to R128).
-/
namespace Sys2Proof.Machine

/-! ## Clusters, dies and spares -/

theorem outCluster_lt (o : Fin 96) : outCluster o.val < 8 := by
  have := o.isLt
  unfold outCluster
  split <;> omega

@[simp] theorem dacSpare_setDacSpare (k : Nat) (u : SpareUse) (s : State) (h : k < 8) : (s.setDacSpare k u).dacSpare k = u := by
  simp [State.dacSpare, State.setDacSpare, h]

/-- The use of a spare is read from the synthesis alone. -/
theorem dacSpare_congr {s t : State} (h : t.synth = s.synth) (k : Nat) : t.dacSpare k = s.dacSpare k := by simp [State.dacSpare, h]

@[simp] theorem dacSpare_modOut (o k : Nat) (f : Output → Output) (s : State) : (s.modOut o f).dacSpare k = s.dacSpare k := rfl

@[simp] theorem dacSpare_modCal (d k : Nat) (f : CalDie → CalDie) (s : State) : (s.modCal d f).dacSpare k = s.dacSpare k := rfl

@[simp] theorem out_setDacSpare (k o : Nat) (u : SpareUse) (s : State) : (s.setDacSpare k u).out o = s.out o := rfl

@[simp] theorem out_runTo (n o : Nat) (s : State) : (s.runTo n).out o = s.out o := rfl

@[simp] theorem dacSpare_runTo (n k : Nat) (s : State) : (s.runTo n).dacSpare k = s.dacSpare k := rfl

@[simp] theorem modOut_now (o : Nat) (f : Output → Output) (s : State) : (s.modOut o f).now = s.now := rfl

@[simp] theorem setDacSpare_now (k : Nat) (u : SpareUse) (s : State) : (s.setDacSpare k u).now = s.now := rfl

@[simp] theorem muting_now (o : Nat) (f : Output → Output) (s : State) : (s.muting o f).now = s.now := State.now_congr (by simp)

@[simp] theorem muting_dacSpare (o k : Nat) (f : Output → Output) (s : State) : (s.muting o f).dacSpare k = s.dacSpare k :=
  hearCluster_dacSpare s.now (outCluster o) k s

@[simp] theorem note_now (r : LedgerRec) (s : State) : (s.note r).now = s.now := State.now_congr (by simp)

@[simp] theorem note_dacSpare (r : LedgerRec) (k : Nat) (s : State) : (s.note r).dacSpare k = s.dacSpare k := dacSpare_congr (by simp) k

@[simp] theorem out_note (r : LedgerRec) (o : Nat) (s : State) : (s.note r).out o = s.out o := out_congr (by simp) o

@[simp] theorem raiseOut_now (v o : Nat) (s : State) : (s.raiseOut v o).now = s.now := State.now_congr (by simp)

@[simp] theorem raiseOut_dacSpare (v o k : Nat) (s : State) : (s.raiseOut v o).dacSpare k = s.dacSpare k := dacSpare_congr (by simp) k

@[simp] theorem out_raiseOut (v o j : Nat) (s : State) : (s.raiseOut v o).out j = s.out j := out_congr (by simp) j

theorem setDacSpare_trouble (k : Nat) (u : SpareUse) (s : State) : (s.setDacSpare k u).trouble = s.trouble := rfl

theorem raiseOut_trouble (v o : Nat) (s : State) : (s.raiseOut v o).trouble = s.trouble := by simp

/-! ## Ramps and cores (R119 to R121) -/

/-- The ramp of an output ends in tick `n`. -/
def State.rampEnd (o : Fin 96) (n : Nat) (s : State) : State :=
  ((s.runTo n).hearCluster (s.runTo n).now (outCluster o.val)).modOut o.val fun x => { x with ramping := none }

theorem rampEnd_now (o : Fin 96) (n : Nat) (s : State) (h : s.now ≤ n) : (s.rampEnd o n).now = n := by
  simp [State.rampEnd, h]

theorem rampEnd_out (o : Fin 96) (n : Nat) (s : State) :
    ((s.rampEnd o n).out o.val).ramping = none ∧ ((s.rampEnd o n).out o.val).cmdMute = (s.out o.val).cmdMute := by
  simp [State.rampEnd]

theorem outputRampEnd_ends (o : Fin 96) (r : Ramp) : Completes (.outputRampEnd o)
    (fun s => (s.out o.val).ramping = some r ∧ r.up = false ∧ s.now ≤ r.at_ + r.len)
    fun s t => t.now = r.at_ + r.len ∧ (t.out o.val).ramping = none ∧ (t.out o.val).cmdMute = (s.out o.val).cmdMute := by
  rintro s ⟨hr, hu, hn⟩
  have hx : execOutputRampEnd o s = .next (s.rampEnd o (r.at_ + r.len)) := by
    simp [execOutputRampEnd, hr, hu, State.rampEnd]
  exact ⟨_, hx, rampEnd_now o _ s hn, rampEnd_out o _ s⟩

theorem outputRampEnd_powers_down (o : Fin 96) (n : Nat) : Completes (.outputRampEnd o)
    (fun s => (s.out o.val).ramping = none ∧ (s.out o.val).core = .dropping n ∧ s.now ≤ n)
    fun _ t => t.now = n ∧ (t.out o.val).core = .off := by
  rintro s ⟨hr, hc, hn⟩
  have hx : execOutputRampEnd o s = .next ((s.runTo n).modOut o.val fun x => { x with core := .off }) := by
    simp [execOutputRampEnd, hr, hc]
  exact ⟨_, hx, by simp [hn], by simp⟩

theorem outputRampUpEnd_ends (o : Fin 96) (r : Ramp) : Completes (.outputRampUpEnd o)
    (fun s => (s.out o.val).ramping = some r ∧ r.up = true ∧ s.now ≤ r.at_ + r.len)
    fun _ t => t.now = r.at_ + r.len ∧ (t.out o.val).ramping = none := by
  rintro s ⟨hr, hu, hn⟩
  have hx : execOutputRampUpEnd o s = .next (s.rampEnd o (r.at_ + r.len)) := by
    simp [execOutputRampUpEnd, hr, hu, State.rampEnd]
  exact ⟨_, hx, rampEnd_now o _ s hn, (rampEnd_out o _ s).1⟩

theorem dacCoreSettled_unmutes (o : Fin 96) (n : Nat) : Completes (.dacCoreSettled o) (fun s => (s.out o.val).core = .powering n)
    fun s t => (t.out o.val).core = .on ∧ (t.out o.val).cmdMute = false ∧ t.now = s.now := by
  intro s h
  refine ⟨_, show execDacCoreSettled o s = _ by unfold execDacCoreSettled; rw [h], ?_⟩
  simp

/-! ## A core fault, and the spare that takes its output (R126, R127) -/

/-- A fault mute mutes its output, and changes no more of it than its ramp and the tick of its mute (R123). -/
theorem faultMuteOut_bare (o : Fin 96) (s : State) :
    ((s.faultMuteOut o.val).out o.val).bare = ({ s.out o.val with faultMute := true } : Output).bare := by
  rw [← muting_faultMute o.val true s o.isLt]
  exact congrArg Output.bare (out_congr (by simp [State.faultMuteOut]) o.val)

@[simp] theorem faultMuteOut_now (o : Nat) (s : State) : (s.faultMuteOut o).now = s.now := State.now_congr (by simp)

/-- A fault mute sets DAC_FAULT with the bit of its element (R123). -/
theorem faultMuteOut_trouble (o : Fin 96) (s : State) :
    bitAt (s.faultMuteOut o.val).trouble[(dieWord (outDie o.val)).val] (16 + outIndex o.val) = true := by
  have hb : 16 + outIndex o.val < 64 := by unfold outIndex; split <;> omega
  unfold State.faultMuteOut; dsimp only
  rw [raiseOut_trouble]
  exact note_keeps _ _ (setTrouble_bit _ _ _ hb) _

/-- A core fault on an output that its own core serves (R126): the output is fault-muted, and its core out of service. -/
def State.coreFault (o : Fin 96) (s : State) : State := (s.faultMuteOut o.val).modOut o.val fun x => { x with coreFailed := true }

theorem coreFault_bare (o : Fin 96) (s : State) :
    ((s.coreFault o).out o.val).bare = ({ s.out o.val with faultMute := true, coreFailed := true } : Output).bare := by
  rw [State.coreFault, out_modOut_same _ _ _ o.isLt]
  exact (congrArg (fun x : Output => { x with coreFailed := true }) (faultMuteOut_bare o s) :)

theorem coreFault_out (o : Fin 96) (s : State) : ((s.coreFault o).out o.val).faultMute = true ∧
    ((s.coreFault o).out o.val).coreFailed = true ∧ ((s.coreFault o).out o.val).failed = (s.out o.val).failed := by
  have hb := coreFault_bare o s
  exact ⟨(congrArg Output.faultMute hb :), (congrArg Output.coreFailed hb :), (congrArg Output.failed hb :)⟩

theorem coreFault_trouble (o : Fin 96) (s : State) :
    bitAt (s.coreFault o).trouble[(dieWord (outDie o.val)).val] (16 + outIndex o.val) = true := faultMuteOut_trouble o s

/-- No calibration run gives way where none measures an element (R356). -/
theorem calAbandon_idle (d k : Nat) (dac : Bool) (s : State) (h : s.calHead d = none) : s.calAbandon d k dac = s := by
  unfold State.calAbandon; rw [h]

theorem coreFault_calHead (o : Fin 96) (d : Nat) (s : State) : (s.coreFault o).calHead d = s.calHead d := by
  simp [State.calHead, State.calOf, State.coreFault]

@[simp] theorem hear_spareFailed (n o : Nat) (s : State) : (s.hear n o).synth.spareFailed = s.synth.spareFailed := by
  unfold State.hear; dsimp only
  split
  · rfl
  · split <;> rfl

@[simp] theorem hearCluster_spareFailed (n k : Nat) (s : State) : (s.hearCluster n k).synth.spareFailed = s.synth.spareFailed :=
  foldl_keeps (·.synth.spareFailed) _ (fun s o => hear_spareFailed (16 * n) o s) _ s

@[simp] theorem coreFault_spareFailed (o : Fin 96) (s : State) : (s.coreFault o).synth.spareFailed = s.synth.spareFailed := by
  simp [State.coreFault, State.faultMuteOut, State.modOut, State.muting, State.muteBy]

@[simp] theorem coreFault_now (o : Fin 96) (s : State) : (s.coreFault o).now = s.now := faultMuteOut_now o.val s

/-- A free spare starts for the output (R126). -/
theorem dacCoreFault_starts_spare (o : Fin 96) : Completes (.dacCoreFault o)
    (fun s => (s.out o.val).failed = false ∧ (s.out o.val).faultMute = false ∧ (s.out o.val).core ≠ .off ∧
      s.hasCluster (outCluster o.val) = true ∧ (s.out o.val).onSpare = false ∧ atN s.synth.spareFailed (outCluster o.val) false = false ∧
      s.dacSpare (outCluster o.val) = .free ∧ s.calHead (outDie o.val) = none)
    fun s t => (t.out o.val).faultMute = true ∧ (t.out o.val).coreFailed = true ∧ (t.out o.val).failed = false ∧
      t.dacSpare (outCluster o.val) = .starting o.val s.now ∧
      bitAt t.trouble[(dieWord (outDie o.val)).val] (16 + outIndex o.val) = true := by
  rintro s ⟨hf, hm, hc, hk, ho, hs, hu, hh⟩
  have hx : execDacCoreFault o s = .next ((s.coreFault o).setDacSpare (outCluster o.val) (.starting o.val s.now)) := by
    have hidle (u : SpareUse) : ((s.coreFault o).setDacSpare (outCluster o.val) u).calHead (dieOf (outCluster o.val)) = none :=
      (coreFault_calHead o _ s).trans hh
    have hs' : atN (s.coreFault o).synth.spareFailed (outCluster o.val) false = false := by rw [coreFault_spareFailed, hs]
    unfold execDacCoreFault; dsimp only
    rw [if_neg (by simp [hf, hm, hc, hk]), if_neg (by simp [ho]), ← State.coreFault, if_neg (by rw [hs']; decide), hu]
    dsimp only [SpareUse.covered]
    rw [calAbandon_idle _ _ _ _ (hidle _), coreFault_now]
  obtain ⟨hm', hc', hf'⟩ := coreFault_out o s
  refine ⟨_, hx, ?_⟩
  dsimp only
  rw [out_setDacSpare, dacSpare_setDacSpare _ _ _ (outCluster_lt o), setDacSpare_trouble]
  exact ⟨hm', hc', hf'.trans hf, rfl, coreFault_trouble o s⟩

/-- Without a spare the output fails (R127). -/
theorem dacCoreFault_fails (o : Fin 96) : Completes (.dacCoreFault o)
    (fun s => (s.out o.val).failed = false ∧ (s.out o.val).faultMute = false ∧ (s.out o.val).core ≠ .off ∧
      s.hasCluster (outCluster o.val) = true ∧ (s.out o.val).onSpare = false ∧ atN s.synth.spareFailed (outCluster o.val) false = true)
    fun _ t => (t.out o.val).faultMute = true ∧ (t.out o.val).coreFailed = true ∧ (t.out o.val).failed = true := by
  rintro s ⟨hf, hm, hc, hk, ho, hs⟩
  have hx : execDacCoreFault o s = .next ((s.coreFault o).failOut o.val) := by
    have hs' : atN (s.coreFault o).synth.spareFailed (outCluster o.val) false = true := by rw [coreFault_spareFailed, hs]
    unfold execDacCoreFault; dsimp only
    rw [if_neg (by simp [hf, hm, hc, hk]), if_neg (by simp [ho]), ← State.coreFault, if_pos hs']
  have hb : (((s.coreFault o).failOut o.val).out o.val).bare =
      ({ s.out o.val with faultMute := true, coreFailed := true, failed := true } : Output).bare := by
    rw [State.failOut, out_modOut_same _ _ _ o.isLt]
    exact (congrArg (fun x : Output => { x with failed := true }) ((hearCluster_bare _ _ _ _).trans (coreFault_bare o s)) :)
  exact ⟨_, hx, (congrArg Output.faultMute hb :), (congrArg Output.coreFailed hb :), (congrArg Output.failed hb :)⟩

/-- The spare is connected to the output in tick `n` (Table 4.7). -/
def State.spareServes (o : Fin 96) (n : Nat) (s : State) : State :=
  (((s.runTo n).hearCluster (s.runTo n).now (outCluster o.val)).setDacSpare (outCluster o.val) (.serving o.val)).modOut o.val fun x =>
    { x with onSpare := true }

theorem spareServes_onSpare (o : Fin 96) (n : Nat) (s : State) : ((s.spareServes o n).out o.val).onSpare = true := by
  simp [State.spareServes]

/-- The swap after a fault ends in tick `n`: the spare serves the output, and the fault mute is released. -/
def State.faultSwapEnd (o : Fin 96) (n : Nat) (s : State) : State :=
  (((s.spareServes o n).muting o.val fun x => { x with faultMute := false }).note (outRec o.val 2)).raiseOut 8 o.val

theorem faultSwapEnd_now (o : Fin 96) (n : Nat) (s : State) (h : s.now ≤ n) : (s.faultSwapEnd o n).now = n := by
  simp [State.faultSwapEnd, State.spareServes, h]

theorem faultSwapEnd_dacSpare (o : Fin 96) (n : Nat) (s : State) : (s.faultSwapEnd o n).dacSpare (outCluster o.val) = .serving o.val := by
  simp [State.faultSwapEnd, State.spareServes, outCluster_lt]

theorem faultSwapEnd_out (o : Fin 96) (n : Nat) (s : State) :
    ((s.faultSwapEnd o n).out o.val).onSpare = true ∧ ((s.faultSwapEnd o n).out o.val).faultMute = false := by
  have hb := muting_faultMute o.val false (s.spareServes o n) o.isLt
  rw [State.faultSwapEnd, out_raiseOut, out_note]
  exact ⟨(congrArg Output.onSpare hb :).trans (spareServes_onSpare o n s), (congrArg Output.faultMute hb :)⟩

theorem dacFaultSwapEnd_serves (o : Fin 96) (n : Nat) : Completes (.dacFaultSwapEnd o)
    (fun s => s.dacSpare (outCluster o.val) = .starting o.val n ∧ s.now ≤ n + 10016)
    fun _ t => t.now = n + 10016 ∧ t.dacSpare (outCluster o.val) = .serving o.val ∧ (t.out o.val).onSpare = true ∧
      (t.out o.val).faultMute = false := by
  rintro s ⟨hu, hn⟩
  have hx : execDacFaultSwapEnd o s = .next (s.faultSwapEnd o (n + 10016)) := by
    unfold execDacFaultSwapEnd; dsimp only; rw [hu]; exact if_pos rfl
  exact ⟨_, hx, faultSwapEnd_now o _ s hn, faultSwapEnd_dacSpare o _ s, faultSwapEnd_out o _ s⟩

/-! ## Planned swaps (R125) -/

/-- The spare of cluster `k` is ready for output `o` in tick `n` (R125). -/
def State.spareReady (k : Fin 8) (o n : Nat) (s : State) : State := (s.runTo n).setDacSpare k.val (.ready o (s.runTo n).now)

theorem spareReady_now (k : Fin 8) (o n : Nat) (s : State) (h : s.now ≤ n) : (s.spareReady k o n).now = n := State.runTo_now n s h

theorem spareReady_dacSpare (k : Fin 8) (o n : Nat) (s : State) :
    (s.spareReady k o n).dacSpare k.val = .ready o (s.spareReady k o n).now := dacSpare_setDacSpare _ _ _ k.isLt

theorem sparePrepared_readies (k : Fin 8) (o n : Nat) : Completes (.sparePrepared k)
    (fun s => s.dacSpare k.val = .preparing o n ∧ s.now ≤ n + 100000)
    fun _ t => t.now = n + 100000 ∧ t.dacSpare k.val = .ready o t.now := by
  rintro s ⟨hu, hn⟩
  have hx : execSparePrepared k s = .next (s.spareReady k o (n + 100000)) := by
    unfold execSparePrepared; rw [hu]; rfl
  exact ⟨_, hx, spareReady_now k o _ s hn, spareReady_dacSpare k o _ s⟩

/-- A quiet interval of the output that the spare is ready for, confirmed or not. -/
theorem exec_dacPlannedSwap_ready (o : Fin 96) (n : Nat) (s : State) (h : s.dacSpare (outCluster o.val) = .ready o.val n) :
    execDacPlannedSwap o s = .next (if (s.hearCluster s.now (outCluster o.val)).quietOut o.val s.now = true then
      (s.hearCluster s.now (outCluster o.val)).setDacSpare (outCluster o.val) (.swapping o.val s.now false)
    else s.hearCluster s.now (outCluster o.val)) := by
  unfold execDacPlannedSwap
  simp only [hearCluster_dacSpare, hearCluster_now, h, true_and]
  split <;> rfl

theorem dacPlannedSwap_swaps (o : Fin 96) (n : Nat) : Completes (.dacPlannedSwap o)
    (fun s => s.dacSpare (outCluster o.val) = .ready o.val n ∧
      (s.hearCluster s.now (outCluster o.val)).quietOut o.val s.now = true)
    fun s t => t.dacSpare (outCluster o.val) = .swapping o.val s.now false ∧ t.now = s.now := by
  rintro s ⟨hu, hq⟩
  refine ⟨_, exec_dacPlannedSwap_ready o n s hu, ?_⟩
  rw [if_pos hq]
  simp [outCluster_lt]

theorem dacPlannedSwap_waits (o : Fin 96) (n : Nat) : Completes (.dacPlannedSwap o)
    (fun s => s.dacSpare (outCluster o.val) = .ready o.val n ∧
      (s.hearCluster s.now (outCluster o.val)).quietOut o.val s.now = false)
    fun s t => t.dacSpare (outCluster o.val) = .ready o.val n ∧ t.now = s.now := by
  rintro s ⟨hu, hq⟩
  refine ⟨_, exec_dacPlannedSwap_ready o n s hu, ?_⟩
  rw [hq, if_neg Bool.false_ne_true]
  simp [hu]

/-- The spare has taken over the output in tick `n`, and the run of its die measures the output's own core (Table 4.6). -/
def State.spareCovers (o : Fin 96) (n : Nat) (s : State) : State :=
  let s := (s.runTo n).hearCluster (s.runTo n).now (outCluster o.val)
  let s := (s.settleTrims.setDacSpare (outCluster o.val) (.covering o.val)).modOut o.val fun x => { x with onSpare := true }
  s.modCal (dieOf (outCluster o.val)) fun c => { c with run := c.run.map (CalRun.started s.now c.temp) }

theorem spareCovers_now (o : Fin 96) (n : Nat) (s : State) (h : s.now ≤ n) : (s.spareCovers o n).now = n :=
  (State.now_congr (s := s.runTo n) (by simp [State.spareCovers])).trans (State.runTo_now n s h)

theorem spareCovers_dacSpare (o : Fin 96) (n : Nat) (s : State) : (s.spareCovers o n).dacSpare (outCluster o.val) = .covering o.val := by
  simp [State.spareCovers, outCluster_lt]

theorem spareCovers_onSpare (o : Fin 96) (n : Nat) (s : State) : ((s.spareCovers o n).out o.val).onSpare = true :=
  congrArg Output.onSpare (out_modOut_same o.val _ _ o.isLt)

theorem dacPlannedSwapEnd_covers (o : Fin 96) (n : Nat) : Completes (.dacPlannedSwapEnd o)
    (fun s => s.dacSpare (outCluster o.val) = .swapping o.val n false ∧ s.now ≤ n + 16)
    fun _ t => t.now = n + 16 ∧ t.dacSpare (outCluster o.val) = .covering o.val ∧ (t.out o.val).onSpare = true := by
  rintro s ⟨hu, hn⟩
  have hx : execDacPlannedSwapEnd o s = .next ((s.spareCovers o (n + 16)).raiseOut 8 o.val) := by
    unfold execDacPlannedSwapEnd
    simp only [hu, ne_eq, not_true_eq_false, if_false, Bool.false_eq_true]
    rfl
  refine ⟨_, hx, ?_, ?_, ?_⟩
  · rw [raiseOut_now, spareCovers_now o _ s hn]
  · rw [raiseOut_dacSpare, spareCovers_dacSpare]
  · rw [out_raiseOut, spareCovers_onSpare]

/-- The calibration side of a die after a change of it. -/
theorem calOf_modCal_same (d : Nat) (f : CalDie → CalDie) (s : State) (h : d < 4) : (s.modCal d f).calOf d = f (s.calOf d) := by
  simp [State.calOf, State.modCal, h]

/-- Without a run the calibration of a die has no next element. -/
theorem calNext_idle (d : Nat) (s : State) (h : (s.calOf d).run = none) : s.calNext d = s := by
  unfold State.calNext; rw [h]

/-- The attempt of a planned swap is abandoned in tick `n`, and the element counts as skipped (R125, R356). -/
def State.swapAbandoned (k : Fin 8) (n : Nat) (s : State) : State :=
  ((s.runTo n).setDacSpare k.val .free).modCal (dieOf k.val) fun c => { c with skipped := c.skipped + 1 }

theorem swapAbandoned_now (k : Fin 8) (n : Nat) (s : State) (h : s.now ≤ n) : (s.swapAbandoned k n).now = n :=
  State.runTo_now n s h

theorem swapAbandoned_dacSpare (k : Fin 8) (n : Nat) (s : State) : (s.swapAbandoned k n).dacSpare k.val = .free :=
  dacSpare_setDacSpare _ _ _ k.isLt

theorem swapAbandoned_calOf (k : Fin 8) (n : Nat) (s : State) : (s.swapAbandoned k n).calOf (dieOf k.val) =
    { s.calOf (dieOf k.val) with skipped := (s.calOf (dieOf k.val)).skipped + 1 } := by
  have hd : dieOf k.val < 4 := by have := k.isLt; unfold dieOf; omega
  exact calOf_modCal_same _ _ _ hd

theorem plannedSwapAbandon_skips (k : Fin 8) (o n : Nat) : Completes (.plannedSwapAbandon k)
    (fun s => s.dacSpare k.val = .ready o n ∧ s.now ≤ n + 100000000 ∧ (s.calOf (dieOf k.val)).run = none)
    fun s t => t.now = n + 100000000 ∧ t.dacSpare k.val = .free ∧
      (t.calOf (dieOf k.val)).skipped = (s.calOf (dieOf k.val)).skipped + 1 := by
  rintro s ⟨hu, hn, hr⟩
  have hx : execPlannedSwapAbandon k s = .next ((s.swapAbandoned k (n + 100000000)).calNext (dieOf k.val)) := by
    unfold execPlannedSwapAbandon; rw [hu]; rfl
  rw [calNext_idle _ _ (by rw [swapAbandoned_calOf]; exact hr)] at hx
  exact ⟨_, hx, swapAbandoned_now k _ s hn, swapAbandoned_dacSpare k _ s, by rw [swapAbandoned_calOf]⟩

/-- Settles O29: each event runs the clock to its tick and writes the output and the spare of its cluster; the samples that are formed
before, and what is reported after, leave both as written. -/
theorem synthesisEventsComplete : Obligations.SynthesisEventsComplete :=
  ⟨outputRampEnd_ends, outputRampEnd_powers_down, outputRampUpEnd_ends, dacCoreSettled_unmutes, dacCoreFault_starts_spare,
    dacCoreFault_fails, dacFaultSwapEnd_serves, sparePrepared_readies, dacPlannedSwap_swaps, dacPlannedSwap_waits,
    dacPlannedSwapEnd_covers, plannedSwapAbandon_skips⟩

end Sys2Proof.Machine
end

section
/-!
PROOFS. Reading a folio, a Shelf and the stream plans after a change of one of them (chapter 5).
-/
namespace Sys2Proof.Machine

/-- A Shelf is read from the waveform memory alone. -/
theorem shelfOf_congr {s t : State} (h : t.wave = s.wave) (d : Nat) : t.shelfOf d = s.shelfOf d := by simp [State.shelfOf, h]

/-- Stream plans are read from the waveform memory alone. -/
theorem plansOf_congr {s t : State} (h : t.wave = s.wave) (q : Nat) : t.plansOf q = s.plansOf q := by simp [State.plansOf, h]

@[simp] theorem shelfOf_modShelf_same (d : Nat) (f : Shelf → Shelf) (s : State) (h : d < 4) :
    (s.modShelf d f).shelfOf d = f (s.shelfOf d) := by
  simp [State.shelfOf, State.modShelf, h]

@[simp] theorem plansOf_modPlans_same (q : Nat) (f : Plans → Plans) (s : State) (h : q < 256) :
    (s.modPlans q f).plansOf q = f (s.plansOf q) := by
  simp [State.plansOf, State.modPlans, h]

@[simp] theorem plansOf_modPlans_ne {q r : Nat} (f : Plans → Plans) (s : State) (h : r ≠ q) :
    (s.modPlans q f).plansOf r = s.plansOf r := by
  simp [State.plansOf, State.modPlans, atN_updN_ne _ _ _ _ _ h.symm]

@[simp] theorem plansOf_modShelf (d q : Nat) (f : Shelf → Shelf) (s : State) : (s.modShelf d f).plansOf q = s.plansOf q := rfl

@[simp] theorem shelfOf_modFolio (n d : Nat) (f : Folio → Folio) (s : State) : (s.modFolio n f).shelfOf d = s.shelfOf d := rfl

theorem wave_modFolio (n : Nat) (f : Folio → Folio) (s : State) :
    (s.modFolio n f).wave = { s.wave with folios := Sparse.set {} s.wave.folios n (f (s.folio n)) } := rfl

@[simp] theorem folios_modShelf (d : Nat) (f : Shelf → Shelf) (s : State) : (s.modShelf d f).wave.folios = s.wave.folios := rfl

@[simp] theorem plansOf_freeStreams (q r : Nat) (s : State) : (s.freeStreams q).plansOf r = s.plansOf r := rfl

/-- The converter die of a sequencer exists. -/
theorem seqDie_lt (q : Fin 256) : dieOf (seqCluster q.val) < 4 := by
  have := q.isLt
  unfold dieOf seqCluster
  omega

end Sys2Proof.Machine
end

section
/-!
PROOFS. What the commands of the waveform memory do (group 0x05, Tables 5.2 to 5.7). Where a folio and a run come to stand is the model's
choice: the lowest address that fits.
-/
namespace Sys2Proof.Machine

/-- The waveform memory after a packet is that of its effect. -/
theorem commit_wave (s0 : State) (f : Fetched) (a : BitVec 32) (e : Effect) : (State.commit s0 f a e).wave = e.st.wave := by simp

/-- The waveform memory where the Desk forms an effect. -/
theorem entry_wave (c : Command) (p : Packet) (s : State) : (c.entry p s).wave = s.wave := by simp

theorem commit_shelfOf (s0 : State) (f : Fetched) (a : BitVec 32) (e : Effect) (d : Nat) :
    (State.commit s0 f a e).shelfOf d = e.st.shelfOf d := shelfOf_congr (commit_wave s0 f a e) d

theorem commit_plansOf (s0 : State) (f : Fetched) (a : BitVec 32) (e : Effect) (q : Nat) :
    (State.commit s0 f a e).plansOf q = e.st.plansOf q := plansOf_congr (commit_wave s0 f a e) q

@[simp] theorem entry_shelfOf (c : Command) (p : Packet) (d : Nat) (s : State) : (c.entry p s).shelfOf d = s.shelfOf d :=
  shelfOf_congr (entry_wave c p s) d

@[simp] theorem entry_plansOf (c : Command) (p : Packet) (q : Nat) (s : State) : (c.entry p s).plansOf q = s.plansOf q :=
  plansOf_congr (entry_wave c p s) q

@[simp] theorem entry_folio (c : Command) (p : Packet) (n : Nat) (s : State) : (c.entry p s).folio n = s.folio n := by
  simp [State.folio]

/-! ## FOLIO_WRITE (Tables 5.2 and 5.3) -/

/-- The folio that a CREATE makes, before its samples: its granules stand at the lowest address that fits in the share (log 43). -/
def State.newFolio (s : State) (p : Packet) : Folio :=
  { state := .open_, owner := Fin.ofNat 8 p.partition.toNat, rate := fwRate p, n := fwN p, crc := lo32 (wordAt p.payload 1)
    addr := (firstFit (s.shareRuns (Fin.ofNat 8 p.partition.toNat).val) (s.shareGranules (Fin.ofNat 8 p.partition.toNat).val)
      (ceilDiv (fwN p) 64)).getD 0 }

@[simp] theorem entry_newFolio (c : Command) (p : Packet) (s : State) : (c.entry p s).newFolio p = s.newFolio p := by
  simp [State.newFolio, State.shareRuns, State.shareGranules]

/-- What FOLIO_WRITE makes of its folio, by MODE (R135, R136). -/
def State.folioWritten (s : State) (p : Packet) : Folio :=
  match fwMode p with
  | 0 => ((s.newFolio p).write p).check
  | 1 => ((s.folio (fwFolio p)).write p).check
  | _ => {}

/-- FOLIO_WRITE changes its folio. -/
theorem folioWrite_st (p : Packet) (s : State) : (folioWriteCmd.eff s p).st = s.modFolio (fwFolio p) fun _ => s.folioWritten p := rfl

@[simp] theorem entry_folioWritten (c : Command) (p : Packet) (s : State) : (c.entry p s).folioWritten p = s.folioWritten p := by
  simp [State.folioWritten]

/-- The waveform memory after FOLIO_WRITE, for every MODE. -/
theorem folioWrite_wave (p : Packet) (s : State) : (folioWriteCmd.eff (folioWriteCmd.entry p s) p).st.wave =
    { s.wave with folios := Sparse.set {} s.wave.folios (fwFolio p) (s.folioWritten p) } := by
  rw [folioWrite_st, wave_modFolio, entry_folioWritten, entry_wave]

theorem folioWrite_answers (p : Packet) : Answers (.folioWrite p) folioWriteCmd p fun s t =>
    (fwMode p = 0 → t.wave.folios = Sparse.set {} s.wave.folios (fwFolio p) ((s.newFolio p).write p).check) ∧
    (fwMode p = 1 → t.wave.folios = Sparse.set {} s.wave.folios (fwFolio p) (((s.folio (fwFolio p)).write p).check)) ∧
    (fwMode p = 2 → t.wave.folios = Sparse.set {} s.wave.folios (fwFolio p) {}) ∧
    t.wave.shelf = s.wave.shelf ∧ t.wave.plans = s.wave.plans := by
  refine answers_of (fun _ => rfl) fun s _ => ⟨by simp [folioWrite_st], ?_⟩
  rw [commit_wave, folioWrite_wave]
  refine ⟨fun h => ?_, fun h => ?_, fun h => ?_, rfl, rfl⟩
  · simp only [State.folioWritten, h]
  · simp only [State.folioWritten, h]
  · simp only [State.folioWritten, h]

/-! ## SHELF_PIN (Tables 5.4 and 5.5) -/

/-- The die that a SHELF_PIN names exists. -/
theorem pinDie_lt (p : Packet) : pinDie p < 4 := fld_lt _ 61 60

/-- A pin takes its runs one after another, each at the lowest address that fits (logs 43, 184 and 185), and completes later (R138). -/
theorem shelfPin_pins {p : Packet} (h : pinAction p = 0) (s : State) :
    (shelfPinCmd.eff s p).st = s.modShelf (pinDie p) (fun x => (Shelf.allocAll (s.pinRuns (pinList p)) 0 x).1) ∧
      (shelfPinCmd.eff s p).later = true := by
  unfold shelfPinCmd
  simp only [h, and_self]

/-- The runs that stay when the folios of `l` are unpinned: neither their pins, nor their heads where no plan lists them (R139, R145). -/
def State.unpinKeeps (s : State) (d : Nat) (l : List Nat) (r : ShelfRun) : Bool :=
  match r.use with
  | .pin f => !l.contains f
  | .head f => s.listed d f || (s.pinned d f && !l.contains f)
  | _ => true

/-- A run that stays pins none of the folios. -/
theorem unpinKeeps_pin {s : State} {d f : Nat} {l : List Nat} {r : ShelfRun} (h : s.unpinKeeps d l r = true) (hf : f ∈ l) :
    r.use ≠ .pin f := by
  intro hu
  simp [State.unpinKeeps, hu, hf] at h

/-- An unpin filters the runs of the Shelf (R139). -/
theorem shelfPin_unpins {p : Packet} (h : pinAction p = 1) (s : State) : (shelfPinCmd.eff s p).st =
    s.modShelf (pinDie p) fun x => { x with runs := x.runs.filter (s.unpinKeeps (pinDie p) (pinList p)) } := by
  unfold shelfPinCmd
  simp only [h]
  rfl

/-- A query changes nothing, and replies the word of the Shelf (Table 5.5). -/
theorem shelfPin_queries {p : Packet} (h : pinAction p = 2) (s : State) :
    shelfPinCmd.eff s p = { st := s, changed := false, reply := some [(s.shelfOf (pinDie p)).word] } := by
  unfold shelfPinCmd
  simp only [h]

/-- SHELF_PIN leaves the command state and the folios alone. -/
theorem shelfPin_keeps (p : Packet) (s : State) :
    (shelfPinCmd.eff s p).st.host = s.host ∧ (shelfPinCmd.eff s p).st.wave.folios = s.wave.folios := by
  unfold shelfPinCmd; dsimp only
  split <;> exact ⟨rfl, rfl⟩

theorem shelfPin_answers (p : Packet) : Answers (.shelfPin p) shelfPinCmd p fun s t =>
    (pinAction p = 0 → t.shelfOf (pinDie p) = (Shelf.allocAll (s.pinRuns (pinList p)) 0 (s.shelfOf (pinDie p))).1 ∧
      ∃ o ∈ t.host.open_, o.packet = p ∧ o.accept = s.host.accept + 1) ∧
    (pinAction p = 1 → ∀ r ∈ (t.shelfOf (pinDie p)).runs, r ∈ (s.shelfOf (pinDie p)).runs ∧ ∀ f ∈ pinList p, r.use ≠ .pin f) ∧
    (pinAction p = 2 → t.wave = s.wave ∧ Posted p (s.host.accept + 1) 0 (some [(s.shelfOf (pinDie p)).word]) t) ∧
    t.wave.folios = s.wave.folios := by
  refine answers_of (fun _ => rfl) fun s hr => ?_
  obtain ⟨hh, hf⟩ := shelfPin_keeps p (shelfPinCmd.entry p s)
  refine ⟨by simp [hh], fun ha => ?_, fun ha => ?_, fun ha => ?_, ?_⟩
  · obtain ⟨hst, hl⟩ := shelfPin_pins ha (shelfPinCmd.entry p s)
    have ho := commit_opens (shelfPinCmd.entry p s) (s.fetchedAs shelfPinCmd.opcode p) (s.host.accept + 1) _ hl
    rw [State.fetchedAs_packet] at ho
    refine ⟨?_, ho⟩
    rw [commit_shelfOf, hst, shelfOf_modShelf_same _ _ _ (pinDie_lt p), entry_shelfOf]
    simp only [State.pinRuns, entry_folio]
  · intro r hm
    rw [commit_shelfOf, shelfPin_unpins ha, shelfOf_modShelf_same _ _ _ (pinDie_lt p), entry_shelfOf] at hm
    obtain ⟨hm, hk⟩ := List.mem_filter.1 hm
    exact ⟨hm, fun f => unpinKeeps_pin hk⟩
  · have hp := ready_posted hr (by simp [shelfPin_queries ha]) (by simp [shelfPin_queries ha]) (by rw [hh]; simp) (by rw [hh]; simp)
    simp only [shelfPin_queries ha, entry_shelfOf] at hp ⊢
    exact ⟨by simp, hp⟩
  · rw [commit_wave, hf, entry_wave]

/-! ## STREAM_PLAN (Tables 5.6 and 5.7) -/

/-- The sequencer that a STREAM_PLAN names exists. -/
theorem planSeq_lt (p : Packet) : planSeq p < 256 := fld_seq _

/-- STREAM_PLAN replaces the shadow plan and places the runs that it needs (R144, R145). -/
theorem streamPlan_st (p : Packet) (s : State) : (streamPlanCmd.eff s p).st = (s.withPlan p).modShelf (dieOf (seqCluster (planSeq p)))
    fun h => (Shelf.allocAll ((s.withPlan p).planRuns (planSeq p)) 0 h).1 := rfl

/-- The plans after STREAM_PLAN. -/
theorem streamPlan_plansOf (p : Packet) (q : Nat) (s : State) : (streamPlanCmd.eff s p).st.plansOf q =
    (s.modPlans (planSeq p) (Plans.replace (planPairs p))).plansOf q := by
  rw [streamPlan_st, plansOf_modShelf, State.withPlan, plansOf_freeStreams]

/-- STREAM_PLAN leaves the command state and the folios alone. -/
theorem streamPlan_keeps (p : Packet) (s : State) :
    (streamPlanCmd.eff s p).st.host = s.host ∧ (streamPlanCmd.eff s p).st.wave.folios = s.wave.folios := by
  rw [streamPlan_st]
  exact ⟨rfl, rfl⟩

theorem streamPlan_answers (p : Packet) : Answers (.streamPlan p) streamPlanCmd p fun s t =>
    (t.plansOf (planSeq p)).shadow.list = planPairs p ∧ (t.plansOf (planSeq p)).active = (s.plansOf (planSeq p)).active ∧
      t.wave.folios = s.wave.folios ∧ ∀ q, q ≠ planSeq p → t.plansOf q = s.plansOf q := by
  refine answers_of (fun _ => rfl) fun s _ => ?_
  obtain ⟨hh, hf⟩ := streamPlan_keeps p (streamPlanCmd.entry p s)
  simp only [commit_plansOf, commit_wave, streamPlan_plansOf, hh, hf]
  rw [plansOf_modPlans_same _ _ _ (planSeq_lt p), entry_plansOf]
  exact ⟨by simp, rfl, rfl, by simp, fun q hq => by rw [plansOf_modPlans_ne _ _ hq, entry_plansOf]⟩

/-- Settles O30: the committed state has the waveform memory of the effect, in which FOLIO_WRITE has changed its folio, SHELF_PIN its
Shelf, and STREAM_PLAN its shadow plan. -/
theorem waveformCommandsComplete : Obligations.WaveformCommandsComplete :=
  ⟨folioWrite_answers, shelfPin_answers, streamPlan_answers⟩

end Sys2Proof.Machine
end

section
/-!
PROOFS. What the events of the waveform memory do: the end of a copy, the refills of a stream window, and Shelf words in error (R138, R141,
R143, R146).
-/
namespace Sys2Proof.Machine

/-! ## The end of a copy (R138, R146) -/

/-- A run of the Shelf when the pins of the folios of `l` end: each pin is placed, but that of a folio whose copy was bad. -/
def pinPlaced (l : List Nat) (bad : Option Nat) (r : ShelfRun) : Option ShelfRun :=
  if !(l.any fun f => r.use == .pin f) then some r
  else if (bad.any fun b => r.use == .pin b) then none
  else some { r with placed := true }

/-- A pin that is on the Shelf then is placed, and its copy was not bad. -/
theorem pinPlaced_pin {l : List Nat} {bad : Option Nat} {r x : ShelfRun} {f : Nat} (h : pinPlaced l bad r = some x) (hu : x.use = .pin f)
    (hf : f ∈ l) : x.placed = true ∧ bad ≠ some f := by
  unfold pinPlaced at h
  split at h
  next hn =>
    cases h
    have hany : (l.any fun f => r.use == .pin f) = true := List.any_eq_true.2 ⟨f, hf, beq_iff_eq.2 hu⟩
    rw [hany] at hn
    cases hn
  next =>
    split at h
    next => cases h
    next hb =>
      cases h
      exact ⟨rfl, fun e => hb (by simpa [e] using hu)⟩

/-- The state when the last copy of a SHELF_PIN is in place, or has met an uncorrectable codeword in folio `bad`. -/
def State.pinsEnd (p : Packet) (bad : Option Nat) (s : State) : State :=
  let s := s.hearDie (pinDie p)
  let landed := (s.shelfOf (pinDie p)).runs.filter fun r => !r.placed && (pinList p).any fun f => r.use == .pin f
  let s := s.modShelf (pinDie p) fun h =>
    landed.foldl (fun h r => h.recopied r.addr r.len) { h with runs := h.runs.filterMap (pinPlaced (pinList p) bad) }
  match bad with
  | some b => s.modFolio b fun f => { f with state := .bad }
  | none => s

@[simp] theorem pinsEnd_host (p : Packet) (bad : Option Nat) (s : State) : (s.pinsEnd p bad).host = s.host := by
  cases bad <;> simp [State.pinsEnd]

theorem pinsEnd_runs (p : Packet) (bad : Option Nat) (s : State) : ((s.pinsEnd p bad).shelfOf (pinDie p)).runs =
    (s.shelfOf (pinDie p)).runs.filterMap (pinPlaced (pinList p) bad) := by
  have h := shelfOf_congr (t := s.hearDie (pinDie p)) (s := s) (by simp) (pinDie p)
  cases bad <;> simp [State.pinsEnd, pinDie_lt, h]

/-- A pin of the packet that is on the Shelf then is placed, and its copy was not bad. -/
theorem pinsEnd_pin {p : Packet} {bad : Option Nat} {s : State} {r : ShelfRun} {f : Nat}
    (hr : r ∈ ((s.pinsEnd p bad).shelfOf (pinDie p)).runs) (hu : r.use = .pin f) (hf : f ∈ pinList p) :
    r.placed = true ∧ bad ≠ some f := by
  rw [pinsEnd_runs] at hr
  obtain ⟨x, -, hx⟩ := List.mem_filterMap.1 hr
  exact pinPlaced_pin hx hu hf

theorem pinsEnd_folios_none (p : Packet) (s : State) : (s.pinsEnd p none).wave.folios = s.wave.folios := by
  simp [State.pinsEnd]

theorem pinsEnd_folios_some (p : Packet) (b : Nat) (s : State) :
    (s.pinsEnd p (some b)).wave.folios = Sparse.set {} s.wave.folios b { s.folio b with state := .bad } := by
  simp [State.pinsEnd, State.folio, wave_modFolio]

/-- The first open SHELF_PIN or STREAM_PLAN is a SHELF_PIN, and it completes (R138, R146). -/
theorem exec_shelfCopyEnd_pin {s : State} {o : OpenCmd} {bad : Option (BitVec 16)}
    (ho : s.host.open_.find? (fun o => o.opcode == 0x0502 || o.opcode == 0x0503) = some o) (hc : o.opcode = 0x0502)
    (hb : ∀ b, bad = some b → b.toNat ∈ pinList o.packet) :
    ∃ t q n d, exec (.shelfCopyEnd bad) s = .next ((s.pinsEnd o.packet (bad.map (·.toNat))).finish o (if bad.isSome then 0x0602 else 0)
      (some [((s.pinsEnd o.packet (bad.map (·.toNat))).shelfOf (pinDie o.packet)).word]) t q n d) := by
  have hbad : (bad.bind fun b => if (pinList o.packet).contains b.toNat then some b.toNat else none) = bad.map (·.toNat) := by
    cases bad with
    | none => rfl
    | some b => simp [hb b rfl]
  have hpin : (o.opcode == 0x0502) = true := by simp [hc]
  show ∃ t q n d, execShelfCopyEnd bad s = _
  unfold execShelfCopyEnd
  rw [ho]
  simp only [hpin, if_true, hbad, Option.isSome_map]
  exact ⟨_, _, _, _, rfl⟩

/-- SHELF_COPY_END completes the SHELF_PIN with the word of the Shelf as the copies leave it. -/
theorem pinsEnd_finished (o : OpenCmd) (bad : Option Nat) (st : Nat) (t q : BitVec 64) (n d : Nat) (s : State) (w : Words) :
    Finished o st (some w) s ((s.pinsEnd o.packet bad).finish o st (some w) t q n d) :=
  (finish_finished o st _ t q n _ d).congr (pinsEnd_host o.packet bad s)

@[simp] theorem shelfOf_finish (o : OpenCmd) (st : Nat) (r : Option Words) (t q : BitVec 64) (b : Nat) (s : State) (d k : Nat) :
    (s.finish o st r t q b d).shelfOf k = s.shelfOf k := shelfOf_congr (by simp) k

theorem wave_finish (o : OpenCmd) (st : Nat) (r : Option Words) (t q : BitVec 64) (b : Nat) (s : State) (d : Nat) :
    (s.finish o st r t q b d).wave = s.wave := by simp

theorem shelfCopyEnd_places (o : OpenCmd) : Completes (.shelfCopyEnd none)
    (fun s => s.host.open_.find? (fun o => o.opcode == 0x0502 || o.opcode == 0x0503) = some o ∧ o.opcode = 0x0502)
    fun s t => Finished o 0 (some [(t.shelfOf (pinDie o.packet)).word]) s t ∧ t.wave.folios = s.wave.folios ∧
      ∀ r ∈ (t.shelfOf (pinDie o.packet)).runs, ∀ f ∈ pinList o.packet, r.use = .pin f → r.placed = true := by
  rintro s ⟨ho, hc⟩
  obtain ⟨t, q, n, d, hx⟩ := exec_shelfCopyEnd_pin (bad := none) ho hc (by simp)
  refine ⟨_, hx, ?_⟩
  simp only [shelfOf_finish, wave_finish]
  exact ⟨pinsEnd_finished o none 0 t q n d s _, pinsEnd_folios_none o.packet s, fun r hr f hf hu => (pinsEnd_pin hr hu hf).1⟩

theorem shelfCopyEnd_finds_bad (o : OpenCmd) (b : BitVec 16) : Completes (.shelfCopyEnd (some b))
    (fun s => s.host.open_.find? (fun o => o.opcode == 0x0502 || o.opcode == 0x0503) = some o ∧ o.opcode = 0x0502 ∧
      b.toNat ∈ pinList o.packet)
    fun s t => Finished o 0x0602 (some [(t.shelfOf (pinDie o.packet)).word]) s t ∧
      t.wave.folios = Sparse.set {} s.wave.folios b.toNat { s.folio b.toNat with state := .bad } ∧
      ∀ r ∈ (t.shelfOf (pinDie o.packet)).runs, r.use ≠ .pin b.toNat := by
  rintro s ⟨ho, hc, hb⟩
  obtain ⟨t, q, n, d, hx⟩ := exec_shelfCopyEnd_pin (bad := some b) ho hc (by rintro _ ⟨⟩; exact hb)
  refine ⟨_, hx, ?_⟩
  simp only [shelfOf_finish, wave_finish]
  exact ⟨pinsEnd_finished o (some b.toNat) 0x0602 t q n d s _, pinsEnd_folios_some o.packet b.toNat s,
    fun r hr hu => (pinsEnd_pin hr hu hb).2 rfl⟩

/-! ## Refills (R143, R146) -/

/-- The window of a binding. -/
def State.win (s : State) (q b : Nat) : StreamWin := atN (s.plansOf q).wins b {}

/-- Change the window of a binding. -/
def State.modWin (q b : Nat) (f : StreamWin → StreamWin) (s : State) : State :=
  s.modPlans q fun p => { p with wins := updN p.wins b f }

theorem win_modWin (q : Fin 256) (b : Fin 8) (f : StreamWin → StreamWin) (s : State) :
    (s.modWin q.val b.val f).win q.val b.val = f (s.win q.val b.val) := by
  simp [State.win, State.modWin]

/-- A window is read from the plans alone. -/
theorem win_congr {s t : State} (h : t.wave.plans = s.wave.plans) (q b : Nat) : t.win q b = s.win q b := by
  simp [State.win, State.plansOf, h]

/-- A window of which the player has entered `pa` and `pb` granules of its halves. -/
def StreamWin.passed (pa pb : Nat) (w : StreamWin) : StreamWin := { w with a := w.a.settle pa, b := w.b.settle pb }

/-- Settling the binding that streams counts what the player has passed, and changes no more of its window (R146). -/
theorem settle_win (q : Fin 256) (b : Fin 8) (t : Nat) {s : State} {x : Playing} {f : Folio} {half : Nat}
    (h : s.streaming q.val b.val = some (x, f, half)) : ∃ pa pb, (s.settle q.val b.val t).win q.val b.val =
      ((s.win q.val b.val).at_ x.start).passed pa pb := by
  obtain ⟨pa, pb, l, hu⟩ : ∃ pa pb l, s.unsettled q.val b.val t = some (x, (s.win q.val b.val).at_ x.start, pa, pb, l) := by
    unfold State.unsettled
    rw [h]
    exact ⟨_, _, _, rfl⟩
  have hp : (s.settle q.val b.val t).wave.plans = 
      (s.modWin q.val b.val fun _ => ((s.win q.val b.val).at_ x.start).passed pa pb).wave.plans := by
    unfold State.settle
    rw [hu]
    dsimp only
    split
    · rfl
    · simp [State.yields, State.modWin, StreamWin.passed, State.win]
  exact ⟨pa, pb, by rw [win_congr hp, win_modWin]⟩

/-- The window after request `k` of repetition `r`, which asks for the half `h` (R143). -/
def StreamWin.ask (start r k : Nat) (h : WinHalf) (w : StreamWin) : StreamWin :=
  let w := w.at_ start
  let w := if r = w.rep then w else { w with rep := r, a := {}, b := {} }
  if k % 2 = 0 then { w with requests := k + 1, a := h } else { w with requests := k + 1, b := h }

theorem ask_requests (start r k : Nat) (h : WinHalf) (w : StreamWin) : (w.ask start r k h).requests = k + 1 := by
  unfold StreamWin.ask; dsimp only
  split <;> rfl

theorem ask_even {k : Nat} (hk : k % 2 = 0) (start r : Nat) (h : WinHalf) (w : StreamWin) : (w.ask start r k h).a = h := by
  simp [StreamWin.ask, hk]

/-- The half that a request asks for: it begins where the halves before it end, and none of its granules has landed (R143). -/
def Folio.askedHalf (f : Folio) (half k : Nat) : WinHalf :=
  { first := f.head + k * 64 * half, asked := min half (ceilDiv (f.n - (f.head + k * 64 * half)) 64) }

/-- The state after a request in tick `n`. -/
def State.requested (q b start r k n : Nat) (h : WinHalf) (s : State) : State :=
  ((s.runTo n).settle q b n).modWin q b (StreamWin.ask start r k h)

theorem requested_now {n : Nat} (q b start r k : Nat) (h : WinHalf) {s : State} (hn : s.now ≤ n) :
    (s.requested q b start r k n h).now = n := by
  rw [State.now_congr (s := s.runTo n) (by simp [State.requested, State.modWin]), State.runTo_now n s hn]

theorem requested_win (q : Fin 256) (b : Fin 8) (start r k n : Nat) (h : WinHalf) (s : State) :
    (s.requested q.val b.val start r k n h).win q.val b.val =
      (((s.runTo n).settle q.val b.val n).win q.val b.val).ask start r k h := win_modWin q b _ _

theorem refillRequest_asks (q : Fin 256) (b : Fin 8) (x : Playing) (f : Folio) (half k : Nat) : Completes (.refillRequest q b)
    (fun s => s.streaming q.val b.val = some (x, f, half) ∧ x.stopAt = none ∧
      nextRequest ((s.win q.val b.val).at_ x.start) f half x.rep = some (((s.win q.val b.val).at_ x.start).rep, k) ∧
      s.now ≤ (x.start + ((s.win q.val b.val).at_ x.start).rep * x.len + f.reach (requestAt f.head half k)) / 16)
    fun s t => (t.win q.val b.val).requests = k + 1 ∧
      t.now = (x.start + ((s.win q.val b.val).at_ x.start).rep * x.len + f.reach (requestAt f.head half k)) / 16 ∧
      (k % 2 = 0 → (t.win q.val b.val).a.first = f.head + k * 64 * half ∧ (t.win q.val b.val).a.landed = 0) := by
  rintro s ⟨hs, he, hr, hn⟩
  have hx : execRefillRequest q b s = .next (s.requested q.val b.val x.start ((s.win q.val b.val).at_ x.start).rep k
      ((x.start + ((s.win q.val b.val).at_ x.start).rep * x.len + f.reach (requestAt f.head half k)) / 16) (f.askedHalf half k)) := by
    unfold State.win at hr ⊢
    unfold execRefillRequest
    simp only [hs, hr, he, Option.any_none, Bool.false_eq_true, if_false]
    rfl
  refine ⟨_, hx, ?_⟩
  simp only [requested_win, ask_requests, requested_now _ _ _ _ _ _ hn, true_and]
  intro hk
  rw [ask_even hk]
  exact ⟨rfl, rfl⟩

/-- A window of whose first half `n` more granules land without an error (R146). -/
def StreamWin.landFirst (n : Nat) (w : StreamWin) : StreamWin := { w with a := { w.a with landed := min w.a.asked (w.a.landed + n) } }

/-- Granules of the first half land, where it has some to come and the second has none. -/
theorem exec_refillLand_first {q : Fin 256} {b : Fin 8} {n : Fin 8192} {s : State} {x : Playing} {f : Folio} {half : Nat} {w : StreamWin}
    (hs : s.streaming q.val b.val = some (x, f, half)) (hw : ((s.settle q.val b.val s.now).win q.val b.val).at_ x.start = w)
    (ha : w.a.landed < w.a.asked) (hb : w.b.asked ≤ w.b.landed) :
    ∃ t : State, exec (.refillLand q b n none) s = .next (t.modWin q.val b.val fun _ => w.landFirst n.val) := by
  unfold State.win at hw
  show ∃ t : State, execRefillLand q b n none s = .next (t.modWin _ _ _)
  unfold execRefillLand
  simp only [hs, hw, ha, hb, decide_true, Bool.true_or, Bool.and_true, if_true, Option.isSome_none, Bool.false_and, Bool.false_eq_true,
    if_false]
  exact ⟨_, rfl⟩

theorem refillLand_lands (q : Fin 256) (b : Fin 8) (n : Fin 8192) (x : Playing) (f : Folio) (half : Nat) :
    Completes (.refillLand q b n none)
    (fun s => s.streaming q.val b.val = some (x, f, half) ∧ (s.win q.val b.val).start = x.start ∧
      (s.win q.val b.val).a.landed < (s.win q.val b.val).a.asked ∧ (s.win q.val b.val).b.asked ≤ (s.win q.val b.val).b.landed)
    fun s t => (t.win q.val b.val).a.landed = min (s.win q.val b.val).a.asked ((s.win q.val b.val).a.landed + n.val) := by
  rintro s ⟨hs, hst, ha, hb⟩
  obtain ⟨pa, pb, hw⟩ := settle_win q b s.now hs
  have hat : (s.win q.val b.val).at_ x.start = s.win q.val b.val := if_pos hst
  have hat' : ((s.win q.val b.val).passed pa pb).at_ x.start = (s.win q.val b.val).passed pa pb := if_pos hst
  obtain ⟨t, hx⟩ := exec_refillLand_first (n := n) hs (w := (s.win q.val b.val).passed pa pb) (by rw [hw, hat, hat']) ha hb
  refine ⟨_, hx, ?_⟩
  dsimp only
  rw [win_modWin]
  rfl

/-! ## Shelf words in error (R141) -/

theorem shelfEccError_corrects (q : Fin 256) (g : Fin 57344) (w : Fin 32) : Completes (.shelfEccError q g w true) (fun _ => True)
    fun s t => (t.shelfOf (dieOf (seqCluster q.val))).corrected = (s.shelfOf (dieOf (seqCluster q.val))).corrected + 1 ∧
      t.seqs = s.seqs := by
  rintro s -
  have hx : execShelfEccError q g w true s =
      .next (s.modShelf (dieOf (seqCluster q.val)) fun h => { h with corrected := h.corrected + 1 }) := rfl
  exact ⟨_, hx, by rw [shelfOf_modShelf_same _ _ _ (seqDie_lt q)], by simp⟩

/-- A Shelf with one more word in error. -/
def Shelf.fault (g w : Nat) (h : Shelf) : Shelf :=
  { h with uncorrectable := h.uncorrectable + 1, bad := if h.bad.contains (g, w) then h.bad else (g, w) :: h.bad }

theorem fault_bad (g w : Nat) (h : Shelf) : (h.fault g w).bad.contains (g, w) = true := by
  unfold Shelf.fault; dsimp only
  split
  next hc => exact hc
  next => simp

/-- The Shelf of a sequencer's die has one more word in error. -/
def State.shelfFault (q : Fin 256) (g w : Nat) (s : State) : State :=
  (s.hearCluster s.now (seqCluster q.val)).modShelf (dieOf (seqCluster q.val)) (Shelf.fault g w)

theorem shelfFault_shelfOf (q : Fin 256) (g w : Nat) (s : State) : (s.shelfFault q g w).shelfOf (dieOf (seqCluster q.val)) =
    (s.shelfOf (dieOf (seqCluster q.val))).fault g w := by
  rw [State.shelfFault, shelfOf_modShelf_same _ _ _ (seqDie_lt q), shelfOf_congr (s := s) (by simp)]

/-- TN is set in a shot. -/
def State.taintShot (q : Nat) (s : State) : State :=
  if (s.sq q).inShot then s.modSeq q fun c => { c with f := setFlag c.f flagTN true } else s

/-- A flag that is set reads as set. -/
theorem flagOf_setFlag (f : BitVec 6) : flagOf (setFlag f flagTN true) flagTN = true := by
  have h : Nat.testBit 32 5 = true := by decide
  simp [flagOf, setFlag, flagTN, Nat.testBit_or, h]

theorem taintShot_flag (q : Fin 256) {s : State} (h : (s.sq q.val).inShot = true) :
    flagOf ((s.taintShot q.val).sq q.val).f flagTN = true := by
  rw [State.taintShot, if_pos h, sq_modSeq_same _ _ _ q.isLt]
  exact flagOf_setFlag _

/-- A taint is written into the sequencers alone. -/
@[simp] theorem taintShot_frame (q : Nat) (s : State) : (s.taintShot q).wave = s.wave ∧ (s.taintShot q).units = s.units := by
  unfold State.taintShot
  split <;> exact ⟨rfl, rfl⟩

/-- An uncorrectable word taints the shot that plays it, and a repair from the Stacks is asked for (R141). -/
def State.wordFails (q : Fin 256) (g w : Nat) (s : State) : State :=
  let s := (s.shelfFault q g w).taintShot q.val
  { s with units := { s.units with repairs := s.units.repairs ++ [Repair.shelf (dieOf (seqCluster q.val)) g] } }

theorem wordFails_shelfOf (q : Fin 256) (g w : Nat) (s : State) : (s.wordFails q g w).shelfOf (dieOf (seqCluster q.val)) =
    (s.shelfOf (dieOf (seqCluster q.val))).fault g w := by
  rw [shelfOf_congr (s := s.shelfFault q g w) (by simp [State.wordFails]), shelfFault_shelfOf]

theorem wordFails_flag (q : Fin 256) (g w : Nat) {s : State} (h : (s.sq q.val).inShot = true) :
    flagOf ((s.wordFails q g w).sq q.val).f flagTN = true := by
  rw [← sq_congr (t := s.shelfFault q g w) (by simp [State.shelfFault])] at h
  exact taintShot_flag q h

theorem wordFails_repairs (q : Fin 256) (g w : Nat) (s : State) :
    (s.wordFails q g w).units.repairs = s.units.repairs ++ [.shelf (dieOf (seqCluster q.val)) g] := by
  simp [State.wordFails, State.shelfFault]

theorem units_troubleOwned (w : Fin 16) (b : Nat) (o : Fin 8) (s : State) : (s.troubleOwned w b o).units = s.units := by simp

theorem shelfEccError_taints (q : Fin 256) (g : Fin 57344) (w : Fin 32) : Completes (.shelfEccError q g w false)
    (fun s => (s.sq q.val).inShot = true)
    fun s t => (t.shelfOf (dieOf (seqCluster q.val))).uncorrectable = (s.shelfOf (dieOf (seqCluster q.val))).uncorrectable + 1 ∧
      (t.shelfOf (dieOf (seqCluster q.val))).bad.contains (g.val, w.val) = true ∧
      flagOf (t.sq q.val).f flagTN = true ∧ t.units.repairs = s.units.repairs ++ [.shelf (dieOf (seqCluster q.val)) g.val] ∧
      bitAt t.trouble[(dieWord (dieOf (seqCluster q.val))).val] 3 = true := by
  intro s hs
  have hx : execShelfEccError q g w false s = .next ((s.wordFails q g.val w.val).troubleOwned (dieWord (dieOf (seqCluster q.val))) 3
      ((s.wordFails q g.val w.val).seqOwner q.val)) := rfl
  refine ⟨_, hx, ?_⟩
  dsimp only
  rw [shelfOf_congr (s := s.wordFails q g.val w.val) (by simp), wordFails_shelfOf, sq_troubleOwned,
    units_troubleOwned, wordFails_repairs]
  exact ⟨rfl, fault_bad _ _ _, wordFails_flag q _ _ hs, rfl, troubleOwned_bit _ 3 _ _ (by decide)⟩

/-- Settles O31: a copy's end places its runs and completes the open SHELF_PIN, a request and a landing write the window of their binding,
which settling it leaves but for the granules passed, and a word in error is counted on its Shelf. -/
theorem waveformEventsComplete : Obligations.WaveformEventsComplete :=
  ⟨shelfCopyEnd_places, shelfCopyEnd_finds_bad, refillRequest_asks, refillLand_lands, shelfEccError_corrects, shelfEccError_taints⟩

end Sys2Proof.Machine
end

section
/-!
PROOFS. Reading a line, a demodulation slot and the use of a spare ADC core after a change of one of them (chapter 6).
-/
namespace Sys2Proof.Machine

/-- A line is read from the readout chain alone. -/
theorem ln_congr {s t : State} (h : t.readout = s.readout) (l : Nat) : t.ln l = s.ln l := by simp [State.ln, h]

/-- A demodulation slot is read from the readout chain alone. -/
theorem dm_congr {s t : State} (h : t.readout = s.readout) (k : Nat) : t.dm k = s.dm k := by simp [State.dm, h]

/-- The use of a spare ADC core is read from the readout chain alone. -/
theorem adcSpare_congr {s t : State} (h : t.readout = s.readout) (k : Nat) : t.adcSpare k = s.adcSpare k := by
  simp [State.adcSpare, h]

@[simp] theorem ln_modLine_same (l : Nat) (f : Line → Line) (s : State) (h : l < 32) : (s.modLine l f).ln l = f (s.ln l) := by
  simp [State.ln, State.modLine, h]

/-- Any line after a change of one. -/
theorem ln_modLine (l j : Nat) (f : Line → Line) (s : State) : (s.modLine l f).ln j = if l = j ∧ j < 32 then f (s.ln j) else s.ln j :=
  atN_updN _ _ _ _ _

@[simp] theorem dm_modDemod_same (k : Nat) (f : DemodSlot → DemodSlot) (s : State) (h : k < 512) :
    (s.modDemod k f).dm k = f (s.dm k) := by
  simp [State.dm, State.modDemod, h]

@[simp] theorem dm_modDemod_ne {k j : Nat} (f : DemodSlot → DemodSlot) (s : State) (h : j ≠ k) : (s.modDemod k f).dm j = s.dm j :=
  atN_updN_ne _ _ _ _ _ h.symm

@[simp] theorem ln_modDemod (k l : Nat) (f : DemodSlot → DemodSlot) (s : State) : (s.modDemod k f).ln l = s.ln l := rfl

@[simp] theorem dm_modLine (l k : Nat) (f : Line → Line) (s : State) : (s.modLine l f).dm k = s.dm k := rfl

@[simp] theorem adcSpare_modLine (l k : Nat) (f : Line → Line) (s : State) : (s.modLine l f).adcSpare k = s.adcSpare k := rfl

@[simp] theorem adcSpare_setAdcSpare (k : Nat) (u : SpareUse) (s : State) (h : k < 8) : (s.setAdcSpare k u).adcSpare k = u := by
  simp [State.adcSpare, State.setAdcSpare, h]

@[simp] theorem ln_setAdcSpare (k l : Nat) (u : SpareUse) (s : State) : (s.setAdcSpare k u).ln l = s.ln l := rfl

@[simp] theorem ln_modEst (e l : Nat) (f : Est → Est) (s : State) : (s.modEst e f).ln l = s.ln l := rfl

theorem readout_modLine (l : Nat) (f : Line → Line) (s : State) :
    (s.modLine l f).readout = { s.readout with line := updN s.readout.line l f } := rfl

theorem readout_modDemod (k : Nat) (f : DemodSlot → DemodSlot) (s : State) :
    (s.modDemod k f).readout = { s.readout with demod := updN s.readout.demod k f } := rfl

/-- A commit leaves the readout chain as the effect has it. -/
theorem commit_readout (s0 : State) (f : Fetched) (a : BitVec 32) (e : Effect) : (State.commit s0 f a e).readout = e.st.readout := by
  simp

theorem entry_readout (c : Command) (p : Packet) (s : State) : (c.entry p s).readout = s.readout := by simp

theorem commit_ln (s0 : State) (f : Fetched) (a : BitVec 32) (e : Effect) (l : Nat) : (State.commit s0 f a e).ln l = e.st.ln l :=
  ln_congr (commit_readout s0 f a e) l

theorem commit_dm (s0 : State) (f : Fetched) (a : BitVec 32) (e : Effect) (k : Nat) : (State.commit s0 f a e).dm k = e.st.dm k :=
  dm_congr (commit_readout s0 f a e) k

@[simp] theorem entry_ln (c : Command) (p : Packet) (l : Nat) (s : State) : (c.entry p s).ln l = s.ln l :=
  ln_congr (entry_readout c p s) l

@[simp] theorem entry_dm (c : Command) (p : Packet) (k : Nat) (s : State) : (c.entry p s).dm k = s.dm k :=
  dm_congr (entry_readout c p s) k

/-! ## Fields that name lines and slots -/

theorem rcLine_lt (a : Word) : rcLine a < 32 := fld_lt a 62 58

theorem rcSlot_lt (a : Word) : rcSlot a < 512 := by
  have hl := rcLine_lt a
  have hr : fld a 56 53 < 16 := fld_lt a 56 53
  unfold rcSlot
  omega

theorem klSlot_lt (w : Word) : klSlot w < 512 := by
  have hl : fld w 63 59 < 32 := fld_lt w 63 59
  have hr : fld w 58 55 < 16 := fld_lt w 58 55
  unfold klSlot
  omega

theorem demodLine_lt (k : Fin 512) : demodLine k.val < 32 := by
  have := k.isLt
  unfold demodLine
  omega

theorem lineCluster_lt (l : Fin 32) : lineCluster l.val < 8 := by
  have := l.isLt
  unfold lineCluster
  omega

end Sys2Proof.Machine
end

section
/-!
PROOFS. What READOUT_CONFIG, KERNEL_LOAD and DISCRIM_CONFIG do (group 0x06: R150, R157, R159, R168).
-/
namespace Sys2Proof.Machine

/-! ## READOUT_CONFIG (Tables 6.6 and 6.7) -/

/-- READOUT_CONFIG applies its records in payload order. -/
theorem readoutConfig_st (p : Packet) (s : State) : (readoutConfigCmd.eff s p).st = (rcList p).foldl State.rcApply s := rfl

/-- READOUT_CONFIG leaves the command state alone. -/
theorem readoutConfig_host (p : Packet) (s : State) : (readoutConfigCmd.eff s p).st.host = s.host := by
  rw [readoutConfig_st]
  exact foldl_host _ (fun s r => by simp) _ s

/-- READOUT_CONFIG with one record. -/
theorem readoutConfig_one {p : Packet} {a b : Word} (h : rcList p = [(a, b)]) (s : State) :
    (readoutConfigCmd.eff s p).st = s.rcApply (a, b) := by
  rw [readoutConfig_st, h]; rfl

/-- A query changes nothing, and replies the word of its line or slot (Table 6.7). -/
theorem readoutConfig_queries {p : Packet} {a b : Word} (h : rcList p = [(a, b)]) (hq : rcQuery a = true) (s : State) :
    (readoutConfigCmd.eff s p).st = s ∧ (readoutConfigCmd.eff s p).status = 0 ∧ (readoutConfigCmd.eff s p).later = false ∧
      (readoutConfigCmd.eff s p).long = false ∧ (readoutConfigCmd.eff s p).reply = some [s.rcWord a] := by
  simp [readoutConfigCmd, h, State.rcApply, hq]

/-- The reply word is read from the readout chain alone. -/
theorem rcWord_congr {s t : State} (h : t.readout = s.readout) (a : Word) : t.rcWord a = s.rcWord a := by
  simp [State.rcWord, State.adcFree, ln_congr h, dm_congr h, adcSpare_congr h, h]

/-- POWER of a line touches its power and its blanks, and nothing that waits in its queues (R150). -/
theorem setPower_values (t : Nat) (on : Bool) (x : Line) : (x.setPower t on).power = on ∧ (x.setPower t on).values = x.values := by
  unfold Line.setPower
  split
  · exact ⟨‹on = x.power›.symm, rfl⟩
  · cases on <;> exact ⟨rfl, rfl⟩

/-- A record of a line takes ZONE and POWER at once (R150). -/
theorem rcApply_line {a : Word} (b : Word) (hq : rcQuery a = false) (hl : rcIsLine a = true) (s : State) :
    ((s.rcApply (a, b)).ln (rcLine a)).zone = bitAt a 56 ∧ ((s.rcApply (a, b)).ln (rcLine a)).power = bitAt a 55 ∧
      ((s.rcApply (a, b)).ln (rcLine a)).values = (s.ln (rcLine a)).values ∧ (s.rcApply (a, b)).readout.demod = s.readout.demod := by
  obtain ⟨hp, hv⟩ := setPower_values s.now (bitAt a 55) (s.ln (rcLine a))
  simp [State.rcApply, hq, hl, rcLine_lt, hp, hv, readout_modLine]

/-- The settings that a record of a slot writes (Table 6.6). -/
def DemodSet.configure (a b : Word) (x : DemodSet) : DemodSet :=
  { x with role := bitAt a 52, est := bitAt a 51, ovrinv := bitAt a 50, nochk := bitAt a 49, ftw := a.setWidth 48, foff := hi32 b }

/-- A record of a slot writes the shadow copy (R168). -/
theorem rcApply_slot {a : Word} (b : Word) (hq : rcQuery a = false) (hl : rcIsLine a = false) (s : State) :
    s.rcApply (a, b) = s.modDemod (rcSlot a) fun d => { d with shadow := d.shadow.configure a b } := by
  simp [State.rcApply, hq, hl, DemodSet.configure]

theorem readoutConfig_answers (p : Packet) : Answers (.readoutConfig p) readoutConfigCmd p fun s t => ∀ a b, rcList p = [(a, b)] →
    (rcQuery a = true → t.readout = s.readout ∧ Posted p (s.host.accept + 1) 0 (some [s.rcWord a]) t) ∧
    (rcQuery a = false → rcIsLine a = true → (t.ln (rcLine a)).zone = bitAt a 56 ∧ (t.ln (rcLine a)).power = bitAt a 55 ∧
      (t.ln (rcLine a)).values = (s.ln (rcLine a)).values ∧ t.readout.demod = s.readout.demod) ∧
    (rcQuery a = false → rcIsLine a = false → (t.dm (rcSlot a)).shadow.role = bitAt a 52 ∧ (t.dm (rcSlot a)).shadow.est = bitAt a 51 ∧
      (t.dm (rcSlot a)).shadow.ftw = a.setWidth 48 ∧ (t.dm (rcSlot a)).shadow.foff = hi32 b ∧
      (t.dm (rcSlot a)).shadow.kernel = (s.dm (rcSlot a)).shadow.kernel ∧ (t.dm (rcSlot a)).active = (s.dm (rcSlot a)).active ∧
      t.readout.line = s.readout.line) := by
  refine answers_of (fun _ => rfl) fun s hr => ⟨by simp [readoutConfig_host], fun a b h => ⟨fun hq => ?_, fun hq hl => ?_, fun hq hl => ?_⟩⟩
  · obtain ⟨hst, h0, hla, hlo, hre⟩ := readoutConfig_queries h hq (readoutConfigCmd.entry p s)
    have hp := ready_posted hr hla hlo (by simp [hst]) (by simp [hst])
    rw [h0, hre, rcWord_congr (entry_readout readoutConfigCmd p s)] at hp
    exact ⟨by rw [commit_readout, hst, entry_readout], hp⟩
  · obtain ⟨hz, hp, hv, hd⟩ := rcApply_line b hq hl (readoutConfigCmd.entry p s)
    rw [commit_ln, commit_readout, readoutConfig_one h]
    exact ⟨hz, hp, by rw [hv, entry_ln], by rw [hd, entry_readout]⟩
  · rw [commit_dm, commit_readout, readoutConfig_one h, rcApply_slot b hq hl, dm_modDemod_same _ _ _ (rcSlot_lt a), entry_dm,
      readout_modDemod, entry_readout]
    exact ⟨rfl, rfl, rfl, rfl, rfl, rfl, rfl⟩

/-! ## KERNEL_LOAD (Table 6.8) -/

/-- A kernel in the shadow copy of a slot, from granule `a` of the Shelf on (R157). -/
def DemodSlot.loadKernel (l : Words) (a : Nat) (x : DemodSlot) : DemodSlot := { x with shadow := { x.shadow with kernel := l, kaddr := a } }

/-- KERNEL_LOAD writes the kernel of its slot, and nothing else of the readout chain; its granules stand on the Shelf. -/
theorem kernelLoad_readout (p : Packet) (s : State) : ∃ a, (kernelLoadCmd.eff s p).st.readout =
    (s.modDemod (klSlot (wordAt p.payload 0)) (DemodSlot.loadKernel (p.payload.drop 1) a)).readout := by
  unfold kernelLoadCmd; dsimp only
  split
  · exact ⟨0, by simp only [State.freeKernels_frame]; rfl⟩
  · exact ⟨_, by simp only [State.freeKernels_frame]; rfl⟩

/-- KERNEL_LOAD leaves the command state alone. -/
theorem kernelLoad_host (p : Packet) (s : State) : (kernelLoadCmd.eff s p).st.host = s.host := by simp [kernelLoadCmd]

theorem kernelLoad_answers (p : Packet) : Answers (.kernelLoad p) kernelLoadCmd p fun s t =>
    let k := klSlot (wordAt p.payload 0)
    (t.dm k).shadow.kernel = p.payload.drop 1 ∧ (t.dm k).shadow.ftw = (s.dm k).shadow.ftw ∧ (t.dm k).active = (s.dm k).active ∧
      ∀ j, j ≠ k → t.dm j = s.dm j := by
  refine answers_of (fun _ => rfl) fun s _ => ⟨by simp [kernelLoad_host], ?_⟩
  obtain ⟨a, ha⟩ := kernelLoad_readout p (kernelLoadCmd.entry p s)
  dsimp only
  simp only [commit_dm, dm_congr ha]
  rw [dm_modDemod_same _ _ _ (klSlot_lt _), entry_dm]
  exact ⟨rfl, rfl, rfl, fun j hj => by rw [dm_modDemod_ne _ _ hj, entry_dm]⟩

/-! ## DISCRIM_CONFIG (Table 6.9) -/

/-- DISCRIM_CONFIG with one record writes the discriminator of its slot (R159). -/
theorem discrimConfig_one {p : Packet} (h : fld (wordAt p.payload 0) 63 54 = 1) (s : State) : (discrimConfigCmd.eff s p).st =
    s.modDemod (klSlot (dcWord p 0 0)) fun x => { x with shadow := { x.shadow with disc := dcRead p 0 } } := by
  unfold discrimConfigCmd; dsimp only
  rw [h]; rfl

/-- DISCRIM_CONFIG leaves the command state alone. -/
theorem discrimConfig_host (p : Packet) (s : State) : (discrimConfigCmd.eff s p).st.host = s.host :=
  foldl_host _ (fun s i => by simp) _ s

theorem discrimConfig_answers (p : Packet) : Answers (.discrimConfig p) discrimConfigCmd p fun s t => fld (wordAt p.payload 0) 63 54 = 1 →
    let k := klSlot (dcWord p 0 0)
    (t.dm k).shadow.disc = dcRead p 0 ∧ (t.dm k).shadow.kernel = (s.dm k).shadow.kernel ∧ (t.dm k).active = (s.dm k).active ∧
      ∀ j, j ≠ k → t.dm j = s.dm j := by
  refine answers_of (fun _ => rfl) fun s _ => ⟨by simp [discrimConfig_host], fun h => ?_⟩
  dsimp only
  simp only [commit_dm, discrimConfig_one h]
  rw [dm_modDemod_same _ _ _ (klSlot_lt _), entry_dm]
  exact ⟨rfl, rfl, rfl, fun j hj => by rw [dm_modDemod_ne _ _ hj, entry_dm]⟩

/-- Settles O33: the committed state has the readout chain of the effect, which has changed the line or the shadow copy that a record
names; a query replies from it. -/
theorem readoutCommandsComplete : Obligations.ReadoutCommandsComplete :=
  ⟨readoutConfig_answers, kernelLoad_answers, discrimConfig_answers⟩

end Sys2Proof.Machine
end

section
/-!
PROOFS. What the events of the readout chain do: settling, windows with and without a result, discriminator words and value lanes, and the
spare ADC core of a cluster (R150, R155 to R167, R198).
-/
namespace Sys2Proof.Machine

/-! ## The settling of a line (R150) -/

theorem lineSettleEnd_settles (l : Fin 32) (n : Nat) : Completes (.lineSettleEnd l) (fun s => (s.ln l.val).settleAt = some n)
    fun s t => (t.ln l.val).settleAt = none ∧ (t.ln l.val).zone = (s.ln l.val).zone := by
  intro s h
  refine ⟨_, show execLineSettleEnd l s = _ by unfold execLineSettleEnd; rw [if_neg (by simp [h])], ?_⟩
  dsimp only
  rw [ln_congr (foldl_readout _ (fun s o => by simp) _ _), ln_modLine_same _ _ _ l.isLt]
  exact ⟨rfl, rfl⟩

/-! ## Windows (R152, R155, R156) -/

theorem shut_dm (k : Fin 512) (w : Window) (s : State) : (s.shut k.val w).dm k.val =
    { s.dm k.val with windows := (s.dm k.val).windows.erase w, closed := (s.dm k.val).closed + 1 } :=
  dm_modDemod_same _ _ _ k.isLt

/-- The decimated samples of a window are the same where it closes: no sample depends on how far the clock has run. -/
theorem demodulate_shut (k : Fin 512) (v w : Window) (n : Nat) (codes : List (BitVec 12)) (s : State) :
    ((s.runTo n).shut k.val v).demodulate k.val w codes = s.demodulate k.val w codes := by
  have ht : ((s.runTo n).shut k.val v).lineTrim (demodLine k.val) = s.lineTrim (demodLine k.val) := rfl
  have hz : ((s.runTo n).shut k.val v).time.zeroAt = s.time.zeroAt := rfl
  unfold State.demodulate
  rw [ht, hz, shut_dm]
  rfl

/-- The over-range samples of a window are the same where it closes. -/
theorem overIn_shut (k : Nat) (v w : Window) (n : Nat) (codes : List (BitVec 12)) (s : State) :
    ((s.runTo n).shut k v).overIn k w codes = s.overIn k w codes := rfl

theorem troubleOwned_readout (w : Fin 16) (b : Nat) (o : Fin 8) (s : State) : (s.troubleOwned w b o).readout = s.readout := by simp

/-- An over-range window is counted by its slot, and nothing else of the slot changes (R152). -/
theorem overRange_dm (k : Fin 512) (b : Bool) (n : BitVec 32) (s : State) : (s.overRange k.val b n).dm k.val =
    { s.dm k.val with outOfRange := if b then satAdd 16 (s.dm k.val).outOfRange 1 else (s.dm k.val).outOfRange } := by
  cases b
  · rfl
  · rw [State.overRange, if_pos rfl, dm_congr (troubleOwned_readout _ _ _ _), dm_modDemod_same _ _ _ k.isLt]
    rfl

/-- The line of an over-range window counts its samples (R152). -/
theorem overRange_ln (k : Fin 512) (b : Bool) (n : BitVec 32) (s : State) : (s.overRange k.val b n).ln (demodLine k.val) =
    { s.ln (demodLine k.val) with overSamples := (s.ln (demodLine k.val)).overSamples + n } := by
  have h := ln_modLine_same (demodLine k.val) (fun x => { x with overSamples := x.overSamples + n }) s (demodLine_lt k)
  cases b
  · exact h
  · rw [State.overRange, if_pos rfl, ln_congr (troubleOwned_readout _ _ _ _), ln_modDemod, h]

theorem overRange_absent (k : Nat) (b : Bool) (n : BitVec 32) (s : State) :
    (s.overRange k b n).readout.absent = s.readout.absent := by
  cases b
  · rfl
  · rw [State.overRange, if_pos rfl, troubleOwned_readout]
    rfl

@[simp] theorem overRange_now (k : Nat) (b : Bool) (n : BitVec 32) (s : State) : (s.overRange k b n).now = s.now :=
  State.now_congr (by simp)

/-- The value that a window of slot `k` forms as it closes (R155, R156); its y, its samples and its over-range mark are the
model's choice (logs 47, 192 and 193). -/
def State.valueOf (s : State) (k : Nat) (w : Window) (codes : List (BitVec 12)) : Value :=
  let y := integrate (s.dm k).active.kernel (s.demodulate k w codes)
  { slot := k, yi := y.1, yq := y.2, close := w.last, outOfRange := s.overIn k w codes, taint := s.taintOf w
    win := { w with outOfRange := s.overIn k w codes }, est := (s.dm k).active.est, ovrinv := (s.dm k).active.ovrinv
    done_ := w.last + 31, z := s.demodulate k w codes }

/-- The field of the slot in the discriminator word of a value (R159, R160). -/
def State.discWordOf (s : State) (k : Nat) (v : Value) : DiscWord :=
  let c := (s.dm k).active.disc.classify (v.yi, v.yq)
  { slot := k, state := c.1, valid := c.2 && !(v.outOfRange && v.ovrinv), win := v.win, hub := v.close + 43 }

/-- A value is queued, and its state stands in the discriminator word unless the slot's source is the estimator. -/
def State.queueValue (k : Nat) (v : Value) (s : State) : State := s.modLine (demodLine k) fun x => { x with
  values := x.values ++ [v]
  words := if v.est then x.words else x.words ++ [s.discWordOf k v] }

theorem exec_windowClose {k : Fin 512} {w : Window} {s : State} (h : s.firstWindow k.val = some w) (codes : List (BitVec 12))
    (n : BitVec 32) :
    let u := (s.runTo w.last).shut k.val w
    execWindowClose k codes n s = .next ((u.queueValue k.val (u.valueOf k.val w codes)).overRange k.val (u.overIn k.val w codes) n) := by
  unfold execWindowClose
  rw [h]
  rfl

theorem windowClose_closes (k : Fin 512) (codes : List (BitVec 12)) (n : BitVec 32) (w : Window) : Completes (.windowClose k codes n)
    (fun s => s.firstWindow k.val = some w ∧ s.now ≤ w.last)
    fun s t => t.now = w.last ∧ (t.dm k.val).windows = (s.dm k.val).windows.erase w ∧
      (t.dm k.val).closed = (s.dm k.val).closed + 1 ∧
      ∃ v, (t.ln (demodLine k.val)).values = (s.ln (demodLine k.val)).values ++ [v] ∧ v.slot = k.val ∧ v.close = w.last ∧
        v.outOfRange = s.overIn k.val w codes ∧ v.done_ = w.last + 31 ∧
        (t.dm k.val).outOfRange = (if s.overIn k.val w codes then satAdd 16 (s.dm k.val).outOfRange 1 else (s.dm k.val).outOfRange) ∧
        v.z = s.demodulate k.val w codes ∧ (v.yi, v.yq) = integrate (s.dm k.val).active.kernel (s.demodulate k.val w codes) := by
  rintro s ⟨hw, hn⟩
  refine ⟨_, exec_windowClose hw codes n, ?_⟩
  have hz := demodulate_shut k w w w.last codes s
  have hk : (((s.runTo w.last).shut k.val w).dm k.val).active.kernel = (s.dm k.val).active.kernel := by rw [shut_dm]; rfl
  dsimp only
  rw [overRange_dm, overRange_ln, State.queueValue, ln_modLine_same _ _ _ (demodLine_lt k), dm_modLine, shut_dm, overRange_now]
  refine ⟨State.runTo_now _ s hn, rfl, rfl, _, rfl, rfl, rfl, overIn_shut k.val w w w.last codes s, rfl, rfl, hz, ?_⟩
  unfold State.valueOf
  rw [hz, hk]

/-! ## Windows without a result (R163, R198) -/

/-- A window that closes without a result is due an ABSENT packet; the captures take their datum. -/
theorem closeAbsent_readout (k : Nat) (w : Window) (t : Nat) (z : Words) (s : State) :
    (s.closeAbsent k w t z).readout = { s.readout with absent := s.readout.absent ++ [(k, w, t)] } := by
  simp [State.closeAbsent]

theorem closeAbsent_ln (k : Nat) (w : Window) (t : Nat) (z : Words) (l : Nat) (s : State) : (s.closeAbsent k w t z).ln l = s.ln l := by
  simp [State.ln, closeAbsent_readout]

theorem closeAbsent_dm (k : Nat) (w : Window) (t : Nat) (z : Words) (j : Nat) (s : State) : (s.closeAbsent k w t z).dm j = s.dm j := by
  simp [State.dm, closeAbsent_readout]

theorem exec_windowClosedNoResult {k : Fin 512} {w : Window} {m : Nat} {s : State}
    (hw : (s.dm k.val).windows.find? (fun w => ((s.ln (demodLine k.val)).noResult w).isSome) = some w)
    (hm : (s.ln (demodLine k.val)).noResult w = some m) (codes : List (BitVec 12)) (n : BitVec 32) :
    execWindowClosedNoResult k codes n s = .next (((((s.runTo m).shut k.val w).closeAbsent k.val
      { w with outOfRange := s.overIn k.val w codes } m (((s.runTo m).demodulate k.val w codes).take ((m + 2 - w.start) / 2)))).overRange
        k.val (s.overIn k.val w codes) n) := by
  unfold execWindowClosedNoResult; dsimp only
  rw [hw]
  simp only [hm]
  rfl

theorem windowClosedNoResult_closes (k : Fin 512) (codes : List (BitVec 12)) (m : BitVec 32) (w : Window) (n : Nat) :
    Completes (.windowClosedNoResult k codes m)
    (fun s => (s.dm k.val).windows.find? (fun w => ((s.ln (demodLine k.val)).noResult w).isSome) = some w ∧
      (s.ln (demodLine k.val)).noResult w = some n ∧ s.now ≤ n)
    fun s t => t.now = n ∧ (t.dm k.val).windows = (s.dm k.val).windows.erase w ∧
      t.readout.absent = s.readout.absent ++ [(k.val, { w with outOfRange := s.overIn k.val w codes }, n)] ∧
      (t.dm k.val).outOfRange = (if s.overIn k.val w codes then satAdd 16 (s.dm k.val).outOfRange 1 else (s.dm k.val).outOfRange) ∧
      (t.ln (demodLine k.val)).values = (s.ln (demodLine k.val)).values := by
  rintro s ⟨hw, hm, hn⟩
  refine ⟨_, exec_windowClosedNoResult hw hm codes m, ?_⟩
  dsimp only
  rw [overRange_dm, overRange_ln, overRange_absent, overRange_now, closeAbsent_dm, closeAbsent_ln, closeAbsent_readout, shut_dm]
  exact ⟨(State.now_congr (by simp)).trans (State.runTo_now n s hn), rfl, rfl, rfl, rfl⟩

/-- A formed verdict is placed on the buses of its cluster, its die and the device (R198). -/
theorem formVerdict_flight (k F : Nat) (w : Window) (packet : Word) (s : State) : (s.formVerdict k F w packet).fabric.flight =
    s.fabric.flight ++ [⟨packet, F, .cluster⟩, ⟨packet, F + 12, .die⟩, ⟨packet, F + 24, .device⟩] := by
  simp [State.formVerdict]

@[simp] theorem formVerdict_now (k F : Nat) (w : Window) (packet : Word) (s : State) : (s.formVerdict k F w packet).now = s.now :=
  State.now_congr (by simp)

/-- A bit outside a field is clear in the field's word. -/
theorem bitAt_put_outside {hi lo n : Nat} (v : Nat) (h : n < lo ∨ hi < n) : bitAt (put hi lo v) n = false := by
  simp only [bitAt, put, BitVec.toNat_ofNat, Nat.testBit_mod_two_pow, Nat.testBit_shiftLeft, Bool.and_eq_false_iff, decide_eq_false_iff_not]
  omega

/-- The bit that a flag writes. -/
theorem bitAt_putB {n : Nat} (b : Bool) (h : n < 64) : bitAt (putB n b) n = b := by
  cases b
  · simp [putB, bitAt]
  · simpa [putB] using bitAt_or_put 0 n h

/-- A flag at bit `m` writes no other bit. -/
theorem bitAt_putB_ne {m n : Nat} (b : Bool) (h : n ≠ m) : bitAt (putB m b) n = false := by
  cases b
  · simp [putB, bitAt]
  · exact bitAt_put_outside 1 (by omega)

theorem bitAt_union (x y : Word) (n : Nat) : bitAt (x ||| y) n = (bitAt x n || bitAt y n) := by simp [bitAt]

/-- A bit of a word that is put together is set where one of its fields sets it. -/
theorem bitAt_orAll (l : List Word) (n : Nat) : bitAt (orAll l) n = l.any (bitAt · n) := by
  have h (x : Word) : bitAt (l.foldl (· ||| ·) x) n = (bitAt x n || l.any (bitAt · n)) := by
    induction l generalizing x with
    | nil => simp
    | cons y l ih => rw [List.foldl_cons, ih, bitAt_union, List.any_cons, Bool.or_assoc]
  exact (h 0).trans (by simp [bitAt])

/-- VALID and ABSENT of a verdict packet are those that it is made with (Table 8.1). -/
theorem mkVerdict_flags (m l r state : Nat) (valid absent taint : Bool) (sst : Word) :
    vValid (mkVerdict m l r state valid absent taint sst) = valid ∧ vAbsent (mkVerdict m l r state valid absent taint sst) = absent := by
  simp [vValid, vAbsent, mkVerdict, bitAt_orAll, bitAt_put_outside, bitAt_putB, bitAt_putB_ne]

theorem absentVerdictFormation_forms (k : Fin 512) (d : Fin 5) (w : Window) (n : Nat) : Completes (.absentVerdictFormation k d)
    (fun s => s.readout.absent.find? (fun e => e.1 == k.val) = some (k.val, w, n) ∧ s.now ≤ n + d.val)
    fun s t => t.now = n + d.val ∧ t.readout.absent = s.readout.absent.erase (k.val, w, n) ∧
      ∃ packet, vValid packet = false ∧ vAbsent packet = true ∧ t.fabric.flight = s.fabric.flight ++
        [⟨packet, n + d.val, .cluster⟩, ⟨packet, n + d.val + 12, .die⟩, ⟨packet, n + d.val + 24, .device⟩] := by
  rintro s ⟨hw, hn⟩
  refine ⟨_, show execAbsentVerdictFormation k d s = _ by unfold execAbsentVerdictFormation; rw [hw], ?_⟩
  refine ⟨?_, ?_, _, (mkVerdict_flags _ _ _ _ _ _ _ _).1, (mkVerdict_flags _ _ _ _ _ _ _ _).2, formVerdict_flight _ _ _ _ _⟩
  · rw [formVerdict_now]
    exact State.runTo_now _ s hn
  · simp

/-! ## Discriminator words and value lanes (R160 to R162) -/

theorem discriminatorWordArrival_takes (l : Fin 32) (n : Nat) : Completes (.discriminatorWordArrival l)
    (fun s => minTick ((s.ln l.val).words.map (·.hub)) = some n ∧ s.now ≤ n)
    fun s t => t.now = n ∧ (t.ln l.val).words = (s.ln l.val).words.filter fun y => y.hub != n := by
  rintro s ⟨hw, hn⟩
  refine ⟨_, show execDiscriminatorWordArrival l s = _ by unfold execDiscriminatorWordArrival; dsimp only; rw [hw], ?_⟩
  dsimp only
  rw [State.now_congr (foldl_time _ (fun s x => by simp) _ _), ln_congr (foldl_readout _ (fun s x => by simp) _ _),
    ln_modLine_same _ _ _ l.isLt]
  exact ⟨State.runTo_now n s hn, rfl⟩

/-- A dropped value counts for its line; what the line has sent and its discriminator words stay (R161). -/
theorem dropValue_ln (v : Value) (l : Nat) (s : State) :
    ((s.dropValue v).ln l).sentAt = (s.ln l).sentAt ∧ ((s.dropValue v).ln l).words = (s.ln l).words := by
  have h : (s.dropValue v).ln l = (s.modLine (demodLine v.slot) fun x => { x with drops := satAdd 16 x.drops 1 }).ln l :=
    ln_congr (by simp [State.dropValue]) l
  rw [h, ln_modLine]
  split <;> exact ⟨rfl, rfl⟩

theorem valueArrival_sends (l : Fin 32) (n : Nat) : Completes (.valueArrival l)
    (fun s => (s.ln l.val).sendTick = some n ∧ s.now ≤ n + 4)
    fun s t => t.now = n + 4 ∧ (t.ln l.val).sentAt = some n ∧ (t.ln l.val).words = (s.ln l.val).words := by
  rintro s ⟨hs, hn⟩
  refine ⟨_, show execValueArrival l s = _ by unfold execValueArrival; dsimp only; rw [hs], ?_⟩
  dsimp only
  rw [ln_modEst, foldl_keeps (fun s => (s.ln l.val).sentAt) _ fun s v => (dropValue_ln v _ s).1,
    foldl_keeps (fun s => (s.ln l.val).words) _ fun s v => (dropValue_ln v _ s).2,
    ln_congr (foldl_readout _ (fun s v => by simp) _ _), ln_modLine_same _ _ _ l.isLt]
  exact ⟨(State.now_congr (by simp)).trans (State.runTo_now _ s hn), rfl, rfl⟩

/-! ## A core fault, and the spare that takes its line (R166, R167) -/

/-- A core fault in tick `f` takes from a line the values and words of the windows that end too late (R163). -/
def Line.loseLate (f : Nat) (x : Line) : Line :=
  { x with values := x.values.filter (fun v => !decide (f ≤ v.win.last + 31)), words := x.words.filter fun y => !decide (f ≤ y.win.last + 31) }

theorem faultWindows_ln (l : Fin 32) (f : Nat) (s : State) : (s.faultWindows l.val f).ln l.val = (s.ln l.val).loseLate f := by
  unfold State.faultWindows; dsimp only
  rw [foldl_keeps (fun s => s.ln l.val) _ fun s e => closeAbsent_ln _ _ _ _ _ s, ln_modLine_same _ _ _ l.isLt]
  rfl

theorem faultWindows_spares (l f : Nat) (s : State) : (s.faultWindows l f).readout.spareFailed = s.readout.spareFailed := by
  unfold State.faultWindows; dsimp only
  rw [foldl_keeps (fun s => s.readout.spareFailed) _ fun s e => by rw [closeAbsent_readout]]
  rfl

/-- The report of a core fault: its trouble bit, a record and a vector (R166). -/
def State.reportAdc (l : Nat) (s : State) : State :=
  ((s.setTrouble (dieWord (dieOf (lineCluster l))) (40 + l % 8)).note (lineRec l 1)).raiseLine 8 l

theorem reportAdc_readout (l : Nat) (s : State) : (s.reportAdc l).readout = s.readout := by simp [State.reportAdc]

theorem reportAdc_trouble (l : Nat) (s : State) :
    bitAt (s.reportAdc l).trouble[(dieWord (dieOf (lineCluster l))).val] (40 + l % 8) = true := by
  have h := note_keeps (dieWord (dieOf (lineCluster l))) (40 + l % 8) (setTrouble_bit _ _ s (by omega)) (lineRec l 1)
  simpa [State.reportAdc] using h

/-- A core fault on a line that its own core serves (R166): the windows that it reaches close without a result, the fault is reported,
and the core is out of service. -/
def State.adcFault (l : Fin 32) (s : State) : State :=
  (((s.modLine l.val fun x => { x with faultAt := some s.now, faultEnd := s.now + 10028 }).faultWindows l.val s.now).reportAdc l.val).modLine
    l.val fun x => { x with coreFailed := true }

theorem adcFault_ln (l : Fin 32) (s : State) : (s.adcFault l).ln l.val =
    { (s.ln l.val).loseLate s.now with faultAt := some s.now, faultEnd := s.now + 10028, coreFailed := true } := by
  rw [State.adcFault, ln_modLine_same _ _ _ l.isLt, ln_congr (reportAdc_readout _ _), faultWindows_ln, ln_modLine_same _ _ _ l.isLt]
  rfl

theorem adcFault_trouble (l : Fin 32) (s : State) :
    bitAt (s.adcFault l).trouble[(dieWord (dieOf (lineCluster l.val))).val] (40 + l.val % 8) = true := by
  unfold State.adcFault
  simpa only [State.modLine_frame] using reportAdc_trouble l.val _

theorem adcFault_spares (l : Fin 32) (s : State) : (s.adcFault l).readout.spareFailed = s.readout.spareFailed := by
  rw [State.adcFault, readout_modLine, reportAdc_readout, faultWindows_spares, readout_modLine]

/-- The spare starts for a line in tick `f`: zero replaces the line's data from f + 2 until the spare serves it (R166). -/
def State.spareStarts (l f : Nat) (s : State) : State :=
  ((s.modLine l (Line.silence (f + 2) (some (f + 10016)) true)).modLine l fun x => { x with faultEnd := f + 10028 }).setAdcSpare (lineCluster l)
    (.starting l f)

theorem spareStarts_ln (l : Fin 32) (f : Nat) (s : State) : (s.spareStarts l.val f).ln l.val =
    { (s.ln l.val).silence (f + 2) (some (f + 10016)) true with faultEnd := f + 10028 } := by
  rw [State.spareStarts, ln_setAdcSpare, ln_modLine_same _ _ _ l.isLt, ln_modLine_same _ _ _ l.isLt]

theorem spareStarts_trouble (l f : Nat) (s : State) : (s.spareStarts l f).trouble = s.trouble := rfl

theorem spareStarts_adcSpare (l : Fin 32) (f : Nat) (s : State) :
    (s.spareStarts l.val f).adcSpare (lineCluster l.val) = .starting l.val f := adcSpare_setAdcSpare _ _ _ (lineCluster_lt l)

/-- A line that has gone silent in tick `a` is blank there. -/
theorem silence_blank {a b : Nat} (h : a < b) (fault : Bool) (x : Line) : (x.silence a (some b) fault).blank a = true := by
  simp [Line.silence, Line.blank, h]

theorem spareStarts_blank (l : Fin 32) (f : Nat) (s : State) : ((s.spareStarts l.val f).ln l.val).blank (f + 2) = true := by
  rw [spareStarts_ln]
  exact silence_blank (by omega) true (s.ln l.val)

theorem exec_adcCoreFault_free {l : Fin 32} {s : State} (hf : (s.ln l.val).failed = false) (hp : (s.ln l.val).power = true)
    (ho : (s.ln l.val).onSpare = false) (hk : s.hasCluster (lineCluster l.val) = true)
    (hs : atN s.readout.spareFailed (lineCluster l.val) false = false) (hu : s.adcSpare (lineCluster l.val) = .free)
    (hh : s.calHead (dieOf (lineCluster l.val)) = none) :
    execAdcCoreFault l s = .next ((s.adcFault l).spareStarts l.val s.now) := by
  have hh' : ((s.adcFault l).spareStarts l.val s.now).calHead (dieOf (lineCluster l.val)) = none :=
    (show ((s.adcFault l).spareStarts l.val s.now).calHead _ = s.calHead _ by
      simp [State.calHead, State.calOf, State.spareStarts, State.adcFault, State.reportAdc]).trans hh
  have hs' : atN (s.adcFault l).readout.spareFailed (lineCluster l.val) false = false := by rw [adcFault_spares, hs]
  rw [← calAbandon_idle _ (lineCluster l.val) false _ hh']
  unfold execAdcCoreFault; dsimp only
  rw [hu, if_neg (by simp [hf, hp, hk]), if_neg (by simp [ho]), ← State.reportAdc, ← State.adcFault, if_neg (by rw [hs']; decide)]
  dsimp only [SpareUse.covered]
  rw [State.spareStarts]

theorem adcCoreFault_starts_spare (l : Fin 32) : Completes (.adcCoreFault l)
    (fun s => (s.ln l.val).failed = false ∧ (s.ln l.val).power = true ∧ (s.ln l.val).onSpare = false ∧
      s.hasCluster (lineCluster l.val) = true ∧ atN s.readout.spareFailed (lineCluster l.val) false = false ∧
      s.adcSpare (lineCluster l.val) = .free ∧ s.calHead (dieOf (lineCluster l.val)) = none)
    fun s t => (t.ln l.val).coreFailed = true ∧ (t.ln l.val).faultAt = some s.now ∧ (t.ln l.val).failed = false ∧
      t.adcSpare (lineCluster l.val) = .starting l.val s.now ∧ (t.ln l.val).blank (s.now + 2) = true ∧
      (t.ln l.val).faultEnd = s.now + 10028 ∧ bitAt t.trouble[(dieWord (dieOf (lineCluster l.val))).val] (40 + l.val % 8) = true := by
  rintro s ⟨hf, hp, ho, hk, hs, hu, hh⟩
  refine ⟨_, exec_adcCoreFault_free hf hp ho hk hs hu hh, ?_⟩
  dsimp only
  have hb := spareStarts_blank l s.now (s.adcFault l)
  have ht := adcFault_trouble l s
  rw [← spareStarts_trouble l.val s.now] at ht
  rw [spareStarts_ln, adcFault_ln] at hb ⊢
  exact ⟨rfl, rfl, hf, spareStarts_adcSpare l _ _, hb, rfl, ht⟩

/-- The spare serves the line from tick `n` on (R166). -/
def State.adcServes (l : Fin 32) (n : Nat) (s : State) : State :=
  ((((s.runTo n).setAdcSpare (lineCluster l.val) (.serving l.val)).modLine l.val fun x => { x with onSpare := true }).note
    (lineRec l.val 2)).raiseLine 8 l.val

theorem adcServes_readout (l : Fin 32) (n : Nat) (s : State) : (s.adcServes l n).readout =
    ((s.setAdcSpare (lineCluster l.val) (.serving l.val)).modLine l.val fun x => { x with onSpare := true }).readout := by
  simp only [State.adcServes, State.raiseLine_frame, State.note_frame]
  rfl

theorem adcServes_now (l : Fin 32) (n : Nat) (s : State) (h : s.now ≤ n) : (s.adcServes l n).now = n :=
  (State.now_congr (s := s.runTo n) (by simp [State.adcServes])).trans (State.runTo_now n s h)

theorem adcFaultSwapEnd_serves (l : Fin 32) (n : Nat) : Completes (.adcFaultSwapEnd l)
    (fun s => s.adcSpare (lineCluster l.val) = .starting l.val n ∧ s.now ≤ n + 10016)
    fun _ t => t.now = n + 10016 ∧ t.adcSpare (lineCluster l.val) = .serving l.val ∧ (t.ln l.val).onSpare = true := by
  rintro s ⟨hu, hn⟩
  have hx : execAdcFaultSwapEnd l s = .next (s.adcServes l (n + 10016)) := by
    unfold execAdcFaultSwapEnd; dsimp only; rw [hu]; exact if_pos rfl
  refine ⟨_, hx, adcServes_now l _ s hn, ?_, ?_⟩
  · rw [adcSpare_congr (adcServes_readout l _ s), adcSpare_modLine, adcSpare_setAdcSpare _ _ _ (lineCluster_lt l)]
  · rw [ln_congr (adcServes_readout l _ s), ln_modLine_same _ _ _ l.isLt]

/-! ## Planned swaps (R165) -/

theorem adcPlannedSwap_swaps (l : Fin 32) (n : Nat) : Completes (.adcPlannedSwap l)
    (fun s => s.adcSpare (lineCluster l.val) = .ready l.val n ∧ s.rawRuns l.val s.now = false)
    fun s t => t.adcSpare (lineCluster l.val) = .swapping l.val s.now false := by
  rintro s ⟨hu, hr⟩
  have hx : execAdcPlannedSwap l s = .next (s.setAdcSpare (lineCluster l.val) (.swapping l.val s.now false)) := by
    unfold execAdcPlannedSwap; dsimp only; rw [hu]; exact if_pos (by simp [hr])
  exact ⟨_, hx, adcSpare_setAdcSpare _ _ _ (lineCluster_lt l)⟩

/-- The spare has taken over the line in tick `n`, and the run of its die measures the line's own core (Table 6.4). -/
def State.adcCovers (l : Fin 32) (n : Nat) (s : State) : State :=
  let s := ((s.runTo n).settleTrims.setAdcSpare (lineCluster l.val) (.covering l.val)).modLine l.val fun x => { x with onSpare := true }
  (s.modCal (dieOf (lineCluster l.val)) fun c => { c with run := c.run.map (CalRun.started s.now c.temp) }).raiseLine 8 l.val

theorem adcCovers_now (l : Fin 32) (n : Nat) (s : State) (h : s.now ≤ n) : (s.adcCovers l n).now = n :=
  (State.now_congr (s := s.runTo n) (by simp [State.adcCovers])).trans (State.runTo_now n s h)

theorem adcCovers_readout (l : Fin 32) (n : Nat) (s : State) : (s.adcCovers l n).readout =
    ((s.setAdcSpare (lineCluster l.val) (.covering l.val)).modLine l.val fun x => { x with onSpare := true }).readout := by
  simp only [State.adcCovers, State.raiseLine_frame]
  rfl

theorem adcPlannedSwapEnd_covers (l : Fin 32) (n : Nat) : Completes (.adcPlannedSwapEnd l)
    (fun s => s.adcSpare (lineCluster l.val) = .swapping l.val n false ∧ s.now ≤ n + 16)
    fun _ t => t.now = n + 16 ∧ t.adcSpare (lineCluster l.val) = .covering l.val ∧ (t.ln l.val).onSpare = true := by
  rintro s ⟨hu, hn⟩
  have hx : execAdcPlannedSwapEnd l s = .next (s.adcCovers l (n + 16)) := by
    unfold execAdcPlannedSwapEnd; dsimp only
    rw [hu]
    exact if_neg (fun h => h rfl)
  refine ⟨_, hx, adcCovers_now l _ s hn, ?_, ?_⟩
  · rw [adcSpare_congr (adcCovers_readout l _ s), adcSpare_modLine, adcSpare_setAdcSpare _ _ _ (lineCluster_lt l)]
  · rw [ln_congr (adcCovers_readout l _ s), ln_modLine_same _ _ _ l.isLt]

/-- Settles O34: each event runs the clock to its tick and writes its line, its slot or the spare of its cluster; what it reports, and
what enters the captures, leaves the readout chain as written. -/
theorem readoutEventsComplete : Obligations.ReadoutEventsComplete :=
  ⟨lineSettleEnd_settles, windowClose_closes, windowClosedNoResult_closes, absentVerdictFormation_forms, discriminatorWordArrival_takes,
    valueArrival_sends, adcCoreFault_starts_spare, adcFaultSwapEnd_serves, adcPlannedSwap_swaps, adcPlannedSwapEnd_covers⟩

end Sys2Proof.Machine
end

section
/-!
PROOFS. What the readout chain and the estimators leave alone (chapters 6 and 7): each command and event is a few writes of what it
serves, which the frame lemmas of the shared operations decide.
-/
namespace Sys2Proof.Machine

/-- A choice keeps what both of its outcomes keep. -/
theorem keeps_ite {l : List Part} {s : State} {a b : Res} {c : Prop} [Decidable c] (ha : Keeps l s a) (hb : Keeps l s b) :
    Keeps l s (if c then a else b) := by
  split <;> assumption

/-! ## Readout (chapter 6) -/

theorem readoutConfig_frame (p : Packet) : Frame (.readoutConfig p) (withReport [.readout]) :=
  frame_of (c := readoutConfigCmd) (fun _ => rfl) (by simp) fun s => by simp [readoutConfig_st, only_iff]

theorem kernelLoad_frame (p : Packet) : Frame (.kernelLoad p) (withReport [.readout, .wave]) :=
  frame_of (c := kernelLoadCmd) (fun _ => rfl) (by simp) fun s => by simp [kernelLoadCmd, only_iff]

theorem discrimConfig_frame (p : Packet) : Frame (.discrimConfig p) (withReport [.readout]) :=
  frame_of (c := discrimConfigCmd) (fun _ => rfl) (by simp) fun s => by simp [discrimConfigCmd, only_iff]

theorem lineSettleEnd_frame (l : Fin 32) : Frame (.lineSettleEnd l) (withReport [.readout]) := fun s => by
  show Keeps _ s (execLineSettleEnd l s)
  unfold execLineSettleEnd; dsimp only
  split <;> simp [only_iff]

theorem windowClose_frame (k : Fin 512) (z : List (BitVec 12)) (n : BitVec 32) :
    Frame (.windowClose k z n) (withReport [.time, .readout]) := fun s => by
  show Keeps _ s (execWindowClose k z n s)
  unfold execWindowClose
  split <;> simp [only_iff]

theorem windowClosedNoResult_frame (k : Fin 512) (z : List (BitVec 12)) (n : BitVec 32) :
    Frame (.windowClosedNoResult k z n) (withReport [.time, .readout, .acq]) := fun s => by
  show Keeps _ s (execWindowClosedNoResult k z n s)
  unfold execWindowClosedNoResult; dsimp only
  split <;> simp [only_iff]

theorem absentVerdictFormation_frame (k : Fin 512) (d : Fin 5) :
    Frame (.absentVerdictFormation k d) (withReport [.time, .readout, .fabric, .acq]) := fun s => by
  show Keeps _ s (execAbsentVerdictFormation k d s)
  unfold execAbsentVerdictFormation
  split <;> simp [only_iff]

theorem discriminatorWordArrival_frame (l : Fin 32) :
    Frame (.discriminatorWordArrival l) (withReport [.time, .readout, .fabric, .acq]) := fun s => by
  show Keeps _ s (execDiscriminatorWordArrival l s)
  unfold execDiscriminatorWordArrival; dsimp only
  split <;> simp [only_iff]

theorem valueArrival_frame (l : Fin 32) : Frame (.valueArrival l) (withReport [.time, .readout, .est, .acq]) := fun s => by
  show Keeps _ s (execValueArrival l s)
  unfold execValueArrival; dsimp only
  split <;> simp [only_iff]

theorem adcCoreFault_frame (l : Fin 32) : Frame (.adcCoreFault l) (withReport [.readout, .acq, .synth, .bias, .cal]) := fun s => by
  show Keeps _ s (execAdcCoreFault l s)
  unfold execAdcCoreFault; dsimp only
  refine keeps_ite (by simp [only_iff]) (keeps_ite (keeps_ite ?_ ?_) (keeps_ite ?_ ?_))
  · simp [only_iff]
  · simp [only_iff]
  · simp [only_iff]
  · split
    · simp [only_iff]
    · simp [only_iff]
    · split
      · split <;> simp [only_iff]
      · simp [only_iff]

theorem adcFaultSwapEnd_frame (l : Fin 32) : Frame (.adcFaultSwapEnd l) (withReport [.time, .readout]) := fun s => by
  show Keeps _ s (execAdcFaultSwapEnd l s)
  unfold execAdcFaultSwapEnd; dsimp only
  split
  · split <;> simp [only_iff]
  · simp [only_iff]

theorem adcPlannedSwap_frame (l : Fin 32) : Frame (.adcPlannedSwap l) [.readout] := fun s => by
  show Keeps _ s (execAdcPlannedSwap l s)
  unfold execAdcPlannedSwap; dsimp only
  split
  · split <;> simp [only_iff]
  · split <;> simp [only_iff]
  · simp [only_iff]

theorem adcPlannedSwapEnd_frame (l : Fin 32) :
    Frame (.adcPlannedSwapEnd l) [.time, .readout, .synth, .bias, .cal, .host] := fun s => by
  show Keeps _ s (execAdcPlannedSwapEnd l s)
  unfold execAdcPlannedSwapEnd; dsimp only
  split
  · split
    · simp [only_iff]
    · split <;> simp [only_iff]
  · simp [only_iff]

/-! ## Estimators (chapter 7) -/

theorem estLoad_frame (p : Packet) : Frame (.estLoad p) (withReport [.est]) :=
  frame_of (c := estLoadCmd) (fun _ => rfl) (by simp) fun s => by
    unfold estLoadCmd; dsimp only
    split <;> simp [only_iff]

theorem estStart_frame (p : Packet) : Frame (.estStart p) (withReport [.est]) :=
  frame_of (c := estStartCmd) (fun _ => rfl) (by simp) fun s => by
    unfold estStartCmd; dsimp only
    split
    · split <;> simp [only_iff]
    all_goals simp [only_iff]

/-- An instruction of an estimator, but for IDLE and POST: the word at the PC is that instruction and is executed, or nothing happens. A
fault on the way sets trouble bits and is reported (R188). -/
theorem estInstruction_frame (n : Fin 32) : ∀ i ∈ [Instr.estNop n, .vfma n, .vfms n, .vmul n, .vadd n, .vsub n, .vmin n, .vmax n, .vminx n,
    .vmaxx n, .vsum n, .vbc n, .movx n, .vmov n, .xop n, .xopi n, .liq n, .aadd n, .amov n, .vld n, .vst n, .xld n, .xst n, .vldb n,
    .estBr n, .brx n, .repeatN n, .repeatx n, .estDone n, .halt n], Frame i (withReport [.time, .est]) := by
  simp only [List.forall_mem_cons]
  refine ⟨?_, ?_, ?_, ?_, ?_, ?_, ?_, ?_, ?_, ?_, ?_, ?_, ?_, ?_, ?_, ?_, ?_, ?_, ?_, ?_, ?_, ?_, ?_, ?_, ?_, ?_, ?_, ?_, ?_, ?_,
    List.forall_mem_nil _⟩ <;>
  · intro s
    show Keeps _ s _
    simp only [exec, execEstNop, execVfma, execVfms, execVmul, execVadd, execVsub, execVmin, execVmax, execVminx, execVmaxx, execVsum,
      execVbc, execMovx, execVmov, execXop, execXopi, execLiq, execAadd, execAmov, execVld, execVst, execXld, execXst, execVldb, execEstBr,
      execBrx, execRepeatN, execRepeatx, execEstDone, execHalt]
    split <;> simp [only_iff]

theorem idle_frame (n : Fin 32) : Frame (.idle n) [.time, .est] := fun s => by
  show Keeps _ s (execIdle n s)
  unfold execIdle
  split <;> simp [only_iff]

/-- A POST forms a verdict, which flies in the fabric and enters the captures (R184). -/
theorem post_frame (n : Fin 32) : Frame (.post n) (withReport [.time, .est, .fabric, .acq]) := fun s => by
  show Keeps _ s (execPost n s)
  unfold execPost
  split <;> simp [only_iff]

theorem estimatorRequest_frame (n : Fin 32) : Frame (.estimatorRequest n) (withReport [.time, .est]) := fun s => by
  show Keeps _ s (execEstimatorRequest n s)
  unfold execEstimatorRequest; dsimp only
  split
  · simp [only_iff]
  · split <;> simp [only_iff]

theorem estimatorDispatch_frame (n : Fin 32) : Frame (.estimatorDispatch n) [.time, .est] := fun s => by
  show Keeps _ s (execEstimatorDispatch n s)
  unfold execEstimatorDispatch; dsimp only
  refine keeps_ite (by simp [only_iff]) ?_
  split
  · simp [only_iff]
  · refine keeps_ite ?_ (keeps_ite ?_ (keeps_ite ?_ (keeps_ite ?_ ?_))) <;> simp [only_iff]

theorem estimatorStop_frame (n : Fin 32) : Frame (.estimatorStop n) (withReport [.time, .est]) := fun s => by
  show Keeps _ s (execEstimatorStop n s)
  unfold execEstimatorStop; dsimp only
  split <;> simp [only_iff]

theorem estimatorProgramMemoryError_frame (n : Fin 32) (e : EstError) :
    Frame (.estimatorProgramMemoryError n e) (withReport [.time, .est, .units]) := fun s => by
  show Keeps _ s (execEstimatorProgramMemoryError n e s)
  unfold execEstimatorProgramMemoryError; dsimp only
  split
  · simp [only_iff]
  · split <;> simp [only_iff]
  · split <;> simp [only_iff]

theorem estimatorAutorestart_frame (n : Fin 32) : Frame (.estimatorAutorestart n) (withReport [.est, .units]) := fun s => by
  show Keeps _ s (execEstimatorAutorestart n s)
  unfold execEstimatorAutorestart; dsimp only
  split <;> simp [only_iff]

theorem pageSwap_frame (n : Fin 32) : Frame (.pageSwap n) [.time, .est] := fun s => by
  show Keeps _ s (execPageSwap n s)
  unfold execPageSwap; dsimp only
  split
  · simp [only_iff]
  split
  · simp [only_iff]
  · split <;> simp [only_iff]

theorem pageCopyEnd_frame (n : Fin 32) : Frame (.pageCopyEnd n) [.time, .est] := fun s => by
  show Keeps _ s (execPageCopyEnd n s)
  unfold execPageCopyEnd
  split <;> simp [only_iff]

theorem debugEstimatorHalt_frame (n : Fin 32) : Frame (.debugEstimatorHalt n) [.time, .est] := fun s => by
  show Keeps _ s (execDebugEstimatorHalt n s)
  unfold execDebugEstimatorHalt; dsimp only
  split
  · simp [only_iff]
  · split <;> simp [only_iff]

/-- Settles O40: each command and event of the readout chain, and each instruction and event of an estimator, is a few writes of what
it serves, and its report. -/
theorem readoutFrame : Obligations.ReadoutFrame :=
  ⟨readoutConfig_frame, kernelLoad_frame, discrimConfig_frame, lineSettleEnd_frame, windowClose_frame, windowClosedNoResult_frame,
    absentVerdictFormation_frame, discriminatorWordArrival_frame, valueArrival_frame, adcCoreFault_frame, adcFaultSwapEnd_frame,
    adcPlannedSwap_frame, adcPlannedSwapEnd_frame, estLoad_frame, estStart_frame, estInstruction_frame, idle_frame, post_frame,
    estimatorRequest_frame, estimatorDispatch_frame, estimatorStop_frame, estimatorProgramMemoryError_frame, estimatorAutorestart_frame,
    pageSwap_frame, pageCopyEnd_frame, debugEstimatorHalt_frame⟩

end Sys2Proof.Machine
end

section
/-!
PROOFS. Reading an estimator after a change of one, and what an instruction that goes on makes of it: results that land (R179), the
next address (R180, R183), faults (R188), dropped requests (R181).
-/
namespace Sys2Proof.Machine

/-! ## Reading an estimator -/

/-- An estimator is read from the estimators alone. -/
theorem es_congr {s t : State} (h : t.est = s.est) (m : Nat) : t.es m = s.es m := by simp [State.es, h]

@[simp] theorem es_modEst_same (n : Nat) (f : Est → Est) (s : State) (h : n < 32) : (s.modEst n f).es n = f (s.es n) := by
  simp [State.es, State.modEst, h]

@[simp] theorem es_modEst_ne {n m : Nat} (f : Est → Est) (s : State) (h : m ≠ n) : (s.modEst n f).es m = s.es m :=
  atN_updN_ne _ _ _ _ _ h.symm

@[simp] theorem es_runTo (k m : Nat) (s : State) : (s.runTo k).es m = s.es m := rfl

@[simp] theorem es_estTrouble (n b m : Nat) (s : State) : (s.estTrouble n b).es m = s.es m := es_congr (by simp) m

@[simp] theorem es_note (r : LedgerRec) (m : Nat) (s : State) : (s.note r).es m = s.es m := es_congr (by simp) m

@[simp] theorem es_raiseMaybe (v : Nat) (o : Option (Fin 8)) (m : Nat) (s : State) : (s.raiseMaybe v o).es m = s.es m :=
  es_congr (by simp) m

/-- A change of one estimator depends on what the function makes of that estimator alone. -/
theorem modEst_congr {n : Nat} {f g : Est → Est} {s : State} (h : f (s.es n) = g (s.es n)) : s.modEst n f = s.modEst n g := by
  have e : updN s.est n f = updN s.est n g := by
    unfold updN
    split
    · next hn => simpa [upd, State.es, atN, hn] using congrArg (s.est.set n · hn) h
    · rfl
  rw [State.modEst, State.modEst, e]

/-- Two changes of one estimator are one. -/
theorem modEst_modEst (n : Nat) (f g : Est → Est) (s : State) : (s.modEst n f).modEst n g = s.modEst n fun e => g (f e) := by
  have e : updN (updN s.est n f) n g = updN s.est n fun e => g (f e) := by
    unfold updN
    split
    · simp [upd]
    · rfl
  exact congrArg (fun v => ({ s with est := v } : State)) e

theorem modEst_id (n : Nat) (s : State) : s.modEst n id = s := by
  have e : updN s.est n id = s.est := by
    unfold updN
    split
    · simp [upd]
    · rfl
  rw [State.modEst, e]

/-! ## Results in flight (R179) -/

/-- An estimator without its data: V, X, the memory and the results in flight. -/
def Est.bare (e : Est) : Est :=
  { e with v := Vector.replicate 32 (Vector.replicate 16 0), x := Vector.replicate 16 0, mem := [], flight := [] }

theorem Est.store_bare (l : Words) (a : Nat) (e : Est) : (e.store a l).bare = e.bare := by
  induction l generalizing a e with
  | nil => rfl
  | cons w l ih => rw [Est.store, ih]; rfl

theorem Est.landOne_bare (w : EstWrite) (e : Est) : (e.landOne w).bare = e.bare := by
  cases w with
  | v r x => rfl
  | x r w => rfl
  | mem a l => exact e.store_bare l a

theorem Est.foldl_landOne_bare (l : List (Nat × EstWrite)) (e : Est) : (l.foldl (fun e x => e.landOne x.2) e).bare = e.bare := by
  induction l generalizing e with
  | nil => rfl
  | cons x l ih => rw [List.foldl_cons, ih, Est.landOne_bare]

/-- Results that land change the data alone. -/
theorem Est.land_bare (c : Nat) (e : Est) : (e.land c).bare = e.bare := e.foldl_landOne_bare _

/-- What landing keeps. -/
@[simp] theorem Est.land_frame (c : Nat) (e : Est) :
    (e.land c).a = e.a ∧ (e.land c).pc = e.pc ∧ (e.land c).resume = e.resume ∧ (e.land c).reps = e.reps ∧ (e.land c).prog = e.prog ∧
    (e.land c).bank0 = e.bank0 ∧ (e.land c).bank1 = e.bank1 ∧ (e.land c).useBank1 = e.useBank1 ∧ (e.land c).dispatch = e.dispatch ∧
    (e.land c).queue = e.queue ∧ (e.land c).arriving = e.arriving ∧ (e.land c).entry = e.entry ∧ (e.land c).limit = e.limit ∧
    (e.land c).mode = e.mode ∧ (e.land c).autorestart = e.autorestart ∧ (e.land c).next = e.next ∧ (e.land c).gapEnd = e.gapEnd ∧
    (e.land c).branch = e.branch ∧ (e.land c).handler = e.handler ∧ (e.land c).stopWait = e.stopWait ∧ (e.land c).haltWait = e.haltWait ∧
    (e.land c).trace = e.trace ∧ (e.land c).pageSealed = e.pageSealed ∧ (e.land c).copyAt = e.copyAt ∧ (e.land c).fault = e.fault ∧
    (e.land c).faultPc = e.faultPc ∧ (e.land c).badAddr = e.badAddr ∧ (e.land c).handled = e.handled ∧ (e.land c).drops = e.drops ∧
    (e.land c).unposted = e.unposted ∧ (e.land c).holdMax = e.holdMax ∧ (e.land c).doubles = e.doubles ∧
    (e.land c).corrected = e.corrected := by
  have h := e.land_bare c
  simp only [Est.bare, Est.mk.injEq, true_and] at h
  simpa only [and_assoc] using h

/-! ## The next address (R180, R183, R188) -/

/-- An instruction that issued in cycle `c` is done with, and its own successor is `pc`: a delay slot, the target of a branch, or what
follows is due. -/
def Est.moved (c pc : Nat) (reps : List Rep) (e : Est) : Est :=
  match e.branch with
  | none => { e with pc := pc, reps := reps, next := c + 1 }
  | some (t, k) =>
    if 1 < k then { e with pc := pc, reps := reps, next := c + 1, branch := some (t, k - 1) }
    else match t with
      | some a => { e with pc := a, next := c + 1, branch := none }
      | none => { e with
          pc := e.resume, next := c + 5, gapEnd := c + 5, branch := none, handler := none
          unposted := if e.handler.any (fun h => !h.posted) then satAdd 16 e.unposted 1 else e.unposted }

theorem Est.moved_pc (c pc : Nat) (reps : List Rep) (e : Est) : (e.moved c pc reps).pc = e.goesTo pc := by
  unfold Est.moved Est.goesTo
  rcases e.branch with _ | ⟨t, k⟩
  · rfl
  · by_cases h : 1 < k
    · simp only [if_pos h]
    · simp only [if_neg h]
      cases t <;> rfl

/-- What the move to the next address keeps. -/
@[simp] theorem Est.moved_frame (c pc : Nat) (reps : List Rep) (e : Est) :
    (e.moved c pc reps).v = e.v ∧ (e.moved c pc reps).x = e.x ∧ (e.moved c pc reps).a = e.a ∧ (e.moved c pc reps).mem = e.mem ∧
    (e.moved c pc reps).flight = e.flight ∧ (e.moved c pc reps).bank0 = e.bank0 ∧ (e.moved c pc reps).bank1 = e.bank1 ∧
    (e.moved c pc reps).prog = e.prog ∧ (e.moved c pc reps).queue = e.queue ∧ (e.moved c pc reps).entry = e.entry ∧
    (e.moved c pc reps).limit = e.limit := by
  unfold Est.moved
  split
  · exact ⟨rfl, rfl, rfl, rfl, rfl, rfl, rfl, rfl, rfl, rfl, rfl⟩
  · split
    · exact ⟨rfl, rfl, rfl, rfl, rfl, rfl, rfl, rfl, rfl, rfl, rfl⟩
    · split <;> exact ⟨rfl, rfl, rfl, rfl, rfl, rfl, rfl, rfl, rfl, rfl, rfl⟩

/-- A debug halt that waits is taken where the core stands before an instruction that is no delay slot and in no repeat body (R192). -/
def Est.haltDue (e : Est) : Est := if e.haltWait && e.free && !e.ended && decide (e.mode = .running) then e.takeHalt else e

/-- A debug halt changes the mode and the wait for it, and nothing else. -/
theorem haltDue_eq (e : Est) : ∃ m w, e.haltDue = { e with mode := m, haltWait := w } := by
  unfold Est.haltDue
  split
  · exact ⟨_, _, rfl⟩
  · exact ⟨e.mode, e.haltWait, rfl⟩

theorem modEst_haltDue (n : Nat) (s : State) : s.modEst n Est.haltDue =
    if (s.es n).haltWait && (s.es n).free && !(s.es n).ended && decide ((s.es n).mode = .running) then s.modEst n Est.takeHalt else s := by
  split
  · next h => exact modEst_congr (if_pos h)
  · next h => exact (modEst_congr (f := Est.haltDue) (g := id) (if_neg h)).trans (modEst_id n s)

/-- The next address is due; out of the live range it is a fault (R188), and a halt that waits may be taken there (R192). -/
theorem estAdvance_eq (n c pc : Nat) (reps : List Rep) (s : State) : s.estAdvance n c pc reps =
    let u := s.modEst n (Est.moved c pc reps)
    if (u.es n).pc < (u.es n).entry ∨ (u.es n).limit < (u.es n).pc then u.estFault n (c + 1) 5 else u.modEst n Est.haltDue := by
  unfold State.estAdvance
  simp only [modEst_haltDue]
  rcases hb : (s.es n).branch with _ | ⟨_ | a, k⟩
  · rw [modEst_congr (g := Est.moved c pc reps) (by simp only [Est.moved, hb])]
  all_goals
    by_cases hk : 1 < k
    · simp only [if_pos hk]
      rw [modEst_congr (g := Est.moved c pc reps) (by simp only [Est.moved, hb, if_pos hk])]
    · simp only [if_neg hk]
      rw [modEst_congr (g := Est.moved c pc reps) (by simp only [Est.moved, hb, if_neg hk])]

/-- An instruction goes on to an address in the live range. -/
theorem estAdvance_inRange (n : Fin 32) (c pc : Nat) (reps : List Rep) (s : State)
    (h : (s.es n.val).inRange ((s.es n.val).goesTo pc) = true) :
    s.estAdvance n.val c pc reps = s.modEst n.val fun e => (e.moved c pc reps).haltDue := by
  have hr : ¬((s.es n.val).goesTo pc < (s.es n.val).entry ∨ (s.es n.val).limit < (s.es n.val).goesTo pc) := by
    simp only [Est.inRange, decide_eq_true_eq] at h
    omega
  have hu := es_modEst_same n.val (Est.moved c pc reps) s n.isLt
  rw [estAdvance_eq]
  dsimp only
  rw [if_neg (by simpa [hu, Est.moved_pc] using hr), modEst_modEst]

/-- An instruction of cycle `c` that does not branch is done with. -/
def Est.fell (c : Nat) (e : Est) : Est := (e.moved c (estNext e.pc e.reps).1 (estNext e.pc e.reps).2).haltDue

theorem Est.fell_pc (c : Nat) (e : Est) : (e.fell c).pc = e.flowsTo := by
  obtain ⟨m, w, h⟩ := haltDue_eq (e.moved c (estNext e.pc e.reps).1 (estNext e.pc e.reps).2)
  rw [Est.fell, h, Est.flowsTo]
  exact e.moved_pc _ _ _

/-- What falling through keeps. -/
@[simp] theorem Est.fell_frame (c : Nat) (e : Est) :
    (e.fell c).v = e.v ∧ (e.fell c).x = e.x ∧ (e.fell c).a = e.a ∧ (e.fell c).mem = e.mem ∧ (e.fell c).flight = e.flight ∧
    (e.fell c).bank0 = e.bank0 ∧ (e.fell c).bank1 = e.bank1 ∧ (e.fell c).prog = e.prog ∧ (e.fell c).queue = e.queue := by
  obtain ⟨m, w, h⟩ := haltDue_eq (e.moved c (estNext e.pc e.reps).1 (estNext e.pc e.reps).2)
  rw [Est.fell, h]
  simp

/-- An instruction falls through to the live range. -/
theorem estFall_inRange (n : Fin 32) (c : Nat) {s : State} (h : (s.es n.val).inRange (s.es n.val).flowsTo = true) :
    s.estFall n.val c = s.modEst n.val (Est.fell c) :=
  (estAdvance_inRange n c _ _ s h).trans (modEst_congr rfl)

/-! ## Requests that are dropped, and faults (R181, R188 to R190) -/

/-- `k` requests more count as dropped (R181). -/
def Est.dropped (k : Nat) (e : Est) : Est := if k = 0 then e else { e with drops := satAdd 16 e.drops k }

theorem dropped_eq (k : Nat) (e : Est) : ∃ d, e.dropped k = { e with drops := d } := by
  unfold Est.dropped
  split
  · exact ⟨e.drops, rfl⟩
  · exact ⟨_, rfl⟩

theorem estDrop_es (n k m : Nat) (s : State) : (s.estDrop n k).es m = (s.modEst n (Est.dropped k)).es m := by
  unfold State.estDrop
  split
  · next h => rw [modEst_congr (g := id) (by simp [Est.dropped, h]), modEst_id]
  · next h => rw [es_estTrouble, modEst_congr (g := Est.dropped k) (by simp [Est.dropped, h])]

/-- An estimator that has faulted in cycle `c` (R188). -/
def Est.faulted (c code : Nat) (e : Est) : Est :=
  ({ e.land (c + 4) with
    mode := .faulted, fault := code, faultPc := e.pc, queue := [], handler := none, branch := none, reps := [], stopWait := false
    haltWait := false } : Est).dropped (e.queue.length + b2n e.handler.isSome)

theorem estFault_es (n c code m : Nat) (s : State) : (s.estFault n c code).es m = (s.modEst n (Est.faulted c code)).es m := by
  unfold State.estFault
  simp only [es_raiseMaybe, es_note, es_estTrouble, estDrop_es, modEst_modEst]
  rw [modEst_congr (g := Est.faulted c code) (by simp [Est.faulted])]
  rfl

/-- A fault stops the core with its code at its PC, drops what is queued and leaves the address registers alone (R178, R188). -/
theorem estFault_faults (n : Fin 32) (c code : Nat) (s : State) :
    EstFaulted n.val code s (s.estFault n.val c code) ∧ ((s.estFault n.val c code).es n.val).a = (s.es n.val).a := by
  obtain ⟨d, hd⟩ := dropped_eq ((s.es n.val).queue.length + b2n (s.es n.val).handler.isSome) { (s.es n.val).land (c + 4) with
    mode := .faulted, fault := code, faultPc := (s.es n.val).pc, queue := [], handler := none, branch := none, reps := [], stopWait := false
    haltWait := false }
  have he : (s.estFault n.val c code).es n.val = _ := (estFault_es n.val c code n.val s).trans ((es_modEst_same _ _ _ n.isLt).trans hd)
  refine ⟨⟨?_, ?_, ?_, ?_, ?_, fun m hm => ?_⟩, ?_⟩
  · rw [he]
  · rw [he]
  · rw [he]
  · rw [he]
  · rw [he]
  · rw [estFault_es, es_modEst_ne _ _ hm]
  · rw [he]
    simp

/-- A trouble bit of an estimator that is set reads as set. -/
theorem estTrouble_bit (n b : Nat) (s : State) (h : b < 64) :
    bitAt (s.estTrouble n b).trouble[(clusterWord (lineCluster n)).val] b = true := by
  unfold State.estTrouble
  split
  · exact troubleOwned_bit _ b _ s h
  · exact setTrouble_bit _ b s h

/-- A fault sets the trouble bit of its cluster (R188). -/
theorem estFault_bit (n c code : Nat) (s : State) : bitAt (s.estFault n c code).trouble[(clusterWord (lineCluster n)).val] 4 = true := by
  unfold State.estFault; dsimp only
  simp only [State.raiseMaybe_frame]
  exact note_keeps _ 4 (estTrouble_bit n 4 _ (by decide)) _

/-! ## An instruction that issues, computes and goes on -/

/-- An estimator as an instruction that issues in cycle `c` finds it. -/
def Est.issued (c : Nat) (e : Est) : Est := { e.land c with trace := ((e.land c).pc :: (e.land c).trace).take 64 }

/-- What the issue of an instruction keeps. -/
@[simp] theorem Est.issued_frame (c : Nat) (e : Est) :
    (e.issued c).a = e.a ∧ (e.issued c).pc = e.pc ∧ (e.issued c).resume = e.resume ∧ (e.issued c).reps = e.reps ∧
    (e.issued c).queue = e.queue ∧ (e.issued c).entry = e.entry ∧ (e.issued c).limit = e.limit ∧ (e.issued c).branch = e.branch ∧
    (e.issued c).handler = e.handler ∧ (e.issued c).drops = e.drops ∧ (e.issued c).doubles = e.doubles := by
  simp [Est.issued]

theorem issue_es (n : Fin 32) (c : Nat) (s : State) : (s.estIssue n.val c).es n.val = (s.es n.val).issued c :=
  es_modEst_same _ _ _ n.isLt

theorem issue_es_ne {n m : Nat} (h : m ≠ n) (c : Nat) (s : State) : (s.estIssue n c).es m = s.es m := es_modEst_ne _ _ h

/-- An estimator without what instructions compute: its registers, its memory and the results in flight. -/
def Est.core (e : Est) : Est := { e.bare with a := Vector.replicate 8 0 }

/-- What an instruction makes of the estimator that issues it changes no more than its registers, its memory and the results in flight,
and does not depend on the trace. -/
structure Computes (g : Est → Est) : Prop where
  core : ∀ e, (g e).core = e.core
  trace : ∀ e l, g { e with trace := l } = { g e with trace := l }

theorem computes_id : Computes id := ⟨fun _ => rfl, fun _ _ => rfl⟩

theorem computes_result (c : Nat) {w : Est → EstWrite} (hw : ∀ e l, w { e with trace := l } = w e) :
    Computes fun e => e.result c (w e) :=
  ⟨fun _ => rfl, fun e l => by simp only [Est.result, hw]⟩

theorem computes_setA (r : Nat) {w : Est → BitVec 17} (hw : ∀ e l, w { e with trace := l } = w e) : Computes fun e => e.setA r (w e) :=
  ⟨fun _ => rfl, fun e l => by simp only [Est.setA, hw]⟩

/-- What a computation keeps. -/
theorem Computes.frame {g : Est → Est} (hg : Computes g) (e : Est) :
    (g e).pc = e.pc ∧ (g e).reps = e.reps ∧ (g e).branch = e.branch ∧ (g e).resume = e.resume ∧ (g e).entry = e.entry ∧
    (g e).limit = e.limit ∧ (g e).bank0 = e.bank0 ∧ (g e).bank1 = e.bank1 ∧ (g e).prog = e.prog ∧ (g e).queue = e.queue := by
  have h := hg.core e
  simp only [Est.core, Est.bare, Est.mk.injEq, true_and] at h
  simp [h]

/-- The estimator as an instruction that computes `g` leaves it, before it goes on. -/
theorem computed_es (n : Fin 32) {g : Est → Est} (hg : Computes g) (c : Nat) (s : State) :
    ∃ l, ((s.estIssue n.val c).modEst n.val g).es n.val = { g ((s.es n.val).land c) with trace := l } :=
  ⟨_, (es_modEst_same _ _ _ n.isLt).trans ((congrArg g (issue_es n c s)).trans (hg.trace _ _))⟩

/-- An instruction that computes `g` and falls through to the live range has done `g`. -/
theorem fall_did (n : Fin 32) {g : Est → Est} (hg : Computes g) {s : State} (h : (s.es n.val).inRange (s.es n.val).flowsTo = true) :
    EstDid n.val g s (((s.estIssue n.val (s.estCycle n.val)).modEst n.val g).estFall n.val (s.estCycle n.val)) := by
  obtain ⟨l, hu⟩ := computed_es n hg (s.estCycle n.val) s
  obtain ⟨hpc, hreps, hbranch, hresume, hentry, hlimit, hb0, hb1, hprog, hqueue⟩ := hg.frame ((s.es n.val).land (s.estCycle n.val))
  have hto : (((s.estIssue n.val (s.estCycle n.val)).modEst n.val g).es n.val).flowsTo = (s.es n.val).flowsTo := by
    simp [hu, Est.flowsTo, Est.goesTo, hpc, hreps, hbranch, hresume]
  have hin : (((s.estIssue n.val (s.estCycle n.val)).modEst n.val g).es n.val).inRange (s.es n.val).flowsTo = true := by
    simpa [hu, Est.inRange, hentry, hlimit] using h
  have ht := es_modEst_same n.val (Est.fell (s.estCycle n.val)) ((s.estIssue n.val (s.estCycle n.val)).modEst n.val g) n.isLt
  rw [estFall_inRange n _ (by rw [hto]; exact hin)]
  constructor
  case pc => rw [ht, Est.fell_pc, hto]
  case pages => simp [ht, hu, hb0, hb1, hprog]
  case queue => simp [ht, hu, hqueue]
  case others =>
    intro m hm
    simp [hm, issue_es_ne]
  all_goals simp [ht, hu, State.estAt]

/-- What an instruction has done depends on what it makes of the estimator that issues it alone. -/
theorem EstDid.congr {n : Nat} {f g : Est → Est} {s t : State} (h : EstDid n f s t) (e : f (s.estAt n) = g (s.estAt n)) :
    EstDid n g s t :=
  ⟨e ▸ h.v, e ▸ h.x, e ▸ h.a, e ▸ h.mem, e ▸ h.flight, h.pc, h.pages, h.queue, h.others⟩

end Sys2Proof.Machine
end

section
/-!
PROOFS. The instructions of an estimator that compute (R174 to R177, R179): each puts its result in flight with the latency of its
class, or writes an address register, and goes on.
-/
namespace Sys2Proof.Machine

/-- The command that issues an estimator instruction. -/
def EstIns.command (n : Fin 32) : EstIns → Instr
  | .nop => .estNop n
  | .vfma .. => .vfma n
  | .vfms .. => .vfms n
  | .vmul .. => .vmul n
  | .vadd .. => .vadd n
  | .vsub .. => .vsub n
  | .vmin .. => .vmin n
  | .vmax .. => .vmax n
  | .vminx .. => .vminx n
  | .vmaxx .. => .vmaxx n
  | .vsum .. => .vsum n
  | .vbc .. => .vbc n
  | .movx .. => .movx n
  | .vmov .. => .vmov n
  | .xop .. => .xop n
  | .xopi .. => .xopi n
  | .liq .. => .liq n
  | .aadd .. => .aadd n
  | .amov .. => .amov n
  | .vld .. => .vld n
  | .vst .. => .vst n
  | .xld .. => .xld n
  | .xst .. => .xst n
  | .vldb .. => .vldb n
  | .br .. => .estBr n
  | .brx .. => .brx n
  | .repeat_ .. => .repeatN n
  | .repeatx .. => .repeatx n
  | .post .. => .post n
  | .done_ => .estDone n
  | .idle => .idle n
  | .halt => .halt n

/-- The command of the instruction that the core issues next executes it. -/
theorem exec_command {n : Fin 32} {j : EstIns} {s : State} (h : (s.es n.val).ready = some j) :
    exec (j.command n) s = .next (s.doEst n.val j) := by
  cases j <;>
    simp only [EstIns.command, exec, execEstNop, execVfma, execVfms, execVmul, execVadd, execVsub, execVmin, execVmax, execVminx,
      execVmaxx, execVsum, execVbc, execMovx, execVmov, execXop, execXopi, execLiq, execAadd, execAmov, execVld, execVst, execXld,
      execXst, execVldb, execEstBr, execBrx, execRepeatN, execRepeatx, execPost, execEstDone, execIdle, execHalt, h, State.doEst]

/-- Where an instruction is the next that the core issues, its command completes as the instruction does. -/
theorem command_completes {n : Fin 32} (j : EstIns) {d : State → State} (hd : ∀ s, s.doEst n.val j = d s) {pre : State → Prop}
    {post : State → State → Prop} (hr : ∀ s, pre s → (s.es n.val).ready = some j) (h : ∀ s, pre s → post s (d s)) :
    Completes (j.command n) pre post := fun s hs => ⟨d s, (exec_command (hr s hs)).trans (by rw [hd]), h s hs⟩

/-- An instruction that falls through to the live range completes as it does. -/
theorem issue_completes {n : Fin 32} (j : EstIns) {post : State → State → Prop}
    (h : ∀ s : State, (s.es n.val).inRange (s.es n.val).flowsTo = true → post s (s.doEst n.val j)) :
    Completes (j.command n) (fun s => s.estIssues n.val j) post :=
  command_completes j (fun _ => rfl) (fun _ hs => hs.1) fun s hs => h s hs.2

section
variable {n : Fin 32} {s : State} (h : (s.es n.val).inRange (s.es n.val).flowsTo = true)
include h

theorem estNop_did : EstDid n.val id s (s.doEstNop n.val) := by
  have hd := fall_did n computes_id h
  rwa [modEst_id] at hd

/-- A vector result is in flight, visible `k` cycles later. -/
theorem estV_did (r k : Nat) {f : Est → Vector (BitVec 32) 16} (hf : ∀ e l, f { e with trace := l } = f e) :
    EstDid n.val (fun e => e.result (s.estCycle n.val + k) (.v r (f e))) s (s.estV n.val r k f) :=
  fall_did n (computes_result _ fun e l => by rw [hf]) h

/-- A scalar result is in flight, visible `k` cycles later. -/
theorem estX_did (r k : Nat) {f : Est → Word} (hf : ∀ e l, f { e with trace := l } = f e) :
    EstDid n.val (fun e => e.result (s.estCycle n.val + k) (.x r (f e))) s (s.estX n.val r k f) :=
  fall_did n (computes_result _ fun e l => by rw [hf]) h

/-- An address register is written (Table 7.5). -/
theorem estA_did (ad : Nat) {f : Est → BitVec 17} (hf : ∀ e l, f { e with trace := l } = f e) :
    EstDid n.val (fun e => e.setA ad (f e)) s (s.estA n.val ad f) :=
  fall_did n (computes_setA ad hf) h

end

/-- Settles O36: each instruction is of one of four classes, and what it computes does not depend on the trace that its issue writes. -/
theorem estimatorComputes : Obligations.EstimatorComputes :=
  ⟨fun _ => issue_completes .nop fun _ h => estNop_did h,
    fun _ vd va vb vc => issue_completes (.vfma vd va vb vc) fun _ h => estV_did h vd 4 fun _ _ => rfl,
    fun _ vd va vb vc => issue_completes (.vfms vd va vb vc) fun _ h => estV_did h vd 4 fun _ _ => rfl,
    fun _ vd va vb => issue_completes (.vmul vd va vb) fun _ h => estV_did h vd 4 fun _ _ => rfl,
    fun _ vd va vb => issue_completes (.vadd vd va vb) fun _ h => estV_did h vd 4 fun _ _ => rfl,
    fun _ vd va vb => issue_completes (.vsub vd va vb) fun _ h => estV_did h vd 4 fun _ _ => rfl,
    fun _ vd va vb => issue_completes (.vmin vd va vb) fun _ h => estV_did h vd 4 fun _ _ => rfl,
    fun _ vd va vb => issue_completes (.vmax vd va vb) fun _ h => estV_did h vd 4 fun _ _ => rfl,
    fun _ xd va xm => issue_completes (.vminx xd va xm) fun _ h => estX_did h xd 4 fun _ _ => rfl,
    fun _ xd va xm => issue_completes (.vmaxx xd va xm) fun _ h => estX_did h xd 4 fun _ _ => rfl,
    fun _ xd va xm => issue_completes (.vsum xd va xm) fun _ h => estX_did h xd 4 fun _ _ => rfl,
    fun _ vd xs half => issue_completes (.vbc vd xs half) fun _ h => estV_did h vd 1 fun _ _ => rfl,
    fun _ xd va lane => issue_completes (.movx xd va lane) fun _ h => estX_did h xd 1 fun _ _ => rfl,
    fun _ vd va => issue_completes (.vmov vd va) fun _ h => estV_did h vd 1 fun _ _ => rfl,
    fun _ xd xa xb fn => issue_completes (.xop xd xa xb fn) fun _ h => estX_did h xd 1 fun _ _ => rfl,
    fun _ xd xa fn imm => issue_completes (.xopi xd xa fn imm) fun _ h => estX_did h xd 1 fun _ _ => rfl,
    fun _ xd pos imm => issue_completes (.liq xd pos imm) fun _ h => estX_did h xd 1 fun _ _ => rfl,
    fun _ ad as_ imm => issue_completes (.aadd ad as_ imm) fun _ h => estA_did h ad fun _ _ => rfl,
    fun _ ad xs => issue_completes (.amov ad xs) fun _ h => estA_did h ad fun _ _ => rfl⟩

end Sys2Proof.Machine
end

section
/-!
PROOFS. The loads and stores of an estimator (R173, R178, R179): a legal address, or a program fault that leaves A alone.
-/
namespace Sys2Proof.Machine

/-- One computation after another. -/
theorem Computes.comp {f g : Est → Est} (hf : Computes f) (hg : Computes g) : Computes fun e => f (g e) :=
  ⟨fun e => (hf.core _).trans (hg.core e), fun e l => (congrArg f (hg.trace e l)).trans (hf.trace (g e) l)⟩

theorem computes_amWrite (m : Access) (a : Nat) : Computes (Est.amWrite m a) := by
  unfold Est.amWrite
  split
  · exact computes_setA m.a fun _ _ => rfl
  · exact computes_id

/-- The address that an access forms is the same before and after its issue. -/
theorem issue_addr (n : Fin 32) (m : Access) (s : State) :
    ((s.estIssue n.val (s.estCycle n.val)).es n.val).addr m = (s.estAt n.val).addr m := by
  rw [issue_es]
  rfl

/-- An access with a legal address has done what it does, and AM = 1 has written the address back. -/
theorem access_did {n : Fin 32} {s : State} (h : (s.es n.val).inRange (s.es n.val).flowsTo = true) {m : Access} {align : Nat} {store : Bool}
    (ha : accessOk ((s.estAt n.val).addr m) align store = true) {f : Nat → Nat → Est → Est} (hf : ∀ c a, Computes (f c a)) :
    EstDid n.val (fun e => (f (s.estCycle n.val) (e.addr m).toNat e).amWrite m (e.addr m).toNat) s (s.estAccess n.val m align store f) := by
  unfold State.estAccess; dsimp only
  rw [issue_addr, if_pos ha]
  exact (fall_did n ((computes_amWrite m _).comp (hf _ _)) h).congr rfl

/-- A fault in the issue of an instruction is a fault of the estimator as it was. -/
theorem issue_faults (n : Fin 32) (c code : Nat) (s : State) : EstFaulted n.val code s ((s.estIssue n.val c).estFault n.val c code) ∧
    (((s.estIssue n.val c).estFault n.val c code).es n.val).a = (s.es n.val).a := by
  obtain ⟨⟨hmode, hcode, hpc, hqueue, hhandler, hothers⟩, ha⟩ := estFault_faults n c code (s.estIssue n.val c)
  rw [issue_es] at hpc ha
  refine ⟨⟨hmode, hcode, ?_, hqueue, hhandler, fun m hm => ?_⟩, ?_⟩
  · simpa using hpc
  · rw [hothers m hm, issue_es_ne hm]
  · simpa using ha

/-- The addresses of R178 are those that the model refuses. -/
theorem accessOk_of_faults {e : Est} {m : Access} {size : Nat} {store : Bool} (h : AccessFaults e m size store) :
    ¬accessOk (e.addr m) size store = true := by
  simp only [accessOk, Bool.and_eq_true, Bool.not_eq_true', decide_eq_true_eq, decide_eq_false_iff_not, beq_iff_eq, Bool.and_eq_false_iff]
  rintro ⟨⟨⟨hr, ha⟩, hh⟩, hs⟩
  rcases h with h | h | h | h | ⟨rfl, h⟩
  · omega
  · omega
  · omega
  · exact h ha
  · simp at hs
    omega

theorem access_faults {n : Fin 32} {s : State} {m : Access} {size : Nat} {store : Bool} (h : AccessFaults (s.estAt n.val) m size store)
    (f : Nat → Nat → Est → Est) : EstAccessFaulted n.val s (s.estAccess n.val m size store f) := by
  unfold State.estAccess; dsimp only
  rw [issue_addr, if_neg (accessOk_of_faults h)]
  exact issue_faults n _ 1 s

/-- Settles O37: an access with a legal address computes and goes on, and every address of R178 is refused before A is written. -/
theorem estimatorMemory : Obligations.EstimatorMemory :=
  ⟨fun n r m => command_completes (.vld r m) (d := State.doVld n.val r m) (fun _ => rfl) (fun _ h => h.1.1) fun _ h =>
      access_did h.1.2 h.2 (f := fun c a e => e.result (c + 3) (.v r (lanesOf (e.loadLine a)))) fun _ _ => computes_result _ fun _ _ => rfl,
    fun n r m => command_completes (.vst r m) (d := State.doVst n.val r m) (fun _ => rfl) (fun _ h => h.1.1) fun _ h =>
      access_did h.1.2 h.2 (f := fun c a e => e.result (c + 2) (.mem a (lanesWords (e.vr r)))) fun _ _ => computes_result _ fun _ _ => rfl,
    fun n r m => command_completes (.xld r m) (d := State.doXld n.val r m) (fun _ => rfl) (fun _ h => h.1.1) fun _ h =>
      access_did h.1.2 h.2 (f := fun c a e => e.result (c + 3) (.x r (e.load a))) fun _ _ => computes_result _ fun _ _ => rfl,
    fun n r m => command_completes (.xst r m) (d := State.doXst n.val r m) (fun _ => rfl) (fun _ h => h.1.1) fun _ h =>
      access_did h.1.2 h.2 (f := fun c a e => e.result (c + 2) (.mem a [e.xr r])) fun _ _ => computes_result _ fun _ _ => rfl,
    fun n r m => command_completes (.vldb r m) (d := State.doVldb n.val r m) (fun _ => rfl) (fun _ h => h.1.1) fun _ h =>
      access_did h.1.2 h.2 (f := fun c a e => e.result (c + 3) (.v r (Vector.replicate 16 (e.load4 a)))) fun _ _ =>
        computes_result _ fun _ _ => rfl,
    fun n r m => command_completes (.vld r m) (d := State.doVld n.val r m) (fun _ => rfl) (fun _ h => h.1) fun _ h => access_faults h.2 _,
    fun n r m => command_completes (.vst r m) (d := State.doVst n.val r m) (fun _ => rfl) (fun _ h => h.1) fun _ h => access_faults h.2 _,
    fun n r m => command_completes (.xld r m) (d := State.doXld n.val r m) (fun _ => rfl) (fun _ h => h.1) fun _ h => access_faults h.2 _,
    fun n r m => command_completes (.xst r m) (d := State.doXst n.val r m) (fun _ => rfl) (fun _ h => h.1) fun _ h => access_faults h.2 _,
    fun n r m => command_completes (.vldb r m) (d := State.doVldb n.val r m) (fun _ => rfl) (fun _ h => h.1) fun _ h => access_faults h.2 _⟩

end Sys2Proof.Machine
end

section
/-!
PROOFS. What EST_LOAD and EST_START do (group 0x07: R187, R193 to R195, Tables 7.8 to 7.10).
-/
namespace Sys2Proof.Machine

/-- The estimators after a packet are those that its effect leaves. -/
theorem commit_est (s0 : State) (f : Fetched) (a : BitVec 32) (e : Effect) : (State.commit s0 f a e).est = e.st.est := by simp

theorem commit_es (s0 : State) (f : Fetched) (a : BitVec 32) (e : Effect) (m : Nat) : (State.commit s0 f a e).es m = e.st.es m :=
  es_congr (commit_est s0 f a e) m

theorem entry_est (c : Command) (p : Packet) (s : State) : (c.entry p s).est = s.est := by simp

@[simp] theorem entry_es (c : Command) (p : Packet) (m : Nat) (s : State) : (c.entry p s).es m = s.es m := es_congr (entry_est c p s) m

/-- The estimator that a packet names exists. -/
theorem fld_est (w : Word) : fld w 63 59 < 32 := fld_lt w 63 59

/-! ## EST_LOAD (Table 7.8) -/

/-- A write reaches the region as the results in flight have left it (R194). -/
theorem estLoad_writes {p : Packet} (h : bitAt (wordAt p.payload 0) 56 = false) (s : State) :
    (estLoadCmd.eff s p).st = s.modEst (fld (wordAt p.payload 0) 63 59) fun e =>
      (e.land s.now).writeRegion (fld (wordAt p.payload 0) 58 57) (fld (wordAt p.payload 0) 55 39) (p.payload.drop 1) := by
  simp [estLoadCmd, h]

/-- A read replies the words of the region, and changes nothing (R194). -/
theorem estLoad_reads {p : Packet} (h : bitAt (wordAt p.payload 0) 56 = true) (s : State) : estLoadCmd.eff s p =
    { st := s, changed := false
      reply := some ((List.range (fld (wordAt p.payload 0) 38 25)).map fun i =>
        ((s.es (fld (wordAt p.payload 0) 63 59)).land s.now).regionWord (fld (wordAt p.payload 0) 58 57)
          (fld (wordAt p.payload 0) 55 39 + i * (estRegion (fld (wordAt p.payload 0) 58 57)).2)) } := by
  simp [estLoadCmd, h]

theorem estLoad_accept (p : Packet) (s : State) : (estLoadCmd.eff s p).st.host = s.host := by
  cases h : bitAt (wordAt p.payload 0) 56 with
  | false => rw [estLoad_writes h]; rfl
  | true => rw [estLoad_reads h]

theorem estLoad_answers (p : Packet) : Answers (.estLoad p) estLoadCmd p fun s t =>
    let w := wordAt p.payload 0
    let n := fld w 63 59
    (bitAt w 56 = false →
      t.es n = ((s.es n).land s.now).writeRegion (fld w 58 57) (fld w 55 39) (p.payload.drop 1) ∧ ∀ m, m ≠ n → t.es m = s.es m) ∧
    (bitAt w 56 = true → t.est = s.est ∧ Posted p (s.host.accept + 1) 0 (some ((List.range (fld w 38 25)).map fun i =>
      ((s.es n).land s.now).regionWord (fld w 58 57) (fld w 55 39 + i * (estRegion (fld w 58 57)).2))) t) := by
  refine answers_of (fun _ => rfl) fun s hr => ⟨by simp [estLoad_accept], fun h => ?_, fun h => ?_⟩
  · rw [commit_es, estLoad_writes h, es_modEst_same _ _ _ (fld_est _)]
    refine ⟨by simp, fun m hm => ?_⟩
    rw [commit_es, estLoad_writes h, es_modEst_ne _ _ hm, entry_es]
  · have hp := ready_posted hr (by rw [estLoad_reads h]) (by rw [estLoad_reads h]) (by simp [estLoad_reads h]) (by simp [estLoad_reads h])
    rw [estLoad_reads h] at hp ⊢
    exact ⟨by simp, by simpa using hp⟩

/-! ## EST_START (Tables 7.9 and 7.10) -/

/-- What MODE 1 to 4 make of an estimator: a stop, a sealed page, no change, and cleared counters (Table 7.9). -/
def Est.command (m : Nat) (e : Est) : Est :=
  match m with
  | 1 => if e.live then { e with stopWait := true } else e
  | 2 => { e with pageSealed := true }
  | 3 => e
  | _ => { e with handled := 0, drops := 0, unposted := 0, holdMax := 0, doubles := 0, corrected := 0 }

/-- A start that R187 accepts. -/
theorem estStart_starts {p : Packet} {s : State} (hm : fld (wordAt p.payload 0) 58 56 = 0)
    (hb : (s.es (fld (wordAt p.payload 0) 63 59)).badStart p = none) :
    (estStartCmd.eff s p).st = s.modEst (fld (wordAt p.payload 0) 63 59) fun e => e.start p s.now := by
  simp [estStartCmd, hm, hb]

/-- A start that R187 refuses. -/
theorem estStart_refuses {p : Packet} {s : State} {a : Nat} (hm : fld (wordAt p.payload 0) 58 56 = 0)
    (hb : (s.es (fld (wordAt p.payload 0) 63 59)).badStart p = some a) : estStartCmd.eff s p =
      { st := s.modEst (fld (wordAt p.payload 0) 63 59) fun e => { e with badAddr := a }, status := 0x0403, changed := false } := by
  simp [estStartCmd, hm, hb]

/-- A packet that does not start the core. -/
theorem estStart_commands {p : Packet} (hm : fld (wordAt p.payload 0) 58 56 ≠ 0) (s : State) :
    (estStartCmd.eff s p).st = s.modEst (fld (wordAt p.payload 0) 63 59) (Est.command (fld (wordAt p.payload 0) 58 56)) := by
  simp only [estStartCmd]
  split
  · next h => exact absurd h hm
  · next h => rw [h]; rfl
  · next h => rw [h]; rfl
  · next h => rw [h]; exact (modEst_id _ s).symm
  · exact modEst_congr (by simp only [Est.command])

theorem estStart_accept (p : Packet) (s : State) : (estStartCmd.eff s p).st.host = s.host := by
  by_cases hm : fld (wordAt p.payload 0) 58 56 = 0
  · cases hb : (s.es (fld (wordAt p.payload 0) 63 59)).badStart p with
    | none => rw [estStart_starts hm hb]; rfl
    | some a => rw [estStart_refuses hm hb]; rfl
  · rw [estStart_commands hm]; rfl

/-- A packet reaches the estimator that it names alone. -/
theorem estStart_others (p : Packet) (s : State) {m : Nat} (h : m ≠ fld (wordAt p.payload 0) 63 59) :
    (estStartCmd.eff s p).st.es m = s.es m := by
  by_cases hm : fld (wordAt p.payload 0) 58 56 = 0
  · cases hb : (s.es (fld (wordAt p.payload 0) 63 59)).badStart p with
    | none => rw [estStart_starts hm hb, es_modEst_ne _ _ h]
    | some a => rw [estStart_refuses hm hb, es_modEst_ne _ _ h]
  · rw [estStart_commands hm, es_modEst_ne _ _ h]

/-- A query replies the words of the estimator (Table 7.10). -/
theorem estStart_queries {p : Packet} (hm : fld (wordAt p.payload 0) 58 56 = 3) (s : State) : ∃ a, estStartCmd.eff s p =
    { st := s, changed := false
      reply := some ((s.es (fld (wordAt p.payload 0) 63 59)).reply (fld (wordAt p.payload 0) 63 59)), about := a } := by
  simp [estStartCmd, hm]

theorem estStart_answers (p : Packet) : Answers (.estStart p) estStartCmd p fun s t =>
    let w := wordAt p.payload 0
    let n := fld w 63 59
    (fld w 58 56 = 0 → (s.es n).badStart p = none →
      (t.es n).mode = .running ∧ (t.es n).pc = fld w 54 41 ∧ (t.es n).entry = fld w 54 41 ∧ (t.es n).limit = fld w 40 27 ∧
      (t.es n).dispatch = estDispatch p ∧ (t.es n).mem = (s.es n).mem ∧ (t.es n).prog = (s.es n).prog ∧
      (t.es n).x = Vector.replicate 16 0 ∧ (t.es n).next = s.now + 1) ∧
    (fld w 58 56 = 0 → ∀ a, (s.es n).badStart p = some a →
      (t.es n).badAddr = a ∧ (t.es n).mode = (s.es n).mode ∧ Posted p (s.host.accept + 1) 0x0403 none t) ∧
    (fld w 58 56 = 1 → (s.es n).live = true → (t.es n).stopWait = true ∧ (t.es n).mode = (s.es n).mode) ∧
    (fld w 58 56 = 2 → (t.es n).pageSealed = true) ∧
    (fld w 58 56 = 3 → t.est = s.est ∧ Posted p (s.host.accept + 1) 0 (some ((s.es n).reply n)) t) ∧
    (fld w 58 56 = 4 → (t.es n).handled = 0 ∧ (t.es n).drops = 0 ∧ (t.es n).unposted = 0 ∧ (t.es n).doubles = 0 ∧
      (t.es n).mode = (s.es n).mode) ∧
    ∀ m, m ≠ n → t.es m = s.es m := by
  refine answers_of (fun _ => rfl) fun s hr => ⟨by simp [estStart_accept], fun hm hb => ?_, fun hm a hb => ?_, fun hm hl => ?_,
    fun hm => ?_, fun hm => ?_, fun hm => ?_, fun m h => ?_⟩
  · rw [commit_es, estStart_starts hm (by rwa [entry_es]), es_modEst_same _ _ _ (fld_est _), entry_es, entry_now]
    exact ⟨rfl, rfl, rfl, rfl, rfl, rfl, rfl, rfl, rfl⟩
  · have he := estStart_refuses (s := estStartCmd.entry p s) hm (by rwa [entry_es])
    have hp := ready_posted hr (by rw [he]) (by rw [he]) (by simp [he]) (by simp [he])
    rw [commit_es]
    rw [he] at hp ⊢
    rw [es_modEst_same _ _ _ (fld_est _), entry_es]
    exact ⟨rfl, rfl, hp⟩
  · rw [commit_es, estStart_commands (by simp [hm]), es_modEst_same _ _ _ (fld_est _), entry_es, hm, Est.command, if_pos hl]
    exact ⟨rfl, rfl⟩
  · rw [commit_es, estStart_commands (by simp [hm]), es_modEst_same _ _ _ (fld_est _), hm]
    rfl
  · obtain ⟨a, he⟩ := estStart_queries hm (estStartCmd.entry p s)
    have hp := ready_posted hr (by rw [he]) (by rw [he]) (by simp [he]) (by simp [he])
    rw [he] at hp ⊢
    exact ⟨by simp, by simpa using hp⟩
  · rw [commit_es, estStart_commands (by simp [hm]), es_modEst_same _ _ _ (fld_est _), entry_es, hm]
    exact ⟨rfl, rfl, rfl, rfl, rfl⟩
  · rw [commit_es, estStart_others p _ h, entry_es]

/-- Settles O35: the committed state has the estimators of the effect, in which the packet has written a region, started the core or
changed the one that it names; a read and a query reply from it. -/
theorem estimatorCommandsComplete : Obligations.EstimatorCommandsComplete := ⟨estLoad_answers, estStart_answers⟩

end Sys2Proof.Machine
end

section
/-!
PROOFS. The events of an estimator: requests and dispatch (R181 to R183), stops (R191), errors and restarts (R188 to R190), parameter
pages (R193) and the debug port (R192).
-/
namespace Sys2Proof.Machine

/-! ## Requests (R181) -/

/-- A dropped request sets the trouble bit of its cluster. -/
theorem estDrop_bit (n k : Nat) (s : State) (h : k ≠ 0) :
    bitAt (s.estDrop n k).trouble[(clusterWord (lineCluster n)).val] 5 = true := by
  rw [State.estDrop, if_neg h]
  exact estTrouble_bit n 5 _ (by decide)

theorem estimatorRequest_queues (n : Fin 32) (r : Request) (l : List Request) : Completes (.estimatorRequest n)
    (fun s => (s.es n.val).arriving = r :: l ∧ (s.es n.val).mode = .running ∧ (s.es n.val).queue.length < 32 ∧
      (atN (s.es n.val).dispatch (demodSlotNo r.val.slot) none).isSome = true ∧ s.now ≤ r.readable - 1)
    fun s t => t.now = r.readable - 1 ∧ (t.es n.val).arriving = l ∧ (t.es n.val).queue = (s.es n.val).queue ++ [r] ∧
      (t.es n.val).drops = (s.es n.val).drops := by
  rintro s ⟨ha, hm, hq, hd, hn⟩
  have hx : execEstimatorRequest n s = .next (((s.runTo (r.readable - 1)).modEst n.val fun x => { x with arriving := l }).modEst n.val
      fun x => { x with queue := x.queue ++ [r] }) := by
    unfold execEstimatorRequest
    rw [ha]
    refine if_neg ?_
    rw [es_runTo, hm, Option.isNone_iff_eq_none, ← Option.not_isSome_iff_eq_none]
    simp [hd, hq]
  refine ⟨_, hx, State.runTo_now _ s hn, ?_⟩
  rw [es_modEst_same _ _ _ n.isLt, es_modEst_same _ _ _ n.isLt]
  exact ⟨rfl, rfl, rfl⟩

theorem estimatorRequest_drops (n : Fin 32) (r : Request) (l : List Request) : Completes (.estimatorRequest n)
    (fun s => (s.es n.val).arriving = r :: l ∧ (s.es n.val).mode = .stopped)
    fun s t => (t.es n.val).arriving = l ∧ (t.es n.val).queue = (s.es n.val).queue ∧
      (t.es n.val).drops = satAdd 16 (s.es n.val).drops 1 ∧ bitAt t.trouble[(clusterWord (lineCluster n.val)).val] 5 = true := by
  rintro s ⟨ha, hm⟩
  have hx : execEstimatorRequest n s =
      .next (((s.runTo (r.readable - 1)).modEst n.val fun x => { x with arriving := l }).estDrop n.val 1) := by
    unfold execEstimatorRequest
    rw [ha]
    exact if_pos (.inl (by simp [hm]))
  refine ⟨_, hx, ?_⟩
  dsimp only
  rw [estDrop_es, es_modEst_same _ _ _ n.isLt, es_modEst_same _ _ _ n.isLt]
  exact ⟨rfl, rfl, rfl, estDrop_bit _ _ _ (by decide)⟩

/-! ## Dispatch (R182, R183) -/

/-- An estimator that has taken request `r` at boundary `b` for the handler at `a`, which issues from cycle `c` on (R183). -/
def Est.took (r : Request) (a : Nat) (desc : Word) (ovrinv : Bool) (b c : Nat) (e : Est) : Est :=
  { e.land b with
    resume := e.pc, pc := a, next := c, queue := e.queue.drop 1
    x := updN (updN (e.land b).x 14 fun _ => desc) 15 fun _ => pairWord r.val.yi r.val.yq
    handler := some { req := r, ovrinv := ovrinv }, handled := e.handled + 1
    holdMax := satAdd 16 (max e.holdMax (b - max r.readable e.gapEnd)) 0 }

/-- With no halt that waits, the request at the head of the queue is taken. -/
theorem estTake_takes {n : Nat} {s : State} {r : Request} (hr : (s.es n).head = some r) (hw : (s.es n).haltWait = false) (b c : Nat) :
    s.estTake n b c true = (s.runTo b).modEst n (Est.took r ((atN (s.es n).dispatch (demodSlotNo r.val.slot) none).getD 0)
      (r.descriptor ((s.runTo b).cnt r.val.close)) (s.dm r.val.slot).active.ovrinv b c) := by
  unfold State.estTake
  rw [hr]
  exact modEst_congr (by simp [Est.took, hw]; rfl)

theorem estimatorDispatch_takes (n : Fin 32) (r : Request) (l : List Request) (a : Nat) (i : EstIns) : Completes (.estimatorDispatch n)
    (fun s => (s.es n.val).queue = r :: l ∧ (s.es n.val).mode = .running ∧ (s.es n.val).handover = false ∧
      (s.es n.val).boundary = true ∧ (s.es n.val).stopWait = false ∧ (s.es n.val).pageSealed = false ∧ (s.es n.val).haltWait = false ∧
      (s.es n.val).due = some i ∧ i ≠ .idle ∧ r.readable ≤ (s.es n.val).next ∧
      atN (s.es n.val).dispatch (demodSlotNo r.val.slot) none = some a)
    fun s t => (t.es n.val).pc = a ∧ (t.es n.val).resume = (s.es n.val).pc ∧ (t.es n.val).queue = l ∧
      (t.es n.val).next = (s.es n.val).next + 4 ∧ (t.es n.val).handled = (s.es n.val).handled + 1 ∧
      (t.es n.val).xr 15 = pairWord r.val.yi r.val.yq ∧ ∃ h, (t.es n.val).handler = some h ∧ h.req = r ∧ h.posted = false ∧
        h.ovrinv = (s.dm r.val.slot).active.ovrinv := by
  rintro s ⟨hq, hm, hh, hb, hs, hp, hw, hd, hi, hr, ha⟩
  have hhead : (s.es n.val).head = some r := by simp [Est.head, hq]
  have hx : execEstimatorDispatch n s = .next (s.estTake n.val (s.es n.val).next ((s.es n.val).next + 4) true) := by
    unfold execEstimatorDispatch; dsimp only
    rw [hhead]
    simp [hm, hh, hb, hs, hp, hw, hd, hi, hr]
  refine ⟨_, hx, ?_⟩
  dsimp only
  rw [estTake_takes hhead hw, es_modEst_same _ _ _ n.isLt, ha]
  refine ⟨rfl, rfl, ?_, rfl, rfl, ?_, _, rfl, rfl, rfl, rfl⟩
  · exact congrArg (List.drop 1) hq
  · exact atN_updN_same _ 15 _ 0 (by decide)

/-- A halt that waits is taken before the due instruction (R192). -/
theorem estimatorDispatch_halts (n : Fin 32) : Completes (.estimatorDispatch n)
    (fun s => (s.es n.val).mode = .running ∧ (s.es n.val).haltWait = true ∧ (s.es n.val).free = true ∧ (s.es n.val).handover = false)
    fun s t => (t.es n.val).mode = .debugHalted ∧ (t.es n.val).pc = (s.es n.val).pc ∧ (t.es n.val).queue = (s.es n.val).queue := by
  rintro s ⟨hm, hw, hf, hh⟩
  refine ⟨_, show execEstimatorDispatch n s = _ from if_pos ⟨hm, hw, hf, by simp [hh]⟩, ?_⟩
  dsimp only
  rw [es_modEst_same _ _ _ n.isLt]
  exact ⟨rfl, rfl, rfl⟩

/-! ## Stops (R191) -/

/-- An estimator that has stopped. -/
def Est.halted (e : Est) : Est :=
  ({ e with
    mode := .stopped, stopWait := false, haltWait := false, handler := none, branch := none, reps := [], queue := [] } : Est).dropped
    e.queue.length

/-- A core that halts keeps all but its mode, its waits, its program flow, its queue and its drop counter. -/
theorem Est.halted_eq (e : Est) : ∃ d, e.halted = { e with
    mode := .stopped, stopWait := false, haltWait := false, handler := none, branch := none, reps := [], queue := [], drops := d } :=
  dropped_eq _ _

theorem estHalt_es (n : Fin 32) (s : State) : (s.estHalt n.val).es n.val = (s.es n.val).halted := by
  unfold State.estHalt State.estFlush; dsimp only
  rw [estDrop_es]
  simp only [es_modEst_same _ _ _ n.isLt]
  rfl

theorem estimatorStop_stops (n : Fin 32) : Completes (.estimatorStop n)
    (fun s => (s.es n.val).stopWait = true ∧ (s.es n.val).boundary = true ∧ (s.es n.val).handover = false ∧ (s.es n.val).mode = .running)
    fun _ t => (t.es n.val).mode = .stopped ∧ (t.es n.val).queue = [] ∧ (t.es n.val).stopWait = false := by
  rintro s ⟨hs, hb, hh, hm⟩
  refine ⟨_, show execEstimatorStop n s = _ from if_pos ⟨hs, hb, by simp [hh], .inl hm⟩, ?_⟩
  obtain ⟨d, hd⟩ := (s.es n.val).halted_eq
  rw [estHalt_es, es_runTo, hd]
  exact ⟨rfl, rfl, rfl⟩

/-! ## Errors and restarts (R188 to R190) -/

theorem memoryError_counts (n : Fin 32) : Completes (.estimatorProgramMemoryError n .corrected) (fun _ => True)
    fun s t => (t.es n.val).corrected = (s.es n.val).corrected + 1 ∧ (t.es n.val).mode = (s.es n.val).mode := by
  intro s _
  refine ⟨_, rfl, ?_⟩
  dsimp only
  rw [es_modEst_same _ _ _ n.isLt]
  exact ⟨rfl, rfl⟩

theorem programError_faults (n : Fin 32) (addr : Fin 16384) : Completes (.estimatorProgramMemoryError n (.program addr))
    (fun s => (s.es n.val).live = true)
    fun s t => EstFaulted n.val 2 s t ∧ t.units.repairs = s.units.repairs ++ [.estProgram n.val addr.val] ∧
      bitAt t.trouble[(clusterWord (lineCluster n.val)).val] 4 = true := by
  intro s h
  refine ⟨_, show execEstimatorProgramMemoryError n (.program addr) s = _ from if_neg (by simp [h]), ?_, ?_, ?_⟩
  · exact (estFault_faults n _ 2 s).1
  · simp
  · exact estFault_bit n.val _ 2 s

theorem datapathError_faults (n : Fin 32) : Completes (.estimatorProgramMemoryError n .datapath) (fun s => (s.es n.val).live = true)
    (EstFaulted n.val 3) := fun s h =>
  ⟨_, show execEstimatorProgramMemoryError n .datapath s = _ from if_neg (by simp [h]), (estFault_faults n _ 3 s).1⟩

theorem estimatorAutorestart_restarts (n : Fin 32) : Completes (.estimatorAutorestart n)
    (fun s => (s.es n.val).mode = .faulted ∧ (s.es n.val).autorestart = true ∧ (s.es n.val).fault = 2 ∧ s.units.token.isSome = true)
    fun s t => (t.es n.val).mode = .running ∧ (t.es n.val).pc = (s.es n.val).entry ∧ (t.es n.val).mem = (s.es n.val).mem ∧
      (t.es n.val).x = Vector.replicate 16 0 ∧ (t.es n.val).next = s.now + 1 := by
  rintro s ⟨hm, ha, hf, ht⟩
  have hu (u : Units) : ({ s.modEst n.val fun x => x.restart s.now with units := u } : State).es n.val = (s.es n.val).restart s.now :=
    es_modEst_same _ _ _ n.isLt
  refine ⟨_, show execEstimatorAutorestart n s = _ from if_pos ⟨hm, ha, .inl hf, ht⟩, ?_⟩
  dsimp only
  rw [es_raiseMaybe, es_note, hu]
  exact ⟨rfl, rfl, rfl, rfl, rfl⟩

/-! ## Parameter pages (R193) -/

theorem pageSwap_swaps (n : Fin 32) : Completes (.pageSwap n) (fun s => (s.es n.val).pageSealed = true ∧ (s.es n.val).mode = .stopped)
    fun s t => (t.es n.val).useBank1 = !(s.es n.val).useBank1 ∧ (t.es n.val).pageSealed = false ∧ (t.es n.val).copyAt = some s.now ∧
      (t.es n.val).page = (s.es n.val).shadowPage := by
  rintro s ⟨hp, hm⟩
  have hx : execPageSwap n s =
      .next (s.modEst n.val fun x => { x with useBank1 := !x.useBank1, pageSealed := false, copyAt := some s.now }) := by
    simp [execPageSwap, hp, hm]
  refine ⟨_, hx, ?_⟩
  dsimp only
  rw [es_modEst_same _ _ _ n.isLt]
  refine ⟨rfl, rfl, rfl, ?_⟩
  cases h : (s.es n.val).useBank1 <;> simp [Est.page, Est.shadowPage, h]

theorem pageCopyEnd_copies (n : Fin 32) (c : Nat) : Completes (.pageCopyEnd n) (fun s => (s.es n.val).copyAt = some c ∧ s.now ≤ c + 2048)
    fun s t => t.now = c + 2048 ∧ (t.es n.val).copyAt = none ∧ (t.es n.val).page = (s.es n.val).page ∧
      (t.es n.val).shadowPage = (s.es n.val).page := by
  rintro s ⟨hc, hn⟩
  refine ⟨_, show execPageCopyEnd n s = _ by unfold execPageCopyEnd; rw [hc], ?_⟩
  dsimp only
  rw [es_modEst_same _ _ _ n.isLt, es_runTo]
  refine ⟨State.runTo_now _ s hn, rfl, ?_, ?_⟩
  · simp [Est.page]
  · simp [Est.page, Est.shadowPage]

/-! ## The debug port (R192) -/

theorem debugEstimatorHalt_halts (n : Fin 32) : Completes (.debugEstimatorHalt n)
    (fun s => s.debugLevel 2 = true ∧ (s.es n.val).mode = .running ∧ (s.es n.val).free = true ∧
      ((s.es n.val).ended = false ∨ ((s.es n.val).next ≤ s.now ∧ (s.es n.val).handover = false)))
    fun s t => (t.es n.val).mode = .debugHalted ∧ (t.es n.val).pc = (s.es n.val).pc := by
  rintro s ⟨hl, hm, hf, he⟩
  have hx : execDebugEstimatorHalt n s = .next ((s.runTo (s.es n.val).next).modEst n.val Est.takeHalt) := by
    unfold execDebugEstimatorHalt; dsimp only
    rw [if_neg (by simp [hl, hm]), if_pos (by simpa [hf] using he)]
  refine ⟨_, hx, ?_⟩
  dsimp only
  rw [es_modEst_same _ _ _ n.isLt]
  exact ⟨rfl, rfl⟩

theorem debugEstimatorHalt_waits (n : Fin 32) : Completes (.debugEstimatorHalt n)
    (fun s => s.debugLevel 2 = true ∧ (s.es n.val).mode = .running ∧
      ((s.es n.val).free = false ∨ ((s.es n.val).ended = true ∧ s.now < (s.es n.val).next)))
    fun _ t => (t.es n.val).mode = .running ∧ (t.es n.val).haltWait = true := by
  rintro s ⟨hl, hm, h⟩
  have hw : ¬((s.es n.val).free = true ∧
      ((!(s.es n.val).ended) = true ∨ ((s.es n.val).next ≤ s.now ∧ (!(s.es n.val).handover) = true))) := by
    rcases h with hf | ⟨he, hn⟩
    · simp [hf]
    · simp [he, Nat.not_le.2 hn]
  have hx : execDebugEstimatorHalt n s = .next (s.modEst n.val fun x => { x with haltWait := true }) := by
    unfold execDebugEstimatorHalt; dsimp only
    rw [if_neg (by simp [hl, hm]), if_neg hw]
  refine ⟨_, hx, ?_⟩
  dsimp only
  rw [es_modEst_same _ _ _ n.isLt]
  exact ⟨hm, rfl⟩

theorem debugEstimatorStep_steps (n : Fin 32) (i : EstIns) : Completes (.debugEstimatorStep n)
    (fun s => s.debugLevel 2 = true ∧ (s.es n.val).mode = .debugHalted ∧ (s.es n.val).due = some i) fun s t => t = s.doEst n.val i := by
  rintro s ⟨hl, hm, hd⟩
  refine ⟨_, show execDebugEstimatorStep n s = _ from ?_, rfl⟩
  unfold execDebugEstimatorStep; dsimp only
  rw [if_neg (by simp [hl, hm]), hd]

/-- Settles O39: each event runs the clock to its tick and writes its estimator; what it reports leaves the estimators as written. -/
theorem estimatorEventsComplete : Obligations.EstimatorEventsComplete :=
  ⟨estimatorRequest_queues, estimatorRequest_drops, estimatorDispatch_takes, estimatorStop_stops, memoryError_counts, programError_faults,
    datapathError_faults, estimatorAutorestart_restarts, pageSwap_swaps, pageCopyEnd_copies, debugEstimatorHalt_halts,
    debugEstimatorHalt_waits, estimatorDispatch_halts, debugEstimatorStep_steps⟩

end Sys2Proof.Machine
end

section
/-!
PROOFS. The control flow of an estimator (R180, R183 to R186, R188, R191). Every clause of the statement but HALT's holds, and HALT's
holds of a drop counter within its 16 bits; the statement lacks that premise, and is refuted by a counter beyond them.
-/
namespace Sys2Proof.Machine

/-- Where an estimator goes on is the same before and after an issue. -/
theorem Est.issued_flow (c : Nat) (e : Est) : (e.issued c).branch = e.branch ∧ (∀ pc, (e.issued c).inRange pc = e.inRange pc) ∧
    (e.issued c).flowsTo = e.flowsTo := by
  simp [Est.inRange, Est.flowsTo, Est.goesTo]

/-! ## Branches and their delay slots (R180, R183) -/

/-- An estimator whose branch has issued in cycle `c`: its first delay slot is due. -/
def Est.branched (c : Nat) (target : Option Nat) (e : Est) : Est :=
  (Est.moved c ((e.pc + 1) % 2 ^ 14) e.reps { e with branch := some (target, 3) }).haltDue

theorem branched_eq (c : Nat) (target : Option Nat) (e : Est) : ∃ m w, e.branched c target =
    { e with branch := some (target, 2), pc := (e.pc + 1) % 2 ^ 14, next := c + 1, mode := m, haltWait := w } :=
  haltDue_eq _

theorem estBranch_inRange (n : Fin 32) (c : Nat) (target : Option Nat) {s : State}
    (h : (s.es n.val).inRange (((s.es n.val).pc + 1) % 2 ^ 14) = true) :
    s.estBranch n.val c target = s.modEst n.val (Est.branched c target) := by
  have hb := es_modEst_same n.val (fun e => { e with branch := some (target, 3) }) s n.isLt
  unfold State.estBranch; dsimp only
  rw [estAdvance_inRange n _ _ _ _ (by rw [hb]; exact h), modEst_modEst, hb]
  exact modEst_congr rfl

/-- A branch whose target does not depend on the trace is taken behind its delay slots. -/
theorem doBranch_branches (n : Fin 32) {target : Est → Option Nat} (hf : ∀ e l, target { e with trace := l } = target e) {s : State}
    (h : (s.es n.val).inRange (((s.es n.val).pc + 1) % 2 ^ 14) = true) :
    EstBranched n.val (target (s.estAt n.val)) s (s.doBranch n.val target) := by
  have hi := issue_es n (s.estCycle n.val) s
  have ht : target ((s.es n.val).issued (s.estCycle n.val)) = target (s.estAt n.val) := hf _ _
  obtain ⟨m, w, he⟩ := branched_eq (s.estCycle n.val) (target (s.estAt n.val)) ((s.es n.val).issued (s.estCycle n.val))
  unfold State.doBranch; dsimp only
  rw [hi, ht, estBranch_inRange n _ _ (by rw [hi]; simpa [Est.inRange] using h)]
  unfold EstBranched
  rw [es_modEst_same _ _ _ n.isLt, hi, he]
  refine ⟨rfl, by simp, rfl, rfl, rfl, rfl, fun m hm => ?_⟩
  rw [es_modEst_ne _ _ hm, issue_es_ne hm]

theorem estBr_branches (n : Fin 32) (xc cond tgt : Nat) : Completes (.estBr n)
    (fun s => (s.es n.val).ready = some (.br xc cond tgt) ∧ (s.es n.val).inRange (((s.es n.val).pc + 1) % 2 ^ 14) = true) fun s t =>
    EstBranched n.val (some (if estCond cond ((s.estAt n.val).xr xc) then tgt else ((s.es n.val).pc + 3) % 2 ^ 14)) s t :=
  command_completes (.br xc cond tgt) (d := State.doEstBr n.val xc cond tgt) (fun _ => rfl) (fun _ h => h.1) fun s h => by
    have hb := doBranch_branches n (target := fun e => some (if estCond cond (e.xr xc) then tgt else (e.pc + 3) % 2 ^ 14))
      (fun _ _ => rfl) h.2
    rwa [show (s.estAt n.val).pc = (s.es n.val).pc by simp [State.estAt]] at hb

theorem brx_branches (n : Fin 32) (xt : Nat) : Completes (.brx n)
    (fun s => (s.es n.val).ready = some (.brx xt) ∧ (s.es n.val).inRange (((s.es n.val).pc + 1) % 2 ^ 14) = true) fun s t =>
    EstBranched n.val (some (fld ((s.estAt n.val).xr xt) 13 0)) s t :=
  command_completes (.brx xt) (d := State.doBrx n.val xt) (fun _ => rfl) (fun _ h => h.1) fun _ h =>
    doBranch_branches n (target := fun e => some (fld (e.xr xt) 13 0)) (fun _ _ => rfl) h.2

theorem estDone_branches (n : Fin 32) : Completes (.estDone n)
    (fun s => (s.es n.val).ready = some .done_ ∧ (s.es n.val).inRange (((s.es n.val).pc + 1) % 2 ^ 14) = true) (EstBranched n.val none) :=
  command_completes .done_ (d := State.doDone n.val) (fun _ => rfl) (fun _ h => h.1) fun _ h =>
    doBranch_branches n (target := fun _ => none) (fun _ _ => rfl) h.2

/-! ## Repeats (R180) -/

/-- Outside the delay slots of a branch the core goes on to the address and the repeats that the instruction gives. -/
theorem estAdvance_straight (n : Fin 32) (c pc : Nat) (reps : List Rep) {s : State} (hb : (s.es n.val).branch = none)
    (h : (s.es n.val).inRange pc = true) : ∃ m w, (s.estAdvance n.val c pc reps).es n.val =
      { s.es n.val with pc := pc, reps := reps, next := c + 1, mode := m, haltWait := w } := by
  have hm : (s.es n.val).moved c pc reps = { s.es n.val with pc := pc, reps := reps, next := c + 1 } := by simp only [Est.moved, hb]
  rw [estAdvance_inRange n _ _ _ _ (by simpa [Est.goesTo, hb] using h), es_modEst_same _ _ _ n.isLt, hm]
  exact haltDue_eq _

/-- A repeat of `count` passes over the `len` instructions behind it is open, or with no pass they are skipped (R180). -/
def Est.repeated (len count : Nat) (e : Est) : Nat × List Rep :=
  if count = 0 then estNext ((e.pc + len) % 2 ^ 14) e.reps
  else ((e.pc + 1) % 2 ^ 14, { start := (e.pc + 1) % 2 ^ 14, stop := (e.pc + len) % 2 ^ 14, left := count } :: e.reps)

theorem doRepeat_repeats (n : Fin 32) (len : Nat) {count : Est → Nat} (hf : ∀ e l, count { e with trace := l } = count e) {s : State}
    (hb : (s.es n.val).branch = none) (h : (s.es n.val).inRange ((s.es n.val).repeated len (count (s.estAt n.val))).1 = true) :
    ((s.doRepeat n.val len count).es n.val).pc = ((s.es n.val).repeated len (count (s.estAt n.val))).1 ∧
      ((s.doRepeat n.val len count).es n.val).reps = ((s.es n.val).repeated len (count (s.estAt n.val))).2 ∧
      ((s.doRepeat n.val len count).es n.val).x = (s.estAt n.val).x := by
  have hi := issue_es n (s.estCycle n.val) s
  have ht : count ((s.es n.val).issued (s.estCycle n.val)) = count (s.estAt n.val) := hf _ _
  have hx : s.doRepeat n.val len count = (s.estIssue n.val (s.estCycle n.val)).estAdvance n.val (s.estCycle n.val)
      ((s.es n.val).repeated len (count (s.estAt n.val))).1 ((s.es n.val).repeated len (count (s.estAt n.val))).2 := by
    unfold State.doRepeat; dsimp only
    rw [hi, ht]
    unfold Est.repeated
    split <;> simp
  obtain ⟨m, w, he⟩ := estAdvance_straight n (s.estCycle n.val) ((s.es n.val).repeated len (count (s.estAt n.val))).1
    ((s.es n.val).repeated len (count (s.estAt n.val))).2 (s := s.estIssue n.val (s.estCycle n.val)) (by rw [hi]; simpa using hb)
    (by rw [hi]; simpa [Est.inRange] using h)
  rw [hx, he, hi]
  exact ⟨rfl, rfl, rfl⟩

theorem repeatN_opens (n : Fin 32) (len count : Nat) : Completes (.repeatN n)
    (fun s => (s.es n.val).ready = some (.repeat_ len count) ∧ count ≠ 0 ∧ (s.es n.val).branch = none ∧
      (s.es n.val).inRange (((s.es n.val).pc + 1) % 2 ^ 14) = true) fun s t =>
    (t.es n.val).pc = ((s.es n.val).pc + 1) % 2 ^ 14 ∧ (t.es n.val).x = (s.estAt n.val).x ∧
      (t.es n.val).reps = { start := ((s.es n.val).pc + 1) % 2 ^ 14, stop := ((s.es n.val).pc + len) % 2 ^ 14, left := count }
        :: (s.es n.val).reps := by
  refine command_completes (.repeat_ len count) (fun _ => rfl) (fun _ h => h.1) fun s ⟨_, hc, hb, h⟩ => ?_
  have hr : (s.es n.val).repeated len count = _ := if_neg hc
  obtain ⟨hpc, hreps, hx⟩ := doRepeat_repeats n len (count := fun _ => count) (fun _ _ => rfl) hb (by rw [hr]; exact h)
  rw [hr] at hpc hreps
  exact ⟨hpc, hx, hreps⟩

theorem repeatN_skips (n : Fin 32) (len : Nat) : Completes (.repeatN n)
    (fun s => (s.es n.val).ready = some (.repeat_ len 0) ∧ (s.es n.val).branch = none ∧
      (s.es n.val).inRange (estNext (((s.es n.val).pc + len) % 2 ^ 14) (s.es n.val).reps).1 = true) fun s t =>
    (t.es n.val).pc = (estNext (((s.es n.val).pc + len) % 2 ^ 14) (s.es n.val).reps).1 ∧
      (t.es n.val).reps = (estNext (((s.es n.val).pc + len) % 2 ^ 14) (s.es n.val).reps).2 := by
  refine command_completes (.repeat_ len 0) (fun _ => rfl) (fun _ h => h.1) fun s ⟨_, hb, h⟩ => ?_
  obtain ⟨hpc, hreps, -⟩ := doRepeat_repeats n len (count := fun _ => 0) (fun _ _ => rfl) hb h
  exact ⟨hpc, hreps⟩

theorem repeatx_opens (n : Fin 32) (len xc : Nat) : Completes (.repeatx n)
    (fun s => (s.es n.val).ready = some (.repeatx len xc) ∧ fld ((s.estAt n.val).xr xc) 15 0 ≠ 0 ∧ (s.es n.val).branch = none ∧
      (s.es n.val).inRange (((s.es n.val).pc + 1) % 2 ^ 14) = true) fun s t =>
    (t.es n.val).pc = ((s.es n.val).pc + 1) % 2 ^ 14 ∧
      (t.es n.val).reps = { start := ((s.es n.val).pc + 1) % 2 ^ 14, stop := ((s.es n.val).pc + len) % 2 ^ 14
                            left := fld ((s.estAt n.val).xr xc) 15 0 } :: (s.es n.val).reps := by
  refine command_completes (.repeatx len xc) (fun _ => rfl) (fun _ h => h.1) fun s ⟨_, hc, hb, h⟩ => ?_
  have hr : (s.es n.val).repeated len (fld ((s.estAt n.val).xr xc) 15 0) = _ := if_neg hc
  obtain ⟨hpc, hreps, -⟩ := doRepeat_repeats n len (count := fun e => fld (e.xr xc) 15 0) (fun _ _ => rfl) hb (by rw [hr]; exact h)
  rw [hr] at hpc hreps
  exact ⟨hpc, hreps⟩

/-! ## POST (R184, R185) -/

/-- A bit of a field is the bit of the value that is put there. -/
theorem bitAt_put_inside {hi lo n : Nat} (v : Nat) (hl : lo ≤ n) (hh : n ≤ hi) (h : n < 64) :
    bitAt (put hi lo v) n = v.testBit (n - lo) := by
  simp only [bitAt, put, BitVec.toNat_ofNat, Nat.testBit_mod_two_pow, Nat.testBit_shiftLeft]
  simp [hl, h, show n - lo < hi + 1 - lo by omega]

/-- STATE of a verdict packet is the state that it is made with (Table 8.1). -/
theorem mkVerdict_state (m l r : Nat) {state : Nat} (h : state < 4) (valid absent taint : Bool) (sst : Word) :
    vState (mkVerdict m l r state valid absent taint sst) = state := by
  have hs : fld (mkVerdict m l r state valid absent taint sst) 43 42 = state % 2 ^ 2 := by
    refine Nat.eq_of_testBit_eq fun i => ?_
    rw [fld, Nat.testBit_mod_two_pow, Nat.testBit_mod_two_pow, Nat.testBit_shiftRight]
    by_cases hi : i < 2
    · change (decide (i < 2) && bitAt (mkVerdict m l r state valid absent taint sst) (42 + i)) = _
      obtain rfl | rfl : i = 0 ∨ i = 1 := by omega
      all_goals simp [mkVerdict, bitAt_orAll, bitAt_put_outside, bitAt_put_inside, bitAt_putB_ne]
    · simp [hi]
  exact hs.trans (Nat.mod_eq_of_lt h)

/-- A handler's first post marks it and forms its verdict two cycles later (R184). -/
theorem estPost_forms {n : Nat} {s : State} {h : Handler} (hh : (s.es n).handler = some h) (hp : h.posted = false) (c xs : Nat) :
    ∃ slot win packet, s.estPost n c xs =
        (s.modEst n fun e => { e with handler := some { h with posted := true } }).formVerdict slot (c + 2) win packet ∧
      vState packet = fld ((s.es n).xr xs) 1 0 ∧ vAbsent packet = false := by
  unfold State.estPost; dsimp only
  rw [hh]
  simp only [hp, Bool.false_eq_true, if_false]
  exact ⟨_, _, _, rfl, mkVerdict_state _ _ _ (fld_lt _ 1 0) _ _ _ _, (mkVerdict_flags _ _ _ _ _ _ _ _).2⟩

/-- Outside the delay slots of a branch an instruction falls through to the live range. -/
theorem estFall_straight (n : Fin 32) (c : Nat) {s : State} (hb : (s.es n.val).branch = none)
    (h : (s.es n.val).inRange (s.es n.val).flowsTo = true) : ∃ r k m w, (s.estFall n.val c).es n.val =
      { s.es n.val with pc := (s.es n.val).flowsTo, reps := r, next := k, mode := m, haltWait := w } := by
  have hf : (s.es n.val).flowsTo = (estNext (s.es n.val).pc (s.es n.val).reps).1 := by simp only [Est.flowsTo, Est.goesTo, hb]
  obtain ⟨m, w, he⟩ := estAdvance_straight n c _ (estNext (s.es n.val).pc (s.es n.val).reps).2 hb (hf ▸ h)
  exact ⟨_, _, m, w, by rw [hf]; exact he⟩

@[simp] theorem es_formVerdict (k F m : Nat) (w : Window) (packet : Word) (s : State) : (s.formVerdict k F w packet).es m = s.es m :=
  es_congr (by simp) m

theorem post_forms (n : Fin 32) (xs : Nat) (h : Handler) : Completes (.post n)
    (fun s => s.estIssues n.val (.post xs) ∧ (s.es n.val).branch = none ∧ (s.es n.val).handler = some h ∧ h.posted = false) fun s t =>
    (t.es n.val).handler = some { h with posted := true } ∧ (t.es n.val).pc = (s.es n.val).flowsTo ∧
      ∃ packet, vState packet = fld ((s.estAt n.val).xr xs) 1 0 ∧ vAbsent packet = false ∧
        t.fabric.flight = s.fabric.flight ++ [⟨packet, s.estCycle n.val + 2, .cluster⟩, ⟨packet, s.estCycle n.val + 2 + 12, .die⟩,
          ⟨packet, s.estCycle n.val + 2 + 24, .device⟩] := by
  refine command_completes (.post xs) (d := State.doPost n.val xs) (fun _ => rfl) (fun _ h => h.1.1) fun s ⟨⟨_, hr⟩, hb, hh, hp⟩ => ?_
  have hi := issue_es n (s.estCycle n.val) s
  obtain ⟨hbr, hin, hto⟩ := (s.es n.val).issued_flow (s.estCycle n.val)
  obtain ⟨slot, win, packet, he, hs, ha⟩ := estPost_forms (n := n.val) (s := s.estIssue n.val (s.estCycle n.val)) (h := h)
    (by rw [hi]; simpa using hh) hp (s.estCycle n.val) xs
  have hu : ((s.estIssue n.val (s.estCycle n.val)).estPost n.val (s.estCycle n.val) xs).es n.val =
      { (s.es n.val).issued (s.estCycle n.val) with handler := some { h with posted := true } } := by
    rw [he, es_formVerdict, es_modEst_same _ _ _ n.isLt, hi]
  obtain ⟨r, k, m, w, ht⟩ := estFall_straight n (s.estCycle n.val)
    (s := (s.estIssue n.val (s.estCycle n.val)).estPost n.val (s.estCycle n.val) xs)
    (by rw [hu]; exact hbr.trans hb) (by rw [hu]; exact (hin _).trans (hto ▸ hr))
  unfold State.doPost; dsimp only
  simp only [State.estFall_frame]
  rw [ht, hu, he, formVerdict_flight]
  refine ⟨rfl, ?_, packet, ?_, ha, rfl⟩
  · exact hto
  · rw [hs, hi]
    rfl

/-- A second post of a handler is counted, and forms no verdict (R185). -/
theorem estPost_counts {n : Nat} {s : State} {h : Handler} (hh : (s.es n).handler = some h) (hp : h.posted = true) (c xs : Nat) :
    s.estPost n c xs = s.modEst n fun e => { e with doubles := satAdd 16 e.doubles 1 } := by
  unfold State.estPost; dsimp only
  rw [hh]
  exact if_pos hp

theorem post_counts (n : Fin 32) (xs : Nat) (h : Handler) : Completes (.post n)
    (fun s => s.estIssues n.val (.post xs) ∧ (s.es n.val).branch = none ∧ (s.es n.val).handler = some h ∧ h.posted = true) fun s t =>
    (t.es n.val).doubles = satAdd 16 (s.es n.val).doubles 1 ∧ t.fabric = s.fabric ∧ (t.es n.val).pc = (s.es n.val).flowsTo := by
  refine command_completes (.post xs) (d := State.doPost n.val xs) (fun _ => rfl) (fun _ h => h.1.1) fun s ⟨⟨_, hr⟩, hb, hh, hp⟩ => ?_
  have hi := issue_es n (s.estCycle n.val) s
  obtain ⟨hbr, hin, hto⟩ := (s.es n.val).issued_flow (s.estCycle n.val)
  have hu := es_modEst_same n.val (fun e => { e with doubles := satAdd 16 e.doubles 1 }) (s.estIssue n.val (s.estCycle n.val)) n.isLt
  obtain ⟨r, k, m, w, ht⟩ := estFall_straight n (s.estCycle n.val)
    (s := (s.estIssue n.val (s.estCycle n.val)).modEst n.val fun e => { e with doubles := satAdd 16 e.doubles 1 })
    (by rw [hu, hi]; exact hbr.trans hb) (by rw [hu, hi]; exact (hin _).trans (hto ▸ hr))
  unfold State.doPost; dsimp only
  rw [estPost_counts (h := h) (by rw [hi]; simpa using hh) hp, ht, hu, hi]
  exact ⟨by simp, by simp, hto⟩

/-! ## IDLE, and a fault behind an instruction (R186, R188) -/

theorem idle_stays (n : Fin 32) : Completes (.idle n) (fun s => (s.es n.val).ready = some .idle) fun s t =>
    (t.es n.val).pc = (s.es n.val).pc ∧ (t.es n.val).next = s.estCycle n.val + 1 ∧ (t.es n.val).x = (s.estAt n.val).x := by
  refine command_completes .idle (d := State.doIdle n.val) (fun _ => rfl) (fun _ h => h) fun s _ => ?_
  unfold State.doIdle; dsimp only
  rw [es_modEst_same _ _ _ n.isLt]
  exact ⟨by simp, rfl, rfl⟩

/-- An instruction behind which the live range ends faults with code 5 at the address that would be next (R188). -/
theorem estFall_outside (n : Fin 32) (c : Nat) {s : State} (h : (s.es n.val).inRange (s.es n.val).flowsTo = false) :
    ((s.estFall n.val c).es n.val).mode = .faulted ∧ ((s.estFall n.val c).es n.val).fault = 5 ∧
      ((s.estFall n.val c).es n.val).faultPc = (s.es n.val).flowsTo := by
  have hu := es_modEst_same n.val (Est.moved c (estNext (s.es n.val).pc (s.es n.val).reps).1 (estNext (s.es n.val).pc (s.es n.val).reps).2)
    s n.isLt
  have hr : (s.es n.val).flowsTo < (s.es n.val).entry ∨ (s.es n.val).limit < (s.es n.val).flowsTo := by
    simp only [Est.inRange, decide_eq_false_iff_not] at h
    omega
  rw [show s.estFall n.val c = s.estAdvance n.val c _ _ from rfl, estAdvance_eq]
  dsimp only
  rw [if_pos (by rw [hu, Est.moved_pc]; simpa [Est.flowsTo] using hr)]
  obtain ⟨⟨hmode, hcode, hpc, -⟩, -⟩ := estFault_faults n (c + 1) 5 (s.modEst n.val
    (Est.moved c (estNext (s.es n.val).pc (s.es n.val).reps).1 (estNext (s.es n.val).pc (s.es n.val).reps).2))
  rw [hu, Est.moved_pc] at hpc
  exact ⟨hmode, hcode, hpc⟩

theorem estNop_faults (n : Fin 32) : Completes (.estNop n)
    (fun s => (s.es n.val).ready = some .nop ∧ (s.es n.val).branch = none ∧ (s.es n.val).inRange (s.es n.val).flowsTo = false) fun s t =>
    (t.es n.val).mode = .faulted ∧ (t.es n.val).fault = 5 ∧ (t.es n.val).faultPc = (s.es n.val).flowsTo := by
  refine command_completes .nop (d := State.doEstNop n.val) (fun _ => rfl) (fun _ h => h.1) fun s ⟨_, _, hr⟩ => ?_
  have hi := issue_es n (s.estCycle n.val) s
  obtain ⟨-, hin, hto⟩ := (s.es n.val).issued_flow (s.estCycle n.val)
  have hf := estFall_outside n (s.estCycle n.val) (s := s.estIssue n.val (s.estCycle n.val)) (by rw [hi, hto, hin]; exact hr)
  rw [hi, hto] at hf
  exact hf

/-! ## HALT (R191) -/

theorem runTo_now_max (n : Nat) (s : State) : (s.runTo n).now = max s.now n := by
  simp only [State.now, State.runTo, State.advance, Timebase.advance]
  omega

/-- A core that halts with a drop counter within its 16 bits has counted what was queued. -/
theorem halted_drops {e : Est} (h : e.drops < 2 ^ 16) : e.halted.drops = satAdd 16 e.drops e.queue.length := by
  unfold Est.halted Est.dropped
  split
  · next hq => simp only [satAdd, hq]; omega
  · rfl

/-- A halt sets the trouble bit of its cluster where requests were queued (R181). -/
theorem estHalt_bit (n : Fin 32) {s : State} (h : (s.es n.val).queue ≠ []) :
    bitAt (s.estHalt n.val).trouble[(clusterWord (lineCluster n.val)).val] 5 = true := by
  unfold State.estHalt State.estFlush; dsimp only
  refine estDrop_bit _ _ _ ?_
  rw [es_modEst_same _ _ _ n.isLt]
  simpa using h

/-- What HALT's clause wants: the core stops in its cycle, and what was queued counts as dropped. -/
def HaltStops (n : Fin 32) (s t : State) : Prop :=
  t.now = max s.now (s.estCycle n.val) ∧ (t.es n.val).mode = .stopped ∧ (t.es n.val).queue = [] ∧ (t.es n.val).handler = none ∧
    (t.es n.val).mem = (s.estAt n.val).mem ∧ (t.es n.val).drops = satAdd 16 (s.es n.val).drops (s.es n.val).queue.length ∧
    ((s.es n.val).queue ≠ [] → bitAt t.trouble[(clusterWord (lineCluster n.val)).val] 5 = true)

theorem doHalt_es (n : Fin 32) (s : State) : (s.doHalt n.val).es n.val = ((s.es n.val).issued (s.estCycle n.val)).halted := by
  unfold State.doHalt; dsimp only
  rw [estHalt_es, issue_es]

theorem doHalt_now (n : Nat) (s : State) : (s.doHalt n).now = max s.now (s.estCycle n) := by
  have h : (s.doHalt n).time = (s.runTo (s.estCycle n)).time := by
    unfold State.doHalt; dsimp only
    simp only [State.estHalt_frame]
    rfl
  rw [State.now_congr h, runTo_now_max]

/-- HALT's clause holds of a drop counter within its 16 bits. -/
theorem halt_stops (n : Fin 32) :
    Completes (.halt n) (fun s => (s.es n.val).ready = some .halt ∧ (s.es n.val).drops < 2 ^ 16) (HaltStops n) := by
  refine command_completes .halt (d := State.doHalt n.val) (fun _ => rfl) (fun _ h => h.1) fun s ⟨_, hd⟩ => ?_
  have hdrops := halted_drops (e := (s.es n.val).issued (s.estCycle n.val)) (by simpa using hd)
  obtain ⟨d, he⟩ := ((s.es n.val).issued (s.estCycle n.val)).halted_eq
  unfold HaltStops
  rw [doHalt_es, hdrops, he]
  refine ⟨doHalt_now n.val s, rfl, rfl, rfl, rfl, by simp, fun h => ?_⟩
  exact estHalt_bit n (s := s.estIssue n.val (s.estCycle n.val)) (by rw [issue_es]; simpa using h)

/-- HALT's clause is all that the statement turns on: every other clause holds. -/
theorem estimatorFlow_iff_haltStops :
    Obligations.EstimatorFlow ↔ ∀ n, Completes (.halt n) (fun s => (s.es n.val).ready = some .halt) (HaltStops n) := by
  constructor
  · rintro ⟨-, -, -, -, -, -, -, -, -, halt, -⟩
    exact halt
  · intro halt
    exact ⟨estBr_branches, brx_branches, estDone_branches, repeatN_opens, repeatN_skips, repeatx_opens, post_forms, post_counts,
      idle_stays, halt, estNop_faults⟩

/-- HALT leaves a drop counter with no request to drop as it stands: it does not cut it to 16 bits. -/
theorem doHalt_drops (n : Fin 32) {s : State} (hq : (s.es n.val).queue = []) : ((s.doHalt n.val).es n.val).drops = (s.es n.val).drops := by
  rw [doHalt_es]
  simp [Est.halted, Est.dropped, hq]

/-- Core 0 runs and stands at a HALT, with no request queued and a drop counter beyond its 16 bits. -/
def overCounted : State := State.reset.modEst 0 fun e => { e with mode := .running, prog := [(0, 0xEC000000#32)], drops := 65536 }

/-- The premise of HALT's clause holds in `overCounted`. -/
theorem overCounted_halts : (overCounted.es 0).ready = some .halt := by decide +kernel

/-- Refutes O38: in `overCounted` HALT drops nothing and leaves the counter at 65,536, where the clause wants it saturated at 65,535. -/
theorem not_estimatorFlow : ¬ Obligations.EstimatorFlow := by
  rw [estimatorFlow_iff_haltStops]
  intro halt
  obtain ⟨t, ht, -, -, -, -, -, hd, -⟩ := halt 0 overCounted overCounted_halts
  have hk : ((overCounted.doHalt 0).es 0).drops = (overCounted.es 0).drops := doHalt_drops 0 (by decide +kernel)
  rw [show exec (.halt 0) overCounted = _ from exec_command (j := .halt) overCounted_halts] at ht
  injection ht with e
  rw [← e] at hd
  exact absurd (hk.symm.trans hd) (by decide +kernel)

end Sys2Proof.Machine
end

section
/-!
PROOFS. Reading a view and the Concordance side of a sequencer after a change of one of them, and what ends a commit and a landing
(chapter 9).
-/
namespace Sys2Proof.Machine

/-! ## Views and members -/

/-- A view is read from the Concordance alone. -/
theorem vw_congr {s t : State} (h : t.conc = s.conc) (v : Nat) : t.vw v = s.vw v := by simp [State.vw, h]

/-- The Concordance side of a sequencer is read from the Concordance alone. -/
theorem mem_congr {s t : State} (h : t.conc = s.conc) (q : Nat) : t.mem q = s.mem q := by simp [State.mem, h]

/-- The members of a view are read from the Concordance alone. -/
theorem members_congr {s t : State} (h : t.conc = s.conc) (v : Nat) : t.members v = s.members v :=
  List.filter_congr fun q _ => by simp only [State.inView, mem_congr h]

@[simp] theorem vw_modView_same (v : Nat) (f : View → View) (s : State) (h : v < 16) : (s.modView v f).vw v = f (s.vw v) := by
  simp [State.vw, State.modView, h]

@[simp] theorem vw_modView_ne {v u : Nat} (f : View → View) (s : State) (h : u ≠ v) : (s.modView v f).vw u = s.vw u :=
  atN_updN_ne _ _ _ _ _ h.symm

@[simp] theorem mem_modMember_same (q : Nat) (f : Member → Member) (s : State) (h : q < 256) :
    (s.modMember q f).mem q = f (s.mem q) := by
  simp [State.mem, State.modMember, h]

@[simp] theorem mem_modMember_ne {q r : Nat} (f : Member → Member) (s : State) (h : q ≠ r) : (s.modMember q f).mem r = s.mem r :=
  atN_updN_ne _ _ _ _ _ h

@[simp] theorem vw_modMember (q v : Nat) (f : Member → Member) (s : State) : (s.modMember q f).vw v = s.vw v := rfl

@[simp] theorem mem_modView (v q : Nat) (f : View → View) (s : State) : (s.modView v f).mem q = s.mem q := rfl

@[simp] theorem mem_modSeq (q r : Nat) (f : Seq → Seq) (s : State) : (s.modSeq q f).mem r = s.mem r := rfl

@[simp] theorem members_modView (v u : Nat) (f : View → View) (s : State) : (s.modView v f).members u = s.members u := rfl

/-- A sequencer of a view's members is in the view, and exists. -/
theorem mem_members {s : State} {v q : Nat} : q ∈ s.members v ↔ q < 256 ∧ (s.mem q).active.view.map (·.val) = some v := by
  simp [State.members, State.inView]

/-- A change of a sequencer that leaves its active membership alone leaves the members of a view. -/
theorem members_modMember (q v : Nat) {f : Member → Member} (hf : ∀ m, (f m).active = m.active) (s : State) :
    (s.modMember q f).members v = s.members v := by
  have h (r : Nat) : ((s.modMember q f).mem r).active = (s.mem r).active := by
    simp only [State.mem, State.modMember, atN_updN]
    split
    · exact hf _
    · rfl
  exact List.filter_congr fun r _ => by simp only [State.inView, h]

/-- A commit leaves the Concordance as the effect has it. -/
theorem commit_conc (s0 : State) (f : Fetched) (a : BitVec 32) (e : Effect) : (State.commit s0 f a e).conc = e.st.conc := by simp

theorem entry_conc (c : Command) (p : Packet) (s : State) : (c.entry p s).conc = s.conc := by simp

theorem commit_vw (s0 : State) (f : Fetched) (a : BitVec 32) (e : Effect) (v : Nat) : (State.commit s0 f a e).vw v = e.st.vw v :=
  vw_congr (commit_conc s0 f a e) v

theorem commit_mem (s0 : State) (f : Fetched) (a : BitVec 32) (e : Effect) (q : Nat) : (State.commit s0 f a e).mem q = e.st.mem q :=
  mem_congr (commit_conc s0 f a e) q

@[simp] theorem entry_vw (c : Command) (p : Packet) (v : Nat) (s : State) : (c.entry p s).vw v = s.vw v :=
  vw_congr (entry_conc c p s) v

@[simp] theorem entry_mem (c : Command) (p : Packet) (q : Nat) (s : State) : (c.entry p s).mem q = s.mem q :=
  mem_congr (entry_conc c p s) q

@[simp] theorem entry_viewWords (c : Command) (p : Packet) (v : Nat) (s : State) : (c.entry p s).viewWords v = s.viewWords v := by
  simp only [State.viewWords, entry_vw, entry_mem, members_congr (entry_conc c p s)]

/-! ## The end of a commit (R238) -/

theorem commitEnd_conc (v st : Nat) (s : State) : (s.commitEnd v st).conc = s.conc := by simp

@[simp] theorem vw_commitEnd (v st u : Nat) (s : State) : (s.commitEnd v st).vw u = s.vw u := vw_congr (commitEnd_conc v st s) u

@[simp] theorem mem_commitEnd (v st q : Nat) (s : State) : (s.commitEnd v st).mem q = s.mem q := mem_congr (commitEnd_conc v st s) q

@[simp] theorem commitEnd_now (v st : Nat) (s : State) : (s.commitEnd v st).now = s.now := State.now_congr (by simp)

/-! ## Landings (R236) -/

/-- A view whose last member has landed in tick `t`. -/
def View.swapped (t : Nat) (w : View) : View :=
  { w with bank1 := !w.bank1, lastCommit := 1, since := t, st := if w.copyback then .copying else .steady }

/-- A view with a member on the old bank stays SWAPPING. -/
theorem checkLanded_waits {s : State} {v q : Nat} (hq : q ∈ s.members v) (hl : (s.mem q).landed = false) (t : Nat) :
    s.checkLanded v t = s := by
  obtain ⟨hlt, hin⟩ := mem_members.1 hq
  have hw : ((List.range 256).any fun r => decide ((s.mem r).active.view.map (·.val) = some v) && !(s.mem r).landed) = true :=
    List.any_eq_true.2 ⟨q, List.mem_range.2 hlt, by simp [hin, hl]⟩
  unfold State.checkLanded; dsimp only
  exact if_neg (by rw [hw]; simp)

/-- A SWAPPING view without a member on the old bank has its banks exchanged, and without a copy-back its commit ends. -/
theorem checkLanded_swaps {s : State} {v : Nat} (hs : (s.vw v).st = .swapping) (hc : (s.vw v).copyback = false)
    (hl : ∀ q ∈ s.members v, (s.mem q).landed = true) (t : Nat) :
    s.checkLanded v t = (s.modView v (View.swapped t)).commitEnd v 0 := by
  have hw : ((List.range 256).any fun r => decide ((s.mem r).active.view.map (·.val) = some v) && !(s.mem r).landed) = false := by
    refine List.any_eq_false.2 fun q hq => ?_
    have h := hl q
    rw [mem_members] at h
    simp_all
  unfold State.checkLanded; dsimp only
  rw [if_pos ⟨hs, by rw [hw]; rfl⟩, if_neg (by simp [hc])]
  rfl

@[simp] theorem mem_checkLanded (v t q : Nat) (s : State) : (s.checkLanded v t).mem q = s.mem q := by
  unfold State.checkLanded; dsimp only
  split
  · split
    · rfl
    · rw [mem_commitEnd, mem_modView]
  · rfl

/-- A member of a SWAPPING view that is on the old bank takes the new one, and source 51 has its event. -/
theorem land_lands {s : State} {q : Nat} {v : Fin 16} (hv : (s.mem q).active.view = some v) (hs : (s.vw v.val).st = .swapping)
    (hl : (s.mem q).landed = false) (t : Nat) : ∃ (f : Seq → Seq) (g : View → View), (∀ c, (f c).landedAt = some t) ∧
      s.land q t = (((s.modMember q fun m => { m with bank1 := !(s.vw v.val).bank1, landed := true }).modView v.val g).modSeq q
        f).checkLanded v.val t := by
  unfold State.land; dsimp only
  rw [hv]
  refine ⟨_, _, fun c => ?_, if_pos ⟨hs, by simp [hl]⟩⟩
  repeat' split
  all_goals rfl

end Sys2Proof.Machine
end

section
/-!
PROOFS. What the commands of the Concordance do (group 0x09, Tables 9.5 to 9.8).
-/
namespace Sys2Proof.Machine

/-- The view that a packet names exists. -/
theorem fld_view (w : Word) : fld w 61 58 < 16 := fld_lt w 61 58

/-! ## CONC_MAP (Tables 9.5 to 9.7) -/

theorem viewFields_lt (p : Packet) : (viewFields p).1 < 16 := fld_view _

/-- What a view record makes of its view: nothing is left of one that is deleted; a definition keeps the bank state. -/
def View.mapped (p : Packet) (x : View) : View :=
  if bitAt (wordAt p.payload 0) 57 then {} else { x with
    defined := true, owner := Fin.ofNat 8 p.partition.toNat, w := (viewFields p).2.1, base := (viewFields p).2.2.1
    age := (viewFields p).2.2.2, gather := (List.range (viewFields p).2.1).map fun i => gatherRead (gatherField p i) }

theorem concMap_defines {p : Packet} (h : fld (wordAt p.payload 0) 63 62 = 0) (s : State) :
    (concMapCmd.eff s p).st = s.modView (viewFields p).1 (View.mapped p) := by
  simp only [concMapCmd, h]
  rfl

/-- What member record `i` makes of the membership in the shadow copy (R224). -/
def Member.recorded (p : Packet) (i : Nat) (m : Member) : Member :=
  { m with shadow := { m.shadow with
    view := if bitAt (mrWord p i 0) 55 then some (Fin.ofNat 16 (fld (mrWord p i 0) 54 51)) else none
    terms := Vector.ofFn fun j => mrWord p i (1 + j.val) } }

/-- Member records change the sequencers that they name, one after another. -/
theorem concMap_records {p : Packet} (h : fld (wordAt p.payload 0) 63 62 = 1) (s : State) :
    (concMapCmd.eff s p).st = (List.range (fld (wordAt p.payload 0) 61 53)).foldl
      (fun s i => s.modMember (fld (mrWord p i 0) 63 56) (Member.recorded p i)) s := by
  simp only [concMapCmd, h]
  rfl

/-- A query changes nothing, and replies the words of the view (Table 9.7). -/
theorem concMap_queries {p : Packet} (h : fld (wordAt p.payload 0) 63 62 = 2) (s : State) : concMapCmd.eff s p =
    { st := s, changed := false, reply := some (s.viewWords (fld (wordAt p.payload 0) 61 58)) } := by
  simp only [concMapCmd, h]

/-- CONC_MAP leaves the command state alone. -/
theorem concMap_host (p : Packet) (s : State) : (concMapCmd.eff s p).st.host = s.host := by
  unfold concMapCmd; dsimp only
  split
  · rfl
  · simp
  · rfl

theorem concMap_answers (p : Packet) : Answers (.concMap p) concMapCmd p fun s t =>
    let w0 := wordAt p.payload 0
    (fld w0 63 62 = 0 → bitAt w0 57 = false →
      (t.vw (viewFields p).1).defined = true ∧ (t.vw (viewFields p).1).w = (viewFields p).2.1 ∧
      (t.vw (viewFields p).1).base = (viewFields p).2.2.1 ∧ (t.vw (viewFields p).1).age = (viewFields p).2.2.2 ∧
      (t.vw (viewFields p).1).bank1 = (s.vw (viewFields p).1).bank1 ∧
      (t.vw (viewFields p).1).gather = (List.range (viewFields p).2.1).map fun i => gatherRead (gatherField p i)) ∧
    (fld w0 63 62 = 0 → bitAt w0 57 = true → t.vw (viewFields p).1 = {}) ∧
    (fld w0 63 62 = 0 → ∀ v, v ≠ (viewFields p).1 → t.vw v = s.vw v) ∧
    (fld w0 63 62 = 1 → fld w0 61 53 = 1 →
      let r := mrWord p 0 0
      (t.mem (fld r 63 56)).shadow.view = (if bitAt r 55 then some (Fin.ofNat 16 (fld r 54 51)) else none) ∧
      (t.mem (fld r 63 56)).shadow.terms = Vector.ofFn (fun j => mrWord p 0 (1 + j.val)) ∧
      (t.mem (fld r 63 56)).active = (s.mem (fld r 63 56)).active) ∧
    (fld w0 63 62 = 2 → t.conc = s.conc ∧ Posted p (s.host.accept + 1) 0 (some (s.viewWords (fld w0 61 58))) t) := by
  refine answers_of (fun _ => rfl) fun s hr => ⟨by simp [concMap_host], fun hm hd => ?_, fun hm hd => ?_, fun hm v hv => ?_,
    fun hm hn => ?_, fun hm => ?_⟩
  · rw [commit_vw, concMap_defines hm, vw_modView_same _ _ _ (viewFields_lt p), entry_vw, View.mapped, if_neg (by simp [hd])]
    exact ⟨rfl, rfl, rfl, rfl, rfl, rfl⟩
  · rw [commit_vw, concMap_defines hm, vw_modView_same _ _ _ (viewFields_lt p), View.mapped, if_pos hd]
  · rw [commit_vw, concMap_defines hm, vw_modView_ne _ _ hv, entry_vw]
  · have hst := concMap_records hm (concMapCmd.entry p s)
    rw [hn, List.range_one, List.foldl_cons, List.foldl_nil] at hst
    dsimp only
    rw [commit_mem, hst, mem_modMember_same _ _ _ (fld_seq _), entry_mem]
    exact ⟨rfl, rfl, rfl⟩
  · have hp := ready_posted hr (by rw [concMap_queries hm]) (by rw [concMap_queries hm]) (by simp [concMap_queries hm])
      (by simp [concMap_queries hm])
    rw [concMap_queries hm] at hp ⊢
    exact ⟨by simp, by simpa using hp⟩

/-! ## CONC_WRITE (Table 9.8) -/

/-- The first entry that CONC_WRITE writes. -/
def State.writeAt (s : State) (p : Packet) : Nat :=
  (s.vw (fld (wordAt p.payload 0) 61 58)).base + fld (wordAt p.payload 0) 57 37

/-- What CONC_WRITE makes of the shadow bank: its words, or as many times the one word of a fill (R234). -/
def State.writtenBank (s : State) (p : Packet) (m : Sparse Word) : Sparse Word :=
  if fld (wordAt p.payload 0) 63 62 = 0 then Sparse.setList 0 m (s.writeAt p) (p.payload.drop 1)
  else Sparse.fill 0 m (s.writeAt p) (wordAt p.payload 1) (fld (wordAt p.payload 0) 36 15)

/-- CONC_WRITE writes the bank of the view that is not active (R234). -/
theorem concWrite_st (p : Packet) (s : State) : (concWriteCmd.eff s p).st =
    s.writeBank (!(s.vw (fld (wordAt p.payload 0) 61 58)).bank1) (s.writeAt p) (fld (wordAt p.payload 0) 36 15) (s.writtenBank p) := by
  unfold concWriteCmd State.writtenBank; dsimp only
  split <;> rfl

/-- A write of a bank leaves the other one, the views and the members alone. -/
theorem writeBank_conc (b : Bool) (a n : Nat) (f : Sparse Word → Sparse Word) (s : State) :
    (s.writeBank b a n f).conc.cb0 = (if b then s.conc.cb0 else f s.conc.cb0) ∧
    (s.writeBank b a n f).conc.cb1 = (if b then f s.conc.cb1 else s.conc.cb1) ∧
    (s.writeBank b a n f).conc.view = s.conc.view ∧ (s.writeBank b a n f).conc.member = s.conc.member := by
  cases b <;> exact ⟨rfl, rfl, rfl, rfl⟩

@[simp] theorem entry_writtenBank (c : Command) (p : Packet) (s : State) : (c.entry p s).writtenBank p = s.writtenBank p := by
  funext m
  simp [State.writtenBank, State.writeAt]

theorem concWrite_answers (p : Packet) : Answers (.concWrite p) concWriteCmd p fun s t =>
    let w := wordAt p.payload 0
    let x := s.vw (fld w 61 58)
    (fld w 63 62 = 0 → x.bank1 = false →
      t.conc.cb1 = Sparse.setList 0 s.conc.cb1 (x.base + fld w 57 37) (p.payload.drop 1) ∧ t.conc.cb0 = s.conc.cb0) ∧
    (fld w 63 62 = 0 → x.bank1 = true →
      t.conc.cb0 = Sparse.setList 0 s.conc.cb0 (x.base + fld w 57 37) (p.payload.drop 1) ∧ t.conc.cb1 = s.conc.cb1) ∧
    (fld w 63 62 = 1 → x.bank1 = false →
      t.conc.cb1 = Sparse.fill 0 s.conc.cb1 (x.base + fld w 57 37) (wordAt p.payload 1) (fld w 36 15) ∧ t.conc.cb0 = s.conc.cb0) ∧
    (fld w 63 62 = 1 → x.bank1 = true →
      t.conc.cb0 = Sparse.fill 0 s.conc.cb0 (x.base + fld w 57 37) (wordAt p.payload 1) (fld w 36 15) ∧ t.conc.cb1 = s.conc.cb1) ∧
    t.conc.view = s.conc.view ∧ t.conc.member = s.conc.member := by
  refine answers_of (fun _ => rfl) fun s _ => ⟨by simp [concWrite_st], ?_⟩
  dsimp only
  obtain ⟨h0, h1, hv, hq⟩ := writeBank_conc (!(s.vw (fld (wordAt p.payload 0) 61 58)).bank1) ((concWriteCmd.entry p s).writeAt p)
    (fld (wordAt p.payload 0) 36 15) (s.writtenBank p) (concWriteCmd.entry p s)
  rw [commit_conc, concWrite_st, entry_vw, entry_writtenBank, h0, h1, hv, hq, entry_conc]
  refine ⟨fun hm hb => ?_, fun hm hb => ?_, fun hm hb => ?_, fun hm hb => ?_, rfl, rfl⟩
  all_goals simp [State.writtenBank, State.writeAt, hm, hb]

/-! ## CONC_COMMIT (R235, R238) -/

/-- A view whose commit has begun in tick `n`. -/
def View.committing (p : Packet) (n : Nat) (x : View) : View :=
  { x with st := .verifying, since := n, copyback := bitAt (wordAt p.payload 0) 57, digest := num32 p.payload 1 }

/-- A commit begins, as a long command. -/
theorem concCommit_begins {p : Packet} (h : fld (wordAt p.payload 0) 63 62 = 0) (s : State) :
    (concCommitCmd.eff s p).st = s.modView (fld (wordAt p.payload 0) 61 58) (View.committing p s.now) ∧
      (concCommitCmd.eff s p).long = true := by
  unfold concCommitCmd; dsimp only
  rw [if_pos h]
  exact ⟨rfl, rfl⟩

/-- A cancel ends the commit, and leaves its view STEADY (R238). -/
theorem concCommit_cancels {p : Packet} (h : fld (wordAt p.payload 0) 63 62 ≠ 0) (s : State) :
    (concCommitCmd.eff s p).st = (s.modView (fld (wordAt p.payload 0) 61 58) fun x =>
      { x with st := .steady, lastCommit := 3 }).commitEnd (fld (wordAt p.payload 0) 61 58) 0 := by
  unfold concCommitCmd; dsimp only
  rw [if_neg h]

/-- CONC_COMMIT leaves the acceptance count and the banks alone. -/
theorem concCommit_keeps (p : Packet) (s : State) : (concCommitCmd.eff s p).st.host.accept = s.host.accept ∧
    (concCommitCmd.eff s p).st.conc.cb0 = s.conc.cb0 ∧ (concCommitCmd.eff s p).st.conc.cb1 = s.conc.cb1 := by
  by_cases h : fld (wordAt p.payload 0) 63 62 = 0
  · rw [(concCommit_begins h s).1]
    exact ⟨rfl, rfl, rfl⟩
  · rw [concCommit_cancels h, commitEnd_accept, commitEnd_conc]
    exact ⟨rfl, rfl, rfl⟩

/-- A long command is open once it has committed (R309). -/
theorem commit_opens_long (s0 : State) (f : Fetched) (a : BitVec 32) (e : Effect) (h : e.long = true) :
    ∃ o ∈ (State.commit s0 f a e).host.open_, o.packet = f.packet ∧ o.long = true := by
  have ho : ∃ o : OpenCmd, o ∈ (State.commit s0 f a e).host.open_ ∧ o.packet = f.packet ∧ o.long = e.long := by
    unfold State.commit
    simp only [h, Bool.true_or, if_true, State.vectorsLast_host]
    split
    · exact ⟨_, by simp only [State.journalCommit_frame]; exact List.mem_append_right _ (List.mem_singleton_self _), rfl, rfl⟩
    · exact ⟨_, by simp only [State.post_host, State.journalCommit_frame]; exact List.mem_append_right _ (List.mem_singleton_self _), rfl, rfl⟩
  rwa [h] at ho

theorem concCommit_answers (p : Packet) : Answers (.concCommit p) concCommitCmd p fun s t =>
    let w := wordAt p.payload 0
    let v := fld w 61 58
    (fld w 63 62 = 0 → (t.vw v).st = .verifying ∧ (t.vw v).since = s.now ∧ (t.vw v).copyback = bitAt w 57 ∧
      (t.vw v).digest = num32 p.payload 1 ∧ (t.vw v).bank1 = (s.vw v).bank1 ∧ ∃ o ∈ t.host.open_, o.packet = p ∧ o.long = true) ∧
    (fld w 63 62 = 1 → (t.vw v).st = .steady ∧ (t.vw v).lastCommit = 3 ∧ (t.vw v).bank1 = (s.vw v).bank1) ∧
    t.conc.cb0 = s.conc.cb0 ∧ t.conc.cb1 = s.conc.cb1 := by
  refine answers_of (fun _ => rfl) fun s _ => ?_
  obtain ⟨ha, h0, h1⟩ := concCommit_keeps p (concCommitCmd.entry p s)
  refine ⟨by simp [ha], fun hm => ?_, fun hm => ?_, by rw [commit_conc, h0, entry_conc], by rw [commit_conc, h1, entry_conc]⟩
  · obtain ⟨hst, hl⟩ := concCommit_begins hm (concCommitCmd.entry p s)
    have ho := commit_opens_long (concCommitCmd.entry p s) (s.fetchedAs concCommitCmd.opcode p) (s.host.accept + 1) _ hl
    rw [State.fetchedAs_packet] at ho
    rw [commit_vw, hst, vw_modView_same _ _ _ (fld_view _), entry_vw, entry_now]
    exact ⟨rfl, rfl, rfl, rfl, rfl, ho⟩
  · rw [commit_vw, concCommit_cancels (by simp [hm]), vw_commitEnd, vw_modView_same _ _ _ (fld_view _), entry_vw]
    exact ⟨rfl, rfl, rfl⟩

/-- Settles O44: the committed state has the Concordance of the effect, in which CONC_MAP has changed its view or the memberships of its
records, CONC_WRITE the shadow bank, and CONC_COMMIT the state of its view. -/
theorem concordanceCommandsComplete : Obligations.ConcordanceCommandsComplete :=
  ⟨concMap_answers, concWrite_answers, concCommit_answers⟩

end Sys2Proof.Machine
end

section
/-!
PROOFS. The events of the Concordance: fills (R309), verifications, landings and copy-backs (R235 to R237), and the scrub (R239).
-/
namespace Sys2Proof.Machine

/-- A fill's command completes. -/
theorem concFillEnd_finishes (o : OpenCmd) : Completes .concFillEnd (fun s => s.openOf 0x0902 = some o) fun s t =>
    t.now = s.now ∧ Finished o 0 none s t := by
  intro s ho
  refine ⟨_, show execConcFillEnd s = _ by unfold execConcFillEnd; rw [ho], ?_⟩
  exact ⟨finish_now o 0 none _ _ _ s _, finish_finished o 0 none _ _ _ s _⟩

/-! ## Verification (R235) -/

/-- The tick in which the verification of view `v` ends. -/
def State.verifiedAt (s : State) (v : Nat) : Nat := (s.vw v).since + (s.vw v).size

/-- The state in which the verification of view `v` has ended and been reported. -/
def State.verified (v detail : Nat) (s : State) : State :=
  ((s.runTo (s.verifiedAt v)).note (viewRec v (BitVec.ofNat 32 detail))).raiseOwned 5 (s.vw v).owner

/-- A verification's end is reported outside the Concordance and the sequencers. -/
theorem verified_keeps (v d : Nat) (s : State) : (s.verified v d).conc = s.conc ∧ (s.verified v d).seqs = s.seqs ∧
    (s.verified v d).time = (s.runTo (s.verifiedAt v)).time := by
  simp [State.verified]

theorem verified_now (v d : Nat) {s : State} (h : s.now ≤ s.verifiedAt v) : (s.verified v d).now = s.verifiedAt v := by
  rw [State.now_congr (verified_keeps v d s).2.2, State.runTo_now _ _ h]

/-- A mismatch leaves the banks, and ends the commit with the status 0x0601 (log entry 70). -/
theorem verificationEnd_fails (v : Fin 16) : Completes (.verificationEnd v)
    (fun s => (s.vw v.val).st = .verifying ∧ sm3 (s.viewMessage v.val) ≠ (s.vw v.val).digest ∧
      s.now ≤ (s.vw v.val).since + (s.vw v.val).size)
    fun s t => t.now = (s.vw v.val).since + (s.vw v.val).size ∧ (t.vw v.val).st = .steady ∧ (t.vw v.val).lastCommit = 2 ∧
      (t.vw v.val).bank1 = (s.vw v.val).bank1 := by
  rintro s ⟨hv, hd, hn⟩
  have hx : execVerificationEnd v s =
      .next (((s.verified v.val 2).modView v.val fun x => { x with st := .steady, lastCommit := 2 }).commitEnd v.val 0x0601) := by
    have hf : decide (sm3 ((s.runTo ((s.vw v.val).since + (s.vw v.val).size)).viewMessage v.val) = (s.vw v.val).digest) = false :=
      decide_eq_false hd
    unfold execVerificationEnd; dsimp only
    rw [if_neg (not_not_intro hv), hf]
    rfl
  refine ⟨_, hx, (commitEnd_now _ _ _).trans (verified_now v.val 2 hn), ?_⟩
  rw [vw_commitEnd, vw_modView_same _ _ _ v.isLt, vw_congr (verified_keeps v.val 2 s).1]
  exact ⟨rfl, rfl, rfl⟩

/-- A member that a swap has begun for: it stands on the old bank. -/
def Member.unlanded (m : Member) : Member := { m with landed := false }

/-- A view that has entered SWAPPING in tick `t`. -/
def View.swapping (t : Nat) (x : View) : View := { x with st := .swapping, since := t }

/-- The state in which view `v` has entered SWAPPING, in the tick after its verification. -/
def State.swapOpened (v : Nat) (s : State) : State :=
  ((s.verified v 1).advance 1).modView v (View.swapping ((s.verified v 1).advance 1).now)

/-- The swap of view `v` has begun: each of its members stands on the old bank. -/
def State.swapBegun (v : Nat) (s : State) : State :=
  ((s.swapOpened v).members v).foldl (fun s q => s.modMember q Member.unlanded) (s.swapOpened v)

theorem swapOpened_members (v : Nat) (s : State) : (s.swapOpened v).members v = s.members v :=
  (members_modView _ _ _ _).trans (members_congr (verified_keeps v 1 s).1 v)

/-- What a change of a member to the old bank leaves alone, the begin of the swap leaves alone. -/
theorem swapBegun_keeps {β : Type} (g : State → β) (h : ∀ s q, g (s.modMember q Member.unlanded) = g s) (v : Nat) (s : State) :
    g (s.swapBegun v) = g (s.swapOpened v) := foldl_keeps g _ h _ _

theorem swapBegun_seqs (v : Nat) (s : State) : (s.swapBegun v).seqs = s.seqs :=
  (swapBegun_keeps (·.seqs) (fun _ _ => rfl) v s).trans (verified_keeps v 1 s).2.1

theorem swapBegun_members (v : Nat) (s : State) : (s.swapBegun v).members v = s.members v :=
  (swapBegun_keeps (·.members v) (fun s q => members_modMember q v (f := Member.unlanded) (fun _ => rfl) s) v s).trans (swapOpened_members v s)

theorem swapBegun_now {s : State} {v : Nat} (h : s.now ≤ s.verifiedAt v) : (s.swapBegun v).now = s.verifiedAt v + 1 :=
  (swapBegun_keeps (·.now) (fun _ _ => rfl) v s).trans (congrArg (· + 1) (verified_now v 1 h))

theorem swapBegun_vw {s : State} {v : Nat} (h : v < 16) : ∃ n, (s.swapBegun v).vw v = (s.vw v).swapping n := by
  refine ⟨((s.verified v 1).advance 1).now, ?_⟩
  rw [swapBegun_keeps (·.vw v) (fun _ _ => rfl), State.swapOpened, vw_modView_same _ _ _ h]
  exact congrArg _ (vw_congr (verified_keeps v 1 s).1 v)

/-- Every member of the view stands on the old bank. -/
theorem swapBegun_mem {s : State} {v q : Nat} (h : q ∈ s.members v) : (s.swapBegun v).mem q = (s.mem q).unlanded := by
  rw [← swapOpened_members] at h
  obtain ⟨u, hu, e⟩ := foldl_at State.mem (fun s q => s.modMember q Member.unlanded) (fun s x y hxy => mem_modMember_ne _ s hxy)
    (List.nodup_range.filter _) h (s.swapOpened v)
  rw [State.swapBegun, State.members, e, mem_modMember_same _ _ _ (mem_members.1 h).1, hu, State.swapOpened, mem_modView]
  exact congrArg _ (mem_congr (verified_keeps v 1 s).1 q)

/-- A match begins the swap. With no member that may land, none does yet. -/
theorem exec_verificationEnd_swaps {s : State} {v : Fin 16} (hv : (s.vw v.val).st = .verifying)
    (hd : sm3 (s.viewMessage v.val) = (s.vw v.val).digest) (hl : ∀ q ∈ s.members v.val, (s.sq q).mayLand = false) :
    exec (.verificationEnd v) s = .next ((s.swapBegun v.val).checkLanded v.val (s.swapBegun v.val).now) := by
  have ht : decide (sm3 ((s.runTo ((s.vw v.val).since + (s.vw v.val).size)).viewMessage v.val) = (s.vw v.val).digest) = true :=
    decide_eq_true hd
  have hm : ((s.swapOpened v.val).members v.val).filter (fun q => ((s.swapBegun v.val).sq q).mayLand) = [] := by
    rw [List.filter_eq_nil_iff, swapOpened_members]
    intro q hq
    rw [sq_congr (swapBegun_seqs v.val s), hl q hq]
    exact Bool.false_ne_true
  have hx : exec (.verificationEnd v) s = .next (State.checkLanded v.val
      ((((s.swapOpened v.val).members v.val).filter fun q => ((s.swapBegun v.val).sq q).mayLand).foldl (fun s q => s.land q s.now)
        (s.swapBegun v.val)).now
      ((((s.swapOpened v.val).members v.val).filter fun q => ((s.swapBegun v.val).sq q).mayLand).foldl (fun s q => s.land q s.now)
        (s.swapBegun v.val))) := by
    show execVerificationEnd v s = _
    unfold execVerificationEnd; dsimp only
    rw [if_neg (not_not_intro hv), ht]
    rfl
  rw [hx, hm, List.foldl_nil]

/-- A view without members is swapped at once, and without a copy-back its commit ends. -/
theorem verificationEnd_completes (v : Fin 16) : Completes (.verificationEnd v)
    (fun s => (s.vw v.val).st = .verifying ∧ sm3 (s.viewMessage v.val) = (s.vw v.val).digest ∧ s.members v.val = [] ∧
      (s.vw v.val).copyback = false ∧ s.now ≤ (s.vw v.val).since + (s.vw v.val).size)
    fun s t => t.now = (s.vw v.val).since + (s.vw v.val).size + 1 ∧ (t.vw v.val).st = .steady ∧ (t.vw v.val).lastCommit = 1 ∧
      (t.vw v.val).bank1 = !(s.vw v.val).bank1 := by
  rintro s ⟨hv, hd, hm, hc, hn⟩
  obtain ⟨n, hw⟩ := swapBegun_vw (s := s) v.isLt
  refine ⟨_, exec_verificationEnd_swaps hv hd (by simp [hm]), ?_⟩
  dsimp only
  rw [checkLanded_swaps (by rw [hw]; rfl) (by rw [hw]; exact hc) (by simp [swapBegun_members, hm]), vw_commitEnd,
    vw_modView_same _ _ _ v.isLt, hw, commitEnd_now]
  exact ⟨swapBegun_now hn, if_neg (by rw [View.swapping, hc]; decide), rfl, rfl⟩

/-- A view whose members are all in shots waits for them on the old bank. -/
theorem verificationEnd_waits (v : Fin 16) (q : Nat) : Completes (.verificationEnd v)
    (fun s => (s.vw v.val).st = .verifying ∧ sm3 (s.viewMessage v.val) = (s.vw v.val).digest ∧ q ∈ s.members v.val ∧
      (∀ r ∈ s.members v.val, (s.sq r).mayLand = false) ∧ s.now ≤ (s.vw v.val).since + (s.vw v.val).size)
    fun s t => (t.vw v.val).st = .swapping ∧ (t.vw v.val).bank1 = (s.vw v.val).bank1 ∧ (t.mem q).landed = false ∧
      (t.mem q).bank1 = (s.mem q).bank1 := by
  rintro s ⟨hv, hd, hq, hl, -⟩
  have hm := swapBegun_mem hq
  obtain ⟨n, hw⟩ := swapBegun_vw (s := s) v.isLt
  refine ⟨_, exec_verificationEnd_swaps hv hd hl, ?_⟩
  dsimp only
  rw [checkLanded_waits (q := q) (by rwa [swapBegun_members]) (by rw [hm]; rfl), hw, hm]
  exact ⟨rfl, rfl, rfl, rfl⟩

/-! ## Landings and copy-backs (R236, R237) -/

theorem memberLanding_lands (q : Fin 256) (v : Fin 16) : Completes (.memberLanding q)
    (fun s => (s.sq q.val).mayLand = true ∧ (s.mem q.val).active.view = some v ∧ (s.vw v.val).st = .swapping ∧
      (s.mem q.val).landed = false)
    fun s t => (t.mem q.val).landed = true ∧ (t.mem q.val).bank1 = !(s.vw v.val).bank1 ∧ (t.sq q.val).landedAt = some s.now := by
  rintro s ⟨hm, hv, hs, hl⟩
  obtain ⟨f, g, hf, e⟩ := land_lands hv hs hl s.now
  refine ⟨_, show execMemberLanding q s = _ from if_pos hm, ?_⟩
  dsimp only
  rw [e, mem_checkLanded, sq_checkLanded, mem_modSeq, mem_modView, mem_modMember_same _ _ _ q.isLt, sq_modSeq_same _ _ _ q.isLt]
  exact ⟨rfl, rfl, hf _⟩

/-- The state in which the banks of a view have been copied, for a view whose active bank is CB1: CB0 takes its region. -/
def State.copiedBack (v : Nat) (s : State) : State :=
  let x := s.vw v
  let c := s.conc
  { s.runTo (x.since + x.size) with conc := { c with
    cb0 := Sparse.copy c.cb0 c.cb1 x.base x.size, img0 := Sparse.copy c.img0 c.img1 x.base x.size
    bad := c.bad.filter fun (b, i) => !(b != x.bank1 && x.holds i) } }

theorem copyingEnd_copies (v : Fin 16) : Completes (.copyingEnd v)
    (fun s => (s.vw v.val).st = .copying ∧ (s.vw v.val).bank1 = true ∧ s.now ≤ (s.vw v.val).since + (s.vw v.val).size)
    fun s t => t.now = (s.vw v.val).since + (s.vw v.val).size ∧ (t.vw v.val).st = .steady ∧
      t.conc.cb0 = Sparse.copy s.conc.cb0 s.conc.cb1 (s.vw v.val).base (s.vw v.val).size ∧ t.conc.cb1 = s.conc.cb1 := by
  rintro s ⟨hv, hb, hn⟩
  have hx : execCopyingEnd v s = .next (((s.copiedBack v.val).modView v.val fun x => { x with st := .steady }).commitEnd v.val 0) := by
    unfold execCopyingEnd; dsimp only
    rw [if_neg (not_not_intro hv), if_pos hb]
    rfl
  refine ⟨_, hx, ?_⟩
  dsimp only
  rw [commitEnd_now, vw_commitEnd, commitEnd_conc, vw_modView_same _ _ _ v.isLt]
  exact ⟨State.runTo_now _ s hn, rfl, rfl, rfl⟩

/-! ## The scrub (R239) -/

theorem scrub_clean (b : Bool) (i : Fin 2097152) : Completes (.concordanceScrub b i 0) (fun _ => True) fun s t => t = s :=
  fun s _ => ⟨s, rfl, rfl⟩

theorem scrub_corrects (b : Bool) (i : Fin 2097152) (v : Nat) : Completes (.concordanceScrub b i 1)
    (fun s => (List.range 16).find? (fun v => (s.vw v).holds i.val) = some v)
    fun s t => (t.vw v).corrected = (s.vw v).corrected + 1 ∧ t.conc.cb0 = s.conc.cb0 ∧ t.conc.cb1 = s.conc.cb1 := by
  intro s hv
  have hlt : v < 16 := List.mem_range.1 (List.mem_of_find?_eq_some hv)
  have hx : execConcordanceScrub b i 1 s = .next (s.modView v fun x => { x with corrected := x.corrected + 1 }) := by
    unfold execConcordanceScrub; dsimp only
    rw [hv]
    rfl
  refine ⟨_, hx, ?_⟩
  dsimp only
  rw [vw_modView_same _ _ _ hlt]
  exact ⟨rfl, rfl, rfl⟩

/-- A view with one more uncorrectable entry. -/
def View.lost (x : View) : View := { x with uncorrectable := satAdd 16 x.uncorrectable 1 }

/-- The state with entry `i` of a bank marked, and queued for repair. -/
def State.badEntry (b : Bool) (i : Nat) (s : State) : State :=
  { s with
    conc := { s.conc with bad := if s.conc.bad.contains (b, i) then s.conc.bad else (b, i) :: s.conc.bad }
    units := { s.units with repairs := s.units.repairs ++ [.concordance (if b then 1 else 0) i] } }

theorem badEntry_contains (b : Bool) (i : Nat) (s : State) : (s.badEntry b i).conc.bad.contains (b, i) = true := by
  unfold State.badEntry; dsimp only
  split
  · assumption
  · simp

/-- What the scrub reports of an uncorrectable entry leaves the entry marked and queued, and sets its trouble bit. -/
theorem badEntry_reported (b : Bool) (i : Nat) (r : LedgerRec) (s t : State)
    (hc : t.conc = (((s.badEntry b i).setTrouble 2 8).note r).conc) (hu : t.units = (((s.badEntry b i).setTrouble 2 8).note r).units)
    (ht : t.trouble = (((s.badEntry b i).setTrouble 2 8).note r).trouble) :
    t.conc.bad.contains (b, i) = true ∧ bitAt t.trouble[2] 8 = true ∧
      t.units.repairs = s.units.repairs ++ [.concordance (if b then 1 else 0) i] := by
  rw [hc, hu, ht]
  exact ⟨by simpa using badEntry_contains b i s, note_keeps 2 8 (setTrouble_bit 2 8 _ (by decide)) r, by simp [State.badEntry]⟩

theorem scrub_marks (b : Bool) (i : Fin 2097152) : Completes (.concordanceScrub b i 2) (fun _ => True)
    fun s t => t.conc.bad.contains (b, i.val) = true ∧ bitAt t.trouble[2] 8 = true ∧
      t.units.repairs = s.units.repairs ++ [.concordance (if b then 1 else 0) i.val] := by
  intro s _
  cases hv : (List.range 16).find? fun v => (s.vw v).holds i.val with
  | none =>
    have hx : execConcordanceScrub b i 2 s =
        .next ((((s.badEntry b i.val).setTrouble 2 8).note (viewRec 15 (BitVec.ofNat 32 i.val))).raise 5) := by
      unfold execConcordanceScrub; dsimp only
      rw [hv]
      rfl
    exact ⟨_, hx, badEntry_reported b i.val (viewRec 15 (BitVec.ofNat 32 i.val)) s _ (by simp) (by simp) (by simp)⟩
  | some v =>
    have hx : ∃ o, execConcordanceScrub b i 2 s = .next (((((s.modView v View.lost).badEntry b i.val).setTrouble 2 8).note
        (viewRec v (BitVec.ofNat 32 i.val))).raiseOwned 5 o) := by
      unfold execConcordanceScrub; dsimp only
      rw [hv]
      exact ⟨_, rfl⟩
    obtain ⟨o, hx⟩ := hx
    exact ⟨_, hx, badEntry_reported b i.val (viewRec v (BitVec.ofNat 32 i.val)) (s.modView v View.lost) _ (by simp) (by simp) (by simp)⟩

/-- Settles O45: each event runs the clock to its tick and writes a view, its members or a bank; what it reports leaves the Concordance as
written. -/
theorem concordanceEventsComplete : Obligations.ConcordanceEventsComplete :=
  ⟨concFillEnd_finishes, verificationEnd_fails, verificationEnd_completes, verificationEnd_waits, memberLanding_lands, copyingEnd_copies,
    scrub_clean, scrub_corrects, scrub_marks⟩

end Sys2Proof.Machine
end

section
/-!
PROOFS. Reading an input, a pattern unit and a capture slot after a change of one of them, and what the ring of a slot holds (chapter 10).
-/
namespace Sys2Proof.Machine

/-! ## Inputs and slots -/

/-- An input is read from the triggers and captures alone. -/
theorem inp_congr {s t : State} (h : t.acq = s.acq) (i : Nat) : t.inp i = s.inp i := by simp [State.inp, h]

/-- A capture slot is read from the triggers and captures alone. -/
theorem cap_congr {s t : State} (h : t.acq = s.acq) (k : Nat) : t.cap k = s.cap k := by simp [State.cap, h]

@[simp] theorem inp_modIn_same (i : Nat) (f : TrigIn → TrigIn) (s : State) (h : i < 19) : (s.modIn i f).inp i = f (s.inp i) := by
  simp [State.inp, State.modIn, h]

/-- Any input after a change of one. -/
theorem inp_modIn (i j : Nat) (f : TrigIn → TrigIn) (s : State) :
    (s.modIn i f).inp j = if i = j ∧ j < 19 then f (s.inp j) else s.inp j := atN_updN _ _ _ _ _

@[simp] theorem cap_modCap_same (k : Nat) (f : CapSlot → CapSlot) (s : State) (h : k < 512) : (s.modCap k f).cap k = f (s.cap k) := by
  simp [State.cap, State.modCap, h]

@[simp] theorem cap_modCap_ne {k j : Nat} (f : CapSlot → CapSlot) (s : State) (h : j ≠ k) : (s.modCap k f).cap j = s.cap j :=
  atN_updN_ne _ _ _ _ _ h.symm

/-- A commit leaves the triggers and captures as the effect has them. -/
theorem commit_acq (s0 : State) (f : Fetched) (a : BitVec 32) (e : Effect) : (State.commit s0 f a e).acq = e.st.acq := by simp

theorem entry_acq (c : Command) (p : Packet) (s : State) : (c.entry p s).acq = s.acq := by simp

theorem commit_inp (s0 : State) (f : Fetched) (a : BitVec 32) (e : Effect) (i : Nat) : (State.commit s0 f a e).inp i = e.st.inp i :=
  inp_congr (commit_acq s0 f a e) i

theorem commit_cap (s0 : State) (f : Fetched) (a : BitVec 32) (e : Effect) (k : Nat) : (State.commit s0 f a e).cap k = e.st.cap k :=
  cap_congr (commit_acq s0 f a e) k

@[simp] theorem entry_inp (c : Command) (p : Packet) (i : Nat) (s : State) : (c.entry p s).inp i = s.inp i :=
  inp_congr (entry_acq c p s) i

@[simp] theorem entry_cap (c : Command) (p : Packet) (k : Nat) (s : State) : (c.entry p s).cap k = s.cap k :=
  cap_congr (entry_acq c p s) k

theorem capSlotOf_lt (p : Packet) : capSlotOf p < 512 := by
  have hl : fld (wordAt p.payload 0) 61 57 < 32 := fld_lt _ 61 57
  have hs : fld (wordAt p.payload 0) 56 53 < 16 := fld_lt _ 56 53
  unfold capSlotOf
  dsimp only
  omega

/-! ## What a packet's routine does not reach -/

@[simp] theorem entry_liveBinder (c : Command) (p : Packet) (b : Binding) (s : State) : (c.entry p s).liveBinder b = s.liveBinder b := by
  simp [State.liveBinder]

@[simp] theorem entry_ringFor (c : Command) (p : Packet) (k : Nat) (x : Plan) (s : State) :
    (c.entry p s).ringFor k x = s.ringFor k x := by
  have hr (f : CapSlot → CapSlot) (n : Nat) : ((c.entry p s).modCap k f).shareRuns n = (s.modCap k f).shareRuns n := by
    simp only [State.shareRuns, State.modCap, entry_frame]
  simp only [State.ringFor, State.ringFor.room, State.shareGranules, State.demodOwner, State.modCap_frame, entry_frame, entry_cap, hr]

@[simp] theorem entry_capWords (c : Command) (p : Packet) (k : Nat) (s : State) : (c.entry p s).capWords k = s.capWords k := by
  have hd (n : Nat) : (c.entry p s).acqDemand n = s.acqDemand n := by simp only [State.acqDemand, entry_frame]
  simp only [State.capWords, State.capState, State.bufferUsed, State.demodOwner, hd, entry_cap, entry_dm, entry_now, entry_frame]

/-! ## Rings (R263) -/

/-- The words of a ring that are not read. -/
def Ring.stream (r : Ring) : Words := r.recs.flatten.drop r.read

theorem stream_eq (c : CapSlot) : c.stream = c.rings.flatMap Ring.stream := rfl

theorem Ring.length_stream (r : Ring) : r.stream.length = r.words := by
  simp [Ring.stream, Ring.words, List.length_flatten]

theorem Ring.go_stream (n : Nat) (l : List Record) (r : Ring) : (Ring.consume.go n l r).stream = l.flatten.drop (n + r.read) := by
  induction l generalizing n r with
  | nil => simp [Ring.consume.go, Ring.stream]
  | cons x l ih =>
    unfold Ring.consume.go
    split
    · next hx => simp [ih, List.drop_append, hx]
    · rfl

/-- A read takes words off the front of a ring. -/
theorem Ring.consume_stream (n : Nat) (r : Ring) : (r.consume n).stream = r.stream.drop n := by
  rw [Ring.consume, Ring.go_stream, Ring.stream, List.drop_drop, Nat.add_comm]

/-- A read takes words off the front of the rings, from the oldest on. -/
theorem consumeAll_stream (n : Nat) (l : List Ring) :
    (consumeAll n l).flatMap Ring.stream = (l.flatMap Ring.stream).drop n := by
  induction l generalizing n with
  | nil => simp [consumeAll]
  | cons r l ih =>
    unfold consumeAll
    split
    · subst n; simp
    · rw [List.flatMap_cons, List.flatMap_cons, ih, Ring.consume_stream, List.drop_append, Ring.length_stream]

/-- Elements that bring nothing may go. -/
theorem flatMap_filter_zipIdx {α β : Type} (g : α → List β) (f : α × Nat → Bool) (l : List α) (m : Nat)
    (h : ∀ x i, f (x, i) = false → g x = []) : ((((l.zipIdx m).filter f).map (·.1)).flatMap g) = l.flatMap g := by
  induction l generalizing m with
  | nil => rfl
  | cons x l ih =>
    rw [List.zipIdx_cons, List.filter_cons]
    split
    · simp [ih]
    · next hx => simp [ih, h x m (eq_false_of_ne_true hx)]

/-- Only rings without words are freed. -/
theorem freeRings_stream (b : Bool) (c : CapSlot) : (c.freeRings b).stream = c.stream := by
  refine flatMap_filter_zipIdx Ring.stream _ c.rings 0 fun r i h => ?_
  simp only [Bool.or_eq_false_iff, bne_eq_false_iff_eq] at h
  exact List.eq_nil_of_length_eq_zero (r.length_stream.trans h.1.1)

end Sys2Proof.Machine
end

section
/-!
PROOFS. What PATTERN_CONFIG, CAPTURE_CONFIG and CAPTURE_READ do (group 0x0A: R250, R252, R254, R263).
-/
namespace Sys2Proof.Machine

/-! ## PATTERN_CONFIG (Tables 10.7 and 10.8) -/

/-- The records of the payload. -/
abbrev patRecs (p : Packet) : List PatRec := (List.range (fld (wordAt p.payload 0) 63 57)).map (patRead p)

/-- PATTERN_CONFIG writes its records in payload order, and then lets the inputs and units that they change settle. -/
theorem patternConfig_st (p : Packet) (s : State) : (patternConfigCmd.eff s p).st = State.patSettle s.svSync
    ((patRecs p).foldl State.patApply s.svSync) := by simp only [patternConfigCmd, patRecs]

/-- PATTERN_CONFIG leaves the command state alone. -/
theorem patternConfig_host (p : Packet) (s : State) : (patternConfigCmd.eff s p).st.host = s.host := by simp [patternConfig_st]

/-- An input but for its filtered level, which a change of settings takes afresh (R252). -/
def TrigIn.unfiltered (x : TrigIn) : TrigIn := { x with level := false, levelAt := 0, isStuck := false }

/-- A pattern unit but for its previous match, which a change of settings takes afresh (R252). -/
def PatUnit.settings (x : PatUnit) : PatUnit := { x with prev := false }

/-- Taking the matches of the tick before touches no setting and no count of a unit. -/
theorem svSync_unit (u : Nat) (s : State) : (atN s.svSync.acq.unit u {}).settings = (atN s.acq.unit u {}).settings := by
  unfold State.svSync; dsimp only
  split
  · rfl
  · unfold atN; dsimp only
    split
    · simp [PatUnit.settings]
    · rfl

/-- Taking the matches of the tick before leaves the inputs, the selects and the captures alone. -/
theorem svSync_acq (s : State) :
    s.svSync.acq.input = s.acq.input ∧ s.svSync.acq.select = s.acq.select ∧ s.svSync.acq.cap = s.acq.cap := by
  unfold State.svSync; dsimp only
  split <;> exact ⟨rfl, rfl, rfl⟩

/-- Unit `u` takes its match of vector `v` as its previous match (R252). -/
def State.rematch (u : Nat) (v : Word) (s : State) : State :=
  { s with acq := { s.acq with unit := updN s.acq.unit u fun x => { x with prev := x.matches_ v } } }

/-- What settles leaves what an observation `g` sees when the filtered level of an input and the previous match of a unit do not matter
to it. -/
theorem patSettle_keeps {β : Type} (g : State → β) (hi : ∀ s i t, g (s.modIn i (TrigIn.resettle t)) = g s)
    (hu : ∀ s u v, g (State.rematch u v s) = g s) (s0 s : State) : g (State.patSettle s0 s) = g s := by
  unfold State.patSettle; dsimp only
  rw [foldl_keeps g _ fun s u => ?_, foldl_keeps g _ fun s i => ?_]
  · split
    · rfl
    · exact hi _ _ _
  · split
    · exact hu _ _ _
    · rfl

theorem patSettle_select (s0 s : State) : (State.patSettle s0 s).acq.select = s.acq.select :=
  patSettle_keeps (·.acq.select) (fun _ _ _ => rfl) (fun _ _ _ => rfl) s0 s

theorem patSettle_cap (s0 s : State) : (State.patSettle s0 s).acq.cap = s.acq.cap :=
  patSettle_keeps (·.acq.cap) (fun _ _ _ => rfl) (fun _ _ _ => rfl) s0 s

theorem patSettle_inp (s0 s : State) (i : Nat) : ((State.patSettle s0 s).inp i).unfiltered = (s.inp i).unfiltered := by
  refine patSettle_keeps (fun s => (s.inp i).unfiltered) (fun s j t => ?_) (fun _ _ _ => rfl) s0 s
  rw [inp_modIn]
  split <;> rfl

theorem patSettle_unit (s0 s : State) (u : Nat) :
    (atN (State.patSettle s0 s).acq.unit u {}).settings = (atN s.acq.unit u {}).settings := by
  refine patSettle_keeps (fun s => (atN s.acq.unit u {}).settings) (fun _ _ _ => rfl) (fun s j v => ?_) s0 s
  dsimp only [State.rematch]
  rw [atN_updN]
  split <;> rfl

/-- Inputs that keep their settings keep their filtered levels (R252). -/
theorem patSettle_input (s0 s : State) (h : s.acq.input = s0.acq.input) : (State.patSettle s0 s).acq.input = s.acq.input := by
  have hs (u : State) (hu : u.acq.input = s.acq.input) (i : Nat) : (u.inp i).sameSettings (s0.inp i) = true := by
    simp [State.inp, hu, h, TrigIn.sameSettings]
  unfold State.patSettle; dsimp only
  rw [foldl_keeps (·.acq.input) _ fun u n => ?_]
  · refine List.foldlRecOn (motive := fun u : State => u.acq.input = s.acq.input) _ _ rfl fun u hu i _ => ?_
    rw [if_pos (hs u hu i)]
    exact hu
  · split <;> rfl

/-- The selects after records depend on the selects before them alone. -/
theorem patApply_select (l : List PatRec) {s t : State} (h : t.acq.select = s.acq.select) :
    (l.foldl State.patApply t).acq.select = (l.foldl State.patApply s).acq.select := by
  induction l generalizing s t with
  | nil => exact h
  | cons r l ih =>
    refine ih ?_
    unfold State.patApply
    split <;> split <;> simp [h, State.modIn]

/-- Records leave the captures alone. -/
theorem patApply_cap (l : List PatRec) (s : State) : (l.foldl State.patApply s).acq.cap = s.acq.cap := by
  refine foldl_keeps (·.acq.cap) _ (fun s r => ?_) l s
  unfold State.patApply
  split <;> split <;> rfl

/-- PATTERN_CONFIG with one record. -/
theorem patternConfig_one {p : Packet} {r : PatRec} (hn : (patRecs p).length = 1) (hr : patRead p 0 = r) (s : State) :
    (patternConfigCmd.eff s p).st = State.patSettle s.svSync (s.svSync.patApply r) ∧
      (patternConfigCmd.eff s p).reply = some [(State.patSettle s.svSync (s.svSync.patApply r)).patWords r] := by
  rw [List.length_map, List.length_range] at hn
  unfold patternConfigCmd; dsimp only
  rw [hn, ← hr]
  exact ⟨rfl, rfl⟩

/-- A record of a select writes its entry (R249). -/
theorem patternConfig_selects {p : Packet} {i : Nat} {e : Select} (hn : (patRecs p).length = 1)
    (hr : patRead p 0 = .select i false e) (hi : i < 42) (s : State) : atN (patternConfigCmd.eff s p).st.acq.select i {} = e := by
  rw [(patternConfig_one hn hr s).1, patSettle_select]
  simp [State.patApply, hi]

/-- A record of an input writes its settings, and makes no event (R252). -/
theorem patternConfig_input {p : Packet} {i dir fi st : Nat} {al both : Bool} (hn : (patRecs p).length = 1)
    (hr : patRead p 0 = .input i false al both dir fi st) (hi : i < 19) (s : State) :
    ((patternConfigCmd.eff s p).st.inp i).unfiltered =
      { s.inp i with actlow := al, both := both, dir := dir, filter := fi, stuck := st }.unfiltered := by
  have hv : s.svSync.inp i = s.inp i := by simp [State.inp, (svSync_acq s).1]
  rw [(patternConfig_one hn hr s).1, patSettle_inp]
  simp [State.patApply, hi, hv]

/-- A record of a unit writes its settings (R250, R252). -/
theorem patternConfig_unit {p : Packet} {u : Nat} {en : Bool} {v m : Word} (hn : (patRecs p).length = 1)
    (hr : patRead p 0 = .unit u false en v m) (hu : u < 32) (s : State) :
    (atN (patternConfigCmd.eff s p).st.acq.unit u {}).settings =
        { (atN s.acq.unit u {}).settings with en := en, value := v, mask := m } ∧
      (patternConfigCmd.eff s p).st.acq.input = s.acq.input := by
  have ha : (s.svSync.patApply (.unit u false en v m)).acq.unit =
    updN s.svSync.acq.unit u fun x => { x with en := en, value := v, mask := m } := rfl
  have hs := patSettle_input s.svSync (s.svSync.patApply (.unit u false en v m)) rfl
  rw [(patternConfig_one hn hr s).1, patSettle_unit, ha, atN_updN_same _ _ _ _ hu, hs, ← svSync_unit]
  exact ⟨rfl, (svSync_acq s).1⟩

/-- A query of a unit replies its count (Table 10.8). -/
theorem patternConfig_queries {p : Packet} {u : Nat} {en : Bool} {v m : Word} (hn : (patRecs p).length = 1)
    (hr : patRead p 0 = .unit u true en v m) (s : State) :
    (patternConfigCmd.eff s p).reply = some [put 63 32 (atN s.acq.unit u {}).fires.toNat] := by
  have hf := congrArg PatUnit.fires ((patSettle_unit s.svSync (s.svSync.patApply (.unit u true en v m)) u).trans (svSync_unit u s))
  rw [(patternConfig_one hn hr s).2]
  exact congrArg (fun n : BitVec 32 => some [put 63 32 n.toNat]) hf

theorem patternConfig_answers (p : Packet) : Answers (.patternConfig p) patternConfigCmd p fun s t =>
    let l := (List.range (fld (wordAt p.payload 0) 63 57)).map (patRead p)
    t.acq.select = (l.foldl State.patApply s).acq.select ∧ t.acq.cap = s.acq.cap ∧
    (l.length = 1 → ∀ i e, patRead p 0 = .select i false e → i < 42 → atN t.acq.select i {} = e) ∧
    (l.length = 1 → ∀ i al both dir fi st, patRead p 0 = .input i false al both dir fi st → i < 19 →
      (t.inp i).actlow = al ∧ (t.inp i).both = both ∧ (t.inp i).dir = dir ∧ (t.inp i).filter = fi ∧ (t.inp i).stuck = st ∧
      (t.inp i).events = (s.inp i).events) ∧
    (l.length = 1 → ∀ u en v m, patRead p 0 = .unit u false en v m → u < 32 →
      (atN t.acq.unit u {}).en = en ∧ (atN t.acq.unit u {}).value = v ∧ (atN t.acq.unit u {}).mask = m ∧
      (atN t.acq.unit u {}).fires = (atN s.acq.unit u {}).fires ∧ t.acq.input = s.acq.input) ∧
    (l.length = 1 → ∀ u en v m, patRead p 0 = .unit u true en v m →
      Posted p (s.host.accept + 1) 0 (some [put 63 32 (atN s.acq.unit u {}).fires.toNat]) t) := by
  refine answers_of (fun _ => rfl) fun s hr => ?_
  dsimp only
  have hc := patternConfig_host p (patternConfigCmd.entry p s)
  rw [commit_acq]
  refine ⟨by simp [hc], ?_, ?_, fun hn i e he hi => patternConfig_selects hn he hi _, fun hn i al both dir fi st he hi => ?_,
    fun hn u en v m he hu => ?_, fun hn u en v m he => ?_⟩
  · rw [patternConfig_st, patSettle_select]
    exact patApply_select _ (by rw [(svSync_acq _).2.1, entry_acq])
  · rw [patternConfig_st, patSettle_cap, patApply_cap, (svSync_acq _).2.2, entry_acq]
  · have h := patternConfig_input hn he hi (patternConfigCmd.entry p s)
    rw [entry_inp] at h
    rw [commit_inp]
    exact ⟨congrArg TrigIn.actlow h, congrArg TrigIn.both h, congrArg TrigIn.dir h, congrArg TrigIn.filter h,
      congrArg TrigIn.stuck h, (congrArg TrigIn.events h :)⟩
  · obtain ⟨h, hin⟩ := patternConfig_unit hn he hu (patternConfigCmd.entry p s)
    rw [entry_acq] at h hin
    exact ⟨congrArg PatUnit.en h, congrArg PatUnit.value h, congrArg PatUnit.mask h, (congrArg PatUnit.fires h :), hin⟩
  · have hp := ready_posted hr rfl rfl (by simp [hc]) (by simp [hc])
    rw [patternConfig_queries hn he, entry_acq] at hp
    exact hp

/-! ## CAPTURE_CONFIG (Tables 10.6, 10.9 and 10.10) -/

/-- A record of slot `k` leaves every other slot alone. -/
theorem cap_emit_ne {k j : Nat} (full : Bool) (h : Header) (data : Words) (s : State) (hj : j ≠ k) :
    (s.emit k full h data).cap j = s.cap j := by
  unfold State.emit
  split
  · rfl
  · exact cap_modCap_ne _ _ hj

/-- So does the partial record of a reduction. -/
theorem cap_flush_ne {k j : Nat} (i : Nat) (p : Plan) (r : Reduction) (s : State) (hj : j ≠ k) :
    (s.flush k i p r).cap j = s.cap j := by
  unfold State.flush; dsimp only
  rw [cap_modCap_ne _ _ hj]
  split
  · rfl
  · exact cap_emit_ne _ _ _ _ hj

/-- Partial records of slot `k` leave every other slot alone. -/
theorem cap_flushes_ne {k j : Nat} (p : Plan) (l : List (Reduction × Nat)) (s : State) (hj : j ≠ k) :
    (l.foldl (fun s (r, i) => s.flush k i p r) s).cap j = s.cap j := by
  refine foldl_keeps (·.cap j) _ (fun s x => ?_) l s
  exact cap_flush_ne x.2 p x.1 s hj

@[simp] theorem cap_armAlm (w : AlmWhat) (T : BitVec 32) (j : Nat) (s : State) : (s.armAlm w T).2.cap j = s.cap j := rfl

/-- A plan applies to its own slot. -/
theorem applyPlan_cap_ne {k j : Nat} (t : Nat) (new : Option Plan) (s : State) (hj : j ≠ k) : (s.applyPlan k t new).cap j = s.cap j := by
  have hf : (match (s.cap k).active with
      | none => s
      | some p => p.reds.zipIdx.foldl (fun s (r, i) => s.flush k i p r) s).cap j = s.cap j := by
    split
    · rfl
    · exact cap_flushes_ne _ _ s hj
  unfold State.applyPlan; dsimp only
  cases new with
  | none => rw [cap_modCap_ne _ _ hj, cap_modCap_ne _ _ hj]; exact hf
  | some p =>
    dsimp only
    split <;> exact (cap_modCap_ne _ _ hj).trans ((cap_modCap_ne _ _ hj).trans hf)

/-- A plan that applies stands in its slot, whose counts start from zero (R254, R256, R258). -/
theorem applyPlan_cap (k t : Nat) (new : Option Plan) (s : State) (hk : k < 512) :
    ((s.applyPlan k t new).cap k).active = new ∧ ((s.applyPlan k t new).cap k).seqno = 0 ∧
      ((s.applyPlan k t new).cap k).done_ = false ∧ ((s.applyPlan k t new).cap k).holdUntil = none ∧
      (new.isSome → ((s.applyPlan k t new).cap k).histAt = t) := by
  unfold State.applyPlan; dsimp only
  cases new with
  | none => rw [cap_modCap_same _ _ _ hk]; exact ⟨rfl, rfl, rfl, rfl, nofun⟩
  | some p =>
    dsimp only
    split
    · rw [cap_armAlm, cap_modCap_same _ _ _ hk]
      exact ⟨rfl, rfl, rfl, rfl, fun _ => rfl⟩
    · rw [cap_modCap_same _ _ _ hk]
      exact ⟨rfl, rfl, rfl, rfl, fun _ => rfl⟩

/-- The plan that CAPTURE_CONFIG asks for: the plan of a set, with the first granule of its ring, and none where a plan is removed. -/
def State.askedPlan (s : State) (p : Packet) : Option Plan :=
  if fld (wordAt p.payload 0) 63 62 = 0 then
    some { capPlan p with raddr := (s.ringFor (capSlotOf p) (capPlan p)).getD 0 }
  else none

/-- The sequencer that binds the packet's slot, if one does. -/
abbrev State.capBinder (s : State) (p : Packet) : Option Nat :=
  s.liveBinder (demodBinding (demodLine (capSlotOf p)) (demodSlotNo (capSlotOf p)))

/-- On a slot that no sequencer binds, the plan applies at once (R254). -/
theorem captureConfig_applies {p : Packet} {s : State} (hm : fld (wordAt p.payload 0) 63 62 < 2) (hb : s.capBinder p = none) :
    (captureConfigCmd.eff s p).st =
      (s.applyPlan (capSlotOf p) s.now (s.askedPlan p)).modCap (capSlotOf p) fun c => { c with shadow := none } := by
  unfold captureConfigCmd State.askedPlan
  dsimp only
  obtain hm | hm : fld (wordAt p.payload 0) 63 62 = 0 ∨ fld (wordAt p.payload 0) 63 62 = 1 := by omega
  all_goals simp [hm, hb]

/-- On a slot that a sequencer binds, the plan stands in the shadow copy (R254). -/
theorem captureConfig_shadows {p : Packet} {s : State} (hm : fld (wordAt p.payload 0) 63 62 < 2) (hb : s.capBinder p ≠ none) :
    (captureConfigCmd.eff s p).st = s.modCap (capSlotOf p) fun c => { c with shadow := some (s.askedPlan p) } := by
  unfold captureConfigCmd State.askedPlan
  dsimp only
  obtain hm | hm : fld (wordAt p.payload 0) 63 62 = 0 ∨ fld (wordAt p.payload 0) 63 62 = 1 := by omega
  all_goals simp [hm, hb]

/-- A query changes nothing, and replies the words of the slot (Table 10.10). -/
theorem captureConfig_queries {p : Packet} (hm : 2 ≤ fld (wordAt p.payload 0) 63 62) (s : State) :
    captureConfigCmd.eff s p = { st := s, changed := false, reply := some (s.capWords (capSlotOf p)) } := by
  unfold captureConfigCmd; dsimp only
  split
  · omega
  · omega
  · rfl

/-- CAPTURE_CONFIG leaves the command state alone. -/
theorem captureConfig_host (p : Packet) (s : State) : (captureConfigCmd.eff s p).st.host = s.host := by
  by_cases hm : fld (wordAt p.payload 0) 63 62 < 2
  · by_cases hb : s.capBinder p = none
    · simp [captureConfig_applies hm hb]
    · simp [captureConfig_shadows hm hb]
  · rw [captureConfig_queries (Nat.not_lt.1 hm)]

/-- CAPTURE_CONFIG reaches no slot but its own. -/
theorem captureConfig_ne (p : Packet) (s : State) {j : Nat} (hj : j ≠ capSlotOf p) : (captureConfigCmd.eff s p).st.cap j = s.cap j := by
  by_cases hm : fld (wordAt p.payload 0) 63 62 < 2
  · by_cases hb : s.capBinder p = none
    · rw [captureConfig_applies hm hb, cap_modCap_ne _ _ hj, applyPlan_cap_ne _ _ _ hj]
    · rw [captureConfig_shadows hm hb, cap_modCap_ne _ _ hj]
  · rw [captureConfig_queries (Nat.not_lt.1 hm)]

/-- What an applied plan leaves in the packet's slot. -/
theorem captureConfig_applied {p : Packet} {s : State} (hm : fld (wordAt p.payload 0) 63 62 < 2) (hb : s.capBinder p = none) :
    let c := (captureConfigCmd.eff s p).st.cap (capSlotOf p)
    c.active = s.askedPlan p ∧ c.shadow = none ∧ c.seqno = 0 ∧ c.done_ = false ∧ c.holdUntil = none ∧
      ((s.askedPlan p).isSome → c.histAt = s.now) := by
  obtain ⟨ha, hs, hd, hu, ht⟩ := applyPlan_cap (capSlotOf p) s.now (s.askedPlan p) s (capSlotOf_lt p)
  rw [captureConfig_applies hm hb, cap_modCap_same _ _ _ (capSlotOf_lt p)]
  exact ⟨ha, rfl, hs, hd, hu, ht⟩

@[simp] theorem entry_askedPlan (c : Command) (p : Packet) (s : State) : (c.entry p s).askedPlan p = s.askedPlan p := by
  simp only [State.askedPlan, entry_ringFor]

theorem captureConfig_answers (p : Packet) : Answers (.captureConfig p) captureConfigCmd p fun s t =>
    let k := capSlotOf p
    let plan := { capPlan p with raddr := (s.ringFor k (capPlan p)).getD 0 }
    let bound := s.liveBinder (demodBinding (demodLine k) (demodSlotNo k))
    (fld (wordAt p.payload 0) 63 62 = 0 → bound = none →
      (t.cap k).active = some plan ∧ (t.cap k).shadow = none ∧ (t.cap k).seqno = 0 ∧ (t.cap k).done_ = false ∧
      (t.cap k).holdUntil = none ∧ (t.cap k).histAt = s.now) ∧
    (fld (wordAt p.payload 0) 63 62 = 0 → bound ≠ none →
      (t.cap k).shadow = some (some plan) ∧ (t.cap k).active = (s.cap k).active ∧ (t.cap k).rings = (s.cap k).rings) ∧
    (fld (wordAt p.payload 0) 63 62 = 1 → bound = none → (t.cap k).active = none ∧ (t.cap k).shadow = none) ∧
    (fld (wordAt p.payload 0) 63 62 = 1 → bound ≠ none → (t.cap k).shadow = some none ∧ (t.cap k).active = (s.cap k).active) ∧
    (fld (wordAt p.payload 0) 63 62 = 2 → t.acq = s.acq ∧ Posted p (s.host.accept + 1) 0 (some (s.capWords k)) t) ∧
    ∀ j, j ≠ k → t.cap j = s.cap j := by
  refine answers_of (fun _ => rfl) fun s hr => ⟨by simp [captureConfig_host], ?_⟩
  dsimp only
  have hset (h : fld (wordAt p.payload 0) 63 62 = 0) : s.askedPlan p =
      some { capPlan p with raddr := (s.ringFor (capSlotOf p) (capPlan p)).getD 0 } := if_pos h
  have hremove (h : fld (wordAt p.payload 0) 63 62 = 1) : s.askedPlan p = none := if_neg (by omega)
  have hbinder : (captureConfigCmd.entry p s).capBinder p = s.capBinder p := entry_liveBinder _ _ _ _
  simp only [commit_cap]
  refine ⟨fun hm hb => ?_, fun hm hb => ?_, fun hm hb => ?_, fun hm hb => ?_, fun hm => ?_, fun j hj => ?_⟩
  · obtain ⟨ha, hs, hn, hd, hu, ht⟩ := captureConfig_applied (p := p) (by omega) (hbinder.trans hb)
    rw [entry_askedPlan, hset hm] at ha ht
    exact ⟨ha, hs, hn, hd, hu, (ht rfl).trans (entry_now _ _ _)⟩
  · rw [captureConfig_shadows (by omega) (hbinder ▸ hb), cap_modCap_same _ _ _ (capSlotOf_lt p), entry_askedPlan, hset hm,
      entry_cap]
    exact ⟨rfl, rfl, rfl⟩
  · obtain ⟨ha, hs, -⟩ := captureConfig_applied (p := p) (by omega) (hbinder.trans hb)
    rw [entry_askedPlan, hremove hm] at ha
    exact ⟨ha, hs⟩
  · rw [captureConfig_shadows (by omega) (hbinder ▸ hb), cap_modCap_same _ _ _ (capSlotOf_lt p), entry_askedPlan, hremove hm,
      entry_cap]
    exact ⟨rfl, rfl⟩
  · have hq := captureConfig_queries (Nat.le_of_eq hm.symm) (captureConfigCmd.entry p s)
    have hp := ready_posted hr (by rw [hq]) (by rw [hq]) (by simp [hq]) (by simp [hq])
    rw [hq] at hp ⊢
    exact ⟨by simp, by simpa using hp⟩
  · rw [captureConfig_ne p _ hj, entry_cap]

/-! ## CAPTURE_READ (Table 10.11) -/

/-- A slot of which `n` words have been read: the losses since the last read are told (R263). -/
def CapSlot.readOf (n : Nat) (c : CapSlot) : CapSlot :=
  { c with rings := consumeAll n c.rings, lostRead := 0, droppedRead := 0, resync := false }

/-- A slot whose rings are emptied. -/
def CapSlot.emptied (c : CapSlot) : CapSlot := { c with rings := c.rings.map fun r => { r with recs := [], read := 0 } }

theorem emptied_stream (c : CapSlot) : c.emptied.stream = [] := by simp [stream_eq, CapSlot.emptied, Ring.stream, List.flatMap_map]

/-- A read takes the words that it asks for, as far as the slot has them. -/
theorem readOf_stream (n : Nat) (c : CapSlot) : (c.readOf (c.stream.take n).length).stream = c.stream.drop n := by
  rw [stream_eq, CapSlot.readOf, consumeAll_stream, ← stream_eq, List.length_take]
  rcases Nat.le_total n c.stream.length with h | h
  · rw [Nat.min_eq_left h]
  · rw [Nat.min_eq_right h, List.drop_length, List.drop_eq_nil_of_le h]

/-- What CAPTURE_READ does: it takes words, leaves them, or empties the rings of its slot. -/
theorem captureRead_st (p : Packet) (s : State) :
    let k := capSlotOf p
    (fld (wordAt p.payload 0) 63 62 = 0 → (captureReadCmd.eff s p).st = s.modCap k fun c =>
      (c.readOf ((s.cap k).stream.take (fld (wordAt p.payload 0) 52 39)).length).freeRings (s.lateDue k)) ∧
    (fld (wordAt p.payload 0) 63 62 ≠ 0 → fld (wordAt p.payload 0) 63 62 ≠ 2 → (captureReadCmd.eff s p).st = s) ∧
    (fld (wordAt p.payload 0) 63 62 = 2 → (captureReadCmd.eff s p).st = s.modCap k fun c => c.emptied.freeRings (s.lateDue k)) := by
  dsimp only
  unfold captureReadCmd; dsimp only
  refine ⟨fun h => ?_, fun h0 h2 => ?_, fun h => ?_⟩
  · simp [h, CapSlot.readOf]
  · simp [h0, h2]
  · simp [h, CapSlot.emptied]

/-- CAPTURE_READ reaches no slot but its own, and leaves the command state alone. -/
theorem captureRead_keeps (p : Packet) (s : State) : (captureReadCmd.eff s p).st.host = s.host ∧
    ∀ j, j ≠ capSlotOf p → (captureReadCmd.eff s p).st.cap j = s.cap j := by
  obtain ⟨h0, h1, h2⟩ := captureRead_st p s
  by_cases hm : fld (wordAt p.payload 0) 63 62 = 0
  · rw [h0 hm]
    exact ⟨rfl, fun j hj => cap_modCap_ne _ _ hj⟩
  by_cases hm2 : fld (wordAt p.payload 0) 63 62 = 2
  · rw [h2 hm2]
    exact ⟨rfl, fun j hj => cap_modCap_ne _ _ hj⟩
  · rw [h1 hm hm2]
    exact ⟨rfl, fun _ _ => rfl⟩

/-- The reply of a read that leaves its words: the counts, and the words from the read position on (Table 10.11). -/
theorem captureRead_peeks {p : Packet} (hm : fld (wordAt p.payload 0) 63 62 = 1) (s : State) :
    let c := s.cap (capSlotOf p)
    let d := c.stream.take (fld (wordAt p.payload 0) 52 39)
    captureReadCmd.eff s p = { st := s, changed := false, reply := some ([orAll [put 63 32 c.lostRead, putB 31 c.resync,
      put 30 17 d.length], put 63 32 c.droppedRead ||| put 31 0 (min c.stream.length (2 ^ 32 - 1))] ++ d) } := by
  simp [captureReadCmd, hm]

theorem captureRead_answers (p : Packet) : Answers (.captureRead p) captureReadCmd p fun s t =>
    let k := capSlotOf p
    let n := fld (wordAt p.payload 0) 52 39
    (fld (wordAt p.payload 0) 63 62 = 0 →
      (t.cap k).stream = (s.cap k).stream.drop n ∧ (t.cap k).lostRead = 0 ∧ (t.cap k).droppedRead = 0 ∧ (t.cap k).resync = false ∧
      (t.cap k).ready = (s.cap k).ready) ∧
    (fld (wordAt p.payload 0) 63 62 = 1 → t.acq = s.acq ∧
      Posted p (s.host.accept + 1) 0 (some ([orAll [put 63 32 (s.cap k).lostRead, putB 31 (s.cap k).resync,
        put 30 17 ((s.cap k).stream.take n).length], put 63 32 (s.cap k).droppedRead |||
        put 31 0 (min (s.cap k).stream.length (2 ^ 32 - 1))] ++ (s.cap k).stream.take n)) t) ∧
    (fld (wordAt p.payload 0) 63 62 = 2 → (t.cap k).stream = [] ∧ (t.cap k).ready = (s.cap k).ready) ∧
    ∀ j, j ≠ k → t.cap j = s.cap j := by
  refine answers_of (fun _ => rfl) fun s hr => ?_
  obtain ⟨hh, hne⟩ := captureRead_keeps p (captureReadCmd.entry p s)
  obtain ⟨htake, -, hempty⟩ := captureRead_st p (captureReadCmd.entry p s)
  refine ⟨by simp [hh], fun hm => ?_, fun hm => ?_, fun hm => ?_, fun j hj => ?_⟩
  · rw [commit_cap, htake hm, cap_modCap_same _ _ _ (capSlotOf_lt p), entry_cap, freeRings_stream, readOf_stream]
    exact ⟨rfl, rfl, rfl, rfl, rfl⟩
  · have hq := captureRead_peeks hm (captureReadCmd.entry p s)
    have hp := ready_posted hr (by rw [hq]) (by rw [hq]) (by simp [hq]) (by simp [hq])
    rw [hq] at hp ⊢
    exact ⟨by simp, by simpa using hp⟩
  · rw [commit_cap, hempty hm, cap_modCap_same _ _ _ (capSlotOf_lt p), entry_cap, freeRings_stream, emptied_stream]
    exact ⟨rfl, rfl⟩
  · rw [commit_cap, hne j hj, entry_cap]

/-- Settles O47: the committed state has the triggers and captures of the effect, in which PATTERN_CONFIG has written its records,
CAPTURE_CONFIG has applied a plan or put it into the shadow copy, and CAPTURE_READ has taken words off the rings of its slot. -/
theorem acquisitionCommandsComplete : Obligations.AcquisitionCommandsComplete :=
  ⟨patternConfig_answers, captureConfig_answers, captureRead_answers⟩

end Sys2Proof.Machine
end

section
/-!
PROOFS. What the triggers, the captures, the bias channels and the monitors leave alone (chapters 10 and 11).
-/
namespace Sys2Proof.Machine

/-! ## Triggers and acquisition (chapter 10) -/

theorem patternConfig_frame (p : Packet) : Frame (.patternConfig p) (withReport [.acq]) :=
  frame_of (c := patternConfigCmd) (fun _ => rfl) (by simp) fun s => by simp [patternConfigCmd, only_iff]

theorem captureConfig_frame (p : Packet) : Frame (.captureConfig p) (withReport [.acq, .time]) :=
  frame_of (c := captureConfigCmd) (fun _ => rfl) (by simp) fun s => by
    unfold captureConfigCmd; dsimp only
    split
    · split <;> simp [only_iff]
    · split <;> simp [only_iff]
    · simp [only_iff]

theorem captureRead_frame (p : Packet) : Frame (.captureRead p) (withReport [.acq]) :=
  frame_of (c := captureReadCmd) (fun _ => rfl) (by simp) fun s => by
    unfold captureReadCmd; dsimp only
    split
    · simp [only_iff]
    · dsimp only
      split <;> simp [only_iff]

theorem triggerInputEdge_frame (i : Fin 19) (level : Bool) (d : Fin 5) :
    Frame (.triggerInputEdge i level d) [.acq, .seqs, .time] := fun s => by
  show Keeps _ s (execTriggerInputEdge i level d s)
  simp [execTriggerInputEdge, only_iff]

theorem triggerEvent_frame (i : Fin 19) : Frame (.triggerEvent i) [.acq, .seqs, .time] := fun s => by
  show Keeps _ s (execTriggerEvent i s)
  simp [execTriggerEvent, only_iff]

theorem inputStuck_frame (i : Fin 19) : Frame (.inputStuck i) (withReport [.acq, .time]) := fun s => by
  show Keeps _ s (execInputStuck i s)
  unfold execInputStuck; dsimp only
  split <;> simp [only_iff]

theorem patternUnitFire_frame (u : Fin 32) : Frame (.patternUnitFire u) (withReport [.acq, .seqs]) := fun s => by
  show Keeps _ s (execPatternUnitFire u s)
  unfold execPatternUnitFire; dsimp only
  split <;> simp [only_iff]

theorem captureHoldoffEnd_frame (k : Fin 512) : Frame (.captureHoldoffEnd k) [.acq, .time] := fun s => by
  show Keeps _ s (execCaptureHoldoffEnd k s)
  unfold execCaptureHoldoffEnd
  split <;> simp [only_iff]

theorem rawRecordEnd_frame (k : Fin 512) (data : Words) : Frame (.rawRecordEnd k data) (withReport [.acq, .time]) := fun s => by
  show Keeps _ s (execRawRecordEnd k data s)
  unfold execRawRecordEnd; dsimp only
  split
  · simp [only_iff]
  refine keeps_ite ?_ ?_
  · split <;> simp [only_iff]
  · simp [only_iff]

theorem recordDrain_frame (k : Fin 512) (bad : Option (BitVec 16)) : Frame (.recordDrain k bad) (withReport [.acq]) := fun s => by
  show Keeps _ s (execRecordDrain k bad s)
  unfold execRecordDrain; dsimp only
  split <;> simp [only_iff]

theorem verdictLatch_frame : Frame .verdictLatch (withReport [.acq, .seqs, .fabric, .conc, .time]) := fun s => by
  show Keeps _ s (execVerdictLatch s)
  unfold execVerdictLatch; dsimp only
  split <;> simp [only_iff]

/-! ## Bias and monitors (chapter 11) -/

theorem biasConfig_frame (p : Packet) : Frame (.biasConfig p) (withReport [.bias, .time, .cal]) :=
  frame_of (c := biasConfigCmd) (fun _ => rfl) (by simp) fun s => by simp [biasConfigCmd, only_iff]

theorem biasSet_frame (p : Packet) : Frame (.biasSet p) (withReport [.bias, .time]) :=
  frame_of (c := biasSetCmd) (fun _ => rfl) (by simp) fun s => by
    unfold biasSetCmd; dsimp only
    split
    · simp [only_iff]
    · split <;> simp [only_iff]
    · simp [only_iff]
    · simp [only_iff]

theorem monitorConfig_frame (p : Packet) : Frame (.monitorConfig p) (withReport [.bias, .acq, .synth, .time]) :=
  frame_of (c := monitorConfigCmd) (fun _ => rfl) (by simp) fun s => by
    unfold monitorConfigCmd; dsimp only
    split <;> simp [only_iff]

theorem housekeepingRequestEnd_frame (d : Fin 4) (v : Word) : Frame (.housekeepingRequestEnd d v) (withReport [.bias]) := fun s => by
  show Keeps _ s (execHousekeepingRequestEnd d v s)
  unfold execHousekeepingRequestEnd; dsimp only
  split
  · simp [only_iff]
  split
  · simp [only_iff]
  · refine keeps_ite ?_ ?_ <;> simp [only_iff]

theorem biasSlewStep_frame (b : Fin 256) : Frame (.biasSlewStep b) [.bias, .time] := fun s => by
  show Keeps _ s (execBiasSlewStep b s)
  unfold execBiasSlewStep; dsimp only
  split <;> simp [only_iff]

theorem deglitchHoldEnd_frame (b : Fin 256) : Frame (.deglitchHoldEnd b) [.bias, .time] := fun s => by
  show Keeps _ s (execDeglitchHoldEnd b s)
  unfold execDeglitchHoldEnd
  split <;> simp [only_iff]

theorem biasQueueStart_frame (b : Fin 256) : Frame (.biasQueueStart b) [.bias, .time] := fun s => by
  show Keeps _ s (execBiasQueueStart b s)
  unfold execBiasQueueStart
  split
  · split
    · refine keeps_ite ?_ ?_ <;> simp [only_iff]
    · simp [only_iff]
  · simp [only_iff]

theorem biasQueueUpdate_frame (b : Fin 256) : Frame (.biasQueueUpdate b) [.bias, .time] := fun s => by
  show Keeps _ s (execBiasQueueUpdate b s)
  unfold execBiasQueueUpdate; dsimp only
  split <;> simp [only_iff]

theorem biasReachZero_frame (b : Fin 256) : Frame (.biasReachZero b) [.bias] := fun s => by
  show Keeps _ s (execBiasReachZero b s)
  unfold execBiasReachZero; dsimp only
  refine keeps_ite (keeps_ite ?_ ?_) ?_ <;> simp [only_iff]

theorem biasSwitchOpen_frame (b : Fin 256) : Frame (.biasSwitchOpen b) [.bias, .time] := fun s => by
  show Keeps _ s (execBiasSwitchOpen b s)
  unfold execBiasSwitchOpen
  split <;> simp [only_iff]

theorem stageLimitChange_frame (b : Fin 256) (l : Bool) : Frame (.stageLimitChange b l) [.bias] := fun s => by
  show Keeps _ s (execStageLimitChange b l s)
  unfold execStageLimitChange; dsimp only
  refine keeps_ite (keeps_ite ?_ ?_) ?_ <;> simp [only_iff]

theorem supervisionEvent_frame (b : Fin 256) (current : BitVec 32) :
    Frame (.supervisionEvent b current) (withReport [.bias, .time]) := fun s => by
  show Keeps _ s (execSupervisionEvent b current s)
  unfold execSupervisionEvent; dsimp only
  split
  · simp [only_iff]
  · refine keeps_ite (by simp [only_iff]) ?_
    match (s.ch b.val).supv with
    | 0 => simp [only_iff]
    | 1 => simp [only_iff]
    | 2 => simp [only_iff]
    | _ + 3 => simp [only_iff]

theorem monitorTrip_frame (m : Fin 288) (x : BitVec 32) :
    Frame (.monitorTrip m x) (withReport [.bias, .acq, .synth, .time]) := fun s => by
  show Keeps _ s (execMonitorTrip m x s)
  unfold execMonitorTrip; dsimp only
  split <;> simp [only_iff]

theorem monitorRelease_frame (m : Fin 288) (above : BitVec 32) :
    Frame (.monitorRelease m above) (withReport [.bias, .acq, .synth, .time]) := fun s => by
  show Keeps _ s (execMonitorRelease m above s)
  unfold execMonitorRelease; dsimp only
  split <;> simp [only_iff]

/-- Settles O51: each command and event of the triggers, the captures, the bias channels and the monitors is a few writes of what it
serves, and its report; a match, an edge and a verdict reach the sequencers, and a trip the outputs that its map names. -/
theorem biasFrame : Obligations.BiasFrame :=
  ⟨patternConfig_frame, captureConfig_frame, captureRead_frame, triggerInputEdge_frame, triggerEvent_frame, inputStuck_frame,
    patternUnitFire_frame, captureHoldoffEnd_frame, rawRecordEnd_frame, recordDrain_frame, verdictLatch_frame, biasConfig_frame,
    biasSet_frame, monitorConfig_frame, housekeepingRequestEnd_frame, biasSlewStep_frame, deglitchHoldEnd_frame, biasQueueStart_frame,
    biasQueueUpdate_frame, biasReachZero_frame, biasSwitchOpen_frame, stageLimitChange_frame, supervisionEvent_frame,
    monitorTrip_frame, monitorRelease_frame⟩

end Sys2Proof.Machine
end
